-- ==== Sys2Proof/Word.lean ====
section
/-! DEFINITION. The word types of the machine (R5 to R7): bit vectors for what the manual treats as bits. -/

namespace Sys2Proof

/-- A byte (B), 8 bits (R7). -/
abbrev Byte := BitVec 8

/-- A halfword (H), 16 bits (R7). -/
abbrev Half := BitVec 16

/-- A word (W), 32 bits (R7). -/
abbrev Word := BitVec 32

/-- A doubleword (D), 64 bits (R7): a general register, a scratchpad word, a payload word. -/
abbrev DWord := BitVec 64

/-- A vector register, 1,024 bits (R139). -/
abbrev Vec := BitVec 1024

/-- A general, floating-point or vector register number (R199). -/
abbrev Reg := Fin 32

/-- A predicate register number (R199). -/
abbrev PReg := Fin 16

/-- CORE_ID of one of the 8,192 cores of the module (R315). -/
abbrev CoreId := Fin 8192

/-- A context number, 0 to 13 (R12). -/
abbrev CtxId := Fin 14

end Sys2Proof
end

