-- ==== Sys2Proof/Config.lean ====
section
/-! DEFINITION. What the manual leaves open for ever: the free values. Nothing in Lean can evaluate them, so a
statement that mentions one holds for every value. -/

namespace Sys2Proof.Config

/-- An *unpredictable* value of `w` bits (R3): the `n`-th one drawn. No body: see log entry 2. -/
opaque free (w : Nat) (n : Nat) : BitVec w

/-- Whether the service processor accepts an image's SLH-DSA-SHAKE-256s signature (R388): the key hash is in the
fuses of the part, which the manual does not give. Log entry 3. -/
opaque signatureGood (image : List (BitVec 8)) : Bool

/-- The signed attestation that answers an SPDM request (R388): the identity key is the part's own. Log entry 3. -/
opaque attestation (request : List (BitVec 8)) : List (BitVec 8)

/-- A byte of a save area whose place in a named part the manual leaves open (R372): some function of what the part holds. Log
entry 36. -/
opaque imageByte {α : Type} (part : Nat) (v : α) (i : Nat) : BitVec 8

end Sys2Proof.Config
end

