-- ==== Sys2Proof/Syntax.lean ====
section
/-! DEFINITION. The instructions and happenings of the YT-8192: one constructor of `Instr` per row of
spec/opcode_table.json, with the operand types their fields denote (R199 to R206). -/

namespace Sys2Proof

/-- The guard of a 32-bit instruction (R202, R203): none, or `?pN` (acts on 1) / `?!pN` (acts on 0). -/
inductive Guard where
  | always
  | onSet (p : PReg)
  | onClear (p : PReg)
deriving DecidableEq, Repr

/-- Whether the instruction is guarded: the narrower immediates of R204. -/
def Guard.isGuarded : Guard → Bool
  | .always => false
  | .onSet _ => true
  | .onClear _ => true

/-- Integer conditions of CMP, CMPI and VCMP (R224). -/
inductive ICond where
  | eq | ne | lt | ge | ltu | geu | tst | ntst
deriving DecidableEq, Repr

/-- Floating-point conditions of FCMP and VCMP.F (R227). -/
inductive FCond where
  | eq | ne | lt | le | gt | ge | un | ord
deriving DecidableEq, Repr

/-- The mode operand of FCVT (R244). -/
inductive FcvtMode where
  | fmode | rne | rtz | rup | rdn
deriving DecidableEq, Repr

/-- The cache policy of LDG and STG (R79, R258). -/
inductive Policy where
  | normal | stream | keep | nol1
deriving DecidableEq, Repr

/-- The scopes of R87. -/
inductive Scope where
  | ctx | core | landing | die | device | domain | system
deriving DecidableEq, Repr

/-- The formats of MMA (R137, R142). -/
inductive MmaFmt where
  | xf8 | f8 | g8 | bf16 | i8 | s4 | s2
deriving DecidableEq, Repr

/-- The special registers (R18, R30, R35, R46, R70, R110, R125, R141, R314 to R316, R359, R387). -/
inductive SpecialReg where
  | tnowT | tnowM | clock | horizon | lastT | lastM | tagunit
  | dbDie | dbPkg | dbChas | dbFar | ebound | inclass
  | coreId | landingId | dieId | devCoord | ctxId
  | slot | origin | joinN | fflags | fmode | iflags
  | lateT | lateM | lateOrig | lateSend | lateArr | lateLastT | lateLastM | lateClass
  | cause | fpc | faddr | finfo | tvec | frpc | tcfg | tstk
  | beatIv | beatLeft | gangCfg
  | staleCnt | inboxN | spillN | spillTake | spillPut | spillBuf | bexCnt | blkarea
  | detCfg | quantum | wsCal | wsPeriod | wsWindow
deriving DecidableEq, Repr

/-- A tag (t, m) (R8). -/
structure Tag where
  t : DWord
  m : Word
deriving DecidableEq, Repr

/-- Route classes of events (R12 ff., LATE_CLASS.CLS of R35). -/
inductive RouteClass where
  | die | package | chassis | far
deriving DecidableEq, Repr

/-- The payload of an event (R13): 1, 2 or 4 words, one vector, or a block of bytes. -/
inductive Payload where
  | words (ws : List DWord)
  | vector (v : Vec)
  | block (bytes : List Byte)
deriving DecidableEq, Repr

/-- The contents of an event (R13). `ctl`: a bounce or fault event, which matches any generation at its slot (R16). -/
structure Ev where
  dest        : DWord
  tag         : Tag
  origin      : DWord
  seq         : Word
  sendTs      : DWord
  payload     : Payload
  sendLate    : Bool
  bex         : Bool
  restartable : Bool
  replay      : Bool
  ctl         : Bool
deriving DecidableEq, Repr

/-- The eight words of a host event window slot (R343). -/
structure WinSlot where
  w0 : DWord
  w1 : DWord
  w2 : DWord
  w3 : DWord
  w4 : DWord
  w5 : DWord
  w6 : DWord
  w7 : DWord
deriving DecidableEq, Repr

/-- What a fabric packet carries, by its type (R379). The manual gives the layout of an event's body (R380); of the
others it gives the kind, and the model carries what the receiver acts on; `cause` of a reply is the fault that its home
found, or 0 (log entry 12). -/
inductive PBody where
  | event (e : Ev)
  | fragment (origin : DWord) (seq : Word) (offset : Nat) (bytes : List Byte)
  | loadRequest (reqTag : Nat) (pa : Nat) (n : Nat) (versioned : Bool)
  | loadReply (reqTag : Nat) (v : DWord) (cause : Byte)
  | store (pa : Nat) (bytes : List Byte)
  | atomic (srcCore : Nat) (reqTag : Nat) (op : Nat) (pa : Nat) (operand expected : DWord)
  | atomicReply (reqTag : Nat) (v : DWord) (cause : Byte)
  | objectOp (srcCore : Nat) (reqTag : Nat) (op : Nat) (pa : Nat) (v : DWord)
  | objectReply (reqTag : Nat) (v : DWord) (cause : Byte)
  | capability (region : Nat) (fromCore toCore : Nat) (refused : Bool)
  | ack (seq : Word)
  | timestamps (t1 t2 t3 t4 : DWord)
  | marker (freezeMarker : Bool)
  | reserved (type : Nat)
deriving DecidableEq, Repr

/-- How a packet comes across a link (R381): whole; with a flit whose link CRC fails, of which the receiver asks a replay; with
the link going down under it; or ended by a cut marker where it was cut off before. -/
inductive Crossing where
  | whole | replay | broken | cut
deriving DecidableEq, Repr

/-- A fabric packet as a port receives it (R379): header bytes 0 to 7, HCHK, E2ESEQ, body, ECHK, what the GCM tag says of it, how
it came across the link; and, of the packets that this module has sent (destination module, E2ESEQ), those that what it carries
comes after (R97; log entries 12, 84). -/
structure Packet where
  header   : DWord
  hchk     : Half
  e2eseq   : Word
  body     : PBody
  echk     : Word
  tagGood  : Bool
  crossing : Crossing
  after    : List (BitVec 20 × Word)
deriving DecidableEq, Repr

/-- What a PTM exchange brings: the host's time, and the slew in ns that discipline applies (R356, R385). -/
structure PtmAnswer where
  hostTime : DWord
  slew     : Int
deriving DecidableEq, Repr

/-- Kinds of machine check that hardware finds without an instruction (R367): 1 write-back, 2 directory or overflow
table, 3 core logic or register file. -/
inductive McKind where
  | writeBack | directory | coreLogic
deriving DecidableEq, Repr

/-- One constructor per row of spec/opcode_table.json: first the 83 happenings (spec/95_what_each_step_holds.md), whose
arguments say where they happen and what the outside world brings, then the 365 instructions, each part in the table's
order. -/
inductive Instr where
  /-- EVENT_ARRIVAL (R26): An event reaches the receiving core's landing router and is tested for generation, bounds and
  lateness before entry. -/
  | eventArrival (k : Nat)
  /-- HOLD_BACK_ENTRY (R390): An event held back in the landing router enters the inbox when an entry or block slot frees. -/
  | holdBackEntry (c : CoreId)
  /-- REACTION_START (R28): The selector starts a reaction for a safe, unheld, complete head in a free helper. -/
  | reactionStart (c : CoreId)
  /-- HEAD_STALE_DISCARD (R37): The head fails its generation test when it becomes the head and is discarded. -/
  | headStaleDiscard (c : CoreId)
  /-- CANCELLED_EVENT_DISCARD (R45): An event of a cancelled launch is discarded when it becomes the head. -/
  | cancelledEventDiscard (c : CoreId)
  /-- JOIN_GRACE_EXPIRED (R31): CLOCK reaches t + H + G and an incomplete join starts with the arrivals it has. -/
  | joinGraceExpired (c : CoreId)
  /-- POOL_UNIT_START (R41): The selector starts a pooled unit with a pulled index in a free helper. -/
  | poolUnitStart (c : CoreId)
  /-- HEARTBEAT_MISSED (R46): BEAT_LEFT reaches zero and the core is fenced. -/
  | heartbeatMissed (c : CoreId) (h : CtxId)
  /-- SEND_DEPARTURE (R22): An event leaves the send queue, timestamped and flagged send-late if below CLOCK. -/
  | sendDeparture (c : CoreId)
  /-- SLOT_CHANGE_EFFECT (R25): A pending BIND, UNBIND or ARM takes effect once no reaction of the slot runs. -/
  | slotChangeEffect (c : CoreId) (slot : Fin 64)
  /-- CROSSBAR_COUNTER_ZERO (R50): A crossbar counter reaches zero, emits a pulse and reloads. -/
  | crossbarCounterZero (c : CoreId) (i : Fin 4)
  /-- CROSSBAR_LOCAL_EVENT_ENTRY (R51): A waiting crossbar local event enters the inbox when an entry frees. -/
  | crossbarLocalEventEntry (c : CoreId) (out : Fin 2)
  /-- COPY_REQUEST_START (R163): A copy channel starts its next request after the previous one completes. -/
  | copyRequestStart (c : CoreId) (ch : Fin 4)
  /-- COPY_REQUEST_COMPLETE (R163): A copy request's last write is performed and the done id advances. -/
  | copyRequestComplete (c : CoreId) (ch : Fin 4)
  /-- CHANNEL_FAULT (R164): A running copy request meets a fault and the channel stops. -/
  | channelFault (c : CoreId) (ch : Fin 4) (uncorrectable : Bool)
  /-- GANG_BARRIER_COMPLETE (R146): Every core of the gang has posted its matching entry and the entries are compared. -/
  | gangBarrierComplete (c : CoreId)
  /-- MMA_STEP (R147): One timed step of a gang operation accumulates a chunk and passes the B chunk on. -/
  | mmaStep (c : CoreId)
  /-- ACCUMULATOR_LEAVES_OWNERSHIP (R149): A matrix operation finishes, the accumulator leaves ownership and pulses its source. -/
  | accumulatorLeavesOwnership (c : CoreId)
  /-- MMA_OPERATION_FAULT (R153): An operation fault ends the gang operation and restores every accumulator. -/
  | mmaOperationFault (c : CoreId)
  /-- MSTO_COMPLETE (R304): An accumulator store writes its last word. -/
  | mstoComplete (c : CoreId) (n : Fin 4)
  /-- COLLECTIVE_ROUND_COMPLETE (R182): All injections reach the spanning pier and outcomes are delivered. -/
  | collectiveRoundComplete (grp : Nat)
  /-- COLLECTIVE_ABORT_ARRIVAL (R186): An abort reaches a member's level-0 pier and fixes its outcome. -/
  | collectiveAbortArrival (grp : Nat) (rank : Nat)
  /-- MCAST_COMPLETION_RECORD (R188): Every branch of a multicast has succeeded or failed and the record is written. -/
  | mcastCompletionRecord (k : Nat) (pierErrors : List Nat)
  /-- OBJECT_OP_AT_ROUTER (R192): An object operation reaches a landing router and pairs, waits or moves on. -/
  | objectOpAtRouter (k : Nat)
  /-- WINDOW_WAIT_EXPIRED (R192): An operation's pairing-window wait expires and it moves on. -/
  | windowWaitExpired (landing : Nat) (k : Nat)
  /-- OBJECT_OP_AT_HOME (R190): The object's home applies a push, pop or count indivisibly. -/
  | objectOpAtHome (k : Nat)
  /-- SPLIT_PHASE_REPLY (R253): A split-phase reply is written to its destination register. -/
  | splitPhaseReply (c : CoreId) (h : CtxId) (k : Nat)
  /-- STV_APPLY (R71): The home creates a version once the word has room. -/
  | stvApply (c : CoreId) (h : CtxId) (k : Nat)
  /-- RECL_APPLY (R72): The home raises a region's watermark and retires versions. -/
  | reclApply (c : CoreId) (h : CtxId) (k : Nat)
  /-- CAPABILITY_ARRIVAL (R75): A HAND message arrives and the receiver gains a capability table entry. -/
  | capabilityArrival (k : Nat)
  /-- CAPQ_ANSWER (R297): A queried core answers whether it holds the capability. -/
  | capqAnswer (c : CoreId) (h : CtxId) (k : Nat)
  /-- ATOMIC_AT_HOME (R100): A home's atomic unit performs an atomic or reduction in arrival order. -/
  | atomicAtHome (c : CoreId) (h : CtxId) (k : Nat)
  /-- STORE_GRANT (R92): The home grants a store after invalidating sharers, making it visible. -/
  | storeGrant (c : CoreId) (h : CtxId) (k : Nat)
  /-- DIRECTORY_OVERFLOW_NOTICE (R65): A fifth reader overflows a directory entry and a notice goes to the home context. -/
  | directoryOverflowNotice (line : Nat) (c : CoreId)
  /-- OVERFLOW_INVALIDATION (R65): A write to an overflowed line invalidates all sharers before it is granted. -/
  | overflowInvalidation (line : Nat)
  /-- TLB_WALK_COMPLETE (R81): A page walk completes and fills the landing and waiting core TLBs. -/
  | tlbWalkComplete (c : CoreId) (va : DWord)
  /-- PREFETCH_COMPLETE (R212): A branch-target prefetch fills or faults and READY is set. -/
  | prefetchComplete (c : CoreId) (h : CtxId) (n : Fin 8)
  /-- WS_REFRESH_WINDOW (R70): A weight-store bank's refresh window begins or ends. -/
  | wsRefreshWindow
  /-- STREAM_ELEMENT_ACCESS (R178): A stream engine reads or performs an element. -/
  | streamElementAccess (c : CoreId) (st : Fin 8)
  /-- FE_WAITER_SERVICE (R60): A change of a word's full/empty bit serves the waiters it satisfies. -/
  | feWaiterService (c : CoreId)
  /-- WAIT_SATISFIED (R286): A waiting instruction's condition holds and it completes. -/
  | waitSatisfied (c : CoreId) (h : CtxId)
  /-- DET_ROUND_CLOSE (R110): A deterministic round closes and waiting ordered requests are served in core order. -/
  | detRoundClose (lcnt : Nat)
  /-- TRAP_ENTRY (R360): A fault stops its context and context 13 becomes live with the trap record. -/
  | trapEntry (c : CoreId)
  /-- TRAP_BUDGET_EXPIRED (R364): Context 13 exhausts its heartbeat budget and the core is fenced. -/
  | trapBudgetExpired (c : CoreId)
  /-- MACHINE_CHECK (R367): An unconsumed uncorrectable error is recorded and signalled. -/
  | machineCheck (kind : McKind) (c : CoreId) (pa : Nat)
  /-- FENCE_RELEASE (R368): The driver writes 1 to a FENCE bit and the core resumes. -/
  | fenceRelease (n : Fin 128) (mask : DWord)
  /-- HOST_EVENT_COMMIT (R345): A kind 0 window commit becomes a package-class event. -/
  | hostEventCommit (w : WinSlot)
  /-- LAUNCH_COMMIT (R347): A kind 1 commit hands a launch record to the launch unit, which accepts or refuses it. -/
  | launchCommit (w : WinSlot)
  /-- LAUNCH_SETUP_RESUME (R348): The launch unit continues set-up once gangs, binds or set-up code have finished. -/
  | launchSetupResume (die : Fin 4)
  /-- SET_COUNTER_COMMIT (R349): A kind 2 commit sets a graph, phase or job counter. -/
  | setCounterCommit (w : WinSlot)
  /-- CANCEL_COMMIT (R349): A kind 3 commit cancels a counter. -/
  | cancelCommit (w : WinSlot)
  /-- CHECKPOINT_CUT_COMMIT (R357): A kind 4 commit requests a checkpoint cut at tc. -/
  | checkpointCutCommit (w : WinSlot)
  /-- CUT_SAVE (R357): Once CLOCK reaches tc + H and engines drain, core state is saved. -/
  | cutSave
  /-- CUT_MARKER_ARRIVAL (R386): A cut or freeze marker arrives on a port. -/
  | cutMarkerArrival (port : Fin 8) (freezeMarker : Bool)
  /-- CHECKPOINT_DRAIN_COMMIT (R358): A kind 5 commit drains the last cut to the CXL pool. -/
  | checkpointDrainCommit (w : WinSlot)
  /-- DRAIN_COMPLETE (R358): The last page is performed at the pool and the completion is delivered. -/
  | drainComplete
  /-- HQHEAD_WRITE (R352): The host advances a queue's head, returning credits. -/
  | hqheadWrite (q : Fin 17) (v : Word)
  /-- FALLBACK_REPLY_COMMIT (R355): The host commits a fallback reply and the waiting atomic completes. -/
  | fallbackReplyCommit (id : Byte) (v : DWord)
  /-- ATOMICOP_UNSUPPORTED (R353): An AtomicOp is answered with Unsupported Request and falls back or faults. -/
  | atomicopUnsupported (c : CoreId) (h : CtxId) (k : Nat)
  /-- PTM_EXCHANGE (R356): A periodic PTM exchange updates HOSTOFF. -/
  | ptmExchange (answer : PtmAnswer)
  /-- TIMESTAMP_EXCHANGE (R385): A periodic timestamp exchange updates offsets and slews the timebase. -/
  | timestampExchange (t1 t2 t3 t4 : DWord) (port : Fin 8) (slew : Int)
  /-- FREEZE (R371): A PECTL.FREEZE write freezes and saves the module. -/
  | freeze (coord : Bool)
  /-- RESUME (R373): A PECTL.RESUME write restores and resumes the module. -/
  | resume (coord : Bool)
  /-- COORDINATED_FREEZE_INSTANT (R374): The timebase reaches PEFREEZE and a coordinated freeze begins. -/
  | coordinatedFreezeInstant
  /-- COORDINATED_RESUME_INSTANT (R374): The timebase reaches PERESUME and the job resumes with JOBOFF raised. -/
  | coordinatedResumeInstant
  /-- PACKET_ARRIVAL (R381): A fabric packet arrives and is checked by link, header and end-to-end checks. -/
  | packetArrival (port : Fin 8) (p : Packet)
  /-- LINK_DOWN (R381): A link goes down and the downstream switch cuts the partial packet. -/
  | linkDown (port : Fin 8)
  /-- E2E_RETRY_TIMEOUT (R382): No acknowledgement arrives in TIMEOUT and the packet is resent or given up. -/
  | e2eRetryTimeout (k : Nat)
  /-- E2E_ACK_ARRIVAL (R382): An end-to-end acknowledgement releases a kept packet. -/
  | e2eAckArrival (src : BitVec 20) (seq : Word)
  /-- LINK_KEY_RENEWAL (R384): Link keys are renewed after 2^32 packets or one hour. -/
  | linkKeyRenewal (port : Fin 8)
  /-- POWER_CAP_THROTTLE (R389): Power above the cap lowers the clock in 100 MHz steps. -/
  | powerCapThrottle (milliwatts : Nat)
  /-- THERMAL_LIMIT (R389): A junction over its limit throttles the clock or shuts the module down. -/
  | thermalLimit (celsius : Nat)
  /-- POWER_CAP_SET (R389): A PLDM command sets the module's power cap. -/
  | powerCapSet (milliwatts : Nat)
  /-- PLDM_FIRMWARE_UPDATE (R388): A PLDM type 5 command updates firmware. -/
  | pldmFirmwareUpdate (image : List Byte) (version : Nat)
  /-- PLDM_MONITOR (R388): A PLDM type 2 command returns platform monitoring data. -/
  | pldmMonitor
  /-- SPDM_ATTESTATION (R388): An SPDM request is answered with signed attestation. -/
  | spdmAttestation (request : List Byte)
  /-- FIRMWARE_BOOT_VERIFY (R388): At power-up the boot ROM and service processor verify firmware before releasing reset. -/
  | firmwareBootVerify (service device : List Byte) (version : Nat)
  /-- HOST_APERTURE_ACCESS (R341): A host load or store through BAR4 reaches device physical memory. -/
  | hostApertureAccess (store : Bool) (off : Word) (size : Fin 9) (v : DWord)
  /-- SPILL_TAKE_READ (R316): A read of SPILL_TAKE in context 12 removes the greatest inbox entry into the spill buffer. -/
  | spillTakeRead (c : CoreId) (d : Reg)
  /-- SPILL_PUT_WRITE (R316): A write of SPILL_PUT in context 12 replays a spill record through the loop-back port. -/
  | spillPutWrite (c : CoreId) (addr : BitVec 18)
  /-- SPILL_N_WRITE (R39): A write of SPILL_N to 0 removes the spill floor. -/
  | spillNWrite (c : CoreId) (v : Word)
  /-- REGISTER_WRITE (R9): A write to a register with no behaviour of its own updates its fields by access code. -/
  | registerWrite (off : Nat) (v : DWord)
  /-- LINK_BRING_UP (R384): A Hawser port finishes training and comes up, agreeing its link keys with ML-KEM-1024 so that
  PORTSTAT reads up with KEY set. -/
  | linkBringUp (port : Fin 8)
  /-- ADD (R230). -/
  | add (g : Guard) (d : Reg) (a : Reg) (b : Reg)
  /-- SUB (R230). -/
  | sub (g : Guard) (d : Reg) (a : Reg) (b : Reg)
  /-- AND (R230). -/
  | andR (g : Guard) (d : Reg) (a : Reg) (b : Reg)
  /-- OR (R230). -/
  | orR (g : Guard) (d : Reg) (a : Reg) (b : Reg)
  /-- XOR (R230). -/
  | xor (g : Guard) (d : Reg) (a : Reg) (b : Reg)
  /-- ANDN (R230). -/
  | andn (g : Guard) (d : Reg) (a : Reg) (b : Reg)
  /-- MIN (R230). -/
  | minS (g : Guard) (d : Reg) (a : Reg) (b : Reg)
  /-- MAX (R230). -/
  | maxS (g : Guard) (d : Reg) (a : Reg) (b : Reg)
  /-- MINU (R231). -/
  | minu (g : Guard) (d : Reg) (a : Reg) (b : Reg)
  /-- MAXU (R231). -/
  | maxu (g : Guard) (d : Reg) (a : Reg) (b : Reg)
  /-- SHL (R231). -/
  | shl (g : Guard) (d : Reg) (a : Reg) (b : Reg)
  /-- SHR (R231). -/
  | shr (g : Guard) (d : Reg) (a : Reg) (b : Reg)
  /-- SRA (R231). -/
  | sra (g : Guard) (d : Reg) (a : Reg) (b : Reg)
  /-- ROL (R231). -/
  | rol (g : Guard) (d : Reg) (a : Reg) (b : Reg)
  /-- ROR (R231). -/
  | ror (g : Guard) (d : Reg) (a : Reg) (b : Reg)
  /-- MOV (R231). -/
  | mov (g : Guard) (d : Reg) (a : Reg)
  /-- MUL (R232). -/
  | mul (g : Guard) (d : Reg) (a : Reg) (b : Reg)
  /-- MULHI.S (R232). -/
  | mulhiS (g : Guard) (d : Reg) (a : Reg) (b : Reg)
  /-- MULHI.U (R232). -/
  | mulhiU (g : Guard) (d : Reg) (a : Reg) (b : Reg)
  /-- MULHI.SU (R232). -/
  | mulhiSu (g : Guard) (d : Reg) (a : Reg) (b : Reg)
  /-- DIV (R232). -/
  | div (g : Guard) (d : Reg) (a : Reg) (b : Reg)
  /-- DIVU (R232). -/
  | divu (g : Guard) (d : Reg) (a : Reg) (b : Reg)
  /-- REM (R232). -/
  | rem (g : Guard) (d : Reg) (a : Reg) (b : Reg)
  /-- REMU (R232). -/
  | remu (g : Guard) (d : Reg) (a : Reg) (b : Reg)
  /-- CLZ (R233). -/
  | clz (g : Guard) (d : Reg) (a : Reg)
  /-- CTZ (R233). -/
  | ctz (g : Guard) (d : Reg) (a : Reg)
  /-- POPC (R233). -/
  | popc (g : Guard) (d : Reg) (a : Reg)
  /-- SEXT.B (R233). -/
  | sextB (g : Guard) (d : Reg) (a : Reg)
  /-- SEXT.H (R233). -/
  | sextH (g : Guard) (d : Reg) (a : Reg)
  /-- SEXT.W (R233). -/
  | sextW (g : Guard) (d : Reg) (a : Reg)
  /-- ZEXT.H (R233). -/
  | zextH (g : Guard) (d : Reg) (a : Reg)
  /-- ZEXT.W (R233). -/
  | zextW (g : Guard) (d : Reg) (a : Reg)
  /-- LEA (R234). -/
  | lea (g : Guard) (d : Reg) (a : Reg) (b : Reg) (c : Fin 8)
  /-- YLD (R308). -/
  | yld (g : Guard) (d : Fin 4) (a : Reg)
  /-- YBASE (R308). -/
  | ybase (g : Guard) (d : Fin 4) (a : Reg)
  /-- YEXT (R308). -/
  | yext (g : Guard) (d : Fin 4) (a : Reg) (n : Fin 4)
  /-- YRD (R308). -/
  | yrd (g : Guard) (d : Reg) (a : Fin 4) (n : Fin 5)
  /-- SBIND (R175). -/
  | sbind (g : Guard) (d : Fin 8) (a : Reg)
  /-- SUNB (R178). -/
  | sunb (g : Guard) (d : Fin 8)
  /-- SLINK (R179). -/
  | slink (g : Guard) (d : Fin 8) (a : Reg)
  /-- SSTAT (R308). -/
  | sstat (g : Guard) (d : Reg) (a : Fin 8)
  /-- ADDW (R235). -/
  | addw (g : Guard) (d : Reg) (a : Reg) (b : Reg)
  /-- SUBW (R235). -/
  | subw (g : Guard) (d : Reg) (a : Reg) (b : Reg)
  /-- MULW (R235). -/
  | mulw (g : Guard) (d : Reg) (a : Reg) (b : Reg)
  /-- SHLW (R235). -/
  | shlw (g : Guard) (d : Reg) (a : Reg) (b : Reg)
  /-- SHRW (R235). -/
  | shrw (g : Guard) (d : Reg) (a : Reg) (b : Reg)
  /-- SRAW (R235). -/
  | sraw (g : Guard) (d : Reg) (a : Reg) (b : Reg)
  /-- DIVW (R235). -/
  | divw (g : Guard) (d : Reg) (a : Reg) (b : Reg)
  /-- REMW (R235). -/
  | remw (g : Guard) (d : Reg) (a : Reg) (b : Reg)
  /-- ADDI (R236). -/
  | addi (g : Guard) (d : Reg) (a : Reg) (imm : Int)
  /-- ANDI (R236). -/
  | andi (g : Guard) (d : Reg) (a : Reg) (imm : Int)
  /-- ORI (R236). -/
  | ori (g : Guard) (d : Reg) (a : Reg) (imm : Int)
  /-- XORI (R236). -/
  | xori (g : Guard) (d : Reg) (a : Reg) (imm : Int)
  /-- SHLI (R237). -/
  | shli (g : Guard) (d : Reg) (a : Reg) (imm : Nat)
  /-- SHRI (R237). -/
  | shri (g : Guard) (d : Reg) (a : Reg) (imm : Nat)
  /-- SRAI (R237). -/
  | srai (g : Guard) (d : Reg) (a : Reg) (imm : Nat)
  /-- ROLI (R237). -/
  | roli (g : Guard) (d : Reg) (a : Reg) (imm : Nat)
  /-- LDI (R238). -/
  | ldi (d : Reg) (imm : Int)
  /-- SETH (R239). -/
  | seth (d : Reg) (imm16 : Half) (pos : Fin 4)
  /-- CMPI (R226). -/
  | cmpi (g : Guard) (d : PReg) (a : Reg) (imm : Int) (cc : ICond)
  /-- CMP (R225). -/
  | cmp (g : Guard) (d : PReg) (a : Reg) (b : Reg) (cc : ICond)
  /-- FCMP (R227). -/
  | fcmp (g : Guard) (d : PReg) (a : Reg) (b : Reg) (cc : FCond)
  /-- PAND (R228). -/
  | pand (g : Guard) (d : PReg) (a : PReg) (b : PReg)
  /-- POR (R228). -/
  | por (g : Guard) (d : PReg) (a : PReg) (b : PReg)
  /-- PXOR (R228). -/
  | pxor (g : Guard) (d : PReg) (a : PReg) (b : PReg)
  /-- PANDN (R228). -/
  | pandn (g : Guard) (d : PReg) (a : PReg) (b : PReg)
  /-- PNOT (R228). -/
  | pnot (g : Guard) (d : PReg) (a : PReg)
  /-- PMOV (R228). -/
  | pmov (g : Guard) (d : PReg) (a : PReg)
  /-- PALL (R228). -/
  | pall (g : Guard) (d : PReg) (a : PReg)
  /-- PNONE (R228). -/
  | pnone (g : Guard) (d : PReg) (a : PReg)
  /-- PFIRST (R229). -/
  | pfirst (g : Guard) (d : PReg) (a : PReg)
  /-- PCNT (R229). -/
  | pcnt (g : Guard) (d : Reg) (a : PReg)
  /-- PTOX (R229). -/
  | ptox (g : Guard) (d : Reg) (a : PReg)
  /-- XTOP (R229). -/
  | xtop (g : Guard) (d : PReg) (a : Reg)
  /-- PFFS (R229). -/
  | pffs (g : Guard) (d : Reg) (a : PReg)
  /-- FMVXF (R245). -/
  | fmvxf (g : Guard) (d : Reg) (a : Reg)
  /-- FMVFX (R245). -/
  | fmvfx (g : Guard) (d : Reg) (a : Reg)
  /-- FKIND (R246). -/
  | fkind (g : Guard) (d : Reg) (a : Reg)
  /-- FADD (R241). -/
  | fadd (g : Guard) (d : Reg) (a : Reg) (b : Reg)
  /-- FSUB (R241). -/
  | fsub (g : Guard) (d : Reg) (a : Reg) (b : Reg)
  /-- FMUL (R241). -/
  | fmul (g : Guard) (d : Reg) (a : Reg) (b : Reg)
  /-- FDIV (R241). -/
  | fdiv (g : Guard) (d : Reg) (a : Reg) (b : Reg)
  /-- FMIN (R241). -/
  | fmin (g : Guard) (d : Reg) (a : Reg) (b : Reg)
  /-- FMAX (R241). -/
  | fmax (g : Guard) (d : Reg) (a : Reg) (b : Reg)
  /-- FSQRT (R241). -/
  | fsqrt (g : Guard) (d : Reg) (a : Reg)
  /-- FSGN (R241). -/
  | fsgn (g : Guard) (d : Reg) (a : Reg) (b : Reg)
  /-- FMA (R242). -/
  | fma (g : Guard) (d : Reg) (a : Reg) (b : Reg)
  /-- FMS (R242). -/
  | fms (g : Guard) (d : Reg) (a : Reg) (b : Reg)
  /-- FABS (R243). -/
  | fabs (g : Guard) (d : Reg) (a : Reg)
  /-- FNEG (R243). -/
  | fneg (g : Guard) (d : Reg) (a : Reg)
  /-- FCVT.XF (R244). -/
  | fcvtXf (g : Guard) (d : Reg) (a : Reg) (mode : FcvtMode)
  /-- FCVT.FX (R244). -/
  | fcvtFx (g : Guard) (d : Reg) (a : Reg) (mode : FcvtMode)
  /-- FCVT.UF (R244). -/
  | fcvtUf (g : Guard) (d : Reg) (a : Reg) (mode : FcvtMode)
  /-- FCVT.FU (R244). -/
  | fcvtFu (g : Guard) (d : Reg) (a : Reg) (mode : FcvtMode)
  /-- CGRP (R181). -/
  | cgrp (g : Guard) (d : Reg) (a : Reg)
  /-- CINJ (R310). -/
  | cinj (g : Guard) (a : Reg) (b : Reg)
  /-- CINJ.HLD (R310). -/
  | cinjHld (g : Guard) (a : Reg) (b : Reg)
  /-- CEXT (R182). -/
  | cext (g : Guard) (d : Reg) (a : Reg)
  /-- CSTAT (R310). -/
  | cstat (g : Guard) (d : Reg) (a : Reg)
  /-- CABORT (R186). -/
  | cabort (g : Guard) (a : Reg)
  /-- CFREE (R187). -/
  | cfree (g : Guard) (a : Reg)
  /-- CINJX (R310). -/
  | cinjx (g : Guard) (a : Reg) (b : Reg)
  /-- CINJX.HLD (R310). -/
  | cinjxHld (g : Guard) (a : Reg) (b : Reg)
  /-- CEXTX (R310). -/
  | cextx (g : Guard) (a : Reg) (b : Reg)
  /-- MMA (R142). -/
  | mma (c : Fin 8) (n : Fin 4) (a : Reg) (b : Reg) (fmt : MmaFmt)
  /-- PREP (R215). -/
  | prep (n : Fin 8) (off : Int)
  /-- PREPX (R216). -/
  | prepx (g : Guard) (n : Fin 8) (a : Reg)
  /-- MFB (R219). -/
  | mfb (g : Guard) (d : Reg) (n : Fin 8)
  /-- MTB (R220). -/
  | mtb (g : Guard) (n : Fin 8) (a : Reg)
  /-- CLRB (R221). -/
  | clrb (g : Guard) (n : Fin 8)
  /-- TSTB (R222). -/
  | tstb (g : Guard) (d : PReg) (n : Fin 8)
  /-- NOP (R317). -/
  | nop (g : Guard)
  /-- END.L (R52). -/
  | endL (g : Guard)
  /-- HALT (R318). -/
  | halt (g : Guard)
  /-- BRK (R317). -/
  | brk (g : Guard)
  /-- ERET (R320). -/
  | eret (g : Guard)
  /-- SYNC.C.L (R223). -/
  | syncCL (g : Guard)
  /-- BEAT.L (R317). -/
  | beatL (g : Guard)
  /-- IDLE (R317). -/
  | idle (g : Guard) (a : Reg)
  /-- TRAP (R319). -/
  | trap (g : Guard) (imm : Int)
  /-- MFS (R314). -/
  | mfs (d : Reg) (sp : SpecialReg)
  /-- MTS (R314). -/
  | mts (sp : SpecialReg) (d : Reg)
  /-- TAGT (R301). -/
  | tagt (g : Guard) (d : Reg)
  /-- TAGM (R301). -/
  | tagm (g : Guard) (d : Reg)
  /-- CLK (R301). -/
  | clk (g : Guard) (d : Reg)
  /-- HORZ (R301). -/
  | horz (g : Guard) (d : Reg)
  /-- LASTT (R301). -/
  | lastt (g : Guard) (d : Reg)
  /-- LASTM (R301). -/
  | lastm (g : Guard) (d : Reg)
  /-- BOUND (R301). -/
  | bound (g : Guard) (d : Reg) (a : Reg)
  /-- EBND (R301). -/
  | ebnd (g : Guard) (d : Reg) (a : Reg)
  /-- MWAIT (R150). -/
  | mwait (g : Guard) (n : Fin 4)
  /-- MZERO (R150). -/
  | mzero (g : Guard) (n : Fin 4)
  /-- MRD (R303). -/
  | mrd (g : Guard) (d : Reg) (a : Fin 4) (b : Reg)
  /-- MSTO.S (R304). -/
  | mstoS (g : Guard) (n : Fin 4) (a : Reg)
  /-- MSTO.BF (R304). -/
  | mstoBf (g : Guard) (n : Fin 4) (a : Reg)
  /-- GANG (R141). -/
  | gang (g : Guard) (a : Reg)
  /-- MSTAT (R302). -/
  | mstat (g : Guard) (d : Reg)
  /-- SEND (R288). -/
  | send (g : Guard) (d : Reg) (a : Reg) (b : Reg)
  /-- SEND2 (R288). -/
  | send2 (g : Guard) (d : Reg) (a : Reg) (b : Reg)
  /-- SEND4 (R288). -/
  | send4 (g : Guard) (d : Reg) (a : Reg) (b : Reg)
  /-- SENDV (R288). -/
  | sendv (g : Guard) (d : Reg) (a : Reg) (b : Reg)
  /-- SENDB (R288). -/
  | sendb (g : Guard) (d : Reg) (a : Reg) (b : Reg)
  /-- MCAST (R290). -/
  | mcast (g : Guard) (d : Reg) (a : Reg) (b : Reg)
  /-- SENDH (R291). -/
  | sendh (g : Guard) (d : Reg) (a : Reg)
  /-- BIND (R293). -/
  | bindS (g : Guard) (d : Reg) (a : Reg) (b : Reg)
  /-- UNBIND (R294). -/
  | unbind (g : Guard) (a : Reg)
  /-- ARM (R294). -/
  | arm (g : Guard) (a : Reg) (b : Reg)
  /-- HOLD (R294). -/
  | hold (g : Guard) (a : Reg) (b : Reg)
  /-- RLSE (R294). -/
  | rlse (g : Guard) (a : Reg) (b : Reg)
  /-- START (R295). -/
  | startL (g : Guard) (d : Reg) (a : Reg)
  /-- GENRD (R296). -/
  | genrd (g : Guard) (d : Reg) (a : Reg)
  /-- CAPQ (R297). -/
  | capq (g : Guard) (d : Reg) (a : Reg) (b : Reg)
  /-- TICKET (R299). -/
  | ticket (g : Guard) (d : Reg)
  /-- POOLCFG (R300). -/
  | poolcfg (g : Guard) (d : Reg) (a : Reg)
  /-- CNTDN (R300). -/
  | cntdn (g : Guard) (a : Reg)
  /-- CANCEL (R300). -/
  | cancel (g : Guard) (a : Reg)
  /-- CNTRD (R300). -/
  | cntrd (g : Guard) (d : Reg) (a : Reg)
  /-- ECW (R312). -/
  | ecw (g : Guard) (a : Reg) (b : Reg)
  /-- ECR (R312). -/
  | ecr (g : Guard) (d : Reg) (a : Reg)
  /-- ECPULSE (R312). -/
  | ecpulse (g : Guard)
  /-- ECCNT (R312). -/
  | eccnt (g : Guard) (d : Reg) (a : Reg)
  /-- PCFG (R312). -/
  | pcfg (g : Guard) (a : Reg) (b : Reg)
  /-- PRD (R312). -/
  | prd (g : Guard) (d : Reg) (a : Reg)
  /-- PRST (R312). -/
  | prst (g : Guard) (a : Reg)
  /-- TLBI (R313). -/
  | tlbi (g : Guard) (a : Reg) (b : Reg)
  /-- LDB (R254). -/
  | ldb (g : Guard) (d : Reg) (a : Reg) (off : Int)
  /-- LDH (R254). -/
  | ldh (g : Guard) (d : Reg) (a : Reg) (off : Int)
  /-- LDW (R254). -/
  | ldw (g : Guard) (d : Reg) (a : Reg) (off : Int)
  /-- LDD (R254). -/
  | ldd (g : Guard) (d : Reg) (a : Reg) (off : Int)
  /-- LDBU (R254). -/
  | ldbu (g : Guard) (d : Reg) (a : Reg) (off : Int)
  /-- LDHU (R254). -/
  | ldhu (g : Guard) (d : Reg) (a : Reg) (off : Int)
  /-- LDWU (R254). -/
  | ldwu (g : Guard) (d : Reg) (a : Reg) (off : Int)
  /-- STB (R255). -/
  | stb (g : Guard) (d : Reg) (a : Reg) (off : Int)
  /-- STH (R255). -/
  | sth (g : Guard) (d : Reg) (a : Reg) (off : Int)
  /-- STW (R255). -/
  | stw (g : Guard) (d : Reg) (a : Reg) (off : Int)
  /-- STD (R255). -/
  | std (g : Guard) (d : Reg) (a : Reg) (off : Int)
  /-- LDXB (R256). -/
  | ldxb (g : Guard) (d : Reg) (a : Reg) (b : Reg)
  /-- LDXH (R256). -/
  | ldxh (g : Guard) (d : Reg) (a : Reg) (b : Reg)
  /-- LDXW (R256). -/
  | ldxw (g : Guard) (d : Reg) (a : Reg) (b : Reg)
  /-- LDXD (R256). -/
  | ldxd (g : Guard) (d : Reg) (a : Reg) (b : Reg)
  /-- LDXBU (R256). -/
  | ldxbu (g : Guard) (d : Reg) (a : Reg) (b : Reg)
  /-- LDXHU (R256). -/
  | ldxhu (g : Guard) (d : Reg) (a : Reg) (b : Reg)
  /-- LDXWU (R256). -/
  | ldxwu (g : Guard) (d : Reg) (a : Reg) (b : Reg)
  /-- STXB (R256). -/
  | stxb (g : Guard) (d : Reg) (a : Reg) (b : Reg)
  /-- STXH (R256). -/
  | stxh (g : Guard) (d : Reg) (a : Reg) (b : Reg)
  /-- STXW (R256). -/
  | stxw (g : Guard) (d : Reg) (a : Reg) (b : Reg)
  /-- STXD (R256). -/
  | stxd (g : Guard) (d : Reg) (a : Reg) (b : Reg)
  /-- LDF (R257). -/
  | ldf (g : Guard) (d : Reg) (a : Reg) (off : Int)
  /-- LDK (R257). -/
  | ldk (g : Guard) (d : Reg) (a : Reg) (off : Int)
  /-- STE (R257). -/
  | ste (g : Guard) (d : Reg) (a : Reg) (off : Int)
  /-- STF (R257). -/
  | stf (g : Guard) (d : Reg) (a : Reg) (off : Int)
  /-- SETE (R257). -/
  | sete (g : Guard) (a : Reg) (off : Int)
  /-- SETF (R257). -/
  | setf (g : Guard) (a : Reg) (off : Int)
  /-- TFE (R257). -/
  | tfe (g : Guard) (d : PReg) (a : Reg) (off : Int)
  /-- LDG.B (R258). -/
  | ldgB (g : Guard) (d : Reg) (a : Reg) (pol : Policy) (off : Int)
  /-- LDG.H (R258). -/
  | ldgH (g : Guard) (d : Reg) (a : Reg) (pol : Policy) (off : Int)
  /-- LDG.W (R258). -/
  | ldgW (g : Guard) (d : Reg) (a : Reg) (pol : Policy) (off : Int)
  /-- LDG.D (R258). -/
  | ldgD (g : Guard) (d : Reg) (a : Reg) (pol : Policy) (off : Int)
  /-- LDG.BU (R258). -/
  | ldgBu (g : Guard) (d : Reg) (a : Reg) (pol : Policy) (off : Int)
  /-- LDG.HU (R258). -/
  | ldgHu (g : Guard) (d : Reg) (a : Reg) (pol : Policy) (off : Int)
  /-- LDG.WU (R258). -/
  | ldgWu (g : Guard) (d : Reg) (a : Reg) (pol : Policy) (off : Int)
  /-- STG.B (R259). -/
  | stgB (g : Guard) (d : Reg) (a : Reg) (pol : Policy) (off : Int)
  /-- STG.H (R259). -/
  | stgH (g : Guard) (d : Reg) (a : Reg) (pol : Policy) (off : Int)
  /-- STG.W (R259). -/
  | stgW (g : Guard) (d : Reg) (a : Reg) (pol : Policy) (off : Int)
  /-- STG.D (R259). -/
  | stgD (g : Guard) (d : Reg) (a : Reg) (pol : Policy) (off : Int)
  /-- LDC.W (R260). -/
  | ldcW (g : Guard) (d : Reg) (a : Reg) (off : Int)
  /-- LDC.D (R260). -/
  | ldcD (g : Guard) (d : Reg) (a : Reg) (off : Int)
  /-- LDC.WU (R260). -/
  | ldcWu (g : Guard) (d : Reg) (a : Reg) (off : Int)
  /-- CINV.C (R68). -/
  | cinvC (g : Guard)
  /-- CFL (R260). -/
  | cfl (g : Guard) (a : Reg) (off : Int)
  /-- CINVL (R260). -/
  | cinvl (g : Guard) (a : Reg) (off : Int)
  /-- CPF (R260). -/
  | cpf (g : Guard) (a : Reg) (off : Int)
  /-- AADD (R263). -/
  | aadd (g : Guard) (d : Reg) (a : Reg) (b : Reg)
  /-- AAND (R263). -/
  | aand (g : Guard) (d : Reg) (a : Reg) (b : Reg)
  /-- AOR (R263). -/
  | aor (g : Guard) (d : Reg) (a : Reg) (b : Reg)
  /-- AXOR (R263). -/
  | axor (g : Guard) (d : Reg) (a : Reg) (b : Reg)
  /-- AMIN (R263). -/
  | amin (g : Guard) (d : Reg) (a : Reg) (b : Reg)
  /-- AMAX (R263). -/
  | amax (g : Guard) (d : Reg) (a : Reg) (b : Reg)
  /-- AMINU (R263). -/
  | aminu (g : Guard) (d : Reg) (a : Reg) (b : Reg)
  /-- ASWAP (R263). -/
  | aswap (g : Guard) (d : Reg) (a : Reg) (b : Reg)
  /-- ACAS (R264). -/
  | acas (g : Guard) (d : Reg) (a : Reg) (b : Reg)
  /-- REDADD (R265). -/
  | redadd (g : Guard) (a : Reg) (b : Reg)
  /-- REDAND (R265). -/
  | redand (g : Guard) (a : Reg) (b : Reg)
  /-- REDOR (R265). -/
  | redor (g : Guard) (a : Reg) (b : Reg)
  /-- REDXOR (R265). -/
  | redxor (g : Guard) (a : Reg) (b : Reg)
  /-- REDMIN (R265). -/
  | redmin (g : Guard) (a : Reg) (b : Reg)
  /-- REDMAX (R265). -/
  | redmax (g : Guard) (a : Reg) (b : Reg)
  /-- FENCE.ACQ (R262). -/
  | fenceAcq (g : Guard) (scope : Scope)
  /-- FENCE.REL (R262). -/
  | fenceRel (g : Guard) (scope : Scope)
  /-- FENCE.FULL (R99). -/
  | fenceFull (g : Guard) (scope : Scope)
  /-- LDA.D (R261). -/
  | ldaD (g : Guard) (d : Reg) (a : Reg) (scope : Scope)
  /-- STL.D (R261). -/
  | stlD (g : Guard) (d : Reg) (a : Reg) (scope : Scope)
  /-- LDA.W (R261). -/
  | ldaW (g : Guard) (d : Reg) (a : Reg) (scope : Scope)
  /-- STL.W (R261). -/
  | stlW (g : Guard) (d : Reg) (a : Reg) (scope : Scope)
  /-- LDV (R267). -/
  | ldv (g : Guard) (d : Reg) (a : Reg) (b : Reg)
  /-- LDVN (R267). -/
  | ldvn (g : Guard) (d : Reg) (a : Reg) (b : Reg)
  /-- STV (R268). -/
  | stv (g : Guard) (d : Reg) (a : Reg) (b : Reg)
  /-- RECL (R269). -/
  | recl (g : Guard) (a : Reg) (b : Reg)
  /-- HAND (R270). -/
  | hand (g : Guard) (a : Reg) (b : Reg)
  /-- OPUSH (R271). -/
  | opush (g : Guard) (d : Reg) (a : Reg) (b : Reg)
  /-- OPOP (R271). -/
  | opop (g : Guard) (d : Reg) (a : Reg)
  /-- OCNT (R271). -/
  | ocnt (g : Guard) (d : Reg) (a : Reg)
  /-- VADD.W (R273). -/
  | vaddW (g : Guard) (d : Reg) (a : Reg) (b : Reg)
  /-- VSUB.W (R273). -/
  | vsubW (g : Guard) (d : Reg) (a : Reg) (b : Reg)
  /-- VMUL.W (R273). -/
  | vmulW (g : Guard) (d : Reg) (a : Reg) (b : Reg)
  /-- VMULH.W (R273). -/
  | vmulhW (g : Guard) (d : Reg) (a : Reg) (b : Reg)
  /-- VMIN.W (R273). -/
  | vminW (g : Guard) (d : Reg) (a : Reg) (b : Reg)
  /-- VMAX.W (R273). -/
  | vmaxW (g : Guard) (d : Reg) (a : Reg) (b : Reg)
  /-- VMINU.W (R273). -/
  | vminuW (g : Guard) (d : Reg) (a : Reg) (b : Reg)
  /-- VMAXU.W (R273). -/
  | vmaxuW (g : Guard) (d : Reg) (a : Reg) (b : Reg)
  /-- VADD.H (R273). -/
  | vaddH (g : Guard) (d : Reg) (a : Reg) (b : Reg)
  /-- VSUB.H (R273). -/
  | vsubH (g : Guard) (d : Reg) (a : Reg) (b : Reg)
  /-- VMUL.H (R273). -/
  | vmulH (g : Guard) (d : Reg) (a : Reg) (b : Reg)
  /-- VMULH.H (R273). -/
  | vmulhH (g : Guard) (d : Reg) (a : Reg) (b : Reg)
  /-- VMIN.H (R273). -/
  | vminH (g : Guard) (d : Reg) (a : Reg) (b : Reg)
  /-- VMAX.H (R273). -/
  | vmaxH (g : Guard) (d : Reg) (a : Reg) (b : Reg)
  /-- VMINU.H (R273). -/
  | vminuH (g : Guard) (d : Reg) (a : Reg) (b : Reg)
  /-- VMAXU.H (R273). -/
  | vmaxuH (g : Guard) (d : Reg) (a : Reg) (b : Reg)
  /-- VADD.B (R274). -/
  | vaddB (g : Guard) (d : Reg) (a : Reg) (b : Reg)
  /-- VSUB.B (R274). -/
  | vsubB (g : Guard) (d : Reg) (a : Reg) (b : Reg)
  /-- VADDS.B (R274). -/
  | vaddsB (g : Guard) (d : Reg) (a : Reg) (b : Reg)
  /-- VSUBS.B (R274). -/
  | vsubsB (g : Guard) (d : Reg) (a : Reg) (b : Reg)
  /-- VMIN.B (R274). -/
  | vminB (g : Guard) (d : Reg) (a : Reg) (b : Reg)
  /-- VMAX.B (R274). -/
  | vmaxB (g : Guard) (d : Reg) (a : Reg) (b : Reg)
  /-- VMINU.B (R274). -/
  | vminuB (g : Guard) (d : Reg) (a : Reg) (b : Reg)
  /-- VMAXU.B (R274). -/
  | vmaxuB (g : Guard) (d : Reg) (a : Reg) (b : Reg)
  /-- VAND (R275). -/
  | vand (g : Guard) (d : Reg) (a : Reg) (b : Reg)
  /-- VOR (R275). -/
  | vor (g : Guard) (d : Reg) (a : Reg) (b : Reg)
  /-- VXOR (R275). -/
  | vxor (g : Guard) (d : Reg) (a : Reg) (b : Reg)
  /-- VANDN (R275). -/
  | vandn (g : Guard) (d : Reg) (a : Reg) (b : Reg)
  /-- VSHL.W (R275). -/
  | vshlW (g : Guard) (d : Reg) (a : Reg) (b : Reg)
  /-- VSHR.W (R275). -/
  | vshrW (g : Guard) (d : Reg) (a : Reg) (b : Reg)
  /-- VSRA.W (R275). -/
  | vsraW (g : Guard) (d : Reg) (a : Reg) (b : Reg)
  /-- VNOT (R275). -/
  | vnot (g : Guard) (d : Reg) (a : Reg)
  /-- VFADD.S (R276). -/
  | vfaddS (g : Guard) (d : Reg) (a : Reg) (b : Reg)
  /-- VFSUB.S (R276). -/
  | vfsubS (g : Guard) (d : Reg) (a : Reg) (b : Reg)
  /-- VFMUL.S (R276). -/
  | vfmulS (g : Guard) (d : Reg) (a : Reg) (b : Reg)
  /-- VFMA.S (R276). -/
  | vfmaS (g : Guard) (d : Reg) (a : Reg) (b : Reg)
  /-- VFMIN.S (R276). -/
  | vfminS (g : Guard) (d : Reg) (a : Reg) (b : Reg)
  /-- VFMAX.S (R276). -/
  | vfmaxS (g : Guard) (d : Reg) (a : Reg) (b : Reg)
  /-- VFABS.S (R276). -/
  | vfabsS (g : Guard) (d : Reg) (a : Reg)
  /-- VFNEG.S (R276). -/
  | vfnegS (g : Guard) (d : Reg) (a : Reg)
  /-- VFADD.BF (R277). -/
  | vfaddBf (g : Guard) (d : Reg) (a : Reg) (b : Reg)
  /-- VFSUB.BF (R277). -/
  | vfsubBf (g : Guard) (d : Reg) (a : Reg) (b : Reg)
  /-- VFMUL.BF (R277). -/
  | vfmulBf (g : Guard) (d : Reg) (a : Reg) (b : Reg)
  /-- VFMA.BF (R277). -/
  | vfmaBf (g : Guard) (d : Reg) (a : Reg) (b : Reg)
  /-- VFMIN.BF (R277). -/
  | vfminBf (g : Guard) (d : Reg) (a : Reg) (b : Reg)
  /-- VFMAX.BF (R277). -/
  | vfmaxBf (g : Guard) (d : Reg) (a : Reg) (b : Reg)
  /-- VFDOT.BF (R277). -/
  | vfdotBf (g : Guard) (d : Reg) (a : Reg) (b : Reg)
  /-- VRCP.S (R278). -/
  | vrcpS (g : Guard) (d : Reg) (a : Reg)
  /-- VRSQ.S (R278). -/
  | vrsqS (g : Guard) (d : Reg) (a : Reg)
  /-- VEXP2.S (R278). -/
  | vexp2S (g : Guard) (d : Reg) (a : Reg)
  /-- VLOG2.S (R278). -/
  | vlog2S (g : Guard) (d : Reg) (a : Reg)
  /-- VSQRT.S (R278). -/
  | vsqrtS (g : Guard) (d : Reg) (a : Reg)
  /-- VDIV.S (R278). -/
  | vdivS (g : Guard) (d : Reg) (a : Reg) (b : Reg)
  /-- VFLOOR.S (R278). -/
  | vfloorS (g : Guard) (d : Reg) (a : Reg)
  /-- VTANH.S (R278). -/
  | vtanhS (g : Guard) (d : Reg) (a : Reg)
  /-- VCMP (R279). -/
  | vcmp (g : Guard) (p : PReg) (a : Reg) (b : Reg) (cc : ICond)
  /-- VCMP.F (R279). -/
  | vcmpF (g : Guard) (p : PReg) (a : Reg) (b : Reg) (cc : FCond)
  /-- VBCAST (R280). -/
  | vbcast (g : Guard) (d : Reg) (a : Reg)
  /-- VBCASTF (R280). -/
  | vbcastf (g : Guard) (d : Reg) (a : Reg)
  /-- VEXT (R280). -/
  | vext (g : Guard) (d : Reg) (a : Reg) (b : Reg)
  /-- VINS (R280). -/
  | vins (g : Guard) (d : Reg) (a : Reg) (b : Reg)
  /-- VPERM (R280). -/
  | vperm (g : Guard) (d : Reg) (a : Reg) (b : Reg)
  /-- VIOTA (R280). -/
  | viota (g : Guard) (d : Reg)
  /-- VMOV (R280). -/
  | vmov (g : Guard) (d : Reg) (a : Reg)
  /-- VSLIDE (R280). -/
  | vslide (g : Guard) (d : Reg) (a : Reg) (b : Reg)
  /-- VLD (R281). -/
  | vld (g : Guard) (d : Reg) (a : Reg) (off : Int)
  /-- VST (R281). -/
  | vst (g : Guard) (d : Reg) (a : Reg) (off : Int)
  /-- VLDF (R281). -/
  | vldf (g : Guard) (d : Reg) (a : Reg) (off : Int)
  /-- VSTE (R281). -/
  | vste (g : Guard) (d : Reg) (a : Reg) (off : Int)
  /-- VLDS (R282). -/
  | vlds (g : Guard) (d : Reg) (a : Reg) (b : Reg)
  /-- VSTS (R282). -/
  | vsts (g : Guard) (d : Reg) (a : Reg) (b : Reg)
  /-- VGATH (R282). -/
  | vgath (g : Guard) (d : Reg) (a : Reg) (b : Reg)
  /-- VSCAT (R282). -/
  | vscat (g : Guard) (d : Reg) (a : Reg) (b : Reg)
  /-- VSTF (R282). -/
  | vstf (g : Guard) (d : Reg) (a : Reg)
  /-- VRSUM.S (R283). -/
  | vrsumS (g : Guard) (d : Reg) (a : Reg)
  /-- VRMAX.S (R283). -/
  | vrmaxS (g : Guard) (d : Reg) (a : Reg)
  /-- VRMIN.S (R283). -/
  | vrminS (g : Guard) (d : Reg) (a : Reg)
  /-- VRSUM.W (R283). -/
  | vrsumW (g : Guard) (d : Reg) (a : Reg)
  /-- VSCAN.S (R283). -/
  | vscanS (g : Guard) (d : Reg) (a : Reg)
  /-- VCAV.S (R283). -/
  | vcavS (g : Guard) (d : Reg) (a : Reg)
  /-- VCAVM.S (R283). -/
  | vcavmS (g : Guard) (d : Reg) (a : Reg)
  /-- VDOT4.B (R283). -/
  | vdot4B (g : Guard) (d : Reg) (a : Reg) (b : Reg)
  /-- VCVT.S.BF (R284). -/
  | vcvtSBf (g : Guard) (d : Reg) (a : Reg)
  /-- VCVT.BF.S (R284). -/
  | vcvtBfS (g : Guard) (d : Reg) (a : Reg)
  /-- VCVT.S.W (R284). -/
  | vcvtSW (g : Guard) (d : Reg) (a : Reg)
  /-- VCVT.W.S (R284). -/
  | vcvtWS (g : Guard) (d : Reg) (a : Reg)
  /-- VCVT.E4.S (R284). -/
  | vcvtE4S (g : Guard) (d : Reg) (a : Reg) (b : Reg)
  /-- VCVT.S.E4 (R284). -/
  | vcvtSE4 (g : Guard) (d : Reg) (a : Reg) (b : Reg)
  /-- VCVT.E5.S (R284). -/
  | vcvtE5S (g : Guard) (d : Reg) (a : Reg) (b : Reg)
  /-- VCVT.S.E5 (R284). -/
  | vcvtSE5 (g : Guard) (d : Reg) (a : Reg) (b : Reg)
  /-- XQ.W (R156). -/
  | xqW (g : Guard) (d : Reg) (a : Reg)
  /-- XQ.T (R156). -/
  | xqT (g : Guard) (d : Reg) (a : Reg)
  /-- XDONE (R162). -/
  | xdone (g : Guard) (d : Reg) (a : Reg)
  /-- XWAIT (R162). -/
  | xwait (g : Guard) (a : Reg) (b : Reg)
  /-- XSTAT (R164). -/
  | xstat (g : Guard) (d : Reg) (a : Reg) (b : Reg)
  /-- XCLR (R165). -/
  | xclr (g : Guard) (a : Reg)
  /-- XENC (R306). -/
  | xenc (g : Guard) (d : Reg) (a : Reg) (b : Reg)
  /-- XDEC (R307). -/
  | xdec (g : Guard) (d : Reg) (a : Reg)
  /-- MOV.C (R248). -/
  | movC (d : Reg) (a : Reg)
  /-- ADD.C (R248). -/
  | addC (d : Reg) (a : Reg)
  /-- SUB.C (R248). -/
  | subC (d : Reg) (a : Reg)
  /-- AND.C (R248). -/
  | andC (d : Reg) (a : Reg)
  /-- OR.C (R248). -/
  | orC (d : Reg) (a : Reg)
  /-- XOR.C (R248). -/
  | xorC (d : Reg) (a : Reg)
  /-- LDD.C (R248). -/
  | lddC (d : Reg) (a : Reg)
  /-- STD.C (R248). -/
  | stdC (d : Reg) (a : Reg)
  /-- ADDI.C (R249). -/
  | addiC (d : Reg) (imm : Int)
  /-- LDI.C (R249). -/
  | ldiC (d : Reg) (imm : Int)
  /-- SHLI.C (R249). -/
  | shliC (d : Reg) (imm : Nat)
  /-- SHRI.C (R249). -/
  | shriC (d : Reg) (imm : Nat)
  /-- SRAI.C (R249). -/
  | sraiC (d : Reg) (imm : Nat)
  /-- ANDI.C (R249). -/
  | andiC (d : Reg) (imm : Int)
  /-- LDS.C (R249). -/
  | ldsC (d : Reg) (imm : Nat)
  /-- STS.C (R249). -/
  | stsC (d : Reg) (imm : Nat)
  /-- GO (R217). -/
  | go (n : Fin 8)
  /-- GO (R217). -/
  | goGuarded (n : Fin 8) (sense : Bool) (p : PReg)
  /-- CALL (R218). -/
  | call (n : Fin 8)
  /-- CALL (R218). -/
  | callGuarded (n : Fin 8) (sense : Bool) (p : PReg)
  /-- NOP.C (R250). -/
  | nopC
  /-- END (R250). -/
  | endC
  /-- BEAT (R250). -/
  | beatC
  /-- SYNC.C (R223). -/
  | syncC
  /-- BRK.C (R250). -/
  | brkC
deriving DecidableEq, Repr

end Sys2Proof
end

