-- ==== Sys2Proof/Machine/State.lean ====
section
/-! DEFINITION. The state of one YT-8192 module as plain data: every piece of state the spec gives the machine, its
reset, and the ways a step can stop. The line after each field names its rule and its reset value. -/

namespace Sys2Proof.Machine

/-- A finite map: pairs with rising keys. A key that is not listed reads as the default its reader names. -/
abbrev KMap (α : Type) := List (Nat × α)

/-- Bytes by address, in the canonical form of `Memory.wf` (Machine/Ops.lean); an unlisted byte reads as 0. -/
abbrev Memory := List Host.Cell

/-- The 16 x 16 elements of an accumulator, row by row (R140). -/
abbrev Acc := Vector Word 256

/-- A release as an acquire that synchronises with it sees it (R94 to R97): the core, none for an agent of another module, and the
scope it acts at, and by doubleword the number of the write that is the oldest the acquiring agent may still read. -/
structure Rel where
  core  : Option CoreId
  scope : Nat
  seen  : KMap Nat
deriving DecidableEq, Repr

/-- A write of global memory that has been performed (R90, R92): where, the bytes that stood there before, the core of the
agent that made it and its number there (a context, 16 + a copy channel, 32 another engine), the scope of the release it is
(7: none), and the releases that a reader of it observes (R96). For an agent outside the module there is no core, and the
number is the code of the least scope that reaches it (5 or 6, R87). -/
structure Write where
  pa    : Nat
  old   : List Byte
  src   : Option CoreId
  unit  : Nat
  scope : Nat
  rels  : List Rel
deriving DecidableEq, Repr

/-- What a fault tells its trap record (R360, R361): cause code, FADDR, FINFO. -/
structure TrapInfo where
  cause : Byte
  faddr : DWord := 0
  finfo : DWord := 0
deriving DecidableEq, Repr

/-- Split-phase and posted requests (R253, R259, R263 to R271, R286). -/
inductive ReqKind where
  | load (signed : Bool) | ldc (signed : Bool) | lda (signed : Bool)
  | store
  | atomic (op : Nat)
  | ldv | ldvn | stv | recl
  | opush | opop | ocnt
  | start | capq | ticket
deriving DecidableEq, Repr

/-- One outstanding request of a context (R253). `op` of an atomic is numbered as in the fallback entry (R354). `scope`: the
code of the scope at which a write is a release or a load an acquire (R94, R95, R98), 7 for none. `obj` of an atomic: the host
has answered it with Unsupported Request (R353). `queue`: the path of an atomic, chosen as it is translated, is the fallback queue (R353,
R375). `again`: ERET has sent it again, after what context 13 has done (R108, R320). `enc`: its page is confidential (R384).
`seen`: what the context had seen when it
issued the request and as the requests before it were performed: what a release has before it (R94). -/
structure Req where
  id     : Nat
  kind   : ReqKind
  pc     : DWord
  va     : DWord
  pa     : Nat
  size   : Nat
  dest   : Option Reg
  data   : DWord
  aux    : DWord
  obj    : Bool
  ha     : Bool
  queue  : Bool
  again  : Bool
  enc    : Bool
  gate   : Bool
  epoch  : Nat
  scope  : Nat
  sent   : Bool
  fb     : Option Byte
  reply  : Option DWord
  fault  : Option TrapInfo
  seen   : KMap Nat
deriving DecidableEq, Repr

/-- A trap record (R359, R360, R362): `ctx` 15 when no context faulted; `at_`: the cycle in which it was formed. -/
structure TrapRec where
  cause : Byte
  ctx   : Nat
  defd  : Bool
  fpc   : DWord
  faddr : DWord
  finfo : DWord
  frpc  : DWord
  req   : Option Req
  at_   : Nat
deriving DecidableEq, Repr

/-- A branch-target register (R211). `busy`: a prefetch is in progress; `nonCanon`: the computed target had a bit of
[63:56] set (R212); `retry`: a GO has started its new attempt at the target (R217). -/
structure BReg where
  tgt      : BitVec 56
  v        : Bool
  ready    : Bool
  f        : Byte
  buf      : List Byte
  busy     : Bool
  nonCanon : Bool
  retry    : Bool
deriving DecidableEq, Repr

/-- A branch-target register at reset (R211). -/
def BReg.reset : BReg :=
  { tgt := 0, v := false, ready := false, f := 0, buf := [], busy := false, nonCanon := false,
    retry := false }

/-- Why a live context does not issue (R12): it is ready, waits at its instruction, is stopped by a fault, idles
(R317), or waits at an ordered request (R110). -/
inductive Stopped where
  | no | waiting | faulted | idle (cycles : Nat) | ordered
deriving DecidableEq, Repr

/-- What the reaction that a helper runs was started with (R23, R28, R29, R47). `asCtx`: the context that its events name as
their origin, of a re-run that of the first run (R48). MODEL: `since`: how many writes of global memory were
performed when its launch's first event started (R67). -/
structure Run where
  slot        : Fin 64
  restartable : Bool
  pool        : Bool
  replay      : Bool
  lcnt        : Nat
  block       : Option Nat
  events      : List (Ev × RouteClass)
  seqBase     : Option Word
  sends       : Nat
  asCtx       : CtxId
  since       : Nat
deriving DecidableEq, Repr

/-- A hardware context (R12, R199, R314, R372). -/
structure Ctx where
  /-- The context is live. (R12; reset false) -/
  live     : Bool
  /-- Program counter. (R201; reset DESIGN CHOICE 0, log 1) -/
  pc       : DWord
  /-- x0 to x31; x0 reads 0. (R199; reset DESIGN CHOICE 0, log 1) -/
  x        : Vector DWord 32
  /-- f0 to f31. (R199; reset DESIGN CHOICE 0, log 1) -/
  f        : Vector DWord 32
  /-- v0 to v31. (R199, R139; reset DESIGN CHOICE 0, log 1) -/
  v        : Vector Vec 32
  /-- p0 to p15. (R199; reset DESIGN CHOICE 0, log 1) -/
  p        : Vector Word 16
  /-- b0 to b7. (R211; reset unprepared) -/
  b        : Vector BReg 8
  /-- FFLAGS: NV DZ OF UF NX in bits 0 to 4. (R125; reset 0) -/
  fflags   : BitVec 5
  /-- FMODE.RM. (R125; reset 0) -/
  fmode    : BitVec 2
  /-- BEAT_LEFT. (R46; reset 0) -/
  beatLeft : Word
  /-- TNOW_T and TNOW_M, the current tag. (R18, R20; reset 0) -/
  tnow     : Tag
  /-- SLOT. (R18; reset 0) -/
  slot     : BitVec 6
  /-- ORIGIN. (R18, R19; reset 0) -/
  origin   : DWord
  /-- JOIN_N. (R18; reset 0) -/
  joinN    : BitVec 5
  /-- Why the context does not issue. (R12; reset no) -/
  stop     : Stopped
  /-- Outstanding requests, oldest first. (R253, R372; reset none) -/
  reqs     : List Req
  /-- Number of FENCE.REL executed: later stores wait for requests of earlier epochs. (R98, R262; reset 0) -/
  epoch    : Nat
  /-- Address of the first byte fetched ahead. (R214; reset DESIGN CHOICE 0, log 1) -/
  fqBase   : DWord
  /-- Up to 16 bytes fetched ahead of the PC. (R214; reset none) -/
  fq       : List Byte
  /-- The bytes fetched ahead come from a prefetch buffer at a transfer. (R213; reset false) -/
  fqSure   : Bool
  /-- The reaction that runs here. (R27, R28; reset none) -/
  run      : Option Run
  /-- The launch whose set-up context 0 runs. (R348; reset none) -/
  setup    : Option Nat
  /-- N(h), instructions retired since the start or the last ordered request. (R110; reset 0) -/
  retired  : Nat
  /-- MODEL: by doubleword, the number of the oldest write that the context may still read. (R90, R97; reset none) -/
  seen     : KMap Nat
  /-- MODEL: the newest write that a load or an atomic of the context has read. (R95, R98; reset none, 0) -/
  obsT     : Nat
  /-- MODEL: the releases that loads and atomics of the context have read. (R96, R98; reset none) -/
  obs      : List Rel
  /-- The widest scope of a FENCE.REL or FENCE.FULL executed, whose later stores are releases; 0 none. (R98, R99; reset 0) -/
  relS     : Nat
  /-- Contexts whose accesses before a request number come before this one's. (R108; reset none) -/
  behind   : List (CtxId × Nat)
  /-- What the instruction at the PC read when it issued, while it waits. (R286, R289, R290, R293; reset none) -/
  latch    : Option (List Byte)
deriving DecidableEq, Repr

/-- A context at reset. -/
def Ctx.reset : Ctx :=
  { live := false, pc := 0, x := Vector.replicate 32 0, f := Vector.replicate 32 0, v := Vector.replicate 32 0,
    p := Vector.replicate 16 0, b := Vector.replicate 8 BReg.reset, fflags := 0, fmode := 0, beatLeft := 0,
    tnow := ⟨0, 0⟩, slot := 0, origin := 0, joinN := 0, stop := .no, reqs := [], epoch := 0, fqBase := 0, fq := [],
    fqSure := false, run := none, setup := none, retired := 0, seen := [], obsT := 0, obs := [], relS := 0,
    behind := [], latch := none }

/-- A binding record (R293). -/
structure BindRec where
  code    : DWord
  hold    : DWord
  late    : Option (Fin 64)
  restart : Bool
  pool    : Bool
  lcnt    : Nat
deriving DecidableEq, Repr

/-- A slot change (R292): by a program, or by the launch unit for the launch named. -/
inductive SlotChange where
  | bind (r : BindRec) (launch : Option Nat)
  | unbind (launch : Option Nat)
  | arm (k : Nat) (g : Half) (jbuf : BitVec 18) (launch : Option Nat)
deriving DecidableEq, Repr

/-- A slot of the routine table (R23, R292). -/
structure Slot where
  /-- Bound bit. (R23; reset false) -/
  bound   : Bool
  /-- Code address. (R23; reset DESIGN CHOICE 0, log 1) -/
  code    : DWord
  /-- Hold set. (R24; reset all 64 slots) -/
  hold    : DWord
  /-- Late slot. (R23; reset none) -/
  late    : Option (Fin 64)
  /-- Join count k. (R23; reset 1) -/
  k       : Nat
  /-- Join grace G. (R23; reset 0) -/
  g       : Half
  /-- Join buffer address. (R23, R33; reset DESIGN CHOICE 0, log 1) -/
  jbuf    : BitVec 18
  /-- Pool attribute. (R23; reset false) -/
  pool    : Bool
  /-- Restartable attribute. (R23; reset false) -/
  restart : Bool
  /-- Launch counter of its reactions. (R23; reset DESIGN CHOICE 0, log 1) -/
  lcnt    : Nat
  /-- Generation. (R23; reset 0) -/
  gen     : Byte
  /-- The pending-change register. (R292; reset empty) -/
  pending : Option SlotChange
  /-- Changes of the launch unit that wait for the register. (R292; reset none) -/
  waiting : List SlotChange
  /-- The live launch that bound the slot, with the generation it gave. (R347, R351; reset none) -/
  owner   : Option (Nat × Byte)
deriving DecidableEq, Repr

/-- A slot at reset (R23). -/
def Slot.reset : Slot :=
  { bound := false, code := 0, hold := BitVec.allOnes 64, late := none, k := 1, g := 0, jbuf := 0, pool := false,
    restart := false, lcnt := 0, gen := 0, pending := none, waiting := [], owner := none }

/-- The late record (R35). -/
structure LateRec where
  t     : DWord
  m     : Word
  orig  : DWord
  send  : DWord
  arr   : DWord
  lastT : DWord
  lastM : Word
  cls   : RouteClass
  sl    : Bool
  bx    : Bool
  rp    : Bool
deriving DecidableEq, Repr

/-- An event in the inbox (R26): its class, arrival timebase, block slot, late record and original contents if re-tagged (R35, R37), the
launch whose pool event it is (R41), whether a spare replays it, the sequence base and the context of a reaction it started, of a pool
event's units with their indices, whether the pool event has retired (R369), and what its sender had seen (R101). -/
structure InEv where
  ev    : Ev
  orig  : Option Ev
  cls   : RouteClass
  arr   : DWord
  block : Option Nat
  late  : Option LateRec
  pool  : Option Nat
  rerun : Bool
  base  : Option (Word × CtxId)
  units : List (Nat × Word × CtxId)
  spent : Bool
  seen  : KMap Nat
deriving DecidableEq, Repr

/-- An event that is held back in the landing router (R390): arrived, not entered; the launch whose pool event it is; the record that a
spare core replays (R369). -/
structure Arrival where
  ev     : Ev
  cls    : RouteClass
  arr    : DWord
  pool   : Option Nat
  seen   : KMap Nat
  replay : Option InEv
deriving DecidableEq, Repr

/-- An event in the send queue (R288): the context that sent it, the newest request of that context that must be
performed before it leaves, and what the context had seen when it sent it and as those requests were performed (R101). -/
structure SendEntry where
  ev   : Ev
  ctx  : CtxId
  upTo : Nat
  seen : KMap Nat
deriving DecidableEq, Repr

/-- A layout record (R169). -/
structure LayoutRec where
  rank   : Nat
  esz    : Nat
  tr     : Nat
  tc     : Nat
  order  : List Nat
  padv   : Bool
  stride : List Int
  pad    : DWord
deriving DecidableEq, Repr

/-- A layout register (R170). -/
structure LayoutReg where
  /-- The record, if any. (R170; reset none) -/
  record : Option LayoutRec
  /-- Base. (R170; reset DESIGN CHOICE 0, log 1) -/
  base   : DWord
  /-- Extents E0 to E3. (R170; reset DESIGN CHOICE 0, log 1) -/
  ext    : Vector Word 4
deriving DecidableEq, Repr

/-- A queued copy request (R156, R157): its four words, id, layout as read when queued, whether a firing has released it, and
what the context that queued it had seen (R105). -/
structure CopyReq where
  w0       : DWord
  w1       : DWord
  w2       : DWord
  w3       : DWord
  id       : Word
  layout   : Option LayoutReg
  released : Bool
  seen     : KMap Nat
deriving DecidableEq, Repr

/-- A running copy request: which of its elements are performed (R62, R163), and the indices read so far (R172). -/
structure CopyRun where
  req  : CopyReq
  done : List Nat
  idx  : List (Nat × Word)
deriving DecidableEq, Repr

/-- A copy channel (R161 to R165). -/
structure Chan where
  /-- Next id. (R161; reset 1) -/
  next    : Word
  /-- Done id. (R161; reset 0) -/
  done    : Word
  /-- Cause of the channel fault and its address. (R164; reset none) -/
  fault   : Option (Byte × DWord)
  /-- RANGE. (R164; reset 0) -/
  range   : Bool
  /-- ARMED. (R164, R51; reset 0) -/
  armed   : Bool
  /-- The running request, BUSY. (R164; reset none) -/
  running : Option CopyRun
  /-- MODEL: what an observer of the done id comes after. (R105; reset none) -/
  seen    : KMap Nat
deriving DecidableEq, Repr

/-- A stream descriptor (R175). -/
structure StreamDesc where
  base   : DWord
  es     : Nat
  output : Bool
  fe     : Bool
  n      : List Nat
  stride : List Int
deriving DecidableEq, Repr

/-- What binds a stream (R175, R179): a descriptor, or a link, of which each end is bound by its context's SLINK. -/
inductive StreamBind where
  | memory (ctx : CtxId) (d : StreamDesc)
  | link (writer reader : CtxId) (writerBound readerBound : Bool)
deriving DecidableEq, Repr

/-- A stream (R175 to R179): the vectors in its buffer, of which the last of an input may be incomplete, how many elements
the engine and how many vectors the program has passed. -/
structure Stream where
  /-- What binds it. (R175, R179; reset unbound) -/
  bound   : Option StreamBind
  /-- Vectors ready to pop, or pushed and not yet performed. (R176; reset none) -/
  buf     : List Vec
  /-- For each vector of a link or an output, a number above those of the pusher's requests that precede it. (R90, R179; reset none) -/
  upTo    : List Nat
  /-- MODEL: for each vector of a link, what the pusher had seen; of an output, the same if it is a release. (R179, R98;
  reset none) -/
  seen    : List (KMap Nat)
  /-- MODEL: for each vector of an input, the reads of global memory behind it: writes performed before them, PA and bytes.
  (R90, R98; reset none) -/
  reads   : List (List (Nat × Nat × Nat))
  /-- MODEL: what an output's elements have written. (R101, R107; reset none) -/
  wrote   : KMap Nat
  /-- A number above those of the binder's requests before SBIND. (R90, R178; reset 0) -/
  boundAt : Nat
  /-- Elements the engine has read or performed. (R178; reset 0) -/
  engine  : Nat
  /-- Vectors popped or pushed. (R176; reset 0) -/
  passed  : Nat
  /-- OVR. (R176; reset 0) -/
  ovr     : Bool
  /-- Cause and address of a faulted element access. (R177; reset none) -/
  fault   : Option (Byte × DWord)
  /-- SUNB at one end of a link while vectors remain. (R179; reset false) -/
  ended   : Bool
deriving DecidableEq, Repr

/-- A posted MMA (R145): the values it recorded at posting, the context whose FFLAGS it sets (R125), its PC (R154), the
scratchpad at posting, whose words it may still read (R152), and what the context had seen (R105). -/
structure MmaPost where
  fmt : MmaFmt
  n   : Fin 4
  glog : Nat
  xa  : DWord
  xb  : DWord
  sA  : DWord
  sB  : DWord
  ctx : CtxId
  pc  : DWord
  snap : Memory
  seen : KMap Nat
deriving DecidableEq, Repr

/-- The running operation at the head of a matrix queue (R147, R149): barrier passed, steps done, the accumulator at its
start and after each step, the own B chunk as read (element codes with block scales), and the fault the core has recorded
for it. -/
structure MmaRun where
  step  : Nat
  start : Acc
  hist  : List Acc
  latch : List (Nat × Nat)
  fault : Option (Byte × Nat)
deriving DecidableEq, Repr

/-- An unraised operation fault of an accumulator (R154): cause, gang index of the detecting core, PC of the MMA. -/
structure OpFault where
  cause : Byte
  fidx  : Nat
  pc    : DWord
deriving DecidableEq, Repr

/-- A scratchpad write an engine has still to make (R62, R151): bytes, whether the word is set full, the accumulator it
comes from, the multicast store it belongs to (R188), the group slot of the CEXTX that it is of (R310). -/
structure EngWrite where
  addr  : Nat
  bytes : List Byte
  full  : Bool
  acc   : Option (Fin 4)
  mcast : Option Nat
  grp   : Option Nat
deriving DecidableEq, Repr

/-- A crossbar counter: SRC, RELOAD and the current value (R50, R311); MODEL: what the pulses it counts come after (R101). -/
structure EcCounter where
  src    : BitVec 4
  reload : Half
  cur    : Half
  seen   : KMap Nat
deriving DecidableEq, Repr

/-- A crossbar term: MASK, AND, EN, the latches, the cycles, from the present one on, in which it has fired (R50, R311); MODEL:
what the pulses that feed its next firing come after, or those of a firing that is remembered (R101, R105, R107). -/
structure EcTerm where
  mask  : BitVec 20
  and_  : Bool
  en    : Bool
  latch : BitVec 20
  fired : List Nat
  seen  : KMap Nat
deriving DecidableEq, Repr

/-- The crossbar of a core (R49 to R51, R311). -/
structure Crossbar where
  /-- ECNT0 to ECNT3. (R311; reset 0) -/
  cnt  : Vector EcCounter 4
  /-- ETERM0 to ETERM7. (R311; reset 0) -/
  term : Vector EcTerm 8
  /-- ESTR0 to ESTR5, bits [4:0]. (R311; reset 0) -/
  estr : Vector (BitVec 5) 6
  /-- EOUT, bits [23:0]. (R311; reset 0) -/
  eout : BitVec 24
  /-- Writes of ECW, register and value, that take effect in the next cycle. (R312; reset none) -/
  soon : List (Nat × DWord)
  /-- ECPULSE: source 15 pulses in the next cycle; MODEL: what the pulse comes after. (R312, R101; reset none) -/
  pulse : Option (KMap Nat)
  /-- Firings of outputs 4 and 5 that wait for an inbox entry: CLOCK at the firing; MODEL: what the pulses come after.
  (R51, R101; reset none) -/
  wait : Vector (List (DWord × KMap Nat)) 2
deriving DecidableEq, Repr

/-- A TLB entry (R81 to R83): first VA, log2 of the page size, the leaf entry and its level. -/
structure TlbEnt where
  va    : Nat
  log   : Nat
  leaf  : DWord
  level : Nat
deriving DecidableEq, Repr

/-- A context that waits on full/empty bits (R60): the words, whether it waits for full, and what it does. -/
structure FeWaiter where
  ctx  : CtxId
  addr : Nat
  n    : Nat
  full : Bool
deriving DecidableEq, Repr

/-- A posted CEXTX (R310): group slot, rank, round, address, and the context that posted it, until what posted it there has ended. -/
structure Extx where
  grp   : Nat
  rank  : Nat
  round : Nat
  addr  : Nat
  ctx   : Option CtxId
deriving DecidableEq, Repr

/-- A core (R12 and the chapters that give its units). -/
structure Core where
  /-- The fourteen contexts. (R12; reset as Ctx.reset) -/
  ctxs      : Vector Ctx 14
  /-- Round-robin pointer: the context tried first. (R12; reset DESIGN CHOICE 0, log 1) -/
  rr        : CtxId
  /-- The scratchpad, 256 KiB. (R53, R63; reset unpredictable: DESIGN CHOICE 0, log 4) -/
  spad      : Memory
  /-- The words whose full/empty bit is full, by word number, rising. (R59, R63; reset every bit empty) -/
  full      : List Nat
  /-- MODEL: by word number, what the context that set the word full had seen. (R94, R95; reset none) -/
  feSeen    : KMap (KMap Nat)
  /-- MODEL: what the reactions that have ended on the core had seen. (R102; reset none) -/
  endSeen   : KMap Nat
  /-- MODEL: by word number, what the context had seen whose store after a FENCE.REL the word holds. (R98; reset none) -/
  spadRel   : KMap (KMap Nat)
  /-- Scratchpad words lost to an uncorrectable error, by word number. (R361, R367; reset none) -/
  spadLost  : List Nat
  /-- Contexts waiting on full/empty bits, oldest first. (R60; reset none) -/
  feWait    : List FeWaiter
  /-- LAST_T, LAST_M. (R18; reset 0) -/
  last      : Tag
  /-- TAGUNIT. (R18; reset 1,000) -/
  tagunit   : BitVec 20
  /-- DB_DIE. (R18; reset 40) -/
  dbDie     : Word
  /-- DB_PKG. (R18; reset 120) -/
  dbPkg     : Word
  /-- DB_CHAS. (R18; reset 600) -/
  dbChas    : Word
  /-- DB_FAR. (R18; reset 4,000) -/
  dbFar     : Word
  /-- EBOUND.CH. (R18; reset 50) -/
  eboundCh  : Word
  /-- EBOUND.FAR. (R18; reset 200) -/
  eboundFar : Word
  /-- INCLASS.PKG, CHAS, FAR; DIE always reads 1. (R18; reset PKG 1, others 0) -/
  inclass   : BitVec 3
  /-- IFLAGS.SAT, SLATE. (R18; reset 0) -/
  iflags    : BitVec 2
  /-- STALE_CNT. (R18; reset 0) -/
  staleCnt  : Word
  /-- SPILL_N. (R18; reset 0) -/
  spillN    : Word
  /-- SPILL_PUT, the last address written. (R316; reset 0) -/
  spillPut  : BitVec 18
  /-- SPILL_BUF. (R316; reset 0) -/
  spillBuf  : BitVec 18
  /-- BEX_CNT. (R387; reset 0) -/
  bexCnt    : Word
  /-- BLKAREA.FIRST. (R30; reset 4) -/
  blkFirst  : BitVec 3
  /-- BLKAREA.N. (R30; reset 4) -/
  blkN      : BitVec 4
  /-- Block slots in use. (R30; reset none) -/
  blkUsed   : List Nat
  /-- BEAT_IV. (R46; reset 3,000,000) -/
  beatIv    : Word
  /-- The late record LATE_T to LATE_CLASS. (R35; reset 0) -/
  late      : LateRec
  /-- CAUSE, FPC, FADDR, FINFO, FRPC as of the last trap entry. (R359; reset 0) -/
  trap      : TrapRec
  /-- TVEC. (R359; reset 0) -/
  tvec      : BitVec 56
  /-- TCFG.BUDGET. (R359; reset 0) -/
  tcfgBudget : Word
  /-- TCFG.INF11. (R359; reset 0) -/
  tcfgInf11 : Bool
  /-- TCFG.INF14. (R359; reset 0) -/
  tcfgInf14 : Bool
  /-- TSTK. (R359; reset 0) -/
  tstk      : BitVec 18
  /-- Trap records that wait, in the order in which they are served. (R360; reset none) -/
  recs      : List TrapRec
  /-- DET_CFG.DET (and PAIROFF). (R110; reset 0) -/
  det       : Bool
  /-- DET_CFG.ROUNDS. (R110; reset 0) -/
  detRounds : Word
  /-- QUANTUM. (R110; reset 4,096) -/
  quantum   : Word
  /-- GANG_CFG.GLOG. (R141; reset 0) -/
  glog      : BitVec 3
  /-- The routine table, 64 slots. (R23; reset as Slot.reset) -/
  slots     : Vector Slot 64
  /-- The inbox, in arrival order. (R26; reset empty) -/
  inbox     : List InEv
  /-- Events held back in the landing router, in arrival order. (R390; reset none) -/
  held      : List Arrival
  /-- The send queue. (R288; reset empty) -/
  sendQ     : List SendEntry
  /-- Next sequence number. (R15; reset DESIGN CHOICE 0, log 1) -/
  seq       : Word
  /-- The spill floor: the least key among spilled events. (R39; reset none) -/
  floor     : Option Ev
  /-- The spill heap: records of events taken from the inbox. (R39, R40; reset empty) -/
  heap      : List (List Byte)
  /-- MODEL: the events of taken records as they stood, for what the record does not hold. (R101, R316; reset none) -/
  spilled   : List InEv
  /-- Keys of the last 256 restartable-sender events accepted. (R48; reset none) -/
  replayKeys : List (Tag × DWord × Word)
  /-- The snapshot ring: events accepted and not retired, while logging. (R369; reset none) -/
  ring      : List InEv
  /-- The core keeps a snapshot ring. (R369; reset false) -/
  logging   : Bool
  /-- The ring's image of the routine table. (R369; reset as Slot.reset) -/
  ringTab   : Vector Slot 64
  /-- x28, x29, stack base and FMODE that the launch set for helpers. (R28, R348; reset DESIGN CHOICE 0, log 1) -/
  lx28      : DWord
  /-- x29 for reactions. (R28, R348; reset DESIGN CHOICE 0, log 1) -/
  lx29      : DWord
  /-- Stack area base for reactions. (R28, R346; reset DESIGN CHOICE 0, log 1) -/
  lstk      : BitVec 18
  /-- Copy FIFO, oldest first. (R156; reset empty) -/
  fifo      : List CopyReq
  /-- Copy channels 0 to 3. (R161; reset next 1, done 0) -/
  chans     : Vector Chan 4
  /-- Layout registers y0 to y3. (R170; reset no record) -/
  layouts   : Vector LayoutReg 4
  /-- Streams s0 to s7. (R175; reset unbound) -/
  streams   : Vector Stream 8
  /-- acc0 to acc3. (R140, R322; reset unpredictable: DESIGN CHOICE 0, log 4) -/
  accs      : Vector Acc 4
  /-- MODEL: what an observer of an accumulator's operation comes after. (R105; reset none) -/
  accSeen   : Vector (KMap Nat) 4
  /-- Matrix queue, oldest first. (R145; reset empty) -/
  mq        : List MmaPost
  /-- g, format and accumulator of every operation posted since the last GANG. (R146; reset none) -/
  mHist     : List (Nat × MmaFmt × Fin 4)
  /-- The operation that has passed its barrier. (R147; reset none) -/
  mRun      : Option MmaRun
  /-- Fault flags of the accumulators. (R154; reset 0) -/
  accFault  : Vector (Option OpFault) 4
  /-- MSTAT.CAUSE. (R154; reset 0) -/
  mCause    : Byte
  /-- MSTAT.FIDX. (R154; reset 0) -/
  mFidx     : Nat
  /-- Engine writes to the scratchpad still to be made. (R62, R151; reset none) -/
  engW      : List EngWrite
  /-- Posted CEXTX. (R310; reset none) -/
  extx      : List Extx
  /-- Held collective injections, oldest first: group slot. (R182, R51; reset none) -/
  heldInj   : List Nat
  /-- Group of the core's most recent injection. (R182; reset none) -/
  lastGroup : Option Nat
  /-- The cycle in which the selector last started a reaction or the crossbar made a local event: nothing more starts in it.
  (R27, R51; reset none) -/
  selAt     : Option Nat
  /-- The event crossbar. (R311; reset 0) -/
  xbar      : Crossbar
  /-- Performance counters: event code selected. (R312; reset DESIGN CHOICE 0, log 1) -/
  pcfg      : Vector Half 8
  /-- Writes of PCFG, counter and code, that take effect in the next cycle. (R312; reset none) -/
  pcfgSoon  : List (Fin 8 × Half)
  /-- Performance counters: values. (R312; reset DESIGN CHOICE 0, log 1) -/
  pcnt      : Vector DWord 8
  /-- MODEL: the cycle up to which a counter of events that the model does not show is settled. (R312, log 25; reset 0) -/
  pcntAt    : Vector Nat 8
  /-- Capability table: region number (VA[55:16]) and the launch whose aperture it is. (R75; reset empty) -/
  caps      : List (Nat × Nat)
  /-- MODEL: what the core that handed a region over had seen, by region. (R104; reset none) -/
  capSeen   : KMap (KMap Nat)
  /-- The core's TLB. (R81; reset empty) -/
  tlb       : List TlbEnt
  /-- The code cache: 16-byte lines by PA. (R64, R214; reset empty) -/
  code      : KMap (List Byte)
  /-- Fenced. (R46; reset false) -/
  fenced    : Bool
  /-- Halted. (R318, R364; reset false) -/
  halted    : Bool
deriving DecidableEq, Repr

/-- An all-zero late record. -/
def LateRec.zero : LateRec :=
  { t := 0, m := 0, orig := 0, send := 0, arr := 0, lastT := 0, lastM := 0, cls := .die, sl := false, bx := false,
    rp := false }

/-- An all-zero trap record. -/
def TrapRec.zero : TrapRec :=
  { cause := 0, ctx := 0, defd := false, fpc := 0, faddr := 0, finfo := 0, frpc := 0, req := none, at_ := 0 }

/-- A core at reset. -/
def Core.reset : Core :=
  { ctxs := Vector.replicate 14 Ctx.reset, rr := 0, spad := [], full := [], feSeen := [], endSeen := [],
    spadRel := [], spadLost := [], feWait := [], last := ⟨0, 0⟩,
    tagunit := 1000, dbDie := 40, dbPkg := 120, dbChas := 600, dbFar := 4000, eboundCh := 50, eboundFar := 200,
    inclass := 1, iflags := 0, staleCnt := 0, spillN := 0, spillPut := 0, spillBuf := 0, bexCnt := 0, blkFirst := 4,
    blkN := 4, blkUsed := [], beatIv := 3000000, late := LateRec.zero, trap := TrapRec.zero, tvec := 0, tcfgBudget := 0,
    tcfgInf11 := false, tcfgInf14 := false, tstk := 0, recs := [], det := false, detRounds := 0, quantum := 4096,
    glog := 0, slots := Vector.replicate 64 Slot.reset, inbox := [], held := [], sendQ := [], seq := 0, floor := none,
    heap := [], spilled := [], replayKeys := [], ring := [], logging := false, ringTab := Vector.replicate 64 Slot.reset,
    lx28 := 0, lx29 := 0, lstk := 0, fifo := [],
    chans := Vector.replicate 4
      { next := 1, done := 0, fault := none, range := false, armed := false, running := none, seen := [] },
    layouts := Vector.replicate 4 { record := none, base := 0, ext := Vector.replicate 4 0 },
    streams := Vector.replicate 8
      { bound := none, buf := [], upTo := [], seen := [], reads := [], wrote := [], boundAt := 0, engine := 0, passed := 0, ovr := false,
        fault := none, ended := false },
    accs := Vector.replicate 4 (Vector.replicate 256 0), accSeen := Vector.replicate 4 [], mq := [], mHist := [], mRun := none,
    accFault := Vector.replicate 4 none, mCause := 0, mFidx := 0, engW := [], extx := [], heldInj := [],
    lastGroup := none, selAt := none,
    xbar := { cnt := Vector.replicate 4 { src := 0, reload := 0, cur := 0, seen := [] },
              term := Vector.replicate 8 { mask := 0, and_ := false, en := false, latch := 0, fired := [], seen := [] },
              estr := Vector.replicate 6 0, eout := 0, soon := [], pulse := none, wait := Vector.replicate 2 [] },
    pcfg := Vector.replicate 8 0, pcfgSoon := [], pcnt := Vector.replicate 8 0, pcntAt := Vector.replicate 8 0,
    caps := [], capSeen := [], tlb := [], code := [], fenced := false,
    halted := false }

/-- A completion counter (R44, R300, R349): launch 0-4,095, graph 4,096-4,351, phase 4,352-4,415, job 4,416-4,431. -/
structure Counter where
  /-- COUNT. (R300; reset 0) -/
  count   : Word
  /-- UFL. (R300; reset 0) -/
  ufl     : Bool
  /-- CANC. (R300; reset 0) -/
  canc    : Bool
  /-- DONE. (R300; reset 0) -/
  done    : Bool
  /-- Live: set, completion not delivered. (R349; reset false) -/
  live    : Bool
  /-- Parent counter. (R349; reset none) -/
  parent  : Option Nat
  /-- Completion form. (R350; reset DESIGN CHOICE 0, none, log 1) -/
  form    : DWord
  /-- The delivering die. (R350; reset DESIGN CHOICE 0, log 1) -/
  die     : Fin 4
  /-- MODEL: what those who decremented it had seen. (R107; reset none) -/
  seen    : KMap Nat
deriving DecidableEq, Repr

/-- A counter at reset. -/
def Counter.reset : Counter :=
  { count := 0, ufl := false, canc := false, done := false, live := false, parent := none, form := 0, die := 0,
    seen := [] }

/-- One routine record of a launch (R336): binding record, arm word, slot. -/
structure RoutineRec where
  bind : BindRec
  k    : Nat
  g    : Half
  jbuf : BitVec 18
  slot : Fin 64
deriving DecidableEq, Repr

/-- A launch (R346 to R351). `stage` is the set-up step of R348 that comes next, 8 when set-up is over; `todo` lists the
cores that step 3 has still to set. `given` lists the regions that have left the default holding of capabilities, which
at launch start holds all (R75). `snap`: SNAPCFG.EN at acceptance (R369). `seen`: what its starter had seen (R101, R295). MODEL: `began`:
how many writes were performed when its first event started, if it has (R67). -/
structure Launch where
  lcnt    : Nat
  die     : Fin 4
  tag     : Tag
  det     : Bool
  setup   : Bool
  fmode   : BitVec 2
  quantum : Word
  first   : Nat
  ncore   : Nat
  args    : DWord
  arglen  : Nat
  state   : BitVec 18
  stk     : BitVec 18
  count   : Word
  parent  : Option Nat
  form    : DWord
  poolN   : Nat
  recs    : List RoutineRec
  init    : List WinSlot
  stage   : Nat
  ranges  : List (Nat × Nat)
  given   : List Nat
  todo    : List Nat
  snap    : Bool
  seen    : KMap Nat
  began   : Option Nat
deriving DecidableEq, Repr

/-- A member of a group (R181, R182, R310). -/
structure Member where
  core    : Nat
  joined  : Bool
  freed   : Bool
  inj     : Option (List Word)
  held    : Bool
  injRound : Nat
  outRound : Nat
  outRes  : Bool
  data    : List Word
  rounds  : Word
deriving DecidableEq, Repr

/-- A group (R180 to R187, R309). `aborting` lists the ranks that the abort has still to reach, `abRound` is the round that it
ends; `seen`, by round, what the members that injected had seen (R106). -/
structure Group where
  gen      : Half
  live     : Bool
  desc     : DWord
  op       : Nat
  ty       : Nat
  kind     : Nat
  count    : Nat
  root     : Nat
  members  : List Member
  aborted  : Bool
  aborting : List Nat
  abRound  : Nat
  nres     : Nat
  seen     : KMap (KMap Nat)
deriving DecidableEq, Repr

/-- What the home keeps of an object in a launch (R189, R190), the landings that know its W (R192),
and for each value it holds what the pusher had seen (R103). -/
structure ObjHome where
  va     : DWord
  lcnt   : Nat
  bad    : Bool
  w      : Nat
  cap    : Nat
  count  : Nat
  store  : DWord
  told   : List Nat
  seen   : List (KMap Nat)
deriving DecidableEq, Repr

/-- An object operation on its way (R192): the module it comes from if that is another, with what its push comes after (R103), whether
its page is confidential (R384), the request it serves, the landings still to pass, whether it has waited, and the cycles of its wait
left. -/
structure ObjMsg where
  dev    : Option (BitVec 20)
  enc    : Bool
  seen   : KMap Nat
  core   : CoreId
  ctx    : CtxId
  req    : Nat
  op     : ReqKind
  pa     : Nat
  va     : DWord
  value  : DWord
  lcnt   : Nat
  path   : List Nat
  waited : Bool
  left   : Nat
deriving DecidableEq, Repr

/-- An event between its sender and its receiver's landing router (R12, R26), and the launch whose pool event it is. -/
structure Flight where
  dest : CoreId
  ev   : Ev
  cls  : RouteClass
  pool : Option Nat
  seen : KMap Nat
deriving DecidableEq, Repr

/-- A capability message on its way (R75, R270). -/
structure CapMsg where
  region  : Nat
  lcnt    : Nat
  src     : CoreId
  dst     : CoreId
  refused : Bool
  seen    : KMap Nat
deriving DecidableEq, Repr

/-- A multicast store in flight (R188, R290): its number, the members by rank, the core that sent it, and where its completion
record goes. -/
structure Mcast where
  id      : Nat
  members : List Nat
  core    : CoreId
  record  : Nat
deriving DecidableEq, Repr

/-- A packet that its source keeps until it is acknowledged (R382): `req` is the request of a context that waits for it, `eng` the
number of an engine's access that does. -/
structure Kept where
  dst    : BitVec 20
  packet : Packet
  sentAt : DWord
  tries  : Nat
  req    : Option (CoreId × CtxId × Nat)
  eng    : Option Nat
deriving DecidableEq, Repr

/-- An engine's access of another module's memory (R53, R84, R382): its number, the core and the unit there (16 + a copy channel, 24 + a
stream, 64 one that has been given up), the bytes, of a write its value, its agent's unit and the release that it is, and its outcome: a
fault's cause, or 0 and the value or the write's number. -/
structure EngReq where
  id    : Nat
  core  : CoreId
  unit  : Nat
  agent : Nat
  va    : DWord
  pa    : Nat
  n     : Nat
  enc   : Bool
  data  : Option Nat
  rels  : List Rel
  reply : Option (Byte × DWord)
deriving DecidableEq, Repr

/-- A write from outside the module that is held at an overflowed line: a host's store through BAR4, or the write of a packet that has
come by a port (R65, R341). -/
inductive HeldWrite where
  | aperture (pa n : Nat) (v : DWord)
  | packet (port : Fin 8) (p : Packet)
deriving DecidableEq, Repr

/-- A directory entry (R65): the pointer sharers, the overflow mark, whether a write is held at the home until the line is
invalidated, and that write if it comes from outside the module. -/
structure DirEnt where
  sharers  : List Nat
  overflow : Bool
  held     : Bool
  write    : Option HeldWrite
deriving DecidableEq, Repr

/-- The versions of a versioned word (R71, R73), by rising version number, the launch that made them,
and by version number what the core that made it had seen (R104). -/
structure VerWord where
  vers : List (Nat × DWord)
  lcnt : Nat
  seen : KMap (KMap Nat)
deriving DecidableEq, Repr

/-- A host queue (R342, R352). -/
structure HostQ where
  /-- HQBASE. (R342; reset 0) -/
  base : DWord
  /-- HQCFG: LOG [3:0], VEC [14:4], EN [15]. (R342; reset 0) -/
  cfg  : Half
  /-- HQHEAD. (R342; reset 0) -/
  head : Word
  /-- TAIL. (R352; reset DESIGN CHOICE 0, log 1) -/
  tail : Word
deriving DecidableEq, Repr

/-- A Hawser port (R379, R381, R384, R385). -/
structure Port where
  /-- PORTSTAT.STATE. (R385; reset 0) -/
  state   : BitVec 2
  /-- PORTSTAT.KEY. (R385; reset 0) -/
  key     : Bool
  /-- PORTSTAT.REPLAY. (R385; reset 0) -/
  replay  : Word
  /-- Packets sent under the current key. (R384; reset DESIGN CHOICE 0, log 1) -/
  packets : Nat
  /-- Consecutive GCM tag failures. (R384; reset DESIGN CHOICE 0, log 1) -/
  tagFail : Nat
  /-- Timebase at the last key agreement. (R384; reset DESIGN CHOICE 0, log 1) -/
  keyAt   : DWord
  /-- The packets of the last 256 flits sent, newest first, for a replay. (R381; reset none) -/
  sent    : List Packet
deriving DecidableEq, Repr

/-- A checkpoint cut (R357, R358, R386): its time, save area, reserve and completion form; the ports whose markers have
arrived, the events that arrived behind them; the cores as step 2 saves them; where it drains to; memory at the cut, and the
pages copied since. -/
structure Cut where
  tc      : DWord
  save    : DWord
  reserve : DWord
  pages   : Nat
  form    : DWord
  markers : List Nat
  after   : List (Tag × DWord × Word)
  cores   : Option (KMap Core)
  drainTo : Option (DWord × DWord)
  mem     : Memory
  copied  : List Nat
deriving DecidableEq, Repr

/-- What a pre-emption saves (R372): the cores, and what of the module record another job would change. -/
structure Saved where
  cores    : KMap Core
  counters : KMap Counter
  launches : KMap Launch
  groups   : KMap Group
  hostPages : Vector (List Nat) 4
  joboff    : DWord
deriving DecidableEq, Repr

/-- What one entry of the agenda lets happen: a core issues, a context that was served issues (R60, R286), a happening of the
table, one element of a running copy (R62, R163), one word of an engine's write (R62, R151), the home routine of a landing
serves its oldest notice (R65), the host reads a register (R342) or accesses the event window (R343), an uncorrectable error
strikes a line or a scratchpad word (R367), the module behind a port asks for a replay from a packet of its buffer on (R381), or an
outside agent writes memory outside the module (the host its own memory, another module its own HBM). Log entry 5. -/
inductive Who where
  | core (c : CoreId)
  | waiter (c : CoreId) (h : CtxId)
  | happening (i : Instr)
  | copyElement (c : CoreId) (ch : Fin 4) (k : Nat)
  | engineWrite (c : CoreId) (k : Nat)
  | homeRoutine (landing : Nat)
  | hostRead (off : Nat)
  | slotWrite (slot : Fin 4096) (word : Fin 8) (v : DWord)
  | slotRead (slot : Fin 4096) (word : Fin 8)
  | upset (pa part : Nat)
  | upsetSpad (c : CoreId) (word : Nat)
  | linkReplay (port : Fin 8) (k : Nat)
  | outsideWrite (pa : Nat) (bytes : List Byte)
deriving DecidableEq, Repr

/-- One turn of the agenda: the core cycles that pass before it, and what happens. Log entry 5. -/
structure Turn where
  cycles : Nat
  who    : Who
deriving DecidableEq, Repr

/-- The module. -/
structure State where
  /-- MODEL: what moves next, an input. Empty: core `cur` issues after one cycle. (log 5; reset DESIGN CHOICE empty) -/
  agenda    : List Turn
  /-- MODEL: the core that issues. (log 5; reset DESIGN CHOICE 0) -/
  cur       : CoreId
  /-- MODEL: the context that issues. (R12, log 5; reset DESIGN CHOICE 0) -/
  curCtx    : CtxId
  /-- MODEL: free values drawn so far. (log 2; reset DESIGN CHOICE 0) -/
  freeCtr   : Nat
  /-- MODEL: requests made so far, which names them. (log 5; reset DESIGN CHOICE 0) -/
  reqCtr    : Nat
  /-- The cores that differ from Core.reset, by CORE_ID. (R1, R12; reset every core as Core.reset) -/
  cores     : KMap Core
  /-- Memory by physical address: HBM, weight store, host and CXL, other modules. (R56; reset DESIGN CHOICE 0, log 4) -/
  mem       : Memory
  /-- MODEL: global writes performed, newest first; the oldest has number 1. (R90, R92, R97; reset none) -/
  past      : List Write
  /-- MODEL: what the FENCE.FULLs executed had before them. (R99; reset none) -/
  fulls     : List Rel
  /-- MODEL: what the host has written or been told. (R101, R107; reset none) -/
  hostSeen  : KMap Nat
  /-- MODEL: core cycles that have passed. (R50, R360; reset 0) -/
  cycle     : Nat
  /-- Results of an ended launch that wait for a place in the reserve of a cut: PA and doubleword. (R358; reset none) -/
  lateW     : List (Nat × DWord)
  /-- Lines lost to an uncorrectable error, by PA: the code of the part that lost them. (R361, R367; reset none) -/
  lost      : KMap Nat
  /-- TIMEBASE, hardware timebase in ns. (R342, R374; reset unpredictable: DESIGN CHOICE 0, log 1) -/
  timebase  : DWord
  /-- MODEL: thousandths of core cycles since the last whole ns; slewing the timebase moves it (R385).
  (R6, R389; reset DESIGN CHOICE 0, log 5) -/
  phase     : Int
  /-- Core clock in MHz. (R6, R389; reset 3,000) -/
  mhz       : Nat
  /-- The power cap in milliwatts. (R389; reset DESIGN CHOICE 3,200,000, log 1) -/
  powerCap  : Nat
  /-- Shut down at 115 degrees. (R389; reset false) -/
  shutdown  : Bool
  /-- The module is held in reset (firmware not verified). (R388; reset false: reset released) -/
  inReset   : Bool
  /-- Rollback counter, fuses blown of 64. (R388; reset DESIGN CHOICE 0, log 1) -/
  rollback  : Fin 65
  /-- Device firmware image that a PLDM update has stored. (R388; reset none) -/
  firmware  : List Byte
  /-- Its version. (R388; reset 0 with no image) -/
  fwVersion : Nat
  /-- Answers of the service processor. (R388; reset none) -/
  mgmtOut   : List (List Byte)
  /-- DEV_COORD. (R315; reset 0) -/
  devCoord  : BitVec 20
  /-- WS_CAL. (R70; reset 0) -/
  wsCal     : DWord
  /-- WS_PERIOD. (R70; reset 64,000) -/
  wsPeriod  : Word
  /-- WS_WINDOW. (R70; reset 2,000) -/
  wsWindow  : Word
  /-- The bank of the weight store that is away. (R70; reset bank 0: WS_CAL 0) -/
  wsAway    : Option (Fin 16)
  /-- Landing TLBs, by landing. (R81; reset empty) -/
  ltlb      : KMap (List TlbEnt)
  /-- Constant caches, by landing, of 128-byte lines by PA, each with the number of the newest write at its fill.
  (R67; reset empty) -/
  constC    : KMap (KMap (Nat × List Byte))
  /-- Directory entries by line. (R65; reset none) -/
  dir       : KMap DirEnt
  /-- Overflow notices that the home routine of a landing has still to serve, oldest first: line and core.
  (R65, R66; reset none) -/
  notices   : KMap (List (Nat × Nat))
  /-- The overflow tables by landing, oldest entry first: line and sharer. (R65, R66; reset empty) -/
  ovfTab    : KMap (List (Nat × Nat))
  /-- Line fills of CPF that wait at their homes, oldest first: core and PA. (R65, R66, R260; reset none) -/
  prefetches : List (CoreId × Nat)
  /-- Versioned words by PA. (R71; reset none) -/
  vers      : KMap VerWord
  /-- Watermarks by region (`markKey`), with the launch that raised them. (R71; reset 0) -/
  marks     : KMap (Nat × Nat)
  /-- Capability messages on their way. (R75; reset none) -/
  capMsgs   : List CapMsg
  /-- Completion counters. (R44; reset 0) -/
  counters  : KMap Counter
  /-- Live launches by launch counter. (R347; reset none) -/
  launches  : KMap Launch
  /-- Accepted launches that the launch unit of each die is setting up, oldest first. (R347, R348; reset none) -/
  setupQ    : Vector (List Nat) 4
  /-- Launch commits whose records the launch unit cannot read yet, for a weight-store bank that is away. (R347, R70; reset none) -/
  launchWait : List WinSlot
  /-- The group table. (R181; reset empty) -/
  groups    : KMap Group
  /-- Multicast stores in flight. (R188; reset none) -/
  mcasts    : List Mcast
  /-- Objects the homes keep, by PA of the header. (R189; reset none) -/
  objs      : KMap ObjHome
  /-- Object operations on their way. (R192; reset none) -/
  objMsgs   : List ObjMsg
  /-- Pairing windows by landing, 8 entries each. (R192; reset empty) -/
  windows   : KMap (List ObjMsg)
  /-- By landing, the cycle of its router's last test and the issuing core tested. (R326; reset none) -/
  routerAt  : KMap (Nat × Nat)
  /-- Events on their way to a core of the module. (R12; reset none) -/
  flight    : List Flight
  /-- Events from the fabric whose block fragments have not all arrived. (R380; reset none) -/
  waitFrag  : List Flight
  /-- Block fragments arrived, by origin and sequence: offset and bytes. (R380; reset none) -/
  frags     : List (DWord × Word × Nat × List Byte)
  /-- WINCRED. (R342; reset 4,096) -/
  winCred   : Nat
  /-- WINDROP. (R342; reset 0) -/
  winDrop   : Word
  /-- Sequence of host-window events. (R345; reset 0) -/
  hostSeq   : Word
  /-- HOSTOFF. (R342; reset 0) -/
  hostOff   : DWord
  /-- PTMCTL: EN, HOSTREF. (R342; reset 0) -/
  ptmctl    : BitVec 2
  /-- PTROOT0 to PTROOT3, bits [51:16]. (R342; reset 0) -/
  ptroot    : Vector (BitVec 36) 4
  /-- SPILLCFG.BASE [55:16]. (R342; reset 0) -/
  spillBase : BitVec 40
  /-- SPILLCFG.LOG. (R342; reset 16) -/
  spillLog  : Byte
  /-- OVFCFG.BASE [55:16]. (R342; reset 0) -/
  ovfBase   : BitVec 40
  /-- OVFCFG.LOG. (R342; reset 16) -/
  ovfLog    : Byte
  /-- APBASE [51:32]. (R342; reset 0) -/
  apbase    : BitVec 20
  /-- Host queues 0 to 16. (R342, R352; reset 0) -/
  hostQ     : Vector HostQ 17
  /-- FBDUP. (R342; reset 0) -/
  fbDup     : Word
  /-- Outstanding fallback requests by id: core, context, request. (R354; reset none) -/
  fallback  : KMap (CoreId × CtxId × Nat)
  /-- Host-page tables of the dies, oldest first: 4 KiB page numbers. (R353; reset empty) -/
  hostPages : Vector (List Nat) 4
  /-- Reply values written to the fallback reply window, by id. (R355; reset DESIGN CHOICE 0, log 1) -/
  fbValue   : KMap DWord
  /-- The slots of the host event window. (R343; reset DESIGN CHOICE 0, log 1) -/
  winSlots  : KMap WinSlot
  /-- The MSI-X table, by doubleword. (R341; reset DESIGN CHOICE 0, log 1) -/
  msixTab   : KMap DWord
  /-- MODEL: what the host's reads of BAR0, BAR2 and BAR4 have returned, newest first. (R341, R342; reset none) -/
  hostData  : List DWord
  /-- MSI-X vectors signalled, newest first. (R340; reset none) -/
  msix      : List Nat
  /-- CKSTAT.STATE. (R342; reset 0) -/
  ckState   : BitVec 4
  /-- CKSTAT.RSV. (R342; reset 0) -/
  ckRsv     : Half
  /-- The cut requested or taken. (R357; reset none) -/
  cut       : Option Cut
  /-- Ports whose cut markers have come before the module's own cut was requested. (R386; reset none) -/
  earlyMarks : List Nat
  /-- The events that have come behind such a marker. (R386; reset none) -/
  earlyAfter : List (Tag × DWord × Word)
  /-- PECTL: FREEZE, RESUME, COORD. (R370; reset 0) -/
  pectl     : BitVec 3
  /-- PEBASE [55:16]. (R370; reset 0) -/
  pebase    : BitVec 40
  /-- PESTAT. (R370; reset 0) -/
  pestat    : BitVec 3
  /-- PEFREEZE. (R370; reset 0) -/
  pefreeze  : DWord
  /-- PERESUME. (R370; reset 0) -/
  peresume  : DWord
  /-- JOBOFF. (R370; reset 0) -/
  joboff    : DWord
  /-- Ports whose freeze markers have arrived. (R374; reset none) -/
  peMarks   : List Nat
  /-- The module's own freeze markers have left. (R374; reset false) -/
  peSent    : Bool
  /-- The saved images, by save area. (R372; reset none) -/
  saved     : KMap Saved
  /-- MCREC.KIND. (R367; reset 0) -/
  mcKind    : BitVec 4
  /-- MCREC.CORE. (R367; reset 0) -/
  mcCore    : BitVec 13
  /-- MCREC.CAUSE. (R367; reset 0) -/
  mcCause   : Byte
  /-- MCADDR. (R367; reset 0) -/
  mcAddr    : BitVec 52
  /-- MCCOUNT. (R367; reset 0) -/
  mcCount   : Word
  /-- MCVEC. (R367; reset 0) -/
  mcVec     : BitVec 11
  /-- SNAPCFG.EN. (R369; reset 0) -/
  snapEn    : Bool
  /-- SNAPCFG.BASE [55:16]. (R369; reset 0) -/
  snapBase  : BitVec 40
  /-- SNAPCFG.LOG. (R369; reset 20) -/
  snapLog   : Byte
  /-- Spare cores left on each die. (R369; reset 16) -/
  spares    : Vector Nat 4
  /-- Hawser ports MX+ MX- MY+ MY- TZ+ TZ- TW+ TW-. (R385; reset down) -/
  ports     : Vector Port 8
  /-- E2ECFG.TIMEOUT. (R385; reset 11,000) -/
  e2eTimeout : Word
  /-- E2ECFG.RETRIES. (R385; reset 8) -/
  e2eRetries : BitVec 4
  /-- Next E2ESEQ by destination module. (R379; reset DESIGN CHOICE 0, log 1) -/
  e2eNext   : KMap Word
  /-- Packets kept until acknowledged. (R382; reset none) -/
  kept      : List Kept
  /-- The last 4,096 E2ESEQ accepted, by source module. (R382; reset none) -/
  accepted  : KMap (List Word)
  /-- The last 8 replies to atomics by source module and core. (R383; reset none) -/
  replies   : KMap (List (Word × DWord))
  /-- Packets sent on the fabric, newest first. (R379; reset none) -/
  outbox    : List Packet
  /-- MODEL: what the packets sent have before them, by destination module and E2ESEQ (`sentKey`). (R97, log 84; reset none) -/
  sentSeen  : KMap (KMap Nat)
  /-- Events of a core's own for another module that wait behind an unacknowledged capability packet, oldest first. (R378;
  reset none) -/
  capWait   : List (CoreId × Ev × KMap Nat)
  /-- Accesses of engines to another module's memory. (R84, R382; reset none) -/
  engReqs   : List EngReq
  /-- CLKCFG: MASTER [0], REF [2:1]. (R385; reset 0) -/
  clkcfg    : BitVec 3
  /-- CLKOFF. (R385; reset 0) -/
  clkoff    : DWord
  /-- The timebase at the last slew. (R385; reset 0) -/
  slewAt    : DWord
  /-- The chassis master, as firmware names it. (R385; reset DESIGN CHOICE 0, log 59) -/
  masterAt  : BitVec 20
  /-- UNREACH. (R385; reset 0) -/
  unreach   : DWord
  /-- FARUNR0 to FARUNR255. (R385; reset 0) -/
  farunr    : KMap DWord
deriving DecidableEq, Repr

/-- Why the machine as a whole stops with a fault. Every fault the manual names is a trap, a channel fault, an operation
fault or a machine check, that is, a next state: no step of the model answers with this. -/
inductive Fault where
  /-- Raised by nothing: a place for a stop that the manual does not have. Safe: it only stops. -/
  | none
deriving DecidableEq, Repr

/-- Why an instruction has no meaning. -/
inductive Refusal where
  /-- Raised by an arm of `exec` whose row has no meaning yet. Safe: it only stops. -/
  | notModelled (mnemonic : String)
deriving DecidableEq, Repr

/-- The module right after reset: every field at the value its line above names. -/
def State.reset : State :=
  { agenda := [], cur := 0, curCtx := 0, freeCtr := 0, reqCtr := 0, cores := [], mem := [], past := [], fulls := [], hostSeen := [],
    cycle := 0, lateW := [], lost := [], timebase := 0, phase := 0, mhz := 3000, powerCap := 3200000, shutdown := false,
    inReset := false, rollback := 0, firmware := [], fwVersion := 0,
    mgmtOut := [], devCoord := 0, wsCal := 0, wsPeriod := 64000, wsWindow := 2000, wsAway := some 0, ltlb := [],
    constC := [], dir := [], notices := [], ovfTab := [], prefetches := [],
    vers := [], marks := [], capMsgs := [], counters := [], launches := [],
    setupQ := Vector.replicate 4 [], launchWait := [],
    groups := [], mcasts := [], objs := [], objMsgs := [], windows := [], routerAt := [], flight := [],
    waitFrag := [], frags := [],
    winCred := 4096, winDrop := 0, hostSeq := 0, hostOff := 0, ptmctl := 0, ptroot := Vector.replicate 4 0,
    spillBase := 0, spillLog := 16, ovfBase := 0, ovfLog := 16, apbase := 0,
    hostQ := Vector.replicate 17 { base := 0, cfg := 0, head := 0, tail := 0 }, fbDup := 0, fallback := [],
    hostPages := Vector.replicate 4 [], fbValue := [], winSlots := [], msixTab := [], hostData := [],
    msix := [], ckState := 0, ckRsv := 0, cut := none, earlyMarks := [], earlyAfter := [], pectl := 0, pebase := 0,
    pestat := 0, pefreeze := 0, peresume := 0, joboff := 0, peMarks := [], peSent := false,
    saved := [], mcKind := 0, mcCore := 0, mcCause := 0,
    mcAddr := 0, mcCount := 0, mcVec := 0, snapEn := false, snapBase := 0, snapLog := 20,
    spares := Vector.replicate 4 16,
    ports := Vector.replicate 8 { state := 0, key := false, replay := 0, packets := 0, tagFail := 0, keyAt := 0, sent := [] },
    e2eTimeout := 11000, e2eRetries := 8, e2eNext := [], kept := [], accepted := [], replies := [], outbox := [],
    sentSeen := [], capWait := [], engReqs := [],
    clkcfg := 0, clkoff := 0, slewAt := 0, masterAt := 0, unreach := 0, farunr := [] }

end Sys2Proof.Machine
end

