-- ==== Sys2Proof/Machine/Maps.lean ====
section
/-! DEFINITION. Finite maps, memory as a list of cells, little-endian bytes, and bit fields. -/

namespace Sys2Proof.Machine

/-- The value at a key, or the default. -/
def KMap.get {α : Type} (d : α) : KMap α → Nat → α
  | [], _ => d
  | (k, v) :: r, i => if i = k then v else KMap.get d r i

/-- The value at a key, if listed. -/
def KMap.find {α : Type} : KMap α → Nat → Option α
  | [], _ => none
  | (k, v) :: r, i => if i = k then some v else KMap.find r i

/-- Write a key, keeping keys rising. -/
def KMap.put {α : Type} : KMap α → Nat → α → KMap α
  | [], i, w => [(i, w)]
  | (k, v) :: r, i, w =>
    if i < k then (i, w) :: (k, v) :: r else if i = k then (i, w) :: r else (k, v) :: KMap.put r i w

/-- Drop a key. -/
def KMap.drop {α : Type} : KMap α → Nat → KMap α
  | [], _ => []
  | (k, v) :: r, i => if i = k then r else (k, v) :: KMap.drop r i

/-- One byte of memory; an unlisted address reads as 0 (log 4). -/
def Memory.get : Memory → Nat → Byte
  | [], _ => 0
  | (k, v) :: r, a => if a = k then v else Memory.get r a

/-- Remove the entry of an address. -/
def Memory.clear : Memory → Nat → Memory
  | [], _ => []
  | (k, v) :: r, a => if a = k then r else (k, v) :: Memory.clear r a

/-- List a byte at an address, keeping addresses rising. -/
def Memory.list : Memory → Nat → Byte → Memory
  | [], a, b => [(a, b)]
  | (k, v) :: r, a, b =>
    if a < k then (a, b) :: (k, v) :: r else if a = k then (a, b) :: r else (k, v) :: Memory.list r a b

/-- Write one byte: writing what an unlisted address reads as removes the entry. -/
def Memory.put (m : Memory) (a : Nat) (b : Byte) : Memory :=
  if b = 0 then m.clear a else m.list a b

/-- Every listed address is above `lo` and rises, and no entry is 0. -/
def Memory.wfFrom : Nat → Memory → Bool
  | _, [] => true
  | lo, (k, v) :: r => decide (lo ≤ k) && decide (v ≠ 0) && Memory.wfFrom (k + 1) r

/-- The canonical form: addresses strictly rising, no entry equal to what an unlisted address reads as. -/
def Memory.wf (m : Memory) : Bool := m.wfFrom 0

/-- `n` bytes from an address on. -/
def Memory.read (m : Memory) : Nat → Nat → List Byte
  | _, 0 => []
  | a, n + 1 => m.get a :: Memory.read m (a + 1) n

/-- Write bytes from an address on. -/
def Memory.write (m : Memory) : Nat → List Byte → Memory
  | _, [] => m
  | a, b :: r => Memory.write (m.put a b) (a + 1) r

/-- Bytes as a number, little-endian (R5). -/
def leNat : List Byte → Nat
  | [] => 0
  | b :: r => b.toNat + 256 * leNat r

/-- A number as `n` bytes, little-endian (R5). -/
def leBytes : Nat → Nat → List Byte
  | 0, _ => []
  | n + 1, v => BitVec.ofNat 8 v :: leBytes n (v / 256)

/-- `n` bytes at an address as a number, little-endian (R5). -/
def Memory.readNat (m : Memory) (a n : Nat) : Nat := leNat (m.read a n)

/-- Write the low `n` bytes of a number at an address, little-endian (R5). -/
def Memory.writeNat (m : Memory) (a n v : Nat) : Memory := m.write a (leBytes n v)

/-- A doubleword in memory. -/
def Memory.read64 (m : Memory) (a : Nat) : DWord := BitVec.ofNat 64 (m.readNat a 8)

/-- The bits [hi:lo] of a value as a number (R10). -/
def fld {w : Nat} (v : BitVec w) (hi lo : Nat) : Nat := v.toNat / 2 ^ lo % 2 ^ (hi + 1 - lo)

/-- One bit of a value. -/
def bit {w : Nat} (v : BitVec w) (i : Nat) : Bool := v.getLsbD i

/-- A Boolean as a number. -/
def b2n (b : Bool) : Nat := if b then 1 else 0

/-- The low `n` bits of a value as a two's complement number (R11). -/
def sfld {w : Nat} (v : BitVec w) (n : Nat) : Int := (BitVec.ofNat n v.toNat).toInt

/-- SignExtend(v, n) to 64 bits (R11). -/
def sext64 (n v : Nat) : DWord := BitVec.ofInt 64 (BitVec.ofNat n v).toInt

/-- A 64-bit value from a number. -/
def dw (n : Nat) : DWord := BitVec.ofNat 64 n

/-- Write an entry of a vector of fixed length. -/
def vput {α : Type} {n : Nat} (v : Vector α n) (i : Fin n) (x : α) : Vector α n := v.set i.val x i.isLt

/-- Apply a function to an entry of a vector of fixed length. -/
def vmod {α : Type} {n : Nat} (v : Vector α n) (i : Fin n) (f : α → α) : Vector α n := vput v i (f (v.get i))

/-- Insert a number into a rising list of numbers. -/
def insertNat : List Nat → Nat → List Nat
  | [], i => [i]
  | k :: r, i => if i < k then i :: k :: r else if i = k then k :: r else k :: insertNat r i

/-- Remove a number from a list. -/
def removeNat : List Nat → Nat → List Nat
  | [], _ => []
  | k :: r, i => if i = k then r else k :: removeNat r i

/-- Replace the entry at an index of a list. -/
def listPut {α : Type} : List α → Nat → α → List α
  | [], _, _ => []
  | _ :: r, 0, x => x :: r
  | a :: r, i + 1, x => a :: listPut r i x

/-- Remove the entry at an index of a list. -/
def listDrop {α : Type} : List α → Nat → List α
  | [], _ => []
  | _ :: r, 0 => r
  | a :: r, i + 1 => a :: listDrop r i

/-- The numbers from 0 below n. -/
def upto : Nat → List Nat
  | 0 => []
  | n + 1 => upto n ++ [n]

/-- The numbers from one to another, both included. -/
def stretch (a b : Nat) : List Nat := if a ≤ b then (upto (b - a + 1)).map (a + ·) else (upto (a - b + 1)).map (a - ·)

end Sys2Proof.Machine
end

