-- ==== Sys2Proof/Machine/Ops.lean ====
section
/-! DEFINITION. The named operations over registers, contexts and cores; time; waiting; taking a trap (R360) and
returning from one (R320, R362, R363). -/

namespace Sys2Proof.Machine

/-- The outcome of a step of this machine. -/
abbrev Out := Host.Outcome State Fault Refusal

/-- A core of the module. -/
def State.core (s : State) (c : CoreId) : Core := s.cores.get Core.reset c.val

/-- Replace a core. -/
def State.setCore (s : State) (c : CoreId) (k : Core) : State := { s with cores := s.cores.put c.val k }

/-- Change a core. -/
def State.modCore (s : State) (c : CoreId) (f : Core → Core) : State := s.setCore c (f (s.core c))

/-- A context of a core. -/
def Core.ctx (k : Core) (h : CtxId) : Ctx := k.ctxs.get h

/-- Replace a context of a core. -/
def Core.setCtx (k : Core) (h : CtxId) (x : Ctx) : Core := { k with ctxs := vput k.ctxs h x }

/-- Change a context of a core. -/
def Core.modCtx (k : Core) (h : CtxId) (f : Ctx → Ctx) : Core := k.setCtx h (f (k.ctx h))

/-- Change a context of a core of the module. -/
def State.modCtx (s : State) (c : CoreId) (h : CtxId) (f : Ctx → Ctx) : State := s.modCore c (·.modCtx h f)

/-- The issuing core. -/
def State.me (s : State) : Core := s.core s.cur

/-- The issuing context. -/
def State.cx (s : State) : Ctx := s.me.ctx s.curCtx

/-- Change the issuing core. -/
def State.modMe (s : State) (f : Core → Core) : State := s.modCore s.cur f

/-- Change the issuing context. -/
def State.modCx (s : State) (f : Ctx → Ctx) : State := s.modCtx s.cur s.curCtx f

/-- The next free value (R3), and the state that has drawn it (log 2). -/
def State.draw (s : State) (w : Nat) : BitVec w × State :=
  (Config.free w s.freeCtr, { s with freeCtr := s.freeCtr + 1 })

/-! ## Places (R315, R140, R391) -/

/-- DIE_ID of a core number. -/
def dieOf (c : Nat) : Nat := c / 2048 % 4

/-- DIE_ID as an index. -/
def dieIx (c : Nat) : Fin 4 := ⟨dieOf c, Nat.mod_lt _ (by decide)⟩

/-- LANDING_ID of a core number. -/
def landingOf (c : Nat) : Nat := c / 16

/-- Position of a core in its landing. -/
def posOf (c : Nat) : Nat := c % 16

/-- A core number as a CoreId; numbers wrap, and callers test the range. -/
def mkCore (n : Nat) : CoreId := ⟨n % 8192, Nat.mod_lt _ (by decide)⟩

/-- A slot number as an index. -/
def mkSlot (n : Nat) : Fin 64 := ⟨n % 64, Nat.mod_lt _ (by decide)⟩

/-- ORIGIN of a context of a core (R19). -/
def State.originOf (s : State) (c : CoreId) (ctx : Nat) : DWord :=
  dw (s.devCoord.toNat * 2 ^ 44 + c.val * 2 ^ 30 + ctx * 2 ^ 26)

/-! ## Agents and scopes (R86 to R88, R96) -/

/-- The code of the least scope whose instance for an agent of one core holds the agents of another core of the module. -/
def scopeLevel (a b : CoreId) : Nat :=
  if a = b then 1 else if landingOf a.val = landingOf b.val then 2 else if dieOf a.val = dieOf b.val then 3 else 4

/-- The code of the least scope at which an agent of a core covers the agent that made a write. -/
def Write.level (w : Write) (c : CoreId) : Nat :=
  match w.src with
  | some d => scopeLevel d c
  | none => w.unit

/-- The code of the least scope at which an agent of a core covers the agent of a release. -/
def Rel.level (r : Rel) (c : CoreId) : Nat :=
  match r.core with
  | some d => scopeLevel d c
  | none => 5

/-- A release synchronises with an acquire of a core at a scope: each covers the other (R96). -/
def Rel.syncs (r : Rel) (c : CoreId) (scope : Nat) : Bool := decide (r.level c ≤ r.scope) && decide (r.level c ≤ scope)

/-- What is known of the places of two agents, together: the newer write for each. -/
def joinSeen (a b : KMap Nat) : KMap Nat := b.foldl (fun m e => m.put e.1 (max e.2 (m.get 0 e.1))) a

/-- A context comes after what a release has before it. -/
def State.syncWith (s : State) (c : CoreId) (h : CtxId) (m : KMap Nat) : State :=
  s.modCtx c h fun x => { x with seen := joinSeen x.seen m }

/-! ## Time (R17, R374) -/

/-- The job's timebase (R374): what CLOCK, send timestamps and LATE_ARR read. -/
def State.jobTime (s : State) : DWord := s.timebase - s.joboff

/-- CLOCK of a core (R17). -/
def State.clock (s : State) (c : CoreId) : Nat := s.jobTime.toNat / (s.core c).tagunit.toNat

/-- D(c) of a class (R17, R18). -/
def Core.delay (k : Core) : RouteClass → Nat
  | .die => k.dbDie.toNat
  | .package => k.dbPkg.toNat
  | .chassis => k.dbChas.toNat
  | .far => k.dbFar.toNat

/-- E(c) of a class (R17). -/
def Core.clockErr (k : Core) : RouteClass → Nat
  | .die => 0
  | .package => 0
  | .chassis => k.eboundCh.toNat
  | .far => k.eboundFar.toNat

/-- The largest D(c) + E(c) over the classes that INCLASS selects; die always is (R17). -/
def Core.horizonNs (k : Core) : Nat :=
  let of (i : Nat) (c : RouteClass) : Nat := if bit k.inclass i then k.delay c + k.clockErr c else 0
  max (k.delay .die) (max (of 0 .package) (max (of 1 .chassis) (of 2 .far)))

/-- HORIZON: the ceiling of Hns / TAGUNIT (R17). -/
def Core.horizon (k : Core) : Nat := (k.horizonNs + k.tagunit.toNat - 1) / k.tagunit.toNat

/-- A tag orders below another (R8). -/
def Tag.less (a b : Tag) : Bool :=
  decide (a.t.toNat < b.t.toNat) || (decide (a.t = b.t) && decide (a.m.toNat < b.m.toNat))

/-- (T, M + 1), the microstep saturating (R21, R35, R51). -/
def Tag.nextMicro (a : Tag) : Tag := { a with m := if a.m = BitVec.allOnes 32 then a.m else a.m + 1 }

/-- The bank of the weight store that is away at an instant of the job's timebase (R70, R374). -/
def wsBank (cal : Int) (period window now : Nat) : Option (Fin 16) :=
  if period = 0 then none
  else
    let r := (((now : Int) - cal) % period).toNat
    let j := if period / 16 = 0 then 0 else r / (period / 16)
    if h : j < 16 then (if r - j * (period / 16) < window then some ⟨j, h⟩ else none) else none

/-- Refresh the bank that is away from the calendar (R70). -/
def State.wsRefresh (s : State) : State :=
  { s with wsAway := wsBank s.wsCal.toInt s.wsPeriod.toNat s.wsWindow.toNat s.jobTime.toNat }

/-- Count an occurrence of a performance event (R312, R387). -/
def Core.perf (k : Core) (code n : Nat) : Core :=
  { k with pcnt := Vector.ofFn fun i => if (k.pcfg.get i).toNat = code then k.pcnt.get i + dw n else k.pcnt.get i }

/-- A context counts a heartbeat: a helper that runs a reaction and is not stopped by a fault (R46, R360), or context 13
while it is live (R364). -/
def Ctx.beats (x : Ctx) (h : CtxId) : Bool :=
  x.live && (x.run.isSome || h == 13) && !(x.stop == .faulted)

/-- `n` cycles pass for a context (R46, R317). -/
def Ctx.tick (n : Nat) (iv : Word) (h : CtxId) (x : Ctx) : Ctx :=
  let y := match x.stop with
    | .idle m => { x with stop := if m ≤ n then .no else .idle (m - n) }
    | _ => x
  if x.beats h && (decide (iv ≠ 0) || h == 13) then { y with beatLeft := dw (x.beatLeft.toNat - n) |>.setWidth 32 } else y

/-- The heartbeat of a context runs out within `n` cycles. -/
def Ctx.misses (n : Nat) (iv : Word) (h : CtxId) (x : Ctx) : Bool :=
  x.beats h && decide (iv ≠ 0) && decide (x.beatLeft ≠ 0) && decide (x.beatLeft.toNat ≤ n)

/-- The heartbeat interval of a context: BEAT_IV, or TCFG.BUDGET in context 13 (R46, R364). -/
def Core.beatOf (k : Core) (h : CtxId) : Word :=
  if h = 13 ∧ k.tcfgBudget ≠ 0 then k.tcfgBudget else k.beatIv

/-- The fourteen context numbers. -/
def ctxIds : List CtxId := [0, 1, 2, 3, 4, 5, 6, 7, 8, 9, 10, 11, 12, 13]

/-- `n` cycles pass for a core that is not halted. -/
def Core.tick (n : Nat) (k : Core) : Core :=
  if k.halted then k
  else { (k.perf 1 n) with ctxs := Vector.ofFn fun h => (k.ctx h).tick n (k.beatOf h) h }

/-- The contexts of a core whose heartbeats run out within `n` cycles (R46, R364). -/
def Core.missed (n : Nat) (k : Core) : List CtxId :=
  if k.halted then [] else ctxIds.filter fun h => (k.ctx h).misses n (k.beatOf h) h

/-- The module is held in reset, or shut down: only its service processor works (R388, R389). -/
def State.dead (s : State) : Bool := s.shutdown || s.inReset

/-- The module is pre-empted or held (R371, R388, R389): no cycle counts for its contexts. -/
def State.stopped (s : State) : Bool := decide (s.pestat ≠ 0) && decide (s.pestat ≠ 4) || s.dead

/-- `n` core cycles pass: the timebase runs at the core clock in force (R6, R389), heartbeats count down (R46), and waits in
pairing windows run down (R192). -/
def State.advance (n : Nat) (s : State) : State :=
  let p := s.phase + 1000 * n
  let mhz := if s.mhz = 0 then 1 else s.mhz
  let ns := (p / mhz).toNat
  let s1 := { s with timebase := s.timebase + dw ns, phase := p - ns * mhz, cycle := s.cycle + n }.wsRefresh
  if s.stopped then s1
  else { s1 with cores := s.cores.map fun e => (e.1, e.2.tick n),
                 windows := s.windows.map fun e => (e.1, e.2.map fun (m : ObjMsg) => { m with left := m.left - n }) }

/-! ## Machine checks and halting (R318, R364, R367) -/

/-- A machine check: MCREC, MCADDR, MCCOUNT and the vector of MCVEC (R367). -/
def State.machineCheck (s : State) (kind : BitVec 4) (c : CoreId) (cause : Byte) (pa : Nat) : State :=
  { s with mcKind := kind, mcCore := BitVec.ofNat 13 c.val, mcCause := cause, mcAddr := BitVec.ofNat 52 pa,
           mcCount := s.mcCount + 1, msix := s.mcVec.toNat :: s.msix }

/-- Halt a core (R318). -/
def State.haltCore (s : State) (c : CoreId) : State := s.modCore c fun k => { k with halted := true }

/-! ## Traps (R359 to R365) -/

/-- An unprepared branch-target register that keeps its address (R211). -/
def BReg.unprepare (b : BReg) : BReg := { b with v := false, ready := false, f := 0, busy := false, nonCanon := false,
                                                  retry := false }

/-- Clear V, READY and F of all eight registers (R211). -/
def Ctx.clearB (x : Ctx) : Ctx := { x with b := Vector.ofFn fun i => (x.b.get i).unprepare }

/-- A number above those of all requests of a context. -/
def Ctx.reqEnd (x : Ctx) : Nat := x.reqs.foldl (fun n q => max n (q.id + 1)) 0

/-- The numbers of the vectors that a context has pushed to its outputs and that are not performed (R178). -/
def Core.pushes (k : Core) (h : CtxId) : List Nat :=
  ((List.finRange 8).map fun i =>
    let t := k.streams.get i
    match t.bound with
    | some (.memory x d) => if x = h ∧ d.output ∧ t.fault.isNone then t.upTo else []
    | _ => []).flatten

/-- A number above those of all accesses of a context that are not performed. -/
def Core.accessEnd (k : Core) (h : CtxId) : Nat := (k.pushes h).foldl (fun n u => max n (u + 1)) (k.ctx h).reqEnd

/-- A context comes after another's accesses before a number. -/
def comesBehind (l : List (CtxId × Nat)) (b : CtxId × Nat) : List (CtxId × Nat) :=
  l.filter (fun a => a.1 != b.1) ++ [(b.1, l.foldl (fun n a => if a.1 = b.1 then max n a.2 else n) b.2)]

/-- A context comes after another of its core: what that has seen, its accesses before `n`, still to be performed, and what it comes
after itself (R108). -/
def Ctx.follow (x : Ctx) (h : CtxId) (n : Nat) (y : Ctx) : Ctx :=
  { x with seen := joinSeen x.seen y.seen, behind := (y.behind ++ [(h, n)]).foldl comesBehind x.behind }

/-- FPC, CAUSE and the rest as the record has them; context 13 becomes live at TVEC (R360). The faulted context's accesses
come before those of context 13 (R108). -/
def Core.enterTrap (k : Core) (r : TrapRec) : Core :=
  let t := k.ctx 13
  let y := if h : r.ctx < 14 then
      let c := k.ctx ⟨r.ctx, h⟩
      { t.follow ⟨r.ctx, h⟩ (k.accessEnd ⟨r.ctx, h⟩) c with
        x := vput (vput (vput t.x 1 (dw r.ctx)) 28 (c.x.get 28)) 29 (c.x.get 29)
        tnow := c.tnow }
    else { t with x := vput t.x 1 15, tnow := k.last }
  { k with trap := r }.setCtx 13
    { y.clearB with live := true, stop := .no, x := vput y.x 31 (k.tstk.setWidth 64), pc := k.tvec.setWidth 64,
                    fq := [], beatLeft := k.beatOf 13 }

/-- Records are served in the order of their faults, those of one cycle in that of their context numbers (R360). -/
def TrapRec.before (a b : TrapRec) : Bool := decide (a.at_ < b.at_) || (decide (a.at_ = b.at_) && decide (a.ctx ≤ b.ctx))

/-- Put a record among those that wait. -/
def insertRec (r : TrapRec) : List TrapRec → List TrapRec
  | [] => [r]
  | q :: l => if q.before r then q :: insertRec r l else r :: q :: l

/-- The record that context 13 was entered with in this cycle, before it has issued: a lower context's fault of the same
cycle goes before it. -/
def Core.yields (k : Core) (r : TrapRec) : Bool :=
  decide (k.trap.at_ = r.at_) && decide (r.ctx < k.trap.ctx) && decide ((k.ctx 13).pc = k.tvec.setWidth 64) &&
    decide ((k.ctx 13).stop = .no)

/-- A record reaches a core whose context 13 may be live (R360). -/
def Core.takeRec (k : Core) (r : TrapRec) : Core :=
  if !(k.ctx 13).live then k.enterTrap r
  else if k.yields r then { k with recs := insertRec k.trap k.recs }.enterTrap r
  else { k with recs := insertRec r k.recs }

/-- A fault's record reaches the core: it is taken if context 13 is free, it waits if not, and a fault of context 13
itself is a double fault that halts the core (R360, R364). -/
def State.raise (s : State) (c : CoreId) (r : TrapRec) : State :=
  if r.ctx = 13 then ((s.haltCore c).modCore c fun k => { k with recs := k.recs ++ [r] }).machineCheck 4 c r.cause 0
  else s.modCore c fun k => k.takeRec r

/-- Take a trap in the issuing context, precisely: it stops before the instruction has any effect, and its record is
formed (R360). -/
def State.trapHere (s : State) (t : TrapInfo) : State :=
  let pc := s.cx.pc
  (s.modCx fun x => { x with stop := .faulted }).raise s.cur
    { cause := t.cause, ctx := s.curCtx.val, defd := false, fpc := pc, faddr := t.faddr, finfo := t.finfo, frpc := pc,
      req := none, at_ := s.cycle }

/-- Take the deferred fault of a request at the instruction that waits for it (R253, R362): the request leaves the
context for the record. -/
def State.trapDeferred (s : State) (q : Req) (t : TrapInfo) : State :=
  let pc := s.cx.pc
  (s.modCx fun x => { x with stop := .faulted, reqs := x.reqs.filter fun r => r.id ≠ q.id }).raise s.cur
    { cause := t.cause, ctx := s.curCtx.val, defd := true, fpc := q.pc, faddr := t.faddr, finfo := t.finfo, frpc := pc,
      req := some q, at_ := s.cycle }

/-- A record with no faulted context (R365). -/
def State.trapNoCtx (s : State) (c : CoreId) (cause : Byte) (faddr finfo : DWord) : State :=
  s.raise c { cause := cause, ctx := 15, defd := false, fpc := 0, faddr := faddr, finfo := finfo, frpc := 0, req := none,
              at_ := s.cycle }

/-- The oldest waiting record is loaded when context 13 is free (R360). -/
def Core.serveRec (k : Core) : Core :=
  if (k.ctx 13).live then k
  else match k.recs with
    | [] => k
    | r :: rest => { k with recs := rest }.enterTrap r

/-- Context 13 becomes not live with its registers b0 to b7 cleared (R320, R317), and a waiting record is served. -/
def Core.leaveTrap (k : Core) : Core :=
  (k.modCtx 13 fun t => { t.clearB with live := false, fq := [], stop := .no }).serveRec

/-! ## Instructions: stopping, retiring (R203, R209, R253, R286) -/

/-- Why an instruction does not complete now. -/
inductive Stop where
  /-- It faults, precisely. -/
  | trap (t : TrapInfo)
  /-- It faults, and raising the fault changes the state given (R154). -/
  | trapIn (t : TrapInfo) (s : State)
  /-- It meets the deferred fault of a request (R253). -/
  | deferred (q : Req) (t : TrapInfo)
  /-- It waits (R11 WaitUntil) and will be executed again. -/
  | wait
  /-- It waits in the state given, which a first part of its effect has changed (R217). -/
  | waitIn (s : State)
  /-- It waits on the full/empty bits of words (R60). -/
  | waitFe (addr n : Nat) (full : Bool)

/-- What an instruction's effect gives: a state or a stop. -/
abbrev Act := Except Stop State

/-- Raise a fault (R11). -/
def fault {α : Type} (cause : Byte) (faddr finfo : DWord := 0) : Except Stop α :=
  .error (.trap { cause := cause, faddr := faddr, finfo := finfo })

/-- Continue when a condition holds, otherwise wait (R11 WaitUntil). -/
def waitUntil (c : Bool) : Except Stop Unit := if c then .ok () else .error .wait

/-- Continue when a check holds, otherwise raise the fault. -/
def check (c : Bool) (cause : Byte) (faddr finfo : DWord := 0) : Except Stop Unit :=
  if c then .ok () else fault cause faddr finfo

/-- A context that waited goes on. -/
def Stopped.goOn : Stopped → Stopped
  | .waiting => .no
  | z => z

/-- An instruction of `len` bytes has retired (R209, R110): the next sequential PC. -/
def State.retire (len : Nat) (s : State) : State :=
  (s.modCx fun x => { x with pc := x.pc + dw len, retired := x.retired + 1, latch := none, stop := x.stop.goOn }).modMe fun k =>
    k.perf 2 1

/-- An instruction that set its own PC has retired. -/
def State.retireJump (s : State) : State := s.retire 0

/-- The issuing context waits at its instruction (R286). -/
def State.block (s : State) : State := s.modCx fun x => { x with stop := .waiting }

/-- What an instruction reads at its issue: it keeps the bytes while it waits (R286). -/
def State.latched (s : State) (now : List Byte) : List Byte := s.cx.latch.getD now

/-- A wait of an instruction that keeps what it has read at its issue. -/
def holding (s : State) (b : List Byte) : Except Stop Unit → Except Stop Unit
  | .error .wait => .error (.waitIn (s.modCx fun x => { x with latch := some b }))
  | r => r

/-- Add the issuing context to the waiters of a full/empty word, unless it is there (R60). -/
def State.addFeWaiter (s : State) (addr n : Nat) (full : Bool) : State :=
  s.modMe fun k =>
    if k.feWait.any fun w => w.ctx == s.curCtx then k
    else { k with feWait := k.feWait ++ [{ ctx := s.curCtx, addr := addr, n := n, full := full }] }

/-- What the outcome of an instruction's effect does to the machine. -/
def State.stopWith (s : State) : Stop → State
  | .trap t => s.trapHere t
  | .trapIn t s' => s'.trapHere t
  | .deferred q t => s.trapDeferred q t
  | .wait => s.block
  | .waitIn s' => s'.block
  | .waitFe a n full => (s.addFeWaiter a n full).block

/-- The guard passes: lane 0 of its predicate (R203). -/
def State.guardPasses (s : State) : Guard → Bool
  | .always => true
  | .onSet p => bit (s.cx.p.get p) 0
  | .onClear p => !bit (s.cx.p.get p) 0

/-- Close an instruction of `len` bytes. -/
def State.finish (s : State) (len : Nat) : Act → Out
  | .ok s' => .next (s'.retire len)
  | .error e => .next (s.stopWith e)

/-- Run a 32-bit instruction whose guard tests lane 0: a false guard has no effect (R203). -/
def instr (g : Guard) (body : State → Act) (s : State) : Out :=
  if s.guardPasses g then s.finish 4 (body s) else .next (s.retire 4)

/-- Run an unguarded 16-bit instruction (R248). -/
def instrC (body : State → Act) (s : State) : Out := s.finish 2 (body s)

/-- Run a transfer, whose effect writes the PC (R209). -/
def instrJump (body : State → Act) (s : State) : Out :=
  match body s with
  | .ok s' => .next s'.retireJump
  | .error e => .next (s.stopWith e)

/-! ## Registers (R199, R253) -/

/-- A general register: x0 reads 0. -/
def Ctx.xr (x : Ctx) (r : Reg) : DWord := if r = 0 then 0 else x.x.get r

/-- Write a general register: x0 discards. -/
def Ctx.setX (x : Ctx) (r : Reg) (v : DWord) : Ctx := if r = 0 then x else { x with x := vput x.x r v }

/-- The request whose reply a register waits for (R253). -/
def Ctx.pendingOn (x : Ctx) (r : Reg) : Option Req := x.reqs.find? fun q => q.dest == some r

/-- No request is outstanding on a register. -/
def State.regFree (s : State) (r : Reg) : Bool := (s.cx.pendingOn r).isNone

/-- The first later instruction that reads or writes the destination of a request waits for its reply, or meets its
deferred fault (R253). -/
def State.regReady (s : State) (r : Reg) : Except Stop Unit :=
  match s.cx.pendingOn r with
  | none => .ok ()
  | some q => match q.fault with
    | some t => .error (.deferred q t)
    | none => .error .wait

/-- Read a general register. -/
def State.rdX (s : State) (r : Reg) : Except Stop DWord := do
  s.regReady r
  return s.cx.xr r

/-- Write a general register of the issuing context. -/
def State.putX (s : State) (r : Reg) (v : DWord) : State := s.modCx fun x => x.setX r v

/-- WriteX(D, v) (R210). -/
def State.wrX (s : State) (r : Reg) (v : DWord) : Act := do
  s.regReady r
  return s.putX r v

/-- A predicate register. -/
def State.rdP (s : State) (p : PReg) : Word := s.cx.p.get p

/-- Write a predicate register. -/
def State.putP (s : State) (p : PReg) (v : Word) : State := s.modCx fun x => { x with p := vput x.p p v }

/-- A scalar FP register. -/
def State.rdF (s : State) (r : Reg) : DWord := s.cx.f.get r

/-- Write a scalar FP register. -/
def State.putF (s : State) (r : Reg) (v : DWord) : State := s.modCx fun x => { x with f := vput x.f r v }

/-- Write a vector register. -/
def State.putV (s : State) (r : Reg) (v : Vec) : State := s.modCx fun x => { x with v := vput x.v r v }

/-- Set flags in FFLAGS: they are sticky (R125). -/
def State.orFlags (s : State) (fl : BitVec 5) : State := s.modCx fun x => { x with fflags := x.fflags ||| fl }

/-- Set IFLAGS.SAT (R18, R118). -/
def State.setSat (s : State) (b : Bool) : State :=
  if b then s.modMe fun k => { k with iflags := k.iflags ||| 1 } else s

/-- SetPred(pD, c) (R210): lane 0 is the condition, the others 0. -/
def predBit (c : Bool) : Word := if c then 1 else 0

/-! ## Requests: gates and synchronising points (R94, R95, R98, R253) -/

/-- A request waits for a register or holds a place among the sixteen replies of R253. -/
def Req.isSplit (q : Req) : Bool :=
  match q.kind with
  | .load _ | .ldc _ | .lda _ | .ldv | .ldvn | .opush | .opop | .ocnt | .start | .capq | .ticket => true
  | .atomic op => decide (op ≤ 8)
  | .store | .stv | .recl => false

/-- A request that only reads memory. -/
def Req.isLoad (q : Req) : Bool :=
  match q.kind with
  | .load _ | .ldc _ | .lda _ | .ldv | .ldvn => true
  | _ => false

/-- An access that the accesses of a following context wait for (R108): all but LDV, whose value is that of its version. -/
def Req.ordersNext (q : Req) : Bool :=
  match q.kind with
  | .ldv | .start | .capq | .ticket => false
  | _ => true

/-- The accesses of a context before a number are performed, what it has pushed to its streams among them. -/
def Core.behindDone (k : Core) (b : CtxId × Nat) : Bool :=
  ((k.ctx b.1).reqs.all fun q => decide (b.2 ≤ q.id) || !q.ordersNext || q.fault.isSome || q.reply.isSome) &&
    (k.pushes b.1).all fun u => decide (b.2 ≤ u)

/-- The accesses of other contexts that those of a context come after are performed (R108). -/
def Core.followed (k : Core) (h : CtxId) : Bool := (k.ctx h).behind.all fun b => b.1 == h || k.behindDone b

/-- No memory access is sent while an acquire waits for a value (R261, R262), or before the accesses that trap entry and
ERET put before it (R108). A fault that the acquire met is raised here, for its value never comes (R253). -/
def State.memGate (s : State) : Except Stop Unit :=
  match s.cx.reqs.find? fun q => q.gate with
  | some q => match q.fault with
    | some t => .error (.deferred q t)
    | none => .error .wait
  | none => waitUntil (s.me.followed s.curCtx)

/-- At a fence, a release, an acquire or END: the deferred fault of a request without destination (R253). -/
def State.syncPoint (s : State) : Except Stop Unit :=
  match s.cx.reqs.find? fun q => q.fault.isSome && q.dest.isNone with
  | some q => match q.fault with
    | some t => .error (.deferred q t)
    | none => .ok ()
  | none => .ok ()

/-- A request is performed at a scope (R251): answered; for the issuing context alone (0), a posted write always is. -/
def Req.performed (scope : Nat) (q : Req) : Bool :=
  q.fault.isSome || q.reply.isSome || (decide (scope = 0) && !q.isSplit)

/-- Every earlier access of the context is performed at a scope (R251), those of the contexts that it follows among them (R108). -/
def State.allPerformed (s : State) (scope : Nat) : Except Stop Unit := do
  s.syncPoint
  waitUntil (s.me.followed s.curCtx && s.cx.reqs.all fun q => q.performed scope)

/-- What follows a FENCE.REL waits for the accesses before the fence (R98, R262). -/
def State.relWait (s : State) : Except Stop Unit :=
  waitUntil (s.cx.reqs.all fun q => decide (s.cx.epoch ≤ q.epoch) || q.performed 6)

/-- A reply that has not arrived. -/
def Req.awaited (q : Req) : Bool := q.isSplit && q.fault.isNone && q.reply.isNone

/-- Room for another reply: at most sixteen are outstanding (R253). -/
def State.replyRoom (s : State) : Except Stop Unit :=
  waitUntil (decide ((s.cx.reqs.filter Req.awaited).length < 16))

/-- A request as an instruction issues it: named by the request counter, without reply. -/
def State.newReq (s : State) (kind : ReqKind) (va : DWord) (pa size : Nat) (dest : Reg) (data aux : DWord) : Req :=
  { id := s.reqCtr, kind := kind, pc := s.cx.pc, va := va, pa := pa, size := size,
    dest := if dest = 0 then none else some dest, data := data, aux := aux, obj := false, ha := false,
    queue := false, again := false, enc := false,
    gate := false,
    epoch := s.cx.epoch, scope := 7, sent := true, fb := none, reply := none, fault := none, seen := s.cx.seen }

/-- Put a request among those outstanding. -/
def State.post (s : State) (q : Req) : State :=
  { s with reqCtr := s.reqCtr + 1 }.modCx fun x => { x with reqs := x.reqs ++ [q] }

/-! ## Full/empty bits (R59) -/

/-- The word at a scratchpad address is full. -/
def Core.isFull (k : Core) (a : Nat) : Bool := k.full.contains (a / 8)

/-- Set the full/empty bit of the word at an address. -/
def Core.setFull (k : Core) (a : Nat) (b : Bool) : Core :=
  { k with full := if b then insertNat k.full (a / 8) else removeNat k.full (a / 8) }

/-- What had seen who set `n` words from an address on full (R94, R105); nothing for an engine that no program ordered. -/
def Core.noteFull (k : Core) (a n : Nat) (m : KMap Nat) : Core :=
  { k with feSeen := (upto n).foldl (fun f i => if m.isEmpty then f.drop (a / 8 + i) else f.put (a / 8 + i) m) k.feSeen }

/-- Set the bits of `n` words from an address on. -/
def Core.setFulls (k : Core) (a : Nat) (b : Bool) : Nat → Core
  | 0 => k
  | n + 1 => (k.setFull a b).setFulls (a + 8) b n

/-- Every one of `n` words from an address on is full (or, for `false`, empty). -/
def Core.allFe (k : Core) (a : Nat) (b : Bool) (n : Nat) : Bool :=
  (upto n).all fun i => k.isFull (a + 8 * i) == b

/-! ## Spaces (R54, R252) -/

/-- The scratchpad checks of R252 for `n` bytes, with the alignment given: bound first, then alignment. -/
def spadCheck (a : DWord) (n align : Nat) : Except Stop Nat := do
  check (decide (a.toNat + n - 1 ≤ 0x3FFFF)) 0x06 a
  check (decide (a.toNat % align = 0)) 0x05 a
  return a.toNat

/-- SpadEA(a, n) (R251, R252). -/
def spadEA (a : DWord) (n : Nat) : Except Stop Nat := spadCheck a n (min n 8)

/-- Bytes of the issuing core's scratchpad as a number. -/
def State.spadNat (s : State) (a n : Nat) : Nat := s.me.spad.readNat a n

/-- The words of a scratchpad range, by word number. -/
def wordsOf (a n : Nat) : List Nat := (upto ((a % 8 + n + 7) / 8)).map (a / 8 + ·)

/-- An instruction reads scratchpad bytes: a word lost to an uncorrectable error is fault 0x18 (R361, R367). -/
def State.spadSound (s : State) (a n : Nat) : Except Stop Unit :=
  check (!((wordsOf a n).any fun w => s.me.spadLost.contains w)) 0x18 (dw a) 0

/-- What plain loads of a scratchpad range read from stores that follow a FENCE.REL, for a later FENCE.ACQ (R98). -/
def State.spadSeen (s : State) (a n : Nat) : State :=
  let rels : List Rel := (wordsOf a n).filterMap fun w => (s.me.spadRel.find w).map fun m => ⟨some s.cur, 1, m⟩
  if rels.isEmpty then s else s.modCx fun x => { x with obs := x.obs ++ rels.filter fun r => !x.obs.contains r }

/-- Write bytes of a scratchpad; full/empty bits stay (R59). A word written whole is lost no more (log 69). -/
def Core.spadWrite (k : Core) (a : Nat) (b : List Byte) : Core :=
  { k with
    spad := k.spad.write a b
    spadRel := if k.spadRel.isEmpty then [] else k.spadRel.filter fun e => !(wordsOf a b.length).contains e.1
    spadLost := if k.spadLost.isEmpty then [] else
      k.spadLost.filter fun w => !(decide (a ≤ 8 * w) && decide (8 * w + 8 ≤ a + b.length)) }

/-- A store of the issuing context to its core's scratchpad: after a FENCE.REL it is a release (R98). -/
def State.spadPutBytes (s : State) (a : Nat) (b : List Byte) : State :=
  let m := s.cx.seen
  let rel := decide (0 < s.cx.relS)
  s.modMe fun k =>
    let k1 := k.spadWrite a b
    if rel then { k1 with spadRel := (wordsOf a b.length).foldl (fun r w => r.put w m) k1.spadRel } else k1

/-- A store of the low `n` bytes of a number. -/
def State.spadPut (s : State) (a n v : Nat) : State := s.spadPutBytes a (leBytes n v)

/-! ## Outside agents -/

/-- The write of an agent outside the module: the host reaches the module at SYSTEM, a module of the chassis at DOMAIN
(R87). -/
def outsideWrite (pa : Nat) (old : List Byte) : Write :=
  { pa := pa, old := old, src := none, unit := if pa < 2 ^ 51 then 6 else 5, scope := 7, rels := [] }

/-- An agent outside the module writes memory outside it: the host its own memory, another module its own HBM (R56). -/
def State.outside (s : State) (pa : Nat) (bytes : List Byte) : State :=
  if 2 ^ 50 ≤ pa ∧ pa + bytes.length ≤ 2 ^ 52 then
    { s with mem := s.mem.write pa bytes, past := outsideWrite pa (s.mem.read pa bytes.length) :: s.past }
  else s

end Sys2Proof.Machine
end

