-- ==== Sys2Proof/Machine/Flags.lean ====
section
/-! DEFINITION. Number formats, rounding and the flags of FFLAGS (R117 to R127): every result is formed exactly and rounded
once. -/

namespace Sys2Proof.Machine

/-! ## Formats (R119 to R122) -/

/-- A floating-point format: exponent and mantissa widths, bias, and whether all ones is infinity or NaN (R119). -/
structure Fmt where
  eb   : Nat
  mb   : Nat
  bias : Nat
  inf  : Bool
deriving DecidableEq, Repr

def fp64 : Fmt := ⟨11, 52, 1023, true⟩
def fp32 : Fmt := ⟨8, 23, 127, true⟩
def bf16 : Fmt := ⟨8, 7, 127, true⟩
def e5m2 : Fmt := ⟨5, 2, 15, true⟩
def e4m3 : Fmt := ⟨4, 3, 7, false⟩

/-- A value: a NaN (signalling or not), an infinity, or ±m · 2^e. -/
inductive FVal where
  | nan (sig : Bool)
  | inf (neg : Bool)
  | fin (neg : Bool) (m : Nat) (e : Int)
deriving DecidableEq, Repr

/-- The sign bit of a code. -/
def Fmt.sign (f : Fmt) (c : Nat) : Bool := decide (c / 2 ^ (f.eb + f.mb) % 2 = 1)

/-- The magnitude bits of a code. -/
def Fmt.mag (f : Fmt) (c : Nat) : Nat := c % 2 ^ (f.eb + f.mb)

/-- A code with a sign. -/
def Fmt.withSign (f : Fmt) (neg : Bool) (mag : Nat) : Nat := (if neg then 2 ^ (f.eb + f.mb) else 0) + mag

/-- The value of a code (R120, R122). -/
def Fmt.val (f : Fmt) (c : Nat) : FVal :=
  let s := f.sign c
  let e := f.mag c / 2 ^ f.mb
  let m := c % 2 ^ f.mb
  if e = 2 ^ f.eb - 1 ∧ f.inf then (if m = 0 then .inf s else .nan (decide (m < 2 ^ (f.mb - 1))))
  else if e = 2 ^ f.eb - 1 ∧ m = 2 ^ f.mb - 1 then .nan false
  else if e = 0 then .fin s m (1 - (f.bias : Int) - f.mb)
  else .fin s (2 ^ f.mb + m) ((e : Int) - f.bias - f.mb)

/-- The canonical NaN (R122). -/
def Fmt.nan (f : Fmt) : Nat :=
  if f.inf then (2 ^ f.eb - 1) * 2 ^ f.mb + 2 ^ (f.mb - 1) else 2 ^ (f.eb + f.mb) - 1

/-- The largest finite magnitude. -/
def Fmt.maxFin (f : Fmt) : Nat := if f.inf then (2 ^ f.eb - 1) * 2 ^ f.mb - 1 else 2 ^ (f.eb + f.mb) - 2

/-- The code of infinity. -/
def Fmt.infCode (f : Fmt) : Nat := (2 ^ f.eb - 1) * 2 ^ f.mb

/-! ## Flags (R125) -/

def flNV : BitVec 5 := 1
def flDZ : BitVec 5 := 2
def flOF : BitVec 5 := 4
def flUF : BitVec 5 := 8
def flNX : BitVec 5 := 16

/-- A flag if a condition holds. -/
def flag (c : Bool) (f : BitVec 5) : BitVec 5 := if c then f else 0

/-! ## Rounding (R124) -/

/-- Rounding modes, coded as FMODE.RM. -/
inductive RM where
  | rne | rtz | rup | rdn
deriving DecidableEq, Repr

/-- FMODE.RM. -/
def RM.of (c : BitVec 2) : RM :=
  match c.toNat with
  | 0 => .rne
  | 1 => .rtz
  | 2 => .rup
  | _ => .rdn

/-- The number of bits of a number. -/
def bitLen (n : Nat) : Nat := if n = 0 then 0 else n.log2 + 1

/-- Drop `sh` low bits of a magnitude under a mode; `sticky` says that the exact value lies above the number given, by
less than one. The rounded magnitude, and whether it is inexact. -/
def roundBits (rm : RM) (neg : Bool) (m sh : Nat) (sticky : Bool) : Nat × Bool :=
  let k := m / 2 ^ sh
  let r := m % 2 ^ sh
  let half := if sh = 0 then 1 else 2 ^ (sh - 1)
  let inexact := decide (r ≠ 0) || sticky
  let up : Bool := match rm with
    | .rne => decide (half < r) || (decide (half = r) && sh != 0 && (sticky || decide (k % 2 = 1)))
    | .rtz => false
    | .rup => inexact && !neg
    | .rdn => inexact && neg
  (if up then k + 1 else k, inexact)

/-- Round ±m · 2^e to a format: the code and the flags OF, UF, NX (R124, R125, R127). A zero `m` needs no rounding. -/
def Fmt.round (f : Fmt) (rm : RM) (neg : Bool) (m : Nat) (e : Int) (sticky : Bool) : Nat × BitVec 5 :=
  if m = 0 ∧ !sticky then (f.withSign neg 0, 0)
  else
    let rm := if f.inf then rm else .rne
    let top : Int := (bitLen m : Int) - 1 + e
    let qmin : Int := 1 - (f.bias : Int) - f.mb
    let q : Int := top - f.mb
    let qq : Int := max q qmin
    let at_ (q : Int) : Nat × Bool :=
      if e < q then roundBits rm neg m (q - e).toNat sticky else roundBits rm neg (m * 2 ^ (e - q).toNat) 0 sticky
    let r := at_ qq
    let mag := (qq - qmin).toNat * 2 ^ f.mb + r.1
    let tiny := decide (q < qmin) &&
      !(decide (q = qmin - 1) && decide ((at_ q).1 = 2 ^ (f.mb + 1)))
    if f.maxFin < mag then
      let big : Bool := match rm with
        | .rne => true
        | .rtz => false
        | .rup => !neg
        | .rdn => neg
      (f.withSign neg (if f.inf ∧ big then f.infCode else f.maxFin), flOF ||| flNX)
    else (f.withSign neg mag, flag (tiny && r.2) flUF ||| flag r.2 flNX)

/-- The code of a value that is exact or is to be rounded, with the flags of the rounding. -/
def Fmt.code (f : Fmt) (rm : RM) : FVal → Nat × BitVec 5
  | .nan _ => (f.nan, 0)
  | .inf s => if f.inf then (f.withSign s f.infCode, 0) else (f.withSign s f.maxFin, flOF ||| flNX)
  | .fin s m e => f.round rm s m e false

/-! ## Exact arithmetic (R126) -/

def FVal.isNan : FVal → Bool
  | .nan _ => true
  | _ => false

def FVal.isSig : FVal → Bool
  | .nan s => s
  | _ => false

def FVal.isZero : FVal → Bool
  | .fin _ m _ => decide (m = 0)
  | _ => false

def FVal.neg : FVal → Bool
  | .nan _ => false
  | .inf s => s
  | .fin s _ _ => s

/-- The negated value; NaNs stay. -/
def FVal.negate : FVal → FVal
  | .nan s => .nan s
  | .inf s => .inf !s
  | .fin s m e => .fin (!s) m e

/-- The signed number ±m · 2^(e - base) of a finite value, for a base at or below its exponent. -/
def FVal.scaled (base : Int) : FVal → Int
  | .fin s m e => (if s then -1 else 1) * (m : Int) * 2 ^ (e - base).toNat
  | _ => 0

/-- The exponent of a finite nonzero value, if it has one. -/
def FVal.exp? : FVal → Option Int
  | .fin _ m e => if m = 0 then none else some e
  | _ => none

/-- The least exponent of the nonzero terms. -/
def minExp (ts : List FVal) : Int := (ts.filterMap FVal.exp?).foldl min (2 ^ 20)

/-- A product (R126): the value, and NV for 0 × ∞. A signalling operand is not counted here. -/
def FVal.mul (a b : FVal) : FVal × Bool :=
  match a, b with
  | .nan _, _ => (.nan false, false)
  | _, .nan _ => (.nan false, false)
  | .inf s, b => if b.isZero then (.nan false, true) else (.inf (s != b.neg), false)
  | .fin s m _, .inf t => if m = 0 then (.nan false, true) else (.inf (s != t), false)
  | .fin s m e, .fin t n d => (.fin (s != t) (m * n) (e + d), false)

/-- An exact sum of terms (R126): the value, and NV for infinities of both signs. -/
def fsum (rm : RM) (ts : List FVal) : FVal × Bool :=
  if ts.any FVal.isNan then (.nan false, false)
  else
    let pos := ts.any fun t => decide (t = .inf false)
    let ng := ts.any fun t => decide (t = .inf true)
    if pos && ng then (.nan false, true)
    else if pos then (.inf false, false)
    else if ng then (.inf true, false)
    else
      let base := minExp ts
      let x := (ts.map (FVal.scaled base)).foldl (· + ·) 0
      if x = 0 then
        if ts.all fun t => t.isZero && !t.neg then (.fin false 0 0, false)
        else if ts.all fun t => t.isZero && t.neg then (.fin true 0 0, false)
        else (.fin (decide (rm = .rdn)) 0 0, false)
      else (.fin (decide (x < 0)) x.natAbs base, false)

/-- The exact order of two values that are no NaN: a < b. Zeros of both signs are equal. -/
def FVal.lt (a b : FVal) : Bool :=
  match a, b with
  | .nan _, _ => false
  | _, .nan _ => false
  | .inf s, .inf t => s && !t
  | .inf s, .fin _ _ _ => s
  | .fin _ _ _, .inf t => !t
  | a, b => let base := minExp [a, b]; decide (a.scaled base < b.scaled base)

/-- Equality of two values that are no NaN. -/
def FVal.eq (a b : FVal) : Bool := !a.isNan && !b.isNan && !a.lt b && !b.lt a

/-! ## Operations on codes -/

/-- A result: code and flags. -/
abbrev FRes := Nat × BitVec 5

/-- Round a value and add NV where an invalid operation or a signalling input asks for it. -/
def Fmt.deliver (f : Fmt) (rm : RM) (nv : Bool) (v : FVal) : FRes :=
  let r := f.code rm v
  (r.1, r.2 ||| flag nv flNV)

/-- a + b. -/
def Fmt.add (f : Fmt) (rm : RM) (a b : Nat) : FRes :=
  let x := f.val a; let y := f.val b
  let r := fsum rm [x, y]
  f.deliver rm (r.2 || x.isSig || y.isSig) r.1

/-- a − b: the term is −b (R126). -/
def Fmt.sub (f : Fmt) (rm : RM) (a b : Nat) : FRes :=
  let x := f.val a; let y := f.val b
  let r := fsum rm [x, y.negate]
  f.deliver rm (r.2 || x.isSig || y.isSig) r.1

/-- a × b. -/
def Fmt.mul (f : Fmt) (rm : RM) (a b : Nat) : FRes :=
  let x := f.val a; let y := f.val b
  let r := x.mul y
  f.deliver rm (r.2 || x.isSig || y.isSig) r.1

/-- a × b ± c with one rounding; 0 × ∞ is invalid whatever c holds (R242). -/
def Fmt.fma (f : Fmt) (rm : RM) (a b c : Nat) (minus : Bool) : FRes :=
  let x := f.val a; let y := f.val b; let z := f.val c
  let p := x.mul y
  let r := fsum rm [p.1, if minus then z.negate else z]
  f.deliver rm (p.2 || r.2 || x.isSig || y.isSig || z.isSig) r.1

/-- Bits of a quotient or a root beyond those any format keeps. -/
def guardBits : Nat := 80

/-- a / b (R241). -/
def Fmt.div (f : Fmt) (rm : RM) (a b : Nat) : FRes :=
  let x := f.val a; let y := f.val b
  let nv := x.isSig || y.isSig
  let s := x.neg != y.neg
  match x, y with
  | .nan _, _ => (f.nan, flag nv flNV)
  | _, .nan _ => (f.nan, flag nv flNV)
  | .inf _, .inf _ => (f.nan, flNV)
  | .inf _, .fin _ _ _ => (f.withSign s f.infCode, 0)
  | .fin _ _ _, .inf _ => (f.withSign s 0, 0)
  | .fin _ m e, .fin _ n d =>
    if n = 0 then (if m = 0 then (f.nan, flNV) else (f.withSign s f.infCode, flDZ))
    else
      let k := guardBits + bitLen n
      f.round rm s (m * 2 ^ k / n) (e - d - k) (decide (m * 2 ^ k % n ≠ 0))

/-- √a (R241). -/
def Fmt.sqrt (f : Fmt) (rm : RM) (a : Nat) : FRes :=
  match f.val a with
  | .nan s => (f.nan, flag s flNV)
  | .inf s => if s then (f.nan, flNV) else (f.infCode, 0)
  | .fin s m e =>
    if m = 0 then (f.withSign s 0, 0)
    else if s then (f.nan, flNV)
    else
      let k := 2 * guardBits + (if e % 2 = 0 then 0 else 1)
      let r := Nat.sqrt (m * 2 ^ k)
      f.round rm false r ((e - k) / 2) (decide (r * r ≠ m * 2 ^ k))

/-- The lesser or the greater (R126): the other operand of a NaN, −0 below +0; NV if either is signalling. -/
def Fmt.pick (f : Fmt) (greater : Bool) (a b : Nat) : FRes :=
  let x := f.val a; let y := f.val b
  let nv := flag (x.isSig || y.isSig) flNV
  if x.isNan && y.isNan then (f.nan, nv)
  else if x.isNan then (b, nv)
  else if y.isNan then (a, nv)
  else
    let less := x.lt y || (x.eq y && x.neg && !y.neg)
    (if less != greater then a else b, nv)

/-- The conditions of FCMP: result, and whether NV is set (R227). -/
def Fmt.cond (f : Fmt) (cc : FCond) (a b : Nat) : Bool × Bool :=
  let x := f.val a; let y := f.val b
  let un := x.isNan || y.isNan
  let sig := x.isSig || y.isSig
  match cc with
  | .eq => (x.eq y, sig)
  | .ne => (!x.eq y, sig)
  | .lt => (x.lt y, un)
  | .le => (!un && !y.lt x, un)
  | .gt => (y.lt x, un)
  | .ge => (!un && !x.lt y, un)
  | .un => (un, sig)
  | .ord => (!un, sig)

/-! ## Integers (R118, R127) -/

/-- An integer as a value. -/
def FVal.ofInt (i : Int) : FVal := .fin (decide (i < 0)) i.natAbs 0

/-- The integer nearest a value under a mode, saturated to [lo, hi] (R127): the integer and the flags. -/
def FVal.toInt (rm : RM) (lo hi : Int) : FVal → Int × BitVec 5
  | .nan _ => (0, flNV)
  | .inf s => (if s then lo else hi, flNV)
  | .fin s m e =>
    let r := if e < 0 then roundBits rm s m (-e).toNat false else (m * 2 ^ e.toNat, false)
    let i : Int := if s then -(r.1 : Int) else r.1
    if i < lo then (lo, flNV) else if hi < i then (hi, flNV) else (i, flag r.2 flNX)

/-- Signed quotient towards zero with the corners of R118, for operands of `w` bits. -/
def sdivCorner {w : Nat} (a b : BitVec w) : BitVec w :=
  if b = 0 then BitVec.allOnes w else BitVec.ofInt w (a.toInt.tdiv b.toInt)

/-- Signed remainder with the sign of the dividend (R118). -/
def sremCorner {w : Nat} (a b : BitVec w) : BitVec w := if b = 0 then a else BitVec.ofInt w (a.toInt.tmod b.toInt)

/-- Unsigned quotient (R118). -/
def udivCorner {w : Nat} (a b : BitVec w) : BitVec w :=
  if b = 0 then BitVec.allOnes w else BitVec.ofNat w (a.toNat / b.toNat)

/-- Unsigned remainder (R118). -/
def uremCorner {w : Nat} (a b : BitVec w) : BitVec w := if b = 0 then a else BitVec.ofNat w (a.toNat % b.toNat)

/-- Clamp an exact integer to `w` bits signed, and whether it was clamped (R118). -/
def clampS (w : Nat) (i : Int) : BitVec w × Bool :=
  let hi : Int := 2 ^ (w - 1) - 1
  let lo : Int := -(2 ^ (w - 1))
  if i < lo then (BitVec.ofInt w lo, true) else if hi < i then (BitVec.ofInt w hi, true) else (BitVec.ofInt w i, false)

/-- Integer conditions of CMP and VCMP (R224). -/
def icond {w : Nat} (cc : ICond) (a b : BitVec w) : Bool :=
  match cc with
  | .eq => decide (a = b)
  | .ne => decide (a ≠ b)
  | .lt => a.slt b
  | .ge => !a.slt b
  | .ltu => a.ult b
  | .geu => !a.ult b
  | .tst => decide (a &&& b ≠ 0)
  | .ntst => decide (a &&& b = 0)

end Sys2Proof.Machine
end

