-- ==== Sys2Proof/Machine/Elementary.lean ====
section
/-! DEFINITION. The elementary functions of FP32 (R278): the exact result rounded once. The transcendental ones are
evaluated in fixed point with 260 fraction bits, of which 240 are kept and the rest of the exact value, which is
irrational, is a sticky bit (log 30). -/

namespace Sys2Proof.Machine

/-- Fraction bits of the evaluation. -/
def fracBits : Nat := 260

/-- Fraction bits that are kept: the error lies below them. -/
def keptBits : Nat := 240

/-- Round a fixed-point magnitude times a power of two, whose exact value is not representable. -/
def roundFixed (neg : Bool) (m : Nat) (scale : Int) : FRes :=
  fp32.round .rne neg (m / 2 ^ (fracBits - keptBits)) (scale - keptBits) true

/-- ln 2 in fixed point: the sum of 1 / (k 2^k). -/
def ln2Fixed : Nat := (upto 280).foldl (fun a k => a + 2 ^ fracBits / ((k + 1) * 2 ^ (k + 1))) 0

/-- e^y in fixed point for y in fixed point below 1: its Taylor sum. -/
def expFixed (y : Nat) : Nat :=
  ((upto 70).foldl (fun (a : Nat × Nat) k => let t := a.2 * y / 2 ^ fracBits / (k + 1); (a.1 + t, t))
    (2 ^ fracBits, 2 ^ fracBits)).1

/-- 2^r in fixed point for a fraction r in fixed point. -/
def pow2Fixed (r : Nat) : Nat := expFixed (r * ln2Fixed / 2 ^ fracBits)

/-- A finite value in fixed point, rounded towards minus infinity. -/
def toFixed (neg : Bool) (m : Nat) (e : Int) : Int :=
  let i : Int := if neg then -(m : Int) else m
  if 0 ≤ e + fracBits then i * 2 ^ (e + fracBits).toNat else i / 2 ^ (-(e + fracBits)).toNat

/-- VEXP2.S: 2^a. -/
def exp2of (a : Nat) : FRes :=
  match fp32.val a with
  | .nan s => (fp32.nan, flag s flNV)
  | .inf s => (if s then 0 else fp32.infCode, 0)
  | .fin s m e =>
    let x := toFixed s m e
    let n := x / 2 ^ fracBits
    let r := (x % 2 ^ fracBits).toNat
    if 200 < n then (fp32.infCode, flOF ||| flNX)
    else if n < -400 then fp32.round .rne false 1 (-400) true
    else if r = 0 then fp32.round .rne false 1 n false
    else roundFixed false (pow2Fixed r) n

/-- ln of 1 ≤ M < 2 in fixed point, M = m / 2^k: twice the inverse hyperbolic tangent of (M − 1) / (M + 1). -/
def lnFixed (m k : Nat) : Nat :=
  let z := (m - 2 ^ k) * 2 ^ fracBits / (m + 2 ^ k)
  let z2 := z * z / 2 ^ fracBits
  2 * ((upto 90).foldl (fun (a : Nat × Nat) j => (a.1 + a.2 / (2 * j + 1), a.2 * z2 / 2 ^ fracBits)) (0, z)).1

/-- VLOG2.S: log2 a. -/
def log2of (a : Nat) : FRes :=
  match fp32.val a with
  | .nan s => (fp32.nan, flag s flNV)
  | .inf s => if s then (fp32.nan, flNV) else (fp32.infCode, 0)
  | .fin s m e =>
    if m = 0 then (fp32.withSign true fp32.infCode, flDZ)
    else if s then (fp32.nan, flNV)
    else
      let k := bitLen m - 1
      let n : Int := k + e
      if m = 2 ^ k then fp32.round .rne (decide (n < 0)) n.natAbs 0 false
      else
        let x : Int := n * 2 ^ fracBits + (lnFixed m k * 2 ^ fracBits / ln2Fixed : Nat)
        roundFixed (decide (x < 0)) x.natAbs 0

/-- VTANH.S: (E − 1) / (E + 1) with E = e^(2|a|); next to 0 it lies just below |a|, far out just below 1. -/
def tanhOf (a : Nat) : FRes :=
  match fp32.val a with
  | .nan s => (fp32.nan, flag s flNV)
  | .inf s => (fp32.withSign s 0x3F800000, 0)
  | .fin s m e =>
    if m = 0 then (fp32.withSign s 0, 0)
    else if (bitLen m : Int) + e < -20 then fp32.round .rne s (m * 2 ^ 60 - 1) (e - 60) true
    else if 6 < (bitLen m : Int) + e then fp32.round .rne s (2 ^ 200 - 1) (-200) true
    else
      let y := (toFixed false m e).toNat * 2
      let n := y / ln2Fixed
      let big := expFixed (y % ln2Fixed) * 2 ^ n
      roundFixed s ((big - 2 ^ fracBits) * 2 ^ fracBits / (big + 2 ^ fracBits)) 0

/-- VRSQ.S: 1 / √a. -/
def rsqrt32 (a : Nat) : FRes :=
  match fp32.val a with
  | .nan s => (fp32.nan, flag s flNV)
  | .inf s => if s then (fp32.nan, flNV) else (0, 0)
  | .fin s m e =>
    if m = 0 then (fp32.withSign s fp32.infCode, flDZ)
    else if s then (fp32.nan, flNV)
    else
      let n := if e % 2 = 0 then m else m * 2
      let d := if e % 2 = 0 then e else e - 1
      let k : Nat := 100
      let r := Nat.sqrt (2 ^ (2 * k) / n)
      fp32.round .rne false r (-(d / 2) - k) (decide (r * r * n ≠ 2 ^ (2 * k)))

/-- VFLOOR.S: the greatest integer not above a; zeros and infinities are kept. -/
def floor32 (a : Nat) : FRes :=
  match fp32.val a with
  | .nan s => (fp32.nan, flag s flNV)
  | .inf _ => (a, 0)
  | .fin s m e =>
    if m = 0 ∨ 0 ≤ e then (a, 0)
    else
      let r := (roundBits .rdn s m (-e).toNat false).1
      fp32.round .rne s r 0 false

end Sys2Proof.Machine
end

