-- ==== Sys2Proof/Machine/Scalar.lean ====
section
/-! DEFINITION. Integer arithmetic (R230 to R239) and its 16-bit forms (R248, R249). Every result wraps modulo 2^64 and no
flag is set (R118). -/

namespace Sys2Proof.Machine

/-- xD ← f(xA, xB). -/
def op2 (f : DWord → DWord → DWord) (d a b : Reg) (s : State) : Act := do
  let x ← s.rdX a
  let y ← s.rdX b
  s.wrX d (f x y)

/-- xD ← f(xA). -/
def op1 (f : DWord → DWord) (d a : Reg) (s : State) : Act := do
  let x ← s.rdX a
  s.wrX d (f x)

/-- The shift amount of a doubleword: [5:0] (R118, R231). -/
def sh6 (y : DWord) : Nat := y.toNat % 64

/-- The shift amount of a word: [4:0] (R235). -/
def sh5 (y : DWord) : Nat := y.toNat % 32

/-- The lesser of two by a strict order. -/
def pickBy (lt : DWord → DWord → Bool) (x y : DWord) : DWord := if lt x y then x else y

/-- The high half of an exact 128-bit product (R232). -/
def mulHi (x y : Int) : DWord := BitVec.ofInt 64 (x * y / 2 ^ 64)

/-- Number of leading zero bits (R233). -/
def countLeading (x : DWord) : DWord := dw (64 - bitLen x.toNat)

/-- The index of the lowest set bit of a value, if any. -/
def lowestSet {w : Nat} (x : BitVec w) : Option Nat := (upto w).find? fun i => bit x i

/-- Number of trailing zero bits (R233). -/
def countTrailing (x : DWord) : DWord := dw ((lowestSet x).getD 64)

/-- Number of set bits. -/
def popCount {w : Nat} (x : BitVec w) : Nat := ((upto w).filter fun i => bit x i).length

/-- A word operation on the low halves, sign-extended (R235). -/
def wordOp (f : Word → Word → Word) (x y : DWord) : DWord := (f (x.setWidth 32) (y.setWidth 32)).signExtend 64

/-- A 64-bit constant from a signed number. -/
def ofImm (i : Int) : DWord := BitVec.ofInt 64 i

/-- One 16-bit field replaced (R239). -/
def setHalf (x : DWord) (v : Half) (pos : Nat) : DWord :=
  (x &&& ~~~(((0xFFFF : DWord)) <<< (16 * pos))) ||| (v.setWidth 64 <<< (16 * pos))

/-- ADD (R230). -/
def execAdd (g : Guard) (d a b : Reg) (s : State) : Out := instr g (op2 (· + ·) d a b) s

/-- SUB (R230). -/
def execSub (g : Guard) (d a b : Reg) (s : State) : Out := instr g (op2 (· - ·) d a b) s

/-- AND (R230). -/
def execAndR (g : Guard) (d a b : Reg) (s : State) : Out := instr g (op2 (· &&& ·) d a b) s

/-- OR (R230). -/
def execOrR (g : Guard) (d a b : Reg) (s : State) : Out := instr g (op2 (· ||| ·) d a b) s

/-- XOR (R230). -/
def execXor (g : Guard) (d a b : Reg) (s : State) : Out := instr g (op2 (· ^^^ ·) d a b) s

/-- ANDN (R230). -/
def execAndn (g : Guard) (d a b : Reg) (s : State) : Out := instr g (op2 (fun x y => x &&& ~~~y) d a b) s

/-- MIN, by SInt (R230). -/
def execMinS (g : Guard) (d a b : Reg) (s : State) : Out := instr g (op2 (pickBy BitVec.slt) d a b) s

/-- MAX, by SInt (R230). -/
def execMaxS (g : Guard) (d a b : Reg) (s : State) : Out := instr g (op2 (pickBy fun x y => y.slt x) d a b) s

/-- MINU (R231). -/
def execMinu (g : Guard) (d a b : Reg) (s : State) : Out := instr g (op2 (pickBy BitVec.ult) d a b) s

/-- MAXU (R231). -/
def execMaxu (g : Guard) (d a b : Reg) (s : State) : Out := instr g (op2 (pickBy fun x y => y.ult x) d a b) s

/-- SHL (R231). -/
def execShl (g : Guard) (d a b : Reg) (s : State) : Out := instr g (op2 (fun x y => x <<< sh6 y) d a b) s

/-- SHR (R231). -/
def execShr (g : Guard) (d a b : Reg) (s : State) : Out := instr g (op2 (fun x y => x >>> sh6 y) d a b) s

/-- SRA (R231). -/
def execSra (g : Guard) (d a b : Reg) (s : State) : Out := instr g (op2 (fun x y => x.sshiftRight (sh6 y)) d a b) s

/-- ROL (R231). -/
def execRol (g : Guard) (d a b : Reg) (s : State) : Out := instr g (op2 (fun x y => x.rotateLeft (sh6 y)) d a b) s

/-- ROR (R231). -/
def execRor (g : Guard) (d a b : Reg) (s : State) : Out := instr g (op2 (fun x y => x.rotateRight (sh6 y)) d a b) s

/-- MUL (R232). -/
def execMul (g : Guard) (d a b : Reg) (s : State) : Out := instr g (op2 (· * ·) d a b) s

/-- MULHI.S (R232). -/
def execMulhiS (g : Guard) (d a b : Reg) (s : State) : Out := instr g (op2 (fun x y => mulHi x.toInt y.toInt) d a b) s

/-- MULHI.U (R232). -/
def execMulhiU (g : Guard) (d a b : Reg) (s : State) : Out := instr g (op2 (fun x y => mulHi x.toNat y.toNat) d a b) s

/-- MULHI.SU (R232). -/
def execMulhiSu (g : Guard) (d a b : Reg) (s : State) : Out := instr g (op2 (fun x y => mulHi x.toInt y.toNat) d a b) s

/-- DIV, corners of R118 (R232). -/
def execDiv (g : Guard) (d a b : Reg) (s : State) : Out := instr g (op2 sdivCorner d a b) s

/-- DIVU (R232). -/
def execDivu (g : Guard) (d a b : Reg) (s : State) : Out := instr g (op2 udivCorner d a b) s

/-- REM (R232). -/
def execRem (g : Guard) (d a b : Reg) (s : State) : Out := instr g (op2 sremCorner d a b) s

/-- REMU (R232). -/
def execRemu (g : Guard) (d a b : Reg) (s : State) : Out := instr g (op2 uremCorner d a b) s

/-- ADDW (R235). -/
def execAddw (g : Guard) (d a b : Reg) (s : State) : Out := instr g (op2 (wordOp (· + ·)) d a b) s

/-- SUBW (R235). -/
def execSubw (g : Guard) (d a b : Reg) (s : State) : Out := instr g (op2 (wordOp (· - ·)) d a b) s

/-- MULW (R235). -/
def execMulw (g : Guard) (d a b : Reg) (s : State) : Out := instr g (op2 (wordOp (· * ·)) d a b) s

/-- SHLW (R235). -/
def execShlw (g : Guard) (d a b : Reg) (s : State) : Out := instr g (op2 (fun x y => wordOp (fun p _ => p <<< sh5 y) x y) d a b) s

/-- SHRW (R235). -/
def execShrw (g : Guard) (d a b : Reg) (s : State) : Out := instr g (op2 (fun x y => wordOp (fun p _ => p >>> sh5 y) x y) d a b) s

/-- SRAW (R235). -/
def execSraw (g : Guard) (d a b : Reg) (s : State) : Out := instr g (op2 (fun x y => wordOp (fun p _ => p.sshiftRight (sh5 y)) x y) d a b) s

/-- DIVW (R235). -/
def execDivw (g : Guard) (d a b : Reg) (s : State) : Out := instr g (op2 (wordOp sdivCorner) d a b) s

/-- REMW (R235). -/
def execRemw (g : Guard) (d a b : Reg) (s : State) : Out := instr g (op2 (wordOp sremCorner) d a b) s

/-- MOV (R231). -/
def execMov (g : Guard) (d a : Reg) (s : State) : Out := instr g (op1 id d a) s

/-- CLZ (R233). -/
def execClz (g : Guard) (d a : Reg) (s : State) : Out := instr g (op1 countLeading d a) s

/-- CTZ (R233). -/
def execCtz (g : Guard) (d a : Reg) (s : State) : Out := instr g (op1 countTrailing d a) s

/-- POPC (R233). -/
def execPopc (g : Guard) (d a : Reg) (s : State) : Out := instr g (op1 (fun x => dw (popCount x)) d a) s

/-- SEXT.B (R233). -/
def execSextB (g : Guard) (d a : Reg) (s : State) : Out := instr g (op1 (fun x => (x.setWidth 8).signExtend 64) d a) s

/-- SEXT.H (R233). -/
def execSextH (g : Guard) (d a : Reg) (s : State) : Out := instr g (op1 (fun x => (x.setWidth 16).signExtend 64) d a) s

/-- SEXT.W (R233). -/
def execSextW (g : Guard) (d a : Reg) (s : State) : Out := instr g (op1 (fun x => (x.setWidth 32).signExtend 64) d a) s

/-- ZEXT.H (R233). -/
def execZextH (g : Guard) (d a : Reg) (s : State) : Out := instr g (op1 (fun x => (x.setWidth 16).setWidth 64) d a) s

/-- ZEXT.W (R233). -/
def execZextW (g : Guard) (d a : Reg) (s : State) : Out := instr g (op1 (fun x => (x.setWidth 32).setWidth 64) d a) s

/-- LEA: xA + (xB << C) (R234). -/
def execLea (g : Guard) (d a b : Reg) (c : Fin 8) (s : State) : Out := instr g (op2 (fun x y => x + y <<< c.val) d a b) s

/-- ADDI: the immediate is sign-extended (R236). -/
def execAddi (g : Guard) (d a : Reg) (imm : Int) (s : State) : Out := instr g (op1 (fun x => x + ofImm imm) d a) s

/-- ANDI: the immediate is sign-extended (R236). -/
def execAndi (g : Guard) (d a : Reg) (imm : Int) (s : State) : Out := instr g (op1 (fun x => x &&& ofImm imm) d a) s

/-- ORI: the immediate is sign-extended (R236). -/
def execOri (g : Guard) (d a : Reg) (imm : Int) (s : State) : Out := instr g (op1 (fun x => x ||| ofImm imm) d a) s

/-- XORI: the immediate is sign-extended (R236). -/
def execXori (g : Guard) (d a : Reg) (imm : Int) (s : State) : Out := instr g (op1 (fun x => x ^^^ ofImm imm) d a) s

/-- SHLI (R237). -/
def execShli (g : Guard) (d a : Reg) (imm : Nat) (s : State) : Out := instr g (op1 (fun x => x <<< imm) d a) s

/-- SHRI (R237). -/
def execShri (g : Guard) (d a : Reg) (imm : Nat) (s : State) : Out := instr g (op1 (fun x => x >>> imm) d a) s

/-- SRAI (R237). -/
def execSrai (g : Guard) (d a : Reg) (imm : Nat) (s : State) : Out := instr g (op1 (fun x => x.sshiftRight imm) d a) s

/-- ROLI (R237). -/
def execRoli (g : Guard) (d a : Reg) (imm : Nat) (s : State) : Out := instr g (op1 (fun x => x.rotateLeft imm) d a) s

/-- LDI (R238). -/
def execLdi (d : Reg) (imm : Int) (s : State) : Out := instr .always (fun s => s.wrX d (ofImm imm)) s

/-- SETH (R239). -/
def execSeth (d : Reg) (imm16 : Half) (pos : Fin 4) (s : State) : Out :=
  instr .always (op1 (fun x => setHalf x imm16 pos.val) d d) s

/-! ## 16-bit forms (R248, R249) -/

/-- ADD.C (R248). -/
def execAddC (d a : Reg) (s : State) : Out := instrC (op2 (· + ·) d d a) s

/-- SUB.C (R248). -/
def execSubC (d a : Reg) (s : State) : Out := instrC (op2 (· - ·) d d a) s

/-- AND.C (R248). -/
def execAndC (d a : Reg) (s : State) : Out := instrC (op2 (· &&& ·) d d a) s

/-- OR.C (R248). -/
def execOrC (d a : Reg) (s : State) : Out := instrC (op2 (· ||| ·) d d a) s

/-- XOR.C (R248). -/
def execXorC (d a : Reg) (s : State) : Out := instrC (op2 (· ^^^ ·) d d a) s

/-- MOV.C (R248). -/
def execMovC (d a : Reg) (s : State) : Out := instrC (op1 id d a) s

/-- ADDI.C (R249). -/
def execAddiC (d : Reg) (imm : Int) (s : State) : Out := instrC (op1 (fun x => x + ofImm imm) d d) s

/-- LDI.C (R249). -/
def execLdiC (d : Reg) (imm : Int) (s : State) : Out := instrC (fun s => s.wrX d (ofImm imm)) s

/-- SHLI.C (R249). -/
def execShliC (d : Reg) (imm : Nat) (s : State) : Out := instrC (op1 (fun x => x <<< imm) d d) s

/-- SHRI.C (R249). -/
def execShriC (d : Reg) (imm : Nat) (s : State) : Out := instrC (op1 (fun x => x >>> imm) d d) s

/-- SRAI.C (R249). -/
def execSraiC (d : Reg) (imm : Nat) (s : State) : Out := instrC (op1 (fun x => x.sshiftRight imm) d d) s

/-- ANDI.C (R249). -/
def execAndiC (d : Reg) (imm : Int) (s : State) : Out := instrC (op1 (fun x => x &&& ofImm imm) d d) s

end Sys2Proof.Machine
end

