-- ==== Sys2Proof/Machine/Float.lean ====
section
/-! DEFINITION. Scalar FP64 arithmetic (R240 to R246): one rounding under FMODE.RM, flags by R125. -/

namespace Sys2Proof.Machine

/-- FMODE.RM of the issuing context (R124). -/
def State.rm (s : State) : RM := RM.of s.cx.fmode

/-- fD ← op(fA, fB) with its flags. -/
def fop2 (op : RM → Nat → Nat → FRes) (d a b : Reg) (s : State) : Act :=
  let r := op s.rm (s.rdF a).toNat (s.rdF b).toNat
  .ok ((s.putF d (dw r.1)).orFlags r.2)

/-- FADD (R241). -/
def execFadd (g : Guard) (d a b : Reg) (s : State) : Out := instr g (fop2 fp64.add d a b) s

/-- FSUB (R241). -/
def execFsub (g : Guard) (d a b : Reg) (s : State) : Out := instr g (fop2 fp64.sub d a b) s

/-- FMUL (R241). -/
def execFmul (g : Guard) (d a b : Reg) (s : State) : Out := instr g (fop2 fp64.mul d a b) s

/-- FDIV (R241). -/
def execFdiv (g : Guard) (d a b : Reg) (s : State) : Out := instr g (fop2 fp64.div d a b) s

/-- FMIN (R241). -/
def execFmin (g : Guard) (d a b : Reg) (s : State) : Out := instr g (fop2 (fun _ => fp64.pick false) d a b) s

/-- FMAX (R241). -/
def execFmax (g : Guard) (d a b : Reg) (s : State) : Out := instr g (fop2 (fun _ => fp64.pick true) d a b) s

/-- FSQRT (R241). -/
def execFsqrt (g : Guard) (d a : Reg) (s : State) : Out := instr g (fop2 (fun rm x _ => fp64.sqrt rm x) d a a) s

/-- FSGN: a bit operation (R241, R123). -/
def execFsgn (g : Guard) (d a b : Reg) (s : State) : Out :=
  instr g (fun s => .ok (s.putF d ((s.rdF a &&& ~~~((1 : DWord) <<< 63)) ||| (s.rdF b &&& ((1 : DWord) <<< 63))))) s

/-- FMA: one rounding (R242). -/
def execFma (g : Guard) (d a b : Reg) (s : State) : Out :=
  instr g (fun s => fop2 (fun rm x y => fp64.fma rm x y (s.rdF d).toNat false) d a b s) s

/-- FMS (R242). -/
def execFms (g : Guard) (d a b : Reg) (s : State) : Out :=
  instr g (fun s => fop2 (fun rm x y => fp64.fma rm x y (s.rdF d).toNat true) d a b s) s

/-- FABS: a bit operation (R243). -/
def execFabs (g : Guard) (d a : Reg) (s : State) : Out :=
  instr g (fun s => .ok (s.putF d (s.rdF a &&& ~~~((1 : DWord) <<< 63)))) s

/-- FNEG: a bit operation (R243). -/
def execFneg (g : Guard) (d a : Reg) (s : State) : Out :=
  instr g (fun s => .ok (s.putF d (s.rdF a ^^^ ((1 : DWord) <<< 63)))) s

/-- The mode of an FCVT (R244). -/
def State.modeOf (s : State) (m : FcvtMode) : RM :=
  match m with
  | .fmode => s.rm
  | .rne => .rne
  | .rtz => .rtz
  | .rup => .rup
  | .rdn => .rdn

/-- fD ← Round(integer) (R244). -/
def fromInt (mode : FcvtMode) (f : DWord → Int) (d a : Reg) (s : State) : Act := do
  let x ← s.rdX a
  let r := fp64.code (s.modeOf mode) (FVal.ofInt (f x))
  return (s.putF d (dw r.1)).orFlags r.2

/-- xD ← the integer nearest fA, saturated to a range (R244, R127). -/
def toInteger (mode : FcvtMode) (lo hi : Int) (d a : Reg) (s : State) : Act := do
  let r := (fp64.val (s.rdF a).toNat).toInt (s.modeOf mode) lo hi
  let s1 ← s.wrX d (ofImm r.1)
  return s1.orFlags r.2

/-- FCVT.XF (R244). -/
def execFcvtXf (g : Guard) (d a : Reg) (mode : FcvtMode) (s : State) : Out := instr g (fromInt mode BitVec.toInt d a) s

/-- FCVT.UF (R244). -/
def execFcvtUf (g : Guard) (d a : Reg) (mode : FcvtMode) (s : State) : Out :=
  instr g (fromInt mode (fun x => (x.toNat : Int)) d a) s

/-- FCVT.FX (R244). -/
def execFcvtFx (g : Guard) (d a : Reg) (mode : FcvtMode) (s : State) : Out :=
  instr g (toInteger mode (-(2 ^ 63)) (2 ^ 63 - 1) d a) s

/-- FCVT.FU (R244). -/
def execFcvtFu (g : Guard) (d a : Reg) (mode : FcvtMode) (s : State) : Out :=
  instr g (toInteger mode 0 (2 ^ 64 - 1) d a) s

/-- FMVXF (R245). -/
def execFmvxf (g : Guard) (d a : Reg) (s : State) : Out := instr g (fun s => s.wrX d (s.rdF a)) s

/-- FMVFX (R245). -/
def execFmvfx (g : Guard) (d a : Reg) (s : State) : Out :=
  instr g (fun s => do
    let x ← s.rdX a
    return s.putF d x) s

/-- KIND and NEG of an FP64 code (R246). -/
def fkind (v : DWord) : Nat :=
  let e := fld v 62 52
  let m := fld v 51 0
  let kind := if e = 0 then (if m = 0 then 0 else 1)
    else if e < 2047 then 2
    else if m = 0 then 3
    else if bit v 51 then 4 else 5
  kind + 8 * b2n (bit v 63)

/-- FKIND (R246). -/
def execFkind (g : Guard) (d a : Reg) (s : State) : Out := instr g (fun s => s.wrX d (dw (fkind (s.rdF a)))) s

end Sys2Proof.Machine
end

