-- ==== Sys2Proof/WellFormed.lean ====
section
/-! DEFINITION. Well-formed instructions: the operand ranges of R204, R205 and the entries' own limits (R207). The
operand types of `Instr` bound the rest. -/

namespace Sys2Proof

/-- A signed value fits in `n` bits. -/
def okSigned (n : Nat) (v : Int) : Bool := decide (-(2 ^ (n - 1) : Int) ≤ v) && decide (v < 2 ^ (n - 1))

/-- A signed immediate or offset: `n` bits guarded, `m` bits unguarded (R204). -/
def okImm (g : Guard) (n m : Nat) (v : Int) : Bool := okSigned (if g.isGuarded then n else m) v

/-- An immediate shift: 0 to 31 guarded, 0 to 63 unguarded (R204). -/
def okShift (g : Guard) (v : Nat) : Bool := decide (v < if g.isGuarded then 32 else 64)

/-- Every operand is one that the encoding can hold. -/
def Instr.wf : Instr → Bool
  | .eventArrival _ => true
  | .holdBackEntry _ => true
  | .reactionStart _ => true
  | .headStaleDiscard _ => true
  | .cancelledEventDiscard _ => true
  | .joinGraceExpired _ => true
  | .poolUnitStart _ => true
  | .heartbeatMissed _ _ => true
  | .sendDeparture _ => true
  | .slotChangeEffect _ _ => true
  | .crossbarCounterZero _ _ => true
  | .crossbarLocalEventEntry _ _ => true
  | .copyRequestStart _ _ => true
  | .copyRequestComplete _ _ => true
  | .channelFault _ _ _ => true
  | .gangBarrierComplete _ => true
  | .mmaStep _ => true
  | .accumulatorLeavesOwnership _ => true
  | .mmaOperationFault _ => true
  | .mstoComplete _ _ => true
  | .collectiveRoundComplete _ => true
  | .collectiveAbortArrival _ _ => true
  | .mcastCompletionRecord _ _ => true
  | .objectOpAtRouter _ => true
  | .windowWaitExpired _ _ => true
  | .objectOpAtHome _ => true
  | .splitPhaseReply _ _ _ => true
  | .stvApply _ _ _ => true
  | .reclApply _ _ _ => true
  | .capabilityArrival _ => true
  | .capqAnswer _ _ _ => true
  | .atomicAtHome _ _ _ => true
  | .storeGrant _ _ _ => true
  | .directoryOverflowNotice _ _ => true
  | .overflowInvalidation _ => true
  | .tlbWalkComplete _ _ => true
  | .prefetchComplete _ _ _ => true
  | .wsRefreshWindow => true
  | .streamElementAccess _ _ => true
  | .feWaiterService _ => true
  | .waitSatisfied _ _ => true
  | .detRoundClose _ => true
  | .trapEntry _ => true
  | .trapBudgetExpired _ => true
  | .machineCheck _ _ _ => true
  | .fenceRelease _ _ => true
  | .hostEventCommit _ => true
  | .launchCommit _ => true
  | .launchSetupResume _ => true
  | .setCounterCommit _ => true
  | .cancelCommit _ => true
  | .checkpointCutCommit _ => true
  | .cutSave => true
  | .cutMarkerArrival _ _ => true
  | .checkpointDrainCommit _ => true
  | .drainComplete => true
  | .hqheadWrite _ _ => true
  | .fallbackReplyCommit _ _ => true
  | .atomicopUnsupported _ _ _ => true
  | .ptmExchange _ => true
  | .timestampExchange _ _ _ _ _ _ => true
  | .freeze _ => true
  | .resume _ => true
  | .coordinatedFreezeInstant => true
  | .coordinatedResumeInstant => true
  | .packetArrival _ _ => true
  | .linkDown _ => true
  | .e2eRetryTimeout _ => true
  | .e2eAckArrival _ _ => true
  | .linkKeyRenewal _ => true
  | .powerCapThrottle _ => true
  | .thermalLimit _ => true
  | .powerCapSet _ => true
  | .pldmFirmwareUpdate _ _ => true
  | .pldmMonitor => true
  | .spdmAttestation _ => true
  | .firmwareBootVerify _ _ _ => true
  | .hostApertureAccess _ _ _ _ => true
  | .spillTakeRead _ _ => true
  | .spillPutWrite _ _ => true
  | .spillNWrite _ _ => true
  | .registerWrite _ _ => true
  | .linkBringUp _ => true
  | .add _ _ _ _ => true
  | .sub _ _ _ _ => true
  | .andR _ _ _ _ => true
  | .orR _ _ _ _ => true
  | .xor _ _ _ _ => true
  | .andn _ _ _ _ => true
  | .minS _ _ _ _ => true
  | .maxS _ _ _ _ => true
  | .minu _ _ _ _ => true
  | .maxu _ _ _ _ => true
  | .shl _ _ _ _ => true
  | .shr _ _ _ _ => true
  | .sra _ _ _ _ => true
  | .rol _ _ _ _ => true
  | .ror _ _ _ _ => true
  | .mov _ _ _ => true
  | .mul _ _ _ _ => true
  | .mulhiS _ _ _ _ => true
  | .mulhiU _ _ _ _ => true
  | .mulhiSu _ _ _ _ => true
  | .div _ _ _ _ => true
  | .divu _ _ _ _ => true
  | .rem _ _ _ _ => true
  | .remu _ _ _ _ => true
  | .clz _ _ _ => true
  | .ctz _ _ _ => true
  | .popc _ _ _ => true
  | .sextB _ _ _ => true
  | .sextH _ _ _ => true
  | .sextW _ _ _ => true
  | .zextH _ _ _ => true
  | .zextW _ _ _ => true
  | .lea _ _ _ _ _ => true
  | .yld _ _ _ => true
  | .ybase _ _ _ => true
  | .yext _ _ _ _ => true
  | .yrd _ _ _ _ => true
  | .sbind _ _ _ => true
  | .sunb _ _ => true
  | .slink _ _ _ => true
  | .sstat _ _ _ => true
  | .addw _ _ _ _ => true
  | .subw _ _ _ _ => true
  | .mulw _ _ _ _ => true
  | .shlw _ _ _ _ => true
  | .shrw _ _ _ _ => true
  | .sraw _ _ _ _ => true
  | .divw _ _ _ _ => true
  | .remw _ _ _ _ => true
  | .addi g _ _ imm => okImm g 8 13 imm
  | .andi g _ _ imm => okImm g 8 13 imm
  | .ori g _ _ imm => okImm g 8 13 imm
  | .xori g _ _ imm => okImm g 8 13 imm
  | .shli g _ _ imm => okShift g imm
  | .shri g _ _ imm => okShift g imm
  | .srai g _ _ imm => okShift g imm
  | .roli g _ _ imm => okShift g imm
  | .ldi _ imm => okSigned 18 imm
  | .seth _ _ _ => true
  | .cmpi g _ _ imm _ => okImm g 5 10 imm
  | .cmp _ _ _ _ _ => true
  | .fcmp _ _ _ _ _ => true
  | .pand _ _ _ _ => true
  | .por _ _ _ _ => true
  | .pxor _ _ _ _ => true
  | .pandn _ _ _ _ => true
  | .pnot _ _ _ => true
  | .pmov _ _ _ => true
  | .pall _ _ _ => true
  | .pnone _ _ _ => true
  | .pfirst _ _ _ => true
  | .pcnt _ _ _ => true
  | .ptox _ _ _ => true
  | .xtop _ _ _ => true
  | .pffs _ _ _ => true
  | .fmvxf _ _ _ => true
  | .fmvfx _ _ _ => true
  | .fkind _ _ _ => true
  | .fadd _ _ _ _ => true
  | .fsub _ _ _ _ => true
  | .fmul _ _ _ _ => true
  | .fdiv _ _ _ _ => true
  | .fmin _ _ _ _ => true
  | .fmax _ _ _ _ => true
  | .fsqrt _ _ _ => true
  | .fsgn _ _ _ _ => true
  | .fma _ _ _ _ => true
  | .fms _ _ _ _ => true
  | .fabs _ _ _ => true
  | .fneg _ _ _ => true
  | .fcvtXf _ _ _ _ => true
  | .fcvtFx _ _ _ _ => true
  | .fcvtUf _ _ _ _ => true
  | .fcvtFu _ _ _ _ => true
  | .cgrp _ _ _ => true
  | .cinj _ _ _ => true
  | .cinjHld _ _ _ => true
  | .cext _ _ _ => true
  | .cstat _ _ _ => true
  | .cabort _ _ => true
  | .cfree _ _ => true
  | .cinjx _ _ _ => true
  | .cinjxHld _ _ _ => true
  | .cextx _ _ _ => true
  | .mma _ _ _ _ _ => true
  | .prep _ off => okSigned 18 off
  | .prepx _ _ _ => true
  | .mfb _ _ _ => true
  | .mtb _ _ _ => true
  | .clrb _ _ => true
  | .tstb _ _ _ => true
  | .nop _ => true
  | .endL _ => true
  | .halt _ => true
  | .brk _ => true
  | .eret _ => true
  | .syncCL _ => true
  | .beatL _ => true
  | .idle _ _ => true
  | .trap g imm => okImm g 8 13 imm
  | .mfs _ _ => true
  | .mts _ _ => true
  | .tagt _ _ => true
  | .tagm _ _ => true
  | .clk _ _ => true
  | .horz _ _ => true
  | .lastt _ _ => true
  | .lastm _ _ => true
  | .bound _ _ _ => true
  | .ebnd _ _ _ => true
  | .mwait _ _ => true
  | .mzero _ _ => true
  | .mrd _ _ _ _ => true
  | .mstoS _ _ _ => true
  | .mstoBf _ _ _ => true
  | .gang _ _ => true
  | .mstat _ _ => true
  | .send _ _ _ _ => true
  | .send2 _ d _ _ => decide (d.val ≤ 30)
  | .send4 _ d _ _ => decide (d.val ≤ 28)
  | .sendv _ _ _ _ => true
  | .sendb _ _ _ _ => true
  | .mcast _ _ _ _ => true
  | .sendh _ d _ => decide (d.val ≤ 28)
  | .bindS _ _ _ _ => true
  | .unbind _ _ => true
  | .arm _ _ _ => true
  | .hold _ _ _ => true
  | .rlse _ _ _ => true
  | .startL _ _ _ => true
  | .genrd _ _ _ => true
  | .capq _ _ _ _ => true
  | .ticket _ _ => true
  | .poolcfg _ _ _ => true
  | .cntdn _ _ => true
  | .cancel _ _ => true
  | .cntrd _ _ _ => true
  | .ecw _ _ _ => true
  | .ecr _ _ _ => true
  | .ecpulse _ => true
  | .eccnt _ _ _ => true
  | .pcfg _ _ _ => true
  | .prd _ _ _ => true
  | .prst _ _ => true
  | .tlbi _ _ _ => true
  | .ldb g _ _ off => okImm g 5 10 off
  | .ldh g _ _ off => okImm g 5 10 off
  | .ldw g _ _ off => okImm g 5 10 off
  | .ldd g _ _ off => okImm g 5 10 off
  | .ldbu g _ _ off => okImm g 5 10 off
  | .ldhu g _ _ off => okImm g 5 10 off
  | .ldwu g _ _ off => okImm g 5 10 off
  | .stb g _ _ off => okImm g 5 10 off
  | .sth g _ _ off => okImm g 5 10 off
  | .stw g _ _ off => okImm g 5 10 off
  | .std g _ _ off => okImm g 5 10 off
  | .ldxb _ _ _ _ => true
  | .ldxh _ _ _ _ => true
  | .ldxw _ _ _ _ => true
  | .ldxd _ _ _ _ => true
  | .ldxbu _ _ _ _ => true
  | .ldxhu _ _ _ _ => true
  | .ldxwu _ _ _ _ => true
  | .stxb _ _ _ _ => true
  | .stxh _ _ _ _ => true
  | .stxw _ _ _ _ => true
  | .stxd _ _ _ _ => true
  | .ldf g _ _ off => okImm g 5 10 off
  | .ldk g _ _ off => okImm g 5 10 off
  | .ste g _ _ off => okImm g 5 10 off
  | .stf g _ _ off => okImm g 5 10 off
  | .sete g _ off => okImm g 5 10 off
  | .setf g _ off => okImm g 5 10 off
  | .tfe g _ _ off => okImm g 5 10 off
  | .ldgB g _ _ _ off => okImm g 3 8 off
  | .ldgH g _ _ _ off => okImm g 3 8 off
  | .ldgW g _ _ _ off => okImm g 3 8 off
  | .ldgD g _ _ _ off => okImm g 3 8 off
  | .ldgBu g _ _ _ off => okImm g 3 8 off
  | .ldgHu g _ _ _ off => okImm g 3 8 off
  | .ldgWu g _ _ _ off => okImm g 3 8 off
  | .stgB g _ _ _ off => okImm g 3 8 off
  | .stgH g _ _ _ off => okImm g 3 8 off
  | .stgW g _ _ _ off => okImm g 3 8 off
  | .stgD g _ _ _ off => okImm g 3 8 off
  | .ldcW g _ _ off => okImm g 5 10 off
  | .ldcD g _ _ off => okImm g 5 10 off
  | .ldcWu g _ _ off => okImm g 5 10 off
  | .cinvC _ => true
  | .cfl g _ off => okImm g 5 10 off
  | .cinvl g _ off => okImm g 5 10 off
  | .cpf g _ off => okImm g 5 10 off
  | .aadd _ _ _ _ => true
  | .aand _ _ _ _ => true
  | .aor _ _ _ _ => true
  | .axor _ _ _ _ => true
  | .amin _ _ _ _ => true
  | .amax _ _ _ _ => true
  | .aminu _ _ _ _ => true
  | .aswap _ _ _ _ => true
  | .acas _ _ _ _ => true
  | .redadd _ _ _ => true
  | .redand _ _ _ => true
  | .redor _ _ _ => true
  | .redxor _ _ _ => true
  | .redmin _ _ _ => true
  | .redmax _ _ _ => true
  | .fenceAcq _ _ => true
  | .fenceRel _ _ => true
  | .fenceFull _ _ => true
  | .ldaD _ _ _ _ => true
  | .stlD _ _ _ _ => true
  | .ldaW _ _ _ _ => true
  | .stlW _ _ _ _ => true
  | .ldv _ _ _ _ => true
  | .ldvn _ _ _ _ => true
  | .stv _ _ _ _ => true
  | .recl _ _ _ => true
  | .hand _ _ _ => true
  | .opush _ _ _ _ => true
  | .opop _ _ _ => true
  | .ocnt _ _ _ => true
  | .vaddW _ _ _ _ => true
  | .vsubW _ _ _ _ => true
  | .vmulW _ _ _ _ => true
  | .vmulhW _ _ _ _ => true
  | .vminW _ _ _ _ => true
  | .vmaxW _ _ _ _ => true
  | .vminuW _ _ _ _ => true
  | .vmaxuW _ _ _ _ => true
  | .vaddH _ _ _ _ => true
  | .vsubH _ _ _ _ => true
  | .vmulH _ _ _ _ => true
  | .vmulhH _ _ _ _ => true
  | .vminH _ _ _ _ => true
  | .vmaxH _ _ _ _ => true
  | .vminuH _ _ _ _ => true
  | .vmaxuH _ _ _ _ => true
  | .vaddB _ _ _ _ => true
  | .vsubB _ _ _ _ => true
  | .vaddsB _ _ _ _ => true
  | .vsubsB _ _ _ _ => true
  | .vminB _ _ _ _ => true
  | .vmaxB _ _ _ _ => true
  | .vminuB _ _ _ _ => true
  | .vmaxuB _ _ _ _ => true
  | .vand _ _ _ _ => true
  | .vor _ _ _ _ => true
  | .vxor _ _ _ _ => true
  | .vandn _ _ _ _ => true
  | .vshlW _ _ _ _ => true
  | .vshrW _ _ _ _ => true
  | .vsraW _ _ _ _ => true
  | .vnot _ _ _ => true
  | .vfaddS _ _ _ _ => true
  | .vfsubS _ _ _ _ => true
  | .vfmulS _ _ _ _ => true
  | .vfmaS _ _ _ _ => true
  | .vfminS _ _ _ _ => true
  | .vfmaxS _ _ _ _ => true
  | .vfabsS _ _ _ => true
  | .vfnegS _ _ _ => true
  | .vfaddBf _ _ _ _ => true
  | .vfsubBf _ _ _ _ => true
  | .vfmulBf _ _ _ _ => true
  | .vfmaBf _ _ _ _ => true
  | .vfminBf _ _ _ _ => true
  | .vfmaxBf _ _ _ _ => true
  | .vfdotBf _ _ _ _ => true
  | .vrcpS _ _ _ => true
  | .vrsqS _ _ _ => true
  | .vexp2S _ _ _ => true
  | .vlog2S _ _ _ => true
  | .vsqrtS _ _ _ => true
  | .vdivS _ _ _ _ => true
  | .vfloorS _ _ _ => true
  | .vtanhS _ _ _ => true
  | .vcmp _ _ _ _ _ => true
  | .vcmpF _ _ _ _ _ => true
  | .vbcast _ _ _ => true
  | .vbcastf _ _ _ => true
  | .vext _ _ _ _ => true
  | .vins _ _ _ _ => true
  | .vperm _ _ _ _ => true
  | .viota _ _ => true
  | .vmov _ _ _ => true
  | .vslide _ _ _ _ => true
  | .vld g _ _ off => okImm g 5 10 off
  | .vst g _ _ off => okImm g 5 10 off
  | .vldf g _ _ off => okImm g 5 10 off
  | .vste g _ _ off => okImm g 5 10 off
  | .vlds _ _ _ _ => true
  | .vsts _ _ _ _ => true
  | .vgath _ _ _ _ => true
  | .vscat _ _ _ _ => true
  | .vstf _ _ _ => true
  | .vrsumS _ _ _ => true
  | .vrmaxS _ _ _ => true
  | .vrminS _ _ _ => true
  | .vrsumW _ _ _ => true
  | .vscanS _ _ _ => true
  | .vcavS _ _ _ => true
  | .vcavmS _ _ _ => true
  | .vdot4B _ _ _ _ => true
  | .vcvtSBf _ _ _ => true
  | .vcvtBfS _ _ _ => true
  | .vcvtSW _ _ _ => true
  | .vcvtWS _ _ _ => true
  | .vcvtE4S _ _ _ _ => true
  | .vcvtSE4 _ _ _ _ => true
  | .vcvtE5S _ _ _ _ => true
  | .vcvtSE5 _ _ _ _ => true
  | .xqW _ _ a => decide (a.val ≤ 28)
  | .xqT _ _ a => decide (a.val ≤ 28)
  | .xdone _ _ _ => true
  | .xwait _ _ _ => true
  | .xstat _ _ _ _ => true
  | .xclr _ _ => true
  | .xenc _ _ _ _ => true
  | .xdec _ _ _ => true
  | .movC d a => !(d == 0 && a == 0)
  | .addC _ _ => true
  | .subC _ _ => true
  | .andC _ _ => true
  | .orC _ _ => true
  | .xorC _ _ => true
  | .lddC _ _ => true
  | .stdC _ _ => true
  | .addiC _ imm => okSigned 6 imm
  | .ldiC _ imm => okSigned 6 imm
  | .shliC _ imm => decide (imm < 64)
  | .shriC _ imm => decide (imm < 64)
  | .sraiC _ imm => decide (imm < 64)
  | .andiC _ imm => okSigned 6 imm
  | .ldsC _ imm => decide (imm < 64)
  | .stsC _ imm => decide (imm < 64)
  | .go _ => true
  | .goGuarded _ _ _ => true
  | .call _ => true
  | .callGuarded _ _ _ => true
  | .nopC => true
  | .endC => true
  | .beatC => true
  | .syncC => true
  | .brkC => true

/-- A row without an encoding (spec/95_what_each_step_holds.md): something that happens, not an instruction word. -/
def Instr.isHappening : Instr → Bool
  | .eventArrival _ => true
  | .holdBackEntry _ => true
  | .reactionStart _ => true
  | .headStaleDiscard _ => true
  | .cancelledEventDiscard _ => true
  | .joinGraceExpired _ => true
  | .poolUnitStart _ => true
  | .heartbeatMissed _ _ => true
  | .sendDeparture _ => true
  | .slotChangeEffect _ _ => true
  | .crossbarCounterZero _ _ => true
  | .crossbarLocalEventEntry _ _ => true
  | .copyRequestStart _ _ => true
  | .copyRequestComplete _ _ => true
  | .channelFault _ _ _ => true
  | .gangBarrierComplete _ => true
  | .mmaStep _ => true
  | .accumulatorLeavesOwnership _ => true
  | .mmaOperationFault _ => true
  | .mstoComplete _ _ => true
  | .collectiveRoundComplete _ => true
  | .collectiveAbortArrival _ _ => true
  | .mcastCompletionRecord _ _ => true
  | .objectOpAtRouter _ => true
  | .windowWaitExpired _ _ => true
  | .objectOpAtHome _ => true
  | .splitPhaseReply _ _ _ => true
  | .stvApply _ _ _ => true
  | .reclApply _ _ _ => true
  | .capabilityArrival _ => true
  | .capqAnswer _ _ _ => true
  | .atomicAtHome _ _ _ => true
  | .storeGrant _ _ _ => true
  | .directoryOverflowNotice _ _ => true
  | .overflowInvalidation _ => true
  | .tlbWalkComplete _ _ => true
  | .prefetchComplete _ _ _ => true
  | .wsRefreshWindow => true
  | .streamElementAccess _ _ => true
  | .feWaiterService _ => true
  | .waitSatisfied _ _ => true
  | .detRoundClose _ => true
  | .trapEntry _ => true
  | .trapBudgetExpired _ => true
  | .machineCheck _ _ _ => true
  | .fenceRelease _ _ => true
  | .hostEventCommit _ => true
  | .launchCommit _ => true
  | .launchSetupResume _ => true
  | .setCounterCommit _ => true
  | .cancelCommit _ => true
  | .checkpointCutCommit _ => true
  | .cutSave => true
  | .cutMarkerArrival _ _ => true
  | .checkpointDrainCommit _ => true
  | .drainComplete => true
  | .hqheadWrite _ _ => true
  | .fallbackReplyCommit _ _ => true
  | .atomicopUnsupported _ _ _ => true
  | .ptmExchange _ => true
  | .timestampExchange _ _ _ _ _ _ => true
  | .freeze _ => true
  | .resume _ => true
  | .coordinatedFreezeInstant => true
  | .coordinatedResumeInstant => true
  | .packetArrival _ _ => true
  | .linkDown _ => true
  | .e2eRetryTimeout _ => true
  | .e2eAckArrival _ _ => true
  | .linkKeyRenewal _ => true
  | .powerCapThrottle _ => true
  | .thermalLimit _ => true
  | .powerCapSet _ => true
  | .pldmFirmwareUpdate _ _ => true
  | .pldmMonitor => true
  | .spdmAttestation _ => true
  | .firmwareBootVerify _ _ _ => true
  | .hostApertureAccess _ _ _ _ => true
  | .spillTakeRead _ _ => true
  | .spillPutWrite _ _ => true
  | .spillNWrite _ _ => true
  | .registerWrite _ _ => true
  | .linkBringUp _ => true
  | .add _ _ _ _ => false
  | .sub _ _ _ _ => false
  | .andR _ _ _ _ => false
  | .orR _ _ _ _ => false
  | .xor _ _ _ _ => false
  | .andn _ _ _ _ => false
  | .minS _ _ _ _ => false
  | .maxS _ _ _ _ => false
  | .minu _ _ _ _ => false
  | .maxu _ _ _ _ => false
  | .shl _ _ _ _ => false
  | .shr _ _ _ _ => false
  | .sra _ _ _ _ => false
  | .rol _ _ _ _ => false
  | .ror _ _ _ _ => false
  | .mov _ _ _ => false
  | .mul _ _ _ _ => false
  | .mulhiS _ _ _ _ => false
  | .mulhiU _ _ _ _ => false
  | .mulhiSu _ _ _ _ => false
  | .div _ _ _ _ => false
  | .divu _ _ _ _ => false
  | .rem _ _ _ _ => false
  | .remu _ _ _ _ => false
  | .clz _ _ _ => false
  | .ctz _ _ _ => false
  | .popc _ _ _ => false
  | .sextB _ _ _ => false
  | .sextH _ _ _ => false
  | .sextW _ _ _ => false
  | .zextH _ _ _ => false
  | .zextW _ _ _ => false
  | .lea _ _ _ _ _ => false
  | .yld _ _ _ => false
  | .ybase _ _ _ => false
  | .yext _ _ _ _ => false
  | .yrd _ _ _ _ => false
  | .sbind _ _ _ => false
  | .sunb _ _ => false
  | .slink _ _ _ => false
  | .sstat _ _ _ => false
  | .addw _ _ _ _ => false
  | .subw _ _ _ _ => false
  | .mulw _ _ _ _ => false
  | .shlw _ _ _ _ => false
  | .shrw _ _ _ _ => false
  | .sraw _ _ _ _ => false
  | .divw _ _ _ _ => false
  | .remw _ _ _ _ => false
  | .addi _ _ _ _ => false
  | .andi _ _ _ _ => false
  | .ori _ _ _ _ => false
  | .xori _ _ _ _ => false
  | .shli _ _ _ _ => false
  | .shri _ _ _ _ => false
  | .srai _ _ _ _ => false
  | .roli _ _ _ _ => false
  | .ldi _ _ => false
  | .seth _ _ _ => false
  | .cmpi _ _ _ _ _ => false
  | .cmp _ _ _ _ _ => false
  | .fcmp _ _ _ _ _ => false
  | .pand _ _ _ _ => false
  | .por _ _ _ _ => false
  | .pxor _ _ _ _ => false
  | .pandn _ _ _ _ => false
  | .pnot _ _ _ => false
  | .pmov _ _ _ => false
  | .pall _ _ _ => false
  | .pnone _ _ _ => false
  | .pfirst _ _ _ => false
  | .pcnt _ _ _ => false
  | .ptox _ _ _ => false
  | .xtop _ _ _ => false
  | .pffs _ _ _ => false
  | .fmvxf _ _ _ => false
  | .fmvfx _ _ _ => false
  | .fkind _ _ _ => false
  | .fadd _ _ _ _ => false
  | .fsub _ _ _ _ => false
  | .fmul _ _ _ _ => false
  | .fdiv _ _ _ _ => false
  | .fmin _ _ _ _ => false
  | .fmax _ _ _ _ => false
  | .fsqrt _ _ _ => false
  | .fsgn _ _ _ _ => false
  | .fma _ _ _ _ => false
  | .fms _ _ _ _ => false
  | .fabs _ _ _ => false
  | .fneg _ _ _ => false
  | .fcvtXf _ _ _ _ => false
  | .fcvtFx _ _ _ _ => false
  | .fcvtUf _ _ _ _ => false
  | .fcvtFu _ _ _ _ => false
  | .cgrp _ _ _ => false
  | .cinj _ _ _ => false
  | .cinjHld _ _ _ => false
  | .cext _ _ _ => false
  | .cstat _ _ _ => false
  | .cabort _ _ => false
  | .cfree _ _ => false
  | .cinjx _ _ _ => false
  | .cinjxHld _ _ _ => false
  | .cextx _ _ _ => false
  | .mma _ _ _ _ _ => false
  | .prep _ _ => false
  | .prepx _ _ _ => false
  | .mfb _ _ _ => false
  | .mtb _ _ _ => false
  | .clrb _ _ => false
  | .tstb _ _ _ => false
  | .nop _ => false
  | .endL _ => false
  | .halt _ => false
  | .brk _ => false
  | .eret _ => false
  | .syncCL _ => false
  | .beatL _ => false
  | .idle _ _ => false
  | .trap _ _ => false
  | .mfs _ _ => false
  | .mts _ _ => false
  | .tagt _ _ => false
  | .tagm _ _ => false
  | .clk _ _ => false
  | .horz _ _ => false
  | .lastt _ _ => false
  | .lastm _ _ => false
  | .bound _ _ _ => false
  | .ebnd _ _ _ => false
  | .mwait _ _ => false
  | .mzero _ _ => false
  | .mrd _ _ _ _ => false
  | .mstoS _ _ _ => false
  | .mstoBf _ _ _ => false
  | .gang _ _ => false
  | .mstat _ _ => false
  | .send _ _ _ _ => false
  | .send2 _ _ _ _ => false
  | .send4 _ _ _ _ => false
  | .sendv _ _ _ _ => false
  | .sendb _ _ _ _ => false
  | .mcast _ _ _ _ => false
  | .sendh _ _ _ => false
  | .bindS _ _ _ _ => false
  | .unbind _ _ => false
  | .arm _ _ _ => false
  | .hold _ _ _ => false
  | .rlse _ _ _ => false
  | .startL _ _ _ => false
  | .genrd _ _ _ => false
  | .capq _ _ _ _ => false
  | .ticket _ _ => false
  | .poolcfg _ _ _ => false
  | .cntdn _ _ => false
  | .cancel _ _ => false
  | .cntrd _ _ _ => false
  | .ecw _ _ _ => false
  | .ecr _ _ _ => false
  | .ecpulse _ => false
  | .eccnt _ _ _ => false
  | .pcfg _ _ _ => false
  | .prd _ _ _ => false
  | .prst _ _ => false
  | .tlbi _ _ _ => false
  | .ldb _ _ _ _ => false
  | .ldh _ _ _ _ => false
  | .ldw _ _ _ _ => false
  | .ldd _ _ _ _ => false
  | .ldbu _ _ _ _ => false
  | .ldhu _ _ _ _ => false
  | .ldwu _ _ _ _ => false
  | .stb _ _ _ _ => false
  | .sth _ _ _ _ => false
  | .stw _ _ _ _ => false
  | .std _ _ _ _ => false
  | .ldxb _ _ _ _ => false
  | .ldxh _ _ _ _ => false
  | .ldxw _ _ _ _ => false
  | .ldxd _ _ _ _ => false
  | .ldxbu _ _ _ _ => false
  | .ldxhu _ _ _ _ => false
  | .ldxwu _ _ _ _ => false
  | .stxb _ _ _ _ => false
  | .stxh _ _ _ _ => false
  | .stxw _ _ _ _ => false
  | .stxd _ _ _ _ => false
  | .ldf _ _ _ _ => false
  | .ldk _ _ _ _ => false
  | .ste _ _ _ _ => false
  | .stf _ _ _ _ => false
  | .sete _ _ _ => false
  | .setf _ _ _ => false
  | .tfe _ _ _ _ => false
  | .ldgB _ _ _ _ _ => false
  | .ldgH _ _ _ _ _ => false
  | .ldgW _ _ _ _ _ => false
  | .ldgD _ _ _ _ _ => false
  | .ldgBu _ _ _ _ _ => false
  | .ldgHu _ _ _ _ _ => false
  | .ldgWu _ _ _ _ _ => false
  | .stgB _ _ _ _ _ => false
  | .stgH _ _ _ _ _ => false
  | .stgW _ _ _ _ _ => false
  | .stgD _ _ _ _ _ => false
  | .ldcW _ _ _ _ => false
  | .ldcD _ _ _ _ => false
  | .ldcWu _ _ _ _ => false
  | .cinvC _ => false
  | .cfl _ _ _ => false
  | .cinvl _ _ _ => false
  | .cpf _ _ _ => false
  | .aadd _ _ _ _ => false
  | .aand _ _ _ _ => false
  | .aor _ _ _ _ => false
  | .axor _ _ _ _ => false
  | .amin _ _ _ _ => false
  | .amax _ _ _ _ => false
  | .aminu _ _ _ _ => false
  | .aswap _ _ _ _ => false
  | .acas _ _ _ _ => false
  | .redadd _ _ _ => false
  | .redand _ _ _ => false
  | .redor _ _ _ => false
  | .redxor _ _ _ => false
  | .redmin _ _ _ => false
  | .redmax _ _ _ => false
  | .fenceAcq _ _ => false
  | .fenceRel _ _ => false
  | .fenceFull _ _ => false
  | .ldaD _ _ _ _ => false
  | .stlD _ _ _ _ => false
  | .ldaW _ _ _ _ => false
  | .stlW _ _ _ _ => false
  | .ldv _ _ _ _ => false
  | .ldvn _ _ _ _ => false
  | .stv _ _ _ _ => false
  | .recl _ _ _ => false
  | .hand _ _ _ => false
  | .opush _ _ _ _ => false
  | .opop _ _ _ => false
  | .ocnt _ _ _ => false
  | .vaddW _ _ _ _ => false
  | .vsubW _ _ _ _ => false
  | .vmulW _ _ _ _ => false
  | .vmulhW _ _ _ _ => false
  | .vminW _ _ _ _ => false
  | .vmaxW _ _ _ _ => false
  | .vminuW _ _ _ _ => false
  | .vmaxuW _ _ _ _ => false
  | .vaddH _ _ _ _ => false
  | .vsubH _ _ _ _ => false
  | .vmulH _ _ _ _ => false
  | .vmulhH _ _ _ _ => false
  | .vminH _ _ _ _ => false
  | .vmaxH _ _ _ _ => false
  | .vminuH _ _ _ _ => false
  | .vmaxuH _ _ _ _ => false
  | .vaddB _ _ _ _ => false
  | .vsubB _ _ _ _ => false
  | .vaddsB _ _ _ _ => false
  | .vsubsB _ _ _ _ => false
  | .vminB _ _ _ _ => false
  | .vmaxB _ _ _ _ => false
  | .vminuB _ _ _ _ => false
  | .vmaxuB _ _ _ _ => false
  | .vand _ _ _ _ => false
  | .vor _ _ _ _ => false
  | .vxor _ _ _ _ => false
  | .vandn _ _ _ _ => false
  | .vshlW _ _ _ _ => false
  | .vshrW _ _ _ _ => false
  | .vsraW _ _ _ _ => false
  | .vnot _ _ _ => false
  | .vfaddS _ _ _ _ => false
  | .vfsubS _ _ _ _ => false
  | .vfmulS _ _ _ _ => false
  | .vfmaS _ _ _ _ => false
  | .vfminS _ _ _ _ => false
  | .vfmaxS _ _ _ _ => false
  | .vfabsS _ _ _ => false
  | .vfnegS _ _ _ => false
  | .vfaddBf _ _ _ _ => false
  | .vfsubBf _ _ _ _ => false
  | .vfmulBf _ _ _ _ => false
  | .vfmaBf _ _ _ _ => false
  | .vfminBf _ _ _ _ => false
  | .vfmaxBf _ _ _ _ => false
  | .vfdotBf _ _ _ _ => false
  | .vrcpS _ _ _ => false
  | .vrsqS _ _ _ => false
  | .vexp2S _ _ _ => false
  | .vlog2S _ _ _ => false
  | .vsqrtS _ _ _ => false
  | .vdivS _ _ _ _ => false
  | .vfloorS _ _ _ => false
  | .vtanhS _ _ _ => false
  | .vcmp _ _ _ _ _ => false
  | .vcmpF _ _ _ _ _ => false
  | .vbcast _ _ _ => false
  | .vbcastf _ _ _ => false
  | .vext _ _ _ _ => false
  | .vins _ _ _ _ => false
  | .vperm _ _ _ _ => false
  | .viota _ _ => false
  | .vmov _ _ _ => false
  | .vslide _ _ _ _ => false
  | .vld _ _ _ _ => false
  | .vst _ _ _ _ => false
  | .vldf _ _ _ _ => false
  | .vste _ _ _ _ => false
  | .vlds _ _ _ _ => false
  | .vsts _ _ _ _ => false
  | .vgath _ _ _ _ => false
  | .vscat _ _ _ _ => false
  | .vstf _ _ _ => false
  | .vrsumS _ _ _ => false
  | .vrmaxS _ _ _ => false
  | .vrminS _ _ _ => false
  | .vrsumW _ _ _ => false
  | .vscanS _ _ _ => false
  | .vcavS _ _ _ => false
  | .vcavmS _ _ _ => false
  | .vdot4B _ _ _ _ => false
  | .vcvtSBf _ _ _ => false
  | .vcvtBfS _ _ _ => false
  | .vcvtSW _ _ _ => false
  | .vcvtWS _ _ _ => false
  | .vcvtE4S _ _ _ _ => false
  | .vcvtSE4 _ _ _ _ => false
  | .vcvtE5S _ _ _ _ => false
  | .vcvtSE5 _ _ _ _ => false
  | .xqW _ _ _ => false
  | .xqT _ _ _ => false
  | .xdone _ _ _ => false
  | .xwait _ _ _ => false
  | .xstat _ _ _ _ => false
  | .xclr _ _ => false
  | .xenc _ _ _ _ => false
  | .xdec _ _ _ => false
  | .movC _ _ => false
  | .addC _ _ => false
  | .subC _ _ => false
  | .andC _ _ => false
  | .orC _ _ => false
  | .xorC _ _ => false
  | .lddC _ _ => false
  | .stdC _ _ => false
  | .addiC _ _ => false
  | .ldiC _ _ => false
  | .shliC _ _ => false
  | .shriC _ _ => false
  | .sraiC _ _ => false
  | .andiC _ _ => false
  | .ldsC _ _ => false
  | .stsC _ _ => false
  | .go _ => false
  | .goGuarded _ _ _ => false
  | .call _ => false
  | .callGuarded _ _ _ => false
  | .nopC => false
  | .endC => false
  | .beatC => false
  | .syncC => false
  | .brkC => false

end Sys2Proof
end

