-- ==== Sys2Proof/Decode.lean ====
section
/-! DEFINITION. The decoder (R201 to R207), total on any bytes, and after it the encoder, written from the same tables.
Compiled Lean code cannot build a value of a type with this many constructors, so what builds an `Instr` is
noncomputable to the compiler; the kernel evaluates it. -/

noncomputable section

namespace Sys2Proof

/-- Why bytes are no instruction: fault 0x01, fault 0x02 (R207), or too few bytes to tell. -/
inductive DecodeError where
  | illegal | reserved | short
deriving DecidableEq, Repr

/-- The fields of a 32-bit instruction (R202); `x` is [28:24], which holds S and P when G is 1. -/
structure W32 where
  g   : Bool
  x   : Fin 32
  maj : Fin 64
  d   : Fin 32
  a   : Fin 32
  b   : Fin 32
  fn  : Fin 8
deriving DecidableEq, Repr

/-- The fields of a 16-bit instruction (R205): [15:14], [13:11], [10:6], [5:0]. -/
structure W16 where
  fmt : Fin 4
  op  : Fin 8
  d   : Fin 32
  lo  : Fin 64
deriving DecidableEq, Repr

/-! ## Fields -/

/-- The low part of a number as an index. -/
def lowN (k n : Nat) [NeZero k] : Fin k := ⟨n % k, Nat.mod_lt _ (Nat.pos_of_ne_zero (NeZero.ne k))⟩

/-- The low part of a field. -/
def low {n : Nat} (k : Nat) [NeZero k] (r : Fin n) : Fin k := lowN k r.val

/-- A narrower operand in a five-bit field: bits it leaves unused must be zero (R199). -/
def narrow (k : Nat) [NeZero k] (r : Fin 32) : Except DecodeError (Fin k) :=
  if r.val < k then .ok (low k r) else .error .reserved

/-- A narrower operand as a five-bit field. -/
def widen {k : Nat} (r : Fin k) : Fin 32 := lowN 32 r.val

/-- A predicate register in a field whose bit 4 is 1 (MAJ 0x39, R206). -/
def raise (r : Fin 16) : Fin 32 := lowN 32 (16 + r.val)

/-- A field of a 16-bit instruction whose bit 0 is zero. -/
def double (r : Fin 32) : Fin 64 := lowN 64 (2 * r.val)

/-- A condition that the encoding must meet (R207, step 2). -/
def need (c : Bool) : Except DecodeError Unit := if c then .ok () else .error .reserved

/-- The low `n` bits as a two's complement number. -/
def sx (n v : Nat) : Int := if v < 2 ^ (n - 1) then (v : Int) else (v : Int) - 2 ^ n

/-- A signed number as the `n` bits that hold it. -/
def wrap (n : Nat) (v : Int) : Nat := (v % 2 ^ n).toNat

/-- The guard that G = 1 encodes in [28:24]: S and P (R202). -/
def guardOf (x : Fin 32) : Guard := if x.val < 16 then .onSet (low 16 x) else .onClear (low 16 x)

/-- The guard of a form that uses [28:24] for an immediate when G is 0. -/
def W32.guard (f : W32) : Guard := if f.g then guardOf f.x else .always

/-- The guard of forms R and RC: [28:24] must be zero when G is 0 (R204). -/
def W32.guardR (f : W32) : Except DecodeError Guard :=
  if f.g then .ok (guardOf f.x) else if f.x = 0 then .ok .always else .error .reserved

/-- Form I: imm13, guarded imm8. -/
def W32.imm13 (f : W32) : Int :=
  if f.g then sx 8 (f.b.val * 8 + f.fn.val) else sx 13 (f.x.val * 256 + f.b.val * 8 + f.fn.val)

/-- Forms IC and M: the unsigned number in imm10, guarded imm5. -/
def W32.uimm10 (f : W32) : Nat := if f.g then f.b.val else f.x.val * 32 + f.b.val

/-- Forms IC and M: signed imm10, guarded imm5. -/
def W32.imm10 (f : W32) : Int := sx (if f.g then 5 else 10) f.uimm10

/-- Form MP: signed off8, guarded off3. -/
def W32.off8 (f : W32) : Int :=
  if f.g then sx 3 (f.b.val % 8) else sx 8 (f.x.val * 8 + f.b.val % 8)

/-- Form L: imm18. -/
def W32.imm18 (f : W32) : Nat := f.x.val * 8192 + f.a.val * 256 + f.b.val * 8 + f.fn.val

/-- Policy codes (R258). -/
def W32.policy (f : W32) : Policy :=
  match f.b.val / 8 with
  | 0 => .normal
  | 1 => .stream
  | 2 => .keep
  | _ => .nol1

/-- Integer condition codes (R206, R224). -/
def decICond (c : Fin 8) : ICond :=
  match c.val with
  | 0 => .eq | 1 => .ne | 2 => .lt | 3 => .ge | 4 => .ltu | 5 => .geu | 6 => .tst | _ => .ntst

/-- Floating-point condition codes (R206, R227). -/
def decFCond (c : Fin 8) : FCond :=
  match c.val with
  | 0 => .eq | 1 => .ne | 2 => .lt | 3 => .le | 4 => .gt | 5 => .ge | 6 => .un | _ => .ord

/-- Scope codes; 7 to 31 raise 0x02 (R87). -/
def decScope (c : Fin 32) : Except DecodeError Scope :=
  match c.val with
  | 0 => .ok .ctx | 1 => .ok .core | 2 => .ok .landing | 3 => .ok .die | 4 => .ok .device | 5 => .ok .domain
  | 6 => .ok .system | _ => .error .reserved

/-- FCVT modes; 5 to 31 raise 0x02 (R244). -/
def decMode (c : Fin 32) : Except DecodeError FcvtMode :=
  match c.val with
  | 0 => .ok .fmode | 1 => .ok .rne | 2 => .ok .rtz | 3 => .ok .rup | 4 => .ok .rdn | _ => .error .reserved

/-- MMA formats; FN 7 is not allocated (R142). -/
def decFmt (c : Fin 8) : Except DecodeError MmaFmt :=
  match c.val with
  | 0 => .ok .xf8 | 1 => .ok .f8 | 2 => .ok .g8 | 3 => .ok .bf16 | 4 => .ok .i8 | 5 => .ok .s4 | 6 => .ok .s2
  | _ => .error .illegal

/-- The number of a special register (R18, R30, R35, R46, R70, R110, R125, R141, R315, R316, R359, R387). -/
def SpecialReg.num : SpecialReg → Nat
  | .tnowT => 0 | .tnowM => 1 | .clock => 2 | .horizon => 3 | .lastT => 4 | .lastM => 5 | .tagunit => 6 | .dbDie => 8
  | .dbPkg => 9 | .dbChas => 10 | .dbFar => 11 | .ebound => 12 | .inclass => 13 | .coreId => 16 | .landingId => 17
  | .dieId => 18 | .devCoord => 19 | .ctxId => 20 | .slot => 24 | .origin => 25 | .joinN => 26 | .fflags => 32
  | .fmode => 33 | .iflags => 34 | .lateT => 48 | .lateM => 49 | .lateOrig => 50 | .lateSend => 51 | .lateArr => 52
  | .lateLastT => 53 | .lateLastM => 54 | .lateClass => 55 | .cause => 64 | .fpc => 65 | .faddr => 66 | .finfo => 67
  | .tvec => 68 | .frpc => 69 | .tcfg => 70 | .tstk => 71 | .beatIv => 80 | .beatLeft => 81 | .gangCfg => 88
  | .staleCnt => 96 | .inboxN => 97 | .spillN => 98 | .spillTake => 99 | .spillPut => 100 | .spillBuf => 101
  | .bexCnt => 102 | .blkarea => 103 | .detCfg => 112 | .quantum => 113 | .wsCal => 128 | .wsPeriod => 129
  | .wsWindow => 130

/-- A special register by imm18: an unallocated number, or a nonzero imm18[17:12], raises 0x02 (R199). -/
def decSpecial (n : Nat) : Except DecodeError SpecialReg :=
  match n with
  | 0 => .ok .tnowT | 1 => .ok .tnowM | 2 => .ok .clock | 3 => .ok .horizon | 4 => .ok .lastT | 5 => .ok .lastM
  | 6 => .ok .tagunit | 8 => .ok .dbDie | 9 => .ok .dbPkg | 10 => .ok .dbChas | 11 => .ok .dbFar | 12 => .ok .ebound
  | 13 => .ok .inclass | 16 => .ok .coreId | 17 => .ok .landingId | 18 => .ok .dieId | 19 => .ok .devCoord
  | 20 => .ok .ctxId | 24 => .ok .slot | 25 => .ok .origin | 26 => .ok .joinN | 32 => .ok .fflags | 33 => .ok .fmode
  | 34 => .ok .iflags | 48 => .ok .lateT | 49 => .ok .lateM | 50 => .ok .lateOrig | 51 => .ok .lateSend
  | 52 => .ok .lateArr | 53 => .ok .lateLastT | 54 => .ok .lateLastM | 55 => .ok .lateClass | 64 => .ok .cause
  | 65 => .ok .fpc | 66 => .ok .faddr | 67 => .ok .finfo | 68 => .ok .tvec | 69 => .ok .frpc | 70 => .ok .tcfg
  | 71 => .ok .tstk | 80 => .ok .beatIv | 81 => .ok .beatLeft | 88 => .ok .gangCfg | 96 => .ok .staleCnt
  | 97 => .ok .inboxN | 98 => .ok .spillN | 99 => .ok .spillTake | 100 => .ok .spillPut | 101 => .ok .spillBuf
  | 102 => .ok .bexCnt | 103 => .ok .blkarea | 112 => .ok .detCfg | 113 => .ok .quantum | 128 => .ok .wsCal
  | 129 => .ok .wsPeriod | 130 => .ok .wsWindow
  | _ => .error .reserved

/-! ## 32-bit instructions -/

/-- MAJ 0x01 (R206). -/
def dec01 (f : W32) : Except DecodeError Instr :=
  match f.fn.val with
  | 0 => do let g ← f.guardR; return .add g f.d f.a f.b
  | 1 => do let g ← f.guardR; return .sub g f.d f.a f.b
  | 2 => do let g ← f.guardR; return .andR g f.d f.a f.b
  | 3 => do let g ← f.guardR; return .orR g f.d f.a f.b
  | 4 => do let g ← f.guardR; return .xor g f.d f.a f.b
  | 5 => do let g ← f.guardR; return .andn g f.d f.a f.b
  | 6 => do let g ← f.guardR; return .minS g f.d f.a f.b
  | 7 => do let g ← f.guardR; return .maxS g f.d f.a f.b
  | _ => .error .illegal

/-- MAJ 0x02 (R206). -/
def dec02 (f : W32) : Except DecodeError Instr :=
  match f.fn.val with
  | 0 => do let g ← f.guardR; return .minu g f.d f.a f.b
  | 1 => do let g ← f.guardR; return .maxu g f.d f.a f.b
  | 2 => do let g ← f.guardR; return .shl g f.d f.a f.b
  | 3 => do let g ← f.guardR; return .shr g f.d f.a f.b
  | 4 => do let g ← f.guardR; return .sra g f.d f.a f.b
  | 5 => do let g ← f.guardR; return .rol g f.d f.a f.b
  | 6 => do let g ← f.guardR; return .ror g f.d f.a f.b
  | 7 => do let g ← f.guardR; need (f.b == 0); return .mov g f.d f.a
  | _ => .error .illegal

/-- MAJ 0x03 (R206). -/
def dec03 (f : W32) : Except DecodeError Instr :=
  match f.fn.val with
  | 0 => do let g ← f.guardR; return .mul g f.d f.a f.b
  | 1 => do let g ← f.guardR; return .mulhiS g f.d f.a f.b
  | 2 => do let g ← f.guardR; return .mulhiU g f.d f.a f.b
  | 3 => do let g ← f.guardR; return .mulhiSu g f.d f.a f.b
  | 4 => do let g ← f.guardR; return .div g f.d f.a f.b
  | 5 => do let g ← f.guardR; return .divu g f.d f.a f.b
  | 6 => do let g ← f.guardR; return .rem g f.d f.a f.b
  | 7 => do let g ← f.guardR; return .remu g f.d f.a f.b
  | _ => .error .illegal

/-- MAJ 0x04 (R206). -/
def dec04 (f : W32) : Except DecodeError Instr :=
  match f.fn.val with
  | 0 => do let g ← f.guardR; need (f.b == 0); return .clz g f.d f.a
  | 1 => do let g ← f.guardR; need (f.b == 0); return .ctz g f.d f.a
  | 2 => do let g ← f.guardR; need (f.b == 0); return .popc g f.d f.a
  | 3 => do let g ← f.guardR; need (f.b == 0); return .sextB g f.d f.a
  | 4 => do let g ← f.guardR; need (f.b == 0); return .sextH g f.d f.a
  | 5 => do let g ← f.guardR; need (f.b == 0); return .sextW g f.d f.a
  | 6 => do let g ← f.guardR; need (f.b == 0); return .zextH g f.d f.a
  | 7 => do let g ← f.guardR; need (f.b == 0); return .zextW g f.d f.a
  | _ => .error .illegal

/-- MAJ 0x05 (R206). -/
def dec05 (f : W32) : Except DecodeError Instr :=
  do let g ← f.guardR; return .lea g f.d f.a f.b f.fn

/-- MAJ 0x06 (R206). -/
def dec06 (f : W32) : Except DecodeError Instr :=
  match f.fn.val with
  | 0 => do let g ← f.guardR; let d ← narrow 4 f.d; need (f.b == 0); return .yld g d f.a
  | 1 => do let g ← f.guardR; let d ← narrow 4 f.d; need (f.b == 0); return .ybase g d f.a
  | 2 => do let g ← f.guardR; let d ← narrow 4 f.d; let n ← narrow 4 f.b; return .yext g d f.a n
  | 3 => do let g ← f.guardR; let a ← narrow 4 f.a; let n ← narrow 5 f.b; return .yrd g f.d a n
  | 4 => do let g ← f.guardR; let d ← narrow 8 f.d; need (f.b == 0); return .sbind g d f.a
  | 5 => do let g ← f.guardR; let d ← narrow 8 f.d; need (f.a == 0 && f.b == 0); return .sunb g d
  | 6 => do let g ← f.guardR; let d ← narrow 8 f.d; need (f.b == 0); return .slink g d f.a
  | 7 => do let g ← f.guardR; let a ← narrow 8 f.a; need (f.b == 0); return .sstat g f.d a
  | _ => .error .illegal

/-- MAJ 0x07 (R206). -/
def dec07 (f : W32) : Except DecodeError Instr :=
  match f.fn.val with
  | 0 => do let g ← f.guardR; return .addw g f.d f.a f.b
  | 1 => do let g ← f.guardR; return .subw g f.d f.a f.b
  | 2 => do let g ← f.guardR; return .mulw g f.d f.a f.b
  | 3 => do let g ← f.guardR; return .shlw g f.d f.a f.b
  | 4 => do let g ← f.guardR; return .shrw g f.d f.a f.b
  | 5 => do let g ← f.guardR; return .sraw g f.d f.a f.b
  | 6 => do let g ← f.guardR; return .divw g f.d f.a f.b
  | 7 => do let g ← f.guardR; return .remw g f.d f.a f.b
  | _ => .error .illegal

/-- MAJ 0x08 (R206). -/
def dec08 (f : W32) : Except DecodeError Instr :=
  .ok (.addi f.guard f.d f.a f.imm13)

/-- MAJ 0x09 (R206). -/
def dec09 (f : W32) : Except DecodeError Instr :=
  .ok (.andi f.guard f.d f.a f.imm13)

/-- MAJ 0x0A (R206). -/
def dec0A (f : W32) : Except DecodeError Instr :=
  .ok (.ori f.guard f.d f.a f.imm13)

/-- MAJ 0x0B (R206). -/
def dec0B (f : W32) : Except DecodeError Instr :=
  .ok (.xori f.guard f.d f.a f.imm13)

/-- MAJ 0x0C (R206). -/
def dec0C (f : W32) : Except DecodeError Instr :=
  match f.fn.val with
  | 0 => do need (decide (f.uimm10 < if f.g then 32 else 64)); return .shli f.guard f.d f.a f.uimm10
  | 1 => do need (decide (f.uimm10 < if f.g then 32 else 64)); return .shri f.guard f.d f.a f.uimm10
  | 2 => do need (decide (f.uimm10 < if f.g then 32 else 64)); return .srai f.guard f.d f.a f.uimm10
  | 3 => do need (decide (f.uimm10 < if f.g then 32 else 64)); return .roli f.guard f.d f.a f.uimm10
  | _ => .error .illegal

/-- MAJ 0x0D (R206). -/
def dec0D (f : W32) : Except DecodeError Instr :=
  do need (!f.g); return .ldi f.d (sx 18 f.imm18)

/-- MAJ 0x0E (R206). -/
def dec0E (f : W32) : Except DecodeError Instr :=
  do need (!f.g); return .seth f.d (BitVec.ofNat 16 f.imm18) (lowN 4 (f.imm18 / 65536))

/-- MAJ 0x0F (R206). -/
def dec0F (f : W32) : Except DecodeError Instr :=
  do let d ← narrow 16 f.d; return .cmpi f.guard d f.a f.imm10 (decICond f.fn)

/-- MAJ 0x10 (R206). -/
def dec10 (f : W32) : Except DecodeError Instr :=
  do let g ← f.guardR; let d ← narrow 16 f.d; return .cmp g d f.a f.b (decICond f.fn)

/-- MAJ 0x11 (R206). -/
def dec11 (f : W32) : Except DecodeError Instr :=
  do let g ← f.guardR; let d ← narrow 16 f.d; return .fcmp g d f.a f.b (decFCond f.fn)

/-- MAJ 0x12 (R206). -/
def dec12 (f : W32) : Except DecodeError Instr :=
  match f.fn.val with
  | 0 => do let g ← f.guardR; let d ← narrow 16 f.d; let a ← narrow 16 f.a; let b ← narrow 16 f.b; return .pand g d a b
  | 1 => do let g ← f.guardR; let d ← narrow 16 f.d; let a ← narrow 16 f.a; let b ← narrow 16 f.b; return .por g d a b
  | 2 => do let g ← f.guardR; let d ← narrow 16 f.d; let a ← narrow 16 f.a; let b ← narrow 16 f.b; return .pxor g d a b
  | 3 => do let g ← f.guardR; let d ← narrow 16 f.d; let a ← narrow 16 f.a; let b ← narrow 16 f.b; return .pandn g d a b
  | 4 => do let g ← f.guardR; let d ← narrow 16 f.d; let a ← narrow 16 f.a; need (f.b == 0); return .pnot g d a
  | 5 => do let g ← f.guardR; let d ← narrow 16 f.d; let a ← narrow 16 f.a; need (f.b == 0); return .pmov g d a
  | 6 => do let g ← f.guardR; let d ← narrow 16 f.d; let a ← narrow 16 f.a; need (f.b == 0); return .pall g d a
  | 7 => do let g ← f.guardR; let d ← narrow 16 f.d; let a ← narrow 16 f.a; need (f.b == 0); return .pnone g d a
  | _ => .error .illegal

/-- MAJ 0x13 (R206). -/
def dec13 (f : W32) : Except DecodeError Instr :=
  match f.fn.val with
  | 0 => do let g ← f.guardR; let d ← narrow 16 f.d; let a ← narrow 16 f.a; need (f.b == 0); return .pfirst g d a
  | 1 => do let g ← f.guardR; let a ← narrow 16 f.a; need (f.b == 0); return .pcnt g f.d a
  | 2 => do let g ← f.guardR; let a ← narrow 16 f.a; need (f.b == 0); return .ptox g f.d a
  | 3 => do let g ← f.guardR; let d ← narrow 16 f.d; need (f.b == 0); return .xtop g d f.a
  | 4 => do let g ← f.guardR; let a ← narrow 16 f.a; need (f.b == 0); return .pffs g f.d a
  | 5 => do let g ← f.guardR; need (f.b == 0); return .fmvxf g f.d f.a
  | 6 => do let g ← f.guardR; need (f.b == 0); return .fmvfx g f.d f.a
  | 7 => do let g ← f.guardR; need (f.b == 0); return .fkind g f.d f.a
  | _ => .error .illegal

/-- MAJ 0x14 (R206). -/
def dec14 (f : W32) : Except DecodeError Instr :=
  match f.fn.val with
  | 0 => do let g ← f.guardR; return .fadd g f.d f.a f.b
  | 1 => do let g ← f.guardR; return .fsub g f.d f.a f.b
  | 2 => do let g ← f.guardR; return .fmul g f.d f.a f.b
  | 3 => do let g ← f.guardR; return .fdiv g f.d f.a f.b
  | 4 => do let g ← f.guardR; return .fmin g f.d f.a f.b
  | 5 => do let g ← f.guardR; return .fmax g f.d f.a f.b
  | 6 => do let g ← f.guardR; need (f.b == 0); return .fsqrt g f.d f.a
  | 7 => do let g ← f.guardR; return .fsgn g f.d f.a f.b
  | _ => .error .illegal

/-- MAJ 0x15 (R206). -/
def dec15 (f : W32) : Except DecodeError Instr :=
  match f.fn.val with
  | 0 => do let g ← f.guardR; return .fma g f.d f.a f.b
  | 1 => do let g ← f.guardR; return .fms g f.d f.a f.b
  | 2 => do let g ← f.guardR; need (f.b == 0); return .fabs g f.d f.a
  | 3 => do let g ← f.guardR; need (f.b == 0); return .fneg g f.d f.a
  | 4 => do let g ← f.guardR; let mode ← decMode f.b; return .fcvtXf g f.d f.a mode
  | 5 => do let g ← f.guardR; let mode ← decMode f.b; return .fcvtFx g f.d f.a mode
  | 6 => do let g ← f.guardR; let mode ← decMode f.b; return .fcvtUf g f.d f.a mode
  | 7 => do let g ← f.guardR; let mode ← decMode f.b; return .fcvtFu g f.d f.a mode
  | _ => .error .illegal

/-- MAJ 0x16 (R206). -/
def dec16 (f : W32) : Except DecodeError Instr :=
  match f.fn.val with
  | 0 => do let g ← f.guardR; need (f.b == 0); return .cgrp g f.d f.a
  | 1 => do let g ← f.guardR; need (decide (f.d.val ≤ 1)); return if f.d = 0 then .cinj g f.a f.b else .cinjHld g f.a f.b
  | 2 => do let g ← f.guardR; need (f.b == 0); return .cext g f.d f.a
  | 3 => do let g ← f.guardR; need (f.b == 0); return .cstat g f.d f.a
  | 4 => do let g ← f.guardR; need (f.d == 0 && f.b == 0); return .cabort g f.a
  | 5 => do let g ← f.guardR; need (f.d == 0 && f.b == 0); return .cfree g f.a
  | 6 => do let g ← f.guardR; need (decide (f.d.val ≤ 1)); return if f.d = 0 then .cinjx g f.a f.b else .cinjxHld g f.a f.b
  | 7 => do let g ← f.guardR; need (f.d == 0); return .cextx g f.a f.b
  | _ => .error .illegal

/-- MAJ 0x17 (R206). -/
def dec17 (f : W32) : Except DecodeError Instr :=
  do let fmt ← decFmt f.fn; need (!f.g); need (decide (f.x.val < 8)); let n ← narrow 4 f.d; return .mma (low 8 f.x) n f.a f.b fmt

/-- MAJ 0x18 (R206). -/
def dec18 (f : W32) : Except DecodeError Instr :=
  do need (!f.g); let n ← narrow 8 f.d; return .prep n (sx 18 f.imm18)

/-- MAJ 0x19 (R206). -/
def dec19 (f : W32) : Except DecodeError Instr :=
  match f.fn.val with
  | 0 => do let g ← f.guardR; let n ← narrow 8 f.d; need (f.b == 0); return .prepx g n f.a
  | 1 => do let g ← f.guardR; let n ← narrow 8 f.a; need (f.b == 0); return .mfb g f.d n
  | 2 => do let g ← f.guardR; let n ← narrow 8 f.d; need (f.b == 0); return .mtb g n f.a
  | 3 => do let g ← f.guardR; let n ← narrow 8 f.d; need (f.a == 0 && f.b == 0); return .clrb g n
  | 4 => do let g ← f.guardR; let d ← narrow 16 f.d; let n ← narrow 8 f.a; need (f.b == 0); return .tstb g d n
  | _ => .error .illegal

/-- MAJ 0x1A (R206). -/
def dec1A (f : W32) : Except DecodeError Instr :=
  match f.fn.val with
  | 0 => do let g ← f.guardR; need (f.d == 0 && f.a == 0 && f.b == 0); return .nop g
  | 1 => do let g ← f.guardR; need (f.d == 0 && f.a == 0 && f.b == 0); return .endL g
  | 2 => do let g ← f.guardR; need (f.d == 0 && f.a == 0 && f.b == 0); return .halt g
  | 3 => do let g ← f.guardR; need (f.d == 0 && f.a == 0 && f.b == 0); return .brk g
  | 4 => do let g ← f.guardR; need (f.d == 0 && f.a == 0 && f.b == 0); return .eret g
  | 5 => do let g ← f.guardR; need (f.d == 0 && f.a == 0 && f.b == 0); return .syncCL g
  | 6 => do let g ← f.guardR; need (f.d == 0 && f.a == 0 && f.b == 0); return .beatL g
  | 7 => do let g ← f.guardR; need (f.d == 0 && f.b == 0); return .idle g f.a
  | _ => .error .illegal

/-- MAJ 0x1B (R206). -/
def dec1B (f : W32) : Except DecodeError Instr :=
  do need (f.d == 0 && f.a == 0); return .trap f.guard f.imm13

/-- MAJ 0x1C (R206). -/
def dec1C (f : W32) : Except DecodeError Instr :=
  do need (!f.g); let sp ← decSpecial f.imm18; return .mfs f.d sp

/-- MAJ 0x1D (R206). -/
def dec1D (f : W32) : Except DecodeError Instr :=
  do need (!f.g); let sp ← decSpecial f.imm18; return .mts sp f.d

/-- MAJ 0x1E (R206). -/
def dec1E (f : W32) : Except DecodeError Instr :=
  match f.fn.val with
  | 0 => do let g ← f.guardR; need (f.a == 0 && f.b == 0); return .tagt g f.d
  | 1 => do let g ← f.guardR; need (f.a == 0 && f.b == 0); return .tagm g f.d
  | 2 => do let g ← f.guardR; need (f.a == 0 && f.b == 0); return .clk g f.d
  | 3 => do let g ← f.guardR; need (f.a == 0 && f.b == 0); return .horz g f.d
  | 4 => do let g ← f.guardR; need (f.a == 0 && f.b == 0); return .lastt g f.d
  | 5 => do let g ← f.guardR; need (f.a == 0 && f.b == 0); return .lastm g f.d
  | 6 => do let g ← f.guardR; need (f.b == 0); return .bound g f.d f.a
  | 7 => do let g ← f.guardR; need (f.b == 0); return .ebnd g f.d f.a
  | _ => .error .illegal

/-- MAJ 0x1F (R206). -/
def dec1F (f : W32) : Except DecodeError Instr :=
  match f.fn.val with
  | 0 => do let g ← f.guardR; let n ← narrow 4 f.d; need (f.a == 0 && f.b == 0); return .mwait g n
  | 1 => do let g ← f.guardR; let n ← narrow 4 f.d; need (f.a == 0 && f.b == 0); return .mzero g n
  | 2 => do let g ← f.guardR; let a ← narrow 4 f.a; return .mrd g f.d a f.b
  | 3 => do let g ← f.guardR; let n ← narrow 4 f.d; need (f.b == 0); return .mstoS g n f.a
  | 4 => do let g ← f.guardR; let n ← narrow 4 f.d; need (f.b == 0); return .mstoBf g n f.a
  | 5 => do let g ← f.guardR; need (f.d == 0 && f.b == 0); return .gang g f.a
  | 6 => do let g ← f.guardR; need (f.a == 0 && f.b == 0); return .mstat g f.d
  | _ => .error .illegal

/-- MAJ 0x20 (R206). -/
def dec20 (f : W32) : Except DecodeError Instr :=
  match f.fn.val with
  | 0 => do let g ← f.guardR; return .send g f.d f.a f.b
  | 1 => do let g ← f.guardR; need (decide (f.d.val ≤ 30)); return .send2 g f.d f.a f.b
  | 2 => do let g ← f.guardR; need (decide (f.d.val ≤ 28)); return .send4 g f.d f.a f.b
  | 3 => do let g ← f.guardR; return .sendv g f.d f.a f.b
  | 4 => do let g ← f.guardR; return .sendb g f.d f.a f.b
  | 5 => do let g ← f.guardR; return .mcast g f.d f.a f.b
  | 6 => do let g ← f.guardR; need (decide (f.d.val ≤ 28)); need (f.b == 0); return .sendh g f.d f.a
  | _ => .error .illegal

/-- MAJ 0x21 (R206). -/
def dec21 (f : W32) : Except DecodeError Instr :=
  match f.fn.val with
  | 0 => do let g ← f.guardR; return .bindS g f.d f.a f.b
  | 1 => do let g ← f.guardR; need (f.d == 0 && f.b == 0); return .unbind g f.a
  | 2 => do let g ← f.guardR; need (f.d == 0); return .arm g f.a f.b
  | 3 => do let g ← f.guardR; need (f.d == 0); return .hold g f.a f.b
  | 4 => do let g ← f.guardR; need (f.d == 0); return .rlse g f.a f.b
  | 5 => do let g ← f.guardR; need (f.b == 0); return .startL g f.d f.a
  | 6 => do let g ← f.guardR; need (f.b == 0); return .genrd g f.d f.a
  | 7 => do let g ← f.guardR; return .capq g f.d f.a f.b
  | _ => .error .illegal

/-- MAJ 0x22 (R206). -/
def dec22 (f : W32) : Except DecodeError Instr :=
  match f.fn.val with
  | 0 => do let g ← f.guardR; need (f.a == 0 && f.b == 0); return .ticket g f.d
  | 1 => do let g ← f.guardR; need (f.b == 0); return .poolcfg g f.d f.a
  | 2 => do let g ← f.guardR; need (f.d == 0 && f.b == 0); return .cntdn g f.a
  | 3 => do let g ← f.guardR; need (f.d == 0 && f.b == 0); return .cancel g f.a
  | 4 => do let g ← f.guardR; need (f.b == 0); return .cntrd g f.d f.a
  | _ => .error .illegal

/-- MAJ 0x23 (R206). -/
def dec23 (f : W32) : Except DecodeError Instr :=
  match f.fn.val with
  | 0 => do let g ← f.guardR; need (f.d == 0); return .ecw g f.a f.b
  | 1 => do let g ← f.guardR; need (f.b == 0); return .ecr g f.d f.a
  | 2 => do let g ← f.guardR; need (f.d == 0 && f.a == 0 && f.b == 0); return .ecpulse g
  | 3 => do let g ← f.guardR; need (f.b == 0); return .eccnt g f.d f.a
  | 4 => do let g ← f.guardR; need (f.d == 0); return .pcfg g f.a f.b
  | 5 => do let g ← f.guardR; need (f.b == 0); return .prd g f.d f.a
  | 6 => do let g ← f.guardR; need (f.d == 0 && f.b == 0); return .prst g f.a
  | 7 => do let g ← f.guardR; need (f.d == 0); return .tlbi g f.a f.b
  | _ => .error .illegal

/-- MAJ 0x24 (R206). -/
def dec24 (f : W32) : Except DecodeError Instr :=
  match f.fn.val with
  | 0 => .ok (.ldb f.guard f.d f.a f.imm10)
  | 1 => .ok (.ldh f.guard f.d f.a f.imm10)
  | 2 => .ok (.ldw f.guard f.d f.a f.imm10)
  | 3 => .ok (.ldd f.guard f.d f.a f.imm10)
  | 4 => .ok (.ldbu f.guard f.d f.a f.imm10)
  | 5 => .ok (.ldhu f.guard f.d f.a f.imm10)
  | 6 => .ok (.ldwu f.guard f.d f.a f.imm10)
  | _ => .error .illegal

/-- MAJ 0x25 (R206). -/
def dec25 (f : W32) : Except DecodeError Instr :=
  match f.fn.val with
  | 0 => .ok (.stb f.guard f.d f.a f.imm10)
  | 1 => .ok (.sth f.guard f.d f.a f.imm10)
  | 2 => .ok (.stw f.guard f.d f.a f.imm10)
  | 3 => .ok (.std f.guard f.d f.a f.imm10)
  | _ => .error .illegal

/-- MAJ 0x26 (R206). -/
def dec26 (f : W32) : Except DecodeError Instr :=
  match f.fn.val with
  | 0 => do let g ← f.guardR; return .ldxb g f.d f.a f.b
  | 1 => do let g ← f.guardR; return .ldxh g f.d f.a f.b
  | 2 => do let g ← f.guardR; return .ldxw g f.d f.a f.b
  | 3 => do let g ← f.guardR; return .ldxd g f.d f.a f.b
  | 4 => do let g ← f.guardR; return .ldxbu g f.d f.a f.b
  | 5 => do let g ← f.guardR; return .ldxhu g f.d f.a f.b
  | 6 => do let g ← f.guardR; return .ldxwu g f.d f.a f.b
  | _ => .error .illegal

/-- MAJ 0x27 (R206). -/
def dec27 (f : W32) : Except DecodeError Instr :=
  match f.fn.val with
  | 0 => do let g ← f.guardR; return .stxb g f.d f.a f.b
  | 1 => do let g ← f.guardR; return .stxh g f.d f.a f.b
  | 2 => do let g ← f.guardR; return .stxw g f.d f.a f.b
  | 3 => do let g ← f.guardR; return .stxd g f.d f.a f.b
  | _ => .error .illegal

/-- MAJ 0x28 (R206). -/
def dec28 (f : W32) : Except DecodeError Instr :=
  match f.fn.val with
  | 0 => .ok (.ldf f.guard f.d f.a f.imm10)
  | 1 => .ok (.ldk f.guard f.d f.a f.imm10)
  | 2 => .ok (.ste f.guard f.d f.a f.imm10)
  | 3 => .ok (.stf f.guard f.d f.a f.imm10)
  | 4 => do need (f.d == 0); return .sete f.guard f.a f.imm10
  | 5 => do need (f.d == 0); return .setf f.guard f.a f.imm10
  | 6 => do let d ← narrow 16 f.d; return .tfe f.guard d f.a f.imm10
  | _ => .error .illegal

/-- MAJ 0x29 (R206). -/
def dec29 (f : W32) : Except DecodeError Instr :=
  match f.fn.val with
  | 0 => .ok (.ldgB f.guard f.d f.a f.policy f.off8)
  | 1 => .ok (.ldgH f.guard f.d f.a f.policy f.off8)
  | 2 => .ok (.ldgW f.guard f.d f.a f.policy f.off8)
  | 3 => .ok (.ldgD f.guard f.d f.a f.policy f.off8)
  | 4 => .ok (.ldgBu f.guard f.d f.a f.policy f.off8)
  | 5 => .ok (.ldgHu f.guard f.d f.a f.policy f.off8)
  | 6 => .ok (.ldgWu f.guard f.d f.a f.policy f.off8)
  | _ => .error .illegal

/-- MAJ 0x2A (R206). -/
def dec2A (f : W32) : Except DecodeError Instr :=
  match f.fn.val with
  | 0 => .ok (.stgB f.guard f.d f.a f.policy f.off8)
  | 1 => .ok (.stgH f.guard f.d f.a f.policy f.off8)
  | 2 => .ok (.stgW f.guard f.d f.a f.policy f.off8)
  | 3 => .ok (.stgD f.guard f.d f.a f.policy f.off8)
  | _ => .error .illegal

/-- MAJ 0x2B (R206). -/
def dec2B (f : W32) : Except DecodeError Instr :=
  match f.fn.val with
  | 0 => .ok (.ldcW f.guard f.d f.a f.imm10)
  | 1 => .ok (.ldcD f.guard f.d f.a f.imm10)
  | 2 => .ok (.ldcWu f.guard f.d f.a f.imm10)
  | 3 => do let g ← f.guardR; need (f.d == 0 && f.a == 0 && f.b == 0); return .cinvC g
  | 4 => do need (f.d == 0); return .cfl f.guard f.a f.imm10
  | 5 => do need (f.d == 0); return .cinvl f.guard f.a f.imm10
  | 6 => do need (f.d == 0); return .cpf f.guard f.a f.imm10
  | _ => .error .illegal

/-- MAJ 0x2C (R206). -/
def dec2C (f : W32) : Except DecodeError Instr :=
  match f.fn.val with
  | 0 => do let g ← f.guardR; return .aadd g f.d f.a f.b
  | 1 => do let g ← f.guardR; return .aand g f.d f.a f.b
  | 2 => do let g ← f.guardR; return .aor g f.d f.a f.b
  | 3 => do let g ← f.guardR; return .axor g f.d f.a f.b
  | 4 => do let g ← f.guardR; return .amin g f.d f.a f.b
  | 5 => do let g ← f.guardR; return .amax g f.d f.a f.b
  | 6 => do let g ← f.guardR; return .aminu g f.d f.a f.b
  | 7 => do let g ← f.guardR; return .aswap g f.d f.a f.b
  | _ => .error .illegal

/-- MAJ 0x2D (R206). -/
def dec2D (f : W32) : Except DecodeError Instr :=
  match f.fn.val with
  | 0 => do let g ← f.guardR; return .acas g f.d f.a f.b
  | 1 => do let g ← f.guardR; need (f.d == 0); return .redadd g f.a f.b
  | 2 => do let g ← f.guardR; need (f.d == 0); return .redand g f.a f.b
  | 3 => do let g ← f.guardR; need (f.d == 0); return .redor g f.a f.b
  | 4 => do let g ← f.guardR; need (f.d == 0); return .redxor g f.a f.b
  | 5 => do let g ← f.guardR; need (f.d == 0); return .redmin g f.a f.b
  | 6 => do let g ← f.guardR; need (f.d == 0); return .redmax g f.a f.b
  | _ => .error .illegal

/-- MAJ 0x2E (R206). -/
def dec2E (f : W32) : Except DecodeError Instr :=
  match f.fn.val with
  | 0 => do let g ← f.guardR; let scope ← decScope f.a; need (f.d == 0 && f.b == 0); return .fenceAcq g scope
  | 1 => do let g ← f.guardR; let scope ← decScope f.a; need (f.d == 0 && f.b == 0); return .fenceRel g scope
  | 2 => do let g ← f.guardR; let scope ← decScope f.a; need (f.d == 0 && f.b == 0); return .fenceFull g scope
  | _ => .error .illegal

/-- MAJ 0x2F (R206). -/
def dec2F (f : W32) : Except DecodeError Instr :=
  match f.fn.val with
  | 0 => do let g ← f.guardR; let scope ← decScope f.b; return .ldaD g f.d f.a scope
  | 1 => do let g ← f.guardR; let scope ← decScope f.b; return .stlD g f.d f.a scope
  | 2 => do let g ← f.guardR; let scope ← decScope f.b; return .ldaW g f.d f.a scope
  | 3 => do let g ← f.guardR; let scope ← decScope f.b; return .stlW g f.d f.a scope
  | _ => .error .illegal

/-- MAJ 0x30 (R206). -/
def dec30 (f : W32) : Except DecodeError Instr :=
  match f.fn.val with
  | 0 => do let g ← f.guardR; return .ldv g f.d f.a f.b
  | 1 => do let g ← f.guardR; return .ldvn g f.d f.a f.b
  | 2 => do let g ← f.guardR; return .stv g f.d f.a f.b
  | 3 => do let g ← f.guardR; need (f.d == 0); return .recl g f.a f.b
  | 4 => do let g ← f.guardR; need (f.d == 0); return .hand g f.a f.b
  | _ => .error .illegal

/-- MAJ 0x31 (R206). -/
def dec31 (f : W32) : Except DecodeError Instr :=
  match f.fn.val with
  | 0 => do let g ← f.guardR; return .opush g f.d f.a f.b
  | 1 => do let g ← f.guardR; need (f.b == 0); return .opop g f.d f.a
  | 2 => do let g ← f.guardR; need (f.b == 0); return .ocnt g f.d f.a
  | _ => .error .illegal

/-- MAJ 0x32 (R206). -/
def dec32 (f : W32) : Except DecodeError Instr :=
  match f.fn.val with
  | 0 => do let g ← f.guardR; return .vaddW g f.d f.a f.b
  | 1 => do let g ← f.guardR; return .vsubW g f.d f.a f.b
  | 2 => do let g ← f.guardR; return .vmulW g f.d f.a f.b
  | 3 => do let g ← f.guardR; return .vmulhW g f.d f.a f.b
  | 4 => do let g ← f.guardR; return .vminW g f.d f.a f.b
  | 5 => do let g ← f.guardR; return .vmaxW g f.d f.a f.b
  | 6 => do let g ← f.guardR; return .vminuW g f.d f.a f.b
  | 7 => do let g ← f.guardR; return .vmaxuW g f.d f.a f.b
  | _ => .error .illegal

/-- MAJ 0x33 (R206). -/
def dec33 (f : W32) : Except DecodeError Instr :=
  match f.fn.val with
  | 0 => do let g ← f.guardR; return .vaddH g f.d f.a f.b
  | 1 => do let g ← f.guardR; return .vsubH g f.d f.a f.b
  | 2 => do let g ← f.guardR; return .vmulH g f.d f.a f.b
  | 3 => do let g ← f.guardR; return .vmulhH g f.d f.a f.b
  | 4 => do let g ← f.guardR; return .vminH g f.d f.a f.b
  | 5 => do let g ← f.guardR; return .vmaxH g f.d f.a f.b
  | 6 => do let g ← f.guardR; return .vminuH g f.d f.a f.b
  | 7 => do let g ← f.guardR; return .vmaxuH g f.d f.a f.b
  | _ => .error .illegal

/-- MAJ 0x34 (R206). -/
def dec34 (f : W32) : Except DecodeError Instr :=
  match f.fn.val with
  | 0 => do let g ← f.guardR; return .vaddB g f.d f.a f.b
  | 1 => do let g ← f.guardR; return .vsubB g f.d f.a f.b
  | 2 => do let g ← f.guardR; return .vaddsB g f.d f.a f.b
  | 3 => do let g ← f.guardR; return .vsubsB g f.d f.a f.b
  | 4 => do let g ← f.guardR; return .vminB g f.d f.a f.b
  | 5 => do let g ← f.guardR; return .vmaxB g f.d f.a f.b
  | 6 => do let g ← f.guardR; return .vminuB g f.d f.a f.b
  | 7 => do let g ← f.guardR; return .vmaxuB g f.d f.a f.b
  | _ => .error .illegal

/-- MAJ 0x35 (R206). -/
def dec35 (f : W32) : Except DecodeError Instr :=
  match f.fn.val with
  | 0 => do let g ← f.guardR; return .vand g f.d f.a f.b
  | 1 => do let g ← f.guardR; return .vor g f.d f.a f.b
  | 2 => do let g ← f.guardR; return .vxor g f.d f.a f.b
  | 3 => do let g ← f.guardR; return .vandn g f.d f.a f.b
  | 4 => do let g ← f.guardR; return .vshlW g f.d f.a f.b
  | 5 => do let g ← f.guardR; return .vshrW g f.d f.a f.b
  | 6 => do let g ← f.guardR; return .vsraW g f.d f.a f.b
  | 7 => do let g ← f.guardR; need (f.b == 0); return .vnot g f.d f.a
  | _ => .error .illegal

/-- MAJ 0x36 (R206). -/
def dec36 (f : W32) : Except DecodeError Instr :=
  match f.fn.val with
  | 0 => do let g ← f.guardR; return .vfaddS g f.d f.a f.b
  | 1 => do let g ← f.guardR; return .vfsubS g f.d f.a f.b
  | 2 => do let g ← f.guardR; return .vfmulS g f.d f.a f.b
  | 3 => do let g ← f.guardR; return .vfmaS g f.d f.a f.b
  | 4 => do let g ← f.guardR; return .vfminS g f.d f.a f.b
  | 5 => do let g ← f.guardR; return .vfmaxS g f.d f.a f.b
  | 6 => do let g ← f.guardR; need (f.b == 0); return .vfabsS g f.d f.a
  | 7 => do let g ← f.guardR; need (f.b == 0); return .vfnegS g f.d f.a
  | _ => .error .illegal

/-- MAJ 0x37 (R206). -/
def dec37 (f : W32) : Except DecodeError Instr :=
  match f.fn.val with
  | 0 => do let g ← f.guardR; return .vfaddBf g f.d f.a f.b
  | 1 => do let g ← f.guardR; return .vfsubBf g f.d f.a f.b
  | 2 => do let g ← f.guardR; return .vfmulBf g f.d f.a f.b
  | 3 => do let g ← f.guardR; return .vfmaBf g f.d f.a f.b
  | 4 => do let g ← f.guardR; return .vfminBf g f.d f.a f.b
  | 5 => do let g ← f.guardR; return .vfmaxBf g f.d f.a f.b
  | 6 => do let g ← f.guardR; return .vfdotBf g f.d f.a f.b
  | _ => .error .illegal

/-- MAJ 0x38 (R206). -/
def dec38 (f : W32) : Except DecodeError Instr :=
  match f.fn.val with
  | 0 => do let g ← f.guardR; need (f.b == 0); return .vrcpS g f.d f.a
  | 1 => do let g ← f.guardR; need (f.b == 0); return .vrsqS g f.d f.a
  | 2 => do let g ← f.guardR; need (f.b == 0); return .vexp2S g f.d f.a
  | 3 => do let g ← f.guardR; need (f.b == 0); return .vlog2S g f.d f.a
  | 4 => do let g ← f.guardR; need (f.b == 0); return .vsqrtS g f.d f.a
  | 5 => do let g ← f.guardR; return .vdivS g f.d f.a f.b
  | 6 => do let g ← f.guardR; need (f.b == 0); return .vfloorS g f.d f.a
  | 7 => do let g ← f.guardR; need (f.b == 0); return .vtanhS g f.d f.a
  | _ => .error .illegal

/-- MAJ 0x39 (R206). -/
def dec39 (f : W32) : Except DecodeError Instr :=
  do let g ← f.guardR; let p := low 16 f.d; return if f.d.val < 16 then .vcmp g p f.a f.b (decICond f.fn) else .vcmpF g p f.a f.b (decFCond f.fn)

/-- MAJ 0x3A (R206). -/
def dec3A (f : W32) : Except DecodeError Instr :=
  match f.fn.val with
  | 0 => do let g ← f.guardR; need (f.b == 0); return .vbcast g f.d f.a
  | 1 => do let g ← f.guardR; need (f.b == 0); return .vbcastf g f.d f.a
  | 2 => do let g ← f.guardR; return .vext g f.d f.a f.b
  | 3 => do let g ← f.guardR; return .vins g f.d f.a f.b
  | 4 => do let g ← f.guardR; return .vperm g f.d f.a f.b
  | 5 => do let g ← f.guardR; need (f.a == 0 && f.b == 0); return .viota g f.d
  | 6 => do let g ← f.guardR; need (f.b == 0); return .vmov g f.d f.a
  | 7 => do let g ← f.guardR; return .vslide g f.d f.a f.b
  | _ => .error .illegal

/-- MAJ 0x3B (R206). -/
def dec3B (f : W32) : Except DecodeError Instr :=
  match f.fn.val with
  | 0 => .ok (.vld f.guard f.d f.a f.imm10)
  | 1 => .ok (.vst f.guard f.d f.a f.imm10)
  | 2 => .ok (.vldf f.guard f.d f.a f.imm10)
  | 3 => .ok (.vste f.guard f.d f.a f.imm10)
  | _ => .error .illegal

/-- MAJ 0x3C (R206). -/
def dec3C (f : W32) : Except DecodeError Instr :=
  match f.fn.val with
  | 0 => do let g ← f.guardR; return .vlds g f.d f.a f.b
  | 1 => do let g ← f.guardR; return .vsts g f.d f.a f.b
  | 2 => do let g ← f.guardR; return .vgath g f.d f.a f.b
  | 3 => do let g ← f.guardR; return .vscat g f.d f.a f.b
  | 4 => do let g ← f.guardR; need (f.b == 0); return .vstf g f.d f.a
  | _ => .error .illegal

/-- MAJ 0x3D (R206). -/
def dec3D (f : W32) : Except DecodeError Instr :=
  match f.fn.val with
  | 0 => do let g ← f.guardR; need (f.b == 0); return .vrsumS g f.d f.a
  | 1 => do let g ← f.guardR; need (f.b == 0); return .vrmaxS g f.d f.a
  | 2 => do let g ← f.guardR; need (f.b == 0); return .vrminS g f.d f.a
  | 3 => do let g ← f.guardR; need (f.b == 0); return .vrsumW g f.d f.a
  | 4 => do let g ← f.guardR; need (f.b == 0); return .vscanS g f.d f.a
  | 5 => do let g ← f.guardR; need (f.b == 0); return .vcavS g f.d f.a
  | 6 => do let g ← f.guardR; need (f.b == 0); return .vcavmS g f.d f.a
  | 7 => do let g ← f.guardR; return .vdot4B g f.d f.a f.b
  | _ => .error .illegal

/-- MAJ 0x3E (R206). -/
def dec3E (f : W32) : Except DecodeError Instr :=
  match f.fn.val with
  | 0 => do let g ← f.guardR; need (f.b == 0); return .vcvtSBf g f.d f.a
  | 1 => do let g ← f.guardR; need (f.b == 0); return .vcvtBfS g f.d f.a
  | 2 => do let g ← f.guardR; need (f.b == 0); return .vcvtSW g f.d f.a
  | 3 => do let g ← f.guardR; need (f.b == 0); return .vcvtWS g f.d f.a
  | 4 => do let g ← f.guardR; return .vcvtE4S g f.d f.a f.b
  | 5 => do let g ← f.guardR; return .vcvtSE4 g f.d f.a f.b
  | 6 => do let g ← f.guardR; return .vcvtE5S g f.d f.a f.b
  | 7 => do let g ← f.guardR; return .vcvtSE5 g f.d f.a f.b
  | _ => .error .illegal

/-- MAJ 0x3F (R206). -/
def dec3F (f : W32) : Except DecodeError Instr :=
  match f.fn.val with
  | 0 => do let g ← f.guardR; need (decide (f.a.val ≤ 28)); need (f.b == 0); return .xqW g f.d f.a
  | 1 => do let g ← f.guardR; need (decide (f.a.val ≤ 28)); need (f.b == 0); return .xqT g f.d f.a
  | 2 => do let g ← f.guardR; need (f.b == 0); return .xdone g f.d f.a
  | 3 => do let g ← f.guardR; need (f.d == 0); return .xwait g f.a f.b
  | 4 => do let g ← f.guardR; return .xstat g f.d f.a f.b
  | 5 => do let g ← f.guardR; need (f.d == 0 && f.b == 0); return .xclr g f.a
  | 6 => do let g ← f.guardR; return .xenc g f.d f.a f.b
  | 7 => do let g ← f.guardR; need (f.b == 0); return .xdec g f.d f.a
  | _ => .error .illegal

/-- Decode the fields of a 32-bit instruction: R206, R207. -/
def decodeW32 (f : W32) : Except DecodeError Instr :=
  match f.maj.val with
  | 1 => dec01 f
  | 2 => dec02 f
  | 3 => dec03 f
  | 4 => dec04 f
  | 5 => dec05 f
  | 6 => dec06 f
  | 7 => dec07 f
  | 8 => dec08 f
  | 9 => dec09 f
  | 10 => dec0A f
  | 11 => dec0B f
  | 12 => dec0C f
  | 13 => dec0D f
  | 14 => dec0E f
  | 15 => dec0F f
  | 16 => dec10 f
  | 17 => dec11 f
  | 18 => dec12 f
  | 19 => dec13 f
  | 20 => dec14 f
  | 21 => dec15 f
  | 22 => dec16 f
  | 23 => dec17 f
  | 24 => dec18 f
  | 25 => dec19 f
  | 26 => dec1A f
  | 27 => dec1B f
  | 28 => dec1C f
  | 29 => dec1D f
  | 30 => dec1E f
  | 31 => dec1F f
  | 32 => dec20 f
  | 33 => dec21 f
  | 34 => dec22 f
  | 35 => dec23 f
  | 36 => dec24 f
  | 37 => dec25 f
  | 38 => dec26 f
  | 39 => dec27 f
  | 40 => dec28 f
  | 41 => dec29 f
  | 42 => dec2A f
  | 43 => dec2B f
  | 44 => dec2C f
  | 45 => dec2D f
  | 46 => dec2E f
  | 47 => dec2F f
  | 48 => dec30 f
  | 49 => dec31 f
  | 50 => dec32 f
  | 51 => dec33 f
  | 52 => dec34 f
  | 53 => dec35 f
  | 54 => dec36 f
  | 55 => dec37 f
  | 56 => dec38 f
  | 57 => dec39 f
  | 58 => dec3A f
  | 59 => dec3B f
  | 60 => dec3C f
  | 61 => dec3D f
  | 62 => dec3E f
  | 63 => dec3F f
  | _ => .error .illegal

/-! ## 16-bit instructions -/

/-- The branch-target register, sense and predicate of GO and CALL: [10:8], [7], [6:3] (R205). -/
def W16.bn (f : W16) : Fin 8 := lowN 8 (f.d.val / 4)

/-- [7]. -/
def W16.sense (f : W16) : Bool := decide (f.d.val / 2 % 2 = 1)

/-- [6:3]. -/
def W16.pn (f : W16) : PReg := lowN 16 (f.d.val % 2 * 8 + f.lo.val / 8)

/-- Format 0b00: register pairs. -/
def decPair (f : W16) : Except DecodeError Instr := do
  need (decide (f.lo.val % 2 = 0))
  let a := lowN 32 (f.lo.val / 2)
  match f.op.val with
  | 0 => if f.d = 0 ∧ f.lo = 0 then .error .illegal else .ok (.movC f.d a)
  | 1 => .ok (.addC f.d a)
  | 2 => .ok (.subC f.d a)
  | 3 => .ok (.andC f.d a)
  | 4 => .ok (.orC f.d a)
  | 5 => .ok (.xorC f.d a)
  | 6 => .ok (.lddC f.d a)
  | _ => .ok (.stdC f.d a)

/-- Format 0b01: six-bit immediates. -/
def decImm (f : W16) : Except DecodeError Instr :=
  match f.op.val with
  | 0 => .ok (.addiC f.d (sx 6 f.lo.val))
  | 1 => .ok (.ldiC f.d (sx 6 f.lo.val))
  | 2 => .ok (.shliC f.d f.lo.val)
  | 3 => .ok (.shriC f.d f.lo.val)
  | 4 => .ok (.sraiC f.d f.lo.val)
  | 5 => .ok (.andiC f.d (sx 6 f.lo.val))
  | 6 => .ok (.ldsC f.d f.lo.val)
  | _ => .ok (.stsC f.d f.lo.val)

/-- Format 0b10: transfers and the misc group. -/
def decGo (f : W16) : Except DecodeError Instr :=
  match f.op.val with
  | 0 => do need (decide (f.lo.val % 8 = 0)); need (!f.sense && f.pn == 0); return .go f.bn
  | 1 => do need (decide (f.lo.val % 8 = 0)); return .goGuarded f.bn f.sense f.pn
  | 2 => do need (decide (f.lo.val % 8 = 0)); need (!f.sense && f.pn == 0); return .call f.bn
  | 3 => do need (decide (f.lo.val % 8 = 0)); return .callGuarded f.bn f.sense f.pn
  | 4 =>
    match f.d.val * 64 + f.lo.val with
    | 0 => .ok .nopC
    | 1 => .ok .endC
    | 2 => .ok .beatC
    | 3 => .ok .syncC
    | 5 => .ok .brkC
    | _ => .error .illegal
  | _ => .error .illegal

/-- Decode the fields of a 16-bit instruction. -/
def decodeW16 (f : W16) : Except DecodeError Instr :=
  match f.fmt.val with
  | 0 => decPair f
  | 1 => decImm f
  | 2 => decGo f
  | _ => .error .illegal

/-! ## Words and bytes (R201, R202, R205) -/

/-- The fields of a 32-bit number. -/
def W32.ofNat (w : Nat) : W32 :=
  { g := decide (w / 2 ^ 29 % 2 = 1), x := lowN 32 (w / 2 ^ 24), maj := lowN 64 (w / 2 ^ 18), d := lowN 32 (w / 2 ^ 13),
    a := lowN 32 (w / 2 ^ 8), b := lowN 32 (w / 8), fn := lowN 8 w }

/-- The fields of a 16-bit number. -/
def W16.ofNat (h : Nat) : W16 :=
  { fmt := lowN 4 (h / 2 ^ 14), op := lowN 8 (h / 2 ^ 11), d := lowN 32 (h / 64), lo := lowN 64 h }

/-- The instruction at the head of a list of bytes, with its length: the high halfword comes first, each halfword is
little-endian (R5, R201). -/
def decode : List Byte → Except DecodeError (Instr × Nat)
  | b0 :: b1 :: rest =>
    let h := b0.toNat + 256 * b1.toNat
    if h / 2 ^ 14 = 3 then
      match rest with
      | b2 :: b3 :: _ => (decodeW32 (W32.ofNat (h * 65536 + b2.toNat + 256 * b3.toNat))).map fun i => (i, 4)
      | _ => .error .short
    else (decodeW16 (W16.ofNat h)).map fun i => (i, 2)
  | _ => .error .short

/-! ## The encoder -/

/-- The fields of an instruction of either size. -/
inductive Fields where
  | w32 (f : W32)
  | w16 (f : W16)
deriving DecidableEq, Repr

/-- G and [28:24] of a guard. -/
def encGuard : Guard → Bool × Fin 32
  | .always => (false, 0)
  | .onSet p => (true, widen p)
  | .onClear p => (true, raise p)

/-- Form R. -/
def encR (g : Guard) (maj : Fin 64) (d a b : Fin 32) (fn : Fin 8) : W32 :=
  ⟨(encGuard g).1, (encGuard g).2, maj, d, a, b, fn⟩

/-- Form I. -/
def encI (g : Guard) (maj : Fin 64) (d a : Fin 32) (imm : Int) : W32 :=
  if g.isGuarded then ⟨true, (encGuard g).2, maj, d, a, lowN 32 (wrap 8 imm / 8), lowN 8 (wrap 8 imm)⟩
  else ⟨false, lowN 32 (wrap 13 imm / 256), maj, d, a, lowN 32 (wrap 13 imm / 8), lowN 8 (wrap 13 imm)⟩

/-- Forms IC and M. -/
def encIC (g : Guard) (maj : Fin 64) (d a : Fin 32) (imm : Int) (fn : Fin 8) : W32 :=
  if g.isGuarded then ⟨true, (encGuard g).2, maj, d, a, lowN 32 (wrap 5 imm), fn⟩
  else ⟨false, lowN 32 (wrap 10 imm / 32), maj, d, a, lowN 32 (wrap 10 imm), fn⟩

/-- Policy codes. -/
def encPolicy : Policy → Nat
  | .normal => 0 | .stream => 1 | .keep => 2 | .nol1 => 3

/-- Form MP. -/
def encMP (g : Guard) (maj : Fin 64) (d a : Fin 32) (pol : Policy) (off : Int) (fn : Fin 8) : W32 :=
  if g.isGuarded then ⟨true, (encGuard g).2, maj, d, a, lowN 32 (encPolicy pol * 8 + wrap 3 off), fn⟩
  else ⟨false, lowN 32 (wrap 8 off / 8), maj, d, a, lowN 32 (encPolicy pol * 8 + wrap 8 off % 8), fn⟩

/-- Form L. -/
def encL (maj : Fin 64) (d : Fin 32) (imm : Nat) : W32 :=
  ⟨false, lowN 32 (imm / 8192), maj, d, lowN 32 (imm / 256), lowN 32 (imm / 8), lowN 8 imm⟩

/-- Integer condition codes. -/
def encICond : ICond → Fin 8
  | .eq => 0 | .ne => 1 | .lt => 2 | .ge => 3 | .ltu => 4 | .geu => 5 | .tst => 6 | .ntst => 7

/-- Floating-point condition codes. -/
def encFCond : FCond → Fin 8
  | .eq => 0 | .ne => 1 | .lt => 2 | .le => 3 | .gt => 4 | .ge => 5 | .un => 6 | .ord => 7

/-- Scope codes. -/
def encScope : Scope → Fin 32
  | .ctx => 0 | .core => 1 | .landing => 2 | .die => 3 | .device => 4 | .domain => 5 | .system => 6

/-- FCVT modes. -/
def encMode : FcvtMode → Fin 32
  | .fmode => 0 | .rne => 1 | .rtz => 2 | .rup => 3 | .rdn => 4

/-- MMA formats. -/
def encFmt : MmaFmt → Fin 8
  | .xf8 => 0 | .f8 => 1 | .g8 => 2 | .bf16 => 3 | .i8 => 4 | .s4 => 5 | .s2 => 6

/-- GO and CALL. -/
def encB (op : Fin 8) (n : Fin 8) (sense : Bool) (p : PReg) : W16 :=
  ⟨2, op, lowN 32 (n.val * 4 + (if sense then 2 else 0) + p.val / 8), lowN 64 (p.val % 8 * 8)⟩

/-- The fields of an instruction word, from the encoding tables (R204 to R206); none for a happening. -/
def Instr.fields : Instr → Option Fields
  | .eventArrival _ => none
  | .holdBackEntry _ => none
  | .reactionStart _ => none
  | .headStaleDiscard _ => none
  | .cancelledEventDiscard _ => none
  | .joinGraceExpired _ => none
  | .poolUnitStart _ => none
  | .heartbeatMissed _ _ => none
  | .sendDeparture _ => none
  | .slotChangeEffect _ _ => none
  | .crossbarCounterZero _ _ => none
  | .crossbarLocalEventEntry _ _ => none
  | .copyRequestStart _ _ => none
  | .copyRequestComplete _ _ => none
  | .channelFault _ _ _ => none
  | .gangBarrierComplete _ => none
  | .mmaStep _ => none
  | .accumulatorLeavesOwnership _ => none
  | .mmaOperationFault _ => none
  | .mstoComplete _ _ => none
  | .collectiveRoundComplete _ => none
  | .collectiveAbortArrival _ _ => none
  | .mcastCompletionRecord _ _ => none
  | .objectOpAtRouter _ => none
  | .windowWaitExpired _ _ => none
  | .objectOpAtHome _ => none
  | .splitPhaseReply _ _ _ => none
  | .stvApply _ _ _ => none
  | .reclApply _ _ _ => none
  | .capabilityArrival _ => none
  | .capqAnswer _ _ _ => none
  | .atomicAtHome _ _ _ => none
  | .storeGrant _ _ _ => none
  | .directoryOverflowNotice _ _ => none
  | .overflowInvalidation _ => none
  | .tlbWalkComplete _ _ => none
  | .prefetchComplete _ _ _ => none
  | .wsRefreshWindow => none
  | .streamElementAccess _ _ => none
  | .feWaiterService _ => none
  | .waitSatisfied _ _ => none
  | .detRoundClose _ => none
  | .trapEntry _ => none
  | .trapBudgetExpired _ => none
  | .machineCheck _ _ _ => none
  | .fenceRelease _ _ => none
  | .hostEventCommit _ => none
  | .launchCommit _ => none
  | .launchSetupResume _ => none
  | .setCounterCommit _ => none
  | .cancelCommit _ => none
  | .checkpointCutCommit _ => none
  | .cutSave => none
  | .cutMarkerArrival _ _ => none
  | .checkpointDrainCommit _ => none
  | .drainComplete => none
  | .hqheadWrite _ _ => none
  | .fallbackReplyCommit _ _ => none
  | .atomicopUnsupported _ _ _ => none
  | .ptmExchange _ => none
  | .timestampExchange _ _ _ _ _ _ => none
  | .freeze _ => none
  | .resume _ => none
  | .coordinatedFreezeInstant => none
  | .coordinatedResumeInstant => none
  | .packetArrival _ _ => none
  | .linkDown _ => none
  | .e2eRetryTimeout _ => none
  | .e2eAckArrival _ _ => none
  | .linkKeyRenewal _ => none
  | .powerCapThrottle _ => none
  | .thermalLimit _ => none
  | .powerCapSet _ => none
  | .pldmFirmwareUpdate _ _ => none
  | .pldmMonitor => none
  | .spdmAttestation _ => none
  | .firmwareBootVerify _ _ _ => none
  | .hostApertureAccess _ _ _ _ => none
  | .spillTakeRead _ _ => none
  | .spillPutWrite _ _ => none
  | .spillNWrite _ _ => none
  | .registerWrite _ _ => none
  | .linkBringUp _ => none
  | .add g d a b => some (.w32 (encR g 1 d a b 0))
  | .sub g d a b => some (.w32 (encR g 1 d a b 1))
  | .andR g d a b => some (.w32 (encR g 1 d a b 2))
  | .orR g d a b => some (.w32 (encR g 1 d a b 3))
  | .xor g d a b => some (.w32 (encR g 1 d a b 4))
  | .andn g d a b => some (.w32 (encR g 1 d a b 5))
  | .minS g d a b => some (.w32 (encR g 1 d a b 6))
  | .maxS g d a b => some (.w32 (encR g 1 d a b 7))
  | .minu g d a b => some (.w32 (encR g 2 d a b 0))
  | .maxu g d a b => some (.w32 (encR g 2 d a b 1))
  | .shl g d a b => some (.w32 (encR g 2 d a b 2))
  | .shr g d a b => some (.w32 (encR g 2 d a b 3))
  | .sra g d a b => some (.w32 (encR g 2 d a b 4))
  | .rol g d a b => some (.w32 (encR g 2 d a b 5))
  | .ror g d a b => some (.w32 (encR g 2 d a b 6))
  | .mov g d a => some (.w32 (encR g 2 d a 0 7))
  | .mul g d a b => some (.w32 (encR g 3 d a b 0))
  | .mulhiS g d a b => some (.w32 (encR g 3 d a b 1))
  | .mulhiU g d a b => some (.w32 (encR g 3 d a b 2))
  | .mulhiSu g d a b => some (.w32 (encR g 3 d a b 3))
  | .div g d a b => some (.w32 (encR g 3 d a b 4))
  | .divu g d a b => some (.w32 (encR g 3 d a b 5))
  | .rem g d a b => some (.w32 (encR g 3 d a b 6))
  | .remu g d a b => some (.w32 (encR g 3 d a b 7))
  | .clz g d a => some (.w32 (encR g 4 d a 0 0))
  | .ctz g d a => some (.w32 (encR g 4 d a 0 1))
  | .popc g d a => some (.w32 (encR g 4 d a 0 2))
  | .sextB g d a => some (.w32 (encR g 4 d a 0 3))
  | .sextH g d a => some (.w32 (encR g 4 d a 0 4))
  | .sextW g d a => some (.w32 (encR g 4 d a 0 5))
  | .zextH g d a => some (.w32 (encR g 4 d a 0 6))
  | .zextW g d a => some (.w32 (encR g 4 d a 0 7))
  | .lea g d a b c => some (.w32 (encR g 5 d a b c))
  | .yld g d a => some (.w32 (encR g 6 (widen d) a 0 0))
  | .ybase g d a => some (.w32 (encR g 6 (widen d) a 0 1))
  | .yext g d a n => some (.w32 (encR g 6 (widen d) a (widen n) 2))
  | .yrd g d a n => some (.w32 (encR g 6 d (widen a) (widen n) 3))
  | .sbind g d a => some (.w32 (encR g 6 (widen d) a 0 4))
  | .sunb g d => some (.w32 (encR g 6 (widen d) 0 0 5))
  | .slink g d a => some (.w32 (encR g 6 (widen d) a 0 6))
  | .sstat g d a => some (.w32 (encR g 6 d (widen a) 0 7))
  | .addw g d a b => some (.w32 (encR g 7 d a b 0))
  | .subw g d a b => some (.w32 (encR g 7 d a b 1))
  | .mulw g d a b => some (.w32 (encR g 7 d a b 2))
  | .shlw g d a b => some (.w32 (encR g 7 d a b 3))
  | .shrw g d a b => some (.w32 (encR g 7 d a b 4))
  | .sraw g d a b => some (.w32 (encR g 7 d a b 5))
  | .divw g d a b => some (.w32 (encR g 7 d a b 6))
  | .remw g d a b => some (.w32 (encR g 7 d a b 7))
  | .addi g d a imm => some (.w32 (encI g 8 d a imm))
  | .andi g d a imm => some (.w32 (encI g 9 d a imm))
  | .ori g d a imm => some (.w32 (encI g 10 d a imm))
  | .xori g d a imm => some (.w32 (encI g 11 d a imm))
  | .shli g d a imm => some (.w32 (encIC g 12 d a imm 0))
  | .shri g d a imm => some (.w32 (encIC g 12 d a imm 1))
  | .srai g d a imm => some (.w32 (encIC g 12 d a imm 2))
  | .roli g d a imm => some (.w32 (encIC g 12 d a imm 3))
  | .ldi d imm => some (.w32 (encL 13 d (wrap 18 imm)))
  | .seth d imm16 pos => some (.w32 (encL 14 d (pos.val * 65536 + imm16.toNat)))
  | .cmpi g d a imm cc => some (.w32 (encIC g 15 (widen d) a imm (encICond cc)))
  | .cmp g d a b cc => some (.w32 (encR g 16 (widen d) a b (encICond cc)))
  | .fcmp g d a b cc => some (.w32 (encR g 17 (widen d) a b (encFCond cc)))
  | .pand g d a b => some (.w32 (encR g 18 (widen d) (widen a) (widen b) 0))
  | .por g d a b => some (.w32 (encR g 18 (widen d) (widen a) (widen b) 1))
  | .pxor g d a b => some (.w32 (encR g 18 (widen d) (widen a) (widen b) 2))
  | .pandn g d a b => some (.w32 (encR g 18 (widen d) (widen a) (widen b) 3))
  | .pnot g d a => some (.w32 (encR g 18 (widen d) (widen a) 0 4))
  | .pmov g d a => some (.w32 (encR g 18 (widen d) (widen a) 0 5))
  | .pall g d a => some (.w32 (encR g 18 (widen d) (widen a) 0 6))
  | .pnone g d a => some (.w32 (encR g 18 (widen d) (widen a) 0 7))
  | .pfirst g d a => some (.w32 (encR g 19 (widen d) (widen a) 0 0))
  | .pcnt g d a => some (.w32 (encR g 19 d (widen a) 0 1))
  | .ptox g d a => some (.w32 (encR g 19 d (widen a) 0 2))
  | .xtop g d a => some (.w32 (encR g 19 (widen d) a 0 3))
  | .pffs g d a => some (.w32 (encR g 19 d (widen a) 0 4))
  | .fmvxf g d a => some (.w32 (encR g 19 d a 0 5))
  | .fmvfx g d a => some (.w32 (encR g 19 d a 0 6))
  | .fkind g d a => some (.w32 (encR g 19 d a 0 7))
  | .fadd g d a b => some (.w32 (encR g 20 d a b 0))
  | .fsub g d a b => some (.w32 (encR g 20 d a b 1))
  | .fmul g d a b => some (.w32 (encR g 20 d a b 2))
  | .fdiv g d a b => some (.w32 (encR g 20 d a b 3))
  | .fmin g d a b => some (.w32 (encR g 20 d a b 4))
  | .fmax g d a b => some (.w32 (encR g 20 d a b 5))
  | .fsqrt g d a => some (.w32 (encR g 20 d a 0 6))
  | .fsgn g d a b => some (.w32 (encR g 20 d a b 7))
  | .fma g d a b => some (.w32 (encR g 21 d a b 0))
  | .fms g d a b => some (.w32 (encR g 21 d a b 1))
  | .fabs g d a => some (.w32 (encR g 21 d a 0 2))
  | .fneg g d a => some (.w32 (encR g 21 d a 0 3))
  | .fcvtXf g d a mode => some (.w32 (encR g 21 d a (encMode mode) 4))
  | .fcvtFx g d a mode => some (.w32 (encR g 21 d a (encMode mode) 5))
  | .fcvtUf g d a mode => some (.w32 (encR g 21 d a (encMode mode) 6))
  | .fcvtFu g d a mode => some (.w32 (encR g 21 d a (encMode mode) 7))
  | .cgrp g d a => some (.w32 (encR g 22 d a 0 0))
  | .cinj g a b => some (.w32 (encR g 22 0 a b 1))
  | .cinjHld g a b => some (.w32 (encR g 22 1 a b 1))
  | .cext g d a => some (.w32 (encR g 22 d a 0 2))
  | .cstat g d a => some (.w32 (encR g 22 d a 0 3))
  | .cabort g a => some (.w32 (encR g 22 0 a 0 4))
  | .cfree g a => some (.w32 (encR g 22 0 a 0 5))
  | .cinjx g a b => some (.w32 (encR g 22 0 a b 6))
  | .cinjxHld g a b => some (.w32 (encR g 22 1 a b 6))
  | .cextx g a b => some (.w32 (encR g 22 0 a b 7))
  | .mma c n a b fmt => some (.w32 ⟨false, widen c, 23, widen n, a, b, encFmt fmt⟩)
  | .prep n off => some (.w32 (encL 24 (widen n) (wrap 18 off)))
  | .prepx g n a => some (.w32 (encR g 25 (widen n) a 0 0))
  | .mfb g d n => some (.w32 (encR g 25 d (widen n) 0 1))
  | .mtb g n a => some (.w32 (encR g 25 (widen n) a 0 2))
  | .clrb g n => some (.w32 (encR g 25 (widen n) 0 0 3))
  | .tstb g d n => some (.w32 (encR g 25 (widen d) (widen n) 0 4))
  | .nop g => some (.w32 (encR g 26 0 0 0 0))
  | .endL g => some (.w32 (encR g 26 0 0 0 1))
  | .halt g => some (.w32 (encR g 26 0 0 0 2))
  | .brk g => some (.w32 (encR g 26 0 0 0 3))
  | .eret g => some (.w32 (encR g 26 0 0 0 4))
  | .syncCL g => some (.w32 (encR g 26 0 0 0 5))
  | .beatL g => some (.w32 (encR g 26 0 0 0 6))
  | .idle g a => some (.w32 (encR g 26 0 a 0 7))
  | .trap g imm => some (.w32 (encI g 27 0 0 imm))
  | .mfs d sp => some (.w32 (encL 28 d sp.num))
  | .mts sp d => some (.w32 (encL 29 d sp.num))
  | .tagt g d => some (.w32 (encR g 30 d 0 0 0))
  | .tagm g d => some (.w32 (encR g 30 d 0 0 1))
  | .clk g d => some (.w32 (encR g 30 d 0 0 2))
  | .horz g d => some (.w32 (encR g 30 d 0 0 3))
  | .lastt g d => some (.w32 (encR g 30 d 0 0 4))
  | .lastm g d => some (.w32 (encR g 30 d 0 0 5))
  | .bound g d a => some (.w32 (encR g 30 d a 0 6))
  | .ebnd g d a => some (.w32 (encR g 30 d a 0 7))
  | .mwait g n => some (.w32 (encR g 31 (widen n) 0 0 0))
  | .mzero g n => some (.w32 (encR g 31 (widen n) 0 0 1))
  | .mrd g d a b => some (.w32 (encR g 31 d (widen a) b 2))
  | .mstoS g n a => some (.w32 (encR g 31 (widen n) a 0 3))
  | .mstoBf g n a => some (.w32 (encR g 31 (widen n) a 0 4))
  | .gang g a => some (.w32 (encR g 31 0 a 0 5))
  | .mstat g d => some (.w32 (encR g 31 d 0 0 6))
  | .send g d a b => some (.w32 (encR g 32 d a b 0))
  | .send2 g d a b => some (.w32 (encR g 32 d a b 1))
  | .send4 g d a b => some (.w32 (encR g 32 d a b 2))
  | .sendv g d a b => some (.w32 (encR g 32 d a b 3))
  | .sendb g d a b => some (.w32 (encR g 32 d a b 4))
  | .mcast g d a b => some (.w32 (encR g 32 d a b 5))
  | .sendh g d a => some (.w32 (encR g 32 d a 0 6))
  | .bindS g d a b => some (.w32 (encR g 33 d a b 0))
  | .unbind g a => some (.w32 (encR g 33 0 a 0 1))
  | .arm g a b => some (.w32 (encR g 33 0 a b 2))
  | .hold g a b => some (.w32 (encR g 33 0 a b 3))
  | .rlse g a b => some (.w32 (encR g 33 0 a b 4))
  | .startL g d a => some (.w32 (encR g 33 d a 0 5))
  | .genrd g d a => some (.w32 (encR g 33 d a 0 6))
  | .capq g d a b => some (.w32 (encR g 33 d a b 7))
  | .ticket g d => some (.w32 (encR g 34 d 0 0 0))
  | .poolcfg g d a => some (.w32 (encR g 34 d a 0 1))
  | .cntdn g a => some (.w32 (encR g 34 0 a 0 2))
  | .cancel g a => some (.w32 (encR g 34 0 a 0 3))
  | .cntrd g d a => some (.w32 (encR g 34 d a 0 4))
  | .ecw g a b => some (.w32 (encR g 35 0 a b 0))
  | .ecr g d a => some (.w32 (encR g 35 d a 0 1))
  | .ecpulse g => some (.w32 (encR g 35 0 0 0 2))
  | .eccnt g d a => some (.w32 (encR g 35 d a 0 3))
  | .pcfg g a b => some (.w32 (encR g 35 0 a b 4))
  | .prd g d a => some (.w32 (encR g 35 d a 0 5))
  | .prst g a => some (.w32 (encR g 35 0 a 0 6))
  | .tlbi g a b => some (.w32 (encR g 35 0 a b 7))
  | .ldb g d a off => some (.w32 (encIC g 36 d a off 0))
  | .ldh g d a off => some (.w32 (encIC g 36 d a off 1))
  | .ldw g d a off => some (.w32 (encIC g 36 d a off 2))
  | .ldd g d a off => some (.w32 (encIC g 36 d a off 3))
  | .ldbu g d a off => some (.w32 (encIC g 36 d a off 4))
  | .ldhu g d a off => some (.w32 (encIC g 36 d a off 5))
  | .ldwu g d a off => some (.w32 (encIC g 36 d a off 6))
  | .stb g d a off => some (.w32 (encIC g 37 d a off 0))
  | .sth g d a off => some (.w32 (encIC g 37 d a off 1))
  | .stw g d a off => some (.w32 (encIC g 37 d a off 2))
  | .std g d a off => some (.w32 (encIC g 37 d a off 3))
  | .ldxb g d a b => some (.w32 (encR g 38 d a b 0))
  | .ldxh g d a b => some (.w32 (encR g 38 d a b 1))
  | .ldxw g d a b => some (.w32 (encR g 38 d a b 2))
  | .ldxd g d a b => some (.w32 (encR g 38 d a b 3))
  | .ldxbu g d a b => some (.w32 (encR g 38 d a b 4))
  | .ldxhu g d a b => some (.w32 (encR g 38 d a b 5))
  | .ldxwu g d a b => some (.w32 (encR g 38 d a b 6))
  | .stxb g d a b => some (.w32 (encR g 39 d a b 0))
  | .stxh g d a b => some (.w32 (encR g 39 d a b 1))
  | .stxw g d a b => some (.w32 (encR g 39 d a b 2))
  | .stxd g d a b => some (.w32 (encR g 39 d a b 3))
  | .ldf g d a off => some (.w32 (encIC g 40 d a off 0))
  | .ldk g d a off => some (.w32 (encIC g 40 d a off 1))
  | .ste g d a off => some (.w32 (encIC g 40 d a off 2))
  | .stf g d a off => some (.w32 (encIC g 40 d a off 3))
  | .sete g a off => some (.w32 (encIC g 40 0 a off 4))
  | .setf g a off => some (.w32 (encIC g 40 0 a off 5))
  | .tfe g d a off => some (.w32 (encIC g 40 (widen d) a off 6))
  | .ldgB g d a pol off => some (.w32 (encMP g 41 d a pol off 0))
  | .ldgH g d a pol off => some (.w32 (encMP g 41 d a pol off 1))
  | .ldgW g d a pol off => some (.w32 (encMP g 41 d a pol off 2))
  | .ldgD g d a pol off => some (.w32 (encMP g 41 d a pol off 3))
  | .ldgBu g d a pol off => some (.w32 (encMP g 41 d a pol off 4))
  | .ldgHu g d a pol off => some (.w32 (encMP g 41 d a pol off 5))
  | .ldgWu g d a pol off => some (.w32 (encMP g 41 d a pol off 6))
  | .stgB g d a pol off => some (.w32 (encMP g 42 d a pol off 0))
  | .stgH g d a pol off => some (.w32 (encMP g 42 d a pol off 1))
  | .stgW g d a pol off => some (.w32 (encMP g 42 d a pol off 2))
  | .stgD g d a pol off => some (.w32 (encMP g 42 d a pol off 3))
  | .ldcW g d a off => some (.w32 (encIC g 43 d a off 0))
  | .ldcD g d a off => some (.w32 (encIC g 43 d a off 1))
  | .ldcWu g d a off => some (.w32 (encIC g 43 d a off 2))
  | .cinvC g => some (.w32 (encR g 43 0 0 0 3))
  | .cfl g a off => some (.w32 (encIC g 43 0 a off 4))
  | .cinvl g a off => some (.w32 (encIC g 43 0 a off 5))
  | .cpf g a off => some (.w32 (encIC g 43 0 a off 6))
  | .aadd g d a b => some (.w32 (encR g 44 d a b 0))
  | .aand g d a b => some (.w32 (encR g 44 d a b 1))
  | .aor g d a b => some (.w32 (encR g 44 d a b 2))
  | .axor g d a b => some (.w32 (encR g 44 d a b 3))
  | .amin g d a b => some (.w32 (encR g 44 d a b 4))
  | .amax g d a b => some (.w32 (encR g 44 d a b 5))
  | .aminu g d a b => some (.w32 (encR g 44 d a b 6))
  | .aswap g d a b => some (.w32 (encR g 44 d a b 7))
  | .acas g d a b => some (.w32 (encR g 45 d a b 0))
  | .redadd g a b => some (.w32 (encR g 45 0 a b 1))
  | .redand g a b => some (.w32 (encR g 45 0 a b 2))
  | .redor g a b => some (.w32 (encR g 45 0 a b 3))
  | .redxor g a b => some (.w32 (encR g 45 0 a b 4))
  | .redmin g a b => some (.w32 (encR g 45 0 a b 5))
  | .redmax g a b => some (.w32 (encR g 45 0 a b 6))
  | .fenceAcq g scope => some (.w32 (encR g 46 0 (encScope scope) 0 0))
  | .fenceRel g scope => some (.w32 (encR g 46 0 (encScope scope) 0 1))
  | .fenceFull g scope => some (.w32 (encR g 46 0 (encScope scope) 0 2))
  | .ldaD g d a scope => some (.w32 (encR g 47 d a (encScope scope) 0))
  | .stlD g d a scope => some (.w32 (encR g 47 d a (encScope scope) 1))
  | .ldaW g d a scope => some (.w32 (encR g 47 d a (encScope scope) 2))
  | .stlW g d a scope => some (.w32 (encR g 47 d a (encScope scope) 3))
  | .ldv g d a b => some (.w32 (encR g 48 d a b 0))
  | .ldvn g d a b => some (.w32 (encR g 48 d a b 1))
  | .stv g d a b => some (.w32 (encR g 48 d a b 2))
  | .recl g a b => some (.w32 (encR g 48 0 a b 3))
  | .hand g a b => some (.w32 (encR g 48 0 a b 4))
  | .opush g d a b => some (.w32 (encR g 49 d a b 0))
  | .opop g d a => some (.w32 (encR g 49 d a 0 1))
  | .ocnt g d a => some (.w32 (encR g 49 d a 0 2))
  | .vaddW g d a b => some (.w32 (encR g 50 d a b 0))
  | .vsubW g d a b => some (.w32 (encR g 50 d a b 1))
  | .vmulW g d a b => some (.w32 (encR g 50 d a b 2))
  | .vmulhW g d a b => some (.w32 (encR g 50 d a b 3))
  | .vminW g d a b => some (.w32 (encR g 50 d a b 4))
  | .vmaxW g d a b => some (.w32 (encR g 50 d a b 5))
  | .vminuW g d a b => some (.w32 (encR g 50 d a b 6))
  | .vmaxuW g d a b => some (.w32 (encR g 50 d a b 7))
  | .vaddH g d a b => some (.w32 (encR g 51 d a b 0))
  | .vsubH g d a b => some (.w32 (encR g 51 d a b 1))
  | .vmulH g d a b => some (.w32 (encR g 51 d a b 2))
  | .vmulhH g d a b => some (.w32 (encR g 51 d a b 3))
  | .vminH g d a b => some (.w32 (encR g 51 d a b 4))
  | .vmaxH g d a b => some (.w32 (encR g 51 d a b 5))
  | .vminuH g d a b => some (.w32 (encR g 51 d a b 6))
  | .vmaxuH g d a b => some (.w32 (encR g 51 d a b 7))
  | .vaddB g d a b => some (.w32 (encR g 52 d a b 0))
  | .vsubB g d a b => some (.w32 (encR g 52 d a b 1))
  | .vaddsB g d a b => some (.w32 (encR g 52 d a b 2))
  | .vsubsB g d a b => some (.w32 (encR g 52 d a b 3))
  | .vminB g d a b => some (.w32 (encR g 52 d a b 4))
  | .vmaxB g d a b => some (.w32 (encR g 52 d a b 5))
  | .vminuB g d a b => some (.w32 (encR g 52 d a b 6))
  | .vmaxuB g d a b => some (.w32 (encR g 52 d a b 7))
  | .vand g d a b => some (.w32 (encR g 53 d a b 0))
  | .vor g d a b => some (.w32 (encR g 53 d a b 1))
  | .vxor g d a b => some (.w32 (encR g 53 d a b 2))
  | .vandn g d a b => some (.w32 (encR g 53 d a b 3))
  | .vshlW g d a b => some (.w32 (encR g 53 d a b 4))
  | .vshrW g d a b => some (.w32 (encR g 53 d a b 5))
  | .vsraW g d a b => some (.w32 (encR g 53 d a b 6))
  | .vnot g d a => some (.w32 (encR g 53 d a 0 7))
  | .vfaddS g d a b => some (.w32 (encR g 54 d a b 0))
  | .vfsubS g d a b => some (.w32 (encR g 54 d a b 1))
  | .vfmulS g d a b => some (.w32 (encR g 54 d a b 2))
  | .vfmaS g d a b => some (.w32 (encR g 54 d a b 3))
  | .vfminS g d a b => some (.w32 (encR g 54 d a b 4))
  | .vfmaxS g d a b => some (.w32 (encR g 54 d a b 5))
  | .vfabsS g d a => some (.w32 (encR g 54 d a 0 6))
  | .vfnegS g d a => some (.w32 (encR g 54 d a 0 7))
  | .vfaddBf g d a b => some (.w32 (encR g 55 d a b 0))
  | .vfsubBf g d a b => some (.w32 (encR g 55 d a b 1))
  | .vfmulBf g d a b => some (.w32 (encR g 55 d a b 2))
  | .vfmaBf g d a b => some (.w32 (encR g 55 d a b 3))
  | .vfminBf g d a b => some (.w32 (encR g 55 d a b 4))
  | .vfmaxBf g d a b => some (.w32 (encR g 55 d a b 5))
  | .vfdotBf g d a b => some (.w32 (encR g 55 d a b 6))
  | .vrcpS g d a => some (.w32 (encR g 56 d a 0 0))
  | .vrsqS g d a => some (.w32 (encR g 56 d a 0 1))
  | .vexp2S g d a => some (.w32 (encR g 56 d a 0 2))
  | .vlog2S g d a => some (.w32 (encR g 56 d a 0 3))
  | .vsqrtS g d a => some (.w32 (encR g 56 d a 0 4))
  | .vdivS g d a b => some (.w32 (encR g 56 d a b 5))
  | .vfloorS g d a => some (.w32 (encR g 56 d a 0 6))
  | .vtanhS g d a => some (.w32 (encR g 56 d a 0 7))
  | .vcmp g p a b cc => some (.w32 (encR g 57 (widen p) a b (encICond cc)))
  | .vcmpF g p a b cc => some (.w32 (encR g 57 (raise p) a b (encFCond cc)))
  | .vbcast g d a => some (.w32 (encR g 58 d a 0 0))
  | .vbcastf g d a => some (.w32 (encR g 58 d a 0 1))
  | .vext g d a b => some (.w32 (encR g 58 d a b 2))
  | .vins g d a b => some (.w32 (encR g 58 d a b 3))
  | .vperm g d a b => some (.w32 (encR g 58 d a b 4))
  | .viota g d => some (.w32 (encR g 58 d 0 0 5))
  | .vmov g d a => some (.w32 (encR g 58 d a 0 6))
  | .vslide g d a b => some (.w32 (encR g 58 d a b 7))
  | .vld g d a off => some (.w32 (encIC g 59 d a off 0))
  | .vst g d a off => some (.w32 (encIC g 59 d a off 1))
  | .vldf g d a off => some (.w32 (encIC g 59 d a off 2))
  | .vste g d a off => some (.w32 (encIC g 59 d a off 3))
  | .vlds g d a b => some (.w32 (encR g 60 d a b 0))
  | .vsts g d a b => some (.w32 (encR g 60 d a b 1))
  | .vgath g d a b => some (.w32 (encR g 60 d a b 2))
  | .vscat g d a b => some (.w32 (encR g 60 d a b 3))
  | .vstf g d a => some (.w32 (encR g 60 d a 0 4))
  | .vrsumS g d a => some (.w32 (encR g 61 d a 0 0))
  | .vrmaxS g d a => some (.w32 (encR g 61 d a 0 1))
  | .vrminS g d a => some (.w32 (encR g 61 d a 0 2))
  | .vrsumW g d a => some (.w32 (encR g 61 d a 0 3))
  | .vscanS g d a => some (.w32 (encR g 61 d a 0 4))
  | .vcavS g d a => some (.w32 (encR g 61 d a 0 5))
  | .vcavmS g d a => some (.w32 (encR g 61 d a 0 6))
  | .vdot4B g d a b => some (.w32 (encR g 61 d a b 7))
  | .vcvtSBf g d a => some (.w32 (encR g 62 d a 0 0))
  | .vcvtBfS g d a => some (.w32 (encR g 62 d a 0 1))
  | .vcvtSW g d a => some (.w32 (encR g 62 d a 0 2))
  | .vcvtWS g d a => some (.w32 (encR g 62 d a 0 3))
  | .vcvtE4S g d a b => some (.w32 (encR g 62 d a b 4))
  | .vcvtSE4 g d a b => some (.w32 (encR g 62 d a b 5))
  | .vcvtE5S g d a b => some (.w32 (encR g 62 d a b 6))
  | .vcvtSE5 g d a b => some (.w32 (encR g 62 d a b 7))
  | .xqW g d a => some (.w32 (encR g 63 d a 0 0))
  | .xqT g d a => some (.w32 (encR g 63 d a 0 1))
  | .xdone g d a => some (.w32 (encR g 63 d a 0 2))
  | .xwait g a b => some (.w32 (encR g 63 0 a b 3))
  | .xstat g d a b => some (.w32 (encR g 63 d a b 4))
  | .xclr g a => some (.w32 (encR g 63 0 a 0 5))
  | .xenc g d a b => some (.w32 (encR g 63 d a b 6))
  | .xdec g d a => some (.w32 (encR g 63 d a 0 7))
  | .movC d a => some (.w16 ⟨0, 0, d, double a⟩)
  | .addC d a => some (.w16 ⟨0, 1, d, double a⟩)
  | .subC d a => some (.w16 ⟨0, 2, d, double a⟩)
  | .andC d a => some (.w16 ⟨0, 3, d, double a⟩)
  | .orC d a => some (.w16 ⟨0, 4, d, double a⟩)
  | .xorC d a => some (.w16 ⟨0, 5, d, double a⟩)
  | .lddC d a => some (.w16 ⟨0, 6, d, double a⟩)
  | .stdC d a => some (.w16 ⟨0, 7, d, double a⟩)
  | .addiC d imm => some (.w16 ⟨1, 0, d, lowN 64 (wrap 6 imm)⟩)
  | .ldiC d imm => some (.w16 ⟨1, 1, d, lowN 64 (wrap 6 imm)⟩)
  | .shliC d imm => some (.w16 ⟨1, 2, d, lowN 64 imm⟩)
  | .shriC d imm => some (.w16 ⟨1, 3, d, lowN 64 imm⟩)
  | .sraiC d imm => some (.w16 ⟨1, 4, d, lowN 64 imm⟩)
  | .andiC d imm => some (.w16 ⟨1, 5, d, lowN 64 (wrap 6 imm)⟩)
  | .ldsC d imm => some (.w16 ⟨1, 6, d, lowN 64 imm⟩)
  | .stsC d imm => some (.w16 ⟨1, 7, d, lowN 64 imm⟩)
  | .go n => some (.w16 (encB 0 n false 0))
  | .goGuarded n sense p => some (.w16 (encB 1 n sense p))
  | .call n => some (.w16 (encB 2 n false 0))
  | .callGuarded n sense p => some (.w16 (encB 3 n sense p))
  | .nopC => some (.w16 ⟨2, 4, 0, 0⟩)
  | .endC => some (.w16 ⟨2, 4, 0, 1⟩)
  | .beatC => some (.w16 ⟨2, 4, 0, 2⟩)
  | .syncC => some (.w16 ⟨2, 4, 0, 3⟩)
  | .brkC => some (.w16 ⟨2, 4, 0, 5⟩)

/-- The number of a 32-bit instruction (R202). -/
def W32.toNat (f : W32) : Nat :=
  3 * 2 ^ 30 + (if f.g then 2 ^ 29 else 0) + f.x.val * 2 ^ 24 + f.maj.val * 2 ^ 18 + f.d.val * 2 ^ 13 + f.a.val * 2 ^ 8 +
    f.b.val * 8 + f.fn.val

/-- The number of a 16-bit instruction (R205). -/
def W16.toNat (f : W16) : Nat := f.fmt.val * 2 ^ 14 + f.op.val * 2 ^ 11 + f.d.val * 64 + f.lo.val

/-- A 32-bit number as it lies in memory: high halfword first, each halfword little-endian (R5). -/
def bytes32 (w : Nat) : List Byte :=
  [BitVec.ofNat 8 (w / 2 ^ 16), BitVec.ofNat 8 (w / 2 ^ 24), BitVec.ofNat 8 w, BitVec.ofNat 8 (w / 2 ^ 8)]

/-- A 16-bit number as it lies in memory. -/
def bytes16 (h : Nat) : List Byte := [BitVec.ofNat 8 h, BitVec.ofNat 8 (h / 2 ^ 8)]

/-- The bytes of an instruction; none for a happening. -/
def encode (i : Instr) : Option (List Byte) :=
  i.fields.map fun f =>
    match f with
    | .w32 f => bytes32 f.toNat
    | .w16 f => bytes16 f.toNat

/-- The bytes of a table word of `nbits` bits: a 32-bit row is numbered with its first halfword in [31:16] (R202). -/
def tableBytes (nbits w : Nat) : List Byte := if nbits ≤ 16 then bytes16 w else bytes32 w

/-- What the decoder reads from a word numbered as spec/opcode_table.json numbers it. -/
def decodeTableWord (nbits w : Nat) : Option Instr :=
  match decode (tableBytes nbits w) with
  | .ok (i, _) => some i
  | .error _ => none

end Sys2Proof

end
end

