-- ==== Sys2Proof/Machine/Paging.lean ====
section
/-! DEFINITION. The physical map (R56), page walks (R76, R77), TLBs (R81 to R83), permissions (R78) and the global address
checks of R252. -/

namespace Sys2Proof.Machine

/-! ## The physical map -/

/-- Local HBM, 768 GiB (R56). -/
def inHbm (pa : Nat) : Bool := decide (pa < 0xC000000000)

/-- The local weight store, 16 GiB (R56). -/
def inWs (pa : Nat) : Bool := decide (0x10000000000 ≤ pa) && decide (pa < 0x10400000000)

/-- Host and CXL memory (R56). -/
def inHost (pa : Nat) : Bool := decide (2 ^ 50 ≤ pa) && decide (pa < 2 ^ 51)

/-- Another module of the chassis (R56). -/
def isRemote (pa : Nat) : Bool := decide (2 ^ 51 ≤ pa) && decide (pa < 2 ^ 52)

/-- The address that a remote PA has at its module (R56). -/
def remoteLocal (pa : Nat) : Nat := pa % 2 ^ 45

/-- A PA that something lies behind (R56). -/
def populated (pa : Nat) : Bool :=
  inHbm pa || inWs pa || inHost pa || isRemote pa && (inHbm (remoteLocal pa) || inWs (remoteLocal pa))

/-- The device coordinate of a remote PA: mx and my of the PA in the own chassis (R56, R315). -/
def State.remoteDev (s : State) (pa : Nat) : BitVec 20 :=
  BitVec.ofNat 20 (pa / 2 ^ 48 % 8 * 2 ^ 17 + pa / 2 ^ 45 % 8 * 2 ^ 14 + s.devCoord.toNat % 2 ^ 14)

/-- A remote PA that names this module means the local PA (log 13). -/
def State.homePa (s : State) (pa : Nat) : Nat :=
  if isRemote pa && s.remoteDev pa == s.devCoord then remoteLocal pa else pa

/-- The routing registers mark a module unreachable: UNREACH in the own chassis, FARUNR beyond (R377, R385). -/
def State.unreachable (s : State) (dev : BitVec 20) : Bool :=
  if fld dev 13 0 = fld s.devCoord 13 0 then bit s.unreach (8 * fld dev 16 14 + fld dev 19 17)
  else
    let n := fld dev 13 7 * 128 + fld dev 6 0
    bit (s.farunr.get 0 (n / 64)) (n % 64)

/-- The memory of an unreachable module (R84). -/
def State.paUnreachable (s : State) (pa : Nat) : Bool := isRemote pa && s.unreachable (s.remoteDev pa)

/-- The line of a PA. -/
def lineOf (pa : Nat) : Nat := pa / 128 * 128

/-- The weight-store bank of a PA is away (R70). -/
def State.bankAway (s : State) (pa : Nat) : Bool :=
  inWs pa && (match s.wsAway with
    | some b => decide (pa / 2 ^ 28 % 16 = b.val)
    | none => false)

/-- A byte range of memory met an uncorrectable error (R367). -/
def State.isLost (s : State) (pa : Nat) : Bool := (s.lost.find (lineOf pa)).isSome

/-- Where the data of a PA comes from, for FINFO of cause 0x18 (R361): 3 HBM, 4 weight store, 5 host, 6 another module. -/
def sourceCode (pa : Nat) : Nat := if inWs pa then 4 else if inHost pa then 5 else if isRemote pa then 6 else 3

/-- The part that lost a line, for FINFO of cause 0x18 (R361): 1 L1, 2 L2, else where the data comes from. -/
def State.lostCode (s : State) (pa : Nat) : Nat := (s.lost.find (lineOf pa)).getD (sourceCode pa)

/-! ## The weight store's lock (R69) -/

/-- Work that a launch started runs on the core: a reaction, set-up code, a trap handler, a copy request, a matrix store
or an extraction. -/
def Core.working (k : Core) : Bool :=
  (ctxIds.any fun h => (k.ctx h).live && ((k.ctx h).run.isSome || h == 0 || h == 13)) || !k.fifo.isEmpty ||
    ((List.finRange 4).any fun i => (k.chans.get i).running.isSome) || !k.engW.isEmpty || !k.extx.isEmpty

/-- The weight store is locked (R69). -/
def State.wsLocked (s : State) : Bool := !s.launches.isEmpty || s.cores.any fun e => e.2.working

/-! ## Page tables -/

/-- What a failing walk reports: level and reason of FINFO (R361); `lost`: the entry was lost to an uncorrectable error, of the part
given (R367). -/
structure WalkErr where
  level  : Nat
  reason : Nat
  lost   : Option Nat
deriving DecidableEq, Repr

/-- KIND of a leaf entry. -/
def pteKind (e : DWord) : Nat := fld e 5 4

/-- FRAME of an entry as an address. -/
def pteFrame (e : DWord) : Nat := fld e 51 16 * 65536

/-- The lowest VA bit that indexes a level, and the number of entries (R76). -/
def levelShift : Nat → Nat × Nat
  | 1 => (43, 8192)
  | 2 => (30, 8192)
  | 3 => (21, 512)
  | _ => (16, 32)

/-- What an entry read at a level says: a leaf, or the next table (R76, R77). -/
def readEntry (va level : Nat) (e : DWord) : Except WalkErr (TlbEnt ⊕ Nat) :=
  let sh := (levelShift level).1
  if !bit e 0 then .error ⟨level, 1, none⟩
  else if fld e 15 12 ≠ 0 then .error ⟨level, 2, none⟩
  else if level = 4 || bit e 11 then
    if level = 1 || pteFrame e % 2 ^ sh ≠ 0 || (decide (pteKind e = 3) != inWs (pteFrame e)) then .error ⟨level, 2, none⟩
    else .ok (.inl { va := va / 2 ^ sh * 2 ^ sh, log := sh, leaf := e, level := level })
  else if inHbm (pteFrame e) then .ok (.inr (pteFrame e)) else .error ⟨level, 2, none⟩

/-- The place of the entry of a table for an address at a level. -/
def entryPa (va table level : Nat) : Nat := table + 8 * (va / 2 ^ (levelShift level).1 % (levelShift level).2)

/-- The entry of a table for an address at a level. -/
def entryAt (m : Memory) (va table level : Nat) : DWord := m.read64 (entryPa va table level)

/-- The walk from a level's table on, with `f` levels left: it ends at an entry that is lost (R367). -/
def walkAt (m : Memory) (lost : KMap Nat) (va level table : Nat) : Nat → Except WalkErr TlbEnt
  | 0 => .error ⟨level, 2, none⟩
  | f + 1 =>
    match lost.find (lineOf (entryPa va table level)) with
    | some part => .error ⟨level, 0, some part⟩
    | none => match readEntry va level (entryAt m va table level) with
      | .error w => .error w
      | .ok (.inl e) => .ok e
      | .ok (.inr t) => walkAt m lost va (level + 1) t f

/-- The walk of an address from the root of a core's die (R342). -/
def State.walk (s : State) (c : CoreId) (va : Nat) : Except WalkErr TlbEnt :=
  let root := (s.ptroot.get (dieIx c.val)).toNat * 65536
  if inHbm root then walkAt s.mem s.lost va 1 root 4 else .error ⟨1, 2, none⟩

/-! ## TLBs -/

/-- An entry maps an address. -/
def TlbEnt.covers (e : TlbEnt) (va : Nat) : Bool := decide (va / 2 ^ e.log * 2 ^ e.log = e.va)

/-- Add an entry, dropping the oldest beyond the capacity (log 14). -/
def tlbAdd (cap : Nat) (l : List TlbEnt) (e : TlbEnt) : List TlbEnt :=
  if l.contains e then l else if l.length < cap then l ++ [e] else l.tail ++ [e]

/-- A completed walk fills the landing TLB and the core's TLB (R81). -/
def State.tlbFill (s : State) (c : CoreId) (e : TlbEnt) : State :=
  let l := landingOf c.val
  { s with ltlb := s.ltlb.put l (tlbAdd 2048 (s.ltlb.get [] l) e) }.modCore c fun k => { k with tlb := tlbAdd 32 k.tlb e }

/-- The entry that a TLB holds for an address: the core's, then the landing's (R81). -/
def State.tlbFind (s : State) (c : CoreId) (va : Nat) : Option TlbEnt :=
  match (s.core c).tlb.find? fun e => e.covers va with
  | some e => some e
  | none => (s.ltlb.get [] (landingOf c.val)).find? fun e => e.covers va

/-- Translate (R81). Where a cached entry differs from what a walk finds now, either may be used (R83). -/
def State.xlate (s : State) (c : CoreId) (va : Nat) : Except WalkErr TlbEnt × State :=
  match s.tlbFind c va, s.walk c va with
  | none, .ok e => (.ok e, s.tlbFill c e)
  | none, .error w => (.error w, s)
  | some e, .ok f =>
    if e = f then (.ok e, s)
    else if (s.draw 1).1 = 1 then (.ok e, (s.draw 1).2) else (.ok f, (s.draw 1).2.tlbFill c f)
  | some e, .error w => if (s.draw 1).1 = 1 then (.ok e, (s.draw 1).2) else (.error w, (s.draw 1).2)

/-! ## Global address checks (R252) -/

/-- Kinds of access; a versioned read is a load that the locked weight store refuses (R69). -/
inductive Access where
  | load | store | fetch | versioned
deriving DecidableEq, Repr

/-- FINFO's code of an access kind (R361). -/
def Access.code : Access → Nat
  | .load => 0
  | .store => 1
  | .fetch => 2
  | .versioned => 0

/-- A translated address. -/
structure EA where
  va   : DWord
  pa   : Nat
  page : TlbEnt
deriving DecidableEq, Repr

/-- Attribute bits of the page (R77). -/
def EA.isV (e : EA) : Bool := bit e.page.leaf 8

/-- OBJ of the page. -/
def EA.isObj (e : EA) : Bool := bit e.page.leaf 9

/-- HA of the page. -/
def EA.isHa (e : EA) : Bool := bit e.page.leaf 7

/-- C of the page. -/
def EA.isC (e : EA) : Bool := bit e.page.leaf 6

/-- The PA that a page gives an address. -/
def State.pageAddr (s : State) (e : TlbEnt) (va : Nat) : Nat := s.homePa (pteFrame e.leaf + va % 2 ^ e.log)

/-- FINFO of cause 0x07 (R361). -/
def finfo07 (level reason : Nat) (k : Access) : DWord := dw (level + 16 * reason + 256 * k.code)

/-- The fault of an access whose walk fails: 0x18 where an entry was lost (R367), else 0x07 (R361). -/
def WalkErr.trap (w : WalkErr) (va : DWord) (k : Access) : TrapInfo :=
  match w.lost with
  | some part => ⟨0x18, va, dw (part + 256 * k.code)⟩
  | none => ⟨0x07, va, finfo07 w.level w.reason k⟩

/-- The fault of a permission check at a PA, if any (R78, R69): a load needs R, a fetch X, a store W; a store or a versioned
access that reaches the weight store, through whichever page, is 0x09 while the store is locked. -/
def State.permission (s : State) (e : TlbEnt) (pa : Nat) (k : Access) : Option Byte :=
  let locked := inWs pa && s.wsLocked
  let need (i : Nat) : Option Byte := if bit e.leaf i then none else some 0x08
  match k with
  | .load => need 1
  | .fetch => need 3
  | .versioned => if locked then some 0x09 else need 1
  | .store => if locked then some 0x09 else need 2

/-- Translation and permission of a canonical address (R252, orders 3 and 4) for any agent of a core: the address, or
the cause and detail, and the state after the TLB fill. -/
def State.pageCheck (s : State) (c : CoreId) (va : DWord) (k : Access) : Except TrapInfo EA × State :=
  match s.xlate c va.toNat with
  | (.error w, s1) => (.error (w.trap va k), s1)
  | (.ok e, s1) =>
    let pa := s.pageAddr e va.toNat
    if !populated pa then (.error ⟨0x07, va, finfo07 e.level 3 k⟩, s1)
    else match s.permission e pa k with
      | some cause => (.error ⟨cause, va, if cause = 0x08 then dw (256 * k.code) else 0⟩, s1)
      | none => (.ok ⟨va, pa, e⟩, s1)

/-- The global checks of R252 in their order, for `n` bytes with the alignment given. -/
def State.globalCheck (s : State) (c : CoreId) (va : DWord) (align : Nat) (k : Access) : Except TrapInfo EA × State :=
  if fld va 63 56 ≠ 0 then (.error ⟨0x07, va, finfo07 0 0 k⟩, s)
  else if va.toNat % align ≠ 0 then (.error ⟨0x05, va, 0⟩, s)
  else s.pageCheck c va k

/-- GlobalEA(a, n, k) at the issuing core (R251). -/
def State.globalEA (s : State) (va : DWord) (align : Nat) (k : Access) : Except Stop (EA × State) :=
  match s.globalCheck s.cur va align k with
  | (.ok e, s1) => .ok (e, s1)
  | (.error t, s1) => .error (.trapIn t s1)

end Sys2Proof.Machine
end

