-- ==== Sys2Proof/Machine/Write.lean ====
section
/-! DEFINITION. Writes of global memory: who makes them, the pages of a cut (R357, R358), what stood there before, and what a
release, an acquire and their synchronising make of them (R86 to R99). -/

namespace Sys2Proof.Machine

/-! ## Writers -/

/-- The agent of a write and the release that the write is, if it is one. -/
structure Writer where
  src   : Option CoreId
  unit  : Nat
  scope : Nat
  rels  : List Rel
deriving DecidableEq, Repr

/-- A unit of the module that is no agent of a core: the launch unit, a home (log 67). -/
def Writer.module : Writer := ⟨none, 4, 7, []⟩

/-- Another module of the chassis. -/
def Writer.far : Writer := ⟨none, 5, 7, []⟩

/-- The host. -/
def Writer.host : Writer := ⟨none, 6, 7, []⟩

/-- Copy channel `ch` of a core. -/
def Writer.channel (c : CoreId) (ch : Fin 4) : Writer := ⟨some c, 16 + ch.val, 7, []⟩

/-- Another engine of a core. -/
def Writer.engine (c : CoreId) : Writer := ⟨some c, 32, 7, []⟩

/-- A context of a core, without release. -/
def Writer.context (c : CoreId) (h : CtxId) : Writer := ⟨some c, h.val, 7, []⟩

/-! ## The pages of a cut (R357, R358) -/

/-- A cut's pages are copied on write. -/
def State.cowActive (s : State) : Bool := decide (s.ckState = 3) || decide (s.ckState = 4)

/-- The 64 KiB page of a PA. -/
def pageOf (pa : Nat) : Nat := pa / 65536

/-- The HBM pages of `n` bytes that are not in the reserve yet. -/
def Cut.newPages (q : Cut) (pa n : Nat) : List Nat :=
  ((upto ((pa % 65536 + n + 65535) / 65536)).map (pageOf pa + ·)).filter fun p => inHbm (p * 65536) && !q.copied.contains p

/-- A write of `n` bytes has its places in the reserve, or needs none (R358). -/
def State.cowFits (s : State) (pa n : Nat) : Bool :=
  !s.cowActive || (match s.cut with
    | some q => (q.newPages pa n).isEmpty || decide (q.copied.length + (q.newPages pa n).length ≤ q.pages)
    | none => true)

/-- A write within one page has its place in the reserve, or needs none (R358). -/
def State.cowRoom (s : State) (pa : Nat) : Bool := s.cowFits pa 1

/-- A page is copied into the reserve, behind the pages that are there (R358; log 35). -/
def State.cowPage (s : State) (p : Nat) : State :=
  match s.cut with
  | some q =>
    { s with cut := some { q with copied := q.copied ++ [p] },
             ckRsv := BitVec.ofNat 16 (q.copied.length + 1),
             mem := s.mem.write (q.reserve.toNat + 65536 * q.copied.length) (s.mem.read (p * 65536) 65536) }
  | none => s

/-- The pages that a write of `n` bytes is the first to touch are copied (R358). -/
def State.cowMark (s : State) (pa n : Nat) : State :=
  if s.cowActive then
    match s.cut with
    | some q => (q.newPages pa n).foldl State.cowPage s
    | none => s
  else s

/-! ## Writing -/

/-- The lines that a write has written again are lost no more (R367). -/
def unlose (pa n : Nat) (lost : KMap Nat) : KMap Nat :=
  lost.filter fun l => decide (l.1 + 128 ≤ pa) || decide (pa + n ≤ l.1)

/-- A write of global memory becomes visible to every agent at once (R92). -/
def State.memWrite (s : State) (w : Writer) (pa : Nat) (b : List Byte) : State :=
  let s1 := s.cowMark pa b.length
  { s1 with
    mem := s1.mem.write pa b
    past := { pa := pa, old := s1.mem.read pa b.length, src := w.src, unit := w.unit, scope := w.scope, rels := w.rels } ::
      s1.past
    lost := unlose pa b.length s1.lost }

/-! ## What stood at a place (R90) -/

/-- The ranges of two accesses overlap. -/
def meets (a n b m : Nat) : Bool := decide (a < b + m) && decide (b < a + n)

/-- A write touches a range. -/
def Write.meets (w : Write) (pa n : Nat) : Bool := Machine.meets w.pa w.old.length pa n

/-- A byte before the writes of a list, newest first. -/
def undo (a : Nat) (cur : Byte) (ws : List Write) : Byte :=
  ws.foldl (fun c w => if w.pa ≤ a ∧ a < w.pa + w.old.length then w.old.getD (a - w.pa) c else c) cur

/-- The bytes of a range after the first `t` writes. -/
def State.readAt (s : State) (t pa n : Nat) : List Byte :=
  (upto n).map fun i => undo (pa + i) (s.mem.get (pa + i)) (s.past.take (s.past.length - t))

/-- The newest write of a range in a list, with its number, the oldest of the list having number 1. -/
def newestWrite (pa n : Nat) : List Write → Option (Nat × Write)
  | [] => none
  | w :: r => if w.meets pa n then some (r.length + 1, w) else newestWrite pa n r

/-- The write that a read of a range after the first `t` writes reads from. -/
def State.writeAt (s : State) (t pa n : Nat) : Option (Nat × Write) := newestWrite pa n (s.past.drop (s.past.length - t))

/-- Every release among the writes of a range: what a reader of an atomic's value observes (R96). -/
def relsOf (pa n : Nat) (ws : List Write) : List Rel := ((ws.filter fun w => w.meets pa n).map Write.rels).flatten

/-- What the releases for other modules have before them whose write stands at a range (R88, R97). -/
def State.relsHeard (s : State) (pa n : Nat) : KMap Nat :=
  match s.writeAt s.past.length pa n with
  | some (_, w) => (w.rels.filter fun r => decide (5 ≤ r.scope)).foldl (fun m r => joinSeen m r.seen) []
  | none => []

/-! ## What a context may still read (R90, R95 to R97) -/

/-- The doublewords of a write are known to be at least as new as number `i`. -/
def noteWrite (i : Nat) (w : Write) (m : KMap Nat) : KMap Nat :=
  (upto ((w.pa % 8 + w.old.length + 7) / 8)).foldl (fun m j => m.put (w.pa / 8 + j) (max i (m.get 0 (w.pa / 8 + j)))) m

/-- The writes of a list that pass a test, as what is known of their places. -/
def knownOf (p : Write → Bool) : List Write → KMap Nat → KMap Nat
  | [], m => m
  | w :: r, m => knownOf p r (if p w then noteWrite (r.length + 1) w m else m)

/-- What an acquire of a core at a scope that performs after the first `t` writes knows: none of the writes of agents that it
covers is in its future (R92, R95). -/
def State.knownAt (s : State) (c : CoreId) (scope t : Nat) : KMap Nat :=
  knownOf (fun w => decide (w.level c ≤ scope)) (s.past.drop (s.past.length - t)) []

/-- What all that one agent has written is known as. -/
def State.writtenBy (s : State) (src : Option CoreId) (unit : Nat) : KMap Nat :=
  knownOf (fun w => w.src == src && w.unit == unit) s.past []

/-- A reader on a core is not shut out by the scope of a release (R88). -/
def Write.reaches (w : Write) (c : CoreId) : Bool := decide (w.scope = 7) || decide (w.level c ≤ w.scope)

/-- An acquire of a context at a scope that has read from a write: the accesses that follow come after what the releases it
observed have before them, and none of them reads what the write's instant had replaced (R95 to R97). -/
def State.acquireFrom (s : State) (c : CoreId) (h : CtxId) (scope : Nat) (r : Option (Nat × Write)) : State :=
  match r with
  | none => s
  | some (i, w) =>
    let m := if w.reaches c then s.knownAt c scope i else []
    s.syncWith c h ((w.rels.filter fun q => q.syncs c scope).foldl (fun m q => joinSeen m q.seen) m)

/-- A plain load or an atomic of a context has read from a write: a later FENCE.ACQ acts on it (R98), and no later load of the
place returns an older value (R90). -/
def State.hasRead (s : State) (c : CoreId) (h : CtxId) (pa : Nat) (r : Option (Nat × Write)) : State :=
  match r with
  | none => s
  | some (i, w) => s.modCtx c h fun x =>
    { x with seen := x.seen.put (pa / 8) (max i (x.seen.get 0 (pa / 8)))
             obsT := if w.reaches c then max i x.obsT else x.obsT
             obs := x.obs ++ w.rels.filter fun q => !x.obs.contains q }

/-- A load of a context reads a place at some instant that R90 and R97 permit: the value and the write it comes from. Where
nothing was written since, the value is the one that stands there. -/
def State.observe (s : State) (c : CoreId) (h : CtxId) (pa n : Nat) : Nat × Option (Nat × Write) × State :=
  let lo := ((s.core c).ctx h).seen.get 0 (pa / 8)
  let hi := s.past.length
  if (s.past.take (hi - lo)).any fun w => w.meets pa n then
    let d := s.draw 64
    let t := lo + d.1.toNat % (hi - lo + 1)
    (leNat (s.readAt t pa n), s.writeAt t pa n, d.2.hasRead c h pa (s.writeAt t pa n))
  else (s.mem.readNat pa n, s.writeAt hi pa n, s.hasRead c h pa (s.writeAt hi pa n))

/-- A context knows the newest write of a place: it has written it, or read it at its home. -/
def State.sawNow (s : State) (c : CoreId) (h : CtxId) (pa : Nat) : State :=
  s.modCtx c h fun x => { x with seen := x.seen.put (pa / 8) s.past.length }

/-- FENCE.ACQ, and the acquire of FENCE.FULL, at a scope: the loads and atomics that precede it act as acquires (R98). -/
def State.acquireObs (s : State) (c : CoreId) (h : CtxId) (scope : Nat) : State :=
  let x := (s.core c).ctx h
  let m := (x.obs.filter fun q => q.syncs c scope).foldl (fun m q => joinSeen m q.seen) (s.knownAt c scope x.obsT)
  s.syncWith c h m

/-- The release that a context of a core performs now, at a scope. -/
def State.releaseOf (s : State) (c : CoreId) (h : CtxId) (scope : Nat) : Rel := ⟨some c, scope, ((s.core c).ctx h).seen⟩

/-- A context of a core as the writer of its request: of a release, unless the request's scope is 7. -/
def Writer.request (c : CoreId) (h : CtxId) (q : Req) : Writer :=
  ⟨some c, h.val, q.scope, if q.scope = 7 then [] else [⟨some c, q.scope, q.seen⟩]⟩

end Sys2Proof.Machine
end

