-- ==== Sys2Proof/Machine/Fetch.lean ====
section
/-! DEFINITION. Instruction fetch (R53, R201, R214), the code cache, prefetch into branch-target registers (R212) and the
choice of the context that issues (R12). -/

namespace Sys2Proof.Machine

/-- Lines of a code cache: 64 KiB (R1). -/
def codeLines : Nat := 4096

/-- A line enters the code cache; of a full one, some line leaves (log 15). -/
def State.codeFill (s : State) (c : CoreId) (line : Nat) : State :=
  let l := (s.core c).code.drop line
  let b := s.mem.read (line * 16) 16
  if l.length < codeLines then s.modCore c fun k => { k with code := KMap.put l line b }
  else (s.draw 12).2.modCore c fun k => { k with code := KMap.put (listDrop l ((s.draw 12).1.toNat % l.length)) line b }

/-- A halfword of code through the core's code cache (R64, R214). A line that no longer agrees with memory may still be
there or may have left the cache: either is allowed. -/
def State.codeHalf (s : State) (c : CoreId) (pa : Nat) : Nat × State :=
  let now := s.mem.readNat pa 2
  match (s.core c).code.find (pa / 16) with
  | none => (now, s.codeFill c (pa / 16))
  | some l =>
    let old := leNat ((l.drop (pa % 16)).take 2)
    if old = now then (now, s)
    else if (s.draw 1).1 = 1 then (old, (s.draw 1).2) else (now, (s.draw 1).2.codeFill c (pa / 16))

/-- The code line of an address is not cached, and its weight-store bank is away: a fetch stalls (R70). -/
def State.codeAway (s : State) (c : CoreId) (va : DWord) : Bool :=
  match s.globalCheck c va 2 .fetch with
  | (.ok e, _) => s.bankAway e.pa && ((s.core c).code.find (e.pa / 16)).isNone
  | (.error _, _) => false

/-- Fetch a halfword: the checks in the order of R252, then reachability and errors (R212). -/
def State.fetchHalf (s : State) (c : CoreId) (va : DWord) : Except TrapInfo Nat × State :=
  match s.globalCheck c va 2 .fetch with
  | (.error t, s1) => (.error t, s1)
  | (.ok e, s1) =>
    if s1.paUnreachable e.pa then (.error ⟨0x1D, va, (s1.remoteDev e.pa).setWidth 64⟩, s1)
    else if s1.isLost e.pa then (.error ⟨0x18, va, dw (s1.lostCode e.pa + 512)⟩, s1)
    else ((.ok (s1.codeHalf c e.pa).1, (s1.codeHalf c e.pa).2))

/-! ## Prefetch (R212) -/

/-- StartPrefetch: READY and F become 0, a prefetch in progress is abandoned. -/
def BReg.start (b : BReg) : BReg := { b with ready := false, f := 0, buf := [], busy := true, retry := false }

/-- Up to `n` halfwords of code from an address, ending before the first that faults, and that fault. -/
def State.fetchHalves (s : State) (c : CoreId) (va : DWord) : Nat → List Nat × Option TrapInfo × State
  | 0 => ([], none, s)
  | n + 1 =>
    match s.fetchHalf c va with
    | (.error t, s1) => ([], some t, s1)
    | (.ok h, s1) =>
      let r := s1.fetchHalves c (va + 2) n
      (h :: r.1, r.2.1, r.2.2)

/-- The halfword is the high half of a 32-bit instruction (R201). -/
def isLong (h : Nat) : Bool := decide (h / 2 ^ 14 = 3)

/-- What a prefetch at a target finds: F and the buffer (R212). -/
def State.prefetch (s : State) (c : CoreId) (b : BReg) : BReg × State :=
  let va := b.tgt.setWidth 64
  if b.nonCanon then ({ b with ready := true, busy := false, f := 0x07 }, s)
  else if bit b.tgt 0 then ({ b with ready := true, busy := false, f := 0x05 }, s)
  else
    let r := s.fetchHalves c va 8
    let short : Bool := match r.1 with
      | [] => true
      | [h] => isLong h
      | _ => false
    let f : Byte := match r.2.1 with
      | some t => if short then t.cause else 0
      | none => 0
    ({ b with ready := true, busy := false, f := f, buf := (r.1.map fun h => leBytes 2 h).flatten }, r.2.2)

/-- Finish the prefetch of a register of a context. -/
def State.finishPrefetch (s : State) (c : CoreId) (h : CtxId) (n : Fin 8) : State :=
  let r := s.prefetch c (((s.core c).ctx h).b.get n)
  r.2.modCtx c h fun x => { x with b := vput x.b n { r.1 with retry := ((((s.core c).ctx h).b.get n).retry) } }

/-! ## The fetch queue and the next instruction -/

/-- The halfword that the fetch queue of a context holds for an address. -/
def Ctx.queued (x : Ctx) (va : DWord) : Option Nat :=
  let d := (va - x.fqBase).toNat
  if d + 2 ≤ x.fq.length then some (leNat ((x.fq.drop d).take 2)) else none

/-- A write of the core's own that is not performed overlaps the code line of an address. -/
def State.lineWritten (s : State) (c : CoreId) (va : DWord) (pa : Nat) : Bool :=
  ctxIds.any fun h => ((s.core c).ctx h).reqs.any fun q =>
    (match q.kind with
      | .store => true
      | .atomic _ => true
      | .stv => true
      | _ => false) && q.fault.isNone && q.reply.isNone &&
      (meets (va.toNat / 16 * 16) 16 q.va.toNat q.size || meets (pa / 16 * 16) 16 q.pa q.size)

/-- A fetch that would fill a code line stalls: its weight-store bank is away (R70), or a write of the core's own that overlaps the
line is not performed (R214). -/
def State.fetchStalls (s : State) (c : CoreId) (va : DWord) : Bool :=
  s.codeAway c va || (match s.globalCheck c va 2 .fetch with
    | (.ok e, _) => ((s.core c).code.find (e.pa / 16)).isNone && s.lineWritten c va e.pa
    | (.error _, _) => false)

/-- A halfword for execution: from the queue if it holds the address (R213, R214), else fetched. Where the queue was
filled by sequential fetch and memory has changed since, either is allowed, unless the fetch would stall (R214). -/
def State.nextHalf (s : State) (c : CoreId) (h : CtxId) (va : DWord) : Except TrapInfo Nat × State :=
  match ((s.core c).ctx h).queued va with
  | none => s.fetchHalf c va
  | some q =>
    if ((s.core c).ctx h).fqSure || s.fetchStalls c va then (.ok q, s)
    else match s.fetchHalf c va with
      | (.ok n, s1) => if n = q then (.ok n, s1)
                       else if (s1.draw 1).1 = 1 then (.ok q, (s1.draw 1).2) else (.ok n, (s1.draw 1).2)
      | (.error t, s1) => if (s1.draw 1).1 = 1 then (.ok q, (s1.draw 1).2) else (.error t, (s1.draw 1).2)

/-- The bytes of the instruction at the PC of a context, 2 or 4 of them. -/
def State.fetchInstr (s : State) (c : CoreId) (h : CtxId) : Except TrapInfo (List Byte) × State :=
  let pc := ((s.core c).ctx h).pc
  match s.nextHalf c h pc with
  | (.error t, s1) => (.error t, s1)
  | (.ok a, s1) =>
    if isLong a then
      match s1.nextHalf c h (pc + 2) with
      | (.error t, s2) => (.error t, s2)
      | (.ok b, s2) => (.ok (leBytes 2 a ++ leBytes 2 b), s2)
    else (.ok (leBytes 2 a), s1)

/-- The rest of the code line at the PC is what sequential fetch has read ahead (R214; log 15). -/
def State.fillQueue (s : State) (c : CoreId) (h : CtxId) : State :=
  let x := (s.core c).ctx h
  match x.queued x.pc with
  | some _ => s
  | none =>
    match s.globalCheck c x.pc 2 .fetch with
    | (.error _, _) => s
    | (.ok e, _) =>
      match (s.core c).code.find (e.pa / 16) with
      | none => s
      | some l => s.modCtx c h fun x => { x with fqBase := x.pc, fq := l.drop (e.pa % 16), fqSure := false }

/-! ## Which context issues (R12) -/

/-- A context is ready: live and not stopped. Contexts 11 and 12 run firmware whose code the manual does not give; their
effects are happenings of their own (log 16). -/
def Core.ready (k : Core) (h : CtxId) : Bool :=
  (k.ctx h).live && decide ((k.ctx h).stop = .no) && decide (h ≠ 11) && decide (h ≠ 12)

/-- The contexts in round-robin order from the pointer on. -/
def Core.order (k : Core) : List CtxId := ctxIds.drop k.rr.val ++ ctxIds.take k.rr.val

/-- The context that issues next, if any is ready (R12). -/
def Core.pick (k : Core) : Option CtxId := k.order.find? fun h => k.ready h

/-- The context after another in the round. -/
def nextCtx (h : CtxId) : CtxId := if h.val < 13 then ⟨(h.val + 1) % 14, Nat.mod_lt _ (by decide)⟩ else 0

/-- Make a context the issuing one, and move the round-robin pointer past it. -/
def State.select (s : State) (c : CoreId) (h : CtxId) : State :=
  { s with cur := c, curCtx := h }.modCore c fun k => { k with rr := nextCtx h }

/-- The trap of bytes that are no instruction (R207). -/
def decodeTrap : DecodeError → TrapInfo
  | .illegal => ⟨0x01, 0, 0⟩
  | .reserved => ⟨0x02, 0, 0⟩
  | .short => ⟨0x01, 0, 0⟩

end Sys2Proof.Machine
end

