-- ==== Sys2Proof/Machine/Events.lean ====
section
/-! DEFINITION. Events: their order, how cores make, send, bounce, accept and discard them, the inbox and its head, and
completion counters (R13 to R16, R26 to R48, R350, R390). -/

namespace Sys2Proof

open Sys2Proof.Machine

/-! ## Events, payloads and packets as data -/

/-- The context field of an origin (R19). -/
def originCtx (o : DWord) : Nat := fld o 29 26

/-- The key that orders events (R14). -/
def Ev.key (e : Ev) : List Nat :=
  [e.tag.t.toNat, e.tag.m.toNat, fld e.origin 63 44, fld e.origin 42 30, b2n (decide (originCtx e.origin = 15)),
   e.seq.toNat]

/-- Lexicographic order of keys. -/
def lexLess : List Nat → List Nat → Bool
  | [], _ => false
  | _ :: _, [] => false
  | a :: r, b :: q => decide (a < b) || (decide (a = b) && lexLess r q)

/-- An event orders below another (R14). -/
def Ev.below (a b : Ev) : Bool := lexLess a.key b.key

/-- The slot of a destination descriptor (R200). -/
def descSlot (d : DWord) : Fin 64 := mkSlot (fld d 29 24)

/-- A bounce event, at slot 63, or a fault event, at slot 62, matches any generation (R16). -/
def Ev.anyGen (e : Ev) : Bool := e.ctl

/-- The bytes of a payload. -/
def Payload.bytes : Payload → List Byte
  | .words ws => (ws.map fun w => leBytes 8 w.toNat).flatten
  | .vector v => leBytes 128 v.toNat
  | .block b => b

/-- A block payload. -/
def Payload.isBlock : Payload → Bool
  | .block _ => true
  | _ => false

/-- TYPE of a packet (R379). -/
def PBody.type : PBody → Nat
  | .event _ => 0
  | .fragment _ _ _ _ => 1
  | .loadRequest _ _ _ _ => 2
  | .loadReply _ _ _ => 3
  | .store _ _ => 4
  | .atomic _ _ _ _ _ _ => 5
  | .atomicReply _ _ _ => 6
  | .objectOp _ _ _ _ _ => 7
  | .objectReply _ _ _ => 8
  | .capability _ _ _ _ => 9
  | .ack _ => 10
  | .timestamps _ _ _ _ => 11
  | .marker _ => 12
  | .reserved t => 13 + t % 3

/-- The flags of an event as R316 and R380 place them. -/
def evFlags (e : Ev) : Nat := b2n e.sendLate + 2 * b2n e.bex + 4 * b2n e.restartable + 8 * b2n e.replay

/-- Payload kind of an event: 1, 2 or 4 words, 3 a vector, 5 a block (log 22). -/
def Payload.kind : Payload → Nat
  | .words ws => ws.length
  | .vector _ => 3
  | .block _ => 5

/-- The body of an event packet (R380). -/
def Ev.body (e : Ev) : List Byte :=
  leBytes 8 e.dest.toNat ++ leBytes 8 e.tag.t.toNat ++ leBytes 4 e.tag.m.toNat ++ leBytes 4 e.seq.toNat ++
    leBytes 8 e.origin.toNat ++ leBytes 8 e.sendTs.toNat ++ leBytes 2 (e.payload.kind + 8 * evFlags e) ++
    leBytes 2 e.payload.bytes.length ++ leBytes 4 0 ++ (if e.payload.isBlock then [] else e.payload.bytes)

/-- The bytes of a body: an event's as R380 lays it out, the others' operands one after the other (log 12). -/
def PBody.bytes : PBody → List Byte
  | .event e => e.body
  | .fragment o q i b => leBytes 8 o.toNat ++ leBytes 4 q.toNat ++ leBytes 4 i ++ b
  | .loadRequest t pa n v => leBytes 8 t ++ leBytes 7 pa ++ leBytes 1 (n + 128 * b2n v)
  | .loadReply t v c => leBytes 7 t ++ leBytes 1 c.toNat ++ leBytes 8 v.toNat
  | .store pa b => leBytes 8 pa ++ b
  | .atomic c t op pa x e =>
    leBytes 8 t ++ leBytes 4 c ++ leBytes 4 op ++ leBytes 8 pa ++ leBytes 8 x.toNat ++ leBytes 8 e.toNat
  | .atomicReply t v c => leBytes 7 t ++ leBytes 1 c.toNat ++ leBytes 8 v.toNat
  | .objectOp c t op pa v => leBytes 8 t ++ leBytes 4 c ++ leBytes 4 op ++ leBytes 8 pa ++ leBytes 8 v.toNat
  | .objectReply t v c => leBytes 7 t ++ leBytes 1 c.toNat ++ leBytes 8 v.toNat
  | .capability r a b f => leBytes 8 r ++ leBytes 4 a ++ leBytes 4 (b + 2 ^ 31 * b2n f)
  | .ack q => leBytes 4 q.toNat
  | .timestamps a b c d => leBytes 8 a.toNat ++ leBytes 8 b.toNat ++ leBytes 8 c.toNat ++ leBytes 8 d.toNat
  | .marker f => leBytes 1 (b2n f)
  | .reserved _ => []

/-- An event of the host event window of a module (R345). -/
def Ev.fromHost (e : Ev) (dev : BitVec 20) : Bool :=
  decide (originCtx e.origin = 15) && decide (fld e.origin 63 44 = dev.toNat)

/-- The key of R14 as one value: the origin without its context, but for the window bit. -/
def Ev.rkey (e : Ev) : Tag × DWord × Word :=
  (e.tag, dw (e.origin.toNat / 2 ^ 30 * 2 ^ 30 + (if originCtx e.origin = 15 then 15 * 2 ^ 26 else 0)), e.seq)

end Sys2Proof

namespace Sys2Proof.Machine

/-! ## Descriptors -/

/-- Parts of a destination descriptor (R200). -/
def descDev (d : DWord) : BitVec 20 := BitVec.ofNat 20 (fld d 63 44)
def descLocal (d : DWord) : Bool := bit d 43
def descCore (d : DWord) : CoreId := mkCore (fld d 42 30)
def descGen (d : DWord) : Byte := BitVec.ofNat 8 (fld d 23 16)
def descNotify (d : DWord) : Bool := bit d 7

/-- A descriptor of a slot of the core that an origin or a descriptor names in bits [63:30] (R200). -/
def descTo (o : DWord) (slot : Fin 64) (gen : Byte) : DWord :=
  dw (o.toNat / 2 ^ 30 * 2 ^ 30 + slot.val * 2 ^ 24 + gen.toNat * 2 ^ 16)

/-- A destination moved to another slot of its core, with that slot's generation: the notify bit and all else stay (R35). -/
def descRetag (d : DWord) (slot : Fin 64) (gen : Byte) : DWord :=
  dw (d.toNat / 2 ^ 30 * 2 ^ 30 + slot.val * 2 ^ 24 + gen.toNat * 2 ^ 16 + d.toNat % 2 ^ 16)

/-- The descriptor names a core of this module. -/
def State.isLocal (s : State) (d : DWord) : Bool := descLocal d || descDev d == s.devCoord

/-- ClassOf: the class of an event from a core of this module to a destination (R12 ff., R285). -/
def State.classOf (s : State) (c : CoreId) (d : DWord) : RouteClass :=
  if s.isLocal d then (if dieOf c.val = dieOf (descCore d).val then .die else .package)
  else if fld (descDev d) 13 0 = fld s.devCoord 13 0 then .chassis else .far

/-- The class of a packet's event by the module it comes from. -/
def State.classFrom (s : State) (src : BitVec 20) : RouteClass :=
  if fld src 13 0 = fld s.devCoord 13 0 then .chassis else .far

/-! ## Sending onto the fabric (R379, R382) -/

/-- One bit of CRC-16, polynomial 0x1021. -/
def crcBit (c : Nat) (b : Bool) : Nat :=
  let top := decide (c / 2 ^ 15 % 2 = 1) != b
  let sh := c * 2 % 2 ^ 16
  if top then sh ^^^ 0x1021 else sh

/-- HCHK: CRC-16 of header bytes 0 to 7, initial value 0xFFFF, each byte from its highest bit (R379). -/
def crc16 (h : DWord) : Half :=
  BitVec.ofNat 16 ((upto 8).foldl (fun c i => (upto 8).foldl (fun c j => crcBit c (bit h (8 * i + 7 - j))) c) 0xFFFF)

/-- One bit of the CRC-32 of IEEE 802.3, whose bytes come lowest bit first. -/
def crc32Bit (c : Nat) (b : Bool) : Nat := if decide (c % 2 = 1) != b then c / 2 ^^^ 0xEDB88320 else c / 2

/-- The CRC-32 of IEEE 802.3. -/
def crc32 (bs : List Byte) : Word :=
  BitVec.ofNat 32 (bs.foldl (fun c b => (upto 8).foldl (fun c i => crc32Bit c (bit b i)) c) 0xFFFFFFFF ^^^ 0xFFFFFFFF)

/-- ECHK, over byte 10 of the header to the end of the body (R379). -/
def echkOf (seq : Word) (body : PBody) : Word := crc32 (leBytes 2 0 ++ leBytes 4 seq.toNat ++ body.bytes)

end Sys2Proof.Machine

namespace Sys2Proof

open Sys2Proof.Machine

/-- A packet's ECHK agrees with it (R381). -/
def Packet.echkGood (p : Packet) : Bool := p.echk == echkOf p.e2eseq p.body

/-- The device coordinates in a packet's header. -/
def Packet.dst (p : Packet) : BitVec 20 := BitVec.ofNat 20 (fld p.header 19 0)
def Packet.src (p : Packet) : BitVec 20 := BitVec.ofNat 20 (fld p.header 39 20)

/-- A packet on a virtual channel: its header check is computed anew (R381). -/
def Packet.onChannel (p : Packet) (vc : Nat) : Packet :=
  let h := dw (p.header.toNat - fld p.header 49 48 * 2 ^ 48 + vc * 2 ^ 48)
  { p with header := h, hchk := crc16 h }

/-- The flits of a packet. -/
def Packet.flits (p : Packet) : Nat := fld p.header 43 40 + 1

end Sys2Proof

namespace Sys2Proof.Machine

/-- A packet from this module (R379). -/
def State.packet (s : State) (dst : BitVec 20) (seq : Word) (enc : Bool) (body : PBody) : Packet :=
  let flits := (16 + body.bytes.length + (if enc then 16 else 0) + 4 + 31) / 32
  let vc := if body.type = 3 ∨ body.type = 6 ∨ body.type = 8 ∨ 10 ≤ body.type then 2 else 0
  let h := dw (dst.toNat + s.devCoord.toNat * 2 ^ 20 + (flits - 1) % 16 * 2 ^ 40 + body.type * 2 ^ 44 + vc * 2 ^ 48 +
    b2n enc * 2 ^ 50)
  { header := h, hchk := crc16 h, e2eseq := seq, body := body, echk := echkOf seq body, tagGood := true, crossing := .whole,
    after := [] }

/-! ## Routes (R377, R378) -/

/-- The coordinates of a module (R315). -/
def mxOf (d : BitVec 20) : Nat := fld d 19 17
def myOf (d : BitVec 20) : Nat := fld d 16 14
def tzOf (d : BitVec 20) : Nat := fld d 13 7
def twOf (d : BitVec 20) : Nat := fld d 6 0

/-- A port is up. -/
def State.portUp (s : State) (p : Fin 8) : Bool := decide ((s.ports.get p).state = 2)

/-- The port to a mesh place of the module's own chassis: MX first, or MY first where the way along MX is blocked by the module's own
link or by an unreachable module (R377). -/
def State.meshPort (s : State) (x y : Nat) : Fin 8 :=
  let mx := mxOf s.devCoord
  let my := myOf s.devCoord
  let px : Fin 8 := if mx < x then 0 else 1
  let py : Fin 8 := if my < y then 2 else 3
  let way := (stretch mx x).map (fun i => (i, my)) ++ (stretch my y).map fun j => (x, j)
  let out := way.any fun p => p != (mx, my) && p != (x, y) && bit s.unreach (8 * p.2 + p.1)
  if x = mx ∨ ((!s.portUp px ∨ out) ∧ y ≠ my) then py else px

/-- The torus port on the way to a module: TW, then TZ, the shorter way round with ties to +; none in its chassis (R377). -/
def State.torusPort (s : State) (dst : BitVec 20) : Option (Fin 8) :=
  let ring (of : BitVec 20 → Nat) : Nat := (of dst + 128 - of s.devCoord) % 128
  if ring twOf ≠ 0 then some (if ring twOf ≤ 64 then 6 else 7)
  else if ring tzOf ≠ 0 then some (if ring tzOf ≤ 64 then 4 else 5)
  else none

/-- The port by which a packet of a source leaves for its destination, having come by a port or being this module's own (R377). A
torus port that is not up is passed by a detour: a step to a mesh neighbour, whose torus link the packet crosses, and a step back
(log 81). -/
def State.route (s : State) (src : BitVec 20) (came : Option (Fin 8)) (dst : BitVec 20) : Fin 8 :=
  let away := decide (mxOf s.devCoord ≠ mxOf src ∨ myOf s.devCoord ≠ myOf src)
  if away && came.any fun p => decide (4 ≤ p.val) then s.meshPort (mxOf src) (myOf src)
  else match s.torusPort dst with
    | some p => if s.portUp p then p else (([0, 1, 2, 3] : List (Fin 8)).find? s.portUp).getD p
    | none => s.meshPort (mxOf dst) (myOf dst)

/-- The port on the way of this module's own packets. -/
def State.portTo (s : State) (dst : BitVec 20) : Fin 8 := s.route s.devCoord none dst

/-- The virtual channel of a packet that leaves by a port: past the dateline of a torus ring, where its coordinate wraps, channels 1
and 3 (R378; log 81). -/
def State.channelOn (s : State) (came : Option (Fin 8)) (port : Fin 8) (vc : Nat) : Nat :=
  let wraps := match port.val with
    | 4 => tzOf s.devCoord == 127
    | 5 => tzOf s.devCoord == 0
    | 6 => twOf s.devCoord == 127
    | 7 => twOf s.devCoord == 0
    | _ => false
  let past := decide (4 ≤ port.val) && came.any (fun p => p.val / 2 == port.val / 2) && decide (vc % 2 = 1)
  vc / 2 * 2 + b2n (wraps || past)

/-- The newest packets of a list that fill `n` flits at most: what a port keeps for a replay (R381). -/
def keepFlits : Nat → List Packet → List Packet
  | _, [] => []
  | n, p :: r => if p.flits ≤ n then p :: keepFlits (n - p.flits) r else []

/-- A packet leaves by the port on its way, which counts it for the renewal of its key and keeps it for a replay (R377, R381, R384).
It came by a port, or is this module's own. -/
def State.transmit (s : State) (came : Option (Fin 8)) (dst : BitVec 20) (p : Packet) : State :=
  let port := s.route (BitVec.ofNat 20 (fld p.header 39 20)) came dst
  let q := p.onChannel (s.channelOn came port (fld p.header 49 48))
  { s with outbox := q :: s.outbox
           ports := vmod s.ports port fun t => { t with packets := t.packets + 1, sent := keepFlits 256 (q :: t.sent) } }

/-- What names a packet sent: its destination and E2ESEQ. -/
def sentKey (dst : BitVec 20) (seq : Word) : Nat := dst.toNat * 2 ^ 32 + seq.toNat

/-- Send a packet, which comes after what `seen` gives: types 0 to 9 are kept until they are acknowledged (R382). -/
def State.emit (s : State) (dst : BitVec 20) (enc : Bool) (req : Option (CoreId × CtxId × Nat)) (body : PBody)
    (seen : KMap Nat := []) (eng : Option Nat := none) : State :=
  let seq := s.e2eNext.get 0 dst.toNat
  let p := s.packet dst seq enc body
  { s.transmit none dst p with
    e2eNext := s.e2eNext.put dst.toNat (seq + 1)
    sentSeen := if seen.isEmpty then s.sentSeen else s.sentSeen.put (sentKey dst seq) seen
    kept := if body.type < 10 then
        s.kept ++ [{ dst := dst, packet := p, sentAt := s.timebase, tries := 1, req := req, eng := eng }]
      else s.kept }

/-- What packets of this module have before them, together (R97). -/
def State.heard (s : State) (after : List (BitVec 20 × Word)) : KMap Nat :=
  after.foldl (fun m a => joinSeen m (s.sentSeen.get [] (sentKey a.1 a.2))) []

/-- Blocks of up to `n` elements of a list, `f` of them at most. -/
def chunks {α : Type} (n : Nat) (l : List α) : Nat → List (List α)
  | 0 => []
  | f + 1 => if l.isEmpty then [] else l.take n :: chunks n (l.drop n) f

/-- An event to another module waits for the acknowledgement of its core's capability packets to the same core (R270, R378). -/
def State.behindCap (s : State) (c : CoreId) (dest : DWord) : Bool :=
  !s.isLocal dest && s.kept.any fun e => e.dst == descDev dest && (match e.packet.body with
    | .capability _ a b _ => a == c.val && b == (descCore dest).val
    | _ => false)

/-- An event goes onto the fabric, block fragments of up to 200 bytes first (R380). -/
def State.emitEvent (s : State) (e : Ev) (seen : KMap Nat) : State :=
  let dst := descDev e.dest
  let frs := match e.payload with
    | .block b => chunks 200 b 11
    | _ => []
  ((List.range frs.length).foldl (fun s i => s.emit dst false none (.fragment e.origin e.seq (200 * i) (frs.getD i []))) s).emit
    dst false none (.event e) seen

/-- An event leaves a core: across the mesh or through the loop-back port, or onto the fabric (R288, R380), behind the core's own
unacknowledged capability packets to its destination (R378). `seen`: what its sender had seen (R101). -/
def State.launchEvent (s : State) (c : CoreId) (e : Ev) (seen : KMap Nat) : State :=
  if s.isLocal e.dest then
    { s with
      flight := s.flight ++ [{ dest := descCore e.dest, ev := e, cls := s.classOf c e.dest, pool := none, seen := seen }] }
  else if s.behindCap c e.dest then { s with capWait := s.capWait ++ [(c, e, seen)] }
  else s.emitEvent e seen

/-- Events that waited behind capability packets leave, oldest first (R378). -/
def State.releaseHeld (s : State) : State :=
  s.capWait.foldl (fun s a => s.launchEvent a.1 a.2.1 a.2.2) { s with capWait := [] }

/-! ## Events that a core makes (R16) -/

/-- The next sequence number of a core (R15). -/
def State.takeSeq (s : State) (c : CoreId) : Word × State :=
  ((s.core c).seq, s.modCore c fun k => { k with seq := k.seq + 1 })

/-- An event made by a core itself: origin context 14, its next sequence number, clear flags (R16). `ctl`: it is a bounce or
a fault event. -/
def State.makeEvent (s : State) (c : CoreId) (dest : DWord) (tag : Tag) (payload : Payload) (ctl : Bool) : Ev × State :=
  let q := s.takeSeq c
  ({ dest := dest, tag := tag, origin := s.originOf c 14, seq := q.1, sendTs := s.jobTime, payload := payload,
     sendLate := false, bex := false, restartable := false, replay := false, ctl := ctl }, q.2)

/-- (CLOCK, 0) of a core. -/
def State.clockTag (s : State) (c : CoreId) : Tag := { t := dw (s.clock c), m := 0 }

/-- A bounce event to slot 63 of the origin core, which synchronises with nothing: it names the event as it was sent (R37, R101). -/
def State.bounce (s : State) (c : CoreId) (e : Ev) (orig : Option Ev) : State :=
  let gen := ((s.core c).slots.get (descSlot e.dest)).gen
  let o := orig.getD e
  let r := s.makeEvent c (descTo e.origin 63 0) (s.clockTag c)
    (.words [o.dest, o.tag.t, dw (o.tag.m.toNat + o.seq.toNat * 2 ^ 32), gen.setWidth 64]) true
  r.2.launchEvent c r.1 []

/-- A fault event to slot 62 of a core of this module (R366). -/
def State.faultEvent (s : State) (c dest : CoreId) (cause : Byte) (h : CtxId) : State :=
  let x := (s.core c).ctx h
  let r := s.makeEvent c (dw (2 ^ 43 + dest.val * 2 ^ 30 + 62 * 2 ^ 24)) (s.clockTag c)
    (.words [dw (cause.toNat + h.val * 256), dw c.val, x.pc, x.tnow.t]) true
  r.2.launchEvent c r.1 []

/-! ## The block area (R30) -/

/-- The lowest free block slot. -/
def Core.freeBlock (k : Core) : Option Nat := (upto k.blkN.toNat).find? fun i => !k.blkUsed.contains i

/-- The address of a block slot. -/
def Core.blockAddr (k : Core) (i : Nat) : Nat := 0x3C000 + (k.blkFirst.toNat + i) * 2048

/-- An event with its payload as it stands: of a block, the bytes of its block slot, which a program may have changed
(R30). -/
def Core.current (k : Core) (e : InEv) : InEv :=
  match e.block, e.ev.payload with
  | some i, .block b => { e with ev := { e.ev with payload := .block (k.spad.read (k.blockAddr i) b.length) } }
  | _, _ => e

/-- A block slot frees. -/
def Core.dropBlock (k : Core) (b : Option Nat) : Core :=
  match b with
  | none => k
  | some i => { k with blkUsed := removeNat k.blkUsed i }

/-- Write bytes that an engine delivers: every word touched is set full (R61). `seen`: what the engine's work comes after
(R105). -/
def Core.deliver (k : Core) (a : Nat) (bytes : List Byte) (seen : KMap Nat := []) : Core :=
  let n := (a % 8 + bytes.length + 7) / 8
  ((k.spadWrite a bytes).noteFull a n seen).setFulls (a / 8 * 8) true n

/-! ## Records of events (R316) -/

/-- Payload kind of a spill record or an event body: 1, 2 or 4 words, 3 a vector, 5 a block, 0 a pool event (log 22). -/
def payloadKind (e : InEv) : Nat := if e.pool.isSome then 0 else e.ev.payload.kind

/-- The code of a class (R35). -/
def classCode : RouteClass → Nat
  | .die => 0
  | .package => 1
  | .chassis => 2
  | .far => 3

/-- The class of a code. -/
def classAt (n : Nat) : RouteClass :=
  match n % 4 with
  | 0 => .die
  | 1 => .package
  | 2 => .chassis
  | _ => .far

/-- A spill record (R316). -/
def spillRecord (e : InEv) : List Byte :=
  let v := e.ev
  let pay := v.payload.bytes
  leBytes 8 v.dest.toNat ++ leBytes 8 v.tag.t.toNat ++ leBytes 8 (v.tag.m.toNat + v.seq.toNat * 2 ^ 32) ++
    leBytes 8 v.origin.toNat ++ leBytes 8 v.sendTs.toNat ++
    leBytes 8 (payloadKind e + evFlags v * 8 + classCode e.cls * 2 ^ 7 + pay.length * 2 ^ 9) ++ leBytes 16 0 ++ pay

/-! ## Arrival and entry (R26, R390) -/

/-- Bytes a snapshot ring holds for an event: one spill record (R316, R369). -/
def ringBytes (e : Ev) : Nat := 64 + e.payload.bytes.length

/-- A free place for `n` bytes in an area of a core in HBM: where its records stand is open (log 19, 76). -/
def State.freePlace (s : State) (base : BitVec 40) (log : Byte) (c : CoreId) (n : Nat) : Nat :=
  base.toNat * 65536 + c.val * 2 ^ log.toNat + (s.draw 64).1.toNat % (2 ^ log.toNat - n + 1)

/-- The place of the next record of a snapshot ring (R369). -/
def State.ringPlace (s : State) (c : CoreId) (n : Nat) : Nat := s.freePlace s.snapBase s.snapLog c n

/-- Bytes are written to a core's snapshot ring (R369). -/
def State.ringWrite (s : State) (c : CoreId) (b : List Byte) : State :=
  (s.draw 64).2.memWrite .module (s.ringPlace c b.length) b

/-- The snapshot ring has room for an event, and its pages for a write (R358, R369; log 19). -/
def State.ringRoom (s : State) (c : CoreId) (e : Ev) : Bool :=
  let k := s.core c
  !k.logging || (decide ((k.ring.map fun r => ringBytes r.ev).foldl (· + ·) 0 + ringBytes e + 0x1000 ≤ 2 ^ s.snapLog.toNat) &&
    s.cowFits (s.ringPlace c (ringBytes e)) (ringBytes e))

/-- The inbox can take an event: a free entry, and a free block slot for a block (R30, R390). -/
def State.inboxRoom (s : State) (c : CoreId) (e : Ev) : Bool :=
  let k := s.core c
  decide (k.inbox.length < 64) && (!e.payload.isBlock || k.freeBlock.isSome) && !k.halted && (!s.stopped || decide (s.pestat = 1))

/-- An event can enter the inbox now: the snapshot ring has room for it too (R369). -/
def State.canEnter (s : State) (c : CoreId) (e : Ev) : Bool := s.inboxRoom c e && s.ringRoom c e

/-- No firing of outputs 4 and 5 waits for an inbox entry: one that waits takes the first entry that frees (R51). -/
def Core.noFiring (k : Core) : Bool := (List.finRange 2).all fun i => (k.xbar.wait.get i).isEmpty

/-- Saturating increment. -/
def satInc {w : Nat} (v : BitVec w) : BitVec w := if v = BitVec.allOnes w then v else v + 1

/-- The generation that a slot's next BIND will produce (R37, R296). -/
def Slot.nextGen (t : Slot) : Byte := t.gen + 1

/-- The generation test of R37. -/
def Core.genOk (k : Core) (e : Ev) : Bool :=
  let t := k.slots.get (descSlot e.dest)
  e.anyGen || descGen e.dest == t.gen || (!t.bound && descGen e.dest == t.nextGen)

/-- A stale event is discarded: counted, bounced if it asks for it, reported if the core asks for it (R37, R365). -/
def State.discardStale (s : State) (c : CoreId) (e : Ev) (orig : Option Ev) : State :=
  let s1 := s.modCore c fun k => { k with staleCnt := satInc k.staleCnt }.perf 0x14 1
  let s2 := if descNotify e.dest && !e.anyGen then s1.bounce c e orig else s1
  if (s.core c).tcfgInf14 then s2.trapNoCtx c 0x14 e.tag.t (dw (descSlot e.dest).val) else s2

/-- The late record of an event (R35). -/
def lateOf (k : Core) (e : Ev) (cls : RouteClass) (arr : DWord) : LateRec :=
  { t := e.tag.t, m := e.tag.m, orig := e.origin, send := e.sendTs, arr := arr, lastT := k.last.t, lastM := k.last.m,
    cls := cls, sl := e.sendLate, bx := e.bex, rp := e.replay }

/-- Context 12 becomes live when INBOX_N reaches 64 (R12, R39), at the tag (LAST_T, LAST_M) (R20). -/
def Core.spillLive (k : Core) : Core :=
  if k.inbox.length = 64 ∧ !(k.ctx 12).live then k.modCtx 12 fun x => { x with live := true, stop := .no, tnow := k.last }
  else k

/-- An arrival as an inbox entry (R26): the event as it was sent stays known, where it has been re-tagged (R35, R37). -/
def Arrival.entry (a : Arrival) (e : Ev) (late : Option LateRec) : InEv :=
  { ev := e, orig := if late.isSome then some a.ev else none, cls := a.cls, arr := a.arr, block := none, late := late, pool := a.pool,
    rerun := false, base := none, units := [], spent := false, seen := a.seen }

/-- An event enters the inbox, its block payload a block slot, its key the replay keys, its record the ring. -/
def State.place (s : State) (c : CoreId) (e : InEv) (key : Tag × DWord × Word) (accepted : Bool) : State :=
  let k := s.core c
  let k1 := match e.ev.payload with
    | .block b => match k.freeBlock with
      | some i => { k with blkUsed := insertNat k.blkUsed i, inbox := k.inbox ++ [{ e with block := some i }] }.deliver
          (k.blockAddr i) b
      | none => { k with inbox := k.inbox ++ [e] }
    | _ => { k with inbox := k.inbox ++ [e] }
  let k2 := if accepted && e.ev.restartable then
      { k1 with replayKeys := if k1.replayKeys.length < 256 then k1.replayKeys ++ [key] else k1.replayKeys.tail ++ [key] }
    else k1
  let log := accepted && k2.logging
  let k3 := if log then { k2 with ring := k2.ring ++ [e] } else k2
  let s1 := s.setCore c ((if accepted then k3.perf 0x11 1 else k3).spillLive)
  if log then s1.ringWrite c (spillRecord e) else s1

/-- The entry of an event (R26, R390): the duplicate test of a replay (R48), the generation, bound and lateness tests. A record of a
snapshot ring, whose event has passed them, enters as it stands (R369). -/
def State.enter (s : State) (c : CoreId) (a : Arrival) : State :=
  let k := s.core c
  if let some e := a.replay then s.place c e e.ev.rkey false
  else if a.ev.replay && k.replayKeys.contains a.ev.rkey then s
  else if !k.genOk a.ev then s.discardStale c a.ev none
  else
    let bex := decide ((k.delay a.cls : Int) < (a.arr - a.ev.sendTs).toInt)
    let s1 := if bex then s.modCore c fun k => { k with bexCnt := satInc k.bexCnt }.perf 0x12 1 else s
    let s2 := if bex && k.tcfgInf11 then s1.trapNoCtx c 0x11 a.ev.tag.t (dw (descSlot a.ev.dest).val) else s1
    let e := { a.ev with bex := a.ev.bex || bex }
    if Tag.less e.tag k.last then
      let s3 := s2.modCore c fun k => k.perf 0x13 1
      let rec_ := lateOf k e a.cls a.arr
      let t := k.slots.get (descSlot e.dest)
      match if t.bound then t.late else none with
      | some l =>
        let e2 := { e with tag := Tag.nextMicro k.last, dest := descRetag e.dest l (k.slots.get l).gen }
        s3.place c (a.entry e2 (some rec_)) e.rkey true
      | none =>
        (s3.modCore c fun k => { k with late := rec_ }).trapNoCtx c 0x10 e.tag.t (dw (descSlot e.dest).val)
    else s2.place c (a.entry e none) e.rkey true

/-- An event reaches the landing router (R46, R390): bounced at a fenced core, held back behind others or when it cannot
enter, entered otherwise. -/
def State.arrive (s : State) (c : CoreId) (e : Ev) (cls : RouteClass) (pool : Option Nat := none)
    (seen : KMap Nat := []) : State :=
  let k := s.core c
  let a : Arrival := { ev := e, cls := cls, arr := s.jobTime, pool := pool, seen := seen, replay := none }
  if k.fenced && !e.anyGen then s.bounce c e none
  else if k.held.isEmpty && k.noFiring && s.canEnter c e then s.enter c a
  else s.modCore c fun k => { k with held := k.held ++ [a] }

/-! ## The head (R27, R39) -/

/-- The least event of an inbox, with its index. -/
def leastFrom : Nat → List InEv → Option (Nat × InEv)
  | _, [] => none
  | i, e :: r =>
    match leastFrom (i + 1) r with
    | none => some (i, e)
    | some (j, f) => if f.ev.below e.ev then some (j, f) else some (i, e)

/-- An event waits for a lower one outside the inbox: in the spill heap (R39), or among the records that a spare core still has to replay
(R369). -/
def Core.behindFloor (k : Core) (e : Ev) : Bool :=
  (k.floor.any fun f => f.below e) || k.held.any fun a => a.replay.any fun r => r.ev.below e

/-- The head of a core, unless the spill floor lies below every entry (R39). -/
def Core.head (k : Core) : Option (Nat × InEv) :=
  match leastFrom 0 k.inbox with
  | none => none
  | some (i, e) => if k.behindFloor e.ev then none else some (i, e)

/-- Remove an inbox entry. -/
def Core.removeIn (k : Core) (i : Nat) : Core := { k with inbox := listDrop k.inbox i }

/-! ## The spill heap (R39, R40, R316) -/

/-- The greatest event of an inbox, with its index. -/
def greatestFrom : Nat → List InEv → Option (Nat × InEv)
  | _, [] => none
  | i, e :: r =>
    match greatestFrom (i + 1) r with
    | none => some (i, e)
    | some (j, f) => if e.ev.below f.ev then some (j, f) else some (i, e)

/-- The spill heap of a core can take a record of `n` bytes (R40). -/
def State.heapTakes (s : State) (k : Core) (n : Nat) : Bool :=
  decide ((k.heap.map List.length).foldl (· + ·) 0 + n ≤ 2 ^ s.spillLog.toNat)

/-- The inbox of a core is full, and its heap cannot take the next record (R40). -/
def State.heapFull (s : State) (c : CoreId) : Bool :=
  let k := s.core c
  decide (k.inbox.length = 64) && (match greatestFrom 0 k.inbox with
    | some (_, e) => !s.heapTakes k (ringBytes e.ev)
    | none => false)

/-! ## Completion counters (R44, R45, R298, R350) -/

/-- The counter of a name, if the name is valid (R298). -/
def counterOf (v : DWord) : Option Nat :=
  if fld v 63 14 ≠ 0 then none
  else
    let i := fld v 11 0
    match fld v 13 12 with
    | 0 => some i
    | 1 => if i < 256 then some (4096 + i) else none
    | 2 => if i < 64 then some (4352 + i) else none
    | _ => if i < 16 then some (4416 + i) else none

/-- The name of a counter. -/
def counterName (n : Nat) : Nat :=
  if n < 4096 then n else if n < 4352 then 4096 + (n - 4096) else if n < 4416 then 8192 + (n - 4352)
  else 12288 + (n - 4416)

/-- A counter. -/
def State.counter (s : State) (n : Nat) : Counter := s.counters.get Counter.reset n

/-- Change a counter. -/
def State.modCounter (s : State) (n : Nat) (f : Counter → Counter) : State :=
  { s with counters := s.counters.put n (f (s.counter n)) }

/-- The image of CNTRD and CNTSTATE (R300, R342). -/
def Counter.image (c : Counter) : DWord :=
  dw (c.count.toNat + b2n c.ufl * 2 ^ 32 + b2n c.canc * 2 ^ 33 + b2n c.done * 2 ^ 34)

/-- The host address of a bus address (R340). -/
def hostPa (a : Nat) : Nat := 2 ^ 50 + a % 2 ^ 50

/-- Deliver a completion form with an identifier, from core 0 of a die (R350). `seen`: what comes before it (R107). -/
def State.deliverForm (s : State) (form : DWord) (ident : Nat) (die : Fin 4) (seen : KMap Nat) : State :=
  match form.toNat % 4 with
  | 1 =>
    let c := mkCore (die.val * 2048)
    let r := s.makeEvent c (dw (form.toNat / 4 * 4)) (s.clockTag c) (.words [dw ident]) false
    r.2.launchEvent c r.1 seen
  | 2 => { s with msix := fld form 12 2 :: s.msix, hostSeen := joinSeen s.hostSeen seen }
  | 3 =>
    { s.memWrite .module (hostPa (form.toNat / 8 * 8)) (leBytes 8 ident) with hostSeen := joinSeen s.hostSeen seen }
  | _ => s

/-- The launch unit's slot change: into the pending-change register, or behind what waits for it (R292). -/
def Slot.queue (t : Slot) (ch : SlotChange) : Slot :=
  if t.pending.isNone ∧ t.waiting.isEmpty then { t with pending := some ch } else { t with waiting := t.waiting ++ [ch] }

/-- A launch has bound the slot, or its bind waits there. -/
def Slot.boundBy (t : Slot) (l : Nat) : Bool :=
  let own : SlotChange → Bool
    | .bind _ (some m) => m == l
    | _ => false
  (match t.owner with
    | some (m, _) => m == l
    | none => false) || (match t.pending with
    | some ch => own ch
    | none => false) || t.waiting.any own

/-- A destination is a slot that the launch has bound, in the generation that it gave it (R351). -/
def Core.ofLaunch (k : Core) (l : Nat) (dest : DWord) : Bool :=
  match (k.slots.get (descSlot dest)).owner with
  | some (m, g) => decide (m = l) && descGen dest == g
  | none => false

/-- A spill record is an event of the launch (R316, R351): by its destination, or as its pool event; a bounce or a fault event is of
none. -/
def Core.recOf (k : Core) (l : Nat) (r : List Byte) : Bool :=
  let dest := dw (leNat (r.take 8))
  let anyGen := k.spilled.any fun e => e.ev.anyGen && (spillRecord e).take 40 == r.take 40
  (!anyGen && k.ofLaunch l dest) || (decide (leNat ((r.drop 40).take 8) % 8 = 0) && decide ((k.slots.get (descSlot dest)).lcnt = l))

/-- The records of a launch leave the spill heap; the floor goes with the last one (R351, R39). -/
def Core.purgeHeap (k : Core) (l : Nat) : Core :=
  let rest := k.heap.filter fun r => !k.recOf l r
  { k with heap := rest
           spilled := k.spilled.filter fun e => (e.ev.anyGen || !k.ofLaunch l e.ev.dest) && e.pool != some l
           spillN := if rest.length = k.heap.length then k.spillN else BitVec.ofNat 32 rest.length
           floor := if rest.isEmpty && !k.heap.isEmpty then none else k.floor }

/-- What the end of a launch does on a core of its range (R351): unbindings, discards, DET_CFG and QUANTUM. -/
def Core.endLaunch (k : Core) (l : Nat) : Core :=
  let gone (e : Ev) : Bool := !e.anyGen && k.ofLaunch l e.dest
  let out := k.inbox.filter fun e => gone e.ev || e.pool == some l
  let slots := Vector.ofFn fun i =>
    let t := k.slots.get i
    if t.boundBy l then t.queue (.unbind (some l)) else t
  out.foldl (fun k e => k.dropBlock e.block)
    { k.purgeHeap l with
      inbox := k.inbox.filter fun e => !(gone e.ev || e.pool == some l),
      held := k.held.filter fun a => !(gone a.ev || a.pool == some l),
      ring := k.ring.filter fun e => !(gone e.ev || e.pool == some l),
      slots := slots, det := false, detRounds := 0, quantum := 4096 }

/-- The results of a launch: the newest version of each of its versioned words (R71), and the counts of its objects, which the
homes write back to their headers (R189). -/
def State.results (s : State) (l : Nat) : List (Nat × DWord) :=
  (s.vers.filterMap fun e => if e.2.lcnt = l then e.2.vers.getLast?.map fun v => (e.1, v.2) else none) ++
    s.objs.filterMap fun e => if e.2.lcnt = l ∧ !e.2.bad then some (e.1 + 16, dw e.2.count) else none

/-- A result is written to memory; it waits for a place in the reserve of a cut (R358). -/
def State.writeResult (s : State) (r : Nat × DWord) : State :=
  if s.cowRoom r.1 then s.memWrite .module r.1 (leBytes 8 r.2.toNat) else { s with lateW := s.lateW ++ [r] }

/-- A launch ends (R351): on the cores of its range, in the versioned aperture, in the capability tables, in the pool. -/
def State.endLaunch (s : State) (l : Nat) : State :=
  match s.launches.find l with
  | none => s
  | some r =>
    let s1 := (upto r.ncore).foldl (fun s i =>
      let c := mkCore (r.first + i)
      match s.cores.find c.val with
      | none => s
      | some _ => s.modCore c fun k => k.endLaunch l) s
    let s2 := (s1.results l).foldl State.writeResult s1
    { s2 with
      launches := s2.launches.drop l
      cores := s2.cores.map fun e => (e.1, { e.2 with caps := e.2.caps.filter fun p => p.2 ≠ l })
      capMsgs := s2.capMsgs.filter fun m => m.lcnt ≠ l
      flight := s2.flight.filter fun f => f.pool ≠ some l
      objs := s2.objs.filter fun e => e.2.lcnt ≠ l
      vers := s2.vers.filter fun e => e.2.lcnt ≠ l
      marks := s2.marks.filter fun e => e.2.2 ≠ l }

/-- A counter delivers its completion; a launch counter's delivery ends the launch, and the parent's count falls
(R44, R350, R351). `f` bounds the levels above. -/
def State.deliver (s : State) (n : Nat) : Nat → State
  | 0 => s
  | f + 1 =>
    let c := s.counter n
    let s1 := s.modCounter n fun c => { c with done := true, live := false }
    let s2 := s1.deliverForm c.form (counterName n + b2n c.canc * 2 ^ 14 + b2n c.ufl * 2 ^ 15) c.die c.seen
    let s3 := if n < 4096 then s2.endLaunch n else s2
    match c.parent with
    | none => s3
    | some p =>
      let s3 := s3.modCounter p fun q => { q with seen := joinSeen q.seen c.seen }
      let q := s3.counter p
      if q.canc then (if q.count = 0 then s3 else s3.modCounter p fun q => { q with count := q.count - 1 })
      else if q.count = 0 then s3.modCounter p fun q => { q with ufl := true }
      else
        let s4 := s3.modCounter p fun q => { q with count := q.count - 1 }
        if q.count = 1 then s4.deliver p f else s4

/-- A decrement of a counter (R44), by one who had seen what `seen` gives (R107). -/
def State.decCounter (s : State) (n : Nat) (seen : KMap Nat) : State :=
  let s := s.modCounter n fun q => { q with seen := joinSeen q.seen seen }
  let q := s.counter n
  if q.canc then (if q.count = 0 then s else s.modCounter n fun q => { q with count := q.count - 1 })
  else if q.count = 0 then s.modCounter n fun q => { q with ufl := true }
  else
    let s1 := s.modCounter n fun q => { q with count := q.count - 1 }
    if q.count = 1 then s1.deliver n 4 else s1

/-- A counter lies in the subtree of another: itself, or a parent within `f` levels. -/
def State.under (s : State) (n root : Nat) : Nat → Bool
  | 0 => decide (n = root)
  | f + 1 => decide (n = root) || (match (s.counter n).parent with
    | none => false
    | some p => s.under p root f)

/-- The topmost cancelled counter above a cancelled one. -/
def State.cancelRoot (s : State) (n : Nat) : Nat → Nat
  | 0 => n
  | f + 1 => match (s.counter n).parent with
    | none => n
    | some p => if (s.counter p).canc && (s.counter p).live then s.cancelRoot p f else n

/-- A reaction of a launch below a counter runs somewhere on the module. -/
def State.runsUnder (s : State) (root : Nat) : Bool :=
  s.cores.any fun e => ctxIds.any fun h => match (e.2.ctx h).run with
    | some r => (e.2.ctx h).live && s.under r.lcnt root 3
    | none => false

/-- Cancelled counters whose subtree runs nothing deliver, children first (R45). -/
def State.cancelled (s : State) : State :=
  (s.counters.map (·.1)).foldl (fun s n =>
    let c := s.counter n
    if c.canc && c.live && !s.runsUnder (s.cancelRoot n 3) then s.deliver n 4 else s) s

/-- Cancel a counter and everything below it (R45). A counter already at zero is not cancelled. -/
def State.cancelCounter (s : State) (n : Nat) : State :=
  if (s.counter n).count = 0 then s
  else
    let s1 := { s with counters := s.counters.map fun (i, (q : Counter)) =>
      (i, if q.live && s.under i n 3 || i == n then { q with canc := true } else q) }
    s1.cancelled

/-! ## The end of a reaction (R52) -/

/-- An event still stands in the inbox, or a reaction that it started runs: a pool event with its units. -/
def Core.inUse (k : Core) (e : Ev) : Bool :=
  (k.inbox.any fun f => f.ev.rkey == e.rkey) || ctxIds.any fun h => (k.ctx h).live && (match (k.ctx h).run with
    | some r => r.events.any fun f => f.1.rkey == e.rkey
    | none => false)

/-- The records of a reaction's events leave the snapshot ring (R369). -/
def Core.unlog (k : Core) (evs : List (Ev × RouteClass)) : Core :=
  if k.logging then
    { k with ring := k.ring.filter fun r => !(evs.any fun e => e.1.rkey == r.ev.rkey) || k.inUse r.ev }
  else k

/-- A pooled unit of a reaction leaves its pool event's record, which goes with the last one once the event has retired (R41, R369). -/
def Core.unlogUnit (k : Core) (r : Run) : Core :=
  { k with ring := k.ring.filterMap fun f =>
      if r.events.any fun e => e.1.rkey == f.ev.rkey then
        let us := f.units.filter fun u => some u.2.1 != r.seqBase
        if f.spent && us.isEmpty then none else some { f with units := us }
      else some f }

/-- A pool event retires: its record stays as long as units of it run (R41, R369). -/
def Core.unlogPool (k : Core) (e : InEv) : Core :=
  { k with ring := k.ring.filterMap fun f =>
      if f.ev.rkey == e.ev.rkey then (if f.units.isEmpty then none else some { f with spent := true }) else some f }

/-- What posted an extraction in a context has ended: the outcome is no acquire there (R106). -/
def Core.dropExtx (k : Core) (h : CtxId) : Core :=
  { k with extx := k.extx.map fun e => if e.ctx = some h then { e with ctx := none } else e }

/-- A helper's reaction ends: b registers cleared, context free, holds dropped, block slot free, launch counter
decremented (R52). Its outstanding requests are abandoned (R253, R363). Reactions that start on the core later come after it
(R102). -/
def State.endReaction (s : State) (c : CoreId) (h : CtxId) : State :=
  let x := (s.core c).ctx h
  let s1 := (s.modCtx c h fun x =>
    { x.clearB with live := false, stop := .no, run := none, fq := [], retired := 0, reqs := [], latch := none }).modCore c
    fun k => { k.dropExtx h with endSeen := joinSeen k.endSeen x.seen }
  match x.run with
  | none => s1
  | some r =>
    ((s1.modCore c fun k => if r.pool then k.unlogUnit r else (k.dropBlock r.block).unlog r.events).decCounter r.lcnt x.seen).cancelled

end Sys2Proof.Machine
end

