-- ==== Sys2Proof/Machine/Reactions.lean ====
section
/-! DEFINITION. The selector and the ends of reactions: starts (R27 to R32), pooled units (R41 to R43), discards at the head
(R37, R45), slot changes taking effect (R25, R33, R292), heartbeats (R46). -/

namespace Sys2Proof.Machine

/-! ## What may start (R27, R46, R357, R371) -/

/-- A reaction of a slot runs on the core. -/
def Core.runsSlot (k : Core) (i : Fin 64) : Bool :=
  ctxIds.any fun h => (k.ctx h).live && (match (k.ctx h).run with
    | some r => r.slot == i
    | none => false)

/-- A running reaction holds a slot: its slot's hold set, always its own. Units of one pooled routine do not hold one another:
`unit` says that what would start is a unit (R24, R294). -/
def Core.held? (k : Core) (i : Fin 64) (unit : Bool) : Bool :=
  ctxIds.any fun h => (k.ctx h).live && (match (k.ctx h).run with
    | some r => if r.slot = i then !(r.pool && unit) else bit (k.slots.get r.slot).hold i.val
    | none => false)

/-- The lowest-numbered free helper (R28). -/
def Core.freeHelper (k : Core) : Option CtxId :=
  ([1, 2, 3, 4, 5, 6, 7, 8, 9, 10] : List CtxId).find? fun h => !(k.ctx h).live

/-- The selector of a core is stopped: fenced (R46), halted (R318), frozen (R371). -/
def State.noStarts (s : State) (c : CoreId) : Bool := (s.core c).fenced || (s.core c).halted || s.stopped

/-- A pending cut stops starts at its time and later (R357). -/
def State.cutHolds (s : State) (t : DWord) : Bool :=
  decide (s.ckState = 1 ∨ s.ckState = 2) && (match s.cut with
    | some q => decide (q.tc.toNat ≤ t.toNat)
    | none => false)

/-- The head is safe (R27); a re-tagged late event is safe at once (R35). -/
def State.safe (s : State) (c : CoreId) (e : InEv) : Bool :=
  e.late.isSome || decide (e.ev.tag.t.toNat + (s.core c).horizon ≤ s.clock c)

/-- A slot belongs to a cancelled launch, whose counter may have delivered (R45). -/
def State.slotCancelled (s : State) (t : Slot) : Bool := t.bound && (s.counter t.lcnt).canc

/-- A BIND waits at the slot: until it takes effect, the slot's events wait in the inbox (R25). -/
def Slot.rebinding (t : Slot) : Bool :=
  match t.pending with
  | some (.bind _ _) => true
  | _ => false

/-- The head of a core when every condition of R27 but the join's holds: index, event, slot, helper. -/
def State.ready? (s : State) (c : CoreId) : Option (Nat × InEv × Fin 64 × CtxId) :=
  let k := s.core c
  if s.noStarts c then none
  else match k.head, k.freeHelper with
    | some (i, e), some h =>
      let n := descSlot e.ev.dest
      let t := k.slots.get n
      if t.bound && !t.rebinding && k.genOk e.ev && !s.slotCancelled t && !k.held? n e.pool.isSome && s.safe c e &&
          !s.cutHolds e.ev.tag.t then
        some (i, e, n, h)
      else none
    | _, _ => none

/-! ## Joins (R31, R32) -/

/-- Insert an event by R14. -/
def insertEv (e : InEv) : List InEv → List InEv
  | [] => [e]
  | f :: r => if e.ev.below f.ev then e :: f :: r else f :: insertEv e r

/-- An inbox event belongs to the join group of the head: its slot, its tag, its generation, not above the floor. -/
def Core.inGroup (k : Core) (n : Fin 64) (e f : InEv) : Bool :=
  decide (descSlot f.ev.dest = n) && decide (f.ev.tag = e.ev.tag) && k.genOk f.ev && f.pool.isNone && !k.behindFloor f.ev

/-- The join group of the head, in R14 order. -/
def Core.group (k : Core) (n : Fin 64) (e : InEv) : List InEv :=
  (k.inbox.filter fun f => k.inGroup n e f).foldl (fun l f => insertEv f l) []

/-! ## Entry (R28, R29) -/

/-- Words of a payload: up to four, zero beyond. -/
def payloadWord (p : Payload) (i : Nat) : DWord :=
  match p with
  | .words ws => ws.getD i 0
  | _ => 0

/-- v0 at entry. -/
def payloadVec (p : Payload) : Vec :=
  match p with
  | .vector v => v
  | .block b => BitVec.ofNat 1024 (leNat (b.take 128))
  | _ => 0

/-- A joined block lost its tail. -/
def truncated (p : Payload) : Bool :=
  match p with
  | .block b => decide (128 < b.length)
  | _ => false

/-- x6 at entry (R29). -/
def entryInfo (n : Fin 64) (evs : List InEv) (join pool : Bool) : DWord :=
  dw (n.val + evs.length * 2 ^ 6 + b2n (evs.any fun e => e.ev.sendLate) * 2 ^ 11 + b2n (evs.any fun e => e.ev.bex) * 2 ^ 12 +
    b2n (evs.any fun e => e.late.isSome) * 2 ^ 13 + b2n (join && evs.any fun e => truncated e.ev.payload) * 2 ^ 14 +
    b2n pool * 2 ^ 15 + b2n (evs.any fun e => e.ev.replay || e.rerun) * 2 ^ 16)

/-- Values that a reaction's start leaves unpredictable (R28; log 2): 160 of them are drawn. -/
def freeRegs : Nat := 160

/-- What a reaction comes after when it starts: the SENDs of its events (R101), the reactions that ended on the core (R102). -/
def Core.startSeen (k : Core) (evs : List InEv) : KMap Nat :=
  evs.foldl (fun m (e : InEv) => joinSeen m e.seen) k.endSeen

/-- A helper enters a reaction: registers of R28, all others unpredictable, b registers cleared, BEAT_LEFT reloaded. -/
def Ctx.enter (x : Ctx) (k : Core) (h : CtxId) (t : Slot) (e : InEv) (x6 x7 : DWord) (r : Run) (n : Nat) (free : Nat) :
    Ctx :=
  let regs : Vector DWord 32 := Vector.ofFn fun i =>
    match i.val with
    | 0 => 0
    | 1 => payloadWord e.ev.payload 0
    | 2 => payloadWord e.ev.payload 1
    | 3 => payloadWord e.ev.payload 2
    | 4 => payloadWord e.ev.payload 3
    | 5 => e.ev.origin
    | 6 => x6
    | 7 => x7
    | 28 => k.lx28
    | 29 => k.lx29
    | 31 => dw (k.lstk.toNat + 2048 * h.val)
    | j => Config.free 64 (free + j)
  { x.clearB with
    live := true
    pc := t.code
    x := regs
    f := Vector.ofFn fun i => Config.free 64 (free + 32 + i.val)
    v := Vector.ofFn fun i => if i.val = 0 then payloadVec e.ev.payload else Config.free 1024 (free + 64 + i.val)
    p := Vector.ofFn fun i => Config.free 32 (free + 96 + i.val)
    beatLeft := k.beatIv
    tnow := e.ev.tag
    slot := BitVec.ofNat 6 r.slot.val
    origin := e.ev.origin
    joinN := BitVec.ofNat 5 n
    stop := .no
    fq := []
    run := some r
    setup := none
    retired := 0
    obsT := 0
    obs := []
    relS := 0
    behind := []
    latch := none }

/-- Write the join buffer: one 128-byte entry per arrival, each set full, the rest of an entry unpredictable (R31). -/
def Core.writeJoin (k : Core) (a free : Nat) : List InEv → Core
  | [] => k
  | e :: r =>
    let b := e.ev.payload.bytes.take 128
    let pad := (leBytes 128 (Config.free 1024 free).toNat).drop b.length
    (k.deliver a (b ++ pad)).writeJoin (a + 128) (free + 1) r

/-- The late record of the first late event of a group is loaded (R35). -/
def Core.loadLate (k : Core) (evs : List InEv) : Core :=
  match evs.find? fun e => e.late.isSome with
  | some e => { k with late := e.late.getD k.late }
  | none => k

/-- The records of a reaction's events in a snapshot ring remember its sequence base and its context (R369). -/
def logBase (base : Word × CtxId) (evs ring : List InEv) : List InEv :=
  ring.map fun (f : InEv) => if evs.any fun (g : InEv) => g.ev.rkey == f.ev.rkey then { f with base := some base } else f

/-- The first event of a launch starts (R67): the writes performed until then are counted once. -/
def State.begin (s : State) (l : Nat) : State :=
  match s.launches.find l with
  | some r => if r.began.isSome then s else { s with launches := s.launches.put l { r with began := some s.past.length } }
  | none => s

/-- The writes that were performed when a launch's first event started; of one that is over, all of them. -/
def State.since (s : State) (l : Nat) : Nat := ((s.launches.find l).bind Launch.began).getD s.past.length

/-- A reaction starts in a helper with the events given, least first (R28). A logged core reserves its sequence numbers; a
re-run takes those of the first run and names that run's context as its origin (R15, R48, R369). -/
def State.startReaction (s : State) (c : CoreId) (h : CtxId) (n : Fin 64) (evs : List InEv) : State :=
  let k := s.core c
  match evs.map k.current with
  | [] => s
  | e :: l =>
    let t := k.slots.get n
    let join := decide (1 < t.k)
    let keep := if join then none else e.block
    let x7 := if join then t.jbuf.setWidth 64 else match keep with
      | some b => dw (k.blockAddr b)
      | none => 0
    let num := k.logging && t.restart
    let again := evs.findSome? fun f => f.base
    let base := again.getD (k.seq, h)
    let r : Run := { slot := n, restartable := t.restart, pool := false, replay := evs.any InEv.rerun, lcnt := t.lcnt,
                     block := keep, events := evs.map fun e => (e.ev, e.cls),
                     seqBase := if num then some base.1 else none, sends := 0, asCtx := base.2, since := s.since t.lcnt }
    let k1 := { k with inbox := k.inbox.filter fun f => !evs.contains f, last := e.ev.tag, selAt := some s.cycle,
                       seq := if num && again.isNone then k.seq + 256 else k.seq
                       ring := if num then logBase base evs k.ring else k.ring }.loadLate evs
    let k2 := if join then (evs.foldl (fun k f => k.dropBlock f.block) (k1.writeJoin t.jbuf.toNat (s.freeCtr + freeRegs) (e :: l)))
              else k1
    let k3 := k2.modCtx h fun x =>
      { x.enter k h t e (entryInfo n evs join false) x7 r evs.length s.freeCtr with seen := joinSeen x.seen (k.startSeen evs) }
    ({ s with freeCtr := s.freeCtr + freeRegs + evs.length }.setCore c (k3.perf 0x10 1)).begin t.lcnt

/-- What the selector may start in this cycle: it starts at most one reaction in a cycle, and none in a cycle in which the
crossbar has made a local event, whose tag follows the last start of the cycle (R27, R51). -/
def State.selects (s : State) (c : CoreId) : Option (Nat × InEv × Fin 64 × CtxId) :=
  if (s.core c).selAt = some s.cycle then none else s.ready? c

/-- REACTION_START (R27, R28): a complete head starts. -/
def State.tryStart (s : State) (c : CoreId) : Option State :=
  match s.selects c with
  | none => none
  | some (_, e, n, h) =>
    let k := s.core c
    let t := k.slots.get n
    if e.pool.isSome then none
    else if t.k ≤ 1 then some (s.startReaction c h n [e])
    else
      let g := k.group n e
      if t.k ≤ g.length then some (s.startReaction c h n (g.take t.k)) else none

/-- JOIN_GRACE_EXPIRED (R31): an incomplete join starts when CLOCK reaches t + H + G. -/
def State.tryGrace (s : State) (c : CoreId) : Option State :=
  match s.selects c with
  | none => none
  | some (_, e, n, h) =>
    let k := s.core c
    let t := k.slots.get n
    let g := k.group n e
    if e.pool.isNone && decide (1 < t.k) && decide (g.length < t.k) &&
        decide (e.ev.tag.t.toNat + k.horizon + t.g.toNat ≤ s.clock c) then
      some (s.startReaction c h n g)
    else none

/-! ## Pooled work (R41, R42) -/

/-- Pull an index from the ranges of a pool, in the die order of R41. -/
def pullFrom (die : Nat) (ranges : List (Nat × Nat)) : Nat → Option (Nat × List (Nat × Nat))
  | 0 => none
  | f + 1 =>
    match ranges[die % 4]? with
    | some (lo, hi) => if lo < hi then some (lo, listPut ranges (die % 4) (lo + 1, hi)) else pullFrom (die + 1) ranges f
    | none => none

/-- Pull the next index of a launch's pool for a core, if any remains. -/
def State.pull (s : State) (c : CoreId) (l : Nat) : Option Nat × State :=
  match s.launches.find l with
  | none => (none, s)
  | some r => match pullFrom (dieOf c.val) r.ranges 4 with
    | none => (none, s)
    | some (i, q) => (some i, { s with launches := s.launches.put l { r with ranges := q } })

/-- A pool event leaves the inbox, or stays for the units that are still to run again (R369). -/
def Core.dropPool (k : Core) (i : Nat) (e : InEv) : Core :=
  if e.units.isEmpty then k.removeIn i else { k with inbox := listPut k.inbox i { e with spent := true } }

/-- A pool event retires: the launch counter falls (R41, R44), unless it fell before the core was re-run (R369). -/
def State.retirePool (s : State) (c : CoreId) (i : Nat) (e : InEv) (l : Nat) : State :=
  if e.spent then s.modCore c fun k => k.dropPool i e
  else ((s.modCore c fun k => (k.dropPool i e).unlogPool e).decCounter l []).cancelled

/-- A pooled unit's index, sequence base and context join the record of its pool event (R41, R369). -/
def logUnit (u : Nat × Word × CtxId) (e : InEv) (ring : List InEv) : List InEv :=
  ring.map fun (f : InEv) => if f.ev.rkey == e.ev.rkey then { f with units := f.units ++ [u] } else f

/-- A pooled unit starts in a helper with an index (R41, R28); a re-run takes the sequence base and names the context of the first run
(R48, R369). -/
def State.startUnit (s : State) (c : CoreId) (h : CtxId) (n : Fin 64) (e : InEv) (ix : Nat) (again : Option (Word × CtxId)) : State :=
  let e := { e with rerun := again.isSome }
  let k := s.core c
  let t := k.slots.get n
  let num := k.logging && t.restart
  let base := again.getD (k.seq, h)
  let r : Run := { slot := n, restartable := t.restart, pool := true, replay := e.rerun, lcnt := t.lcnt,
                   block := none, events := [(e.ev, e.cls)], seqBase := if num then some base.1 else none, sends := 0,
                   asCtx := base.2, since := s.since t.lcnt }
  let k1 := { k with last := e.ev.tag, selAt := some s.cycle, seq := if num && again.isNone then k.seq + 256 else k.seq
                     ring := if num && again.isNone then logUnit (ix, base) e k.ring else k.ring }.loadLate [e]
  let k2 := k1.modCtx h fun x =>
    { x.enter k h t e (entryInfo n [e] false true) (dw ix) r 1 s.freeCtr with seen := joinSeen x.seen (k.startSeen [e]) }
  ({ s with freeCtr := s.freeCtr + freeRegs }.setCore c (k2.perf 0x10 1)).begin t.lcnt

/-- One pull of the selector for an open pool event at the head: a unit starts, or the event retires (R41). The units of a re-run start
again first, with their own indices (R369). -/
def State.pullUnit (s : State) (c : CoreId) : Option State :=
  match s.ready? c with
  | none => none
  | some (i, e, n, h) =>
    match e.pool with
    | none => none
    | some l =>
      match e.units with
      | (ix, base) :: rest =>
        some ((s.modCore c fun k => { k with inbox := listPut k.inbox i { e with units := rest } }).startUnit c h n e ix (some base))
      | [] =>
        if e.spent then some (s.retirePool c i e l)
        else match s.pull c l with
          | (none, s1) => some (s1.retirePool c i e l)
          | (some ix, s1) => some (s1.startUnit c h n e ix none)

/-- The launch is deterministic (R109). -/
def State.isDet (s : State) (l : Nat) : Bool :=
  match s.launches.find l with
  | some r => r.det
  | none => false

/-- POOL_UNIT_START (R41): under DET the pulls belong to the close of a round (R109). -/
def State.tryUnit (s : State) (c : CoreId) : Option State :=
  match s.selects c with
  | some (_, e, _, _) => match e.pool with
    | some l => if s.isDet l then none else s.pullUnit c
    | none => none
  | none => none

/-! ## Discards at the head (R37, R45) -/

/-- HEAD_STALE_DISCARD (R37). -/
def State.tryStale (s : State) (c : CoreId) : Option State :=
  let k := s.core c
  match k.head with
  | some (i, e) => if k.genOk e.ev then none
                   else some ((s.modCore c fun k => ((k.removeIn i).dropBlock e.block).unlog [(e.ev, e.cls)]).discardStale c e.ev
                     e.orig)
  | none => none

/-- CANCELLED_EVENT_DISCARD (R45): an event of a cancelled launch is discarded at the head, a pool event retires. -/
def State.tryCancelled (s : State) (c : CoreId) : Option State :=
  let k := s.core c
  match k.head with
  | some (i, e) =>
    let t := k.slots.get (descSlot e.ev.dest)
    if k.genOk e.ev && s.slotCancelled t then
      match e.pool with
      | some l => some (s.retirePool c i { e with units := [] } l)
      | none => some (s.modCore c fun k => ((k.removeIn i).dropBlock e.block).unlog [(e.ev, e.cls)])
    else none
  | none => none

/-! ## Slot changes (R25, R33, R292, R293, R351) -/

/-- A slot change takes effect. An unbinding of a launch's end also returns the arm word (R351). -/
def Slot.change (t : Slot) (i : Fin 64) : SlotChange → Slot
  | .bind r l =>
    { t with bound := true, code := r.code, hold := r.hold ||| dw (2 ^ i.val), late := r.late, pool := r.pool,
             restart := r.restart, lcnt := r.lcnt, gen := t.gen + 1,
             owner := match l with
               | some n => some (n, t.gen + 1)
               | none => t.owner }
  | .unbind none => { t with bound := false, late := none }
  | .unbind (some _) => { t with bound := false, late := none, k := 1, g := 0, jbuf := 0, owner := none }
  | .arm k g j _ => { t with k := k, g := g, jbuf := j }

/-- The pending change takes effect and the next one that waits becomes pending (R292). -/
def Slot.advance (t : Slot) (i : Fin 64) : Slot :=
  match t.pending with
  | none => t
  | some ch =>
    match t.waiting with
    | [] => { t.change i ch with pending := none }
    | w :: r => { t.change i ch with pending := some w, waiting := r }

/-- Every bound routine of the core is restartable (R369). -/
def Core.allRestart (k : Core) : Bool := (List.finRange 64).all fun i => !(k.slots.get i).bound || (k.slots.get i).restart

/-- A core on which a routine without the restartable attribute is bound keeps no snapshot ring (R369). -/
def Core.relog (k : Core) : Core := if k.logging && !k.allRestart then { k with logging := false, ring := [] } else k

/-- SLOT_CHANGE_EFFECT (R25): at an instant at which no reaction of the slot runs. -/
def State.trySlot (s : State) (c : CoreId) (i : Fin 64) : Option State :=
  let k := s.core c
  if (k.slots.get i).pending.isSome && !k.runsSlot i then
    some (s.modCore c fun k => { k with slots := vmod k.slots i fun t => t.advance i }.relog)
  else none

/-! ## Heartbeats (R46, R364, R366) -/

/-- A fault event for a missed heartbeat goes to the control cores that R46 names. The one for the landing's home context
takes its sequence number too, but enters no inbox: the home context records the core in FENCE and runs nothing (R366). -/
def State.missEvents (s : State) (c : CoreId) (h : CtxId) (ls : List Nat) : State :=
  ls.foldl (fun s l => match s.launches.find l with
    | some r => s.faultEvent c (mkCore r.first) 0x13 h
    | none => s) (s.takeSeq c).2

/-- The launches to whose control cores a miss of a context is reported (R46). -/
def State.missLaunches (s : State) (c : CoreId) (h : CtxId) : List Nat :=
  let k := s.core c
  let of (x : Ctx) : List Nat := match x.run, x.setup with
    | some r, _ => [r.lcnt]
    | none, some l => [l]
    | none, none => []
  if h = 13 then
    if hc : k.trap.ctx < 11 then of (k.ctx ⟨k.trap.ctx, Nat.lt_trans hc (by decide)⟩)
    else (s.launches.filter fun e => decide (e.2.first ≤ c.val) && decide (c.val < e.2.first + e.2.ncore)).map (·.1)
  else of (k.ctx h)

/-- HEARTBEAT_MISSED (R46): the core is fenced. -/
def State.fence (s : State) (c : CoreId) (h : CtxId) : State :=
  (s.modCore c fun k => { k with fenced := true }).missEvents c h (s.missLaunches c h)

/-- A context whose BEAT_LEFT has run out misses its heartbeat. -/
def State.tryMiss (s : State) (c : CoreId) (h : CtxId) : Option State :=
  let k := s.core c
  if (k.ctx h).beats h && decide ((k.ctx h).beatLeft = 0) && decide (k.beatOf h ≠ 0) then some (s.fence c h)
  else none

/-- `n` core cycles pass, and the heartbeats that run out in them are missed, before anything else happens (R46, R364). -/
def State.pass (n : Nat) (s : State) : State :=
  let due := (s.cores.map fun e => (e.2.missed n).map fun h => (mkCore e.1, h)).flatten
  (if s.stopped then [] else due).foldl (fun t m => (t.tryMiss m.1 m.2).getD t) (s.advance n)

end Sys2Proof.Machine
end

