-- ==== Sys2Proof/Machine/Global.lean ====
section
/-! DEFINITION. Global memory beyond its bytes: versioned words (R71, R74), the directory and its overflow (R65, R66, R79), own
writes against fetch (R214), and how an instruction issues its request (R253, R258 to R266). -/

namespace Sys2Proof.Machine

/-! ## Versions (R71, R74) -/

/-- What a read of a word without version returns (R71, R74). -/
def noVersion : DWord := 0x8000000000000000

/-- The word at a PA. -/
def State.verAt (s : State) (pa : Nat) : VerWord := s.vers.get ⟨[], 0, []⟩ (pa / 8 * 8)

/-- The newest version, or the sentinel (R74). -/
def State.newest (s : State) (pa : Nat) : DWord :=
  match (s.verAt pa).vers.getLast? with
  | some (_, v) => v
  | none => noVersion

/-- The region of a VA (R71). -/
def regionOf (va : DWord) : Nat := fld va 55 16

/-- What names a region's watermark: the page behind it and its VA, so that live launches with page tables of their own keep
watermarks of their own. -/
def markKey (pa : Nat) (va : DWord) : Nat := pageOf pa * 2 ^ 40 + regionOf va

/-- The watermark of a region (R71). -/
def State.mark (s : State) (pa : Nat) (va : DWord) : Nat := (s.marks.get (0, 0) (markKey pa va)).1

/-- The launch whose range holds a core, if any: the one whose aperture its versioned accesses are of (R71, R75). -/
def State.launchOf (s : State) (c : CoreId) : Option (Nat × Launch) :=
  s.launches.find? fun e => decide (e.2.first ≤ c.val) && decide (c.val < e.2.first + e.2.ncore)

/-- The launch of a context's work: of its reaction, or of its set-up. -/
def State.workOf (s : State) (c : CoreId) (h : CtxId) : Nat :=
  let x := (s.core c).ctx h
  match x.run, x.setup with
  | some r, _ => r.lcnt
  | none, some l => l
  | none, none => match s.launchOf c with
    | some (l, _) => l
    | none => 0

/-- CapHeld (R71, R75): in the core's table, or in the default holding of the launch whose control core it is. -/
def State.capHeld (s : State) (c : CoreId) (region : Nat) : Bool :=
  ((s.core c).caps.any fun p => p.1 == region) ||
    (s.launches.any fun e => e.2.first == c.val && !e.2.given.contains region)

/-! ## The directory (R57, R65, R66, R79) -/

/-- The home landing of a local HBM address (R57). -/
def homeLanding (pa : Nat) : Nat := pa / 4096 % 512

/-- A directory entry without sharers. -/
def DirEnt.empty : DirEnt := { sharers := [], overflow := false, held := false, write := none }

/-- The directory entry of the line of a PA. -/
def State.dirAt (s : State) (pa : Nat) : DirEnt := s.dir.get .empty (lineOf pa)

/-- Core 0 of a landing: its context 11 runs the home routine (R12). -/
def homeCore (landing : Nat) : CoreId := mkCore (landing * 16)

/-- The home context becomes live, at the tag (LAST_T, LAST_M) (R12, R20). -/
def Core.wakeHome (k : Core) : Core :=
  if (k.ctx 11).live then k else k.modCtx 11 fun x => { x with live := true, stop := .no, tnow := k.last }

/-- Context 11 of core 0 of the home's landing becomes live: for a notice, or for a write that meets an overflowed line
(R12, R66). -/
def State.wakeHome (s : State) (pa : Nat) : State := s.modCore (homeCore (homeLanding pa)) Core.wakeHome

/-- The entry of a line is overflowed: writes are held at the home (R65). -/
def State.overflowed (s : State) (pa : Nat) : Bool := (s.dirAt pa).overflow

/-- A write is held at an overflowed line: reads of the line wait too (R65). -/
def State.lineHeld (s : State) (pa : Nat) : Bool := (s.dirAt pa).overflow && (s.dirAt pa).held

/-- The home holds a write of an overflowed line, which its routine is to invalidate (R65); a write from outside is kept there. -/
def State.holdLine (s : State) (pa : Nat) (w : Option HeldWrite := none) : State :=
  { s with dir := s.dir.put (lineOf pa) { s.dirAt pa with held := true, write := w } }.wakeHome pa

/-- A core is a sharer of a line: by a pointer, in the overflow table, or in a notice that the home routine has still to
serve (R65). -/
def State.isSharer (s : State) (c : CoreId) (pa : Nat) : Bool :=
  let l := homeLanding pa
  (s.dirAt pa).sharers.contains c.val || (s.ovfTab.get [] l).contains (lineOf pa, c.val) ||
    (s.notices.get [] l).contains (lineOf pa, c.val)

/-- A core's read of a line finds a free pointer (R65). -/
def State.pointerFree (s : State) (pa : Nat) : Bool := decide ((s.dirAt pa).sharers.length < 4) && !(s.dirAt pa).overflow

/-- A read that allocates a line can be served: 32 notices at most stand at a home (R65, R66). -/
def State.shareOpen (s : State) (c : CoreId) (pa : Nat) : Bool :=
  !inHbm pa || s.isSharer c pa || s.pointerFree pa || decide ((s.notices.get [] (homeLanding pa)).length < 32)

/-- A reader beyond the four pointers overflows the entry of a line: the read is served, and the home routine has a notice
(R65). -/
def State.overflowLine (s : State) (line : Nat) (c : CoreId) : State :=
  let l := homeLanding line
  ({ s with dir := s.dir.put (lineOf line) { s.dirAt line with overflow := true },
            notices := s.notices.put l (s.notices.get [] l ++ [(lineOf line, c.val)]) }.wakeHome line).modCore (homeCore l)
    fun k => k.perf 0x21 1

/-- A core reads a line into its L1: its pointer, or the overflow (R65). -/
def State.shareLine (s : State) (c : CoreId) (pa : Nat) : State :=
  if !inHbm pa || s.isSharer c pa then s
  else if s.pointerFree pa then
    { s with dir := s.dir.put (lineOf pa) { s.dirAt pa with sharers := (s.dirAt pa).sharers ++ [c.val] } }
  else s.overflowLine (lineOf pa) c

/-- A granted write invalidates every sharer; the writer's L1 may own the line (R64, R65). -/
def State.ownLine (s : State) (c : CoreId) (pa : Nat) : State :=
  if !inHbm pa then s else { s with dir := s.dir.put (lineOf pa) { DirEnt.empty with sharers := [c.val] } }

/-- A granted write that no L1 keeps: the line has no sharer. -/
def State.unshare (s : State) (pa : Nat) : State := { s with dir := s.dir.drop (lineOf pa) }

/-- A home routine with nothing left to do stops: its landing has no notice, and no write is held there (R66). -/
def State.homeRest (s : State) (landing : Nat) : State :=
  if (s.notices.get [] landing).isEmpty && !(s.dir.any fun e => homeLanding e.1 == landing && e.2.overflow && e.2.held) then
    s.modCore (homeCore landing) fun k => k.modCtx 11 fun x => { x with live := false, stop := .no }
  else s

/-- Every sharer of a line is invalidated: by its pointers, in the table, in the notices (R65). -/
def State.invalidate (s : State) (line : Nat) : State :=
  let l := homeLanding line
  let mine (e : Nat × Nat) : Bool := e.1 == line
  let tab := s.ovfTab.get [] l
  let ns := s.notices.get [] l
  let n := (s.dirAt line).sharers.length + (tab.filter mine).length + (ns.filter mine).length
  ({ s with ovfTab := s.ovfTab.put l (tab.filter fun e => !mine e),
            notices := s.notices.put l (ns.filter fun e => !mine e) }.unshare line).modCore (homeCore l) fun k => k.perf 0x22 n

/-- The address of an entry of a landing's overflow table (R342; log 68). -/
def State.ovfAddr (s : State) (landing i : Nat) : Nat := s.ovfBase.toNat * 65536 + landing * 2 ^ s.ovfLog.toNat + 8 * i

/-- The home routine records a sharer in its table in HBM (R65; log 68). -/
def State.ovfRecord (s : State) (landing : Nat) (e : Nat × Nat) : State :=
  let tab := s.ovfTab.get [] landing
  let s1 := (s.draw 64).2
  { s1.memWrite (.context (homeCore landing) 11) (s.ovfAddr landing tab.length) (leBytes 8 (s.draw 64).1.toNat) with
    ovfTab := s.ovfTab.put landing (tab ++ [e]) }

/-- The table of a landing is full (R66; log 68). -/
def State.ovfFull (s : State) (landing : Nat) : Bool := decide (2 ^ s.ovfLog.toNat < 8 * ((s.ovfTab.get [] landing).length + 1))

/-- A policy and a page kind that allocate in L1 (R79). -/
def allocates (pol : Policy) (kind : Nat) : Bool :=
  match kind, pol with
  | 0, .normal => true
  | 0, .keep => true
  | 1, .keep => true
  | _, _ => false

/-! ## Objects' own memory (R189) -/

/-- A physical range meets the header of an object, or its storage: 8 bytes for each of its entries, page by page, whatever address
names them (R189). -/
def State.objMeets (s : State) (pa n : Nat) : Bool :=
  s.objs.any fun e =>
    meets e.1 64 pa n ||
      (let first := e.2.store.toNat / 65536
       let last := (e.2.store.toNat + 8 * e.2.cap - 1) / 65536
       !e.2.bad && decide (e.2.store.toNat + 8 * e.2.cap < 2 ^ 56) && (upto (last - first + 1)).any fun i =>
        match s.walk (homeCore (homeLanding e.1)) ((first + i) * 65536) with
        | .ok w =>
          let p := s.pageAddr w ((first + i) * 65536)
          let lo := max (e.2.store.toNat) ((first + i) * 65536)
          let hi := min (e.2.store.toNat + 8 * e.2.cap) ((first + i + 1) * 65536)
          meets (p + lo % 65536) (hi - lo) pa n
        | .error _ => false)

/-- A range meets the header or the storage of an object of a launch: what a plain read of it returns is unpredictable. -/
def State.objOpen (s : State) (pa : Nat) (va : DWord) (n : Nat) : Bool :=
  s.objMeets pa n || s.objs.any fun e => meets e.2.store.toNat (8 * e.2.cap) va.toNat n

/-! ## Own writes against fetch (R214) -/

/-- A write meets `n` bytes of code from an address on, by virtual or by physical address, on whichever of two pages. -/
def State.codeMeets (s : State) (c : CoreId) (at_ n : Nat) (va : DWord) (pa m : Nat) : Bool :=
  let first := min n (65536 - at_ % 65536)
  let onPage (a k : Nat) : Bool := decide (k ≠ 0) && (match s.walk c a with
    | .ok e => meets (s.pageAddr e a) k pa m
    | .error _ => false)
  meets at_ n va.toNat m || onPage at_ first || onPage (at_ + first) (n - first)

/-- A prefetch buffer of a register overlaps a write. -/
def State.bufHit (s : State) (c : CoreId) (b : BReg) (va : DWord) (pa n : Nat) : Bool := s.codeMeets c b.tgt.toNat 16 va pa n

/-- The code lines that a prefetch of a register reads overlap a write. -/
def State.linesHit (s : State) (c : CoreId) (b : BReg) (va : DWord) (pa n : Nat) : Bool :=
  s.codeMeets c (b.tgt.toNat / 16 * 16) (if b.tgt.toNat % 16 = 0 then 16 else 32) va pa n

/-- A write of the core's own is compared with its code cache and prefetch buffers: lines are invalidated, prefetches
restarted (R214). -/
def State.snoop (s : State) (c : CoreId) (va : DWord) (pa n : Nat) : State :=
  s.modCore c fun k =>
    { k with
      code := k.code.filter fun l => !meets (l.1 * 16) 16 pa n
      ctxs := Vector.ofFn fun h =>
        let x := k.ctx h
        { x with b := Vector.ofFn fun i =>
            let b := x.b.get i
            if b.v && (b.ready || b.busy) && s.bufHit c b va pa n then b.start else b } }

/-! ## Issuing requests -/

/-- The issuing context runs a reaction of a restartable routine (R285). -/
def State.restartable (s : State) : Bool :=
  match s.cx.run with
  | some r => r.restartable
  | none => false

/-- In a reaction of a restartable routine the instruction is fault 0x08 (R47, R287). -/
def State.notInRestartable (s : State) (va : DWord := 0) (kind : Nat := 0) : Except Stop Unit :=
  check (!s.restartable) 0x08 va (dw (256 * kind))

/-- FINFO of a fault 0x08 of a load. -/
def fi08 (k : Access) : DWord := dw (256 * k.code)

/-- The page has attribute V or OBJ: fault 0x08 (R74, R78). -/
def EA.plain (e : EA) (k : Access) : Except Stop Unit := check (!e.isV && !e.isObj) 0x08 e.va (fi08 k)

/-- A check after the translation, which keeps its TLB fill. -/
def checkIn (s : State) (c : Bool) (cause : Byte) (faddr finfo : DWord) : Except Stop Unit :=
  if c then .ok () else .error (.trapIn ⟨cause, faddr, finfo⟩ s)

/-- FINFO of cause 0x1D (R361). -/
def State.fi1D (s : State) (pa : Nat) : DWord := (s.remoteDev pa).setWidth 64

/-- A request for a module that the fabric cannot reach: its reply is the fault (R84). -/
def State.unreachFault (s : State) (va : DWord) (pa : Nat) : Option TrapInfo :=
  if s.paUnreachable pa then some ⟨0x1D, va, s.fi1D pa⟩ else none

/-- Attributes that an access remembers: V, OBJ, uncached, L1 allocation (R67, R74, R79). -/
def EA.attrs (e : EA) (pol : Policy) : DWord :=
  dw (b2n e.isV + 2 * b2n e.isObj + 4 * b2n (decide (pteKind e.page.leaf = 2)) +
    8 * b2n (allocates pol (pteKind e.page.leaf)))

/-- Issue a split-phase load of `n` bytes (R253); one of another module leaves as a packet later (R84). -/
def State.issueLoad (s : State) (kind : ReqKind) (e : EA) (n : Nat) (d : Reg) (aux : DWord) (gate : Bool)
    (scope : Nat := 7) : State :=
  let q := s.newReq kind e.va e.pa n d 0 aux
  s.post { q with gate := gate, scope := scope, enc := e.isC, sent := !isRemote e.pa, fault := s.unreachFault e.va e.pa }

/-- What every split-phase instruction waits for first: its destination, an acquire's value, a reply's place (R253). -/
def State.splitReady (s : State) (d : Reg) : Except Stop Unit := do
  s.regReady d
  s.memGate
  s.replyRoom

/-- The scope at which a store of the issuing context is a release: the wider of its own (0 for none) and that of the FENCE.RELs
before it (R94, R98); 7 for no release. -/
def State.storeScope (s : State) (own : Nat) : Nat := if max own s.cx.relS = 0 then 7 else max own s.cx.relS

/-- Post a store of the low `n` bytes of a value (R259), a release at a scope of its own or at none (0). -/
def State.issueStore (s : State) (e : EA) (n : Nat) (v : DWord) (pol : Policy) (scope : Nat) : State :=
  let q := s.newReq .store e.va e.pa n 0 v (e.attrs pol)
  (s.snoop s.cur e.va e.pa n).post { q with enc := e.isC, sent := !isRemote e.pa, scope := s.storeScope scope }

/-- Atomics and reductions of a core outstanding at one module (R383). -/
def State.remoteAtomics (s : State) (dev : BitVec 20) : Nat :=
  (ctxIds.map fun h => ((s.me.ctx h).reqs.filter fun q => (match q.kind with
    | .atomic _ => true
    | _ => false) && isRemote q.pa && s.remoteDev q.pa == dev && q.fault.isNone).length).foldl (· + ·) 0

/-- The operation has a PCIe AtomicOp: AADD, ASWAP, ACAS, REDADD (R266). -/
def pcieOp (op : Nat) : Bool := op == 0 || op == 7 || op == 8 || op == 9

/-- The page of a host address stands in the host-page table of a core's die (R353). -/
def State.hostPaged (s : State) (c : CoreId) (pa : Nat) : Bool := (s.hostPages.get (dieIx c.val)).contains (pa / 4096)

/-- An atomic on a host page goes to the fallback queue (R353). -/
def State.toFallback (s : State) (c : CoreId) (op pa : Nat) : Bool := inHost pa && (!pcieOp op || s.hostPaged c pa)

/-- Issue an atomic or reduction, numbered as R354 numbers them (R263 to R266). -/
def State.issueAtomic (op : Nat) (va : DWord) (d : Reg) (operand expected : DWord) (s : State) : Act := do
  let (e, s) ← s.globalEA va 8 .store
  checkIn s (!e.isV && !e.isObj) 0x08 va (fi08 .store)
  checkIn s (!(s.toFallback s.cur op e.pa) || e.isHa) 0x17 va 0
  waitUntil (!isRemote e.pa || decide (s.remoteAtomics (s.remoteDev e.pa) < 8))
  let q := s.newReq (.atomic op) va e.pa 8 d operand expected
  return (s.snoop s.cur va e.pa 8).post
    { q with
      ha := e.isHa, queue := s.toFallback s.cur op e.pa, enc := e.isC, sent := !isRemote e.pa, scope := s.storeScope 0
      fault := s.unreachFault va e.pa }

/-- Output streams that the issuing context has bound have performed what was pushed (R178, R262). -/
def State.pushesDone (s : State) (c : CoreId) (h : CtxId) : Bool :=
  (List.finRange 8).all fun i =>
    match ((s.core c).streams.get i).bound with
    | some (.memory x d) => x != h || !d.output || ((s.core c).streams.get i).buf.isEmpty ||
        ((s.core c).streams.get i).fault.isSome
    | _ => true

/-- Every earlier access of the issuing context is performed at a scope, pushes to bound output streams among them
(R251, R262). -/
def State.settledAt (s : State) (scope : Nat) : Except Stop Unit := do
  s.allPerformed scope
  waitUntil (decide (scope = 0) || s.pushesDone s.cur s.curCtx)

/-- Every earlier access of the issuing context is performed for every agent. -/
def State.settled (s : State) : Except Stop Unit := s.settledAt 6

end Sys2Proof.Machine
end

