-- ==== Sys2Proof/Machine/Crossbar.lean ====
section
/-! DEFINITION. The event crossbar (R49 to R51, R311, R312), performance counters (R312, R387) and TLBI (R313). -/

namespace Sys2Proof.Machine

/-! ## Outputs (R51, R167, R182) -/

/-- Change a copy channel of a core. -/
def Core.modChan (k : Core) (i : Fin 4) (f : Chan → Chan) : Core := { k with chans := vmod k.chans i f }

/-- The channel of a queued request (R157). -/
def CopyReq.chan (r : CopyReq) : Fin 4 := ⟨fld r.w0 55 54 % 4, Nat.mod_lt _ (by decide)⟩

/-- A queued request waits for a firing (R167). -/
def CopyReq.isHeld (r : CopyReq) : Bool := bit r.w0 52 && !r.released

/-- Release the first held request of a channel in a list, which comes after what fed the firing (R105); whether one was
found. -/
def releaseFirst (i : Fin 4) (m : KMap Nat) : List CopyReq → Bool × List CopyReq
  | [] => (false, [])
  | r :: q => if r.chan = i ∧ r.isHeld then (true, { r with released := true, seen := joinSeen r.seen m } :: q)
              else ((releaseFirst i m q).1, r :: (releaseFirst i m q).2)

/-- Change a term of a crossbar. -/
def Core.modTerm (k : Core) (i : Fin 8) (f : EcTerm → EcTerm) : Core :=
  { k with xbar := { k.xbar with term := vmod k.xbar.term i f } }

/-- What fed a firing, kept for the request that a remembered firing will release (R51, R105). -/
def Core.keepSeen (k : Core) (i : Fin 4) (m : KMap Nat) : Core := k.modTerm (i.castLE (by decide)) fun t => { t with seen := m }

/-- A firing of output 0 to 3: the channel's oldest held request, or the firing is remembered once (R51). -/
def Core.fireCopy (k : Core) (i : Fin 4) (m : KMap Nat) : Core :=
  let r := releaseFirst i m k.fifo
  if r.1 then { k with fifo := r.2 } else (k.modChan i fun c => { c with armed := true }).keepSeen i m

/-- The slot of output 4 or 5 (R311). -/
def Crossbar.outSlot (x : Crossbar) (o : Fin 2) : Fin 64 := mkSlot (if o = 0 then fld x.eout 5 0 else fld x.eout 11 6)

/-- A local event of output 4 or 5 is made and enters, tagged (LAST_T, LAST_M + 1), without tests (R16, R51). DESIGN CHOICE: its
slot is the one configured when it is made, and its descriptor names the device with LOCAL clear (log 70). -/
def State.localEvent (s : State) (c : CoreId) (o : Fin 2) (clock : DWord) (m : KMap Nat) : State :=
  let k := s.core c
  let n := k.xbar.outSlot o
  let r := s.makeEvent c (descTo (s.originOf c 0) n (k.slots.get n).gen) (Tag.nextMicro k.last) (.words [dw (4 + o.val), clock])
    false
  (r.2.modCore c fun k => { k with selAt := some s.cycle }).place c
    { ev := r.1, orig := none, cls := .die, arr := s.jobTime, block := none, late := none, pool := none, rerun := false, base := none,
      units := [], spent := false, seen := m }
    r.1.rkey true

/-- A local event can enter now (R51). -/
def State.localRoom (s : State) (c : CoreId) : Bool := decide ((s.core c).inbox.length < 64)

/-- A firing of output 4 or 5: the event enters if an entry is free, else the firing waits, at most 65,535 of them (R51). -/
def State.fireEvent (s : State) (c : CoreId) (o : Fin 2) (m : KMap Nat) : State :=
  let w := (s.core c).xbar.wait.get o
  if w.isEmpty && s.localRoom c then s.localEvent c o (dw (s.clock c)) m
  else if w.length < 65535 then
    s.modCore c fun k => { k with xbar := { k.xbar with wait := vput k.xbar.wait o (w ++ [(dw (s.clock c), m)]) } }
  else s

/-- The members of a group, with one of them changed by its core number. -/
def Group.modMember (g : Group) (core : Nat) (f : Member → Member) : Group :=
  { g with members := g.members.map fun m => if m.core = core then f m else m }

/-- A firing of output 6: the core's oldest held injection is released, whichever group it belongs to (R51, R182). -/
def State.fireInj (s : State) (c : CoreId) : State :=
  match (s.core c).heldInj with
  | [] => s
  | g :: r =>
    let s1 := s.modCore c fun k => { k with heldInj := r }
    match s1.groups.find g with
    | none => s1
    | some q => { s1 with groups := s1.groups.put g (q.modMember c.val fun m => { m with held := false }) }

/-- The effect of a firing, fed by pulses that come after what `m` gives (R51, R101, R105, R107). -/
def State.fire (s : State) (c : CoreId) (o : Fin 8) (m : KMap Nat) : State :=
  match o.val with
  | 0 => s.modCore c fun k => k.fireCopy 0 m
  | 1 => s.modCore c fun k => k.fireCopy 1 m
  | 2 => s.modCore c fun k => k.fireCopy 2 m
  | 3 => s.modCore c fun k => k.fireCopy 3 m
  | 4 => s.fireEvent c 0 m
  | 5 => s.fireEvent c 1 m
  | 6 => s.fireInj c
  | _ => (s.decCounter (fld (s.core c).xbar.eout 23 12) m).cancelled

/-! ## Pulses (R50) -/

/-- A counter sees the pulses of a cycle: on the transition to 0 it pulses and reloads (R50); a reload value of 0
disables it (R311). -/
def EcCounter.step (c : EcCounter) (src : BitVec 16) (m : KMap Nat) : Bool × EcCounter :=
  if c.reload ≠ 0 ∧ bit src c.src.toNat ∧ c.cur ≠ 0 then
    if c.cur = 1 then (true, { c with cur := c.reload, seen := [] })
    else (false, { c with cur := c.cur - 1, seen := joinSeen c.seen m })
  else (false, c)

/-- A term sees the inputs of a cycle: whether it fires, and its latches (R50). It fires once in a cycle, and the pulses of that
cycle are all part of the firing. -/
def EcTerm.step (t : EcTerm) (cycle : Nat) (inp : BitVec 20) : Bool × EcTerm :=
  let hit := inp &&& t.mask
  if !t.en || t.fired.contains cycle then (false, t)
  else
    let l := if t.and_ then t.latch ||| hit else 0
    let go := if t.and_ then decide (t.mask ≠ 0 ∧ l = t.mask ∧ hit ≠ 0) else decide (hit ≠ 0)
    (go, { t with latch := if go then 0 else l, fired := if go then cycle :: t.fired else t.fired })

/-- A term gathers what the pulses that it takes come after, until it fires (R101). -/
def EcTerm.gather (t : EcTerm) (inp : BitVec 20) (m : KMap Nat) : EcTerm :=
  if inp &&& t.mask = 0 then t else { t with seen := joinSeen t.seen m }

/-- One term sees the inputs of a cycle, and its output acts if it fires (R50, R51). -/
def State.term (s : State) (c : CoreId) (cycle : Nat) (inp : BitVec 20) (m : KMap Nat) (i : Fin 8) : State :=
  let r := ((s.core c).xbar.term.get i).step cycle inp
  let t := r.2.gather inp m
  let now (l : List Nat) : List Nat := l.filter fun n => decide (s.cycle ≤ n)
  if r.1 then (s.modCore c fun k => k.modTerm i fun _ => { t with seen := [], fired := now t.fired }).fire c i t.seen
  else s.modCore c fun k => k.modTerm i fun _ => t

/-- The inputs of a cycle reach the terms, term 0 first (DESIGN CHOICE: so output 4 makes its event before output 5, log 70). -/
def State.terms (s : State) (c : CoreId) (cycle : Nat) (inp : BitVec 20) (m : KMap Nat) : State :=
  (List.finRange 8).foldl (fun s i => s.term c cycle inp m i) s

/-- The pulse of a set of sources in a cycle, whose work comes after what `m` gives (R49, R50). -/
def State.pulseAt (s : State) (c : CoreId) (cycle : Nat) (src : BitVec 16) (m : KMap Nat) : State :=
  let x := (s.core c).xbar
  let zero (i : Fin 4) : Nat := b2n ((x.cnt.get i).step src m).1
  let inp : BitVec 20 := BitVec.ofNat 20
    (src.toNat + zero 0 * 2 ^ 16 + zero 1 * 2 ^ 17 + zero 2 * 2 ^ 18 + zero 3 * 2 ^ 19)
  let m2 := (List.finRange 4).foldl (fun m i => if ((x.cnt.get i).step src m).1 then joinSeen m (x.cnt.get i).seen else m) m
  (s.modCore c fun k =>
    { k with xbar := { k.xbar with cnt := Vector.ofFn fun i => ((x.cnt.get i).step src m).2 } }).terms c cycle inp m2

/-- The pulse of a set of sources now. -/
def State.pulse (s : State) (c : CoreId) (src : BitVec 16) (m : KMap Nat) : State := s.pulseAt c s.cycle src m

/-- The pulse of one source. -/
def State.pulseOf (s : State) (c : CoreId) (i : Nat) (m : KMap Nat) : State := s.pulse c (BitVec.ofNat 16 (2 ^ i)) m

/-- CROSSBAR_COUNTER_ZERO (R50): a counter that stands at its transition to zero pulses and reloads. -/
def State.tryCounterZero (s : State) (c : CoreId) (i : Fin 4) : Option State :=
  let q := (s.core c).xbar.cnt.get i
  if q.cur = 0 ∧ q.reload ≠ 0 then
    some ((s.modCore c fun k => { k with xbar := { k.xbar with cnt := vput k.xbar.cnt i { q with cur := q.reload, seen := [] } } }).terms
      c s.cycle (BitVec.ofNat 20 (2 ^ (16 + i.val))) q.seen)
  else none

/-- CROSSBAR_COUNTER_ZERO. -/
def execCrossbarCounterZero (c : CoreId) (i : Fin 4) (s : State) : Out := .next ((s.tryCounterZero c i).getD s)

/-- CROSSBAR_LOCAL_EVENT_ENTRY (R51): the oldest waiting firing of an output makes its event once an entry is free. -/
def State.tryLocal (s : State) (c : CoreId) (o : Fin 2) : Option State :=
  let k := s.core c
  match k.xbar.wait.get o with
  | [] => none
  | t :: r =>
    if s.localRoom c then
      some ((s.modCore c fun k => { k with xbar := { k.xbar with wait := vput k.xbar.wait o r } }).localEvent c o t.1 t.2)
    else none

/-- CROSSBAR_LOCAL_EVENT_ENTRY. -/
def execCrossbarLocalEventEntry (c : CoreId) (out : Fin 2) (s : State) : Out := .next ((s.tryLocal c out).getD s)

/-! ## Configuration (R311, R312) -/

/-- A crossbar register as ECR reads it (R311). -/
def Crossbar.read (x : Crossbar) (i : Nat) : DWord :=
  if h : i < 4 then
    let q := x.cnt.get ⟨i, h⟩
    dw (q.src.toNat + q.reload.toNat * 2 ^ 16)
  else if h : i < 12 then
    let t := x.term.get ⟨i - 4, by omega⟩
    dw (t.mask.toNat + b2n t.and_ * 2 ^ 20 + b2n t.en * 2 ^ 21 + t.latch.toNat * 2 ^ 24)
  else if h : i < 18 then (x.estr.get ⟨i - 12, by omega⟩).setWidth 64
  else x.eout.setWidth 64

/-- A reserved bit of a value for a crossbar register is set; the read-only latches are not reserved (R311, R312). -/
def xbarReserved (i : Nat) (v : DWord) : Bool :=
  if i < 4 then decide (fld v 15 4 ≠ 0 ∨ fld v 63 32 ≠ 0)
  else if i < 12 then decide (fld v 23 22 ≠ 0 ∨ fld v 63 44 ≠ 0)
  else if i < 18 then decide (fld v 63 5 ≠ 0)
  else decide (fld v 63 24 ≠ 0)

/-- Write a crossbar register: a counter is loaded from RELOAD, a term's latches clear (R312). -/
def Crossbar.write (x : Crossbar) (i : Nat) (v : DWord) : Crossbar :=
  if h : i < 4 then
    let r : Half := (v >>> 16).setWidth 16
    { x with cnt := vput x.cnt ⟨i, h⟩ { src := v.setWidth 4, reload := r, cur := r, seen := [] } }
  else if h : i < 12 then
    { x with term := vmod x.term ⟨i - 4, by omega⟩ fun t =>
      { mask := v.setWidth 20, and_ := bit v 20, en := bit v 21, latch := 0, fired := t.fired, seen := [] } }
  else if h : i < 18 then { x with estr := vput x.estr ⟨i - 12, by omega⟩ (v.setWidth 5) }
  else { x with eout := v.setWidth 24 }

/-- A register index, in the low bits of a value whose other bits are zero. -/
def indexIn (v : DWord) (n : Nat) : Except Stop Nat := do
  check (decide (v.toNat < n)) 0x02
  return v.toNat

/-- ECW (R312): the register changes with the next cycle. -/
def execEcw (g : Guard) (a b : Reg) (s : State) : Out :=
  instr g (fun s => do
    s.notInRestartable
    let x ← s.rdX a
    let v ← s.rdX b
    let i ← indexIn x 19
    check (!xbarReserved i v) 0x02
    return s.modMe fun k => { k with xbar := { k.xbar with soon := k.xbar.soon ++ [(i, v)] } }) s

/-- ECR (R312). -/
def execEcr (g : Guard) (d a : Reg) (s : State) : Out :=
  instr g (fun s => do
    let x ← s.rdX a
    let i ← indexIn x 19
    s.wrX d (s.me.xbar.read i)) s

/-- A pulse of source 15 can have its part in a decrement of a launch counter, by itself or through a counter (R107). -/
def Crossbar.pulseCounts (x : Crossbar) : Bool :=
  let t := x.term.get 7
  t.en && (bit t.mask 15 || (List.finRange 4).any fun i => bit t.mask (16 + i.val) && (x.cnt.get i).src == 15)

/-- ECPULSE (R312): source 15 pulses in the next cycle. Where that can decrement a launch counter, the accesses before it are
performed first (R107). -/
def execEcpulse (g : Guard) (s : State) : Out :=
  instr g (fun s => do
    s.notInRestartable
    if s.me.xbar.pulseCounts then s.settled
    return s.modMe fun k => { k with xbar := { k.xbar with pulse := some (joinSeen (k.xbar.pulse.getD []) s.cx.seen) } }) s

/-- ECCNT (R312). -/
def execEccnt (g : Guard) (d a : Reg) (s : State) : Out :=
  instr g (fun s => do
    let x ← s.rdX a
    let i ← indexIn x 4
    s.wrX d ((s.me.xbar.cnt.get ⟨i % 4, Nat.mod_lt _ (by decide)⟩).cur.setWidth 64)) s

/-- An index of a performance counter. -/
def perfIx (i : Nat) : Fin 8 := ⟨i % 8, Nat.mod_lt _ (by decide)⟩

/-- Events that happen inside caches and compressors, which the model does not hold, on the cores that count them (R387,
log 25). -/
def hiddenEvent (c : CoreId) (code : Half) : Bool :=
  code == 0x20 || ((code == 0x30 || code == 0x31) && posOf c.val == 0)

/-- A counter of such events is settled: since the last time any number of them may have happened (log 25). -/
def State.settleCount (s : State) (c : CoreId) (i : Fin 8) : State :=
  let k := s.core c
  if hiddenEvent c (k.pcfg.get i) && decide (k.pcntAt.get i ≠ s.cycle) then
    (s.draw 64).2.modCore c fun k =>
      { k with pcnt := vmod k.pcnt i (· + (s.draw 64).1), pcntAt := vput k.pcntAt i s.cycle }
  else s

/-- A performance counter counts another event (R312). -/
def State.setPcfg (s : State) (c : CoreId) (i : Fin 8) (code : Half) : State :=
  (s.settleCount c i).modCore c fun k => { k with pcfg := vput k.pcfg i code, pcntAt := vput k.pcntAt i s.cycle }

/-- PCFG (R312): the counter counts the event from the next cycle on. -/
def execPcfg (g : Guard) (a b : Reg) (s : State) : Out :=
  instr g (fun s => do
    let x ← s.rdX a
    let v ← s.rdX b
    let i ← indexIn x 8
    return s.modMe fun k => { k with pcfgSoon := k.pcfgSoon ++ [(perfIx i, v.setWidth 16)] }) s

/-- Something that a core has set up takes effect with the next cycle. -/
def Core.hasSoon (k : Core) : Bool := !k.xbar.soon.isEmpty || k.xbar.pulse.isSome || !k.pcfgSoon.isEmpty

/-- A cycle of a core begins: what ECW and PCFG have written takes effect, and source 15 pulses after an ECPULSE (R312). -/
def State.coreCycle (s : State) (c : CoreId) : State :=
  let k := s.core c
  let s1 := s.modCore c fun k => { k with pcfgSoon := [], xbar := { k.xbar.soon.foldl (fun x w => x.write w.1 w.2) k.xbar with
    soon := [], pulse := none } }
  let s2 := k.pcfgSoon.foldl (fun s p => s.setPcfg c p.1 p.2) s1
  match k.xbar.pulse with
  | some m => s2.pulseOf c 15 m
  | none => s2

/-- A cycle begins on every core (R312). -/
def State.nextCycle (s : State) : State := (s.cores.filter fun e => e.2.hasSoon).foldl (fun s e => s.coreCycle (mkCore e.1)) s

/-- PRD (R312). -/
def execPrd (g : Guard) (d a : Reg) (s : State) : Out :=
  instr g (fun s => do
    let x ← s.rdX a
    let i ← indexIn x 8
    let s1 := s.settleCount s.cur (perfIx i)
    s1.wrX d (s1.me.pcnt.get (perfIx i))) s

/-- PRST (R312). -/
def execPrst (g : Guard) (a : Reg) (s : State) : Out :=
  instr g (fun s => do
    s.notInRestartable
    let x ← s.rdX a
    check (decide (x.toNat < 256)) 0x02
    return s.modMe fun k =>
      { k with pcnt := Vector.ofFn fun i => if bit x i.val then 0 else k.pcnt.get i
               pcntAt := Vector.ofFn fun i => if bit x i.val then s.cycle else k.pcntAt.get i }) s

/-! ## TLBI (R313, R83) -/

/-- An entry overlaps `n` pages of 64 KiB from an address on; 0 pages means every entry. -/
def TlbEnt.inRange (e : TlbEnt) (va n : Nat) : Bool :=
  n == 0 || meets e.va (2 ^ e.log) (va / 65536 * 65536) (n * 65536)

/-- The cores whose TLBs a scope names, by landing: CORE, LANDING, DIE, DEVICE (R87, R313). -/
def tlbiCore (scope : Nat) (me c : Nat) : Bool :=
  match scope with
  | 1 => c == me
  | 2 => landingOf c == landingOf me
  | 3 => dieOf c == dieOf me
  | _ => true

/-- The landings whose TLBs a scope names. -/
def tlbiLanding (scope : Nat) (me l : Nat) : Bool :=
  match scope with
  | 1 => l == landingOf me
  | 2 => l == landingOf me
  | 3 => l / 128 == dieOf me
  | _ => true

/-- Remove the entries of a range from the TLBs of a scope instance (R313). -/
def State.tlbi (s : State) (scope va n : Nat) : State :=
  { s with
    ltlb := s.ltlb.map fun (l, (es : List TlbEnt)) =>
      (l, if tlbiLanding scope s.cur.val l then es.filter fun e => !e.inRange va n else es)
    cores := s.cores.map fun (c, (k : Core)) =>
      (c, if tlbiCore scope s.cur.val c then { k with tlb := k.tlb.filter fun e => !e.inRange va n } else k) }

/-- TLBI (R313). -/
def execTlbi (g : Guard) (a b : Reg) (s : State) : Out :=
  instr g (fun s => do
    s.notInRestartable
    let x ← s.rdX a
    let y ← s.rdX b
    let scope := fld y 34 32
    check (decide (1 ≤ scope ∧ scope ≤ 4) && decide (fld y 63 35 = 0)) 0x02
    return s.tlbi scope (fld x 55 0) (fld y 31 0)) s

end Sys2Proof.Machine
end

