-- ==== Sys2Proof/Machine/Copy.lean ====
section
/-! DEFINITION. How engines reach memory (R53, R54, R61, R69, R74, R164), the copy engine (R156 to R174) and its
instructions (R305). -/

namespace Sys2Proof.Machine

/-! ## Engine accesses -/

/-- Why an engine's access does not act: a fault with its cause and address, it has to wait, its write is held at an overflowed line
(R65), or it has to leave for another module first (R84). -/
inductive EngStop where
  | fault (cause : Byte) (addr : DWord)
  | wait
  | hold (pa : Nat)
  | send (q : EngReq)
deriving DecidableEq, Repr

/-- The unit that an access of an engine is of, for its packets (R382): a copy channel, a stream. -/
def chanUnit (ch : Fin 4) : Nat := 16 + ch.val
def streamUnit (st : Fin 8) : Nat := 24 + st.val

/-- Two accesses of another module's memory are the same one. -/
def EngReq.same (q r : EngReq) : Bool :=
  q.core == r.core && q.unit == r.unit && q.pa == r.pa && q.n == r.n && q.data == r.data

/-- An engine's access of another module's memory: it leaves as a packet, and acts once its outcome has come (R84, R382). What it
brings: the value of a load, the number of a write. -/
def State.engFar (s : State) (q : EngReq) : Except EngStop (Nat × State) :=
  match s.engReqs.find? q.same with
  | none => .error (.send q)
  | some r => match r.reply with
    | none => .error .wait
    | some (cause, v) =>
      if cause = 0 then .ok (v.toNat, { s with engReqs := s.engReqs.filter fun x => x.id ≠ r.id }) else .error (.fault cause q.va)

/-- The packet of an engine's access leaves, a store's with what the release that it is has before it (R94, R97). -/
def State.sendEng (s : State) (q : EngReq) : State :=
  let body := match q.data with
    | none => PBody.loadRequest s.reqCtr q.pa q.n false
    | some v => PBody.store q.pa (leBytes q.n v)
  let seen := (q.rels.filter fun r => decide (5 ≤ r.scope)).foldl (fun m r => joinSeen m r.seen) []
  { s.emit (s.remoteDev q.pa) q.enc none body seen (some s.reqCtr) with
    reqCtr := s.reqCtr + 1, engReqs := s.engReqs ++ [{ q with id := s.reqCtr }] }

/-- A unit is done with its accesses of other modules: loads are forgotten, a store that is on its way is still performed. -/
def State.engForget (s : State) (c : CoreId) (unit : Nat) : State :=
  { s with engReqs := s.engReqs.filterMap fun q =>
      if q.core = c ∧ q.unit = unit then (if q.reply.isNone && q.data.isSome then some { q with unit := 64 } else none) else some q }

/-- What an engine's read of global memory gives: the value, where it stood, and the state. -/
abbrev EngGot := Nat × List (Nat × Nat × Nat) × State

/-- Global memory read by an engine, within one page, under policy 0 (R78, R79, R65, R69, R70, R74, R164, R189). -/
def State.engPage (s : State) (c : CoreId) (unit : Nat) (va : DWord) (n : Nat) : Except EngStop EngGot :=
  match s.globalCheck c va 1 .load with
  | (.error t, _) => .error (.fault t.cause va)
  | (.ok e, s1) =>
    let place := [(s1.past.length, e.pa, n)]
    if s1.paUnreachable e.pa then .error (.fault 0x1D va)
    else if s1.isLost e.pa then .error (.fault 0x18 va)
    else if s1.bankAway e.pa || s1.lineHeld e.pa || (allocates .normal (pteKind e.page.leaf) && !s1.shareOpen c e.pa) then
      .error .wait
    else if e.isV then .ok ((s1.newest e.pa).toNat / 2 ^ (8 * (e.pa % 8)) % 2 ^ (8 * n), [], s1)
    else if isRemote e.pa then
      (s1.engFar { id := 0, core := c, unit := unit, agent := unit, va := va, pa := e.pa, n := n, enc := e.isC, data := none, rels := [],
                   reply := none }).map fun r => (r.1 % 2 ^ (8 * n), place, r.2)
    else if e.isObj || s1.objOpen e.pa va n then .ok ((s1.draw 64).1.toNat % 2 ^ (8 * n), [], (s1.draw 64).2)
    else .ok (s1.mem.readNat e.pa n, place, if allocates .normal (pteKind e.page.leaf) then s1.shareLine c e.pa else s1)

/-- Bytes of an access of at most 8 bytes that lie in its first page. -/
def pagePart (va : DWord) (n : Nat) : Nat := min n (65536 - va.toNat % 65536)

/-- Bytes of an access that lie in its first aligned doubleword. -/
def wordPart (va : DWord) (n : Nat) : Nat := min n (8 - va.toNat % 8)

/-- Global memory read by an engine: at most 8 bytes, each aligned doubleword at one instant (R89). -/
def State.engRead (s : State) (c : CoreId) (unit : Nat) (va : DWord) (n : Nat) : Except EngStop EngGot := do
  let m := wordPart va n
  let (a, p, s1) ← s.engPage c unit va m
  if m = n then return (a, p, s1)
  else
    let (b, q, s2) ← s1.engPage c unit (va + dw m) (n - m)
    return (a + b * 2 ^ (8 * m), p ++ q, s2)

/-- Global memory written by an engine for a writer, within one aligned doubleword: permission, V and OBJ pages (R74, R78), the
comparison with the core's own fetch (R214), the line's other copies (R65, R79). With the number of the write. -/
def State.engPut (s : State) (c : CoreId) (unit : Nat) (w : Writer) (va : DWord) (n v : Nat) : Except EngStop (KMap Nat × State) :=
  match s.globalCheck c va 1 .store with
  | (.error t, _) => .error (.fault t.cause va)
  | (.ok e, s1) =>
    if e.isV || e.isObj then .error (.fault 0x08 va)
    else if s1.paUnreachable e.pa then .error (.fault 0x1D va)
    else if isRemote e.pa then
      ((s1.snoop c va e.pa n).engFar
        { id := 0, core := c, unit := unit, agent := w.unit, va := va, pa := e.pa, n := n, enc := e.isC, data := some v, rels := w.rels,
          reply := none }).map fun r => ([(e.pa / 8, r.1)], r.2)
    else if !s1.cowRoom e.pa || s1.lineHeld e.pa then .error .wait
    else if s1.overflowed e.pa then .error (.hold e.pa)
    else
      let s2 := (s1.snoop c va e.pa n).memWrite w e.pa (leBytes n v)
      .ok ([(e.pa / 8, s2.past.length)], if allocates .normal (pteKind e.page.leaf) then s2.ownLine c e.pa else s2.unshare e.pa)

/-- Global memory written by an engine: at most 8 bytes. With the numbers of the writes by doubleword. -/
def State.engWrite (s : State) (c : CoreId) (unit : Nat) (w : Writer) (va : DWord) (n v : Nat) : Except EngStop (KMap Nat × State) := do
  let m := wordPart va n
  let (a, s1) ← s.engPut c unit w va m (v % 2 ^ (8 * m))
  if m = n then return (a, s1)
  else
    let (b, s2) ← s1.engPut c unit w (va + dw m) (n - m) (v / 2 ^ (8 * m))
    return (joinSeen a b, s2)

/-- A write that is held at its line is known to the home (R65, R66), an access for another module leaves; whatever else waits changes
nothing. -/
def State.holdFor (s : State) (e : EngStop) : Option State :=
  match e with
  | .hold pa => if s.lineHeld pa then none else some (s.holdLine pa)
  | .send q => some (s.sendEng q)
  | _ => none

/-- Scratchpad bytes read by an engine of the core. -/
def State.engSpad (s : State) (c : CoreId) (a : DWord) (n : Nat) : Except EngStop Nat :=
  if 0x40000 < a.toNat + n then .error (.fault 0x06 a)
  else if (wordsOf a.toNat n).any fun w => (s.core c).spadLost.contains w then .error (.fault 0x18 a)
  else .ok ((s.core c).spad.readNat a.toNat n)

/-- Scratchpad bytes written by an engine, within one word; the word is set full if asked (R61), after what `m` gives (R105). -/
def State.engSpadPut (s : State) (c : CoreId) (a : DWord) (n v : Nat) (full : Bool) (m : KMap Nat) : Except EngStop State :=
  if a.toNat + n ≤ 0x40000 then
    .ok (s.modCore c fun k =>
      let k1 := k.spadWrite a.toNat (leBytes n v)
      if full then (k1.noteFull a.toNat 1 m).setFull a.toNat true else k1)
  else .error (.fault 0x06 a)

/-! ## Requests (R157 to R160, R169 to R172) -/

/-- KIND, LEN and SETF of a request (R157). -/
def CopyReq.kind (r : CopyReq) : Nat := fld r.w0 63 56
def CopyReq.len (r : CopyReq) : Nat := fld r.w0 47 0
def CopyReq.setf (r : CopyReq) : Bool := bit r.w0 53

/-- DIR of a layout request (R159). -/
def CopyReq.dir (r : CopyReq) : Bool := bit r.w3 0

/-- Space of an address word (R158). -/
def space (w : DWord) : Nat := fld w 63 62

/-- The address of an address word. -/
def wordAddr (w : DWord) : DWord := if space w = 0 then dw (fld w 55 0) else dw (fld w 17 0)

/-- The first reserved field of an address word that is not zero, by the space that the word names (R158). -/
def reservedFault (w : DWord) : Option Nat :=
  match space w with
  | 0 => if fld w 61 56 ≠ 0 then some 56 else none
  | 1 => if fld w 61 18 ≠ 0 then some 18 else none
  | 2 => if fld w 47 18 ≠ 0 then some 18 else if bit w 61 then some 61 else none
  | _ => none

/-- The first failing field of an address word under the spaces that a kind allows it, by its lowest bit (R158, R160). DESIGN
CHOICE: of a word that the kind does not use, the lowest bit that is set (log 71). -/
def addrFault (w : DWord) (allowed : List Nat) : Option Nat :=
  if allowed.isEmpty then (if w = 0 then none else lowestSet w)
  else match reservedFault w with
    | some b => some b
    | none => if allowed.contains (space w) then none else some 62

/-- The spaces of words 1 and 2 by kind and direction (R159). -/
def spacesOf (kind : Nat) (dir : Bool) : List Nat × List Nat :=
  match kind with
  | 0 => ([0, 1], [0, 1, 2])
  | 1 => if dir then ([1], []) else ([], [1])
  | 2 => ([0], [1])
  | 3 => ([1], [0])
  | 4 => ([], [0, 1, 2])
  | 5 => ([0], [1])
  | _ => ([0], [])

/-- The first failing field of word 3, by its lowest bit (R159, R172). DESIGN CHOICE: bit 0 for a word that the kind does not use
(log 71). -/
def word3Fault (kind : Nat) (w : DWord) : Option Nat :=
  match kind with
  | 1 => if fld w 63 1 ≠ 0 then some 1 else none
  | 2 | 3 =>
    if fld w 1 0 ≠ 0 then some 0
    else if fld w 19 18 ≠ 0 then some 18
    else if fld w 63 44 = 0 ∨ fld w 63 44 % 8 ≠ 0 then some 44
    else none
  | 4 => none
  | _ => if w = 0 then none else some 0

/-- The first failing field of a request: word and bit (R160). -/
def requestFault (k : Core) (r : CopyReq) : Option (Nat × Nat) :=
  let y := (k.layouts.get ⟨fld r.w0 51 50 % 4, Nat.mod_lt _ (by decide)⟩).record
  let sp := spacesOf r.kind r.dir
  if fld r.w0 49 48 ≠ 0 then some (0, 48)
  else if (decide (r.kind = 1) && y.isNone) || (decide (r.kind ≠ 1) && decide (fld r.w0 51 50 ≠ 0)) then some (0, 50)
  else if 7 ≤ r.kind then some (0, 56)
  else match addrFault r.w1 sp.1, addrFault r.w2 sp.2, word3Fault r.kind r.w3 with
    | some b, _, _ => some (1, b)
    | none, some b, _ => some (2, b)
    | none, none, some b => some (3, b)
    | none, none, none => none

/-- The destination of a request is global memory (R47). -/
def CopyReq.toGlobal (r : CopyReq) : Bool :=
  match r.kind with
  | 0 | 4 => space r.w2 == 0
  | 1 => r.dir
  | 3 => true
  | _ => false

/-! ## Streams as loop nests (R175, R176) -/

/-- Elements of a stream. -/
def StreamDesc.total (d : StreamDesc) : Nat := d.n.foldl (· * ·) 1

/-- Elements of a vector. -/
def StreamDesc.perVec (d : StreamDesc) : Nat := 128 / 2 ^ d.es

/-- Vectors of a stream. -/
def StreamDesc.vectors (d : StreamDesc) : Nat := (d.total + d.perVec - 1) / d.perVec

/-- The address of element j: its first index runs fastest. -/
def StreamDesc.addr (d : StreamDesc) (j : Nat) : DWord :=
  let n0 := d.n.getD 0 1
  let n1 := d.n.getD 1 1
  wordAddr d.base + BitVec.ofInt 64 ((j % n0 : Nat) * d.stride.getD 0 0 + (j / n0 % n1 : Nat) * d.stride.getD 1 0 +
    (j / (n0 * n1) : Nat) * d.stride.getD 2 0)

/-! ## Layouts (R171) -/

/-- Extent of a visit dimension; missing dimensions count 1. -/
def LayoutReg.extent (y : LayoutReg) (d : Nat) : Nat :=
  match y.record with
  | none => 1
  | some r => if d < r.rank then
      (match r.order.getD d 0 with
        | 0 => (y.ext.get 0).toNat
        | 1 => (y.ext.get 1).toNat
        | 2 => (y.ext.get 2).toNat
        | _ => (y.ext.get 3).toNat)
    else 1

/-- Stride of a visit dimension. -/
def LayoutReg.strideOf (y : LayoutReg) (d : Nat) : Int :=
  match y.record with
  | none => 0
  | some r => if d < r.rank then r.stride.getD (r.order.getD d 0) 0 else 0

/-- The shape of a nest: log2 of tile columns and rows, tiles across and down. -/
def LayoutReg.tiles (y : LayoutReg) : Nat × Nat × Nat × Nat :=
  match y.record with
  | none => (0, 0, 0, 0)
  | some r => (r.tc, r.tr, (y.extent 0 + 2 ^ r.tc - 1) / 2 ^ r.tc, (y.extent 1 + 2 ^ r.tr - 1) / 2 ^ r.tr)

/-- Visits of a whole nest. -/
def LayoutReg.total (y : LayoutReg) : Nat :=
  let t := y.tiles
  2 ^ t.1 * 2 ^ t.2.1 * t.2.2.1 * t.2.2.2 * y.extent 2 * y.extent 3

/-- Visit k: i0, i1, i2, i3 (R171). -/
def LayoutReg.visit (y : LayoutReg) (k : Nat) : Nat × Nat × Nat × Nat :=
  let t := y.tiles
  let tc := 2 ^ t.1
  let tr := 2 ^ t.2.1
  let inTile := k % (tc * tr)
  let tile := k / (tc * tr) % (t.2.2.1 * t.2.2.2)
  let outer := k / (tc * tr * (t.2.2.1 * t.2.2.2))
  (tile % t.2.2.1 * tc + inTile % tc, tile / t.2.2.1 * tr + inTile / tc, outer % y.extent 2, outer / y.extent 2)

/-- The global address of a visit. -/
def LayoutReg.addr (y : LayoutReg) (v : Nat × Nat × Nat × Nat) : DWord :=
  y.base + BitVec.ofInt 64 (v.1 * y.strideOf 0 + v.2.1 * y.strideOf 1 + v.2.2.1 * y.strideOf 2 + v.2.2.2 * y.strideOf 3)

/-- A visit is padding (R171). -/
def LayoutReg.pads (y : LayoutReg) (v : Nat × Nat × Nat × Nat) : Bool :=
  decide (y.extent 0 ≤ v.1) || decide (y.extent 1 ≤ v.2.1)

/-! ## Elements of a request -/

/-- Doublewords that a range touches. -/
def wordsTouched (a n : Nat) : Nat := if n = 0 then 0 else (a + n - 1) / 8 - a / 8 + 1

/-- Words of a row (R172). -/
def CopyReq.rowWords (r : CopyReq) : Nat := fld r.w3 63 44 / 8

/-- The number of elements that a channel performs for a request: a destination word of a linear copy, a fill or kind 5, a
visit of a layout, a word of a row of a gather or scatter, a 16-byte line of a prefetch. -/
def CopyReq.count (r : CopyReq) : Nat :=
  match r.kind with
  | 0 | 4 | 5 => wordsTouched (wordAddr r.w2).toNat r.len
  | 1 => match r.layout with
    | some y => min r.len y.total
    | none => 0
  | 2 | 3 => if r.len = 0 then 0 else fld r.w3 43 20 * r.rowWords
  | _ => if r.len = 0 then 0 else ((wordAddr r.w1).toNat + r.len - 1) / 16 - (wordAddr r.w1).toNat / 16 + 1

/-- Destination word k of a linear request: offset from its start, and bytes. -/
def CopyReq.piece (r : CopyReq) (k : Nat) : Nat × Nat :=
  let a := (wordAddr r.w2).toNat
  let lo := max a ((a / 8 + k) * 8)
  let hi := min (a + r.len) ((a / 8 + k + 1) * 8)
  (lo - a, hi - lo)

/-- Read at most 8 bytes from global memory or the own scratchpad. -/
def State.copyRead (s : State) (c : CoreId) (ch : Fin 4) (w : DWord) (off n : Nat) : Except EngStop (Nat × State) :=
  if space w = 0 then (s.engRead c (chanUnit ch) (wordAddr w + dw off) n).map fun r => (r.1, r.2.2)
  else do
    let v ← s.engSpad c (wordAddr w + dw off) n
    return (v, s)

/-- Write at most 8 bytes to global memory. -/
def State.copyPut (s : State) (c : CoreId) (ch : Fin 4) (a : DWord) (n v : Nat) : Except EngStop State :=
  (s.engWrite c (chanUnit ch) (.channel c ch) a n v).map Prod.snd

/-- Write at most 8 bytes to global memory, the own scratchpad, or another core's: a fenced receiver is 0x1D (R168). What sets a
word of another core full does not synchronise with that core's contexts at CORE (R88, R105). -/
def State.copyWrite (s : State) (c : CoreId) (r : CopyReq) (off n v : Nat) : Except EngStop State :=
  let a := wordAddr r.w2 + dw off
  match space r.w2 with
  | 0 => s.copyPut c r.chan a n v
  | 1 => s.engSpadPut c a n v r.setf r.seen
  | _ =>
    let d := mkCore (fld r.w2 60 48)
    if (s.core d).fenced then .error (.fault 0x1D a)
    else s.engSpadPut d a n v r.setf (if d = c then r.seen else [])

/-- Kind 5 reads weight-store pages only (R174). -/
def State.wsOnly (s : State) (c : CoreId) (va : DWord) : Except EngStop Unit :=
  match s.globalCheck c va 1 .load with
  | (.error t, _) => .error (.fault t.cause va)
  | (.ok e, _) => if pteKind e.page.leaf = 3 then .ok () else .error (.fault 0x08 va)

/-- A linear copy's word k, a fill's, a weight-store copy's (R159, R174). -/
def State.linearElement (s : State) (c : CoreId) (r : CopyReq) (k : Nat) : Except EngStop State := do
  let p := r.piece k
  let a := wordAddr r.w1 + dw p.1
  if r.kind = 4 then
    let v := r.w3.toNat / 2 ^ (8 * (((wordAddr r.w2).toNat + p.1) % 8))
    s.copyWrite c r p.1 p.2 v
  else
    if r.kind = 5 then
      s.wsOnly c a
      s.wsOnly c (a + dw (p.2 - 1))
    let (v, s1) ← s.copyRead c r.chan r.w1 p.1 p.2
    s1.copyWrite c r p.1 p.2 v

/-- Every other visit of a dense word is performed, so that this one completes it (R61). -/
def completesWord (done : List Nat) (dense es k total : Nat) : Bool :=
  let w := (dense + k * es) / 8
  (upto (8 / es)).all fun i =>
    let j := (w * 8 + i * es - dense) / es
    decide (w * 8 + i * es < dense) || decide (total ≤ j) || j == k || done.contains j

/-- Visit k of a layout request (R171): elements are aligned to their size on both sides (R164). -/
def State.layoutElement (s : State) (c : CoreId) (q : CopyRun) (y : LayoutReg) (k : Nat) : Except EngStop State := do
  let r := q.req
  let es := match y.record with
    | some l => 2 ^ l.esz
    | none => 1
  let dense := wordAddr (if r.dir then r.w1 else r.w2)
  let d := dense + dw (k * es)
  let v := y.visit k
  let a := y.addr v
  if d.toNat % es ≠ 0 then .error (.fault 0x05 d)
  else if y.pads v then
    if r.dir then return s
    else
      let pad := match y.record with
        | some l => if l.padv then l.pad.toNat % 2 ^ (8 * es) else 0
        | none => 0
      s.engSpadPut c d es pad (r.setf && completesWord q.done dense.toNat es k r.count) r.seen
  else if a.toNat % es ≠ 0 then .error (.fault 0x05 a)
  else if r.dir then
    let x ← s.engSpad c d es
    s.copyPut c r.chan a es x
  else
    let (x, _, s1) ← s.engRead c (chanUnit r.chan) a es
    s1.engSpadPut c d es x (r.setf && completesWord q.done dense.toNat es k r.count) r.seen

/-- The index of a row: as it was read, or read now (R172). -/
def State.rowIndex (s : State) (c : CoreId) (q : CopyRun) (row : Nat) : Except EngStop (Nat × CopyRun) :=
  match q.idx.find? fun p => p.1 == row with
  | some p => .ok (p.2.toNat, q)
  | none => do
    let v ← s.engSpad c (dw (fld q.req.w3 17 0 + 4 * row)) 4
    return (v, { q with idx := q.idx ++ [(row, BitVec.ofNat 32 v)] })

/-- RANGE of a channel is set (R172, R173). -/
def State.setRange (s : State) (c : CoreId) (ch : Fin 4) : State :=
  s.modCore c fun k => k.modChan ch fun x => { x with range := true }

/-- A word of a row of a gather (R172) or a scatter (R173); rows and their places are 8-byte aligned (R164; log 24). DESIGN CHOICE: an
index 0xFFFF_FFFF below LEN names a row of the table (log 88). -/
def State.rowElement (s : State) (c : CoreId) (ch : Fin 4) (q : CopyRun) (k : Nat) : Except EngStop (State × CopyRun) := do
  let r := q.req
  let row := k / r.rowWords
  let off := k % r.rowWords * 8
  let (i, q1) ← s.rowIndex c q row
  let rowb := r.rowWords * 8
  let gather := decide (r.kind = 2)
  let pad := wordAddr (if gather then r.w2 else r.w1) + dw (row * rowb + off)
  let tab := wordAddr (if gather then r.w1 else r.w2) + dw (i * rowb + off)
  if pad.toNat % 8 ≠ 0 then .error (.fault 0x05 pad)
  else if i < r.len then
    if tab.toNat % 8 ≠ 0 then .error (.fault 0x05 tab)
    else if gather then
      let (v, _, s1) ← s.engRead c (chanUnit r.chan) tab 8
      let s2 ← s1.engSpadPut c pad 8 v true r.seen
      return (s2, q1)
    else
      let v ← s.engSpad c pad 8
      let s1 ← s.copyPut c r.chan tab 8 v
      return (s1, q1)
  else if i = 0xFFFFFFFF then
    if gather then
      if pad.toNat + 8 ≤ 0x40000 then
        return (s.modCore c fun x => (x.noteFull pad.toNat 1 r.seen).setFull pad.toNat true, q1)
      else .error (.fault 0x06 pad)
    else return (s, q1)
  else if gather then
    let s1 ← s.engSpadPut c pad 8 0 true r.seen
    return (s1.setRange c ch, q1)
  else return (s.setRange c ch, q1)

/-- A line of a code prefetch: what X or the translation forbids stays uncached; another failure is the channel's (R174, R164).
The path is that of fetch: it stalls with the weight-store bank and behind the core's own writes (R70, R214). -/
def State.codeElement (s : State) (c : CoreId) (r : CopyReq) (k : Nat) : Except EngStop State :=
  let va := dw (((wordAddr r.w1).toNat / 16 + k) * 16)
  if s.fetchStalls c va then .error .wait
  else match s.fetchHalf c va with
    | (.ok _, s1) => .ok s1
    | (.error t, s1) => if t.cause = 0x07 ∨ t.cause = 0x08 then .ok s1 else .error (.fault t.cause va)

/-- The element may be performed now: visits of a layout go one at a time in their order (R171), rows of a scatter in list order
(R173). -/
def CopyRun.mayPerform (q : CopyRun) (k : Nat) : Bool :=
  let before : Nat := match q.req.kind with
    | 1 => k
    | 3 => k / q.req.rowWords * q.req.rowWords
    | _ => 0
  decide (k < q.req.count) && !q.done.contains k && (upto before).all fun j => q.done.contains j

/-- One element of a running request. -/
def State.element (s : State) (c : CoreId) (ch : Fin 4) (q : CopyRun) (k : Nat) : Except EngStop (State × CopyRun) :=
  match q.req.kind with
  | 0 | 4 | 5 => do
    let s1 ← s.linearElement c q.req k
    return (s1, { q with done := q.done ++ [k] })
  | 1 => match q.req.layout with
    | some y => do
      let s1 ← s.layoutElement c q y k
      return (s1, { q with done := q.done ++ [k] })
    | none => .ok (s, { q with done := q.done ++ [k] })
  | 2 | 3 => do
    let (s1, q1) ← s.rowElement c ch q k
    return (s1, { q1 with done := q1.done ++ [k] })
  | _ => do
    let s1 ← s.codeElement c q.req k
    return (s1, { q with done := q.done ++ [k] })

/-! ## Channels (R161 to R168) -/

/-- The first queued request of a channel (R156). -/
def Core.nextReq (k : Core) (ch : Fin 4) : Option CopyReq := k.fifo.find? fun r => r.chan == ch

/-- Remove the first queued request of a channel. -/
def dropChan (ch : Fin 4) : List CopyReq → List CopyReq
  | [] => []
  | r :: q => if r.chan = ch then q else r :: dropChan ch q

/-- COPY_REQUEST_START (R163): the channel is idle and not faulted, and its oldest request is not held (R167). DESIGN CHOICE: a queued
request starts on a halted core too, as engines run to completion there (R318; log 87). -/
def State.tryCopyStart (s : State) (c : CoreId) (ch : Fin 4) : Option State :=
  let k := s.core c
  let q := k.chans.get ch
  match k.nextReq ch with
  | none => none
  | some r =>
    if q.running.isSome || q.fault.isSome || r.isHeld || s.stopped then none
    else some (s.modCore c fun k => { k with fifo := dropChan ch k.fifo }.modChan ch fun q =>
      { q with running := some { req := r, done := [], idx := [] } })

/-- The channel stops on a fault at its running request (R164). -/
def State.channelStop (s : State) (c : CoreId) (ch : Fin 4) (cause : Byte) (addr : DWord) : State :=
  (s.modCore c fun k => k.modChan ch fun q => { q with fault := some (cause, addr) }).engForget c (chanUnit ch)

/-- The running request of a channel that is not stopped. -/
def State.runningReq (s : State) (c : CoreId) (ch : Fin 4) : Option CopyRun :=
  let q := (s.core c).chans.get ch
  if q.fault.isSome then none else q.running

/-- Replace the running request of a channel. -/
def State.setRunning (s : State) (c : CoreId) (ch : Fin 4) (r : Option CopyRun) : State :=
  s.modCore c fun k => k.modChan ch fun q => { q with running := r }

/-- One element of the running request of a channel is performed, or meets its fault (R62, R163, R164). -/
def State.copyElement (s : State) (c : CoreId) (ch : Fin 4) (k : Nat) : Option State :=
  match s.runningReq c ch with
  | none => none
  | some q =>
    if !q.mayPerform k then none
    else match s.element c ch q k with
      | .ok (s1, q1) => some (s1.setRunning c ch (some q1))
      | .error (.fault cause a) => some (s.channelStop c ch cause a)
      | .error e => s.holdFor e

/-- Perform the elements of a list in order, as long as none waits or faults. -/
def State.copyAll (s : State) (c : CoreId) (ch : Fin 4) (q : CopyRun) : List Nat → Except EngStop (State × CopyRun)
  | [] => .ok (s, q)
  | k :: r =>
    if q.done.contains k then s.copyAll c ch q r
    else match s.element c ch q k with
      | .ok (s1, q1) => s1.copyAll c ch q1 r
      | .error e => .error e

/-- What an observer of a request's done id comes after (R105). -/
def State.chanSeen (s : State) (c : CoreId) (ch : Fin 4) (r : CopyReq) : KMap Nat :=
  joinSeen ((s.core c).chans.get ch).seen (joinSeen r.seen (s.writtenBy (some c) (chanUnit ch)))

/-- The done id reaches a request's, and the channel's source pulses (R162, R163). Who observes it comes after the request's
writes and what the request came after (R105). -/
def State.copyDone (s : State) (c : CoreId) (ch : Fin 4) (r : CopyReq) : State :=
  let m := s.chanSeen c ch r
  ((s.modCore c fun k => k.modChan ch fun q => { q with running := none, done := r.id, seen := m }).engForget c (chanUnit ch)).pulseOf c
    ch.val m

/-- COPY_REQUEST_COMPLETE (R163): what is left of the request is performed, and the request completes. -/
def State.tryCopyDone (s : State) (c : CoreId) (ch : Fin 4) : Option State :=
  match s.runningReq c ch with
  | none => none
  | some q =>
    match s.copyAll c ch q (upto q.req.count) with
    | .ok (s1, _) => some (s1.copyDone c ch q.req)
    | .error e => s.holdFor e

/-- Perform elements in order up to the first that faults, and stop the channel there. -/
def State.copyToFault (s : State) (c : CoreId) (ch : Fin 4) (q : CopyRun) : List Nat → Option State
  | [] => none
  | k :: r =>
    if q.done.contains k then s.copyToFault c ch q r
    else match s.element c ch q k with
      | .ok (s1, q1) => (s1.setRunning c ch (some q1)).copyToFault c ch q1 r
      | .error (.fault cause a) => some (s.channelStop c ch cause a)
      | .error _ => none

/-- The address at which an element of a request can meet an uncorrectable error of what it reads (R164, R166): none of a fill or of
padding; of a row that the table does not supply, its index, if that is still to be read. -/
def State.elementAddr (s : State) (c : CoreId) (q : CopyRun) (k : Nat) : Option DWord :=
  let r := q.req
  let row := k / r.rowWords
  let index := dw (fld r.w3 17 0 + 4 * row)
  let ofRow (a : Nat → DWord) : Option DWord := match s.rowIndex c q row with
    | .ok (i, _) => if i < r.len then some (a i) else if q.idx.any fun p => p.1 == row then none else some index
    | .error _ => some index
  match r.kind with
  | 0 | 5 => some (wordAddr r.w1 + dw (r.piece k).1)
  | 1 => match r.layout with
    | some y =>
      if y.pads (y.visit k) then none
      else some (if r.dir then wordAddr r.w1 + dw (k * (match y.record with
        | some l => 2 ^ l.esz
        | none => 1)) else y.addr (y.visit k))
    | none => none
  | 2 => ofRow fun i => wordAddr r.w1 + dw (i * (r.rowWords * 8) + k % r.rowWords * 8)
  | 3 => ofRow fun _ => wordAddr r.w1 + dw (k * 8)
  | 4 => none
  | _ => some (dw (((wordAddr r.w1).toNat / 16 + k) * 16))

/-- CHANNEL_FAULT (R164, R166): the running request reaches its first fault, or one of the accesses that it can perform meets an
uncorrectable error. -/
def State.tryChannelFault (s : State) (c : CoreId) (ch : Fin 4) (uncorrectable : Bool) : Option State :=
  match s.runningReq c ch with
  | none => none
  | some q =>
    if uncorrectable then
      let l := ((upto q.req.count).filter q.mayPerform).filterMap (s.elementAddr c q)
      l[(s.draw 64).1.toNat % l.length]?.map fun a => (s.draw 64).2.channelStop c ch 0x18 a
    else s.copyToFault c ch q (upto q.req.count)

/-- COPY_REQUEST_START. -/
def execCopyRequestStart (c : CoreId) (ch : Fin 4) (s : State) : Out := .next ((s.tryCopyStart c ch).getD s)

/-- COPY_REQUEST_COMPLETE. -/
def execCopyRequestComplete (c : CoreId) (ch : Fin 4) (s : State) : Out := .next ((s.tryCopyDone c ch).getD s)

/-- CHANNEL_FAULT. -/
def execChannelFault (c : CoreId) (ch : Fin 4) (uncorrectable : Bool) (s : State) : Out :=
  .next ((s.tryChannelFault c ch uncorrectable).getD s)

/-! ## Instructions (R305) -/

/-- A register some places after another, within the register file. -/
def regPlus (a : Reg) (n : Nat) : Reg := ⟨(a.val + n) % 32, Nat.mod_lt _ (by decide)⟩

/-- A channel number: v[63:2] is zero, else 0x02 (R285). -/
def chanOf (v : DWord) : Except Stop (Fin 4) := do
  check (decide (v.toNat < 4)) 0x02
  return ⟨v.toNat % 4, Nat.mod_lt _ (by decide)⟩

/-- A request is queued with the channel's next id; a remembered firing releases it if it is held, and what fed the firing comes
before it (R156, R161, R51, R105). -/
def Core.queueCopy (k : Core) (r : CopyReq) : Core :=
  let q := k.chans.get r.chan
  let free := bit r.w0 52 && q.armed
  let m := if free then joinSeen r.seen (k.xbar.term.get (r.chan.castLE (by decide))).seen else r.seen
  let k1 := { k with fifo := k.fifo ++ [{ r with id := q.next, released := free, seen := m }] }.modChan r.chan fun q =>
    { q with next := q.next + 1, armed := if free then false else q.armed }
  if free then k1.keepSeen r.chan [] else k1

/-- XQ.W and XQ.T (R156, R160): a release at CORE towards the request (R94, R105). -/
def xq (waits : Bool) (d a : Reg) (s : State) : Act := do
  check (decide (a.val ≤ 28)) 0x02
  let w0 ← s.rdX a
  let w1 ← s.rdX (regPlus a 1)
  let w2 ← s.rdX (regPlus a 2)
  let w3 ← s.rdX (regPlus a 3)
  let y := s.me.layouts.get ⟨fld w0 51 50 % 4, Nat.mod_lt _ (by decide)⟩
  let r : CopyReq := { w0 := w0, w1 := w1, w2 := w2, w3 := w3, id := 0, released := false,
                       layout := if fld w0 63 56 = 1 then some y else none, seen := s.cx.seen }
  if r.toGlobal then s.notInRestartable 0 1
  match requestFault s.me r with
  | some (w, b) => fault 0x0F 0 (dw (w + 4 * b))
  | none =>
    s.regReady d
    s.memGate
    s.settled
    if 8 ≤ s.me.fifo.length then (if waits then .error .wait else return s.putX d (BitVec.allOnes 64))
    else return (s.modMe fun k => k.queueCopy r).putX d ((s.me.chans.get r.chan).next.setWidth 64)

/-- XQ.W. -/
def execXqW (g : Guard) (d a : Reg) (s : State) : Out := instr g (xq true d a) s

/-- XQ.T. -/
def execXqT (g : Guard) (d a : Reg) (s : State) : Out := instr g (xq false d a) s

/-- XDONE (R162): it never waits for the channel; reaching an id is an acquire (R95). -/
def execXdone (g : Guard) (d a : Reg) (s : State) : Out :=
  instr g (fun s => do
    s.syncPoint
    let x ← s.rdX a
    s.regReady d
    let c ← chanOf x
    return (s.putX d ((s.me.chans.get c).done.setWidth 64)).syncWith s.cur s.curCtx (s.me.chans.get c).seen) s

/-- An id is after another (R162). -/
def idAfter (a b : Word) : Bool := decide (a - b ≠ 0) && decide ((a - b).toNat < 2 ^ 31)

/-- XWAIT (R162, R165). -/
def execXwait (g : Guard) (a b : Reg) (s : State) : Out :=
  instr g (fun s => do
    s.syncPoint
    let x ← s.rdX a
    let y ← s.rdX b
    let c ← chanOf x
    let q := s.me.chans.get c
    if idAfter (y.setWidth 32) q.done then
      match q.fault with
      | some (cause, addr) => fault cause addr (dw (c.val + 2 ^ 30 + (q.done + 1).toNat * 2 ^ 32))
      | none => .error .wait
    else return s.syncWith s.cur s.curCtx q.seen) s

/-- XSTAT's status word (R164). -/
def chanStatus (k : Core) (c : Fin 4) : DWord :=
  let q := k.chans.get c
  let held := q.running.isNone && (match k.nextReq c with
    | some r => r.isHeld
    | none => false)
  let qn := (k.fifo.filter fun r => r.chan == c).length
  dw (q.done.toNat + b2n q.fault.isSome * 2 ^ 32 + b2n q.range * 2 ^ 33 + b2n held * 2 ^ 34 + b2n q.armed * 2 ^ 35 +
    b2n (q.running.isSome && q.fault.isNone) * 2 ^ 36 + (match q.fault with
      | some (cause, _) => cause.toNat * 2 ^ 40
      | none => 0) + qn * 2 ^ 48)

/-- XSTAT (R164). -/
def execXstat (g : Guard) (d a b : Reg) (s : State) : Out :=
  instr g (fun s => do
    let x ← s.rdX a
    let y ← s.rdX b
    let c ← chanOf x
    check (decide (y.toNat < 2)) 0x02
    s.wrX d (if y = 0 then chanStatus s.me c else match (s.me.chans.get c).fault with
      | some (_, addr) => addr
      | none => 0)) s

/-- XCLR (R165): skip or retry the faulting request; bit 3 clears RANGE. Who observes the id of a skipped request comes after what `m`
gives (R105). -/
def Core.clearChan (k : Core) (c : Fin 4) (retry range : Bool) (m : KMap Nat) : Core :=
  k.modChan c fun q =>
    let q1 := if range then { q with range := false } else q
    match q1.fault, q1.running with
    | some _, some r => if retry then { q1 with fault := none, running := some { r with done := [], idx := [] } }
                        else { q1 with fault := none, running := none, done := r.req.id, seen := m }
    | some _, none => { q1 with fault := none }
    | none, _ => q1

/-- XCLR (R165). -/
def execXclr (g : Guard) (a : Reg) (s : State) : Out :=
  instr g (fun s => do
    let x ← s.rdX a
    check (decide (x.toNat < 16)) 0x02
    let ch : Fin 4 := ⟨fld x 1 0 % 4, Nat.mod_lt _ (by decide)⟩
    let m := match (s.me.chans.get ch).running with
      | some r => s.chanSeen s.cur ch r.req
      | none => []
    return s.modMe fun k => k.clearChan ch (bit x 2) (bit x 3) m) s

end Sys2Proof.Machine
end

