-- ==== Sys2Proof/Machine/Memory.lean ====
section
/-! DEFINITION. Memory instructions: scratchpad loads and stores (R254 to R256), full/empty operations (R257), global loads
and stores (R258, R259), the constant path and line operations (R260), acquire, release and fences (R261, R262), atomics
and reductions (R263 to R266), versioned memory and capabilities (R267 to R270). Queue objects stand in Objects.lean. -/

namespace Sys2Proof.Machine

/-- Widen the low `n` bytes of a number to 64 bits (R251, Ext). -/
def extend (n : Nat) (signed : Bool) (v : Nat) : DWord := if signed then sext64 (8 * n) v else dw (v % 2 ^ (8 * n))

/-- xA + off, for an offset field in units of `n` bytes (R254). -/
def State.addrOff (a : Reg) (off : Int) (n : Nat) (s : State) : Except Stop DWord := do
  let x ← s.rdX a
  return x + ofImm (off * n)

/-- xA + (xB << Log2(n)) (R256). -/
def State.addrIx (a b : Reg) (n : Nat) (s : State) : Except Stop DWord := do
  let x ← s.rdX a
  let y ← s.rdX b
  return x + y * dw n

/-! ## Scratchpad loads and stores -/

/-- A scratchpad load of `n` bytes (R254): the full/empty bit is ignored. -/
def spadLoad (n : Nat) (signed : Bool) (d : Reg) (addr : State → Except Stop DWord) (s : State) : Act := do
  s.memGate
  let va ← addr s
  s.regReady d
  let a ← spadEA va n
  s.spadSound a n
  return (s.putX d (extend n signed (s.spadNat a n))).spadSeen a n

/-- A scratchpad store of `n` bytes (R255): the full/empty bit stays. -/
def spadStore (n : Nat) (d : Reg) (addr : State → Except Stop DWord) (s : State) : Act := do
  s.memGate
  s.relWait
  let va ← addr s
  let v ← s.rdX d
  let a ← spadEA va n
  return s.spadPut a n v.toNat

/-- LDB (R254). -/
def execLdb (g : Guard) (d a : Reg) (off : Int) (s : State) : Out :=
  instr g (spadLoad 1 true d (State.addrOff a off 1)) s

/-- LDH (R254). -/
def execLdh (g : Guard) (d a : Reg) (off : Int) (s : State) : Out :=
  instr g (spadLoad 2 true d (State.addrOff a off 2)) s

/-- LDW (R254). -/
def execLdw (g : Guard) (d a : Reg) (off : Int) (s : State) : Out :=
  instr g (spadLoad 4 true d (State.addrOff a off 4)) s

/-- LDD (R254). -/
def execLdd (g : Guard) (d a : Reg) (off : Int) (s : State) : Out :=
  instr g (spadLoad 8 false d (State.addrOff a off 8)) s

/-- LDBU (R254). -/
def execLdbu (g : Guard) (d a : Reg) (off : Int) (s : State) : Out :=
  instr g (spadLoad 1 false d (State.addrOff a off 1)) s

/-- LDHU (R254). -/
def execLdhu (g : Guard) (d a : Reg) (off : Int) (s : State) : Out :=
  instr g (spadLoad 2 false d (State.addrOff a off 2)) s

/-- LDWU (R254). -/
def execLdwu (g : Guard) (d a : Reg) (off : Int) (s : State) : Out :=
  instr g (spadLoad 4 false d (State.addrOff a off 4)) s

/-- STB (R255). -/
def execStb (g : Guard) (d a : Reg) (off : Int) (s : State) : Out :=
  instr g (spadStore 1 d (State.addrOff a off 1)) s

/-- STH (R255). -/
def execSth (g : Guard) (d a : Reg) (off : Int) (s : State) : Out :=
  instr g (spadStore 2 d (State.addrOff a off 2)) s

/-- STW (R255). -/
def execStw (g : Guard) (d a : Reg) (off : Int) (s : State) : Out :=
  instr g (spadStore 4 d (State.addrOff a off 4)) s

/-- STD (R255). -/
def execStd (g : Guard) (d a : Reg) (off : Int) (s : State) : Out :=
  instr g (spadStore 8 d (State.addrOff a off 8)) s

/-- LDXB (R256). -/
def execLdxb (g : Guard) (d a b : Reg) (s : State) : Out :=
  instr g (spadLoad 1 true d (State.addrIx a b 1)) s

/-- LDXH (R256). -/
def execLdxh (g : Guard) (d a b : Reg) (s : State) : Out :=
  instr g (spadLoad 2 true d (State.addrIx a b 2)) s

/-- LDXW (R256). -/
def execLdxw (g : Guard) (d a b : Reg) (s : State) : Out :=
  instr g (spadLoad 4 true d (State.addrIx a b 4)) s

/-- LDXD (R256). -/
def execLdxd (g : Guard) (d a b : Reg) (s : State) : Out :=
  instr g (spadLoad 8 false d (State.addrIx a b 8)) s

/-- LDXBU (R256). -/
def execLdxbu (g : Guard) (d a b : Reg) (s : State) : Out :=
  instr g (spadLoad 1 false d (State.addrIx a b 1)) s

/-- LDXHU (R256). -/
def execLdxhu (g : Guard) (d a b : Reg) (s : State) : Out :=
  instr g (spadLoad 2 false d (State.addrIx a b 2)) s

/-- LDXWU (R256). -/
def execLdxwu (g : Guard) (d a b : Reg) (s : State) : Out :=
  instr g (spadLoad 4 false d (State.addrIx a b 4)) s

/-- STXB (R256). -/
def execStxb (g : Guard) (d a b : Reg) (s : State) : Out :=
  instr g (spadStore 1 d (State.addrIx a b 1)) s

/-- STXH (R256). -/
def execStxh (g : Guard) (d a b : Reg) (s : State) : Out :=
  instr g (spadStore 2 d (State.addrIx a b 2)) s

/-- STXW (R256). -/
def execStxw (g : Guard) (d a b : Reg) (s : State) : Out :=
  instr g (spadStore 4 d (State.addrIx a b 4)) s

/-- STXD (R256). -/
def execStxd (g : Guard) (d a b : Reg) (s : State) : Out :=
  instr g (spadStore 8 d (State.addrIx a b 8)) s

/-- LDD.C (R248). -/
def execLddC (d a : Reg) (s : State) : Out := instrC (spadLoad 8 false d (State.addrOff a 0 8)) s

/-- STD.C (R248). -/
def execStdC (d a : Reg) (s : State) : Out := instrC (spadStore 8 d (State.addrOff a 0 8)) s

/-- LDS.C: the base is x31 (R249). -/
def execLdsC (d : Reg) (imm : Nat) (s : State) : Out := instrC (spadLoad 8 false d (State.addrOff 31 imm 8)) s

/-- STS.C: the base is x31 (R249). -/
def execStsC (d : Reg) (imm : Nat) (s : State) : Out := instrC (spadStore 8 d (State.addrOff 31 imm 8)) s

/-! ## Full/empty operations (R59, R60, R257) -/

/-- Wait until every one of `n` words at an address is full, or empty. -/
def State.feWait (s : State) (a n : Nat) (full : Bool) : Except Stop Unit :=
  if s.me.allFe a full n then .ok () else .error (.waitFe a n full)

/-- Set the full/empty bits of `n` words of the issuing core. -/
def State.feSet (s : State) (a n : Nat) (full : Bool) : State := s.modMe fun k => k.setFulls a full n

/-- A release at CORE by setting `n` words full (R94). -/
def State.feRelease (s : State) (a n : Nat) : State := (s.feSet a n true).modMe fun k => k.noteFull a n s.cx.seen

/-- An acquire at CORE by finding `n` words full (R95): of what set them full. -/
def State.feAcquire (s : State) (a n : Nat) : State :=
  s.syncWith s.cur s.curCtx ((upto n).foldl (fun m i => joinSeen m (s.me.feSeen.get [] (a / 8 + i))) [])

/-- LDF and LDK: wait for full, load, and leave the bit as asked: an acquire at CORE. -/
def feLoad (keep : Bool) (d a : Reg) (off : Int) (s : State) : Act := do
  s.memGate
  s.syncPoint
  let va ← State.addrOff a off 8 s
  s.regReady d
  let p ← spadEA va 8
  s.feWait p 1 true
  s.spadSound p 8
  return ((s.putX d (dw (s.spadNat p 8))).feSet p 1 keep).feAcquire p 1

/-- STE and STF: a release at CORE; STE waits for empty. -/
def feStore (waits : Bool) (d a : Reg) (off : Int) (s : State) : Act := do
  s.memGate
  s.settled
  let va ← State.addrOff a off 8 s
  let v ← s.rdX d
  let p ← spadEA va 8
  if waits then s.feWait p 1 false
  return (s.spadPut p 8 v.toNat).feRelease p 1

/-- LDF. -/
def execLdf (g : Guard) (d a : Reg) (off : Int) (s : State) : Out := instr g (feLoad false d a off) s

/-- LDK. -/
def execLdk (g : Guard) (d a : Reg) (off : Int) (s : State) : Out := instr g (feLoad true d a off) s

/-- STE. -/
def execSte (g : Guard) (d a : Reg) (off : Int) (s : State) : Out := instr g (feStore true d a off) s

/-- STF. -/
def execStf (g : Guard) (d a : Reg) (off : Int) (s : State) : Out := instr g (feStore false d a off) s

/-- SETE. -/
def execSete (g : Guard) (a : Reg) (off : Int) (s : State) : Out :=
  instr g (fun s => do
    s.memGate
    let va ← State.addrOff a off 8 s
    let p ← spadEA va 8
    return s.feSet p 1 false) s

/-- SETF: a release at CORE. -/
def execSetf (g : Guard) (a : Reg) (off : Int) (s : State) : Out :=
  instr g (fun s => do
    s.memGate
    s.settled
    let va ← State.addrOff a off 8 s
    let p ← spadEA va 8
    return s.feRelease p 1) s

/-- TFE. -/
def execTfe (g : Guard) (d : PReg) (a : Reg) (off : Int) (s : State) : Out :=
  instr g (fun s => do
    s.memGate
    let va ← State.addrOff a off 8 s
    let p ← spadEA va 8
    return s.putP d (predBit (s.me.isFull p))) s

/-! ## Global loads and stores (R258, R259) -/

/-- LDG of `n` bytes. -/
def ldg (n : Nat) (signed : Bool) (d a : Reg) (pol : Policy) (off : Int) (s : State) : Act := do
  s.splitReady d
  let va ← State.addrOff a off n s
  let (e, s) ← s.globalEA va n .load
  return s.issueLoad (.load signed) e n d (e.attrs pol) false

/-- STG of `n` bytes: in a restartable reaction it is fault 0x08 before every other check (R47). -/
def stg (n : Nat) (d a : Reg) (pol : Policy) (off : Int) (s : State) : Act := do
  let va ← State.addrOff a off n s
  s.notInRestartable va 1
  s.memGate
  let v ← s.rdX d
  let (e, s) ← s.globalEA va n .store
  checkIn s (!e.isV && !e.isObj) 0x08 va (fi08 .store)
  checkIn s (!s.paUnreachable e.pa) 0x1D va (s.fi1D e.pa)
  return s.issueStore e n v pol 0

/-- LDG.B. -/
def execLdgB (g : Guard) (d a : Reg) (pol : Policy) (off : Int) (s : State) : Out := instr g (ldg 1 true d a pol off) s

/-- LDG.H. -/
def execLdgH (g : Guard) (d a : Reg) (pol : Policy) (off : Int) (s : State) : Out := instr g (ldg 2 true d a pol off) s

/-- LDG.W. -/
def execLdgW (g : Guard) (d a : Reg) (pol : Policy) (off : Int) (s : State) : Out := instr g (ldg 4 true d a pol off) s

/-- LDG.D. -/
def execLdgD (g : Guard) (d a : Reg) (pol : Policy) (off : Int) (s : State) : Out := instr g (ldg 8 false d a pol off) s

/-- LDG.BU. -/
def execLdgBu (g : Guard) (d a : Reg) (pol : Policy) (off : Int) (s : State) : Out := instr g (ldg 1 false d a pol off) s

/-- LDG.HU. -/
def execLdgHu (g : Guard) (d a : Reg) (pol : Policy) (off : Int) (s : State) : Out := instr g (ldg 2 false d a pol off) s

/-- LDG.WU. -/
def execLdgWu (g : Guard) (d a : Reg) (pol : Policy) (off : Int) (s : State) : Out := instr g (ldg 4 false d a pol off) s

/-- STG.B. -/
def execStgB (g : Guard) (d a : Reg) (pol : Policy) (off : Int) (s : State) : Out := instr g (stg 1 d a pol off) s

/-- STG.H. -/
def execStgH (g : Guard) (d a : Reg) (pol : Policy) (off : Int) (s : State) : Out := instr g (stg 2 d a pol off) s

/-- STG.W. -/
def execStgW (g : Guard) (d a : Reg) (pol : Policy) (off : Int) (s : State) : Out := instr g (stg 4 d a pol off) s

/-- STG.D. -/
def execStgD (g : Guard) (d a : Reg) (pol : Policy) (off : Int) (s : State) : Out := instr g (stg 8 d a pol off) s

/-! ## The constant path and line operations (R260) -/

/-- LDC of `n` bytes: a V or OBJ page is fault 0x08. -/
def ldc (n : Nat) (signed : Bool) (d a : Reg) (off : Int) (s : State) : Act := do
  s.splitReady d
  let va ← State.addrOff a off n s
  let (e, s) ← s.globalEA va n .load
  checkIn s (!e.isV && !e.isObj) 0x08 va (fi08 .load)
  return s.issueLoad (.ldc signed) e n d (e.attrs .normal) false

/-- LDC.W. -/
def execLdcW (g : Guard) (d a : Reg) (off : Int) (s : State) : Out := instr g (ldc 4 true d a off) s

/-- LDC.D. -/
def execLdcD (g : Guard) (d a : Reg) (off : Int) (s : State) : Out := instr g (ldc 8 false d a off) s

/-- LDC.WU. -/
def execLdcWu (g : Guard) (d a : Reg) (off : Int) (s : State) : Out := instr g (ldc 4 false d a off) s

/-- Invalidate the constant cache of a landing (R68). -/
def State.clearConst (s : State) (landing : Nat) : State := { s with constC := s.constC.drop landing }

/-- CINV.C (R68, R260): it comes after what an acquire before it orders, and after what a FENCE.REL before it has released. -/
def execCinvC (g : Guard) (s : State) : Out :=
  instr g (fun s => do
    s.memGate
    s.relWait
    return s.clearConst (landingOf s.cur.val)) s

/-- CFL and CINVL: the checks of a load but alignment; they change where a line is kept, which the model does not hold
(R64, R79, R260). -/
def lineCheck (a : Reg) (off : Int) (s : State) : Act := do
  let va ← State.addrOff a off 128 s
  let (_, s) ← s.globalEA va 1 .load
  return s

/-- CFL. -/
def execCfl (g : Guard) (a : Reg) (off : Int) (s : State) : Out := instr g (lineCheck a off) s

/-- CINVL. -/
def execCinvl (g : Guard) (a : Reg) (off : Int) (s : State) : Out := instr g (lineCheck a off) s

/-- A fill that CPF asks for: the core becomes a sharer of the line, or the fill waits at the home as a read does (R65, R66). -/
def State.fillLine (s : State) (c : CoreId) (pa : Nat) : State :=
  if s.lineHeld pa || !s.shareOpen c pa then
    { s with prefetches := if s.prefetches.contains (c, lineOf pa) then s.prefetches else s.prefetches ++ [(c, lineOf pa)] }
  else s.shareLine c pa

/-- CPF: a fill of the line under policy 0, which never faults. -/
def execCpf (g : Guard) (a : Reg) (off : Int) (s : State) : Out :=
  instr g (fun s => do
    let va ← State.addrOff a off 128 s
    match s.globalCheck s.cur va 1 .load with
    | (.ok e, s1) => return if allocates .normal (pteKind e.page.leaf) then s1.fillLine s.cur e.pa else s1
    | (.error _, s1) => return s1) s

/-! ## Acquire loads, release stores and fences (R261, R262) -/

/-- The code of a scope (R87). -/
def scopeCode : Scope → Nat
  | .ctx => 0
  | .core => 1
  | .landing => 2
  | .die => 3
  | .device => 4
  | .domain => 5
  | .system => 6

/-- LDA of `n` bytes: an acquire at a scope; until its value is fixed no later access is sent. -/
def lda (n : Nat) (d a : Reg) (scope : Scope) (s : State) : Act := do
  s.syncPoint
  s.splitReady d
  let va ← s.rdX a
  let (e, s) ← s.globalEA va n .load
  checkIn s (!e.isV) 0x08 va (fi08 .load)
  return s.issueLoad (.lda (n == 4)) e n d (e.attrs .normal) true (scopeCode scope)

/-- STL of `n` bytes: a release at a scope. -/
def stl (n : Nat) (d a : Reg) (scope : Scope) (s : State) : Act := do
  let va ← s.rdX a
  s.notInRestartable va 1
  s.memGate
  let v ← s.rdX d
  let (e, s) ← s.globalEA va n .store
  checkIn s (!e.isV && !e.isObj) 0x08 va (fi08 .store)
  checkIn s (!s.paUnreachable e.pa) 0x1D va (s.fi1D e.pa)
  s.settledAt (scopeCode scope)
  return s.issueStore e n v .normal (scopeCode scope)

/-- LDA.D. -/
def execLdaD (g : Guard) (d a : Reg) (scope : Scope) (s : State) : Out := instr g (lda 8 d a scope) s

/-- LDA.W. -/
def execLdaW (g : Guard) (d a : Reg) (scope : Scope) (s : State) : Out := instr g (lda 4 d a scope) s

/-- STL.D. -/
def execStlD (g : Guard) (d a : Reg) (scope : Scope) (s : State) : Out := instr g (stl 8 d a scope) s

/-- STL.W. -/
def execStlW (g : Guard) (d a : Reg) (scope : Scope) (s : State) : Out := instr g (stl 4 d a scope) s

/-- A fence that acquires: no access is sent before every earlier load and reply has its value. -/
def acquireFence (scope : Scope) (s : State) : Act := do
  s.syncPoint
  waitUntil (s.cx.reqs.all fun q => q.performed 0)
  return s.acquireObs s.cur s.curCtx (scopeCode scope)

/-- FENCE.ACQ. -/
def execFenceAcq (g : Guard) (scope : Scope) (s : State) : Out := instr g (acquireFence scope) s

/-- FENCE.REL: later stores are releases at its scope and wait for every access of an earlier epoch (R98). At CTX no other
agent is ordered, and the fence itself waits until the context's own loads are fixed (log 6). -/
def execFenceRel (g : Guard) (scope : Scope) (s : State) : Out :=
  instr g (fun s => do
    s.syncPoint
    if scope = .ctx then
      waitUntil (s.cx.reqs.all fun q => q.performed 0)
      return s
    else
      waitUntil (s.pushesDone s.cur s.curCtx)
      return s.modCx fun x => { x with epoch := x.epoch + 1, relS := max x.relS (scopeCode scope) }) s

/-- The FENCE.FULL at a scope of the issuing context takes its place in the order of the fences of every instance that holds
both: it comes after what the earlier ones have before them (R99). The stores that follow it are releases (R94, R98). -/
def State.fenceFull (s : State) (scope : Scope) : State :=
  let m := (s.fulls.filter fun r => r.syncs s.cur (scopeCode scope)).foldl (fun m r => joinSeen m r.seen) []
  let t := (s.acquireObs s.cur s.curCtx (scopeCode scope)).syncWith s.cur s.curCtx m
  { t with fulls := t.fulls ++ [t.releaseOf s.cur s.curCtx (scopeCode scope)] }.modCx fun x =>
    { x with relS := max x.relS (scopeCode scope) }

/-- FENCE.FULL (R99): every earlier access is performed before it. -/
def execFenceFull (g : Guard) (scope : Scope) (s : State) : Out :=
  instr g (fun s => do
    s.settledAt (scopeCode scope)
    return if scope = .ctx then s.acquireObs s.cur s.curCtx 0 else s.fenceFull scope) s

/-! ## Atomics and reductions (R263 to R266) -/

/-- A fetching atomic. In a restartable reaction it is 0x08 (R47); under DET 0x1C (R109). -/
def atomic (op : Nat) (d a b : Reg) (s : State) : Act := do
  let va ← s.rdX a
  s.notInRestartable va 1
  check (!s.me.det) 0x1C va
  s.splitReady d
  let y ← s.rdX b
  s.issueAtomic op va d y 0

/-- A reduction: posted, without reply (R265). -/
def reduction (op : Nat) (a b : Reg) (s : State) : Act := do
  let va ← s.rdX a
  s.notInRestartable va 1
  s.memGate
  let y ← s.rdX b
  s.issueAtomic op va 0 y 0

/-- AADD (R263). -/
def execAadd (g : Guard) (d a b : Reg) (s : State) : Out := instr g (atomic 0 d a b) s

/-- AAND (R263). -/
def execAand (g : Guard) (d a b : Reg) (s : State) : Out := instr g (atomic 1 d a b) s

/-- AOR (R263). -/
def execAor (g : Guard) (d a b : Reg) (s : State) : Out := instr g (atomic 2 d a b) s

/-- AXOR (R263). -/
def execAxor (g : Guard) (d a b : Reg) (s : State) : Out := instr g (atomic 3 d a b) s

/-- AMIN (R263). -/
def execAmin (g : Guard) (d a b : Reg) (s : State) : Out := instr g (atomic 4 d a b) s

/-- AMAX (R263). -/
def execAmax (g : Guard) (d a b : Reg) (s : State) : Out := instr g (atomic 5 d a b) s

/-- AMINU (R263). -/
def execAminu (g : Guard) (d a b : Reg) (s : State) : Out := instr g (atomic 6 d a b) s

/-- ASWAP (R263). -/
def execAswap (g : Guard) (d a b : Reg) (s : State) : Out := instr g (atomic 7 d a b) s

/-- ACAS: the expected value is xD, read at issue (R264). -/
def execAcas (g : Guard) (d a b : Reg) (s : State) : Out :=
  instr g (fun s => do
    let va ← s.rdX a
    s.notInRestartable va 1
    check (!s.me.det) 0x1C va
    s.splitReady d
    let y ← s.rdX b
    let x ← s.rdX d
    s.issueAtomic 8 va d y x) s

/-- REDADD (R265). -/
def execRedadd (g : Guard) (a b : Reg) (s : State) : Out := instr g (reduction 9 a b) s

/-- REDAND (R265). -/
def execRedand (g : Guard) (a b : Reg) (s : State) : Out := instr g (reduction 10 a b) s

/-- REDOR (R265). -/
def execRedor (g : Guard) (a b : Reg) (s : State) : Out := instr g (reduction 11 a b) s

/-- REDXOR (R265). -/
def execRedxor (g : Guard) (a b : Reg) (s : State) : Out := instr g (reduction 12 a b) s

/-- REDMIN (R265). -/
def execRedmin (g : Guard) (a b : Reg) (s : State) : Out := instr g (reduction 13 a b) s

/-- REDMAX (R265). -/
def execRedmax (g : Guard) (a b : Reg) (s : State) : Out := instr g (reduction 14 a b) s

/-! ## Versioned memory and capabilities (R267 to R270) -/

/-- LDV and LDVN: xB is the version number; a page without V is 0x08. They acquire: until the reply has come no later access
is sent (R95; log 6). -/
def loadVersion (kind : ReqKind) (d a b : Reg) (s : State) : Act := do
  s.syncPoint
  s.splitReady d
  let va ← s.rdX a
  let v ← s.rdX b
  let (e, s) ← s.globalEA va 8 .versioned
  checkIn s e.isV 0x08 va (fi08 .load)
  return s.issueLoad kind e 8 d v true

/-- LDV (R267). -/
def execLdv (g : Guard) (d a b : Reg) (s : State) : Out := instr g (loadVersion .ldv d a b) s

/-- LDVN (R267). -/
def execLdvn (g : Guard) (d a b : Reg) (s : State) : Out := instr g (loadVersion .ldvn d a b) s

/-- No earlier STV or RECL of the context is unacknowledged (R268). -/
def State.versionsDone (s : State) : Except Stop Unit :=
  waitUntil (!(s.cx.reqs.any fun q => (match q.kind with
    | .stv => true
    | .recl => true
    | _ => false) && q.fault.isNone))

/-- The running reaction is a re-run (R71, R369). -/
def State.isRerun (s : State) : Bool :=
  match s.cx.run with
  | some r => r.replay && r.restartable
  | none => false

/-- At an STV, RECL or HAND: the deferred fault of an earlier STV of the context (R268). -/
def State.versionSync (s : State) : Except Stop Unit :=
  match s.cx.reqs.find? fun q => q.kind == .stv && q.fault.isSome with
  | some q => match q.fault with
    | some t => .error (.deferred q t)
    | none => .ok ()
  | none => .ok ()

/-- What STV and RECL check at issue, in the order of R268: a page with V, the capability, the module's reach (R84). Once
earlier ones are acknowledged, they come after the HAND of the capability that they use (R104). -/
def versionEA (va : DWord) (s : State) : Except Stop (EA × State) := do
  let (e, s) ← s.globalEA va 8 .store
  checkIn s e.isV 0x08 va (fi08 .store)
  checkIn s (s.capHeld s.cur (regionOf va)) 0x0C va 0
  checkIn s (!s.paUnreachable e.pa) 0x1D va (s.fi1D e.pa)
  s.versionsDone
  return (e, s.syncWith s.cur s.curCtx (s.me.capSeen.get [] (regionOf va)))

/-- STV (R268): a release (R94). -/
def execStv (g : Guard) (d a b : Reg) (s : State) : Out :=
  instr g (fun s => do
    s.memGate
    s.syncPoint
    let va ← s.rdX a
    let x ← s.rdX d
    let v ← s.rdX b
    let (e, s) ← versionEA va s
    let q := s.newReq .stv va e.pa 8 0 x v
    return (s.snoop s.cur va e.pa 8).post { q with ha := s.isRerun }) s

/-- RECL (R269): the region is that of xA, so xA[15:0] is ignored. -/
def execRecl (g : Guard) (a b : Reg) (s : State) : Out :=
  instr g (fun s => do
    s.memGate
    s.versionSync
    let x ← s.rdX a
    let w ← s.rdX b
    let va := dw (x.toNat / 65536 * 65536)
    let (e, s) ← versionEA va s
    return s.post (s.newReq .recl va e.pa 8 0 0 w)) s

/-- A core's capability for a region leaves it: its table entry, or the default holding (R75). The launch it belongs to. -/
def State.giveCap (s : State) (c : CoreId) (region : Nat) : Nat × State :=
  match (s.core c).caps.find? fun p => p.1 == region with
  | some p => (p.2, s.modCore c fun k => { k with caps := k.caps.filter fun q => q != p })
  | none =>
    match s.launches.find? fun e => e.2.first == c.val && !e.2.given.contains region with
    | some (l, r) => (l, { s with launches := s.launches.put l { r with given := r.given ++ [region] } })
    | none => (0, s)

/-- HAND (R270): the message leaves once every earlier access is performed (R94). -/
def execHand (g : Guard) (a b : Reg) (s : State) : Out :=
  instr g (fun s => do
    s.memGate
    s.syncPoint
    let va ← s.rdX a
    let y ← s.rdX b
    let r := regionOf va
    check (s.capHeld s.cur r) 0x0C va
    check (s.isLocal y || decide (fld (descDev y) 13 0 = fld s.devCoord 13 0)) 0x1D va ((descDev y).setWidth 64)
    s.versionsDone
    s.settled
    let p := s.giveCap s.cur r
    return if s.isLocal y then
        { p.2 with capMsgs := p.2.capMsgs ++
          [{ region := r, lcnt := p.1, src := s.cur, dst := descCore y, refused := false, seen := s.cx.seen }] }
      else p.2.emit (descDev y) false none (.capability r s.cur.val (descCore y).val false) s.cx.seen) s

end Sys2Proof.Machine
end

