-- ==== Sys2Proof/Machine/Home.lean ====
section
/-! DEFINITION. What happens to requests beyond the core: replies (R253), grants (R92), atomics (R100, R266, R353, R354),
versions (R71 to R73), capabilities (R75, R297), the directory (R65, R66), walks (R81), prefetches (R212), the calendar
(R70), full/empty waiters (R60), waiting instructions (R286), trap records (R360). -/

namespace Sys2Proof.Machine

/-! ## Requests of a context -/

/-- A request of a context waits for the accesses of the trap context that has sent it again (R108, R320). -/
def State.heldBack (s : State) (c : CoreId) (h : CtxId) (q : Req) : Bool := q.again && !(s.core c).followed h

/-- A request of a context that may be performed. -/
def State.reqAt (s : State) (c : CoreId) (h : CtxId) (k : Nat) : Option Req :=
  (((s.core c).ctx h).reqs[k]?).filter fun q => !s.heldBack c h q

/-- Requests of the context before one, whose outcome is still open. -/
def State.openBefore (s : State) (c : CoreId) (h : CtxId) (k : Nat) : List Req :=
  (((s.core c).ctx h).reqs.take k).filter fun q => q.fault.isNone && q.reply.isNone

/-- Change a request, found by its number. -/
def State.modReq (s : State) (c : CoreId) (h : CtxId) (id : Nat) (f : Req → Req) : State :=
  s.modCtx c h fun x => { x with reqs := x.reqs.map fun q => if q.id = id then f q else q }

/-- An access that is performed precedes the vectors that its context has pushed to a link since (R179). -/
def Stream.tell (t : Stream) (h : CtxId) (id : Nat) (m : KMap Nat) : Stream :=
  match t.bound with
  | some (.link w _ _ _) =>
    if w = h then { t with seen := List.zipWith (fun u n => if id < u then joinSeen n m else n) t.upTo t.seen } else t
  | _ => t

/-- A context comes after an access of another, by its number (R108). -/
def Ctx.after (x : Ctx) (h : CtxId) (id : Nat) : Bool := x.behind.any fun b => b.1 == h && decide (id < b.2)

/-- What a performed access, of a number, says to the context's later releases: SENDs that wait to leave, requests, pushes to a link
(R94, R101, R179); and to the contexts that come after it (R108). -/
def State.tellAfter (s : State) (c : CoreId) (h : CtxId) (id : Nat) (n : KMap Nat) : State :=
  if n.isEmpty then s
  else s.modCore c fun k =>
    { k with
      sendQ := k.sendQ.map fun (e : SendEntry) => if e.ctx = h ∧ id < e.upTo then { e with seen := joinSeen e.seen n } else e
      streams := Vector.ofFn fun i => (k.streams.get i).tell h id n
      ctxs := Vector.ofFn fun j =>
        let x := k.ctx j
        let y := if x.after h id then { x with seen := joinSeen x.seen n } else x
        if j = h then { y with reqs := x.reqs.map fun r => if id < r.id then { r with seen := joinSeen r.seen n } else r } else y }

/-- What a performed request says: of an acquire, all that its context knows now; else what it knows of the request's place. -/
def State.tellLater (s : State) (c : CoreId) (h : CtxId) (q : Req) : State :=
  let m := ((s.core c).ctx h).seen
  s.tellAfter c h q.id (if q.gate then m else m.filter fun e => e.1 == q.pa / 8)

/-- The reply of a request has come: its register takes it later (R253). -/
def State.replied (s : State) (c : CoreId) (h : CtxId) (q : Req) (v : DWord) : State :=
  (s.tellLater c h q).modReq c h q.id fun r => { r with reply := some v }

/-- A request is answered: its destination receives the value and it is no longer outstanding (R253). -/
def State.answer (s : State) (c : CoreId) (h : CtxId) (q : Req) (v : DWord) : State :=
  (s.tellLater c h q).modCtx c h fun x =>
    let y := { x with reqs := x.reqs.filter fun r => r.id ≠ q.id }
    match q.dest with
    | some d => y.setX d v
    | none => y

/-- A fault is found beyond the core: it waits for the instruction that meets it (R253). -/
def State.deferFault (s : State) (c : CoreId) (h : CtxId) (q : Req) (cause : Byte) (finfo : DWord) : State :=
  s.modReq c h q.id fun r => { r with fault := some ⟨cause, q.va, finfo⟩ }

/-- A request overlaps another's bytes. -/
def Req.meets (q r : Req) : Bool := Machine.meets q.pa q.size r.pa r.size

/-- FINFO of cause 0x18 (R361). -/
def State.fi18 (s : State) (pa : Nat) (k : Access) : DWord := dw (s.lostCode pa + 256 * k.code)

/-! ## Replies of loads (R253, R258, R260, R261, R267) -/

/-- Bytes of a value that a pending store will write: the part that a load reads. -/
def Req.slice (st q : Req) : Nat := st.data.toNat / 2 ^ (8 * (q.pa - st.pa)) % 2 ^ (8 * q.size)

/-- What the pending accesses of the context say of a load's place (R90): nothing, a value to forward, or that it waits. -/
inductive Forward where
  | memory | value (v : Nat) | wait
deriving DecidableEq, Repr

/-- A load sees the context's own pending store where it covers the load; otherwise it waits for overlapping accesses. -/
def forward (earlier : List Req) (q : Req) : Forward :=
  let l := earlier.filter fun r => r.meets q
  match l.getLast? with
  | none => .memory
  | some r =>
    if l.any Req.isLoad then .wait
    else if r.kind = .store ∧ r.pa ≤ q.pa ∧ q.pa + q.size ≤ r.pa + r.size then .value (r.slice q)
    else .wait

/-- Accesses that precede a request in the context's order: every one of the same location, and what a FENCE.REL between them
covers (R90, R98). -/
def State.comesAfter (s : State) (c : CoreId) (h : CtxId) (k : Nat) (q : Req) : Bool :=
  (s.openBefore c h k).any fun r => r.meets q || decide (r.epoch < q.epoch)

/-- An earlier STV of the context to the word has not been applied: a versioned load waits for it. DESIGN CHOICE: also a load of a version
that exists (log 90). -/
def State.stvBefore (s : State) (c : CoreId) (h : CtxId) (k : Nat) (q : Req) : Bool :=
  (s.openBefore c h k).any fun r => r.kind == .stv && r.meets q

/-- The elements of a memory output that were pushed before a number and are not performed. -/
def Stream.pending (t : Stream) (d : StreamDesc) (num : Nat) : List Nat :=
  ((upto (min (t.passed * d.perVec) d.total - t.engine)).map (t.engine + ·)).filter fun j =>
    decide (t.upTo.getD (j / d.perVec - t.engine / d.perVec) 0 < num)

/-- An element that a context has pushed to an output stream before a number, and that is not performed, overlaps an access (R90,
R178). -/
def State.pushPending (s : State) (c : CoreId) (h : CtxId) (va : DWord) (pa n num : Nat) : Bool :=
  (List.finRange 8).any fun i =>
    let t := (s.core c).streams.get i
    match t.bound with
    | some (.memory x d) => decide (x = h) && d.output && decide (space d.base = 0) && t.fault.isNone &&
        (t.pending d num).any fun j => s.codeMeets c (d.addr j).toNat (2 ^ d.es) va pa n
    | _ => false

/-- An access of a context before a number, still to be performed, overlaps a place that an engine reaches for it (R90). -/
def State.ownOpen (s : State) (c : CoreId) (h : CtxId) (num : Nat) (va : DWord) (n : Nat) : Bool :=
  match (s.globalCheck c va 1 .load).1 with
  | .ok e =>
    (((s.core c).ctx h).reqs.any fun q => decide (q.id < num) && q.fault.isNone && q.reply.isNone && meets q.pa q.size e.pa n) ||
      s.pushPending c h va e.pa n num
  | .error _ => false

/-- A value that a load has read, and the write that it comes from where that is known (R96). -/
abbrev Got := Nat × Option (Nat × Write) × State

/-- The value of a plain load of global memory: a version, an unpredictable value, or what the coherence order allows. -/
def State.loadValue (s : State) (c : CoreId) (h : CtxId) (k : Nat) (q : Req) : Option Got :=
  if bit q.aux 0 then
    if s.stvBefore c h k q then none else some ((s.newest q.pa).toNat / 2 ^ (8 * (q.pa % 8)), none, s)
  else if bit q.aux 1 || s.objOpen q.pa q.va q.size then some ((s.draw 64).1.toNat, none, (s.draw 64).2)
  else match forward (s.openBefore c h k) q with
    | .wait => none
    | .value v => some (v, none, s)
    | .memory => if s.pushPending c h q.va q.pa q.size q.id then none else some (s.observe c h q.pa q.size)

/-- A line enters the constant cache of a landing, as it is now (R67). -/
def State.constFill (s : State) (landing line : Nat) : State :=
  { s with constC := s.constC.put landing (KMap.put (s.constC.get [] landing) line (s.past.length, s.mem.read line 128)) }

/-- An LDC reads what stood at its place after the first `t` writes: no load of the context returns an older value later, but an
LDC (R67, R90). -/
def State.constRead (s : State) (c : CoreId) (h : CtxId) (t : Nat) (q : Req) : State := s.hasRead c h q.pa (s.writeAt t q.pa q.size)

/-- The writes that were performed when the first event of a context's launch started; in context 13, of the launch of the context that
faulted. Set-up code comes before it (R67). -/
def Core.since (k : Core) (h : CtxId) : Nat :=
  let of (x : Ctx) : Nat := match x.run with
    | some r => r.since
    | none => 0
  if h = 13 then (if hc : k.trap.ctx < 14 then of (k.ctx ⟨k.trap.ctx, hc⟩) else 0) else of (k.ctx h)

/-- What stood at a place after the first `t` writes is not older than what stood there when the launch's first event started (R67). -/
def State.constFresh (s : State) (c : CoreId) (h : CtxId) (t : Nat) (q : Req) : Bool :=
  match s.writeAt ((s.core c).since h) q.pa q.size with
  | some (i, _) => decide (i ≤ t)
  | none => true

/-- The value of a load through the constant cache (R67): a line that no longer agrees with memory may still be there, or be
filled anew; a value older than the launch's first event is none that the load may return. An uncached page is read at the coherence
point, and renews the line where another page had it cached. -/
def State.constValue (s : State) (c : CoreId) (h : CtxId) (k : Nat) (q : Req) : Option (Nat × State) :=
  let l := landingOf c.val
  let line := lineOf q.pa
  let now := s.mem.readNat q.pa q.size
  let exact (s : State) : Nat × State := (now, (s.constFill l line).constRead c h s.past.length q)
  if (s.openBefore c h k).any fun r => r.meets q && r.isLoad then none
  else if s.objOpen q.pa q.va q.size then some ((s.draw 64).1.toNat, (s.draw 64).2)
  else match KMap.find (s.constC.get [] l) line with
    | none => some (if bit q.aux 2 then (now, s.constRead c h s.past.length q) else exact s)
    | some b =>
      let old := leNat ((b.2.drop (q.pa - line)).take q.size)
      if bit q.aux 2 || !s.constFresh c h b.1 q then some (exact s)
      else if old = now then some (now, s.constRead c h b.1 q)
      else if (s.draw 1).1 = 1 then some (old, (s.draw 1).2.constRead c h b.1 q) else some (exact (s.draw 1).2)

/-- A load waits: for its weight-store bank (R70), for a write that is held at its line, or for room for a notice (R65, R66). -/
def State.loadStops (s : State) (c : CoreId) (q : Req) : Bool :=
  s.bankAway q.pa || s.lineHeld q.pa || (bit q.aux 3 && !s.shareOpen c q.pa)

/-- A load that allocates in L1 becomes a sharer (R65, R79). -/
def State.loadShares (s : State) (c : CoreId) (q : Req) : State := if bit q.aux 3 then s.shareLine c q.pa else s

/-- A version is read: its STV synchronises with the reader (R104). -/
def State.readVersion (s : State) (c : CoreId) (h : CtxId) (q : Req) (p : Nat × DWord) : State :=
  (s.syncWith c h ((s.verAt q.pa).seen.get [] p.1)).answer c h q p.2

/-- What the packet of a request carries to another module: what precedes it, where it is a release there (R94, R97). -/
def Req.carried (q : Req) : KMap Nat := if q.scope = 5 ∨ q.scope = 6 then q.seen else []

/-- A load of another module's memory leaves as a packet, after the context's own accesses of its place (R84, R90). -/
def State.sendLoad (s : State) (c : CoreId) (h : CtxId) (q : Req) : State :=
  (s.emit (s.remoteDev q.pa) q.enc (some (c, h, q.id)) (.loadRequest q.id q.pa q.size (bit q.aux 0))).modReq c h q.id fun r =>
    { r with sent := true }

/-- A load of another module's memory: it leaves, or reads the context's own pending store. Its reply comes as a packet. -/
def State.farLoad (s : State) (c : CoreId) (h : CtxId) (k : Nat) (q : Req) (sg : Bool) : Option State :=
  if q.sent then none
  else match forward (s.openBefore c h k) q with
    | .memory => if s.pushPending c h q.va q.pa q.size q.id then none else some (s.sendLoad c h q)
    | .value v => some (s.answer c h q (extend q.size sg v))
    | .wait => none

/-- The reply of a load of this module's memory, if it can come now. -/
def State.nearReply (s : State) (c : CoreId) (h : CtxId) (k : Nat) (q : Req) : Option State :=
  if s.loadStops c q then none
  else if s.isLost q.pa then some (s.deferFault c h q 0x18 (s.fi18 q.pa .load))
  else match q.kind with
    | .load sg => (s.loadValue c h k q).map fun r => (r.2.2.loadShares c q).answer c h q (extend q.size sg r.1)
    | .ldc sg => (s.constValue c h k q).map fun r => r.2.answer c h q (extend q.size sg r.1)
    | .lda sg => (s.loadValue c h k q).map fun r =>
        ((r.2.2.loadShares c q).acquireFrom c h q.scope r.2.1).answer c h q (extend q.size sg r.1)
    | _ => none

/-- The reply of a versioned load (R71), from the home that keeps the word (log 12). -/
def State.versionReply (s : State) (c : CoreId) (h : CtxId) (k : Nat) (q : Req) : Option State :=
  if s.bankAway q.pa || s.stvBefore c h k q then none
  else if s.isLost q.pa then some (s.deferFault c h q 0x18 (s.fi18 q.pa .load))
  else match q.kind with
    | .ldv => match (s.verAt q.pa).vers.find? fun p => p.1 == q.aux.toNat with
      | some p => some (s.readVersion c h q p)
      | none => if q.aux.toNat < s.mark q.pa q.va then some (s.deferFault c h q 0x0B 0) else none
    | _ => match ((s.verAt q.pa).vers.filter fun p => decide (p.1 ≤ q.aux.toNat)).getLast? with
      | some p => some (s.readVersion c h q p)
      | none => some (s.answer c h q noVersion)

/-- The reply of a load, if it can come now. -/
def State.loadReply (s : State) (c : CoreId) (h : CtxId) (k : Nat) (q : Req) : Option State :=
  match q.kind with
  | .ldv => s.versionReply c h k q
  | .ldvn => s.versionReply c h k q
  | .load sg => if isRemote q.pa && !bit q.aux 0 then s.farLoad c h k q sg else s.nearReply c h k q
  | .ldc sg => if isRemote q.pa then s.farLoad c h k q sg else s.nearReply c h k q
  | .lda sg => if isRemote q.pa then s.farLoad c h k q sg else s.nearReply c h k q
  | _ => none

/-- SPLIT_PHASE_REPLY (R253): a reply that has come is written; a load's reply comes. -/
def State.tryReply (s : State) (c : CoreId) (h : CtxId) (k : Nat) : Option State :=
  match s.reqAt c h k with
  | none => none
  | some q =>
    if q.fault.isSome then none
    else match q.reply with
      | some v => some (s.answer c h q v)
      | none => s.loadReply c h k q

/-! ## Grants of stores (R92, R65, R98) -/

/-- A write may be performed, but for its line: after every overlapping access, an element pushed before it among them (R90), after every
access of an earlier epoch (R98), with its page in the reserve of a cut (R358). -/
def State.writeOpen (s : State) (c : CoreId) (h : CtxId) (k : Nat) (q : Req) : Bool :=
  !s.comesAfter c h k q && !s.pushPending c h q.va q.pa q.size q.id && s.cowRoom q.pa && !s.bankAway q.pa

/-- A write at an overflowed line is held at the home, whose routine is woken (R65, R66). -/
def State.heldOr (s : State) (pa : Nat) (perform : Option State) : Option State :=
  if s.overflowed pa then (if s.lineHeld pa then none else some (s.holdLine pa)) else perform

/-- The directory after a granted write (R64, R65). -/
def State.granted (s : State) (c : CoreId) (q : Req) : State := if bit q.aux 3 then s.ownLine c q.pa else s.unshare q.pa

/-- A store is performed: it becomes visible to every agent (R92), a release if it is one. -/
def State.performStore (s : State) (c : CoreId) (h : CtxId) (q : Req) : State :=
  let s1 := (s.memWrite (.request c h q) q.pa (leBytes q.size q.data.toNat)).granted c q
  (s1.sawNow c h q.pa).answer c h q 0

/-- A store for another module leaves as a packet; it is performed when that is acknowledged (R84, R382). -/
def State.sendStore (s : State) (c : CoreId) (h : CtxId) (q : Req) : State :=
  (s.emit (s.remoteDev q.pa) q.enc (some (c, h, q.id)) (.store q.pa (leBytes q.size q.data.toNat)) q.carried).modReq c h q.id
    fun r => { r with sent := true }

/-- STORE_GRANT (R92): a store for another module leaves; another becomes visible, or is held at its line. -/
def State.tryGrant (s : State) (c : CoreId) (h : CtxId) (k : Nat) : Option State :=
  match s.reqAt c h k with
  | none => none
  | some q =>
    if q.kind ≠ .store ∨ q.fault.isSome ∨ !s.writeOpen c h k q then none
    else if isRemote q.pa then (if q.sent then none else some (s.sendStore c h q))
    else s.heldOr q.pa (some (s.performStore c h q))

/-! ## Host queues (R352) -/

/-- Entries of a host queue's ring. -/
def HostQ.size (q : HostQ) : Nat := 2 ^ (fld q.cfg 3 0 + 4)

/-- A host queue grants a credit: it is enabled and its ring has room (R352). -/
def HostQ.credit (q : HostQ) : Bool := bit q.cfg 15 && decide ((q.tail - q.head).toNat < q.size)

/-- Write an entry of eight words: the message, the tail shadow, the vector (R352). DESIGN CHOICE: TAIL, and its shadow with it, has 32 bits
(log 93). -/
def State.hostPush (s : State) (i : Fin 17) (ws : List DWord) : State :=
  let q := s.hostQ.get i
  let base := q.base.toNat
  let s1 := s.memWrite .module (hostPa (base + 64 * (q.tail.toNat % q.size))) ((ws.map fun w => leBytes 8 w.toNat).flatten)
  let s2 := s1.memWrite .module (hostPa (base + 64 * q.size)) (leBytes 8 (q.tail + 1).toNat)
  { s2 with hostQ := vput s2.hostQ i { q with tail := q.tail + 1 }, msix := fld q.cfg 14 4 :: s2.msix }

/-! ## Atomics (R100, R263 to R266, R353, R354) -/

/-- What an atomic leaves in the location: operations numbered as R354 numbers them. -/
def atomicNew (op : Nat) (old x expected : DWord) : DWord :=
  match op with
  | 0 | 9 => old + x
  | 1 | 10 => old &&& x
  | 2 | 11 => old ||| x
  | 3 | 12 => old ^^^ x
  | 4 | 13 => pickBy BitVec.slt old x
  | 5 | 14 => pickBy (fun a b => b.slt a) old x
  | 6 => pickBy BitVec.ult old x
  | 7 => x
  | _ => if old = expected then x else old

/-- A free request id of the fallback queue (R354). -/
def State.fallbackId (s : State) : Option Nat := (upto 256).find? fun i => (s.fallback.find i).isNone

/-- A fallback entry is written, and the request keeps its id (R354). -/
def State.toQueue (s : State) (c : CoreId) (h : CtxId) (q : Req) (op : Nat) (unsupported : Bool) : Option State :=
  match s.fallbackId with
  | none => none
  | some i =>
    if !(s.hostQ.get 16).credit then none
    else
      let s1 := s.hostPush 16 [dw i, dw (op + 16 * b2n unsupported), dw (q.pa % 2 ^ 50), q.data,
                               if op = 8 then q.aux else 0, s.originOf c h.val, 0, 0]
      some ({ s1 with fallback := s1.fallback.put i (c, h, q.id) }.modReq c h q.id fun r =>
        { r with fb := some (BitVec.ofNat 8 i) })

/-- An atomic is performed as one read-modify-write: a reader of what it leaves observes every release before it at the place
(R96, R100). -/
def State.performAtomic (s : State) (c : CoreId) (h : CtxId) (q : Req) (op : Nat) (old : DWord) : State :=
  let w := Writer.request c h q
  let s1 := s.hasRead c h q.pa (s.writeAt s.past.length q.pa 8)
  let s2 := s1.memWrite { w with rels := w.rels ++ relsOf q.pa 8 s.past } q.pa (leBytes 8 (atomicNew op old q.data q.aux).toNat)
  (s2.unshare q.pa).sawNow c h q.pa

/-- An atomic for another module leaves as a packet (R266, R383). -/
def State.sendAtomic (s : State) (c : CoreId) (h : CtxId) (q : Req) (op : Nat) : State :=
  (s.emit (s.remoteDev q.pa) q.enc (some (c, h, q.id))
    (.atomic c.val q.id op q.pa q.data (if op = 8 then q.aux else 0)) q.carried).modReq c h q.id fun r => { r with sent := true }

/-- ATOMIC_AT_HOME (R100): performed at its home or at the host, sent to its home on another module, or handed to the fallback
queue. -/
def State.tryAtomic (s : State) (c : CoreId) (h : CtxId) (k : Nat) : Option State :=
  match s.reqAt c h k with
  | none => none
  | some q =>
    match q.kind with
    | .atomic op =>
      if q.fault.isSome || q.fb.isSome || q.reply.isSome || !s.writeOpen c h k q then none
      else if isRemote q.pa then (if q.sent then none else some (s.sendAtomic c h q op))
      else if q.obj || q.queue then
        (if q.ha then s.toQueue c h q op q.obj else some (s.deferFault c h q 0x17 0))
      else if s.isLost q.pa then some (s.deferFault c h q 0x18 (s.fi18 q.pa .store))
      else s.heldOr q.pa (some ((s.performAtomic c h q op (s.mem.read64 q.pa)).answer c h q (s.mem.read64 q.pa)))
    | _ => none

/-- A page enters the host-page table of a die; a full table replaces its oldest entry (R353). -/
def State.hostPageAdd (s : State) (c : CoreId) (pa : Nat) : State :=
  let l := s.hostPages.get (dieIx c.val)
  let p := pa / 4096
  let l2 := if l.contains p then l else if l.length < 64 then l ++ [p] else l.tail ++ [p]
  { s with hostPages := vput s.hostPages (dieIx c.val) l2 }

/-- ATOMICOP_UNSUPPORTED (R353): the page enters the table; the request falls back, waiting for a credit where it must, or its
fault is deferred. -/
def State.tryUnsupported (s : State) (c : CoreId) (h : CtxId) (k : Nat) : Option State :=
  match s.reqAt c h k with
  | none => none
  | some q =>
    match q.kind with
    | .atomic op =>
      if q.fault.isSome || q.fb.isSome || q.reply.isSome || q.obj || !inHost q.pa || q.queue ||
          !s.writeOpen c h k q then none
      else
        let s1 := (s.hostPageAdd c q.pa).modReq c h q.id fun r => { r with obj := true }
        some (if q.ha then (s1.toQueue c h q op true).getD s1 else s1.deferFault c h q 0x17 0)
    | _ => none

/-! ## Versions (R71 to R73) -/

/-- Insert a version, keeping version numbers rising. -/
def addVersion (v : Nat) (x : DWord) : List (Nat × DWord) → List (Nat × DWord)
  | [] => [(v, x)]
  | (w, y) :: r => if v < w then (v, x) :: (w, y) :: r else (w, y) :: addVersion v x r

/-- The home slice of a word has room for a version beyond the newest (R73). -/
def State.homeStoreFree (s : State) (pa : Nat) : Bool :=
  decide (((s.vers.filter fun e => homeLanding e.1 == homeLanding pa).map fun e => e.2.vers.length - 1).foldl (· + ·) 0
    < 65536)

/-- STV_APPLY (R71): once every earlier access of the context is performed (R94), and the word has room. -/
def State.tryStv (s : State) (c : CoreId) (h : CtxId) (k : Nat) : Option State :=
  match s.reqAt c h k with
  | none => none
  | some q =>
    if q.kind ≠ .stv ∨ q.fault.isSome ∨ !(s.openBefore c h k).isEmpty ∨ !s.pushesDone c h ∨ s.bankAway q.pa then none
    else
      let w := s.verAt q.pa
      match w.vers.find? fun p => p.1 == q.aux.toNat with
      | some p => if p.2 = q.data ∧ q.ha then some (s.answer c h q 0) else some (s.deferFault c h q 0x0A 0)
      | none =>
        if q.aux.toNat < s.mark q.pa q.va then some (s.deferFault c h q 0x0B 0)
        else if 4 ≤ w.vers.length ∨ !s.homeStoreFree q.pa then none
        else
          let w2 : VerWord := { vers := addVersion q.aux.toNat q.data w.vers, lcnt := s.workOf c h
                                seen := w.seen.put q.aux.toNat q.seen }
          some ({ s with vers := s.vers.put (q.pa / 8 * 8) w2 }.answer c h q 0)

/-- The versions that a watermark leaves: those at or above it, and the greatest below it (R72). -/
def retireBelow (m : Nat) (vs : List (Nat × DWord)) : List (Nat × DWord) :=
  let low := vs.filter fun p => decide (p.1 < m)
  (match low.getLast? with
    | some p => [p]
    | none => []) ++ vs.filter fun p => decide (m ≤ p.1)

/-- RECL_APPLY (R72). -/
def State.tryRecl (s : State) (c : CoreId) (h : CtxId) (k : Nat) : Option State :=
  match s.reqAt c h k with
  | none => none
  | some q =>
    if q.kind ≠ .recl ∨ q.fault.isSome then none
    else if q.aux.toNat ≤ s.mark q.pa q.va then some (s.answer c h q 0)
    else
      some ({ s with
        marks := s.marks.put (markKey q.pa q.va) (q.aux.toNat, s.workOf c h)
        vers := s.vers.map fun (a, (w : VerWord)) =>
          if pageOf a = pageOf q.pa then (a, { w with vers := retireBelow q.aux.toNat w.vers }) else (a, w) }.answer c h q 0)

/-! ## Capabilities (R75, R270, R297) -/

/-- A core receives a capability: a table entry, if one is free. What the core does under it comes after the HAND (R104). -/
def Core.gainCap (k : Core) (region lcnt : Nat) (seen : KMap Nat) : Option Core :=
  if k.caps.length < 64 then some { k with caps := k.caps ++ [(region, lcnt)], capSeen := k.capSeen.put region seen } else none

/-- CAPABILITY_ARRIVAL (R75, R270): gained, or refused and sent back; what cannot come back goes to the default holding.
Messages between one pair of cores arrive in order. -/
def State.tryCap (s : State) (k : Nat) : Option State :=
  match s.capMsgs[k]? with
  | none => none
  | some m =>
    if (s.capMsgs.take k).any fun n => n.src == m.src && n.dst == m.dst then none
    else
      let s1 := { s with capMsgs := listDrop s.capMsgs k }
      match (s1.core m.dst).gainCap m.region m.lcnt m.seen with
      | some q => some (s1.setCore m.dst q)
      | none =>
        if m.refused then
          match s1.launches.find m.lcnt with
          | some l => some { s1 with launches := s1.launches.put m.lcnt { l with given := l.given.filter (· ≠ m.region) } }
          | none => some s1
        else some { s1 with capMsgs := s1.capMsgs ++ [{ m with src := m.dst, dst := m.src, refused := true }] }

/-- CAPQ_ANSWER (R297): the queried core answers; a core of another module answers from outside. -/
def State.tryCapq (s : State) (c : CoreId) (h : CtxId) (k : Nat) : Option State :=
  match s.reqAt c h k with
  | none => none
  | some q =>
    if q.kind ≠ .capq ∨ q.fault.isSome then none
    else if s.isLocal q.data then some (s.answer c h q (dw (b2n (s.capHeld (descCore q.data) (regionOf q.va)))))
    else some ((s.draw 1).2.answer c h q ((s.draw 1).1.setWidth 64))

/-! ## The happenings -/

/-- A happening that can come about changes the state; one that cannot changes nothing. -/
def happen (s : State) (r : Option State) : Out := .next (r.getD s)

/-- SPLIT_PHASE_REPLY. -/
def execSplitPhaseReply (c : CoreId) (h : CtxId) (k : Nat) (s : State) : Out := happen s (s.tryReply c h k)

/-- STORE_GRANT. -/
def execStoreGrant (c : CoreId) (h : CtxId) (k : Nat) (s : State) : Out := happen s (s.tryGrant c h k)

/-- ATOMIC_AT_HOME. -/
def execAtomicAtHome (c : CoreId) (h : CtxId) (k : Nat) (s : State) : Out := happen s (s.tryAtomic c h k)

/-- ATOMICOP_UNSUPPORTED. -/
def execAtomicopUnsupported (c : CoreId) (h : CtxId) (k : Nat) (s : State) : Out := happen s (s.tryUnsupported c h k)

/-- STV_APPLY. -/
def execStvApply (c : CoreId) (h : CtxId) (k : Nat) (s : State) : Out := happen s (s.tryStv c h k)

/-- RECL_APPLY. -/
def execReclApply (c : CoreId) (h : CtxId) (k : Nat) (s : State) : Out := happen s (s.tryRecl c h k)

/-- CAPABILITY_ARRIVAL. -/
def execCapabilityArrival (k : Nat) (s : State) : Out := happen s (s.tryCap k)

/-- CAPQ_ANSWER. -/
def execCapqAnswer (c : CoreId) (h : CtxId) (k : Nat) (s : State) : Out := happen s (s.tryCapq c h k)

/-- DIRECTORY_OVERFLOW_NOTICE (R65): a core reads a line whose four pointers name other cores. -/
def execDirectoryOverflowNotice (line : Nat) (c : CoreId) (s : State) : Out :=
  happen s (if inHbm line && !s.isSharer c line && !s.pointerFree line && s.shareOpen c line && !s.lineHeld line then
    some (s.overflowLine (lineOf line) c) else none)

/-- TLB_WALK_COMPLETE (R81, R82): a walk fills the landing's and the core's TLB, or caches nothing. -/
def execTlbWalkComplete (c : CoreId) (va : DWord) (s : State) : Out :=
  happen s (if fld va 63 56 ≠ 0 then none
    else match s.walk c va.toNat with
      | .ok e => some (s.tlbFill c e)
      | .error _ => none)

/-- A prefetch waits for a write of the core's own that meets the lines it reads, and for their weight-store bank (R214, R70). -/
def State.prefetchWaits (s : State) (c : CoreId) (b : BReg) : Bool :=
  ctxIds.any fun h => ((s.core c).ctx h).reqs.any fun q =>
    (match q.kind with
      | .store => true
      | .atomic _ => true
      | .stv => true
      | _ => false) && q.fault.isNone && s.linesHit c b q.va q.pa q.size

/-- PREFETCH_COMPLETE (R212). -/
def State.tryPrefetch (s : State) (c : CoreId) (h : CtxId) (n : Fin 8) : Option State :=
  let b := ((s.core c).ctx h).b.get n
  if b.busy && !s.prefetchWaits c b && !s.codeAway c (b.tgt.setWidth 64) &&
      !s.codeAway c (b.tgt.setWidth 64 + 14) then some (s.finishPrefetch c h n)
  else none

/-- PREFETCH_COMPLETE. -/
def execPrefetchComplete (c : CoreId) (h : CtxId) (n : Fin 8) (s : State) : Out := happen s (s.tryPrefetch c h n)

/-- WS_REFRESH_WINDOW (R70): the bank that is away follows the calendar. -/
def execWsRefreshWindow (s : State) : Out := .next s.wsRefresh

/-- The context issues before anything else happens. -/
def State.runNext (s : State) (c : CoreId) (h : CtxId) : State := { s with agenda := ⟨0, .waiter c h⟩ :: s.agenda }

/-- A halfword that a context fetches next lies in a line that waits (R214). -/
def State.lineWaits (s : State) (c : CoreId) (h : CtxId) (va : DWord) : Bool :=
  (((s.core c).ctx h).queued va).isNone && s.fetchStalls c va

/-- The next instruction of a context cannot be fetched yet. -/
def State.fetchWaits (s : State) (c : CoreId) (h : CtxId) : Bool :=
  let pc := ((s.core c).ctx h).pc
  s.lineWaits c h pc || (match s.nextHalf c h pc with
    | (.ok a, _) => isLong a && s.lineWaits c h (pc + 2)
    | (.error _, _) => false)

/-- A waiting context can run its instruction again. -/
def State.canRetry (s : State) (c : CoreId) (h : CtxId) : Bool :=
  let x := (s.core c).ctx h
  x.live && x.stop == .waiting && !s.stopped && !(s.core c).halted && !s.fetchWaits c h

/-- The first waiter of a core whose words are as it waits for (R60). -/
def State.served (s : State) (c : CoreId) : Option FeWaiter :=
  (s.core c).feWait.find? fun w => (s.core c).allFe w.addr w.full w.n && s.canRetry c w.ctx

/-- FE_WAITER_SERVICE (R60): the oldest satisfied waiter completes its instruction before anything else happens. -/
def State.tryServe (s : State) (c : CoreId) : Option State := (s.served c).map fun w => s.runNext c w.ctx

/-- The turn of a waiting context has come: one that waits on full/empty bits runs its instruction again only as the waiter that is
served, and waits there no more (R60, R286). -/
def State.takeService (s : State) (c : CoreId) (h : CtxId) : Option State :=
  if !s.canRetry c h then none
  else if (s.core c).feWait.any fun w => w.ctx == h then
    (if (s.served c).any fun w => w.ctx == h then
      some (s.modCore c fun k => { k with feWait := k.feWait.filter fun w => w.ctx != h }) else none)
  else some s

/-- FE_WAITER_SERVICE. -/
def execFeWaiterService (c : CoreId) (s : State) : Out := happen s (s.tryServe c)

/-- WAIT_SATISFIED (R286): a waiting instruction is tried again, and completes when its condition holds. -/
def State.tryWait (s : State) (c : CoreId) (h : CtxId) : Option State :=
  let k := s.core c
  if (k.ctx h).live && decide ((k.ctx h).stop = .waiting) && !(k.feWait.any fun w => w.ctx == h) then some (s.runNext c h)
  else none

/-- WAIT_SATISFIED. -/
def execWaitSatisfied (c : CoreId) (h : CtxId) (s : State) : Out := happen s (s.tryWait c h)

/-- TRAP_ENTRY (R360): the oldest record that waits is taken once context 13 is free. -/
def execTrapEntry (c : CoreId) (s : State) : Out := .next (s.modCore c Core.serveRec)

/-- HEARTBEAT_MISSED (R46). -/
def execHeartbeatMissed (c : CoreId) (h : CtxId) (s : State) : Out := happen s (s.tryMiss c h)

/-- TRAP_BUDGET_EXPIRED (R364). -/
def execTrapBudgetExpired (c : CoreId) (s : State) : Out := happen s (s.tryMiss c 13)

/-- REACTION_START (R28). -/
def execReactionStart (c : CoreId) (s : State) : Out := happen s (s.tryStart c)

/-- JOIN_GRACE_EXPIRED (R31). -/
def execJoinGraceExpired (c : CoreId) (s : State) : Out := happen s (s.tryGrace c)

/-- POOL_UNIT_START (R41). -/
def execPoolUnitStart (c : CoreId) (s : State) : Out := happen s (s.tryUnit c)

/-- HEAD_STALE_DISCARD (R37). -/
def execHeadStaleDiscard (c : CoreId) (s : State) : Out := happen s (s.tryStale c)

/-- CANCELLED_EVENT_DISCARD (R45). -/
def execCancelledEventDiscard (c : CoreId) (s : State) : Out := happen s (s.tryCancelled c)

/-- SLOT_CHANGE_EFFECT (R25). -/
def execSlotChangeEffect (c : CoreId) (slot : Fin 64) (s : State) : Out := happen s (s.trySlot c slot)

/-! ## Arrivals and departures of events (R22, R26, R270, R288, R390) -/

/-- EVENT_ARRIVAL (R26): an event on its way reaches the landing router. Events between one pair of cores keep their order,
and none passes a capability message of its pair (R270). The window's credit of a host event returns (R344). -/
def State.tryArrival (s : State) (k : Nat) : Option State :=
  match s.flight[k]? with
  | none => none
  | some f =>
    let src := mkCore (fld f.ev.origin 42 30)
    let host := f.ev.fromHost s.devCoord
    if (s.flight.take k).any fun g => g.dest == f.dest && decide (fld g.ev.origin 63 30 = fld f.ev.origin 63 30) &&
        g.ev.fromHost s.devCoord == host then none
    else if decide (fld f.ev.origin 63 44 = s.devCoord.toNat) && !host &&
        s.capMsgs.any fun m => m.src == src && m.dst == f.dest then none
    else
      let s1 := { s with flight := listDrop s.flight k, winCred := if host then s.winCred + 1 else s.winCred }
      some (s1.arrive f.dest f.ev f.cls f.pool f.seen)

/-- EVENT_ARRIVAL. -/
def execEventArrival (k : Nat) (s : State) : Out := happen s (s.tryArrival k)

/-- An arrival can enter now: of a ring's record, only the inbox needs room (R390, R369). -/
def State.mayEnter (s : State) (c : CoreId) (a : Arrival) : Bool :=
  if a.replay.isSome then s.inboxRoom c a.ev else s.canEnter c a.ev

/-- HOLD_BACK_ENTRY (R390): the oldest arrival held back enters, after the crossbar's waiting local events (R51). -/
def State.tryEntry (s : State) (c : CoreId) : Option State :=
  let k := s.core c
  match k.held with
  | [] => none
  | a :: r =>
    if s.mayEnter c a && k.noFiring then
      some ((s.modCore c fun k => { k with held := r }).enter c a)
    else none

/-- HOLD_BACK_ENTRY. -/
def execHoldBackEntry (c : CoreId) (s : State) : Out := happen s (s.tryEntry c)

/-- An event of the core waits before a core whose spill heap is full: the send queue stalls (R40). -/
def State.sendStalled (s : State) (c : CoreId) : Bool :=
  s.cores.any fun e => s.heapFull (mkCore e.1) && e.2.held.any fun a =>
    decide (fld a.ev.origin 63 44 = s.devCoord.toNat) && decide (fld a.ev.origin 42 30 = c.val) && !a.ev.fromHost s.devCoord

/-- An event may leave: every access that precedes its SEND is performed (R288, R94). -/
def State.mayLeave (s : State) (c : CoreId) (e : SendEntry) : Bool :=
  (((s.core c).ctx e.ctx).reqs.all fun q => decide (e.upTo ≤ q.id) || q.fault.isSome || q.reply.isSome) &&
    s.pushesDone c e.ctx && !s.behindCap c e.ev.dest && !s.sendStalled c

/-- SEND_DEPARTURE (R22): the oldest event of the send queue leaves with its timestamp, and flagged if it is late. -/
def State.tryDepart (s : State) (c : CoreId) : Option State :=
  match (s.core c).sendQ with
  | [] => none
  | e :: r =>
    if s.mayLeave c e then
      let late := decide (e.ev.tag.t.toNat < s.clock c)
      let v := { e.ev with sendTs := s.jobTime, sendLate := e.ev.sendLate || late }
      let s1 := s.modCore c fun k =>
        let k1 := { k with sendQ := r }
        if late then { k1 with iflags := k1.iflags ||| 2 }.perf 0x15 1 else k1
      some (s1.launchEvent c v e.seen)
    else none

/-- SEND_DEPARTURE. -/
def execSendDeparture (c : CoreId) (s : State) : Out := happen s (s.tryDepart c)

end Sys2Proof.Machine
end

