-- ==== Sys2Proof/Machine/Streams.lean ====
section
/-! DEFINITION. Layout registers (R169, R170), streams (R175 to R179) and their instructions (R308). -/

namespace Sys2Proof.Machine

/-! ## Loads that their instruction waits for -/

/-- Bytes of global memory, within an aligned doubleword and `off` behind an address, for an instruction that waits for them, under policy
0: after the context's own overlapping accesses. -/
def State.readPart (s : State) (e : EA) (off n : Nat) : Except Stop (Nat × State) := do
  let pa := e.pa + off
  let shares := allocates .normal (pteKind e.page.leaf)
  waitUntil (!(s.cx.reqs.any fun q => meets q.pa q.size pa n && q.fault.isNone) && !s.bankAway pa && !s.lineHeld pa &&
    (!shares || s.shareOpen s.cur pa) && !s.pushPending s.cur s.curCtx (e.va + dw off) pa n s.reqCtr)
  checkIn s (!s.paUnreachable pa) 0x1D e.va (s.fi1D pa)
  checkIn s (!s.isLost pa) 0x18 e.va (s.fi18 pa .load)
  if e.isV then return ((s.newest pa).toNat / 2 ^ (8 * (pa % 8)), s)
  else if e.isObj || s.objOpen pa (e.va + dw off) n then return ((s.draw 64).1.toNat, (s.draw 64).2)
  else
    let r := s.observe s.cur s.curCtx pa n
    return (r.1, if shares then r.2.2.shareLine s.cur pa else r.2.2)

/-- A doubleword of global memory for an instruction that waits for it. -/
def State.readWait (s : State) (e : EA) (i : Nat) : Except Stop (DWord × State) := do
  let (v, s) ← s.readPart e (8 * i) 8
  return (dw v, s)

/-- `n` doublewords from an address on. -/
def State.readWaits (s : State) (e : EA) : Nat → Nat → Except Stop (List DWord × State)
  | _, 0 => .ok ([], s)
  | i, n + 1 => do
    let (v, s1) ← s.readWait e i
    let (r, s2) ← s1.readWaits e (i + 1) n
    return (v :: r, s2)

/-! ## Layout registers (R169, R170) -/

/-- The record of eight doublewords, if it does not break R169. -/
def layoutOf (ws : List DWord) : Option LayoutRec :=
  let w0 := ws.getD 0 0
  let rank := fld w0 2 0
  let esz := fld w0 9 8
  let tr := fld w0 19 16
  let tc := fld w0 23 20
  let ord (d : Nat) : Nat := fld w0 (25 + 2 * d) (24 + 2 * d)
  let order := (upto rank).map ord
  let strides := (upto 4).map fun i => (ws.getD (1 + i) 0).toInt
  let ok := decide (1 ≤ rank ∧ rank ≤ 4) && decide (fld w0 7 3 = 0) && decide (fld w0 15 10 = 0) && decide (tr ≤ 8 ∧ tc ≤ 8) &&
    decide (fld w0 63 33 = 0) && (upto rank).all (fun d => order.contains d) &&
    (upto 4).all (fun d => decide (d < rank) || decide (ord d = 0)) &&
    strides.all (fun v => decide (v % 2 ^ esz = 0)) && (decide (tr = 0 ∧ tc = 0) || decide (2 ≤ rank)) &&
    decide (ws.getD 6 0 = 0) && decide (ws.getD 7 0 = 0)
  if ok then
    some { rank := rank, esz := esz, tr := tr, tc := tc, order := order, padv := bit w0 32, stride := strides,
           pad := ws.getD 5 0 }
  else none

/-- Change a layout register of the issuing core. -/
def State.modLayout (s : State) (y : Fin 4) (f : LayoutReg → LayoutReg) : State :=
  s.modMe fun k => { k with layouts := vmod k.layouts y f }

/-- YLD (R308, R170). -/
def execYld (g : Guard) (d : Fin 4) (a : Reg) (s : State) : Out :=
  instr g (fun s => do
    let x ← s.rdX a
    s.memGate
    let (e, s) ← s.globalEA x 64 .load
    let (ws, s) ← s.readWaits e 0 8
    match layoutOf ws with
    | some r => return s.modLayout d fun y => { y with record := some r, ext := Vector.replicate 4 0 }
    | none => .error (.trapIn ⟨0x02, 0, 0⟩ s)) s

/-- YBASE. -/
def execYbase (g : Guard) (d : Fin 4) (a : Reg) (s : State) : Out :=
  instr g (fun s => do
    let x ← s.rdX a
    return s.modLayout d fun y => { y with base := x }) s

/-- YEXT. -/
def execYext (g : Guard) (d : Fin 4) (a : Reg) (n : Fin 4) (s : State) : Out :=
  instr g (fun s => do
    let x ← s.rdX a
    return s.modLayout d fun y => { y with ext := vput y.ext n (x.setWidth 32) }) s

/-- What YRD reads. -/
def LayoutReg.read (y : LayoutReg) (n : Fin 5) : DWord :=
  if y.record.isNone then 0
  else if h : n.val < 4 then (y.ext.get ⟨n.val, h⟩).setWidth 64
  else y.base

/-- YRD. -/
def execYrd (g : Guard) (d : Reg) (a : Fin 4) (n : Fin 5) (s : State) : Out :=
  instr g (fun s => s.wrX d ((s.me.layouts.get a).read n)) s

/-! ## Streams as data (R175 to R179) -/

/-- A stream that is not bound. -/
def Stream.unbound : Stream :=
  { bound := none, buf := [], upTo := [], seen := [], reads := [], wrote := [], boundAt := 0, engine := 0, passed := 0, ovr := false,
    fault := none, ended := false }

/-- Vectors of an input that the engine has read whole and the program has not popped. -/
def Stream.ready (t : Stream) (d : StreamDesc) : Nat :=
  (if t.engine = d.total then d.vectors else t.engine / d.perVec) - t.passed

/-- How full the buffer of a stream is, in vectors. -/
def Stream.level (t : Stream) : Nat :=
  match t.bound with
  | some (.memory _ d) => if d.output then t.buf.length else t.ready d
  | _ => t.buf.length

/-- A stream names itself for a context: whether it may pop, whether it may push (R176, R179). DESIGN CHOICE: a register names a
memory stream only in the context that bound it (log 72). -/
def Stream.names (t : Stream) (h : CtxId) : Option (Bool × Bool) :=
  match t.bound with
  | none => none
  | some (.memory x d) => if x = h then some (!d.output, d.output) else none
  | some (.link w r wb rb) =>
    let pop := rb && r == h
    let push := wb && w == h
    if pop || push then some (pop, push) else none

/-- The stream that a vector register names for the issuing context. -/
def State.streamNamed (s : State) (r : Reg) : Option (Fin 8) :=
  if h : 24 ≤ r.val then
    let i : Fin 8 := ⟨r.val - 24, by omega⟩
    if ((s.me.streams.get i).names s.curCtx).isSome then some i else none
  else none

/-- The conditions of sources 9 to 14 that a change of a stream's level meets (R49, R311). -/
def Crossbar.streamEdges (x : Crossbar) (st : Fin 8) (before after : Nat) : BitVec 16 :=
  BitVec.ofNat 16 (((List.finRange 6).map fun i =>
    let e := x.estr.get i
    let hit := if bit e 3 then decide (before < 8) && decide (8 ≤ after) else decide (0 < before) && decide (after = 0)
    if bit e 4 && decide (fld e 2 0 = st.val) && hit then 2 ^ (9 + i.val) else 0).foldl (· + ·) 0)

/-- Change a stream of a core; an edge that a source is set to pulses, after what the stream has written (R101, R107). -/
def State.modStream (s : State) (c : CoreId) (st : Fin 8) (f : Stream → Stream) : State :=
  let t := (s.core c).streams.get st
  let m := (s.core c).xbar.streamEdges st t.level (f t).level
  let s1 := s.modCore c fun k => { k with streams := vput k.streams st (f t) }
  if m = 0 then s1 else s1.pulse c m (f t).wrote

/-! ## The stream engine (R178) -/

/-- Read an element of a memory stream: pieces of at most 8 bytes. DESIGN CHOICE: the reads of an FE stream acquire nothing (log 89). -/
def State.streamRead (s : State) (c : CoreId) (st : Fin 8) (d : StreamDesc) (a : DWord) (i : Nat) : Nat → Except EngStop EngGot
  | 0 => .ok (0, [], s)
  | f + 1 => do
    let n := min 8 (2 ^ d.es - 8 * i)
    let at_ := a + dw (8 * i)
    let (v, p, s1) ← (if space d.base = 0 then s.engRead c (streamUnit st) at_ n else do
      let v ← s.engSpad c at_ n
      if d.fe && !(s.core c).isFull at_.toNat then .error .wait
      return (v, [], s))
    let (r, q, s2) ← s1.streamRead c st d a (i + 1) f
    return (v + r * 2 ^ (8 * n), p ++ q, s2)

/-- The writer of what a context has pushed: a release, if a FENCE.REL came before the push (R53, R98). -/
def State.pushWriter (s : State) (c : CoreId) (h : CtxId) (t : Stream) : Writer :=
  let m := t.seen.headD []
  let scope := ((s.core c).ctx h).relS
  if m.isEmpty then .context c h else ⟨some c, h.val, scope, [⟨some c, scope, m⟩]⟩

/-- Write an element of a memory stream, and the numbers of the writes of global memory. DESIGN CHOICE: the writes of an FE stream are
no release (log 89). -/
def State.streamWrite (s : State) (c : CoreId) (st : Fin 8) (w : Writer) (d : StreamDesc) (a : DWord) (v i : Nat) :
    Nat → Except EngStop (KMap Nat × State)
  | 0 => .ok ([], s)
  | f + 1 => do
    let n := min 8 (2 ^ d.es - 8 * i)
    let at_ := a + dw (8 * i)
    let x := v / 2 ^ (64 * i) % 2 ^ (8 * n)
    let (m, s1) ← (if space d.base = 0 then s.engWrite c (streamUnit st) w at_ n x else
      (s.engSpadPut c at_ n x d.fe []).map fun s1 => ([], s1))
    let (r, s2) ← s1.streamWrite c st w d a v (i + 1) f
    return (joinSeen m r, s2)

/-- Pieces of an element. -/
def StreamDesc.pieces (d : StreamDesc) : Nat := (2 ^ d.es + 7) / 8

/-- An element waits for the accesses of its context before it that it overlaps and that are not performed: before SBIND for an input,
before its push for an output (R90, R178). -/
def State.elementWaits (s : State) (c : CoreId) (h : CtxId) (t : Stream) (d : StreamDesc) (a : DWord) : Bool :=
  decide (space d.base = 0) && (upto d.pieces).any fun i =>
    s.ownOpen c h (if d.output then t.upTo.headD 0 else t.boundAt) (a + dw (8 * i)) (min 8 (2 ^ d.es - 8 * i))

/-- The reads of an element join those of the vector it belongs to. -/
def joinReads (d : StreamDesc) (j : Nat) (p : List (Nat × Nat × Nat)) (l : List (List (Nat × Nat × Nat))) :
    List (List (Nat × Nat × Nat)) :=
  if j % d.perVec = 0 then l ++ [p] else l.dropLast ++ [l.getLastD [] ++ p]

/-- An element joins the vector it belongs to; the first of a vector opens a new one. -/
def joinElement (d : StreamDesc) (j v : Nat) (buf : List Vec) : List Vec :=
  let p := j % d.perVec
  let x : Vec := BitVec.ofNat 1024 (v * 2 ^ (8 * 2 ^ d.es * p))
  if p = 0 then buf ++ [x]
  else match buf.getLast? with
    | some y => buf.dropLast ++ [y ||| x]
    | none => [x]

/-- STREAM_ELEMENT_ACCESS (R178): the next element of an input is read, of an output is performed; a fault sets FLT. -/
def State.tryStream (s : State) (c : CoreId) (st : Fin 8) : Option State :=
  let t := (s.core c).streams.get st
  match t.bound with
  | some (.memory h d) =>
    let j := t.engine
    let a := d.addr j
    let flt (cause : Byte) : Option State :=
      some ((s.modStream c st fun t => { t with fault := some (cause, a) }).engForget c (streamUnit st))
    if t.fault.isSome || decide (d.total ≤ j) || s.stopped || s.elementWaits c h t d a then none
    else if d.output then
      match t.buf with
      | [] => none
      | v :: rest =>
        let p := j % d.perVec
        match s.streamWrite c st (s.pushWriter c h t) d a (v.toNat / 2 ^ (8 * 2 ^ d.es * p) % 2 ^ (8 * 2 ^ d.es)) 0 d.pieces with
        | .ok (m, s1) =>
          let last := decide (p + 1 = d.perVec ∨ j + 1 = d.total)
          some (((s1.syncWith c h m).tellAfter c h (t.upTo.headD 0) m).modStream c st fun t =>
            { t with engine := j + 1, wrote := joinSeen t.wrote m, buf := if last then rest else t.buf,
                     seen := if last then t.seen.tail else t.seen, upTo := if last then t.upTo.tail else t.upTo })
        | .error (.fault cause _) => flt cause
        | .error e => s.holdFor e
    else if 8 ≤ t.buf.length ∧ j % d.perVec = 0 then none
    else
      match s.streamRead c st d a 0 d.pieces with
      | .ok (v, p, s1) => some (s1.modStream c st fun t =>
          { t with engine := j + 1, buf := joinElement d j v t.buf, reads := joinReads d j p t.reads })
      | .error (.fault cause _) => flt cause
      | .error e => s.holdFor e
  | _ => none

/-- STREAM_ELEMENT_ACCESS. -/
def execStreamElementAccess (c : CoreId) (st : Fin 8) (s : State) : Out := .next ((s.tryStream c st).getD s)

/-! ## Pops and pushes (R176, R177, R179) -/

/-- FINFO of a fault that a stream access met (R361). -/
def streamInfo (st : Fin 8) : DWord := dw (2 ^ 29 + st.val)

/-- Raise the fault of a stream. -/
def streamFault {α : Type} (st : Fin 8) (f : Byte × DWord) : Except Stop α := fault f.1 f.2 (streamInfo st)

/-- The fault of a memory output is raised by the next instruction that names it. -/
def outputFault (st : Fin 8) (t : Stream) : Except Stop Unit :=
  match t.bound, t.fault with
  | some (.memory _ d), some f => if d.output then streamFault st f else .ok ()
  | _, _ => .ok ()

/-- The vector that a link's reader pops may leave: the pusher's earlier requests are performed (R179). -/
def State.linkOpen (s : State) (w : CtxId) (t : Stream) : Bool :=
  match t.upTo with
  | [] => true
  | n :: _ => (s.me.ctx w).reqs.all fun q => decide (n ≤ q.id) || q.fault.isSome || q.reply.isSome

/-- The issuing context has read what a vector brings: its loads of those places return nothing older, and a FENCE.ACQ acts on the pop
(R90, R98, R262). -/
def State.sawReads (s : State) (l : List (Nat × Nat × Nat)) : State :=
  l.foldl (fun s r => s.hasRead s.cur s.curCtx r.2.1 (s.writeAt r.1 r.2.1 r.2.2)) s

/-- Pop one vector of a stream. -/
def State.popStream (s : State) (st : Fin 8) : Except Stop (Vec × State) :=
  let t := s.me.streams.get st
  match t.bound with
  | none => .ok (0, s)
  | some (.memory _ d) =>
    if d.vectors ≤ t.passed then .ok (0, s.modStream s.cur st fun t => { t with ovr := true })
    else if t.ready d = 0 then (match t.fault with
      | some f => streamFault st f
      | none => .error .wait)
    else .ok (t.buf.headD 0, (s.modStream s.cur st fun t =>
      { t with buf := t.buf.tail, reads := t.reads.tail, passed := t.passed + 1 }).sawReads (t.reads.headD []))
  | some (.link w _ _ _) =>
    match t.buf with
    | v :: r =>
      if !s.linkOpen w t then .error .wait
      else .ok (v, (s.modStream s.cur st fun t =>
        { t with buf := r, upTo := t.upTo.tail, seen := t.seen.tail, passed := t.passed + 1 }).syncWith s.cur s.curCtx
          (t.seen.headD []))
    | [] =>
      if t.ended then .ok (0, s.modStream s.cur st fun t => { t with ovr := true })
      else .error .wait

/-- Push one vector to a stream; after a FENCE.REL an element of memory waits as a store does (R98). DESIGN CHOICE: a push to a
link whose reader has ended it is discarded with OVR (log 72). -/
def State.pushStream (s : State) (st : Fin 8) (v : Vec) : Act :=
  let t := s.me.streams.get st
  match t.bound with
  | none => .ok s
  | some (.memory _ d) => do
    s.relWait
    if d.vectors ≤ t.passed then return s.modStream s.cur st fun t => { t with ovr := true }
    else if 8 ≤ t.buf.length then .error .wait
    else return { s with reqCtr := s.reqCtr + 1 }.modStream s.cur st fun t =>
      { t with buf := t.buf ++ [v], upTo := t.upTo ++ [s.reqCtr], seen := t.seen ++ [if s.cx.relS = 0 then [] else s.cx.seen],
               passed := t.passed + 1 }
  | some (.link _ _ wb rb) =>
    if t.ended then .ok (s.modStream s.cur st fun t => { t with ovr := true })
    else if !(wb && rb) || decide (8 ≤ t.buf.length) then .error .wait
    else .ok ({ s with reqCtr := s.reqCtr + 1 }.modStream s.cur st fun t =>
      { t with buf := t.buf ++ [v], upTo := t.upTo ++ [s.reqCtr], seen := t.seen ++ [s.cx.seen] })

/-- The stream that a register names may be used in one direction, else 0x02 (R176); an output that has faulted raises its
fault; a push to global memory in a restartable reaction is 0x08 (R47). -/
def State.streamUse (s : State) (r : Reg) (push : Bool) : Except Stop Unit :=
  match s.streamNamed r with
  | none => .ok ()
  | some st => do
    let t := s.me.streams.get st
    match t.names s.curCtx with
    | some (canPop, canPush) => check (if push then canPush else canPop) 0x02
    | none => .ok ()
    match t.bound with
    | some (.memory _ d) => if push && decide (space d.base = 0) then s.notInRestartable 0 1
    | _ => .ok ()
    outputFault st t

/-- Read source vector registers: each bound input stream among them pops once, each other register reads its bits. -/
def State.readVecs (s : State) (seen : List (Reg × Vec)) : List Reg → Except Stop (List (Reg × Vec) × State)
  | [] => .ok (seen, s)
  | r :: rest =>
    if seen.any fun p => p.1 == r then s.readVecs seen rest
    else match s.streamNamed r with
      | none => s.readVecs (seen ++ [(r, s.cx.v.get r)]) rest
      | some st => do
        let (v, s1) ← s.popStream st
        s1.readVecs (seen ++ [(r, v)]) rest

/-- The value that was read of a register. -/
def valOf (vals : List (Reg × Vec)) (r : Reg) : Vec :=
  match vals.find? fun p => p.1 == r with
  | some (_, v) => v
  | none => 0

/-- Write a destination vector register: a push if it names an output stream. -/
def State.writeVec (s : State) (d : Reg) (v : Vec) : Act :=
  match s.streamNamed d with
  | some st => s.pushStream st v
  | none => .ok (s.putV d v)

/-! ## Binding (R175, R178, R179) -/

/-- The descriptor of eight doublewords: fault 0x02 or 0x05 where it breaks R175. -/
def streamDescOf (ws : List DWord) : Except Stop StreamDesc := do
  let w (i : Nat) : DWord := ws.getD i 0
  let n := [fld (w 2) 31 0, fld (w 2) 63 32, fld (w 3) 31 0]
  let strides := (upto 3).map fun i => (w (4 + i)).toInt
  let es := fld (w 1) 2 0
  let fe := bit (w 1) 4
  check (decide (fld (w 1) 63 5 = 0) && decide (2 ≤ es) && n.all (fun x => decide (1 ≤ x)) && decide (fld (w 3) 63 32 = 0) &&
    decide (w 7 = 0) && (addrFault (w 0) [0, 1]).isNone && !(fe && decide (space (w 0) = 0))) 0x02
  let al := min (2 ^ es) 8
  check (decide ((w 0).toNat % al = 0) && strides.all (fun v => decide (v % al = 0))) 0x05 (w 0)
  return { base := w 0, es := es, output := bit (w 1) 3, fe := fe, n := n, stride := strides }

/-- SUNB takes one end of a stream away from a context. -/
def Stream.unbind (t : Stream) (h : CtxId) : Stream :=
  match t.bound with
  | none => t
  | some (.memory x _) => if x = h then .unbound else t
  | some (.link w r wb rb) =>
    let wb2 := wb && w != h
    let rb2 := rb && r != h
    if wb2 == wb && rb2 == rb then t
    else if !wb2 && !rb2 then .unbound
    else if wb && rb then { t with bound := some (.link w r wb2 rb2), ended := true }
    else { t with bound := some (.link w r wb2 rb2) }

/-- What the end of a memory output waits for, and the fault that it raises (R177, R178). -/
def Stream.settled (t : Stream) (st : Fin 8) : Except Stop Unit :=
  match t.bound with
  | some (.memory _ d) => if d.output then do
      outputFault st t
      waitUntil t.buf.isEmpty
    else .ok ()
  | _ => .ok ()

/-- What a faulted context has pushed to a stream is performed, or the stream has faulted: its end by context 13 waits for that as
SUNB does (R179, R363). -/
def Stream.endedFor (t : Stream) (h : CtxId) : Bool :=
  match t.bound with
  | some (.memory x d) => x != h || !d.output || t.fault.isSome || t.buf.isEmpty
  | _ => true

/-- What SUNB of a context waits for, and the fault that it raises (R177, R178). -/
def State.unbindReady (s : State) (st : Fin 8) : Except Stop Unit :=
  let t := s.me.streams.get st
  match t.bound with
  | some (.memory x _) => if x = s.curCtx then t.settled st else .ok ()
  | _ => .ok ()

/-- A link ends whole, at neither end in particular (R179): its reader may still drain it. -/
def Stream.endLink (t : Stream) (h : CtxId) : Stream :=
  match t.bound with
  | some (.link w r _ rb) => if w = h ∨ r = h then t.unbind h else { t with bound := some (.link w r false rb), ended := true }
  | _ => t

/-- A link whose reader has still vectors to pop. -/
def Stream.drains (t : Stream) : Bool :=
  match t.bound with
  | some (.link _ _ _ rb) => rb && !t.buf.isEmpty
  | _ => false

/-- SBIND, and an SLINK that continues no link, first perform SUNB on the stream, whoever bound it (R175): they wait for what was
pushed to it, and for the reader of a link that they end (log 72). -/
def State.rebindReady (s : State) (st : Fin 8) : Except Stop Unit := do
  let t := s.me.streams.get st
  t.settled st
  let t2 := t.endLink s.curCtx
  if t2.drains then .error (.waitIn (s.modMe fun k => { k with streams := vput k.streams st t2 })) else .ok ()

/-- Take every stream away from a context of a core. -/
def Core.dropStreams (k : Core) (h : CtxId) : Core :=
  { k with streams := Vector.ofFn fun i => (k.streams.get i).unbind h }

/-- Take every stream of the issuing core away from a context, with what their engines have asked of other modules. -/
def State.dropStreams (s : State) (h : CtxId) : State :=
  ((List.finRange 8).filter fun i => match (s.me.streams.get i).bound with
    | some (.memory x _) => x == h
    | _ => false).foldl (fun s i => s.engForget s.cur (streamUnit i)) (s.modMe fun k => k.dropStreams h)

/-- SUNB of every stream that the issuing context has bound, at its END (R179). -/
def State.endStreams (s : State) : Except Stop Unit := (List.finRange 8).forM fun st => s.unbindReady st

/-- A stream is bound by the issuing context. -/
def State.ownsStream (s : State) (st : Fin 8) : Bool := ((s.me.streams.get st).names s.curCtx).isSome

/-- Doublewords of the issuing core's scratchpad. -/
def State.spadWords (s : State) (a n : Nat) : List DWord := (upto n).map fun i => dw (s.spadNat (a + 8 * i) 8)

/-- SBIND (R175): a stream already bound is unbound first. -/
def execSbind (g : Guard) (d : Fin 8) (a : Reg) (s : State) : Out :=
  instr g (fun s => do
    let x ← s.rdX a
    s.memGate
    let p ← spadCheck x 64 64
    s.spadSound p 64
    let r ← streamDescOf (s.spadWords p 8)
    s.rebindReady d
    return ({ s with reqCtr := s.reqCtr + 1 }.modMe fun k =>
      { k with streams := vput k.streams d { Stream.unbound with bound := some (.memory s.curCtx r), boundAt := s.reqCtr } }).engForget
        s.cur (streamUnit d)) s

/-- SUNB: the register that the stream named reads unpredictably afterwards (R176). -/
def execSunb (g : Guard) (d : Fin 8) (s : State) : Out :=
  instr g (fun s => do
    s.unbindReady d
    if s.ownsStream d then
      let v := s.draw 1024
      let s1 := (v.2.modMe fun k => { k with streams := vmod k.streams d fun t => t.unbind s.curCtx }).engForget s.cur (streamUnit d)
      return s1.putV ⟨24 + d.val, by omega⟩ v.1
    else return s) s

/-- An SLINK of a context completes the link that waits for it (R179). -/
def Stream.linkWaits (t : Stream) (h other : CtxId) (reads : Bool) : Bool :=
  match t.bound with
  | some (.link w r wb rb) =>
    decide (w = if reads then other else h) && decide (r = if reads then h else other) && !t.ended && !(if reads then rb else wb)
  | _ => false

/-- An SLINK of a context meets the stream: it completes the link that waits for it, or starts one. DESIGN CHOICE: in place of
whatever bound the stream (R179, log 72). -/
def Stream.linkTo (t : Stream) (h other : CtxId) (reads : Bool) : Stream :=
  let w := if reads then other else h
  let r := if reads then h else other
  match t.bound with
  | some (.link _ _ wb rb) =>
    if t.linkWaits h other reads then { t with bound := some (.link w r (wb || !reads) (rb || reads)) }
    else { Stream.unbound with bound := some (.link w r (!reads) reads) }
  | _ => { Stream.unbound with bound := some (.link w r (!reads) reads) }

/-- SLINK (R179, R308): a context number above 13 is no context of the core, fault 0x02. -/
def execSlink (g : Guard) (d : Fin 8) (a : Reg) (s : State) : Out :=
  instr g (fun s => do
    let x ← s.rdX a
    check (decide (fld x 63 5 = 0)) 0x02
    if h : fld x 3 0 < 14 then
      if !(s.me.streams.get d).linkWaits s.curCtx ⟨fld x 3 0, h⟩ (bit x 4) then s.rebindReady d
      return (s.modMe fun k => { k with streams := vmod k.streams d fun t => t.linkTo s.curCtx ⟨fld x 3 0, h⟩ (bit x 4) }).engForget
        s.cur (streamUnit d)
    else fault 0x02) s

/-- SSTAT's status word (R176). -/
def streamStatus (h : CtxId) (t : Stream) : DWord :=
  let flt := match t.fault with
    | some (cause, _) => 2 ^ 5 + cause.toNat * 2 ^ 16
    | none => 0
  let ovr := 16 * b2n t.ovr
  match t.bound with
  | none => 0
  | some (.memory _ d) =>
    let avail := if d.output then 8 - t.buf.length else t.ready d
    dw (1 + 2 * b2n d.output + 8 * b2n (decide (d.vectors ≤ t.passed)) + ovr + flt + avail * 2 ^ 8)
  | some (.link w r wb rb) =>
    let out := w == h && (wb || !(rb && r == h))
    let avail := if out then 8 - t.buf.length else t.buf.length
    dw (1 + 2 * b2n out + 4 + 8 * b2n (t.ended && (out || t.buf.isEmpty)) + ovr + avail * 2 ^ 8)

/-- SSTAT. -/
def execSstat (g : Guard) (d : Reg) (a : Fin 8) (s : State) : Out :=
  instr g (fun s => s.wrX d (streamStatus s.curCtx (s.me.streams.get a))) s

end Sys2Proof.Machine
end

