-- ==== Sys2Proof/Machine/Vector.lean ====
section
/-! DEFINITION. Vector instructions (R272 to R284). -/

namespace Sys2Proof.Machine

/-! ## Lanes (R117, R139, R203) -/

/-- Lane l of width w of a vector. -/
def lane (w l : Nat) (v : Vec) : BitVec w := (v >>> (w * l)).setWidth w

/-- The vector whose lanes of width w, `n` of them, a function gives; the other bits are 0. -/
def ofLanes (w : Nat) (f : Nat → BitVec w) : Nat → Vec
  | 0 => 0
  | n + 1 => ofLanes w f n ||| ((f n).setWidth 1024 <<< (w * n))

/-- Bits of a vector from lane `n` of width w on. -/
def lanesFrom (w n : Nat) (v : Vec) : Vec := (v >>> (w * n)) <<< (w * n)

/-- Predicate lane l of a guard passes (R203). -/
def State.lanePasses (s : State) (g : Guard) (l : Nat) : Bool :=
  match g with
  | .always => true
  | .onSet p => bit (s.cx.p.get p) l
  | .onClear p => !bit (s.cx.p.get p) l

/-- Run an instruction that is guarded lane by lane: with no lane passing it has no effect (R203). -/
def instrLanes (g : Guard) (body : State → Act) (s : State) : Out :=
  if (upto 32).any (s.lanePasses g) then s.finish 4 (body s) else .next (s.retire 4)

/-- A lane's result: value, FFLAGS, and whether it was clamped (R125, R118). -/
abbrev LaneRes (w : Nat) := BitVec w × BitVec 5 × Bool

/-- A lane's result that sets no flag. -/
def plain {w : Nat} (v : BitVec w) : LaneRes w := (v, 0, false)

/-- A lane's result of an FP operation. -/
def ofF {w : Nat} (r : FRes) : LaneRes w := (BitVec.ofNat w r.1, r.2, false)

/-- No bound stream is named by a destination that is read before it is written (R176). -/
def State.noStream (s : State) (d : Reg) : Except Stop Unit := check (s.streamNamed d).isNone 0x02

/-- The sources of an instruction: named in their direction, then read, popping each stream once (R176, R272). -/
def State.sources (s : State) (rs : List Reg) : Except Stop (List (Reg × Vec) × State) := do
  rs.forM fun r => s.streamUse r false
  s.readVecs [] rs

/-- The bits of a destination that lanes whose guard fails keep: zero for a stream (R176). -/
def State.oldVec (s : State) (d : Reg) : Vec := if (s.streamNamed d).isSome then 0 else s.cx.v.get d

/-- Add the flags of lanes and their clamping. -/
def State.laneFlags (s : State) (rs : List (BitVec 5 × Bool)) : State :=
  (s.orFlags (rs.foldl (fun a r => a ||| r.1) 0)).setSat (rs.any (·.2))

/-- Write the lanes of width w that pass, `n` of them, lane l guarded by predicate lane `pl l`; other bits stay. -/
def State.writeLanes (s : State) (g : Guard) (w n : Nat) (pl : Nat → Nat) (d : Reg) (f : Nat → LaneRes w) : Act := do
  let old := s.oldVec d
  let pass (l : Nat) : Bool := s.lanePasses g (pl l)
  let v := ofLanes w (fun l => if pass l then (f l).1 else lane w l old) n ||| lanesFrom w n old
  let s1 ← s.writeVec d v
  return s1.laneFlags (((upto n).filter pass).map fun l => ((f l).2.1, (f l).2.2))

/-- The lane operations on vA and vB; `readsD` gives the lane of vD as the third operand. -/
def laneOp (w : Nat) (readsD : Bool) (g : Guard) (d a b : Reg) (f : BitVec w → BitVec w → BitVec w → LaneRes w) (s : State) :
    Act := do
  if readsD then s.noStream d else s.streamUse d true
  let old := s.cx.v.get d
  let (vals, s1) ← s.sources [a, b]
  s1.writeLanes g w (1024 / w) (fun l => l * w / 32) d fun l =>
    f (lane w l (valOf vals a)) (lane w l (valOf vals b)) (lane w l old)

/-- A lane-wise instruction of two sources. -/
def vop2 (w : Nat) (g : Guard) (d a b : Reg) (f : BitVec w → BitVec w → LaneRes w) (s : State) : Out :=
  instrLanes g (laneOp w false g d a b fun x y _ => f x y) s

/-- A lane-wise instruction of one source. -/
def vop1 (w : Nat) (g : Guard) (d a : Reg) (f : BitVec w → LaneRes w) (s : State) : Out :=
  instrLanes g (laneOp w false g d a a fun x _ _ => f x) s

/-- A lane-wise instruction that reads vD (R176). -/
def vop3 (w : Nat) (g : Guard) (d a b : Reg) (f : BitVec w → BitVec w → BitVec w → LaneRes w) (s : State) : Out :=
  instrLanes g (laneOp w true g d a b f) s

/-! ## Integer lanes (R273, R274, R275) -/

/-- The high half of a signed product. -/
def mulHighLane {w : Nat} (x y : BitVec w) : BitVec w := BitVec.ofInt w (x.toInt * y.toInt / 2 ^ w)

/-- The lesser of two lanes by an order. -/
def pickLane {w : Nat} (lt : BitVec w → BitVec w → Bool) (x y : BitVec w) : BitVec w := if lt x y then x else y

/-- A lane clamped to its width. -/
def clampLane (w : Nat) (i : Int) : LaneRes w := ((clampS w i).1, 0, (clampS w i).2)

/-- VADD.W (R273). -/
def execVaddW (g : Guard) (d a b : Reg) (s : State) : Out :=
  vop2 32 g d a b (fun x y => plain (x + y)) s

/-- VSUB.W (R273). -/
def execVsubW (g : Guard) (d a b : Reg) (s : State) : Out :=
  vop2 32 g d a b (fun x y => plain (x - y)) s

/-- VMUL.W (R273). -/
def execVmulW (g : Guard) (d a b : Reg) (s : State) : Out :=
  vop2 32 g d a b (fun x y => plain (x * y)) s

/-- VMULH.W (R273). -/
def execVmulhW (g : Guard) (d a b : Reg) (s : State) : Out :=
  vop2 32 g d a b (fun x y => plain (mulHighLane x y)) s

/-- VMIN.W (R273). -/
def execVminW (g : Guard) (d a b : Reg) (s : State) : Out :=
  vop2 32 g d a b (fun x y => plain (pickLane BitVec.slt x y)) s

/-- VMAX.W (R273). -/
def execVmaxW (g : Guard) (d a b : Reg) (s : State) : Out :=
  vop2 32 g d a b (fun x y => plain (pickLane (fun p q => q.slt p) x y)) s

/-- VMINU.W (R273). -/
def execVminuW (g : Guard) (d a b : Reg) (s : State) : Out :=
  vop2 32 g d a b (fun x y => plain (pickLane BitVec.ult x y)) s

/-- VMAXU.W (R273). -/
def execVmaxuW (g : Guard) (d a b : Reg) (s : State) : Out :=
  vop2 32 g d a b (fun x y => plain (pickLane (fun p q => q.ult p) x y)) s

/-- VADD.H (R273). -/
def execVaddH (g : Guard) (d a b : Reg) (s : State) : Out :=
  vop2 16 g d a b (fun x y => plain (x + y)) s

/-- VSUB.H (R273). -/
def execVsubH (g : Guard) (d a b : Reg) (s : State) : Out :=
  vop2 16 g d a b (fun x y => plain (x - y)) s

/-- VMUL.H (R273). -/
def execVmulH (g : Guard) (d a b : Reg) (s : State) : Out :=
  vop2 16 g d a b (fun x y => plain (x * y)) s

/-- VMULH.H (R273). -/
def execVmulhH (g : Guard) (d a b : Reg) (s : State) : Out :=
  vop2 16 g d a b (fun x y => plain (mulHighLane x y)) s

/-- VMIN.H (R273). -/
def execVminH (g : Guard) (d a b : Reg) (s : State) : Out :=
  vop2 16 g d a b (fun x y => plain (pickLane BitVec.slt x y)) s

/-- VMAX.H (R273). -/
def execVmaxH (g : Guard) (d a b : Reg) (s : State) : Out :=
  vop2 16 g d a b (fun x y => plain (pickLane (fun p q => q.slt p) x y)) s

/-- VMINU.H (R273). -/
def execVminuH (g : Guard) (d a b : Reg) (s : State) : Out :=
  vop2 16 g d a b (fun x y => plain (pickLane BitVec.ult x y)) s

/-- VMAXU.H (R273). -/
def execVmaxuH (g : Guard) (d a b : Reg) (s : State) : Out :=
  vop2 16 g d a b (fun x y => plain (pickLane (fun p q => q.ult p) x y)) s

/-- VADD.B (R274). -/
def execVaddB (g : Guard) (d a b : Reg) (s : State) : Out :=
  vop2 8 g d a b (fun x y => plain (x + y)) s

/-- VSUB.B (R274). -/
def execVsubB (g : Guard) (d a b : Reg) (s : State) : Out :=
  vop2 8 g d a b (fun x y => plain (x - y)) s

/-- VADDS.B (R274). -/
def execVaddsB (g : Guard) (d a b : Reg) (s : State) : Out :=
  vop2 8 g d a b (fun x y => clampLane 8 (x.toInt + y.toInt)) s

/-- VSUBS.B (R274). -/
def execVsubsB (g : Guard) (d a b : Reg) (s : State) : Out :=
  vop2 8 g d a b (fun x y => clampLane 8 (x.toInt - y.toInt)) s

/-- VMIN.B (R274). -/
def execVminB (g : Guard) (d a b : Reg) (s : State) : Out :=
  vop2 8 g d a b (fun x y => plain (pickLane BitVec.slt x y)) s

/-- VMAX.B (R274). -/
def execVmaxB (g : Guard) (d a b : Reg) (s : State) : Out :=
  vop2 8 g d a b (fun x y => plain (pickLane (fun p q => q.slt p) x y)) s

/-- VMINU.B (R274). -/
def execVminuB (g : Guard) (d a b : Reg) (s : State) : Out :=
  vop2 8 g d a b (fun x y => plain (pickLane BitVec.ult x y)) s

/-- VMAXU.B (R274). -/
def execVmaxuB (g : Guard) (d a b : Reg) (s : State) : Out :=
  vop2 8 g d a b (fun x y => plain (pickLane (fun p q => q.ult p) x y)) s

/-- VAND (R275). -/
def execVand (g : Guard) (d a b : Reg) (s : State) : Out :=
  vop2 32 g d a b (fun x y => plain (x &&& y)) s

/-- VOR (R275). -/
def execVor (g : Guard) (d a b : Reg) (s : State) : Out :=
  vop2 32 g d a b (fun x y => plain (x ||| y)) s

/-- VXOR (R275). -/
def execVxor (g : Guard) (d a b : Reg) (s : State) : Out :=
  vop2 32 g d a b (fun x y => plain (x ^^^ y)) s

/-- VANDN (R275). -/
def execVandn (g : Guard) (d a b : Reg) (s : State) : Out :=
  vop2 32 g d a b (fun x y => plain (x &&& ~~~y)) s

/-- A shift amount: [4:0] (R275). -/
def sh5w (y : Word) : Nat := y.toNat % 32

/-- VSHL.W (R275). -/
def execVshlW (g : Guard) (d a b : Reg) (s : State) : Out :=
  vop2 32 g d a b (fun x y => plain (x <<< sh5w y)) s

/-- VSHR.W (R275). -/
def execVshrW (g : Guard) (d a b : Reg) (s : State) : Out :=
  vop2 32 g d a b (fun x y => plain (x >>> sh5w y)) s

/-- VSRA.W (R275). -/
def execVsraW (g : Guard) (d a b : Reg) (s : State) : Out :=
  vop2 32 g d a b (fun x y => plain (x.sshiftRight (sh5w y))) s

/-- VNOT (R275). -/
def execVnot (g : Guard) (d a : Reg) (s : State) : Out :=
  vop1 32 g d a (fun x => plain (~~~x)) s

/-! ## Floating-point lanes (R276, R277, R278) -/

/-- VFADD.S (R276). -/
def execVfaddS (g : Guard) (d a b : Reg) (s : State) : Out :=
  vop2 32 g d a b (fun x y => ofF (fp32.add s.rm x.toNat y.toNat)) s

/-- VFSUB.S (R276). -/
def execVfsubS (g : Guard) (d a b : Reg) (s : State) : Out :=
  vop2 32 g d a b (fun x y => ofF (fp32.sub s.rm x.toNat y.toNat)) s

/-- VFMUL.S (R276). -/
def execVfmulS (g : Guard) (d a b : Reg) (s : State) : Out :=
  vop2 32 g d a b (fun x y => ofF (fp32.mul s.rm x.toNat y.toNat)) s

/-- VFMIN.S (R276). -/
def execVfminS (g : Guard) (d a b : Reg) (s : State) : Out :=
  vop2 32 g d a b (fun x y => ofF (fp32.pick false x.toNat y.toNat)) s

/-- VFMAX.S (R276). -/
def execVfmaxS (g : Guard) (d a b : Reg) (s : State) : Out :=
  vop2 32 g d a b (fun x y => ofF (fp32.pick true x.toNat y.toNat)) s

/-- VFMA.S (R276). -/
def execVfmaS (g : Guard) (d a b : Reg) (s : State) : Out :=
  vop3 32 g d a b (fun x y z => ofF (fp32.fma s.rm x.toNat y.toNat z.toNat false)) s

/-- VFABS.S: a bit operation (R276, R123). -/
def execVfabsS (g : Guard) (d a : Reg) (s : State) : Out :=
  vop1 32 g d a (fun x => plain (x &&& 0x7FFFFFFF)) s

/-- VFNEG.S: a bit operation (R276, R123). -/
def execVfnegS (g : Guard) (d a : Reg) (s : State) : Out :=
  vop1 32 g d a (fun x => plain (x ^^^ 0x80000000)) s

/-- VFADD.BF (R277). -/
def execVfaddBf (g : Guard) (d a b : Reg) (s : State) : Out :=
  vop2 16 g d a b (fun x y => ofF (bf16.add .rne x.toNat y.toNat)) s

/-- VFSUB.BF (R277). -/
def execVfsubBf (g : Guard) (d a b : Reg) (s : State) : Out :=
  vop2 16 g d a b (fun x y => ofF (bf16.sub .rne x.toNat y.toNat)) s

/-- VFMUL.BF (R277). -/
def execVfmulBf (g : Guard) (d a b : Reg) (s : State) : Out :=
  vop2 16 g d a b (fun x y => ofF (bf16.mul .rne x.toNat y.toNat)) s

/-- VFMIN.BF (R277). -/
def execVfminBf (g : Guard) (d a b : Reg) (s : State) : Out :=
  vop2 16 g d a b (fun x y => ofF (bf16.pick false x.toNat y.toNat)) s

/-- VFMAX.BF (R277). -/
def execVfmaxBf (g : Guard) (d a b : Reg) (s : State) : Out :=
  vop2 16 g d a b (fun x y => ofF (bf16.pick true x.toNat y.toNat)) s

/-- VFMA.BF (R277). -/
def execVfmaBf (g : Guard) (d a b : Reg) (s : State) : Out :=
  vop3 16 g d a b (fun x y z => ofF (bf16.fma .rne x.toNat y.toNat z.toNat false)) s

/-- The low and the high BF16 of a 32-bit lane. -/
def bfPair (x : Word) : FVal × FVal := (bf16.val (x.toNat % 2 ^ 16), bf16.val (x.toNat / 2 ^ 16))

/-- A lane of VFDOT.BF: an exact sum, one rounding (R277). DESIGN CHOICE: beside a quiet NaN a product 0 × ∞ still sets NV,
and terms +∞ and −∞ do not (log 83). -/
def fdotLane (x y z : Word) : LaneRes 32 :=
  let a := bfPair x
  let b := bfPair y
  let c := fp32.val z.toNat
  let p := a.1.mul b.1
  let q := a.2.mul b.2
  let r := fsum .rne [c, p.1, q.1]
  ofF (fp32.deliver .rne (p.2 || q.2 || r.2 || [a.1, a.2, b.1, b.2, c].any FVal.isSig) r.1)

/-- VFDOT.BF (R277). -/
def execVfdotBf (g : Guard) (d a b : Reg) (s : State) : Out :=
  vop3 32 g d a b fdotLane s

/-- VRCP.S (R278). -/
def execVrcpS (g : Guard) (d a : Reg) (s : State) : Out :=
  vop1 32 g d a (fun x => ofF (fp32.div .rne 0x3F800000 x.toNat)) s

/-- VRSQ.S (R278). -/
def execVrsqS (g : Guard) (d a : Reg) (s : State) : Out :=
  vop1 32 g d a (fun x => ofF (rsqrt32 x.toNat)) s

/-- VEXP2.S (R278). -/
def execVexp2S (g : Guard) (d a : Reg) (s : State) : Out :=
  vop1 32 g d a (fun x => ofF (exp2of x.toNat)) s

/-- VLOG2.S (R278). -/
def execVlog2S (g : Guard) (d a : Reg) (s : State) : Out :=
  vop1 32 g d a (fun x => ofF (log2of x.toNat)) s

/-- VSQRT.S (R278). -/
def execVsqrtS (g : Guard) (d a : Reg) (s : State) : Out :=
  vop1 32 g d a (fun x => ofF (fp32.sqrt s.rm x.toNat)) s

/-- VFLOOR.S (R278). -/
def execVfloorS (g : Guard) (d a : Reg) (s : State) : Out :=
  vop1 32 g d a (fun x => ofF (floor32 x.toNat)) s

/-- VTANH.S (R278). -/
def execVtanhS (g : Guard) (d a : Reg) (s : State) : Out :=
  vop1 32 g d a (fun x => ofF (tanhOf x.toNat)) s

/-- VDIV.S (R278). -/
def execVdivS (g : Guard) (d a b : Reg) (s : State) : Out :=
  vop2 32 g d a b (fun x y => ofF (fp32.div s.rm x.toNat y.toNat)) s

/-! ## Compares (R279) -/

/-- Write the predicate lanes that pass. -/
def State.writeCmp (s : State) (g : Guard) (p : PReg) (f : Nat → Bool × Bool) : State :=
  let old := s.rdP p
  let v := (upto 32).foldl (fun a l => a + b2n (if s.lanePasses g l then (f l).1 else bit old l) * 2 ^ l) 0
  let nv := (upto 32).any fun l => s.lanePasses g l && (f l).2
  (s.putP p (BitVec.ofNat 32 v)).orFlags (flag nv flNV)

/-- VCMP (R279). -/
def execVcmp (g : Guard) (p : PReg) (a b : Reg) (cc : ICond) (s : State) : Out :=
  instrLanes g (fun s => do
    let (vals, s1) ← s.sources [a, b]
    return s1.writeCmp g p fun l => (icond cc (lane 32 l (valOf vals a)) (lane 32 l (valOf vals b)), false)) s

/-- VCMP.F (R279). -/
def execVcmpF (g : Guard) (p : PReg) (a b : Reg) (cc : FCond) (s : State) : Out :=
  instrLanes g (fun s => do
    let (vals, s1) ← s.sources [a, b]
    return s1.writeCmp g p fun l => fp32.cond cc (lane 32 l (valOf vals a)).toNat (lane 32 l (valOf vals b)).toNat) s

/-! ## Moving lanes (R280) -/

/-- Write 32-bit lanes that come from a function of the lane number. -/
def moveLanes (g : Guard) (d : Reg) (f : Nat → Word) (s : State) : Act := s.writeLanes g 32 32 id d fun l => plain (f l)

/-- VBCAST (R280). -/
def execVbcast (g : Guard) (d a : Reg) (s : State) : Out :=
  instrLanes g (fun s => do
    s.streamUse d true
    let x ← s.rdX a
    moveLanes g d (fun _ => x.setWidth 32) s) s

/-- VBCASTF: one rounding, one setting of flags (R280). -/
def execVbcastf (g : Guard) (d a : Reg) (s : State) : Out :=
  instrLanes g (fun s => do
    s.streamUse d true
    let v := fp64.val (s.rdF a).toNat
    let r := fp32.deliver s.rm v.isSig v
    let s1 ← moveLanes g d (fun _ => BitVec.ofNat 32 r.1) s
    return s1.orFlags r.2) s

/-- The lane that VEXT and VINS act on; it alone takes part, so a guard that fails there is a false guard (R280, R203). -/
def onLane (g : Guard) (b : Reg) (body : Nat → State → Act) (s : State) : Out :=
  instrLanes g (fun s => do
    let y ← s.rdX b
    if s.lanePasses g (y.toNat % 32) then body (y.toNat % 32) s else return s) s

/-- VEXT (R280). -/
def execVext (g : Guard) (d a b : Reg) (s : State) : Out :=
  onLane g b (fun n s => do
    s.regReady d
    let (vals, s1) ← s.sources [a]
    s1.wrX d ((lane 32 n (valOf vals a)).signExtend 64)) s

/-- VINS (R280). -/
def execVins (g : Guard) (d a b : Reg) (s : State) : Out :=
  onLane g b (fun n s => do
    s.noStream d
    let x ← s.rdX a
    let old := s.cx.v.get d
    s.writeVec d (ofLanes 32 (fun l => if l = n then x.setWidth 32 else lane 32 l old) 32)) s

/-- VPERM (R280). -/
def execVperm (g : Guard) (d a b : Reg) (s : State) : Out :=
  instrLanes g (fun s => do
    s.streamUse d true
    let (vals, s1) ← s.sources [a, b]
    moveLanes g d (fun l => lane 32 ((lane 32 l (valOf vals b)).toNat % 32) (valOf vals a)) s1) s

/-- VIOTA (R280). -/
def execViota (g : Guard) (d : Reg) (s : State) : Out :=
  instrLanes g (fun s => do
    s.streamUse d true
    moveLanes g d (fun l => BitVec.ofNat 32 l) s) s

/-- VMOV (R280). -/
def execVmov (g : Guard) (d a : Reg) (s : State) : Out :=
  instrLanes g (fun s => do
    s.streamUse d true
    let (vals, s1) ← s.sources [a]
    moveLanes g d (fun l => lane 32 l (valOf vals a)) s1) s

/-- VSLIDE (R280). -/
def execVslide (g : Guard) (d a b : Reg) (s : State) : Out :=
  instrLanes g (fun s => do
    s.streamUse d true
    let y ← s.rdX b
    let (vals, s1) ← s.sources [a]
    moveLanes g d (fun l =>
      let k : Int := l + y.toInt
      if 0 ≤ k ∧ k ≤ 31 then lane 32 k.toNat (valOf vals a) else 0) s1) s

/-! ## Vector memory (R281, R282) -/

/-- The address of a vector: 128 bytes, 8-byte aligned. -/
def vecAddr (a : Reg) (off : Int) (s : State) : Except Stop Nat := do
  let va ← State.addrOff a off 128 s
  spadEA va 128

/-- The 128 bytes at a scratchpad address. -/
def State.spadVec (s : State) (p : Nat) : Vec := BitVec.ofNat 1024 (s.spadNat p 128)

/-- Read the vector that a store names in field D: a source (R176). -/
def State.storeVec (s : State) (d : Reg) : Except Stop (Vec × State) := do
  let (vals, s1) ← s.sources [d]
  return (valOf vals d, s1)

/-- VLD (R281). -/
def execVld (g : Guard) (d a : Reg) (off : Int) (s : State) : Out :=
  instr g (fun s => do
    s.memGate
    s.streamUse d true
    let p ← vecAddr a off s
    s.spadSound p 128
    let s1 ← s.writeVec d (s.spadVec p)
    return s1.spadSeen p 128) s

/-- VST (R281). -/
def execVst (g : Guard) (d a : Reg) (off : Int) (s : State) : Out :=
  instr g (fun s => do
    s.memGate
    s.relWait
    s.streamUse d false
    let p ← vecAddr a off s
    let (v, s1) ← s.storeVec d
    return s1.spadPut p 128 v.toNat) s

/-- VLDF: waits for 16 full words and leaves them empty; an acquire at CORE (R281). -/
def execVldf (g : Guard) (d a : Reg) (off : Int) (s : State) : Out :=
  instr g (fun s => do
    s.memGate
    s.syncPoint
    s.streamUse d true
    let p ← vecAddr a off s
    s.feWait p 16 true
    s.spadSound p 128
    let s1 ← s.writeVec d (s.spadVec p)
    return (s1.feSet p 16 false).feAcquire p 16) s

/-- VSTE: a release at CORE; waits for 16 empty words and leaves them full (R281). -/
def execVste (g : Guard) (d a : Reg) (off : Int) (s : State) : Out :=
  instr g (fun s => do
    s.memGate
    s.settled
    s.streamUse d false
    let p ← vecAddr a off s
    s.feWait p 16 false
    let (v, s1) ← s.storeVec d
    return (s1.spadPut p 128 v.toNat).feRelease p 16) s

/-- The checks of 32 element addresses, lane 0 first (R282). -/
def elementAddrs (f : Nat → DWord) : Except Stop (List Nat) := (upto 32).mapM fun l => spadEA (f l) 4

/-- No word of 32 elements is lost to an uncorrectable error (R361, R367). -/
def State.elementsSound (s : State) (ps : List Nat) : Except Stop Unit := ps.forM fun p => s.spadSound p 4

/-- What plain loads of 32 elements read from stores that follow a FENCE.REL (R98). -/
def State.elementsSeen (s : State) (ps : List Nat) : State := ps.foldl (fun s p => s.spadSeen p 4) s

/-- Store 32 elements in lane order: the higher lane's value is the one left (R282). -/
def storeElements (v : Vec) : List Nat → Nat → State → State
  | [], _, s => s
  | p :: r, l, s => storeElements v r (l + 1) (s.spadPut p 4 (lane 32 l v).toNat)

/-- The strided element address. -/
def strided (x y : DWord) (l : Nat) : DWord := x + dw l * y

/-- The indexed element address. -/
def indexed (x : DWord) (v : Vec) (l : Nat) : DWord := x + dw (4 * (lane 32 l v).toNat)

/-- VLDS (R282). -/
def execVlds (g : Guard) (d a b : Reg) (s : State) : Out :=
  instr g (fun s => do
    s.memGate
    s.streamUse d true
    let x ← s.rdX a
    let y ← s.rdX b
    let ps ← elementAddrs (strided x y)
    s.elementsSound ps
    let s1 ← s.writeVec d (ofLanes 32 (fun l => BitVec.ofNat 32 (s.spadNat (ps.getD l 0) 4)) 32)
    return s1.elementsSeen ps) s

/-- VSTS (R282). -/
def execVsts (g : Guard) (d a b : Reg) (s : State) : Out :=
  instr g (fun s => do
    s.memGate
    s.relWait
    s.streamUse d false
    let x ← s.rdX a
    let y ← s.rdX b
    let ps ← elementAddrs (strided x y)
    let (v, s1) ← s.storeVec d
    return storeElements v ps 0 s1) s

/-- VGATH (R282). -/
def execVgath (g : Guard) (d a b : Reg) (s : State) : Out :=
  instr g (fun s => do
    s.memGate
    s.streamUse d true
    let x ← s.rdX a
    let (vals, s1) ← s.sources [b]
    let ps ← elementAddrs (indexed x (valOf vals b))
    s.elementsSound ps
    let s2 ← s1.writeVec d (ofLanes 32 (fun l => BitVec.ofNat 32 (s.spadNat (ps.getD l 0) 4)) 32)
    return s2.elementsSeen ps) s

/-- VSCAT (R282). -/
def execVscat (g : Guard) (d a b : Reg) (s : State) : Out :=
  instr g (fun s => do
    s.memGate
    s.relWait
    let x ← s.rdX a
    let (vals, s1) ← s.sources [d, b]
    let ps ← elementAddrs (indexed x (valOf vals b))
    return storeElements (valOf vals d) ps 0 s1) s

/-- VSTF: a release at CORE; 16 words become full (R282). -/
def execVstf (g : Guard) (d a : Reg) (s : State) : Out :=
  instr g (fun s => do
    s.memGate
    s.settled
    s.streamUse d false
    let p ← vecAddr a 0 s
    let (v, s1) ← s.storeVec d
    return (s1.spadPut p 128 v.toNat).feRelease p 16) s

/-! ## Folds (R183, R283) -/

/-- Fold from the left: the partial results after each element, the first being the identity. -/
def prefixes {α : Type} (op : α → α → α) : α → List α → List α
  | p, [] => [p]
  | p, x :: r => p :: prefixes op (op p x) r

/-- The suffix folds S_0 to S_{n-1}: S_{n-1} is the identity. -/
def suffixes {α : Type} (op : α → α → α) (i : α) : List α → List α
  | [] => []
  | [_] => [i]
  | _ :: y :: r =>
    let q := suffixes op i (y :: r)
    op y (q.headD i) :: q

/-- A folded value with the flags that its steps raised. -/
abbrev Fold := Word × BitVec 5

/-- An FP32 fold step, RNE, flags collected. -/
def foldStep (op : Nat → Nat → FRes) (p q : Fold) : Fold :=
  let r := op p.1.toNat q.1.toNat
  (BitVec.ofNat 32 r.1, r.2 ||| p.2 ||| q.2)

/-- FP32 identities (R183). -/
def idSum : Fold := (0x80000000, 0)
def idMax : Fold := (0xFF800000, 0)
def idMin : Fold := (0x7F800000, 0)

def stepSum : Fold → Fold → Fold := foldStep (fp32.add .rne)
def stepMax : Fold → Fold → Fold := foldStep (fp32.pick true)
def stepMin : Fold → Fold → Fold := foldStep (fp32.pick false)

/-- The 32 lanes of a vector, as fold elements. -/
def foldLanes (v : Vec) : List Fold := (upto 32).map fun l => (lane 32 l v, 0)

/-- Write a fold's result: the vector of the lanes given, zero beyond, and their flags. -/
def foldVec (g : Guard) (d a : Reg) (f : List Fold → List Fold) (s : State) : Out :=
  instr g (fun s => do
    s.streamUse d true
    let (vals, s1) ← s.sources [a]
    let r := f (foldLanes (valOf vals a))
    let s2 ← s1.writeVec d (ofLanes 32 (fun l => (r.getD l (0, 0)).1) 32)
    return s2.orFlags (r.foldl (fun x q => x ||| q.2) 0)) s

/-- P_32. -/
def foldAll (op : Fold → Fold → Fold) (i : Fold) (xs : List Fold) : List Fold := [xs.foldl op i]

/-- P_l ⊕ S_l for every lane. -/
def cavity (op : Fold → Fold → Fold) (i : Fold) (xs : List Fold) : List Fold :=
  List.zipWith op (prefixes op i xs) (suffixes op i xs)

/-- VRSUM.S (R283). -/
def execVrsumS (g : Guard) (d a : Reg) (s : State) : Out := foldVec g d a (foldAll stepSum idSum) s

/-- VRMAX.S (R283). -/
def execVrmaxS (g : Guard) (d a : Reg) (s : State) : Out := foldVec g d a (foldAll stepMax idMax) s

/-- VRMIN.S (R283). -/
def execVrminS (g : Guard) (d a : Reg) (s : State) : Out := foldVec g d a (foldAll stepMin idMin) s

/-- VRSUM.W: wrapping (R283). -/
def execVrsumW (g : Guard) (d a : Reg) (s : State) : Out :=
  foldVec g d a (foldAll (fun p q => (p.1 + q.1, 0)) (0, 0)) s

/-- VSCAN.S (R283). -/
def execVscanS (g : Guard) (d a : Reg) (s : State) : Out :=
  foldVec g d a (fun xs => (prefixes stepSum idSum xs).drop 1) s

/-- VCAV.S (R283). -/
def execVcavS (g : Guard) (d a : Reg) (s : State) : Out := foldVec g d a (cavity stepSum idSum) s

/-- VCAVM.S (R283). -/
def execVcavmS (g : Guard) (d a : Reg) (s : State) : Out := foldVec g d a (cavity stepMax idMax) s

/-- A lane of VDOT4.B: the exact sum, clamped (R283). -/
def dot4Lane (x y z : Word) : LaneRes 32 :=
  let t (k : Nat) : Int := ((x >>> (8 * k)).setWidth 8).toInt * ((y >>> (8 * k)).setWidth 8).toInt
  clampLane 32 (z.toInt + t 0 + t 1 + t 2 + t 3)

/-- VDOT4.B (R283): guarded as a whole by lane 0. -/
def execVdot4B (g : Guard) (d a b : Reg) (s : State) : Out :=
  instr g (fun s => laneOp 32 true .always d a b dot4Lane s) s

/-! ## Conversions (R127, R128, R284) -/

/-- A value and its sign of being signalling, rounded to a format. -/
def convert (f : Fmt) (rm : RM) (v : FVal) : FRes := f.deliver rm v.isSig v

/-- Convert 32 elements: source width, destination width; a narrowing form keeps the bits beyond and reads vD (R176). -/
def vcvt (sw dwid : Nat) (g : Guard) (d a : Reg) (f : BitVec sw → LaneRes dwid) (s : State) : Act := do
  if dwid < 32 then s.noStream d else s.streamUse d true
  let (vals, s1) ← s.sources [a]
  s1.writeLanes g dwid 32 id d fun l => f (lane sw l (valOf vals a))

/-- VCVT.S.BF (R284): exact. -/
def execVcvtSBf (g : Guard) (d a : Reg) (s : State) : Out :=
  instrLanes g (vcvt 16 32 g d a fun x => ofF (convert fp32 .rne (bf16.val x.toNat))) s

/-- VCVT.BF.S (R284). -/
def execVcvtBfS (g : Guard) (d a : Reg) (s : State) : Out :=
  instrLanes g (vcvt 32 16 g d a fun x => ofF (convert bf16 .rne (fp32.val x.toNat))) s

/-- VCVT.S.W (R284). -/
def execVcvtSW (g : Guard) (d a : Reg) (s : State) : Out :=
  instrLanes g (fun s => vcvt 32 32 g d a (fun x => ofF (convert fp32 s.rm (FVal.ofInt x.toInt))) s) s

/-- VCVT.W.S (R284): saturating. -/
def execVcvtWS (g : Guard) (d a : Reg) (s : State) : Out :=
  instrLanes g (fun s => vcvt 32 32 g d a (fun x =>
    let r := (fp32.val x.toNat).toInt s.rm (-(2 ^ 31)) (2 ^ 31 - 1)
    (BitVec.ofInt 32 r.1, r.2, false)) s) s

/-- A scale register holds a finite value that FP32 represents exactly (R128). -/
def scaleGood (v : DWord) : Bool :=
  match fp64.val v.toNat with
  | .fin s m e => decide ((fp32.round .rne s m e false).2 = 0)
  | _ => false

/-- The product of an element and its scale, exact, then rounded once (R127). DESIGN CHOICE: an infinity with a scale of 0 is 0 × ∞, the
canonical NaN with NV (log 83). -/
def scaled (f : Fmt) (rm : RM) (x : FVal) (scale : DWord) : FRes :=
  let p := x.mul (fp64.val scale.toNat)
  f.deliver rm (p.2 || x.isSig) p.1

/-- A conversion with a scale: the scale is checked before any lane changes (R128, R284). -/
def vcvtScaled (sw dwid : Nat) (g : Guard) (d a b : Reg) (f : RM → DWord → BitVec sw → FRes) (s : State) : Out :=
  instrLanes g (fun s => do
    check (scaleGood (s.rdF b)) 0x0E 0 (dw (1 * 2 ^ 6))
    vcvt sw dwid g d a (fun x => ofF (f s.rm (s.rdF b) x)) s) s

/-- VCVT.E4.S (R284). -/
def execVcvtE4S (g : Guard) (d a b : Reg) (s : State) : Out :=
  vcvtScaled 32 8 g d a b (fun _ sc x => scaled e4m3 .rne (fp32.val x.toNat) sc) s

/-- VCVT.S.E4 (R284). -/
def execVcvtSE4 (g : Guard) (d a b : Reg) (s : State) : Out :=
  vcvtScaled 8 32 g d a b (fun rm sc x => scaled fp32 rm (e4m3.val x.toNat) sc) s

/-- VCVT.E5.S (R284). -/
def execVcvtE5S (g : Guard) (d a b : Reg) (s : State) : Out :=
  vcvtScaled 32 8 g d a b (fun _ sc x => scaled e5m2 .rne (fp32.val x.toNat) sc) s

/-- VCVT.S.E5 (R284). -/
def execVcvtSE5 (g : Guard) (d a b : Reg) (s : State) : Out :=
  vcvtScaled 8 32 g d a b (fun rm sc x => scaled fp32 rm (e5m2.val x.toNat) sc) s

end Sys2Proof.Machine
end

