-- ==== Sys2Proof/Machine/Xf8.lean ====
section
/-! DEFINITION. XF8 blocks and tiles (R129 to R135), sparse rows (R136), and XENC and XDEC (R306, R307). -/

namespace Sys2Proof.Machine

/-! ## Decoding (R129 to R132) -/

/-- The header of a block: SCALE, E0, T, LEN, and whether a reserved bit is set. -/
structure XfHeader where
  scale : Nat
  e0    : Nat
  t     : Nat
  len   : Nat
  res   : Bool
deriving DecidableEq, Repr

/-- Read a header from the first four bytes of a block. -/
def xfHeader (w : Nat) : XfHeader :=
  { scale := w % 256, e0 := w / 2 ^ 8 % 16, t := w / 2 ^ 12 % 4, len := w / 2 ^ 16 % 512,
    res := decide (w / 2 ^ 14 % 4 ≠ 0) || decide (w / 2 ^ 25 ≠ 0) }

/-- The length of a block in bytes. -/
def XfHeader.bytes (h : XfHeader) : Nat := 36 + 4 * ((h.len + 31) / 32)

/-- Bit j of the plane, least significant first in each byte. -/
def planeBit (plane : Nat) (j : Nat) : Nat := plane / 2 ^ j % 2

/-- Four bits from j on, most significant first. -/
def planeField (plane j : Nat) : Nat :=
  8 * planeBit plane j + 4 * planeBit plane (j + 1) + 2 * planeBit plane (j + 2) + planeBit plane (j + 3)

/-- One exponent code at bit j: the exponent and the bits it takes, or none for a code that is not allowed (R130, R132). -/
def xfExp (t e0 plane j : Nat) : Option (Nat × Nat) :=
  let up : Option Nat := if e0 = 15 then none else some (e0 + 1)
  let down : Option Nat := if e0 = 0 then none else some (e0 - 1)
  match t with
  | 0 =>
    if planeBit plane j = 0 then some (e0, 1)
    else if planeBit plane (j + 1) = 0 then up.map fun e => (e, 2)
    else if planeBit plane (j + 2) = 0 then down.map fun e => (e, 3)
    else some (planeField plane (j + 3), 7)
  | 1 =>
    match planeBit plane j, planeBit plane (j + 1) with
    | 0, 0 => some (e0, 2)
    | 0, _ => up.map fun e => (e, 2)
    | _, 0 => down.map fun e => (e, 2)
    | _, _ => some (planeField plane (j + 2), 6)
  | 2 => some (planeField plane j, 4)
  | _ => none

/-- The exponents of `n` elements from bit j on, and the bit after them. -/
def xfExps (t e0 plane : Nat) : Nat → Nat → Option (List Nat × Nat)
  | j, 0 => some ([], j)
  | j, n + 1 =>
    match xfExp t e0 plane j with
    | none => none
    | some (e, k) => (xfExps t e0 plane (j + k) n).map fun r => (e :: r.1, r.2)

/-- A decoded block: its scale and the 64 E4M3 codes. -/
structure XfBlock where
  scale : Nat
  codes : List Nat
deriving DecidableEq, Repr

/-- The code of element i: sign and mantissa from its nibble, exponent from the plane (R131). -/
def xfCode (nibbles i e : Nat) : Nat :=
  let n := nibbles / 16 ^ i % 16
  n / 8 * 128 + e * 8 + n % 8

/-- Decode the bytes of a block, as one little-endian number, unless it breaks R132. -/
def xfDecode (v : Nat) : Option XfBlock :=
  let h := xfHeader (v % 2 ^ 32)
  let nib := v / 2 ^ 32 % 2 ^ 256
  let plane := v / 2 ^ 288 % 2 ^ (32 * ((h.len + 31) / 32))
  if h.res || 448 < h.len || decide (h.t = 3) || decide (plane / 2 ^ h.len ≠ 0) then none
  else match xfExps h.t h.e0 plane 0 64 with
    | none => none
    | some (es, j) =>
      if j = h.len then some { scale := h.scale, codes := (upto 64).map fun i => xfCode nib i (es.getD i 0) } else none

/-! ## Encoding (R133) -/

/-- The exponent field of an E4M3 code. -/
def e4exp (c : Nat) : Nat := c / 8 % 16

/-- The code of an exponent under a table: its bits, first read first (R130, R133). -/
def xfBits (t e0 e : Nat) : List Nat :=
  let f := [e / 8 % 2, e / 4 % 2, e / 2 % 2, e % 2]
  match t with
  | 0 => if e = e0 then [0] else if e = e0 + 1 then [1, 0] else if e + 1 = e0 then [1, 1, 0] else [1, 1, 1] ++ f
  | 1 => if e = e0 then [0, 0] else if e = e0 + 1 then [0, 1] else if e + 1 = e0 then [1, 0] else [1, 1] ++ f
  | _ => f

/-- The most frequent exponent, ties to the smallest. -/
def modeExp (codes : List Nat) : Nat :=
  let n (f : Nat) : Nat := (codes.filter fun c => e4exp c == f).length
  (upto 16).foldl (fun b f => if n b < n f then f else b) 0

/-- The plane of a table. -/
def xfPlane (t e0 : Nat) (codes : List Nat) : List Nat := (codes.map fun c => xfBits t e0 (e4exp c)).flatten

/-- Block length in bytes for a plane length in bits. -/
def blockBytes (len : Nat) : Nat := 36 + 4 * ((len + 31) / 32)

/-- The table with the shortest block, ties to the lower. -/
def xfTable (e0 : Nat) (codes : List Nat) : Nat :=
  let n (t : Nat) : Nat := blockBytes (xfPlane t e0 codes).length
  if n 0 ≤ n 1 ∧ n 0 ≤ n 2 then 0 else if n 1 ≤ n 2 then 1 else 2

/-- A little-endian number from bits, the first in bit 0. -/
def bitsNat : List Nat → Nat
  | [] => 0
  | b :: r => b + 2 * bitsNat r

/-- The nibbles of the codes, element 0 lowest. -/
def nibblesNat : List Nat → Nat
  | [] => 0
  | c :: r => c / 128 % 2 * 8 + c % 8 + 16 * nibblesNat r

/-- The block of 64 codes and a scale: its bytes (R129, R133). -/
def xfEncode (codes : List Nat) (scale : Nat) : List Byte :=
  let e0 := modeExp codes
  let t := xfTable e0 codes
  let p := xfPlane t e0 codes
  leBytes (blockBytes p.length)
    (scale + e0 * 2 ^ 8 + t * 2 ^ 12 + p.length * 2 ^ 16 + nibblesNat codes * 2 ^ 32 + bitsNat p * 2 ^ 288)

/-! ## XENC and XDEC -/

/-- The bound of `n` bytes, then 4-byte alignment (R306, R307). -/
def xfAddr (a : DWord) (n : Nat) : Except Stop Nat := spadCheck a n 4

/-- XENC (R306): plain stores; the range check covers 68 bytes. -/
def execXenc (g : Guard) (d a b : Reg) (s : State) : Out :=
  instr g (fun s => do
    s.memGate
    s.relWait
    let x ← s.rdX b
    s.regReady d
    let (vals, s1) ← s.sources [a]
    let p ← xfAddr x 68
    let v := valOf vals a
    let blk := xfEncode ((upto 64).map fun i => (lane 8 i v).toNat) (lane 8 64 v).toNat
    return (s1.spadPutBytes p blk).putX d (dw blk.length)) s

/-- XDEC (R307): a block that breaks R132 is 0x0E, with FADDR the block's address. -/
def execXdec (g : Guard) (d a : Reg) (s : State) : Out :=
  instr g (fun s => do
    s.memGate
    s.streamUse d true
    let x ← s.rdX a
    let p ← xfAddr x 36
    let n := (xfHeader (s.spadNat p 4)).bytes
    s.spadSound p 4
    check (decide (p + n ≤ 0x40000)) 0x06 x
    s.spadSound p n
    match xfDecode (s.spadNat p n) with
    | none => fault 0x0E x (dw (2 * 2 ^ 6))
    | some blk =>
      let s1 ← s.writeVec d (ofLanes 8 (fun i => BitVec.ofNat 8 (if i < 64 then blk.codes.getD i 0 else blk.scale)) 65)
      return s1.spadSeen p n) s

/-! ## Tiles (R134 to R136) -/

/-- The value of an XF8 element: E4M3 times the block's scale; a scale of 0xFF is NaN (R121, R131). -/
def xfVal (scale code : Nat) : FVal :=
  if scale = 255 then .nan false
  else match e4m3.val code with
    | .fin s m e => .fin s m (e + scale - 127)
    | v => v

/-- The blocks of a tile from an address on: codes with their blocks' scales and the address behind, unless a block or its
place breaks R132. -/
def xfTile (read : Nat → Nat → Nat) : Nat → Nat → Option (List (Nat × Nat) × Nat)
  | a, 0 => some ([], a)
  | a, b + 1 =>
    let n := (xfHeader (read a 4)).bytes
    if 0x40000 < a + n then none
    else match xfDecode (read a n) with
      | none => none
      | some blk => (xfTile read (a + n) b).map fun r => (blk.codes.map (·, blk.scale) ++ r.1, r.2)

/-- The tile that entry j of a directory names (R135). -/
def xfEntry (read : Nat → Nat → Nat) (dir j : Nat) : Option (List (Nat × Nat)) :=
  let e := read (dir + 4 * j) 4
  let a := dir + 4 * (e % 2 ^ 16)
  let len := 4 * (e / 2 ^ 16 % 2 ^ 16)
  if 0x40000 < a + len then none
  else match xfTile read a 4 with
    | none => none
    | some (els, q) => if q = a + len then some els else none

/-- The place of the k-th set bit of a mask among its eight positions: what stands at position j (R136). -/
def sparsePos (codes mask j : Nat) : Nat :=
  if mask / 2 ^ j % 2 = 0 then 0
  else codes / 256 ^ ((upto j).filter fun i => decide (mask / 2 ^ i % 2 = 1)).length % 256

/-- A sparse row of two groups of N codes and a mask each: 16 codes, unless a mask is malformed (R136). -/
def sparseRow (n : Nat) (v : Nat) : Option (List Nat) :=
  let grp (i : Nat) : Nat × Nat := (v / 256 ^ (i * (n + 1)) % 256 ^ n, v / 256 ^ (i * (n + 1) + n) % 256)
  let good (m : Nat) : Bool := decide (((upto 8).filter fun j => decide (m / 2 ^ j % 2 = 1)).length = n)
  if good (grp 0).2 && good (grp 1).2 then
    some ((upto 8).map (sparsePos (grp 0).1 (grp 0).2) ++ (upto 8).map (sparsePos (grp 1).1 (grp 1).2))
  else none

/-- A sparse tile: 16 rows of 2 (N + 1) bytes. -/
def sparseTile (n : Nat) (v : Nat) : Nat → Nat → Option (List Nat)
  | _, 0 => some []
  | i, r + 1 =>
    match sparseRow n (v / 256 ^ (i * 2 * (n + 1)) % 256 ^ (2 * (n + 1))), sparseTile n v (i + 1) r with
    | some a, some b => some (a ++ b)
    | _, _ => none

end Sys2Proof.Machine
end

