-- ==== Sys2Proof/Machine/Matrix.lean ====
section
/-! DEFINITION. The matrix slice: gangs, the barrier, the steps and the ring, ownership, operation faults (R137, R138, R140
to R154) and the matrix instructions (R302 to R304). -/

namespace Sys2Proof.Machine

/-! ## Operands (R136, R137, R143) -/

/-- The value of an element code with its block scale. -/
def elemVal (fmt : MmaFmt) (p : Nat × Nat) : FVal :=
  match fmt with
  | .xf8 => xfVal p.2 p.1
  | .f8 | .s4 | .s2 => e4m3.val p.1
  | .g8 => e5m2.val p.1
  | .bf16 => bf16.val p.1
  | .i8 => FVal.ofInt (BitVec.ofNat 8 p.1).toInt

/-- 256 elements of `n` bytes each. -/
def denseChunk (read : Nat → Nat → Nat) (a n : Nat) : List (Nat × Nat) := (upto 256).map fun e => (read (a + n * e) n, 127)

/-- A sparse chunk: 16 rows of two groups of N codes and a mask. -/
def sparseChunk (read : Nat → Nat → Nat) (a n : Nat) : Option (List (Nat × Nat)) :=
  (sparseTile n (read a (32 * (n + 1))) 0 16).map fun l => l.map (·, 127)

/-- A chunk j from the operand address on; none for a format fault. -/
def chunkA (fmt : MmaFmt) (read : Nat → Nat → Nat) (a j : Nat) : Option (List (Nat × Nat)) :=
  match fmt with
  | .f8 | .g8 | .i8 => some (denseChunk read (a + 256 * j) 1)
  | .bf16 => some (denseChunk read (a + 512 * j) 2)
  | .s4 => sparseChunk read (a + 160 * j) 4
  | .s2 => sparseChunk read (a + 96 * j) 2
  | .xf8 => xfEntry read a j

/-- The B chunk at the operand address. -/
def chunkB (fmt : MmaFmt) (read : Nat → Nat → Nat) (a : Nat) : Option (List (Nat × Nat)) :=
  match fmt with
  | .bf16 => some (denseChunk read a 2)
  | .xf8 => xfEntry read a 0
  | _ => some (denseChunk read a 1)

/-- The byte ranges of a directory's entry j and of the tile that it names, as far as it lies in the scratchpad (R135). -/
def tileRanges (read : Nat → Nat → Nat) (dir j : Nat) : List (Nat × Nat) :=
  let e := read (dir + 4 * j) 4
  let a := dir + 4 * (e % 2 ^ 16)
  let len := 4 * (e / 2 ^ 16 % 2 ^ 16)
  (dir + 4 * j, 4) :: (if 0x40000 < a + len then [] else [(a, len)])

/-- The byte ranges of A chunk j. -/
def rangesA (fmt : MmaFmt) (read : Nat → Nat → Nat) (a j : Nat) : List (Nat × Nat) :=
  match fmt with
  | .f8 | .g8 | .i8 => [(a + 256 * j, 256)]
  | .bf16 => [(a + 512 * j, 512)]
  | .s4 => [(a + 160 * j, 160)]
  | .s2 => [(a + 96 * j, 96)]
  | .xf8 => tileRanges read a j

/-- The byte ranges of the B chunk. -/
def rangesB (fmt : MmaFmt) (read : Nat → Nat → Nat) (a : Nat) : List (Nat × Nat) :=
  match fmt with
  | .bf16 => [(a, 512)]
  | .xf8 => tileRanges read a 0
  | _ => [(a, 256)]

/-- Bytes that an A operand takes for a gang of g, and a B operand (R144). -/
def sizeA (fmt : MmaFmt) (g : Nat) : Nat :=
  match fmt with
  | .f8 | .g8 | .i8 => 256 * g
  | .bf16 => 512 * g
  | .s4 => 160 * g
  | .s2 => 96 * g
  | .xf8 => 4 * g

/-- Bytes of a B operand. -/
def sizeB (fmt : MmaFmt) : Nat :=
  match fmt with
  | .bf16 => 512
  | .xf8 => 4
  | _ => 256

/-- The format takes its scales from f-registers (R137). -/
def hasScales (fmt : MmaFmt) : Bool :=
  match fmt with
  | .f8 | .g8 | .s4 | .s2 => true
  | .xf8 | .bf16 | .i8 => false

/-! ## A step (R138) -/

/-- The exact product of two scaled elements, and NV: for 0 × ∞ and for a signalling NaN. DESIGN CHOICE: each scale is taken to its own
element first, which decides whether a zero, an infinity and a quiet NaN together set NV (log 83). -/
def scaledProduct (sA sB a b : FVal) : FVal × Bool :=
  let p := sA.mul a
  let q := sB.mul b
  let r := p.1.mul q.1
  (r.1, p.2 || q.2 || r.2 || a.isSig || b.isSig)

/-- A floating-point element after a step: one rounding. -/
def fpElement (sA sB : FVal) (row col : List FVal) (acc : Word) : LaneRes 32 :=
  let ps := List.zipWith (scaledProduct sA sB) row col
  let c := fp32.val acc.toNat
  let terms := c :: ps.map (·.1)
  let both := terms.contains (.inf false) && terms.contains (.inf true)
  ofF (fp32.deliver .rne (both || c.isSig || ps.any (·.2)) (fsum .rne terms).1)

/-- An integer element after a step: exact, then clamped. -/
def intElement (row col : List FVal) (acc : Word) : LaneRes 32 :=
  clampLane 32 (acc.toInt + (List.zipWith (fun a b => a.scaled 0 * b.scaled 0) row col).foldl (· + ·) 0)

/-- The accumulator after a step, with the flags and the clamping of its elements. -/
def accStep (fmt : MmaFmt) (sA sB : FVal) (a b : List (Nat × Nat)) (acc : Acc) : Vector (LaneRes 32) 256 :=
  let av := (a.map (elemVal fmt)).toArray
  let bf : MmaFmt := match fmt with
    | .s4 | .s2 => .f8
    | f => f
  let bv := (b.map (elemVal bf)).toArray
  let z : FVal := .fin false 0 0
  Vector.ofFn fun e =>
    let row := (upto 16).map fun k => av.getD (16 * (e.val / 16) + k) z
    let col := (upto 16).map fun k => bv.getD (16 * k + e.val % 16) z
    if fmt = .i8 then intElement row col (acc.get e) else fpElement sA sB row col (acc.get e)

/-- The value of a recorded scale, 1 where the format takes none. -/
def scaleOf (fmt : MmaFmt) (v : DWord) : FVal := if hasScales fmt then fp64.val v.toNat else .fin false 1 0

/-! ## Gangs (R140, R146) -/

/-- The cores of the gang of a core, by gang index, as its own GANG_CFG names it. -/
def State.gang (s : State) (c : CoreId) : List CoreId :=
  let g := 2 ^ (s.core c).glog.toNat
  (upto g).map fun i => mkCore (c.val / g * g + i)

/-- The position, counted from the core's last GANG, of the operation at the head of its queue. -/
def Core.headPos (k : Core) : Nat := k.mHist.length - k.mq.length

/-- The barrier of the head of a core's queue completes: every core of its gang has posted its matching entry. DESIGN CHOICE: only that of
the head, so that a mismatch of an operation behind it is recorded once it heads the queue (log 91). -/
def State.barrierOpen (s : State) (c : CoreId) : Bool :=
  let k := s.core c
  k.mRun.isNone && !k.mq.isEmpty && (s.gang c).all fun d => decide (k.headPos < (s.core d).mHist.length)

/-- The lowest gang index whose entry differs from that of index 0, if any. -/
def State.mismatch (s : State) (c : CoreId) : Option Nat :=
  let n := (s.core c).headPos
  let es := (s.gang c).map fun d => (s.core d).mHist[n]?
  (upto es.length).find? fun i => es[i]? != es[0]?

/-- An operation passes its barrier on a core: it runs, or its mismatch is recorded. -/
def State.passBarrier (s : State) (c : CoreId) : State :=
  match (s.core c).mq with
  | [] => s
  | p :: _ =>
    let m := s.mismatch c
    s.modCore c fun k => { k with mRun := some { step := 0, start := k.accs.get p.n, hist := [], latch := [],
                                                 fault := m.map fun i => (0x0D, i) } }

/-- GANG_BARRIER_COMPLETE (R146): on every core of the gang whose own barrier completes. -/
def State.tryBarrier (s : State) (c : CoreId) : Option State :=
  if s.barrierOpen c then
    some (((s.gang c).filter fun d => s.barrierOpen d).foldl (fun t d =>
      (s.passBarrier d |> fun u => t.modCore d fun k => { k with mRun := (u.core d).mRun })) s)
  else none

/-- GANG_BARRIER_COMPLETE. -/
def execGangBarrierComplete (c : CoreId) (s : State) : Out := happen s (s.tryBarrier c)

/-! ## Steps (R147, R152, R153) -/

/-- Free values that choose between the old and the new value of each scratchpad word (R152). -/
def wordCount : Nat := 32768

/-- A byte that an operation reads: of the scratchpad at posting, or of the scratchpad now, for each word alike. -/
def eitherByte (snap now : Memory) (free a : Nat) : Byte :=
  if Config.free 1 (free + a / 8) = 1 then snap.get a else now.get a

/-- Bytes that an operation reads, as a number. -/
def eitherRead (snap now : Memory) (free a n : Nat) : Nat := leNat ((upto n).map fun i => eitherByte snap now free (a + i))

/-- Some word of byte ranges of a core's scratchpad is lost (R367). -/
def Core.lostIn (k : Core) (l : List (Nat × Nat)) : Bool := l.any fun p => (wordsOf p.1 p.2).any fun w => k.spadLost.contains w

/-- What a core reads in a step: its A chunk and its latch, or the cause of its fault: 0x18 where a word that it reads is lost (DEDUCED,
log 86), 0x0E for a format fault. -/
def Core.readStep (k : Core) (p : MmaPost) (r : MmaRun) (i g free : Nat) : Except Byte (List (Nat × Nat) × List (Nat × Nat)) :=
  let rd := eitherRead p.snap k.spad free
  let j := (i + r.step) % g
  if k.lostIn (rangesA p.fmt rd p.xa.toNat j ++ if r.step = 0 then rangesB p.fmt rd p.xb.toNat else []) then .error 0x18
  else match (if r.step = 0 then chunkB p.fmt rd p.xb.toNat else some r.latch), chunkA p.fmt rd p.xa.toNat j with
    | some b, some a => .ok (a, b)
    | _, _ => .error 0x0E

/-- A core with its running operation. -/
structure Runner where
  core : CoreId
  post : MmaPost
  run  : MmaRun
deriving DecidableEq, Repr

/-- A core with the operation that it runs, if it is at a position since its last GANG and at a step. -/
def State.runner? (s : State) (pos step : Nat) (d : CoreId) : Option Runner :=
  match (s.core d).mq, (s.core d).mRun with
  | p :: _, some r => if (s.core d).headPos = pos ∧ r.step = step ∧ r.fault.isNone then some ⟨d, p, r⟩ else none
  | _, _ => none

/-- The cores of a gang that run the operation of one of them and stand at its step, by gang index: all of them when the next
step, in lockstep, can be taken (R147). DESIGN CHOICE: an operation whose peers' matching ones have left already never steps, and its
accumulator stays owned (log 91). -/
def State.runners (s : State) (c : CoreId) (step : Nat) : List Runner :=
  (s.gang c).filterMap (s.runner? (s.core c).headPos step)

/-- Record a fault for the operation of a core. -/
def State.recordFault (s : State) (c : CoreId) (cause : Byte) (i : Nat) : State :=
  s.modCore c fun k => { k with mRun := k.mRun.map fun r => { r with fault := some (cause, i) } }

/-- A core's accumulator takes a step (R138): flags go to the context that posted the operation (R125). DESIGN CHOICE: they stay
set if a later step of the operation is faulted, and the faulted step sets none (log 73). -/
def State.takeStep (s : State) (q : Runner) (res : Vector (LaneRes 32) 256) (latch : List (Nat × Nat)) : State :=
  let acc : Acc := Vector.ofFn fun e => (res.get e).1
  let fl := res.toList.foldl (fun a r => a ||| r.2.1) (0 : BitVec 5)
  let sat := res.toList.any fun r => r.2.2
  s.modCore q.core fun k =>
    { (k.modCtx q.post.ctx fun x => { x with fflags := x.fflags ||| fl }) with
      accs := vput k.accs q.post.n acc
      iflags := if sat then k.iflags ||| 1 else k.iflags
      mRun := some { q.run with step := q.run.step + 1, hist := q.run.hist ++ [acc], latch := latch } }

/-- The lowest gang index whose core detects a fault in a step, and its cause (R153). -/
def firstError {α : Type} (l : List (Except Byte α)) : Option (Nat × Byte) :=
  (upto l.length).findSome? fun i => match l[i]? with
    | some (Except.error c) => some (i, c)
    | _ => none

/-- MMA_STEP (R147): a step on every core of the gang, in lockstep; a format fault is recorded on all of them (R153), and the step
then sets no flag on any (DESIGN CHOICE, log 73). -/
def State.tryMma (s : State) (c : CoreId) : Option State :=
  match (s.core c).mRun with
  | none => none
  | some r =>
    let qs := s.runners c r.step
    let g := (s.gang c).length
    if r.fault.isSome || decide (g ≤ r.step) || decide (qs.length ≠ g) then none
    else
      let reads := (upto g).map fun i => match qs[i]? with
        | some q => (s.core q.core).readStep q.post q.run i g (s.freeCtr + i * wordCount)
        | none => .error 0x0E
      let s1 := { s with freeCtr := s.freeCtr + g * wordCount }
      match firstError reads with
      | some (b, cause) => some ((upto g).foldl (fun t i => match qs[i]? with
          | some q => t.recordFault q.core (if i = b then cause else 0x0D) b
          | none => t) s1)
      | none => some ((upto g).foldl (fun t i => match qs[i]?, reads.getD i (.error 0x0E) with
          | some q, .ok (a, own) =>
            let j := (i + r.step) % g
            let b := match reads.getD j (.error 0x0E) with
              | .ok p => p.2
              | .error _ => []
            let sB := match qs[j]? with
              | some p => p.post.sB
              | none => 0
            t.takeStep q (accStep q.post.fmt (scaleOf q.post.fmt q.post.sA) (scaleOf q.post.fmt sB) a b
              ((s.core q.core).accs.get q.post.n)) own
          | _, _ => t) s1)

/-- MMA_STEP. -/
def execMmaStep (c : CoreId) (s : State) : Out := happen s (s.tryMma c)

/-- The head of a core's queue leaves. -/
def Core.leaveQueue (k : Core) : Core := { k with mq := k.mq.tail, mRun := none }

/-- What an observer of an accumulator's operation comes after: what its poster had seen (R105). -/
def Core.noteAcc (k : Core) (p : MmaPost) : Core := { k with accSeen := vmod k.accSeen p.n fun m => joinSeen m p.seen }

/-- The operation of a core has taken its last step. -/
def Core.lastStep (k : Core) : Bool :=
  match k.mRun with
  | some r => r.fault.isNone && decide (r.step = 2 ^ k.glog.toNat)
  | none => false

/-- An accumulator leaves ownership on a core, with the pulse of its source (R149). -/
def State.leaveOp (s : State) (c : CoreId) : State :=
  match (s.core c).mq with
  | p :: _ => (s.modCore c fun k => (k.noteAcc p).leaveQueue).pulseOf c (4 + p.n.val) p.seen
  | [] => s

/-- ACCUMULATOR_LEAVES_OWNERSHIP (R149): in the cycle after the last step, on every core of the gang. -/
def State.tryLeave (s : State) (c : CoreId) : Option State :=
  if (s.core c).lastStep then some (((s.gang c).filter fun d => (s.core d).lastStep).foldl State.leaveOp s) else none

/-- ACCUMULATOR_LEAVES_OWNERSHIP. -/
def execAccumulatorLeavesOwnership (c : CoreId) (s : State) : Out := happen s (s.tryLeave c)

/-- An operation ends on a core with the fault recorded: its accumulator is restored, its flag set, no pulse (R153). DESIGN CHOICE:
where a fault of the accumulator is still unraised, the later one takes its place (log 73). -/
def Core.endFault (k : Core) : Core :=
  match k.mRun, k.mq with
  | some r, p :: _ => match r.fault with
    | some (cause, i) =>
      { (k.noteAcc p).leaveQueue with
        accs := vput k.accs p.n r.start, accFault := vput k.accFault p.n (some ⟨cause, i, p.pc⟩), mCause := cause, mFidx := i }
    | none => k
  | _, _ => k

/-- MMA_OPERATION_FAULT (R153): on every core of the gang. -/
def State.tryMmaFault (s : State) (c : CoreId) : Option State :=
  match (s.core c).mRun with
  | some r => if r.fault.isSome then some ((s.gang c).foldl (fun t d => t.modCore d Core.endFault) s) else none
  | none => none

/-- MMA_OPERATION_FAULT. -/
def execMmaOperationFault (c : CoreId) (s : State) : Out := happen s (s.tryMmaFault c)

/-! ## Ownership and consumers (R150, R154) -/

/-- An accumulator is owned: a posted operation that has not left names it. -/
def Core.owned (k : Core) (n : Fin 4) : Bool := k.mq.any fun p => p.n == n

/-- An MSTO of an accumulator is still writing. -/
def Core.storing (k : Core) (n : Fin 4) : Bool := k.engW.any fun w => w.acc == some n

/-- FINFO of a recorded operation fault (R154). -/
def accInfo (n : Fin 4) (f : OpFault) : DWord := dw (f.fidx + n.val * 2 ^ 4)

/-- A consumer raises the recorded fault of its accumulator, which clears the flag (R154). -/
def State.raiseOp (s : State) (n : Fin 4) : Except Stop Unit :=
  match s.me.accFault.get n with
  | none => .ok ()
  | some f => .error (.trapIn ⟨f.cause, f.pc, accInfo n f⟩ (s.modMe fun k => { k with accFault := vput k.accFault n none }))

/-- The wait of R150. -/
def State.accWait (s : State) (n : Fin 4) : Except Stop Unit := do
  s.raiseOp n
  waitUntil (!s.me.owned n && !s.me.storing n)

/-- What an element of an accumulator reads as: its value; while owned, its value before the running operation or after
some whole number of its steps (R150). -/
def Core.element (k : Core) (n : Fin 4) (free : Nat) (e : Fin 256) : Word :=
  match k.mq, k.mRun with
  | p :: _, some r =>
    if p.n = n then
      let hs := r.start :: r.hist
      match hs[(Config.free 64 (free + e.val)).toNat % hs.length]? with
      | some a => a.get e
      | none => (k.accs.get n).get e
    else (k.accs.get n).get e
  | _, _ => (k.accs.get n).get e

/-- The elements of an accumulator as an instruction reads them. -/
def State.readAcc (s : State) (n : Fin 4) : Acc × State :=
  (Vector.ofFn fun e => s.me.element n s.freeCtr e, { s with freeCtr := s.freeCtr + 256 })

/-! ## The instructions (R142, R144, R302 to R304, R141) -/

/-- A scale register for a format that takes scales: R128. -/
def scaleCheck (fmt : MmaFmt) (v : DWord) : Except Stop Unit := check (!hasScales fmt || scaleGood v) 0x0E 0 (dw (2 ^ 6))

/-- MMA: the checks of R144, then the fault of its accumulator (R154), then posting (R145), which comes after every access before
it: a release at CORE towards the operation (R94, R105). -/
def execMma (c : Fin 8) (n : Fin 4) (a b : Reg) (fmt : MmaFmt) (s : State) : Out :=
  instr .always (fun s => do
    check (hasScales fmt || decide (c = 0)) 0x02
    s.syncPoint
    s.memGate
    let x ← s.rdX a
    let y ← s.rdX b
    let g := 2 ^ s.me.glog.toNat
    let al := if fmt = .xf8 then 4 else 32
    check (decide (x.toNat % al = 0)) 0x05 x
    check (decide (y.toNat % al = 0)) 0x05 y
    check (decide (x.toNat + sizeA fmt g ≤ 0x40000)) 0x06 x
    check (decide (y.toNat + sizeB fmt ≤ 0x40000)) 0x06 y
    let sA := s.rdF ⟨c.val, by omega⟩
    let sB := s.rdF ⟨(c.val + 1) % 8, by omega⟩
    scaleCheck fmt sA
    scaleCheck fmt sB
    s.raiseOp n
    s.settled
    waitUntil (decide (s.me.mq.length < 4))
    let p : MmaPost := { fmt := fmt, n := n, glog := s.me.glog.toNat, xa := x, xb := y, sA := sA, sB := sB,
                         ctx := s.curCtx, pc := s.cx.pc, snap := s.me.spad, seen := s.cx.seen }
    return s.modMe fun k => { k with mq := k.mq ++ [p], mHist := k.mHist ++ [(k.glog.toNat, fmt, n)] }) s

/-- MWAIT: an acquire at CORE. -/
def execMwait (g : Guard) (n : Fin 4) (s : State) : Out :=
  instr g (fun s => do
    s.syncPoint
    s.accWait n
    return s.syncWith s.cur s.curCtx (s.me.accSeen.get n)) s

/-- MZERO. -/
def execMzero (g : Guard) (n : Fin 4) (s : State) : Out :=
  instr g (fun s => do
    s.accWait n
    return s.modMe fun k => { k with accs := vput k.accs n (Vector.replicate 256 0) }) s

/-- An index of an accumulator. -/
def accIx (e : Nat) : Fin 256 := ⟨e % 256, Nat.mod_lt _ (by decide)⟩

/-- MRD (R303): it does not wait. -/
def execMrd (g : Guard) (d : Reg) (a : Fin 4) (b : Reg) (s : State) : Out :=
  instr g (fun s => do
    s.streamUse d true
    let y ← s.rdX b
    s.raiseOp a
    let (v, s1) := s.readAcc a
    let r := y.toNat % 8
    s1.writeVec d (ofLanes 32 (fun l => v.get (accIx (16 * (2 * r + l / 16) + l % 16))) 32)) s

/-- Words of 8 bytes that a store still has to write. -/
def storeWords (a : Nat) (n : Fin 4) (bytes : List Byte) : List EngWrite :=
  (upto (bytes.length / 8)).map fun i =>
    { addr := a + 8 * i, bytes := (bytes.drop (8 * i)).take 8, full := true, acc := some n, mcast := none, grp := none }

/-- MSTO.S and MSTO.BF (R151): the elements are copied at issue and written by the engine, after every scratchpad access of the
context that precedes, the elements pushed to its output streams among them (R323). -/
def msto (w : Nat) (n : Fin 4) (a : Reg) (f : Word → FRes) (s : State) : Act := do
  s.memGate
  let x ← s.rdX a
  let p ← spadEA x (256 * w)
  s.raiseOp n
  waitUntil (s.pushesDone s.cur s.curCtx)
  let (v, s1) := s.readAcc n
  let rs := v.toList.map f
  let s2 := s1.orFlags (rs.foldl (fun a r => a ||| r.2) 0)
  return s2.modMe fun k => { k with engW := k.engW ++ storeWords p n ((rs.map fun r => leBytes w r.1).flatten) }

/-- MSTO.S. -/
def execMstoS (g : Guard) (n : Fin 4) (a : Reg) (s : State) : Out := instr g (msto 4 n a fun v => (v.toNat, 0)) s

/-- MSTO.BF: FP32 rounded to BF16. -/
def execMstoBf (g : Guard) (n : Fin 4) (a : Reg) (s : State) : Out :=
  instr g (msto 2 n a fun v => convert bf16 .rne (fp32.val v.toNat)) s

/-- Perform one write of an engine to its scratchpad: the word becomes full (R61). -/
def Core.engineStore (k : Core) (w : EngWrite) : Core :=
  if w.full then k.deliver w.addr w.bytes else k.spadWrite w.addr w.bytes

/-- One word of an engine's writes; those of an accumulator store go in row-major order (R151), those of a
multicast store fail at a fenced core (R188). -/
def State.engineWrite (s : State) (c : CoreId) (i : Nat) : Option State :=
  let k := s.core c
  match k.engW[i]? with
  | none => none
  | some w =>
    if w.acc.isSome && (k.engW.take i).any (fun v => v.acc == w.acc) || w.mcast.isSome && k.fenced then none
    else some (s.setCore c ({ k with engW := listDrop k.engW i }.engineStore w))

/-- MSTO_COMPLETE (R304): what is left of an accumulator's stores is written. -/
def State.tryMsto (s : State) (c : CoreId) (n : Fin 4) : Option State :=
  let k := s.core c
  if k.storing n then
    some (s.setCore c ((k.engW.filter fun w => w.acc == some n).foldl Core.engineStore
      { k with engW := k.engW.filter fun w => w.acc != some n }))
  else none

/-- MSTO_COMPLETE. -/
def execMstoComplete (c : CoreId) (n : Fin 4) (s : State) : Out := happen s (s.tryMsto c n)

/-- log2 of a gang size. -/
def gangLog (v : DWord) : Option (BitVec 3) :=
  match v.toNat with
  | 1 => some 0
  | 2 => some 1
  | 4 => some 2
  | 8 => some 3
  | 16 => some 4
  | _ => none

/-- The matrix slice of a core is empty: nothing queued, nothing owned (R141). -/
def Core.sliceIdle (k : Core) : Bool := k.mq.isEmpty

/-- A core takes a gang size (R141). -/
def Core.setGang (k : Core) (g : BitVec 3) : Core := { k with glog := g, mHist := [] }

/-- GANG (R141). -/
def execGang (g : Guard) (a : Reg) (s : State) : Out :=
  instr g (fun s => do
    let x ← s.rdX a
    match gangLog x with
    | none => fault 0x0D
    | some l =>
      waitUntil s.me.sliceIdle
      return s.modMe fun k => k.setGang l) s

/-- MSTAT's status word (R154). -/
def matrixStatus (k : Core) : DWord :=
  let bits (f : Fin 4 → Bool) : Nat := b2n (f 0) + 2 * b2n (f 1) + 4 * b2n (f 2) + 8 * b2n (f 3)
  dw (bits k.owned + bits (fun n => (k.accFault.get n).isSome) * 2 ^ 4 + k.mq.length * 2 ^ 8 + k.mCause.toNat * 2 ^ 16 +
    k.mFidx * 2 ^ 24 + bits k.storing * 2 ^ 28)

/-- MSTAT. -/
def execMstat (g : Guard) (d : Reg) (s : State) : Out := instr g (fun s => s.wrX d (matrixStatus s.me)) s

end Sys2Proof.Machine
end

