-- ==== Sys2Proof/Machine/Groups.lean ====
section
/-! DEFINITION. The combining network: groups, rounds, aborts (R180 to R187, R309, R310). -/

namespace Sys2Proof.Machine

/-! ## Folds (R183, R184) -/

/-- ⊕ of two lanes. -/
def groupOp (op ty : Nat) (a b : Word) : Word :=
  let fp (f : Fmt) (g : Nat → Nat → FRes) : Word :=
    BitVec.ofNat 32 (g (a.toNat % 2 ^ (1 + f.eb + f.mb)) (b.toNat % 2 ^ (1 + f.eb + f.mb))).1
  match op, ty with
  | 0, 0 => a + b
  | 0, 1 => fp fp32 (fp32.add .rne)
  | 0, _ => fp bf16 (bf16.add .rne)
  | 1, 0 => pickLane (fun p q => q.slt p) a b
  | 1, 1 => fp fp32 (fp32.pick true)
  | 1, _ => fp bf16 (bf16.pick true)
  | 2, 0 => pickLane BitVec.slt a b
  | 2, 1 => fp fp32 (fp32.pick false)
  | 2, _ => fp bf16 (bf16.pick false)
  | 3, _ => a &&& b
  | 4, _ => a ||| b
  | _, _ => a ^^^ b

/-- The identity of ⊕ (R183). -/
def groupId (op ty : Nat) : Word :=
  match op, ty with
  | 0, 0 => 0
  | 0, 1 => 0x80000000
  | 0, _ => 0x8000
  | 1, 0 => 0x80000000
  | 1, 1 => 0xFF800000
  | 1, _ => 0xFF80
  | 2, 0 => 0x7FFFFFFF
  | 2, 1 => 0x7F800000
  | 2, _ => 0x7F80
  | 3, 2 => 0xFFFF
  | 3, _ => 0xFFFFFFFF
  | _, _ => 0

/-- The results of one lane by rank (R183); a group of one member receives its own value, or the identity (R184). -/
def laneResults (op ty kind root : Nat) (xs : List Word) : List Word :=
  let f := groupOp op ty
  let i := groupId op ty
  let p := prefixes f i xs
  match kind with
  | 0 | 1 => if xs.length = 1 then xs else xs.map fun _ => p.getLastD i
  | 2 => if xs.length = 1 then xs else p.drop 1
  | 3 => p.take xs.length
  | 4 => if xs.length = 1 then [i] else List.zipWith f p (suffixes f i xs)
  | _ => xs.map fun _ => xs.getD root 0

/-- The results of a round by rank, each a list of lanes. -/
def Group.results (g : Group) : List (List Word) :=
  let inj := g.members.map fun m => m.inj.getD []
  let byLane := (upto g.count).map fun l => laneResults g.op g.ty g.kind g.root (inj.map fun x => x.getD l 0)
  (upto g.members.length).map fun r => byLane.map fun q => q.getD r 0

/-- Bytes of an element. -/
def Group.esize (g : Group) : Nat := if g.ty = 2 then 2 else 4

/-- A rank receives data in a round (R182): under REDUCE-ONE the root alone; under BROADCAST every rank (log 48). -/
def Group.receives (g : Group) (rank : Nat) : Bool := g.kind != 1 || rank == g.root

/-! ## Outcomes (R182, R186) -/

/-- The words that an extraction from the group of a slot writes: data, or only their full bits. -/
def Group.extWrites (g : Group) (i addr : Nat) (data : Option (List Word)) : List EngWrite :=
  let n := g.count * g.esize
  let bytes := match data with
    | some ws => (ws.map fun (w : Word) => leBytes g.esize w.toNat).flatten
    | none => []
  (upto ((n + 7) / 8)).map fun j =>
    { addr := addr + 8 * j, bytes := (bytes.drop (8 * j)).take 8, full := true, acc := none, mcast := none, grp := some i }

/-- The data of a member's outcome: none for an abort, or for a rank that receives nothing. -/
def Group.dataOf (g : Group) (rank : Nat) (m : Member) : Option (List Word) :=
  if m.outRes && g.receives rank then some m.data else none

/-- A group. -/
def State.group (s : State) (i : Nat) : Option Group := s.groups.find i

/-- Replace a group. -/
def State.setGroup (s : State) (i : Nat) (g : Group) : State := { s with groups := s.groups.put i g }

/-- What the members that injected in a round had seen (R106). -/
def Group.seenIn (g : Group) (round : Nat) : KMap Nat := g.seen.get [] round

/-- The outcome of a member's round is fixed: extractions that wait for it write, and their contexts acquire a result; source 8
pulses if the core injected there last (R106, R182). -/
def State.fixOutcome (s : State) (i rank : Nat) (res : Option (List Word)) : State :=
  match s.group i with
  | none => s
  | some g =>
    match g.members[rank]? with
    | none => s
    | some m =>
      let m2 := { m with inj := none, held := false, outRound := m.injRound, outRes := res.isSome, data := res.getD m.data,
                         rounds := m.rounds + 1 }
      let c := mkCore m.core
      let mine (e : Extx) : Bool := e.grp == i && e.rank == rank
      let posted := (s.core c).extx.filter mine
      let seen := if res.isSome then g.seenIn m.injRound else []
      let s1 := (s.setGroup i { g with members := listPut g.members rank m2 }).modCore c fun k =>
        { k with heldInj := removeNat k.heldInj i
                 extx := k.extx.filter fun e => !mine e
                 engW := k.engW ++ (posted.map fun e => g.extWrites i e.addr (g.dataOf rank m2)).flatten }
      let s2 := posted.foldl (fun (s : State) e => match e.ctx with
        | some h => s.syncWith c h seen
        | none => s) s1
      if (s2.core c).lastGroup = some i then s2.pulseOf c 8 seen else s2

/-- Members that have injected and have no outcome yet. -/
def Group.pending (g : Group) : List Nat := (upto g.members.length).filter fun r => match g.members[r]? with
  | some m => m.injRound != m.outRound
  | none => false

/-- A round is complete at the spanning pier: every member's injection of the round has left its core. The members that an
abort has reached have kept theirs in the network. -/
def Group.complete (g : Group) : Bool :=
  !g.pending.isEmpty && g.members.all fun m => m.inj.isSome && !m.held

/-- COLLECTIVE_ROUND_COMPLETE (R182): the result reaches every member whose outcome is not fixed. -/
def State.tryRound (s : State) (i : Nat) : Option State :=
  match s.group i with
  | none => none
  | some g =>
    if g.live && g.complete then
      let res := g.results
      let s1 := g.pending.foldl (fun t r => t.fixOutcome i r (some (res.getD r []))) s
      match s1.group i with
      | none => some s1
      | some g1 => some (s1.setGroup i { g1 with
          members := g1.members.map fun m => { m with inj := none }
          nres := if g.aborted then g1.nres + g.pending.length else g1.nres })
    else none

/-- COLLECTIVE_ROUND_COMPLETE. -/
def execCollectiveRoundComplete (grp : Nat) (s : State) : Out := happen s (s.tryRound grp)

/-- An abort reaches a member's level-0 pier: its outcome of the round is the abort unless the result is there (R186). An injection
stays in the network, where the round may still complete for others. A member that has not injected in the round has the abort as
its outcome too (log 74). -/
def State.abortAt (s : State) (i rank : Nat) : State :=
  match s.group i with
  | none => s
  | some g =>
    let s1 := s.setGroup i { g with aborting := removeNat g.aborting rank }
    match g.members[rank]? with
    | some m =>
      if m.injRound ≠ m.outRound then
        let s2 := s1.fixOutcome i rank none
        match s2.group i with
        | some g2 => if m.held then s2 else s2.setGroup i { g2 with
            members := listPut g2.members rank { (g2.members.getD rank m) with inj := m.inj } }
        | none => s2
      else if m.outRound < g.abRound then
        s1.setGroup i { g with aborting := removeNat g.aborting rank
                               members := listPut g.members rank { m with outRes := false, rounds := m.rounds + 1 } }
      else s1
    | none => s1

/-- COLLECTIVE_ABORT_ARRIVAL (R186). -/
def State.tryAbort (s : State) (i rank : Nat) : Option State :=
  match s.group i with
  | none => none
  | some g => if g.aborting.contains rank then some (s.abortAt i rank) else none

/-- COLLECTIVE_ABORT_ARRIVAL. -/
def execCollectiveAbortArrival (grp rank : Nat) (s : State) : Out := happen s (s.tryAbort grp rank)

/-! ## Descriptors and handles (R180, R181, R309) -/

/-- FINFO of cause 0x1B: why. -/
def grpFault {α : Type} (why : Nat) : Except Stop α := fault 0x1B 0 (dw why)

/-- The fields of a descriptor that are valid (R180, R181). -/
def descGood (ws : List DWord) : Bool :=
  let w := ws.getD 0 0
  let n := fld w 45 32
  let kind := fld w 7 5
  let root := fld w 28 16
  decide (fld w 2 0 ≤ 5) && decide (fld w 4 3 ≤ 2) && decide (kind ≤ 5) &&
    decide (fld w 14 8 ≤ if fld w 4 3 = 2 then 64 else 32) && !bit w 15 && decide (fld w 31 29 = 0) && decide (fld w 63 46 = 0) &&
    decide (1 ≤ n ∧ n ≤ 8192) && decide (root < n) && (kind == 1 || kind == 5 || root == 0) &&
    (upto 6).all fun i => decide (ws.getD (2 + i) 0 = 0)

/-- The 16-bit entries of a member list. -/
def memberList (b : List Byte) (n : Nat) : List Nat := (upto n).map fun i => leNat ((b.drop (2 * i)).take 2)

/-- `n` bytes from an address on, in `f` aligned doublewords at most, each translated by itself: a list may stand at any address and
span pages. -/
def State.readList (s : State) (va : DWord) (n : Nat) : Nat → Except Stop (List Byte × State)
  | 0 => .ok ([], s)
  | f + 1 => do
    if n = 0 then return ([], s)
    let m := wordPart va n
    let (e, s) ← s.globalEA va 1 .load
    let (v, s) ← s.readPart e 0 m
    let (r, s) ← s.readList (va + dw m) (n - m) f
    return (leBytes m v ++ r, s)

/-- Every entry is a core number and none appears twice. -/
def listGood (l : List Nat) : Bool := l.all (fun c => decide (c < 8192)) && decide l.Nodup

/-- A member as a group begins. -/
def newMember (c : Nat) : Member :=
  { core := c, joined := false, freed := false, inj := none, held := false, injRound := 0, outRound := 0, outRes := false,
    data := [], rounds := 0 }

/-- The rank of a core in a group. -/
def Group.rankOf (g : Group) (c : CoreId) : Option Nat :=
  (upto g.members.length).find? fun r => match g.members[r]? with
    | some m => m.core == c.val
    | none => false

/-- The handle of a group (R309). -/
def handleOf (i : Nat) (g : Group) : DWord := dw (i + g.gen.toNat * 2 ^ 16)

/-- The live group of a descriptor address. -/
def State.groupAt (s : State) (va : DWord) : Option (Nat × Group) := s.groups.find? fun e => e.2.live && e.2.desc == va

/-- A slot of the table that holds no live group: which one is open (log 29). -/
def State.freeGroup (s : State) : Option Nat × State :=
  let d := s.draw 10
  let free (i : Nat) : Bool := match s.group i with
    | some g => !g.live
    | none => true
  (((upto 1024).map fun i => (d.1.toNat + i) % 1024).find? free, d.2)

/-- A member joins. -/
def Group.join (g : Group) (c : CoreId) : Group := g.modMember c.val fun m => { m with joined := true }

/-- CGRP (R181, R310). -/
def execCgrp (g : Guard) (d a : Reg) (s : State) : Out :=
  instr g (fun s => do
    let x ← s.rdX a
    s.regReady d
    s.memGate
    let (e, s) ← s.globalEA x 64 .load
    match s.groupAt x with
    | some (i, q) =>
      match q.rankOf s.cur with
      | none => grpFault 2
      | some _ => return (s.setGroup i (q.join s.cur)).putX d (handleOf i q)
    | none =>
      let (ws, s) ← s.readWaits e 0 8
      checkIn s (descGood ws) 0x1B 0 0
      let w := ws.getD 0 0
      let n := fld w 45 32
      let (ls, s) ← s.readList (ws.getD 1 0) (2 * n) (n / 4 + 2)
      let l := memberList ls n
      checkIn s (listGood l) 0x1B 0 0
      checkIn s (l.contains s.cur.val) 0x1B 0 2
      match s.freeGroup with
      | (none, _) => .error .wait
      | (some i, s) =>
        let gen := match s.group i with
          | some q => q.gen + 1
          | none => 1
        let q : Group := { gen := gen, live := true, desc := x, op := fld w 2 0, ty := fld w 4 3, kind := fld w 7 5,
                           count := fld w 14 8, root := fld w 28 16, members := l.map newMember, aborted := false,
                           aborting := [], abRound := 0, nres := 0, seen := [] }
        return (s.setGroup i (q.join s.cur)).putX d (handleOf i q)) s

/-- Group(v): the group, its slot, and the issuing core's rank and member record (R309). -/
def State.groupOf (s : State) (v : DWord) : Except Stop (Nat × Group × Nat × Member) :=
  match s.group (fld v 9 0) with
  | none => grpFault 1
  | some g =>
    if !g.live || v != handleOf (fld v 9 0) g then grpFault 1
    else match g.rankOf s.cur with
      | none => grpFault 2
      | some r => match g.members[r]? with
        | none => grpFault 2
        | some m => if m.freed then grpFault 3 else .ok (fld v 9 0, g, r, m)

/-- An abort has reached a member. -/
def Group.abortedAt (g : Group) (rank : Nat) : Bool := g.aborted && !g.aborting.contains rank

/-- An injection into an aborted group: its outcome is the abort, at once (R186). What an earlier injection left in the network
stays there. -/
def State.injectAborted (s : State) (i rank : Nat) (g : Group) (m : Member) : State :=
  let s1 := (s.setGroup i { g with members := listPut g.members rank { m with injRound := m.injRound + 1 } }).modMe
    fun k => { k with lastGroup := some i }
  let s2 := s1.fixOutcome i rank none
  match s2.group i with
  | some g2 => s2.setGroup i { g2 with members := listPut g2.members rank { (g2.members.getD rank m) with inj := m.inj } }
  | none => s2

/-- An injection leaves the core, or is held there (R182): a release (R106). -/
def State.inject (s : State) (i rank : Nat) (g : Group) (m : Member) (held : Bool) (xs : List Word) : State :=
  if g.abortedAt rank then s.injectAborted i rank g m
  else (s.setGroup i { g with members := listPut g.members rank { m with inj := some xs, held := held,
                                                                         injRound := m.injRound + 1 }
                              seen := g.seen.put (m.injRound + 1) (joinSeen (g.seenIn (m.injRound + 1)) s.cx.seen) }).modMe
    fun k => { k with lastGroup := some i, heldInj := if held then k.heldInj ++ [i] else k.heldInj }

/-- The wait of an injection: this member's previous outcome, then the release (R182, R310). -/
def State.injectWait (s : State) (g : Group) (rank : Nat) (m : Member) : Except Stop Unit := do
  waitUntil (decide (m.injRound = m.outRound) && (m.inj.isNone || g.abortedAt rank))
  s.settled

/-- The lanes of a vector that a group takes. -/
def Group.lanesOf (g : Group) (v : Vec) : List Word :=
  (upto g.count).map fun l => if g.ty = 2 then (lane 16 l v).setWidth 32 else lane 32 l v

/-- CINJ and CINJ.HLD. -/
def cinj (held : Bool) (a b : Reg) (s : State) : Act := do
  s.notInRestartable
  s.memGate
  let x ← s.rdX a
  let (i, g, r, m) ← s.groupOf x
  s.injectWait g r m
  let (vals, s) ← s.sources [b]
  return s.inject i r g m held (g.lanesOf (valOf vals b))

/-- The scratchpad range of COUNT elements, 8-byte aligned. -/
def Group.range (g : Group) (x : DWord) : Except Stop Nat := do
  if g.count = 0 then
    check (decide (x.toNat % 8 = 0)) 0x05 x
    return x.toNat
  else spadCheck x (g.count * g.esize) 8

/-- The operand of a CINJX, as it is read at issue: after every scratchpad access that precedes it, the pushes to output streams
among them (R310, R324). -/
def State.injectBytes (s : State) (p n : Nat) : Except Stop (List Byte) := do
  waitUntil (s.cx.latch.isSome || s.pushesDone s.cur s.curCtx)
  s.spadSound p n
  return s.latched (s.me.spad.read p n)

/-- CINJX and CINJX.HLD. -/
def cinjx (held : Bool) (a b : Reg) (s : State) : Act := do
  s.notInRestartable
  s.memGate
  let x ← s.rdX a
  let y ← s.rdX b
  let (i, g, r, m) ← s.groupOf x
  let p ← g.range y
  let bytes ← s.injectBytes p (g.count * g.esize)
  holding s bytes (s.injectWait g r m)
  return s.inject i r g m held ((upto g.count).map fun l => BitVec.ofNat 32 (leNat ((bytes.drop (g.esize * l)).take g.esize)))

/-- CINJ. -/
def execCinj (g : Guard) (a b : Reg) (s : State) : Out := instr g (cinj false a b) s

/-- CINJ.HLD. -/
def execCinjHld (g : Guard) (a b : Reg) (s : State) : Out := instr g (cinj true a b) s

/-- CINJX. -/
def execCinjx (g : Guard) (a b : Reg) (s : State) : Out := instr g (cinjx false a b) s

/-- CINJX.HLD. -/
def execCinjxHld (g : Guard) (a b : Reg) (s : State) : Out := instr g (cinjx true a b) s

/-- An extraction has an outcome to wait for, or the abort (R182, R186). -/
def extractable (g : Group) (rank : Nat) (m : Member) : Except Stop Unit :=
  if m.injRound = 0 && !g.abortedAt rank then grpFault 4 else .ok ()

/-- CEXT (R182, R310): a result is an acquire (R106). -/
def execCext (g : Guard) (d a : Reg) (s : State) : Out :=
  instr g (fun s => do
    s.syncPoint
    s.streamUse d true
    let x ← s.rdX a
    let (_, q, r, m) ← s.groupOf x
    extractable q r m
    waitUntil (decide (m.injRound = m.outRound))
    let s1 := if m.outRes then s.syncWith s.cur s.curCtx (q.seenIn m.outRound) else s
    match (if q.count = 0 then none else q.dataOf r m) with
    | none => return s1
    | some ws => s1.writeVec d (if q.ty = 2 then ofLanes 16 (fun l => (ws.getD l 0).setWidth 16) 64
                                else ofLanes 32 (fun l => ws.getD l 0) 32)) s

/-- CEXTX (R182, R310): it does not wait for the outcome, which writes the scratchpad after every scratchpad access of the context
that precedes the CEXTX (R324). A result is an acquire (R106). DEDUCED: for the accesses that issue once the outcome has come; the
context goes on before that (log 92). -/
def execCextx (g : Guard) (a b : Reg) (s : State) : Out :=
  instr g (fun s => do
    s.memGate
    let x ← s.rdX a
    let y ← s.rdX b
    let (i, q, r, m) ← s.groupOf x
    extractable q r m
    let p ← q.range y
    waitUntil (s.pushesDone s.cur s.curCtx)
    if m.injRound = m.outRound then
      let s1 := s.modMe fun k => { k with engW := k.engW ++ q.extWrites i p (q.dataOf r m) }
      return if m.outRes then s1.syncWith s.cur s.curCtx (q.seenIn m.outRound) else s1
    else return s.modMe fun k =>
      { k with extx := k.extx ++ [{ grp := i, rank := r, round := m.injRound, addr := p, ctx := some s.curCtx }] }) s

/-- CSTAT's status word. -/
def groupStatus (g : Group) (m : Member) : DWord :=
  dw (b2n g.aborted + 2 * b2n m.outRes + 4 * b2n (m.injRound != m.outRound) + 8 * b2n m.held +
    (if g.aborted then g.nres else 0) * 2 ^ 16 + m.rounds.toNat * 2 ^ 32)

/-- The words that the extractions from a group have still to write on a core are written. -/
def Core.landGroup (k : Core) (i : Nat) : Core :=
  (k.engW.filter fun w => w.grp == some i).foldl Core.engineStore { k with engW := k.engW.filter fun w => w.grp != some i }

/-- CSTAT: of the outcomes that it reports, the words of the extractions are written (R324). -/
def execCstat (g : Guard) (d a : Reg) (s : State) : Out :=
  instr g (fun s => do
    let x ← s.rdX a
    let (i, q, _, m) ← s.groupOf x
    (s.modMe fun k => k.landGroup i).wrX d (groupStatus q m)) s

/-- The group's abort begins: the round that it ends is the latest in which a member has injected (DEDUCED, log 74), and the
members that have its result are counted. -/
def Group.beginAbort (g : Group) : Group :=
  let n := g.members.foldl (fun n m => max n m.injRound) 0
  { g with aborted := true, aborting := upto g.members.length, abRound := n
           nres := (g.members.filter fun m => m.outRes && decide (m.outRound = n)).length }

/-- CABORT (R186): concurrent aborts are one; the abort reaches the aborter at once, the others as it travels. -/
def execCabort (g : Guard) (a : Reg) (s : State) : Out :=
  instr g (fun s => do
    s.notInRestartable
    let x ← s.rdX a
    let (i, q, r, _) ← s.groupOf x
    if q.aborted then return s
    else return (s.setGroup i q.beginAbort).abortAt i r) s

/-- CFREE (R187): the slot returns when every member has executed it. -/
def execCfree (g : Guard) (a : Reg) (s : State) : Out :=
  instr g (fun s => do
    let x ← s.rdX a
    let (i, q, r, m) ← s.groupOf x
    let ms := listPut q.members r { m with freed := true }
    return s.setGroup i { q with members := ms, live := !(ms.all fun m => m.freed) }) s

end Sys2Proof.Machine
end

