-- ==== Sys2Proof/Machine/Objects.lean ====
section
/-! DEFINITION. Queue objects (R189 to R193, R271): the home, the mesh and its pairing windows (R391), the instructions. -/

namespace Sys2Proof.Machine

/-! ## The home (R189, R190) -/

/-- What the home reads in a header, and whether it breaks R189. -/
def State.readHeader (s : State) (pa : Nat) (va : DWord) (lcnt : Nat) : ObjHome :=
  let w (i : Nat) : Nat := s.mem.readNat (pa + 8 * i) 8
  let rest := (upto 4).any fun i => decide (w (4 + i) ≠ 0)
  let bad := !inHbm pa || decide (1 < w 0 % 256) || decide (64 < w 0 / 256 % 256) || decide (w 0 / 65536 ≠ 0) ||
    decide (w 1 = 0) || decide (2 ^ 32 < w 1) || decide (w 1 < w 2) || rest || decide (w 3 % 8 ≠ 0)
  { va := va, lcnt := lcnt, bad := bad, w := w 0 / 256 % 256, cap := w 1, count := w 2, store := dw (w 3), told := [], seen := [] }

/-- The object at a PA as its home keeps it: read at its first use in a launch. -/
def State.objAt (s : State) (pa : Nat) (va : DWord) (lcnt : Nat) : ObjHome × State :=
  match s.objs.find pa with
  | some o => (o, s)
  | none => let o := s.readHeader pa va lcnt; (o, { s with objs := s.objs.put pa o })

/-- The PA of a storage entry, if the home can read and write it. -/
def State.storeEntry (s : State) (pa : Nat) (o : ObjHome) (i : Nat) : Option Nat :=
  let va := (o.store + dw (8 * i)).toNat
  if 2 ^ 56 ≤ va then none
  else match s.walk (homeCore (homeLanding pa)) va with
    | .error _ => none
    | .ok e =>
      let p := s.pageAddr e va
      if populated p && bit e.leaf 1 && bit e.leaf 2 && (pteKind e.leaf == 0 || pteKind e.leaf == 2) && !s.paUnreachable p then
        some p
      else none

/-- What the home answers: a value or a fault. -/
inductive ObjReply where
  | value (v : DWord)
  | fault (cause : Byte) (finfo : DWord)
deriving DecidableEq, Repr

/-- The home's answer for a header that breaks R189. -/
def ObjReply.bad : ObjReply := .fault 0x16 2

/-- Keep an object's new count. -/
def State.setCount (s : State) (pa : Nat) (o : ObjHome) (n : Nat) : State :=
  { s with objs := s.objs.put pa { o with count := n } }

/-- The home serves an operation as one indivisible step (R190); none while the storage entry waits for a place in the reserve
of a cut (R358). A push whose storage is the locked weight store is 0x09 (R69). `m`: what a pusher had seen, given to whoever pops its
value (R103). -/
def State.serveObj (s : State) (op : ReqKind) (pa : Nat) (va value : DWord) (lcnt : Nat) (m : KMap Nat) :
    Option (ObjReply × KMap Nat × State) :=
  if s.isLost pa then some (.fault 0x18 (s.fi18 pa .store), [], s)
  else
    let (o, s1) := s.objAt pa va lcnt
    if o.bad then some (.bad, [], s1)
    else match op with
      | .opush =>
        if o.count = o.cap then some (.value 1, [], s1)
        else match s1.storeEntry pa o o.count with
          | none => some (.bad, [], s1)
          | some p =>
            if inWs p && s1.wsLocked then some (.fault 0x09 0, [], s1)
            else if !s1.cowRoom p then none
            else some (.value 0, [],
              (s1.memWrite .module p (leBytes 8 value.toNat)).setCount pa { o with seen := m :: o.seen } (o.count + 1))
      | .opop =>
        if o.count = 0 then some (.value noVersion, [], s1)
        else match s1.storeEntry pa o (o.count - 1) with
          | none => some (.bad, [], s1)
          | some p => if s1.isLost p then some (.fault 0x18 (s.fi18 p .load), [], s1)
                      else some (.value (s1.mem.read64 p), o.seen.headD [],
                        s1.setCount pa { o with seen := o.seen.tail } (o.count - 1))
      | _ => some (.value (dw o.count), [], s1)

/-- The reply reaches the request, or goes to the module that asked. A pop that returns a value comes after its push, which `m`
gives (R103). -/
def State.replyObj (s : State) (m : ObjMsg) (r : ObjReply) (seen : KMap Nat) : State :=
  match m.dev with
  | some d => s.emit d m.enc none (match r with
    | .value v => .objectReply m.req v 0
    | .fault cause _ => .objectReply m.req 0 cause) seen
  | none => match r with
    | .value v =>
      let s1 := s.syncWith m.core m.ctx seen
      match ((s1.core m.core).ctx m.ctx).reqs.find? fun q => q.id == m.req with
      | some q => s1.replied m.core m.ctx q v
      | none => s1
    | .fault cause finfo => s.modReq m.core m.ctx m.req fun q => { q with fault := some ⟨cause, q.va, finfo⟩ }

/-! ## The mesh (R391) -/

/-- Column and row of a landing. -/
def meshXY (l : Nat) : Nat × Nat := (16 * (l / 128 % 2) + l % 16, 8 * (l / 256) + l % 128 / 16)

/-- The landing at a column and a row. -/
def meshAt (x y : Nat) : Nat := 128 * (x / 16 + 2 * (y / 8)) + y % 8 * 16 + x % 16

/-- The mesh path between two landings: along the row, then along the column. -/
def meshPath (l h : Nat) : List Nat :=
  let p := meshXY l
  let q := meshXY h
  (stretch p.1 q.1).map (meshAt · p.2) ++ ((stretch p.2 q.2).drop 1).map (meshAt q.1 ·)

/-- The path of an operation: OCNT and what has no home slice here go straight on. -/
def objPath (op : ReqKind) (l pa : Nat) : List Nat := if op = .ocnt ∨ !inHbm pa then [] else meshPath l (homeLanding pa)

/-! ## Pairing windows (R192) -/

/-- The W that a landing router knows of an object. The home's notice reaches each router at some instant. -/
def State.knownW (s : State) (pa landing : Nat) : Nat × State :=
  match s.objs.find pa with
  | none => (0, s)
  | some o =>
    if o.bad || o.w == 0 then (0, s)
    else if o.told.contains landing then (o.w, s)
    else if (s.draw 1).1 = 1 then
      let t := (s.draw 1).2
      (o.w, { t with objs := t.objs.put pa { o with told := insertNat o.told landing } })
    else (0, (s.draw 1).2)

/-- Two operations pair: opposite directions on one object. -/
def ObjMsg.pairs (a b : ObjMsg) : Bool :=
  a.pa == b.pa && ((a.op == .opush && b.op == .opop) || (a.op == .opop && b.op == .opush))

/-- What the pusher of an operation had seen (R103). -/
def State.pushSeen (s : State) (m : ObjMsg) : KMap Nat :=
  if m.dev.isSome then m.seen
  else match ((s.core m.core).ctx m.ctx).reqs.find? fun q => q.id == m.req with
    | some q => q.seen
    | none => []

/-- Two operations are paired: the push succeeds, the pop receives its value (R193). -/
def State.pairObj (s : State) (a b : ObjMsg) : State :=
  let push := if a.op = .opush then a else b
  let pop := if a.op = .opush then b else a
  (s.replyObj push (.value 0) []).replyObj pop (.value push.value) (s.pushSeen push)

/-- The requests before a numbered one of a context, whose outcome is open. -/
def State.openBeforeId (s : State) (c : CoreId) (h : CtxId) (id : Nat) : List Req :=
  ((s.core c).ctx h).reqs.filter fun q => decide (q.id < id) && q.fault.isNone && q.reply.isNone

/-- An OPUSH leaves its core only when every earlier access of its context is performed (R103, R271); an operation that ERET has sent
again, only after what context 13 has done (R108). -/
def State.objMayMove (s : State) (m : ObjMsg) : Bool :=
  m.dev.isSome || !(((s.core m.core).ctx m.ctx).reqs.any fun q => q.id == m.req && s.heldBack m.core m.ctx q) &&
    (m.op != .opush || ((s.openBeforeId m.core m.ctx m.req).isEmpty && s.pushesDone m.core m.ctx))

/-- The router of a landing may test an operation now: those it tests in one cycle come in the order of their cores (R326). -/
def State.routerTurn (s : State) (landing : Nat) (m : ObjMsg) : Bool :=
  match s.routerAt.find landing with
  | some (t, c) => decide (t ≠ s.cycle) || decide (c ≤ m.core.val)
  | none => true

/-- OBJECT_OP_AT_ROUTER (R192). Under DET nothing waits or pairs (R109). -/
def State.tryRouter (s : State) (k : Nat) : Option State :=
  match s.objMsgs[k]? with
  | none => none
  | some m =>
    match m.path with
    | [] => none
    | l :: rest =>
      if !s.objMayMove m || !s.routerTurn l m then none
      else
        let s0 := { s with routerAt := s.routerAt.put l (s.cycle, m.core.val) }
        let (w, s1) := if s.isDet m.lcnt then (0, s0) else s0.knownW m.pa l
        let win := s1.windows.get [] l
        let go := { s1 with objMsgs := listPut s1.objMsgs k { m with path := rest } }
        if w = 0 then some go
        else match win.find? fun n => n.pairs m && decide (0 < n.left) with
          | some n =>
            some ({ s1 with objMsgs := listDrop s1.objMsgs k,
                            windows := s1.windows.put l (win.filter fun x => x ≠ n) }.pairObj n m |>.modCore
              (homeCore l) fun k => k.perf 0x40 1)
          | none =>
            if !m.waited && !rest.isEmpty && decide (win.length < 8) then
              some { s1 with objMsgs := listDrop s1.objMsgs k,
                             windows := s1.windows.put l (win ++ [{ m with left := w, waited := true }]) }
            else some go

/-- WINDOW_WAIT_EXPIRED (R192): the operation moves on. -/
def State.tryExpire (s : State) (landing k : Nat) : Option State :=
  let win := s.windows.get [] landing
  match win[k]? with
  | none => none
  | some m =>
    if m.left = 0 then
      some ({ s with windows := s.windows.put landing (listDrop win k),
                     objMsgs := s.objMsgs ++ [{ m with path := m.path.drop 1 }] }.modCore (homeCore landing) fun k =>
        k.perf 0x41 1)
    else none

/-- The code of an object operation in a packet. -/
def objCode : ReqKind → Nat
  | .opush => 0
  | .opop => 1
  | _ => 2

/-- An operation leaves for the home of an object of another module (R191, R192), a push with what precedes it (R103). -/
def State.sendObj (s : State) (m : ObjMsg) : State :=
  s.emit (s.remoteDev m.pa) m.enc (some (m.core, m.ctx, m.req)) (.objectOp m.core.val m.req (objCode m.op) m.pa m.value)
    (if m.op = .opush then s.pushSeen m else [])

/-- OBJECT_OP_AT_HOME (R190), or the way out to another module. -/
def State.tryHome (s : State) (k : Nat) : Option State :=
  match s.objMsgs[k]? with
  | none => none
  | some m =>
    if !m.path.isEmpty || !s.objMayMove m then none
    else
      let s0 := { s with objMsgs := listDrop s.objMsgs k }
      if isRemote m.pa then some (s0.sendObj m)
      else (s0.serveObj m.op m.pa m.va m.value m.lcnt (s.pushSeen m)).map fun r => r.2.2.replyObj m r.1 r.2.1

/-- OBJECT_OP_AT_ROUTER. -/
def execObjectOpAtRouter (k : Nat) (s : State) : Out := happen s (s.tryRouter k)

/-- WINDOW_WAIT_EXPIRED. -/
def execWindowWaitExpired (landing k : Nat) (s : State) : Out := happen s (s.tryExpire landing k)

/-- OBJECT_OP_AT_HOME. -/
def execObjectOpAtHome (k : Nat) (s : State) : Out := happen s (s.tryHome k)

/-! ## The instructions (R191, R271) -/

/-- The core is in a launch under DET: object operations and ticket pulls of its contexts are ordered requests (R109, R110). -/
def State.ordered (s : State) : Bool := s.me.det

/-- Post an ordered request: the context stops until a round closes (R110). -/
def State.postOrdered (s : State) (q : Req) : State :=
  (s.post { q with sent := false }).modCx fun x => { x with stop := .ordered }

/-- The operation of a request of a context, with a path. -/
def State.opOf (s : State) (c : CoreId) (h : CtxId) (q : Req) (path : List Nat) : ObjMsg :=
  { dev := none, enc := q.enc, seen := [], core := c, ctx := h, req := q.id, op := q.kind, pa := q.pa, va := q.va, value := q.data,
    lcnt := s.workOf c h, path := path, waited := false, left := 0 }

/-- Send an object operation on its way: through the landings, or straight to what has no home slice here. -/
def State.sendOp (s : State) (c : CoreId) (h : CtxId) (q : Req) : State :=
  { s with objMsgs := s.objMsgs ++ [s.opOf c h q (objPath q.kind (landingOf c.val) q.pa)] }

/-- Issue an object operation. -/
def State.issueObj (s : State) (q : Req) : State :=
  if q.fault.isSome then s.post q else (s.post q).sendOp s.cur s.curCtx q

/-- OPUSH, OPOP and OCNT: the issue checks in the order of R271, then the request. OPOP acquires: no later access is sent before
its reply (R95). -/
def objectOp (kind : ReqKind) (d a : Reg) (value : State → Except Stop DWord) (s : State) : Act := do
  let va ← s.rdX a
  if kind ≠ .ocnt then s.notInRestartable va 1
  if kind ≠ .ocnt then s.syncPoint
  s.splitReady d
  let v ← value s
  check (decide (va.toNat % 64 = 0)) 0x05 va
  let (e, s) ← s.globalEA va 64 .store
  checkIn s (!e.isV) 0x08 va (fi08 .store)
  checkIn s e.isObj 0x16 va 1
  if kind = .opush then checkIn s (decide (v ≠ noVersion)) 0x16 va 0
  let q := s.newReq kind e.va e.pa 8 d v 0
  let q := { q with obj := true, enc := e.isC, gate := kind == .opop, fault := s.unreachFault e.va e.pa }
  if s.ordered && q.fault.isNone then
    if kind = .opush then s.settled
    return s.postOrdered q
  else return s.issueObj q

/-- OPUSH. -/
def execOpush (g : Guard) (d a b : Reg) (s : State) : Out := instr g (objectOp .opush d a (State.rdX · b)) s

/-- OPOP. -/
def execOpop (g : Guard) (d a : Reg) (s : State) : Out := instr g (objectOp .opop d a fun _ => .ok 0) s

/-- OCNT. -/
def execOcnt (g : Guard) (d a : Reg) (s : State) : Out := instr g (objectOp .ocnt d a fun _ => .ok 0) s

end Sys2Proof.Machine
end

