-- ==== Sys2Proof/Machine/Send.lean ====
section
/-! DEFINITION. Sending events (R21, R285 to R291), the routine table (R292 to R297), pools and counters (R298 to R300),
rounds of deterministic launches (R109, R110). -/

namespace Sys2Proof.Machine

/-! ## Helpers (R285) -/

/-- Slot(v). -/
def slotOf (v : DWord) : Except Stop (Fin 64) := do
  check (decide (fld v 63 6 = 0)) 0x02
  return mkSlot v.toNat

/-- CheckDesc(v) as a test: 0x02 or 0x1D, if the descriptor fails. -/
def State.descFault (s : State) (v : DWord) : Option TrapInfo :=
  if fld v 15 8 ≠ 0 ∨ fld v 6 0 ≠ 0 then some ⟨0x02, 0, 0⟩
  else if !descLocal v && s.unreachable (descDev v) then some ⟨0x1D, 0, (descDev v).setWidth 64⟩
  else none

/-- CheckDesc(v). -/
def State.checkDesc (s : State) (v : DWord) : Except Stop Unit :=
  match s.descFault v with
  | some t => .error (.trap t)
  | none => .ok ()

/-- The tag of an event sent with a delta (R21). -/
def sendTag (cur : Tag) (d : DWord) : Tag :=
  if d = 0 then Tag.nextMicro cur
  else { t := if cur.t.toNat + d.toNat < 2 ^ 64 then cur.t + d else BitVec.allOnes 64, m := 0 }

/-! ## The send queue (R288) -/

/-- Bytes of block payload in a send queue. -/
def Core.blockBytes (k : Core) : Nat :=
  (k.sendQ.map fun e => if e.ev.payload.isBlock then e.ev.payload.bytes.length else 0).foldl (· + ·) 0

/-- The send queue has room: 32 events and 16 KiB of block payload. -/
def Core.sendRoom (k : Core) (p : Payload) : Bool :=
  decide (k.sendQ.length < 32) && (!p.isBlock || decide (k.blockBytes + p.bytes.length ≤ 16384))

/-- The sequence number of an event of the issuing context (R15): the reaction's own block while the core logs. -/
def State.sendSeq (s : State) : Word × State :=
  match s.cx.run with
  | some r => match r.seqBase with
    | some b => (b + BitVec.ofNat 32 r.sends, s.modCx fun x => { x with run := some { r with sends := r.sends + 1 } })
    | none => s.takeSeq s.cur
  | none => s.takeSeq s.cur

/-- The 257th event of a restartable reaction on a logged core (R15, R369). -/
def State.sendsLeft (s : State) : Bool :=
  match s.cx.run with
  | some r => r.seqBase.isNone || decide (r.sends < 256)
  | none => true

/-- The context that an event of the issuing context names as its origin: in a re-run, that of the first run (R48). -/
def State.originCx (s : State) : CtxId :=
  match s.cx.run with
  | some r => r.asCtx
  | none => s.curCtx

/-- An event enters the send queue. -/
def State.queueEvent (s : State) (dest : DWord) (tag : Tag) (p : Payload) : State :=
  let q := s.sendSeq
  let ev : Ev := { dest := dest, tag := tag, origin := s.originOf s.cur s.originCx.val, seq := q.1, sendTs := 0, payload := p,
                   sendLate := false, bex := false, restartable := s.restartable,
                   replay := match s.cx.run with
                     | some r => r.replay
                     | none => false, ctl := false }
  q.2.modMe fun k => { k with sendQ := k.sendQ ++ [{ ev := ev, ctx := s.curCtx, upTo := s.reqCtr, seen := s.cx.seen }] }

/-- A payload that is read at issue is kept while the instruction waits: of a block, its bytes (R101, R288). -/
def keeping (s : State) : Payload → Except Stop Unit → Except Stop Unit
  | .block b, w => holding s b w
  | _, w => w

/-- SEND and its kin: the payload is read now. -/
def send (payload : State → Except Stop (Payload × State)) (a b : Reg) (s : State) : Act := do
  check s.sendsLeft 0x08
  let dest ← s.rdX a
  let delta ← s.rdX b
  s.checkDesc dest
  s.memGate
  s.syncPoint
  let (p, s) ← payload s
  keeping s p (waitUntil (s.me.sendRoom p))
  return s.queueEvent dest (sendTag s.cx.tnow delta) p

/-- Words of registers from one on. -/
def State.regWords (s : State) (d : Reg) (n : Nat) : Except Stop (List DWord) :=
  (upto n).mapM fun i => s.rdX (regPlus d i)

/-- A payload of words. -/
def wordPayload (d : Reg) (n : Nat) (s : State) : Except Stop (Payload × State) := do
  let ws ← s.regWords d n
  return (.words ws, s)

/-- SEND. -/
def execSend (g : Guard) (d a b : Reg) (s : State) : Out := instr g (send (wordPayload d 1) a b) s

/-- SEND2. -/
def execSend2 (g : Guard) (d a b : Reg) (s : State) : Out := instr g (send (wordPayload d 2) a b) s

/-- SEND4. -/
def execSend4 (g : Guard) (d a b : Reg) (s : State) : Out := instr g (send (wordPayload d 4) a b) s

/-- SENDV: a stream that vD names pops (R176). -/
def execSendv (g : Guard) (d a b : Reg) (s : State) : Out :=
  instr g (send (fun s => do
    let (vals, s) ← s.sources [d]
    return (.vector (valOf vals d), s)) a b) s

/-- The block that a block word describes: address and length (R289). -/
def blockOf (w : DWord) : Except Stop (Nat × Nat) := do
  let a := fld w 17 0
  let n := fld w 43 32
  check (decide (fld w 31 18 = 0) && decide (fld w 63 44 = 0) && decide (8 ≤ n) && decide (n ≤ 2048) && decide (n % 8 = 0)) 0x02
  check (decide (a % 8 = 0)) 0x05 (dw a)
  check (decide (a + n ≤ 0x40000)) 0x06 (dw a)
  return (a, n)

/-- SENDB (R289). -/
def execSendb (g : Guard) (d a b : Reg) (s : State) : Out :=
  instr g (send (fun s => do
    let w ← s.rdX d
    let (p, n) ← blockOf w
    s.spadSound p n
    return (.block (s.latched (s.me.spad.read p n)), s)) a b) s

/-! ## Multicast stores (R188, R290) -/

/-- The words of a block as engine writes of a multicast store. -/
def mcastWords (id a : Nat) (bytes : List Byte) : List EngWrite :=
  (upto (bytes.length / 8)).map fun i =>
    { addr := a + 8 * i, bytes := (bytes.drop (8 * i)).take 8, full := true, acc := none, mcast := some id, grp := none }

/-- MCAST: the block is read at issue; once every earlier access is performed, each member's pier has it to write. -/
def execMcast (g : Guard) (d a b : Reg) (s : State) : Out :=
  instr g (fun s => do
    s.notInRestartable
    s.memGate
    let h ← s.rdX a
    let r ← s.rdX b
    let w ← s.rdX d
    let (_, q, _, _) ← s.groupOf h
    check (decide (q.kind = 5)) 0x1B 0 1
    let (p, n) ← blockOf w
    let rec_ ← spadCheck r ((q.members.length + 63) / 64 * 8) 8
    s.spadSound p n
    let bytes := s.latched (s.me.spad.read p n)
    holding s bytes s.settled
    let id := s.reqCtr
    let ms := q.members.map Member.core
    let s := ms.foldl (fun s m => s.modCore (mkCore m) fun k => { k with engW := k.engW ++ mcastWords id p bytes }) s
    return { s with reqCtr := s.reqCtr + 1,
                    mcasts := s.mcasts ++ [{ id := id, members := ms, core := s.cur, record := rec_ }] }) s

/-- One branch of a multicast store ends: what is left is written, or nothing more is if the branch fails. -/
def State.mcastBranch (s : State) (id m : Nat) (err : Bool) : Bool × State :=
  let c := mkCore m
  let k := s.core c
  let mine := k.engW.filter fun w => w.mcast == some id
  let failed := !mine.isEmpty && (k.fenced || err)
  let k1 := { k with engW := k.engW.filter fun w => w.mcast != some id }
  (failed, s.setCore c (if failed then k1 else mine.foldl Core.engineStore k1))

/-- The branches of a multicast store end, in the order of the ranks. -/
def State.mcastBranches (s : State) (id : Nat) (errs : List Nat) : Nat → List Nat → List Bool × State
  | _, [] => ([], s)
  | r, m :: rest =>
    let b := s.mcastBranch id m (errs.contains r)
    let t := b.2.mcastBranches id errs (r + 1) rest
    (b.1 :: t.1, t.2)

/-- A completion record: bit i of word ⌊i / 64⌋ for rank i. -/
def mcastRecord (bits : List Bool) : List Byte :=
  let v := bits.foldr (fun b n => b2n b + 2 * n) 0
  leBytes ((bits.length + 63) / 64 * 8) v

/-- MCAST_COMPLETION_RECORD (R188): every branch has succeeded or failed; piers that reported an error are given. -/
def State.tryMcast (s : State) (k : Nat) (errs : List Nat) : Option State :=
  match s.mcasts[k]? with
  | none => none
  | some m =>
    let b := { s with mcasts := listDrop s.mcasts k }.mcastBranches m.id errs 0 m.members
    some (b.2.modCore m.core fun q => q.deliver m.record (mcastRecord b.1))

/-- MCAST_COMPLETION_RECORD. -/
def execMcastCompletionRecord (k : Nat) (pierErrors : List Nat) (s : State) : Out := happen s (s.tryMcast k pierErrors)

/-! ## Host messages (R291) -/

/-- SENDH: a release at SYSTEM that waits for a credit of its queue. -/
def execSendh (g : Guard) (d a : Reg) (s : State) : Out :=
  instr g (fun s => do
    s.notInRestartable
    let x ← s.rdX a
    check (decide (fld x 63 4 = 0)) 0x02
    let ws ← s.regWords d 4
    s.memGate
    s.settled
    let i : Fin 17 := ⟨x.toNat % 16, Nat.lt_trans (Nat.mod_lt _ (by decide)) (by decide)⟩
    waitUntil (s.hostQ.get i).credit
    let t := s.cx.tnow
    let s1 := s.hostPush i ([s.originOf s.cur s.curCtx.val, t.t, dw (t.m.toNat + i.val * 2 ^ 32), 0] ++ ws)
    return { s1 with hostSeen := joinSeen s1.hostSeen s.cx.seen }) s

/-! ## The routine table (R292 to R296) -/

/-- A binding record of 32 bytes, as numbers (R293): none when a reserved field is set. -/
def bindRec (w0 w1 w2 w3 : DWord) : Option BindRec :=
  if fld w0 63 56 ≠ 0 ∨ fld w2 63 21 ≠ 0 ∨ w3 ≠ 0 then none
  else some { code := w0, hold := w1, late := if bit w2 6 then some (mkSlot (fld w2 5 0)) else none, restart := bit w2 7,
              pool := bit w2 8, lcnt := fld w2 20 9 }

/-- An arm word is valid against the block area of a core (R30, R33, R294). -/
def Core.armGood (k : Core) (v : DWord) : Bool :=
  let n := fld v 4 0
  let j := fld v 49 32
  decide (1 ≤ n) && decide (n ≤ 16) && decide (fld v 15 5 = 0) && decide (fld v 63 50 = 0) &&
    (decide (n = 1) || decide (j % 128 = 0) && decide (0x3C000 ≤ j) && decide (j + 128 * n ≤ 0x40000) &&
      !(decide (k.blkN ≠ 0) && meets j (n * 128) (0x3C000 + k.blkFirst.toNat * 2048) (k.blkN.toNat * 2048)))

/-- The slot change of an arm word. -/
def armChange (v : DWord) (launch : Option Nat) : SlotChange :=
  .arm (fld v 4 0) (BitVec.ofNat 16 (fld v 31 16)) (BitVec.ofNat 18 (fld v 49 32)) launch

/-- The pending-change register of a slot is empty, and no change of the launch unit waits for it (R292). -/
def State.slotFree (s : State) (i : Fin 64) : Except Stop Unit :=
  waitUntil ((s.me.slots.get i).pending.isNone && (s.me.slots.get i).waiting.isEmpty)

/-- A program's slot change: it waits for the pending-change register (R292). -/
def State.changeSlot (s : State) (i : Fin 64) (ch : SlotChange) : Act := do
  s.slotFree i
  return s.modMe fun k => { k with slots := vmod k.slots i fun t => { t with pending := some ch } }

/-- BIND (R293): the record is read at issue, and kept while the slot's change waits. -/
def execBindS (g : Guard) (d a b : Reg) (s : State) : Out :=
  instr g (fun s => do
    s.notInRestartable
    let x ← s.rdX a
    let y ← s.rdX b
    let i ← slotOf x
    let p ← spadEA y 32
    s.spadSound p 32
    let bytes := s.latched (s.me.spad.read p 32)
    let w (j : Nat) : DWord := dw (leNat ((bytes.drop (8 * j)).take 8))
    match bindRec (w 0) (w 1) (w 2) (w 3) with
    | none => fault 0x02
    | some r =>
      check (!bit r.code 0) 0x05
      holding s bytes (s.regReady d)
      holding s bytes (s.slotFree i)
      let s1 ← s.changeSlot i (.bind r none)
      return s1.putX d ((s.me.slots.get i).nextGen.setWidth 64)) s

/-- UNBIND (R294). -/
def execUnbind (g : Guard) (a : Reg) (s : State) : Out :=
  instr g (fun s => do
    s.notInRestartable
    let x ← s.rdX a
    let i ← slotOf x
    s.changeSlot i (.unbind none)) s

/-- ARM (R294). -/
def execArm (g : Guard) (a b : Reg) (s : State) : Out :=
  instr g (fun s => do
    s.notInRestartable
    let x ← s.rdX a
    let y ← s.rdX b
    let i ← slotOf x
    check (s.me.armGood y) 0x02
    s.changeSlot i (armChange y none)) s

/-- HOLD (R294). -/
def execHold (g : Guard) (a b : Reg) (s : State) : Out :=
  instr g (fun s => do
    s.notInRestartable
    let x ← s.rdX a
    let y ← s.rdX b
    let i ← slotOf x
    return s.modMe fun k => { k with slots := vmod k.slots i fun t => { t with hold := t.hold ||| y } }) s

/-- RLSE (R294): the slot's own bit stays. -/
def execRlse (g : Guard) (a b : Reg) (s : State) : Out :=
  instr g (fun s => do
    s.notInRestartable
    let x ← s.rdX a
    let y ← s.rdX b
    let i ← slotOf x
    return s.modMe fun k =>
      { k with slots := vmod k.slots i fun t => { t with hold := (t.hold &&& ~~~y) ||| (t.hold &&& dw (2 ^ i.val)) } }) s

/-- The state that GENRD reads (R296). -/
def Slot.image (t : Slot) : DWord :=
  let next := match t.pending with
    | some (.bind _ _) => t.nextGen
    | some _ => t.gen
    | none => t.nextGen
  dw (t.gen.toNat + b2n t.bound * 2 ^ 8 + b2n t.pending.isSome * 2 ^ 9 + next.toNat * 2 ^ 16)

/-- GENRD (R296). -/
def execGenrd (g : Guard) (d a : Reg) (s : State) : Out :=
  instr g (fun s => do
    let x ← s.rdX a
    let i ← slotOf x
    s.wrX d (s.me.slots.get i).image) s

/-- CAPQ (R297): split-phase. -/
def execCapq (g : Guard) (d a b : Reg) (s : State) : Out :=
  instr g (fun s => do
    let x ← s.rdX a
    let y ← s.rdX b
    s.regReady d
    s.replyRoom
    check (s.isLocal y || decide (fld (descDev y) 13 0 = fld s.devCoord 13 0)) 0x1D 0 ((descDev y).setWidth 64)
    let q := s.newReq .capq x 0 0 d y 0
    return s.post { q with fault := if !s.isLocal y && s.unreachable (descDev y) then some ⟨0x1D, x, (descDev y).setWidth 64⟩
                                    else none }) s

/-! ## Pools (R41, R299, R300) -/

/-- The pool event of a launch on a core retires (R41). -/
def State.retireOpen (s : State) (c : CoreId) (l : Nat) : State :=
  match (s.core c).inbox.findIdx? fun e => e.pool == some l && !e.spent with
  | some i => match (s.core c).inbox[i]? with
    | some e => s.retirePool c i e l
    | none => s
  | none => s

/-- A ticket of a context (R299): the next index of its unit's pool; all ones where none is left, in which case the pool
event of its core retires (R41), and outside a pooled unit. -/
def State.ticket (s : State) (c : CoreId) (h : CtxId) : DWord × State :=
  match ((s.core c).ctx h).run with
  | none => (BitVec.allOnes 64, s)
  | some r =>
    if !r.pool then (BitVec.allOnes 64, s)
    else match s.pull c r.lcnt with
      | (some i, s1) => (dw i, s1)
      | (none, s1) => (BitVec.allOnes 64, s1.retireOpen c r.lcnt)

/-- TICKET (R299): split-phase; under DET an ordered request. -/
def execTicket (g : Guard) (d : Reg) (s : State) : Out :=
  instr g (fun s => do
    s.regReady d
    s.replyRoom
    let q := s.newReq .ticket 0 0 0 d 0 0
    if s.ordered then return s.postOrdered q
    else
      let t := s.ticket s.cur s.curCtx
      return t.2.post { q with reply := some t.1 }) s

/-- What POOLCFG reads (R300): N, the range of this die, what is left of it. Ranges lie in die order, one after another. -/
def Launch.poolWord (r : Launch) (die sel : Nat) : Nat :=
  let hi (i : Nat) : Nat := (r.ranges.getD i (0, 0)).2
  match sel with
  | 0 => r.poolN
  | 1 => if die = 0 then 0 else hi (die - 1)
  | 2 => hi die
  | _ => hi die - (r.ranges.getD die (0, 0)).1

/-- The launch whose work the issuing context is, its reaction's or its set-up's. -/
def State.myLaunch (s : State) : Option Launch :=
  match s.cx.run, s.cx.setup with
  | some r, _ => s.launches.find r.lcnt
  | none, some l => s.launches.find l
  | none, none => none

/-- POOLCFG (R300): of the launch of a reaction or of set-up code. -/
def execPoolcfg (g : Guard) (d a : Reg) (s : State) : Out :=
  instr g (fun s => do
    let x ← s.rdX a
    check (decide (fld x 63 2 = 0)) 0x02
    s.wrX d (dw (match s.myLaunch with
      | some l => if l.poolN = 0 then 0 else l.poolWord (dieOf s.cur.val) (x.toNat % 4)
      | none => 0))) s

/-! ## Counters (R298, R300) -/

/-- The counter of a name; a bad name is 0x02. -/
def counterIn (v : DWord) : Except Stop Nat :=
  match counterOf v with
  | some n => .ok n
  | none => fault 0x02

/-- CNTDN (R300). -/
def execCntdn (g : Guard) (a : Reg) (s : State) : Out :=
  instr g (fun s => do
    s.notInRestartable
    let x ← s.rdX a
    let n ← counterIn x
    s.settled
    return s.decCounter n s.cx.seen) s

/-- CANCEL (R300). -/
def execCancel (g : Guard) (a : Reg) (s : State) : Out :=
  instr g (fun s => do
    s.notInRestartable
    let x ← s.rdX a
    let n ← counterIn x
    return s.cancelCounter n) s

/-- CNTRD (R300). -/
def execCntrd (g : Guard) (d a : Reg) (s : State) : Out :=
  instr g (fun s => do
    let x ← s.rdX a
    let n ← counterIn x
    s.wrX d (s.counter n).image) s

/-! ## Rounds (R109, R110) -/

/-- The helpers. -/
def helpers : List CtxId := [1, 2, 3, 4, 5, 6, 7, 8, 9, 10]

/-- The cores of a launch. -/
def Launch.cores (r : Launch) : List CoreId := (upto r.ncore).map fun i => mkCore (r.first + i)

/-- The selector of a core waits to pull for a pool event of a launch at its head (R109): it starts one unit in a cycle (R27). -/
def State.pullWaits (s : State) (c : CoreId) (l : Nat) : Bool :=
  match s.selects c with
  | some (_, e, _, _) => e.pool == some l
  | none => false

/-- An unstarted pool event of a launch stands in the inbox of a core. -/
def Core.poolOpen (k : Core) (l : Nat) : Bool := k.inbox.any fun e => e.pool == some l

/-- What a helper's state says of a round: it waits on an ordered request (1), has run its quantum (2), is free without
pool event (3), a selector's pull waits for it (1), or it keeps the round open. -/
inductive Round where
  | ordered | ran | free | selector | none
deriving DecidableEq, Repr

/-- The ordered request of a context that waits to be served. -/
def Ctx.orderedReq (x : Ctx) : Option Req :=
  if x.live && x.stop == .ordered then x.reqs.find? fun q => !q.sent && q.fault.isNone && q.reply.isNone && q.kind != .store else none

/-- The state of a helper in a round. An ordered request that is on its way to another module is not served yet: it keeps the round
open. -/
def State.roundOf (s : State) (c : CoreId) (l : Nat) (h : CtxId) : Round :=
  let k := s.core c
  let x := k.ctx h
  if x.live then
    if x.stop = .ordered then (if x.orderedReq.isSome then .ordered else .none) else if k.quantum.toNat ≤ x.retired then .ran else .none
  else if s.pullWaits c l then .selector
  else if k.poolOpen l then .none
  else .free

/-- A context whose ordered request is served goes on, its count of retired instructions at zero (R110). -/
def State.goOrdered (s : State) (c : CoreId) (h : CtxId) : State := s.modCtx c h fun x => { x with stop := .no, retired := 0 }

/-- An ordered object operation is applied at its home (R109), or leaves for the module that is its home; none while the home
cannot apply it. -/
def State.serveOrderedObj (s : State) (c : CoreId) (h : CtxId) (q : Req) : Option State :=
  if isRemote q.pa then some (s.sendObj (s.opOf c h q []))
  else (s.serveObj q.kind q.pa q.va q.data (s.workOf c h) q.seen).map fun r => (match r.1 with
    | .value v => (r.2.2.syncWith c h r.2.1).answer c h q v
    | .fault cause finfo => r.2.2.deferFault c h q cause finfo).goOrdered c h

/-- Serve the ordered request of a context (R110). -/
def State.serveOrdered (s : State) (c : CoreId) (h : CtxId) : Option State :=
  match ((s.core c).ctx h).orderedReq with
  | none => some s
  | some q =>
    let s0 := s.modReq c h q.id fun r => { r with sent := true }
    match q.kind with
    | .ticket => let t := s0.ticket c h; some ((t.2.answer c h q t.1).goOrdered c h)
    | _ => if s.heldBack c h q then none else s0.serveOrderedObj c h q

/-- Serve one context of a round: its ordered request, a selector's pull, or a count that has reached the quantum. -/
def State.serveRound (s : State) (l : Nat) (c : CoreId) (h : CtxId) : Option State :=
  let x := (s.core c).ctx h
  if x.live then
    if x.stop = .ordered then s.serveOrdered c h
    else some (s.modCtx c h fun x => { x with retired := if (s.core c).quantum.toNat ≤ x.retired then 0 else x.retired })
  else if helpers.contains h && s.pullWaits c l then some ((s.pullUnit c).getD s)
  else some s

/-- The states of the helpers of a launch. -/
def State.roundStates (s : State) (r : Launch) (l : Nat) : List Round :=
  (r.cores.map fun c => helpers.map fun h => s.roundOf c l h).flatten

/-- An ordered request of a core waits to be served: of a helper, or of set-up code or a trap handler. -/
def Core.asks (k : Core) : Bool := ctxIds.any fun h => (k.ctx h).orderedReq.isSome

/-- The close of a round of the launch is due: every helper is in one of the three states, and a request waits, a selector pulls
or a helper has run its quantum (R110). -/
def State.roundDue (s : State) (l : Nat) : Bool :=
  match s.launches.find l with
  | none => false
  | some r =>
    let sts := s.roundStates r l
    r.det && !sts.contains .none &&
      (sts.any (fun x => x == .ran || x == .selector) || r.cores.any fun c => (s.core c).asks)

/-- DET_ROUND_CLOSE (R110): every helper of every core of the launch is in one of the three states; requests are served in the
order of the cores and contexts. -/
def State.tryRoundClose (s : State) (l : Nat) : Option State :=
  match s.launches.find l with
  | none => none
  | some r =>
    if !r.det || (s.roundStates r l).contains .none then none
    else
      (r.cores.foldlM (fun (s : State) c => ctxIds.foldlM (fun (s : State) h => s.serveRound l c h) s) s).map fun s1 =>
        r.cores.foldl (fun s c => s.modCore c fun k => { k with detRounds := k.detRounds + 1 }) s1

/-- DET_ROUND_CLOSE. -/
def execDetRoundClose (lcnt : Nat) (s : State) : Out := happen s (s.tryRoundClose lcnt)

end Sys2Proof.Machine
end

