-- ==== Sys2Proof/Machine/Launch.lean ====
section
/-! DEFINITION. The host event window (R343 to R345), launches (R346 to R348), counters set and cancelled by the host
(R349), START (R295). -/

namespace Sys2Proof.Machine

end Sys2Proof.Machine

namespace Sys2Proof

open Sys2Proof.Machine

/-- KIND, VALID and NPAY of a window slot (R343). -/
def WinSlot.kind (w : WinSlot) : Nat := fld w.w7 3 1
def WinSlot.valid (w : WinSlot) : Bool := bit w.w7 0
def WinSlot.npay (w : WinSlot) : Nat := fld w.w2 34 32

/-- The tag of a window slot. -/
def WinSlot.tag (w : WinSlot) : Tag := { t := w.w1, m := w.w2.setWidth 32 }

/-- No reserved field is set, and NPAY suits the kind (R343, R344). -/
def WinSlot.good (w : WinSlot) : Bool :=
  decide (fld w.w7 63 4 = 0) && decide (fld w.w2 63 35 = 0) && decide (w.kind ≤ 5) &&
    (if w.kind = 0 then w.npay == 1 || w.npay == 2 || w.npay == 4
     else w.npay == 0 && (if w.kind = 1 then decide (fld w.w0 63 2 = 0) else decide (w.w0 = 0)))

end Sys2Proof

namespace Sys2Proof.Machine

/-! ## The window (R344, R345) -/

/-- WINCRED: a frozen module grants none (R342, R371). -/
def State.credits (s : State) : Nat := if s.stopped then 0 else s.winCred

/-- What a window write of the host comes after: every host write that PCIe orders before it, and what the host has been told
(R101). -/
def State.hostKnows (s : State) : KMap Nat := joinSeen s.hostSeen (s.writtenBy none Writer.host.unit)

/-- A commit is dropped and counted (R344). -/
def State.windowDrop (s : State) : State := { s with winDrop := s.winDrop + 1 }

/-- A commit of a kind: nothing unless the slot is valid and of that kind, dropped where R344 says, else handled. -/
def State.commit (s : State) (kind : Nat) (w : WinSlot) (body : State → State) : State :=
  if !w.valid || w.kind != kind then s
  else if s.credits = 0 ∨ !w.good then s.windowDrop
  else body s

/-- A kind 0 commit becomes an event (R345). It holds its credit until it reaches the landing router (R344). `seen`: what the
window write comes after (R101). -/
def State.hostEvent (s : State) (w : WinSlot) (seen : KMap Nat) : State :=
  if (s.descFault w.w0).isSome then s.windowDrop
  else
    let ev : Ev := { dest := w.w0, tag := w.tag, origin := s.originOf 0 15, seq := s.hostSeq, sendTs := s.jobTime,
                     payload := .words ([w.w3, w.w4, w.w5, w.w6].take w.npay), sendLate := false, bex := false,
                     restartable := false, replay := false, ctl := false }
    let s1 := { s with hostSeq := s.hostSeq + 1, winCred := s.winCred - 1 }
    if s.isLocal w.w0 then
      { s1 with flight := s1.flight ++
          [{ dest := descCore w.w0, ev := ev, cls := .package, pool := none, seen := seen }] }
    else s1.launchEvent 0 ev seen

/-- HOST_EVENT_COMMIT (R345). A commit of the reserved kinds 6 and 7 is dropped (log 31). -/
def execHostEventCommit (w : WinSlot) (s : State) : Out :=
  .next (if w.valid && decide (5 < w.kind) then s.windowDrop else s.commit 0 w fun s => s.hostEvent w s.hostKnows)

/-! ## Launch records (R346, R347) -/

/-- Bytes that the launch unit of a die reads at a global address, within one page; none where it cannot read them. -/
def State.unitRead (s : State) (die : Fin 4) (va : Nat) (n : Nat) : Option (List Byte) :=
  if 2 ^ 56 ≤ va then none
  else match s.walk (mkCore (die.val * 2048)) va with
    | .error _ => none
    | .ok e =>
      let pa := s.pageAddr e va
      if bit e.leaf 1 && populated pa && !s.paUnreachable pa && !s.isLost pa then some (s.mem.read pa n) else none

/-- Doublewords of bytes. -/
def dwordsOf (b : List Byte) (n : Nat) : List DWord := (upto n).map fun i => dw (leNat ((b.drop (8 * i)).take 8))

/-- Blocks of 64 bytes from an address on, each as eight doublewords. -/
def State.unitBlocks (s : State) (die : Fin 4) (va : Nat) : Nat → Option (List (List DWord))
  | 0 => some []
  | n + 1 => do
    let b ← s.unitRead die va 64
    let r ← s.unitBlocks die (va + 64) n
    return dwordsOf b 8 :: r

/-- A completion form has no reserved bit set (R350). -/
def formGood (f : DWord) : Bool :=
  match f.toNat % 4 with
  | 0 => decide (f = 0)
  | 1 => true
  | 2 => decide (fld f 63 13 = 0)
  | _ => !bit f 2

/-- QUANTUM of a record is in range (R346). -/
def quantumGood (q : Nat) : Bool := q == 0 || decide (64 ≤ q) && decide (q ≤ 1048576)

/-- No reserved bit is set, and every field is in its range, the core range and the stack apart (R346, R347). -/
def recordGood (w : Nat → DWord) : Bool :=
  decide (fld (w 0) 63 48 = 0) && quantumGood (fld (w 0) 33 13) && decide (fld (w 2) 63 56 = 0) && decide (fld (w 2) 5 0 = 0) &&
    decide (fld (w 3) 63 56 = 0) && decide (fld (w 3) 5 0 = 0) && decide (1 ≤ fld (w 4) 26 13) &&
    decide (fld (w 4) 26 13 ≤ 8192) && decide (fld (w 4) 39 27 = 0) && decide (fld (w 6) 63 36 = 0) &&
    decide (fld (w 6) 35 18 % 2048 = 0) && formGood (w 7)

/-- A routine record (R336), if it breaks no rule on any core of the range (R293, R294, R33). -/
def State.routineOf (s : State) (first ncore : Nat) (b : List DWord) : Option RoutineRec :=
  let w (i : Nat) : DWord := b.getD i 0
  match bindRec (w 0) (w 1) (w 2) (w 3) with
  | none => none
  | some r =>
    if bit r.code 0 || decide (63 < fld (w 5) 7 0) then none
    else if (upto ncore).all fun i => (s.core (mkCore (first + i))).armGood (w 4) then
      some { bind := r, k := fld (w 4) 4 0, g := BitVec.ofNat 16 (fld (w 4) 31 16), jbuf := BitVec.ofNat 18 (fld (w 4) 49 32),
             slot := mkSlot (fld (w 5) 7 0) }
    else none

/-- The records that a launch binds: all but a set-up record (R348). -/
def Launch.bound (r : Launch) : List RoutineRec := if r.setup then r.recs.tail else r.recs

/-- A window slot of eight words. -/
def winSlot (b : List DWord) : WinSlot :=
  let w (i : Nat) : DWord := b.getD i 0
  { w0 := w 0, w1 := w 1, w2 := w 2, w3 := w 3, w4 := w 4, w5 := w 5, w6 := w 6, w7 := w 7 }

/-- A slot is busy on some core of a range: a live launch has bound it (R347). An unbinding that waits for a reaction
(R351) does not make it busy: the new bind follows it as a slot change (R348). -/
def State.slotBusy (s : State) (first ncore : Nat) (slot : Fin 64) : Bool :=
  s.launches.any fun e => decide (first < e.2.first + e.2.ncore) && decide (e.2.first < first + ncore) &&
    e.2.bound.any fun r => r.slot == slot

/-- The first of `f` numbers from `i` on, modulo `n`, that passes. -/
def findFrom (p : Nat → Bool) (n : Nat) : Nat → Nat → Option Nat
  | _, 0 => none
  | i, f + 1 => if p (i % n) then some (i % n) else findFrom p n (i + 1) f

/-- A free launch counter, whichever the unit takes (R347). -/
def State.freeCounter (s : State) : Option Nat × State :=
  let d := s.draw 12
  (findFrom (fun i => !(s.counter i).live && (s.launches.find i).isNone) 4096 d.1.toNat 4096, d.2)

/-- The launch unit's answer to a record: the reason it refuses it for, or the launch it describes (R347), tested in the
order of the rule. -/
def State.readLaunch (s : State) (die : Fin 4) (va : DWord) (tag : Tag) : Except Nat Launch :=
  match if va.toNat % 64 = 0 then s.unitRead die va.toNat 64 else none with
  | none => .error 1
  | some b =>
    let w (i : Nat) : DWord := (dwordsOf b 8).getD i 0
    let first := fld (w 4) 12 0
    let ncore := fld (w 4) 26 13
    let stk := fld (w 6) 35 18
    if !recordGood w then .error 1
    else if 8192 < first + ncore then .error 4
    else if 0x40000 < stk + 20480 then .error 1
    else match s.unitBlocks die (fld (w 2) 55 0) (fld (w 0) 39 34 + 1), s.unitBlocks die (fld (w 3) 55 0) (fld (w 0) 47 40) with
      | some rs, some ini =>
        match rs.mapM (s.routineOf first ncore) with
        | none => .error 1
        | some recs =>
          let pooln := fld (w 1) 63 32
          if pooln ≠ 0 ∧ !(recs.any fun r => r.bind.pool) then .error 1
          else .ok
            { lcnt := 0, die := die, tag := tag, det := bit (w 0) 9, setup := bit (w 0) 10, fmode := BitVec.ofNat 2 (fld (w 0) 12 11),
              quantum := BitVec.ofNat 32 (if fld (w 0) 33 13 = 0 then 4096 else fld (w 0) 33 13), first := first, ncore := ncore,
              args := w 5, arglen := fld (w 4) 63 40, state := BitVec.ofNat 18 (fld (w 6) 17 0), stk := BitVec.ofNat 18 stk,
              count := (w 1).setWidth 32, parent := if bit (w 0) 8 then none else some (4096 + fld (w 0) 7 0), form := w 7,
              poolN := pooln, recs := recs, init := ini.map winSlot, stage := 1, ranges := [], given := [], todo := [],
              snap := s.snapEn, seen := [], began := none }
      | _, _ => .error 1

/-- A launch is accepted: its counter is set (R348, step 1) and its set-up begins. `seen`: what its starter had seen. -/
def State.accept (s : State) (r : Launch) (l : Nat) (seen : KMap Nat) : State :=
  { s with
    counters := s.counters.put l { count := r.count, ufl := false, canc := false, done := false, live := true,
                                   parent := r.parent, form := r.form, die := r.die, seen := [] }
    launches := s.launches.put l { r with lcnt := l, seen := seen }
    setupQ := vmod s.setupQ r.die fun q => q ++ [l] }

/-! ## Set-up (R348) -/

/-- Change every core of a launch's range. -/
def State.onCores (s : State) (r : Launch) (f : Nat → Core → Core) : State :=
  r.cores.foldl (fun s c => s.modCore c (f c.val)) s

/-- A number lies among the landings of a range. -/
def Launch.hasLanding (r : Launch) (l : Nat) : Bool :=
  decide (landingOf r.first ≤ l) && decide (l ≤ landingOf (r.first + r.ncore - 1))

/-- Steps 1 and 2: DET_CFG and QUANTUM; TLBs and constant caches of the landings, host-page tables of the dies. -/
def State.setupCaches (s : State) (r : Launch) : State :=
  let s1 := if r.det then s.onCores r fun _ k => { k with det := true, detRounds := 0, quantum := r.quantum } else s
  { s1 with
    ltlb := s1.ltlb.filter fun e => !r.hasLanding e.1
    constC := s1.constC.filter fun e => !r.hasLanding e.1
    cores := s1.cores.map fun e => (e.1, if r.hasLanding (landingOf e.1) then { e.2 with tlb := [] } else e.2)
    hostPages := Vector.ofFn fun d =>
      if dieOf r.first ≤ d.val ∧ d.val ≤ dieOf (r.first + r.ncore - 1) then [] else s1.hostPages.get d }

/-- Fault flags are clear when a launch's first event starts (R322). -/
def Core.clearFaults (k : Core) : Core := { k with accFault := Vector.replicate 4 none }

/-- Another live launch uses a core: its count of sequence numbers then goes on (R15; DESIGN CHOICE, log 75). -/
def State.sharedCore (s : State) (c l : Nat) : Bool :=
  s.launches.any fun e => decide (e.1 ≠ l) && decide (e.2.first ≤ c) && decide (c < e.2.first + e.2.ncore)

/-- Step 3 on a core whose slice is idle: g = 1, no layout records, the registers that the launch sets for helpers; sequence
numbers start at 0 (R15). -/
def Core.setupSlice (k : Core) (r : Launch) (shared : Bool) : Core :=
  let k1 := (k.setGang 0).clearFaults
  { k1 with
    seq := if shared then k.seq else 0
    layouts := Vector.ofFn fun i => { k.layouts.get i with record := none }
    lx28 := r.state.setWidth 64, lx29 := r.args, lstk := r.stk
    ctxs := Vector.ofFn fun h => if 1 ≤ h.val ∧ h.val ≤ 10 then { k.ctxs.get h with fmode := r.fmode } else k.ctxs.get h }

/-- Step 4 on a core: binds and arms as slot changes. -/
def Core.setupBinds (k : Core) (r : Launch) (l : Nat) : Core :=
  r.bound.foldl (fun k q =>
    { k with slots := vmod k.slots q.slot fun t =>
        (t.queue (.bind { q.bind with lcnt := l } (some l))).queue (.arm q.k q.g q.jbuf (some l)) }) k

/-- A slot change is a launch's. -/
def SlotChange.ofLaunch (l : Nat) : SlotChange → Bool
  | .bind _ m => m == some l
  | .unbind m => m == some l
  | .arm _ _ _ m => m == some l

/-- A slot change of a launch has not taken effect on a core. -/
def Core.changing (k : Core) (l : Nat) : Bool :=
  (List.finRange 64).any fun i =>
    (match (k.slots.get i).pending with
      | some ch => ch.ofLaunch l
      | none => false) || (k.slots.get i).waiting.any (SlotChange.ofLaunch l)

/-- Whether a core keeps a snapshot ring once every routine of a launch is bound (R369). -/
def Launch.rings (r : Launch) (k : Core) : Bool := r.snap && k.allRestart

/-- Such a core's ring. -/
def Core.setupLog (k : Core) (r : Launch) : Core :=
  if r.rings k then { k with logging := true, ring := if k.logging then k.ring else [], ringTab := k.slots } else k

/-- The image of the routine table is written to the ring of every core that keeps one, its bytes open (R369; log 19). -/
def State.setupRings (s : State) (r : Launch) : Option State :=
  r.cores.foldlM (fun (s : State) c =>
    if !r.rings (s.core c) then some s
    else if !s.cowFits (s.ringPlace c 0x1000) 0x1000 then none
    else
      let s1 := s.ringWrite c ((upto 0x1000).map fun i => Config.free 8 (s.freeCtr + 1 + i))
      some ({ s1 with freeCtr := s1.freeCtr + 0x1000 }.modCore c fun k => k.setupLog r)) s

/-- Step 5 on a core: context 0 becomes live at the launch tag, at the CODE of the set-up record; its other registers are
open (log 32). -/
def Core.setupStart (k : Core) (r : Launch) (l free : Nat) : Core :=
  k.modCtx 0 fun x =>
    { x.clearB with
      live := true, stop := .no, pc := (r.recs.head?.map fun q => q.bind.code).getD 0, fq := [], tnow := r.tag
      setup := some l, run := none, retired := 0, seen := joinSeen x.seen (joinSeen k.endSeen r.seen)
      obsT := 0, obs := [], relS := 0, behind := [], latch := none
      x := Vector.ofFn fun i => match i.val with
        | 0 => 0
        | 28 => r.state.setWidth 64
        | 29 => r.args
        | 31 => dw (r.stk.toNat + 2048)
        | j => Config.free 64 (free + j)
      f := Vector.ofFn fun i => Config.free 64 (free + 32 + i.val)
      v := Vector.ofFn fun i => Config.free 1024 (free + 64 + i.val)
      p := Vector.ofFn fun i => Config.free 32 (free + 96 + i.val) }

/-- Which dies have one unit more than the others: some set of `n` of them (log 33). -/
def poolExtra (n : Nat) : List (List Nat) :=
  match n % 4 with
  | 0 => [[]]
  | 1 => [[0], [1], [2], [3]]
  | 2 => [[0, 1], [0, 2], [0, 3], [1, 2], [1, 3], [2, 3]]
  | _ => [[0, 1, 2], [0, 1, 3], [0, 2, 3], [1, 2, 3]]

/-- The die ranges of a pool: contiguous, in die order, sizes differing by at most one (R41). -/
def poolRanges (n : Nat) (extra : List Nat) : List (Nat × Nat) :=
  let size (d : Nat) : Nat := n / 4 + b2n (extra.contains d)
  let lo (d : Nat) : Nat := ((upto d).map size).foldl (· + ·) 0
  (upto 4).map fun d => (lo d, lo d + size d)

/-- The slot of a pool's units: the first record with POOL, a bound one if there is one. -/
def Launch.poolSlot (r : Launch) : Fin 64 :=
  match (r.bound ++ r.recs).find? fun q => q.bind.pool with
  | some q => q.slot
  | none => 0

/-- A pool event leaves core 0 of the launch's die for a core (R41; log 34). -/
def State.poolEvent (s : State) (r : Launch) (l : Nat) (c : CoreId) : State :=
  let m := mkCore (r.die.val * 2048)
  let dest := dw (2 ^ 43 + c.val * 2 ^ 30 + r.poolSlot.val * 2 ^ 24 + ((s.core c).slots.get r.poolSlot).gen.toNat * 2 ^ 16)
  let e := s.makeEvent m dest r.tag (.words []) false
  { e.2 with flight := e.2.flight ++ [{ dest := c, ev := e.1, cls := s.classOf m dest, pool := some l, seen := r.seen }] }

/-- Step 6: die ranges and pool events. -/
def State.setupPool (s : State) (r : Launch) (l : Nat) : State :=
  if r.poolN = 0 then s
  else
    let cs := poolExtra r.poolN
    let d := s.draw 64
    let s1 := { d.2 with launches := d.2.launches.put l { r with ranges := poolRanges r.poolN (cs.getD (d.1.toNat % cs.length) []) } }
    r.cores.foldl (fun s c => s.poolEvent r l c) s1

/-- Step 7: the initial events are commits of kind 0. -/
def State.setupInit (s : State) (r : Launch) : State :=
  r.init.foldl (fun s w => if w.valid && w.kind != 0 then s.windowDrop else s.commit 0 w fun s => s.hostEvent w r.seen) s

/-- The fault flags of a launch's cores are clear when its first event starts (R322). -/
def State.setupClean (s : State) (r : Launch) : State := s.onCores r fun _ k => k.clearFaults

/-- The launch enters a stage. -/
def State.setStage (s : State) (l : Nat) (r : Launch) (n : Nat) : State :=
  { s with launches := s.launches.put l { r with stage := n } }

/-- One step of a launch's set-up at a die, if it can be taken now. -/
def State.setupOne (s : State) (die : Fin 4) (l : Nat) : Option State :=
  let done (s : State) : State := { s with setupQ := vmod s.setupQ die fun q => removeNat q l }
  match s.launches.find l with
  | none => some (done s)
  | some r =>
    match r.stage with
    | 1 => some ((s.setupCaches r).setStage l { r with todo := r.cores.map (·.val) } 3)
    | 3 =>
      let now := r.todo.filter fun c => (s.core (mkCore c)).sliceIdle
      let later := r.todo.filter fun c => !(s.core (mkCore c)).sliceIdle
      if now.isEmpty && !later.isEmpty then none
      else
        let s1 := now.foldl (fun s c => s.modCore (mkCore c) fun k => k.setupSlice r (s.sharedCore c l)) s
        some (s1.setStage l { r with todo := later } (if later.isEmpty then 4 else 3))
    | 4 => some ((s.onCores r fun _ k => k.setupBinds r l).setStage l r 5)
    | 5 =>
      if r.cores.any fun c => (s.core c).changing l then none
      else if r.setup then
        if r.cores.any fun c => ((s.core c).ctx 0).live then none
        else
          (s.setupRings r).map fun s =>
            let s1 := s.onCores r fun c k => k.setupStart r l (s.freeCtr + 128 * (c - r.first))
            { s1 with freeCtr := s1.freeCtr + 128 * r.ncore }.setStage l r 6
      else (s.setupRings r).map fun s => s.setStage l r 6
    | 6 =>
      if (r.setup && r.cores.any fun c => ((s.core c).ctx 0).live && ((s.core c).ctx 0).setup == some l) ||
          r.cores.any fun c => !(s.core c).sliceIdle then none
      else some (done ((((s.setupClean r).setStage l r 8).setupPool { r with stage := 8 } l).setupInit r))
    | _ => some (done s)

/-- One step of the oldest set-up at a die that can be taken now: a launch that waits holds up no other (R141; log 41). -/
def State.setupStep (s : State) (die : Fin 4) : Option State :=
  (s.setupQ.get die).findSome? fun l => s.setupOne die l

/-- The set-ups at a die go on as far as they can now. -/
def State.setupGo (s : State) (die : Fin 4) : Nat → State
  | 0 => s
  | f + 1 => match s.setupStep die with
    | none => s
    | some s1 => s1.setupGo die f

/-- Steps enough for every launch that waits at a die. -/
def State.setupFuel (s : State) (die : Fin 4) : Nat := 8192 + 8 * (s.setupQ.get die).length

/-- The launch unit of a die handles a record: the launch counter, or the reason of the refusal (R347). `seen`: what its starter
had seen (R101, R295). -/
def State.handleRecord (s : State) (die : Fin 4) (va : DWord) (tag : Tag) (seen : KMap Nat) : Except Nat Nat × State :=
  match s.readLaunch die va tag with
  | .error why => (.error why, s)
  | .ok r =>
    match s.freeCounter with
    | (none, s1) => (.error 2, s1)
    | (some l, s1) =>
      if r.recs.any fun q => s.slotBusy r.first r.ncore q.slot then (.error 3, s)
      else (.ok l, s1.accept r l seen)

/-- The launch acknowledgement (R347). -/
def launchAck : Except Nat Nat → DWord
  | .ok l => dw (1 + 2 * l)
  | .error why => dw (why * 2 ^ 16)

/-- The launch unit cannot read at an address yet: its weight-store bank is away (R70). -/
def State.unitStalls (s : State) (die : Fin 4) (va : Nat) : Bool :=
  decide (va < 2 ^ 56) && (match s.walk (mkCore (die.val * 2048)) va with
    | .ok e => s.bankAway (s.pageAddr e va)
    | .error _ => false)

/-- The launch unit cannot read a record, or a table that it names, yet (R70, R346). -/
def State.recordStalls (s : State) (die : Fin 4) (va : Nat) : Bool :=
  s.unitStalls die va || (match s.unitRead die va 64 with
    | none => false
    | some b =>
      let w (i : Nat) : DWord := (dwordsOf b 8).getD i 0
      recordGood w && (((upto (fld (w 0) 39 34 + 1)).any fun i => s.unitStalls die (fld (w 2) 55 0 + 64 * i)) ||
        (upto (fld (w 0) 47 40)).any fun i => s.unitStalls die (fld (w 3) 55 0 + 64 * i)))

/-- The die that a launch commit goes to. -/
def commitDie (w : WinSlot) : Fin 4 := ⟨w.w0.toNat % 4, Nat.mod_lt _ (by decide)⟩

/-- A launch commit's record is handled: the acknowledgement precedes every write of the launch (R347). -/
def State.launchRecord (s : State) (w : WinSlot) : State :=
  let die := commitDie w
  let r := s.handleRecord die w.w3 w.tag s.hostKnows
  let s1 := if w.w4 = 0 then r.2 else r.2.memWrite .module (hostPa w.w4.toNat) (leBytes 8 (launchAck r.1).toNat)
  s1.setupGo die (s1.setupFuel die)

/-- A kind 1 commit: the launch unit handles the record once it can read it (R347, R70). -/
def State.hostLaunch (s : State) (w : WinSlot) : State :=
  if s.recordStalls (commitDie w) w.w3.toNat then { s with launchWait := s.launchWait ++ [w] } else s.launchRecord w

/-- The first launch commit of a die that has waited for a weight-store bank is handled. -/
def State.launchRetry (s : State) (die : Fin 4) : Option State :=
  match s.launchWait.findIdx? fun w => decide (commitDie w = die) && !s.recordStalls die w.w3.toNat with
  | none => none
  | some i => s.launchWait[i]?.map fun w => { s with launchWait := listDrop s.launchWait i }.launchRecord w

/-- The launch unit of a die goes on: with a set-up that has waited, or with a commit. -/
def State.unitResume (s : State) (die : Fin 4) : Option State :=
  match s.setupStep die with
  | some s1 => some (s1.setupGo die (s1.setupFuel die))
  | none => s.launchRetry die

/-- LAUNCH_COMMIT (R347, R348). -/
def execLaunchCommit (w : WinSlot) (s : State) : Out := .next (s.commit 1 w fun s => s.hostLaunch w)

/-- LAUNCH_SETUP_RESUME (R348): the set-up goes on once what it waits for has happened. -/
def execLaunchSetupResume (die : Fin 4) (s : State) : Out := happen s (s.unitResume die)

/-- START (R295): split-phase; a release at DEVICE towards the launch. -/
def execStartL (g : Guard) (d a : Reg) (s : State) : Out :=
  instr g (fun s => do
    s.notInRestartable
    let x ← s.rdX a
    s.splitReady d
    let (e, s) ← s.globalEA x 64 .load
    s.settled
    let die := dieIx s.cur.val
    waitUntil (!s.recordStalls die e.va.toNat)
    let r := s.handleRecord die e.va (Tag.nextMicro s.cx.tnow) s.cx.seen
    let v : DWord := match r.1 with
      | .ok l => dw l
      | .error _ => BitVec.allOnes 64
    let q := r.2.newReq .start e.va e.pa 64 d 0 0
    let s2 := r.2.post { q with reply := some v }
    return s2.setupGo die (s2.setupFuel die)) s

/-! ## Counters (R349) -/

/-- A kind 2 commit sets a graph, phase or job counter; a live one is left alone and the commit dropped. DESIGN CHOICE: bits of its
completion form that R350 says are zero are ignored (log 93). -/
def State.hostCounter (s : State) (w : WinSlot) : State :=
  let parent : Option (Option Nat) := if w.w5 = BitVec.allOnes 64 then some none else (counterOf w.w5).map some
  if fld w.w3 63 14 ≠ 0 ∨ (w.w5 ≠ BitVec.allOnes 64 ∧ fld w.w5 63 14 ≠ 0) then s.windowDrop
  else match counterOf w.w3, parent with
    | some n, some p =>
      if n < 4096 then s
      else if (s.counter n).live then s.windowDrop
      else s.modCounter n fun _ => { count := w.w4.setWidth 32, ufl := false, canc := false, done := false, live := true,
                                     parent := p, form := w.w6, die := 0, seen := [] }
    | _, _ => s

/-- SET_COUNTER_COMMIT (R349). -/
def execSetCounterCommit (w : WinSlot) (s : State) : Out := .next (s.commit 2 w fun s => s.hostCounter w)

/-- CANCEL_COMMIT (R349): as CANCEL does. -/
def execCancelCommit (w : WinSlot) (s : State) : Out :=
  .next (s.commit 3 w fun s =>
    if fld w.w3 63 14 ≠ 0 then s.windowDrop
    else match counterOf w.w3 with
      | some n => s.cancelCounter n
      | none => s)

end Sys2Proof.Machine
end

