-- ==== Sys2Proof/Machine/Control.lean ====
section
/-! DEFINITION. Branch-target registers, transfers and SYNC.C (R211 to R223). -/

namespace Sys2Proof.Machine

/-- Change a branch-target register of the issuing context. -/
def State.modB (s : State) (n : Fin 8) (f : BReg → BReg) : State := s.modCx fun x => { x with b := vmod x.b n f }

/-- Prepare a register with a computed 64-bit target and start its prefetch (R212, R215, R216). -/
def BReg.prepare (t : DWord) (b : BReg) : BReg :=
  { b with tgt := t.setWidth 56, v := true, nonCanon := decide (fld t 63 56 ≠ 0) }.start

/-- PREP (R215). -/
def execPrep (n : Fin 8) (off : Int) (s : State) : Out :=
  instr .always (fun s => .ok (s.modB n (BReg.prepare (s.cx.pc + ofImm (2 * off))))) s

/-- PREPX (R216). -/
def execPrepx (g : Guard) (n : Fin 8) (a : Reg) (s : State) : Out :=
  instr g (fun s => do
    let x ← s.rdX a
    return s.modB n (BReg.prepare x)) s

/-- The steps of R217 before the assignment of PC: the register that a GO or CALL transfers through. -/
def State.target (s : State) (n : Fin 8) : Except Stop BReg :=
  let b := s.cx.b.get n
  if !b.v then fault 0x03 0 (dw (256 * n.val))
  else if !b.ready && b.f == 0 then .error .wait
  else if b.f ≠ 0 then
    if b.retry then
      .error (.trapIn ⟨0x04, b.tgt.setWidth 64, dw (b.f.toNat + 256 * n.val)⟩ (s.modB n fun b => { b with retry := false }))
    else .error (.waitIn (s.modB n fun b => { b.start with retry := true }))
  else .ok b

/-- Transfer to a prepared target: its buffer is the start of the fetch queue (R213). -/
def State.jump (s : State) (b : BReg) : State :=
  s.modCx fun x => { x with pc := b.tgt.setWidth 64, fqBase := b.tgt.setWidth 64, fq := b.buf, fqSure := true }

/-- GO (R217). -/
def goBody (n : Fin 8) (s : State) : Act := do
  let b ← s.target n
  return (s.modB n fun b => { b with retry := false }).jump b

/-- CALL: the link goes into b0 after the target has been read (R218). -/
def callBody (n : Fin 8) (s : State) : Act := do
  let b ← s.target n
  let link := s.cx.pc + 2
  return ((s.modB n fun b => { b with retry := false }).modB 0 (BReg.prepare link)).jump b

/-- A guarded transfer: untaken when lane 0 equals the sense bit (R205, R217). -/
def guardedJump (sense : Bool) (p : PReg) (body : State → Act) (s : State) : Act :=
  if bit (s.rdP p) 0 = sense then .ok (s.modCx fun x => { x with pc := x.pc + 2 }) else body s

/-- GO. -/
def execGo (n : Fin 8) (s : State) : Out := instrJump (goBody n) s

/-- Guarded GO. -/
def execGoGuarded (n : Fin 8) (sense : Bool) (p : PReg) (s : State) : Out := instrJump (guardedJump sense p (goBody n)) s

/-- CALL. -/
def execCall (n : Fin 8) (s : State) : Out := instrJump (callBody n) s

/-- Guarded CALL. -/
def execCallGuarded (n : Fin 8) (sense : Bool) (p : PReg) (s : State) : Out :=
  instrJump (guardedJump sense p (callBody n)) s

/-- The target image of a register (R219). -/
def BReg.image (b : BReg) : DWord :=
  dw (b2n (decide (b.f ≠ 0)) * 2 ^ 63 + fld b.tgt 55 1 * 2 + b2n b.v)

/-- MFB (R219). -/
def execMfb (g : Guard) (d : Reg) (n : Fin 8) (s : State) : Out := instr g (fun s => s.wrX d (s.cx.b.get n).image) s

/-- MTB (R220). -/
def execMtb (g : Guard) (n : Fin 8) (a : Reg) (s : State) : Out :=
  instr g (fun s => do
    let x ← s.rdX a
    let t := dw (fld x 55 1 * 2)
    return s.modB n fun b =>
      if bit x 0 then BReg.prepare t b else { b with tgt := t.setWidth 56 }.unprepare) s

/-- CLRB: TGT stays (R221). -/
def execClrb (g : Guard) (n : Fin 8) (s : State) : Out := instr g (fun s => .ok (s.modB n BReg.unprepare)) s

/-- TSTB (R222). -/
def execTstb (g : Guard) (d : PReg) (n : Fin 8) (s : State) : Out :=
  instr g (fun s =>
    let b := s.cx.b.get n
    .ok (s.putP d (BitVec.ofNat 32 (b2n b.v + 2 * b2n b.ready + 4 * b2n (decide (b.f ≠ 0)))))) s

/-- A global store, atomic or reduction that SYNC.C waits for (R223). -/
def Req.writes (q : Req) : Bool :=
  match q.kind with
  | .store | .atomic _ => q.fault.isNone
  | _ => false

/-- Restart the prefetch of every prepared register of a context (R223, R373). -/
def Ctx.restartB (x : Ctx) : Ctx :=
  { x with b := Vector.ofFn fun i => if (x.b.get i).v then (x.b.get i).start else x.b.get i }

/-- SYNC.C in either form (R223). -/
def syncCode (s : State) : Act := do
  waitUntil (!(s.cx.reqs.any Req.writes))
  return (s.modMe fun k => { k with code := [], ctxs := Vector.ofFn fun h => (k.ctx h).restartB }).modCx
    fun x => { x with fq := [] }

/-- SYNC.C.L (R223). -/
def execSyncCL (g : Guard) (s : State) : Out := instr g syncCode s

/-- SYNC.C (R223). -/
def execSyncC (s : State) : Out := instrC syncCode s

end Sys2Proof.Machine
end

