-- ==== Sys2Proof/Machine/System.lean ====
section
/-! DEFINITION. The system group, special registers, tags and clocks, the spill registers (R301, R314 to R320). -/

namespace Sys2Proof.Machine

/-! ## Ends and returns -/

/-- A request that END abandons whatever its state: it only reads (R253), or its outcome is known. -/
def Req.endable (q : Req) : Bool :=
  q.isLoad || q.kind == .ocnt || q.kind == .capq || q.fault.isSome || q.reply.isSome

/-- END is a release (R94, R325): the context's writes and object operations are performed, and what comes before them (R108). It
abandons requests that only read (R253). -/
def State.endReady (s : State) : Except Stop Unit := do
  s.syncPoint
  waitUntil (s.me.followed s.curCtx && s.cx.reqs.all Req.endable)

/-- The END of context 0 ends set-up, that of 11 or 12 the routine (R317): no reaction ends. Reactions that start on the core
later come after it (R94, R95). -/
def State.endOther (s : State) (c : CoreId) (h : CtxId) : State :=
  let m := ((s.core c).ctx h).seen
  (s.modCtx c h fun x =>
    { x.clearB with live := false, stop := .no, setup := none, fq := [], reqs := [], latch := none }).modCore c fun k =>
    { k.dropExtx h with endSeen := joinSeen k.endSeen m }

/-- The END of a context other than 13. -/
def State.endContext (s : State) (c : CoreId) (h : CtxId) : State :=
  if h = 0 ∨ h = 11 ∨ h = 12 then s.endOther c h else s.endReaction c h

/-- What a handler's END waits for in the context whose activity it ends, as that context's own END would (R179, R363). -/
def Core.faultedReady (k : Core) : Bool :=
  if hc : k.trap.ctx < 13 then
    let h : CtxId := ⟨k.trap.ctx, Nat.lt_trans hc (by decide)⟩
    (k.ctx h).reqs.all Req.endable && (List.finRange 8).all fun i => (k.streams.get i).endedFor h
  else true

/-- What a handler's END ends: the faulted context's activity (R363), whose end comes after the handler (R107, R108). -/
def State.endFaulted (s : State) : State :=
  let n := s.me.trap.ctx
  if hc : n < 13 then
    let h : CtxId := ⟨n, Nat.lt_trans hc (by decide)⟩
    ((s.dropStreams h).syncWith s.cur h s.cx.seen).endContext s.cur h
  else s

/-- END in either form (R52, R317, R363). Its SENDs have their sequence numbers once they are in the send queue. Streams that
it has bound are unbound (R179). The context that ends has no next instruction. -/
def endBody (s : State) : Except Stop State := do
  s.endReady
  s.endStreams
  let h := s.curCtx
  let s1 := (s.dropStreams h).modMe fun k => k.perf 2 1
  if h = 13 then
    waitUntil s.me.faultedReady
    return (s1.endFaulted.modCx fun x => { x with reqs := [] }).modMe Core.leaveTrap
  else return s1.endContext s.cur h

/-- Run an instruction after which the context has no next instruction, or has set its own PC. -/
def runEnd (body : State → Except Stop State) (s : State) : Out :=
  match body s with
  | .ok s' => .next s'
  | .error e => .next (s.stopWith e)

/-- END.L (R317): a false guard falls through. -/
def execEndL (g : Guard) (s : State) : Out := if s.guardPasses g then runEnd endBody s else .next (s.retire 4)

/-- END (R250, R317). -/
def execEndC (s : State) : Out := runEnd endBody s

/-- NOP (R317). -/
def execNop (g : Guard) (s : State) : Out := instr g (fun s => .ok s) s

/-- NOP.C (R250). -/
def execNopC (s : State) : Out := instrC (fun s => .ok s) s

/-- HALT (R318): the halting instruction retires, the core stops, cause 0x1E goes to the driver. -/
def execHalt (g : Guard) (s : State) : Out :=
  if s.guardPasses g then .next (((s.retire 4).haltCore s.cur).machineCheck 5 s.cur 0x1E 0) else .next (s.retire 4)

/-- BRK (R317). -/
def execBrk (g : Guard) (s : State) : Out := instr g (fun _ => fault 0x1A 0 (dw (2 ^ 31))) s

/-- BRK.C (R250). -/
def execBrkC (s : State) : Out := instrC (fun _ => fault 0x1A 0 (dw (2 ^ 31))) s

/-- The immediate that TRAP reports, as encoded (R319). -/
def trapImm (g : Guard) (imm : Int) : Nat := if g.isGuarded then (imm % 256).toNat else (imm % 8192).toNat

/-- TRAP (R319). -/
def execTrap (g : Guard) (imm : Int) (s : State) : Out :=
  instr g (fun _ => fault 0x19 0 (dw (trapImm g imm + 2 ^ 31))) s

/-- BEAT in either form (R317). -/
def beatBody (s : State) : Act := .ok (s.modCx fun x => if x.run.isSome then { x with beatLeft := s.me.beatIv } else x)

/-- BEAT.L (R317). -/
def execBeatL (g : Guard) (s : State) : Out := instr g beatBody s

/-- BEAT (R250). -/
def execBeatC (s : State) : Out := instrC beatBody s

/-- IDLE (R317): not ready for xA[15:0] cycles; 0 is one round-robin turn. -/
def execIdle (g : Guard) (a : Reg) (s : State) : Out :=
  instr g (fun s => do
    let x ← s.rdX a
    let n := x.toNat % 65536
    return if n = 0 then s else s.modCx fun x => { x with stop := .idle n }) s

/-- The length of the instruction at an address; where it cannot be read, 2 or 4 is open (log 28). A line whose fetch would stall is not
filled (R214). -/
def State.lengthAt (s : State) (c : CoreId) (va : DWord) : Nat × State :=
  match s.fetchHalf c va with
  | (.ok h, s1) => (if isLong h then 4 else 2, if s.fetchStalls c va then s else s1)
  | (.error _, s1) => (if (s1.draw 1).1 = 1 then 4 else 2, (s1.draw 1).2)

/-- A context becomes ready again at an address, and reads its instruction's operands anew. -/
def Ctx.resumeAt (pc : DWord) (x : Ctx) : Ctx := { x with pc := pc, stop := .no, fq := [], latch := none }

/-- A request goes back to its place among those outstanding. -/
def Ctx.putReq (x : Ctx) (q : Req) : Ctx :=
  { x with reqs := (x.reqs.filter fun r => decide (r.id < q.id)) ++ [q] ++ x.reqs.filter fun r => decide (q.id < r.id) }

/-- The fault that a request meets as it is sent again: its module is still out of reach (R84, R297). -/
def State.resendFault (s : State) (q : Req) : Option TrapInfo :=
  if q.kind = .capq then
    (if !s.isLocal q.data && s.unreachable (descDev q.data) then some ⟨0x1D, q.va, (descDev q.data).setWidth 64⟩ else none)
  else s.unreachFault q.va q.pa

/-- A request to be sent again, as it then stands: an atomic is translated again, and its path chosen again, at this instant (R375). -/
def State.retranslate (s : State) (c : CoreId) (q : Req) : Req × State :=
  match q.kind with
  | .atomic op =>
    match s.globalCheck c q.va 8 .store with
    | (.error t, s1) => ({ q with fault := some t }, s1)
    | (.ok e, s1) =>
      let fault :=
        if e.isV || e.isObj then some ⟨0x08, q.va, fi08 .store⟩
        else if s1.toFallback c op e.pa && !e.isHa then some ⟨0x17, q.va, 0⟩
        else s1.unreachFault q.va e.pa
      ({ q with pa := e.pa, ha := e.isHa, queue := s1.toFallback c op e.pa, enc := e.isC, obj := false, fault := fault }, s1)
  | _ => ({ q with fault := s.resendFault q }, s)

/-- A recorded request is sent once again (R253, R362, R375), after what context 13 has done (R108): an object operation on its way through
the landings, or as an ordered request (R109). -/
def State.resend (s : State) (c : CoreId) (h : CtxId) (q : Req) : State :=
  let object := q.kind == .opush || q.kind == .opop || q.kind == .ocnt
  let r := s.retranslate c q
  let ordered := object && (s.core c).det && r.1.fault.isNone
  let q1 := { r.1 with reply := none, fb := none, again := true, sent := !ordered && !(isRemote r.1.pa && !object) }
  let s1 := r.2.modCtx c h fun x => { x.putReq q1 with stop := if ordered then .ordered else x.stop }
  if object && !ordered && q1.fault.isNone then s1.sendOp c h q1 else s1

/-- The return of context 13 to the context whose fault it handles (R320, R362): re-execute, or skip; a deferred record
re-sends its request once, or abandons it. The context comes after context 13 (R108). -/
def State.eret (s : State) : State :=
  let r := s.me.trap
  let skip := bit r.finfo 31
  if hc : r.ctx < 14 then
    let h : CtxId := ⟨r.ctx, hc⟩
    let back (s : State) (pc : DWord) : State :=
      s.modMe fun k => k.modCtx h fun x => (x.resumeAt pc).follow 13 (k.accessEnd 13) (k.ctx 13)
    let s1 :=
      if r.defd then
        match if skip then none else r.req with
        | some q => (back s r.frpc).resend s.cur h q
        | none => back s r.frpc
      else if skip then
        let n := s.lengthAt s.cur r.fpc
        back n.2 (r.fpc + dw n.1)
      else back s r.fpc
    s1.modMe Core.leaveTrap
  else s.modMe Core.leaveTrap

/-- ERET (R320). -/
def execEret (g : Guard) (s : State) : Out :=
  if s.guardPasses g then
    if s.curCtx = 13 then .next (s.modMe fun k => k.perf 2 1).eret else .next (s.trapHere ⟨0x02, 0, 0⟩)
  else .next (s.retire 4)

/-! ## Spill (R39, R316) -/

/-- The event of a spill record at an address (R316), with what the model keeps of the taken event beside the record. -/
def spillEvent (k : Core) (a : Nat) (arr : DWord) : InEv :=
  let w (i : Nat) : Nat := k.spad.readNat (a + 8 * i) 8
  let kind := w 5 % 8
  let len := w 5 / 2 ^ 9 % 4096
  let bytes := k.spad.read (a + 64) len
  let pay : Payload :=
    if kind = 3 then .vector (BitVec.ofNat 1024 (leNat bytes))
    else if kind = 5 then .block bytes
    else .words ((upto (min kind 4)).map fun i => dw (k.spad.readNat (a + 64 + 8 * i) 8))
  let ev : Ev := { dest := dw (w 0), tag := { t := dw (w 1), m := BitVec.ofNat 32 (w 2) }, origin := dw (w 3),
                   seq := BitVec.ofNat 32 (w 2 / 2 ^ 32), sendTs := dw (w 4), payload := pay,
                   sendLate := decide (w 5 / 8 % 2 = 1), bex := decide (w 5 / 16 % 2 = 1),
                   restartable := decide (w 5 / 32 % 2 = 1), replay := decide (w 5 / 64 % 2 = 1), ctl := false }
  let old := k.spilled.find? fun e => e.ev.rkey == ev.rkey
  { ev := { ev with ctl := old.any (·.ev.ctl) }, orig := old.bind InEv.orig, cls := classAt (w 5 / 2 ^ 7), arr := arr, block := none
    late := old.bind InEv.late
    pool := if kind = 0 then some ((old.bind InEv.pool).getD (k.slots.get (descSlot ev.dest)).lcnt) else none,
    rerun := old.any InEv.rerun
    base := old.bind InEv.base, units := (old.map InEv.units).getD [], spent := old.any InEv.spent
    seen := (old.map InEv.seen).getD [] }

/-- Write bytes to a scratchpad; bytes beyond its end go nowhere. -/
def Core.spill (k : Core) (a : Nat) (b : List Byte) : Core := k.spadWrite a (b.take (0x40000 - a))

/-- A take: the greatest entry leaves for the buffer, the floor falls to its key if that is lower (R316). The record, if the
inbox holds an event. -/
def Core.spillTake (k : Core) : List Byte × Core :=
  match greatestFrom 0 k.inbox with
  | none => ([], k)
  | some (i, e) =>
    let b := spillRecord (k.current e)
    let floor := match k.floor with
      | some f => if e.ev.below f then e.ev else f
      | none => e.ev
    (b, { ((k.removeIn i).dropBlock e.block).spill k.spillBuf.toNat b with floor := some floor, spilled := e :: k.spilled })

/-- A put can enter now (R316, R30): no firing of the crossbar waits for the entry (R51). -/
def Core.canPut (k : Core) (a : Nat) : Bool :=
  decide (k.inbox.length < 64) && k.noFiring && (!(spillEvent k a 0).ev.payload.isBlock || k.freeBlock.isSome)

/-- A put: the floor rises to the key of the record, and the event enters without tests (R316, R39). -/
def State.spillPutAt (s : State) (c : CoreId) (a : Nat) : State :=
  let e := spillEvent (s.core c) a s.jobTime
  (s.modCore c fun k =>
    { k with floor := some e.ev, spilled := k.spilled.filter fun f => f.ev.rkey != e.ev.rkey }).place c e e.ev.rkey false

/-- A write of SPILL_N: zero removes the floor (R39, R316). -/
def Core.setSpillN (k : Core) (v : Word) : Core := { k with spillN := v, floor := if v = 0 then none else k.floor }

/-! ## Special registers (R18, R30, R35, R46, R70, R110, R125, R141, R314 to R316, R359, R387) -/

/-- LATE_CLASS (R35). -/
def LateRec.classWord (r : LateRec) : DWord :=
  dw (classCode r.cls + b2n r.sl * 4 + b2n r.bx * 8 + b2n r.rp * 16)

/-- CAUSE (R359). -/
def TrapRec.causeWord (r : TrapRec) : DWord := dw (r.cause.toNat + r.ctx * 2 ^ 8 + b2n r.defd * 2 ^ 12)

/-- GANG_CFG (R141). -/
def gangCfg (c : CoreId) (glog : BitVec 3) : DWord :=
  dw (glog.toNat + posOf c.val % 2 ^ glog.toNat * 2 ^ 3 + posOf c.val / 2 ^ glog.toNat * 2 ^ 7)

/-- The value of a special register for a context of a core; SPILL_TAKE reads 0 here (R314). -/
def State.special (s : State) (c : CoreId) (h : CtxId) (r : SpecialReg) : DWord :=
  let k := s.core c
  let x := k.ctx h
  match r with
  | .tnowT => x.tnow.t
  | .tnowM => x.tnow.m.setWidth 64
  | .clock => dw (s.clock c)
  | .horizon => dw k.horizon
  | .lastT => k.last.t
  | .lastM => k.last.m.setWidth 64
  | .tagunit => k.tagunit.setWidth 64
  | .dbDie => k.dbDie.setWidth 64
  | .dbPkg => k.dbPkg.setWidth 64
  | .dbChas => k.dbChas.setWidth 64
  | .dbFar => k.dbFar.setWidth 64
  | .ebound => k.eboundFar ++ k.eboundCh
  | .inclass => dw (1 + 2 * k.inclass.toNat)
  | .coreId => dw c.val
  | .landingId => dw (landingOf c.val)
  | .dieId => dw (dieOf c.val)
  | .devCoord => s.devCoord.setWidth 64
  | .ctxId => dw h.val
  | .slot => x.slot.setWidth 64
  | .origin => x.origin
  | .joinN => x.joinN.setWidth 64
  | .fflags => x.fflags.setWidth 64
  | .fmode => x.fmode.setWidth 64
  | .iflags => k.iflags.setWidth 64
  | .lateT => k.late.t
  | .lateM => k.late.m.setWidth 64
  | .lateOrig => k.late.orig
  | .lateSend => k.late.send
  | .lateArr => k.late.arr
  | .lateLastT => k.late.lastT
  | .lateLastM => k.late.lastM.setWidth 64
  | .lateClass => k.late.classWord
  | .cause => k.trap.causeWord
  | .fpc => k.trap.fpc
  | .faddr => k.trap.faddr
  | .finfo => k.trap.finfo
  | .tvec => k.tvec.setWidth 64
  | .frpc => k.trap.frpc
  | .tcfg => dw (k.tcfgBudget.toNat + b2n k.tcfgInf11 * 2 ^ 32 + b2n k.tcfgInf14 * 2 ^ 33)
  | .tstk => k.tstk.setWidth 64
  | .beatIv => k.beatIv.setWidth 64
  | .beatLeft => x.beatLeft.setWidth 64
  | .gangCfg => gangCfg c k.glog
  | .staleCnt => k.staleCnt.setWidth 64
  | .inboxN => dw k.inbox.length
  | .spillN => k.spillN.setWidth 64
  | .spillTake => 0
  | .spillPut => k.spillPut.setWidth 64
  | .spillBuf => k.spillBuf.setWidth 64
  | .bexCnt => k.bexCnt.setWidth 64
  | .blkarea => dw (k.blkFirst.toNat + k.blkN.toNat * 8)
  | .detCfg => dw (3 * b2n k.det + k.detRounds.toNat * 2 ^ 32)
  | .quantum => k.quantum.setWidth 64
  | .wsCal => s.wsCal
  | .wsPeriod => s.wsPeriod.setWidth 64
  | .wsWindow => s.wsWindow.setWidth 64

/-- MFS (R314, R316): a read of SPILL_TAKE in context 12 takes an entry. -/
def execMfs (d : Reg) (r : SpecialReg) (s : State) : Out :=
  instr .always (fun s => do
    s.regReady d
    if r = .spillTake ∧ s.curCtx = 12 then
      let t := s.me.spillTake
      return (s.modMe fun _ => t.2).putX d (dw t.1.length)
    else return s.putX d (s.special s.cur s.curCtx r)) s

/-- TAGUNIT accepts a write (R18). -/
def Core.tagunitOpen (k : Core) (h : CtxId) (v : Nat) : Bool :=
  h == 0 && k.inbox.isEmpty && decide (1 ≤ v) && decide (v ≤ 1000000) &&
    !((List.finRange 14).any fun i => decide (1 ≤ i.val) && decide (i.val ≤ 10) && (k.ctx i).live)

/-- Two byte ranges overlap. -/
def overlaps (a n b m : Nat) : Bool := decide (a < b + m) && decide (b < a + n) && n != 0 && m != 0

/-- The join buffers of a slot that BLKAREA must keep clear of: armed, or with an ARM pending (R30). -/
def Slot.joinBufs (t : Slot) : List (Nat × Nat) :=
  let of : SlotChange → List (Nat × Nat)
    | .arm k _ j _ => if 1 < k then [(j.toNat, k * 128)] else []
    | _ => []
  (if 1 < t.k then [(t.jbuf.toNat, t.k * 128)] else []) ++
    (match t.pending with
      | some ch => of ch
      | none => []) ++ (t.waiting.map of).flatten

/-- BLKAREA accepts a write (R30). -/
def Core.blkOpen (k : Core) (first n : Nat) : Bool :=
  decide (first + n ≤ 8) && k.blkUsed.isEmpty &&
    !((List.finRange 64).any fun i => (k.slots.get i).joinBufs.any fun b =>
      overlaps (0x3C000 + first * 2048) (n * 2048) b.1 b.2)

/-- The write of a core's special register: RW fields take the value, W1C fields clear, RO fields stay (R314). -/
def Core.writeSpecial (k : Core) (h : CtxId) (r : SpecialReg) (v : DWord) : Core :=
  match r with
  | .tagunit => if k.tagunitOpen h (v.toNat % 2 ^ 20) then { k with tagunit := v.setWidth 20 } else k
  | .dbDie => { k with dbDie := v.setWidth 32 }
  | .dbPkg => { k with dbPkg := v.setWidth 32 }
  | .dbChas => { k with dbChas := v.setWidth 32 }
  | .dbFar => { k with dbFar := v.setWidth 32 }
  | .ebound => { k with eboundCh := v.setWidth 32, eboundFar := (v >>> 32).setWidth 32 }
  | .inclass => { k with inclass := (v >>> 1).setWidth 3 }
  | .iflags => { k with iflags := k.iflags &&& ~~~(v.setWidth 2) }
  | .fflags => k.modCtx h fun x => { x with fflags := x.fflags &&& ~~~(v.setWidth 5) }
  | .fmode => k.modCtx h fun x => { x with fmode := v.setWidth 2 }
  | .finfo => { k with trap := { k.trap with finfo := (k.trap.finfo &&& ~~~(dw (2 ^ 31))) ||| (v &&& dw (2 ^ 31)) } }
  | .tvec => { k with tvec := dw (fld v 55 1 * 2) |>.setWidth 56 }
  | .tcfg => { k with tcfgBudget := v.setWidth 32, tcfgInf11 := bit v 32, tcfgInf14 := bit v 33 }
  | .tstk => { k with tstk := v.setWidth 18 }
  | .beatIv => { k with beatIv := v.setWidth 32 }
  | .staleCnt => if v.setWidth 32 = (0 : Word) then k else { k with staleCnt := 0 }
  | .bexCnt => if v.setWidth 32 = (0 : Word) then k else { k with bexCnt := 0 }
  | .spillN => k.setSpillN (v.setWidth 32)
  | .spillBuf => { k with spillBuf := v.setWidth 18 }
  | .spillPut => if h = 12 then { k with spillPut := v.setWidth 18 } else k
  | .blkarea => if k.blkOpen (fld v 2 0) (fld v 6 3) then { k with blkFirst := v.setWidth 3, blkN := (v >>> 3).setWidth 4 } else k
  | .tnowT | .tnowM | .clock | .horizon | .lastT | .lastM | .coreId | .landingId | .dieId | .devCoord | .ctxId | .slot
  | .origin | .joinN | .lateT | .lateM | .lateOrig | .lateSend | .lateArr | .lateLastT | .lateLastM | .lateClass | .cause
  | .fpc | .faddr | .frpc | .beatLeft | .gangCfg | .inboxN | .spillTake | .detCfg | .quantum | .wsCal | .wsPeriod
  | .wsWindow => k

/-- MTS (R314, R316): a write of SPILL_PUT in context 12 replays a record, and waits while it cannot enter. -/
def execMts (r : SpecialReg) (d : Reg) (s : State) : Out :=
  instr .always (fun s => do
    let v ← s.rdX d
    if r = .spillPut ∧ s.curCtx = 12 then
      let a := v.toNat % 2 ^ 18
      waitUntil (s.me.canPut a)
      return (s.modMe fun k => k.writeSpecial 12 .spillPut v).spillPutAt s.cur a
    else return s.modMe fun k => k.writeSpecial s.curCtx r v) s

/-! ## Tags and clocks (R301) -/

/-- Write a special register's value to xD. -/
def readInto (r : SpecialReg) (d : Reg) (s : State) : Act := s.wrX d (s.special s.cur s.curCtx r)

/-- TAGT. -/
def execTagt (g : Guard) (d : Reg) (s : State) : Out := instr g (readInto .tnowT d) s

/-- TAGM. -/
def execTagm (g : Guard) (d : Reg) (s : State) : Out := instr g (readInto .tnowM d) s

/-- CLK. -/
def execClk (g : Guard) (d : Reg) (s : State) : Out := instr g (readInto .clock d) s

/-- HORZ. -/
def execHorz (g : Guard) (d : Reg) (s : State) : Out := instr g (readInto .horizon d) s

/-- LASTT. -/
def execLastt (g : Guard) (d : Reg) (s : State) : Out := instr g (readInto .lastT d) s

/-- LASTM. -/
def execLastm (g : Guard) (d : Reg) (s : State) : Out := instr g (readInto .lastM d) s

/-- xD ← f(class named by xA[1:0]); a nonzero xA[63:2] is 0x02 (R301). -/
def classRead (f : Core → RouteClass → Nat) (d a : Reg) (s : State) : Act := do
  let x ← s.rdX a
  check (decide (fld x 63 2 = 0)) 0x02
  s.wrX d (dw (f s.me (classAt x.toNat)))

/-- BOUND (R301). -/
def execBound (g : Guard) (d a : Reg) (s : State) : Out := instr g (classRead Core.delay d a) s

/-- EBND (R301). -/
def execEbnd (g : Guard) (d a : Reg) (s : State) : Out := instr g (classRead Core.clockErr d a) s

/-! ## The happenings of the spill routine (R316, R39, R40) -/

/-- The place of the next record in a core's spill heap (R342; log 76). -/
def State.heapPlace (s : State) (c : CoreId) (n : Nat) : Nat := s.freePlace s.spillBase s.spillLog c n

/-- The spill routine writes a record to the heap in HBM (R39): where in the core's area it stands is open (log 76). It keeps
SPILL_N. -/
def State.heapStore (s : State) (c : CoreId) (b : List Byte) : State :=
  ((s.draw 64).2.memWrite (.context c 12) (s.heapPlace c b.length) b).modCore c fun k =>
    { k with heap := k.heap ++ [b], spillN := BitVec.ofNat 32 (k.heap.length + 1) }

/-- SPILL_TAKE_READ: the spill routine reads SPILL_TAKE and writes the record to the heap; it takes no entry that the heap cannot
hold (R39, R40). -/
def State.trySpill (s : State) (c : CoreId) (d : Reg) : Option State :=
  let t := (s.core c).spillTake
  if !((s.core c).ctx 12).live then none
  else if t.1.isEmpty then some (s.modCtx c 12 fun x => x.setX d 0)
  else if !s.heapTakes (s.core c) t.1.length || !s.cowFits (s.heapPlace c t.1.length) t.1.length then none
  else some (((s.modCore c fun _ => t.2).modCtx c 12 fun x => x.setX d (dw t.1.length)).heapStore c t.1)

/-- A record's key, as the event that it describes. -/
def recordEv (b : List Byte) : Ev :=
  let w (i : Nat) : Nat := leNat ((b.drop (8 * i)).take 8)
  { dest := dw (w 0), tag := { t := dw (w 1), m := BitVec.ofNat 32 (w 2) }, origin := dw (w 3)
    seq := BitVec.ofNat 32 (w 2 / 2 ^ 32), sendTs := dw (w 4), payload := .words [], sendLate := false, bex := false
    restartable := false, replay := false, ctl := false }

/-- The least record of a heap, with its index (R39). -/
def leastRecord : Nat → List (List Byte) → Option (Nat × List Byte)
  | _, [] => none
  | i, b :: r =>
    match leastRecord (i + 1) r with
    | none => some (i, b)
    | some (j, q) => if (recordEv q).below (recordEv b) then some (j, q) else some (i, b)

/-- The spill routine brings the least record of its heap to a scratchpad address (R39). -/
def Core.fromHeap (k : Core) (a : Nat) : Core :=
  match leastRecord 0 k.heap with
  | some (i, b) => { k.spill a b with heap := listDrop k.heap i }
  | none => k

/-- SPILL_PUT_WRITE: the spill routine writes SPILL_PUT, once the record can enter: the least of its heap, or with an empty heap
what stands at the address. -/
def State.tryPut (s : State) (c : CoreId) (a : BitVec 18) : Option State :=
  let k := (s.core c).fromHeap a.toNat
  if (k.ctx 12).live && k.canPut a.toNat then
    let t := (s.setCore c { k with spillPut := a }).spillPutAt c a.toNat
    some (if (s.core c).heap.isEmpty then t else t.modCore c fun q => q.setSpillN (BitVec.ofNat 32 q.heap.length))
  else none

/-- SPILL_TAKE_READ. -/
def execSpillTakeRead (c : CoreId) (d : Reg) (s : State) : Out := happen s (s.trySpill c d)

/-- SPILL_PUT_WRITE. -/
def execSpillPutWrite (c : CoreId) (addr : BitVec 18) (s : State) : Out := happen s (s.tryPut c addr)

/-- SPILL_N_WRITE: SPILL_N is written; zero removes the floor. -/
def execSpillNWrite (c : CoreId) (v : Word) (s : State) : Out := .next (s.modCore c fun k => k.setSpillN v)

/-- What the spill routine does next: it takes while the inbox is full, and puts the least record once the floor bars the head
(R39). -/
def State.autoSpill (c : CoreId) (s : State) : Option State :=
  let k := s.core c
  if !(k.ctx 12).live then none
  else if k.inbox.length = 64 then s.trySpill c 1
  else if !k.heap.isEmpty && k.head.isNone then s.tryPut c k.spillBuf
  else none

end Sys2Proof.Machine
end

