-- ==== Sys2Proof/Machine/Image.lean ====
section
/-! DEFINITION. The images of pre-emption and of the checkpoint cut (R372, R357). -/

namespace Sys2Proof.Machine

/-- Bytes of a part of an image whose form the manual leaves open: an open function of what the part holds (log 36). -/
def openBytes {α : Type} (part : Nat) (v : α) (n : Nat) : List Byte := (upto n).map fun i => Config.imageByte part v i

/-- Values as bytes, `n` each. -/
def packed {w : Nat} (n : Nat) (vs : List (BitVec w)) : List Byte := (vs.map fun (v : BitVec w) => leBytes n v.toNat).flatten

/-- Full/empty bits: bit k of byte j is word 8j + k. -/
def Core.feBytes (k : Core) : List Byte :=
  (upto 0x1000).map fun j => BitVec.ofNat 8 (((upto 8).map fun i => if k.full.contains (8 * j + i) then 2 ^ i else 0).foldl (· + ·) 0)

/-- The target image of a branch-target register (R219), then F in the next doubleword. -/
def BReg.record (b : BReg) : List Byte :=
  leBytes 8 (b2n b.v + fld b.tgt 55 1 * 2 + b2n (decide (b.f ≠ 0)) * 2 ^ 63) ++ leBytes 8 b.f.toNat

/-- A context record (R372): registers; PC, state, tags; up to 16 requests; the trap records given. -/
def Ctx.record (x : Ctx) (recs : List TrapRec) : List Byte :=
  packed 8 x.x.toList ++ packed 8 x.f.toList ++ packed 128 x.v.toList ++ packed 4 x.p.toList ++
    (x.b.toList.map BReg.record).flatten ++
    openBytes 0 (x.pc, x.live, x.stop, x.fflags, x.fmode, x.beatLeft, x.tnow, x.slot, x.origin, x.joinN) 0x40 ++
    openBytes 1 (x.reqs.take 16) 0x200 ++ openBytes 2 recs 0xB00

/-- The trap records of a core that are pending for a context, the one that a handler serves among them (R360, R362). -/
def Core.recsOf (k : Core) (h : CtxId) : List TrapRec :=
  (if (k.ctx 13).live then k.trap :: k.recs else k.recs).filter fun r => r.ctx == h.val

/-- An inbox entry: header and up to 128 payload bytes; a block payload stands in the scratchpad. -/
def inboxRecord (e : InEv) : List Byte :=
  let r := spillRecord e
  let b := if e.ev.payload.isBlock then r.take 64 else r.take 192
  b ++ openBytes 3 b.length (192 - b.length)

/-- Events in R14 order. -/
def inOrder (evs : List InEv) : List InEv := evs.foldl (fun l e => insertEv e l) []

/-- The inbox of an image: up to 64 entries in R14 order. -/
def inboxImage (evs : List InEv) : List Byte :=
  let b := (((inOrder evs).take 64).map inboxRecord).flatten
  b ++ openBytes 4 evs.length (0x3000 - b.length)

/-- An event on its way, as an arrival. -/
def State.asArrival (s : State) (f : Flight) : Arrival :=
  { ev := f.ev, cls := f.cls, arr := s.jobTime, pool := f.pool, seen := f.seen, replay := none }

/-- An arrival as an image holds it: a record that a spare core still has to replay as it stands (R369). -/
def Arrival.asEntry (a : Arrival) : InEv := a.replay.getD (a.entry a.ev none)

/-- The events that the inbox image of a core holds: those of its inbox, those held back, and those sent to it that have not
arrived (R357, R374). An event whose block has not come whole has not come (R380). -/
def State.imageEvents (s : State) (c : CoreId) : List InEv :=
  let way := (s.flight.filter fun f => f.dest == c).map s.asArrival
  (s.core c).inbox.map (s.core c).current ++ ((s.core c).held ++ way).map Arrival.asEntry

/-- The block slots of a core's inbox, in the scratchpad of its image (R372). -/
def Core.withBlocks (k now : Core) : Core :=
  now.inbox.foldl (fun k e => match e.block, e.ev.payload with
    | some i, .block b => { k with spad := k.spad.write (now.blockAddr i) (now.spad.read (now.blockAddr i) b.length) }
    | _, _ => k) k

/-- The execution-model and trap registers of a core, as R372 names them. -/
def coreRegs : List SpecialReg :=
  [.lastT, .lastM, .tagunit, .dbDie, .dbPkg, .dbChas, .dbFar, .ebound, .inclass, .iflags, .lateT, .lateM, .lateOrig, .lateSend,
   .lateArr, .lateLastT, .lateLastM, .lateClass, .cause, .fpc, .faddr, .finfo, .tvec, .frpc, .tcfg, .tstk, .beatIv, .staleCnt,
   .spillN, .spillPut, .spillBuf, .bexCnt, .blkarea, .detCfg, .quantum]

/-- A core's image, 512 KiB (R372), with the inbox given. -/
def State.coreImage (s : State) (c : CoreId) (k : Core) (inbox : List InEv) : List Byte :=
  k.spad.read 0 0x40000 ++ k.feBytes ++ (ctxIds.map fun h => (k.ctx h).record (k.recsOf h)).flatten ++
    (k.accs.toList.map fun (a : Acc) => packed 4 a.toList).flatten ++ openBytes 5 (k.accFault, k.glog, k.mq, k.mHist) 0x1000 ++
    inboxImage inbox ++ openBytes 6 k.slots 0x1000 ++ openBytes 7 (k.fifo, k.chans) 0x400 ++
    (k.streams.toList.map fun (t : Stream) => openBytes 8 t 0x800).flatten ++
    openBytes 9 (coreRegs.map ((s.setCore c k).special c 0), k.seq, k.floor, k.caps, k.xbar, k.pcfg, k.pcnt) 0x1000 ++
    List.replicate (0x80000 - 0x68400) 0

/-- The module record (R372): counters, pool ranges, the group table with saved injections, the host-page tables, what the snapshot
rings hold, JOBOFF. -/
def State.moduleRecord (s : State) : List Byte :=
  openBytes 10 (s.counters, s.launches.map fun e => (e.1, e.2.ranges), s.groups, s.hostPages,
    s.cores.map fun e => (e.1, e.2.logging, e.2.ring), s.joboff) 0x40000

/-- The place of a core's image in a save area. -/
def imageAt (base : Nat) (c : CoreId) : Nat := base + 0x40000 + c.val * 0x80000

/-- The save area: the module record, then the image of every core, with the events that pass. -/
def State.writeImages (s : State) (base : Nat) (cores : KMap Core) (keep : InEv → Bool) : State :=
  (upto 8192).foldl (fun (t : State) c =>
    let k := (cores.get Core.reset (mkCore c).val).withBlocks (s.core (mkCore c))
    t.memWrite .module (imageAt base (mkCore c)) (s.coreImage (mkCore c) k ((s.imageEvents (mkCore c)).filter keep)))
    (s.memWrite .module base s.moduleRecord)

/-- The pages of a save area have their places in the reserve of a cut (R358). -/
def State.imageFits (s : State) (base : Nat) : Bool := s.cowFits base (0x40000 + 8192 * 0x80000)

/-! ## Restoring (R373) -/

/-- Memory from an address on, as a memory of `n` bytes of its own. -/
def Memory.window (m : Memory) (a n : Nat) : Memory :=
  (m.filter fun e => decide (a ≤ e.1) && decide (e.1 < a + n)).map fun e => (e.1 - a, e.2)

/-- A branch-target register as its record gives it; one that is unchanged keeps what the record does not hold. -/
def BReg.restore (b : BReg) (m : Memory) (a : Nat) : BReg :=
  if m.read a 16 = b.record then b
  else { b with v := bit (m.read64 a) 0, tgt := BitVec.ofNat 56 (fld (m.read64 a) 55 1 * 2), f := BitVec.ofNat 8 (m.readNat (a + 8) 1) }

/-- A context whose registers are those of its record. -/
def Ctx.restore (x : Ctx) (m : Memory) (a : Nat) : Ctx :=
  { x with
    x := Vector.ofFn fun i => m.read64 (a + 8 * i.val)
    f := Vector.ofFn fun i => m.read64 (a + 0x100 + 8 * i.val)
    v := Vector.ofFn fun i => BitVec.ofNat 1024 (m.readNat (a + 0x200 + 128 * i.val) 128)
    p := Vector.ofFn fun i => BitVec.ofNat 32 (m.readNat (a + 0x1200 + 4 * i.val) 4)
    b := Vector.ofFn fun i => (x.b.get i).restore m (a + 0x1240 + 16 * i.val) }

/-- An inbox entry as its record at an address gives it; one whose record is unchanged stays as it is. -/
def InEv.restore (e : InEv) (k : Core) (m : Memory) (a : Nat) : InEv :=
  if m.read a 192 = inboxRecord (k.current e) then e
  else
    let n := spillEvent { k with spad := m, spilled := [e] } a e.arr
    { e with ev := { n.ev with payload := if e.ev.payload.isBlock then e.ev.payload else n.ev.payload, ctl := e.ev.ctl } }

/-- The inbox as the image gives it. -/
def Core.restoreInbox (k : Core) (m : Memory) (a : Nat) : List InEv :=
  let all := inOrder (k.inbox.map k.current)
  k.inbox.map fun e => match all.findIdx? fun f => f.ev.rkey == e.ev.rkey with
    | some i => e.restore k m (a + 192 * i)
    | none => e

/-- A core as its image gives it: what the manual lays out bit by bit is read, the rest is what was saved (R372, R373, log 36). -/
def Core.fromImage (k : Core) (m : Memory) (a : Nat) : Core :=
  { k with
    spad := m.window a 0x40000
    full := (upto 0x8000).filter fun w => bit (m.get (a + 0x40000 + w / 8)) (w % 8)
    ctxs := Vector.ofFn fun h => (k.ctxs.get h).restore m (a + 0x41000 + 0x2000 * h.val)
    accs := Vector.ofFn fun n => Vector.ofFn fun e => BitVec.ofNat 32 (m.readNat (a + 0x5D000 + 1024 * n.val + 4 * e.val) 4)
    inbox := k.restoreInbox m (a + 0x5F000) }

end Sys2Proof.Machine
end

