-- ==== Sys2Proof/Machine/Freeze.lean ====
section
/-! DEFINITION. Draining, pre-emption (R155, R370 to R374), the checkpoint cut and its drain (R357, R358, R386). -/

namespace Sys2Proof.Machine

/-! ## Draining (R155, R371) -/

/-- Repeat a step while it can be taken, `f` times at most. -/
def repeatStep (step : State → Option State) : Nat → State → State
  | 0, s => s
  | f + 1, s => match step s with
    | none => s
    | some s1 => repeatStep step f s1

/-- The first of two steps that can be taken. -/
def orElse (a b : State → Option State) (s : State) : Option State :=
  match a s with
  | some t => some t
  | none => b s

/-- The first index below `n` at which a step can be taken. -/
def firstIndex (step : State → Nat → Option State) (s : State) : Nat → Option State
  | 0 => none
  | n + 1 => orElse (fun s => firstIndex step s n) (fun s => step s n) s

/-- The numbers of the cores that differ from reset. -/
def State.liveCores (s : State) : List CoreId := s.cores.map fun e => mkCore e.1

/-- Started matrix operations run to their end or to their fault; stores and other engine writes finish. -/
def State.drainSlice (s : State) (c : CoreId) : State :=
  let s1 := repeatStep (orElse (·.tryMma c) (orElse (·.tryMmaFault c) (·.tryLeave c))) 32 s
  repeatStep (fun t => firstIndex (fun u i => u.engineWrite c i) t (t.core c).engW.length) (s1.core c).engW.length s1

/-- The running copy request of each channel completes, or meets its fault. -/
def State.drainCopies (s : State) (c : CoreId) : State :=
  ([0, 1, 2, 3] : List (Fin 4)).foldl (fun s ch =>
    ((orElse (·.tryCopyDone c ch) (·.tryChannelFault c ch false)) s).getD s) s

/-- One step of a context's requests: replies in flight, writes, operations at their homes. -/
def State.reqStep (c : CoreId) (h : CtxId) (s : State) : Option State :=
  firstIndex (fun t k => orElse (·.tryReply c h k) (orElse (·.tryGrant c h k) (orElse (·.tryAtomic c h k)
    (orElse (·.tryStv c h k) (orElse (·.tryRecl c h k) (·.tryCapq c h k))))) t) s ((s.core c).ctx h).reqs.length

/-- The requests of a core go as far as they can; those that wait at their homes stay (R371). -/
def State.drainReqs (s : State) (c : CoreId) : State :=
  ctxIds.foldl (fun s h => repeatStep (State.reqStep c h) (4 * ((s.core c).ctx h).reqs.length) s) s

/-- Pairing windows expire and object operations fall through to the homes (R371). -/
def State.drainObjects (s : State) : State :=
  let all := s.objMsgs ++ (s.windows.map fun e => e.2).flatten
  let s1 := { s with objMsgs := all.map fun (m : ObjMsg) => { m with path := [] }, windows := [] }
  repeatStep (fun t => firstIndex State.tryHome t t.objMsgs.length) all.length s1

/-- Multicast stores end on every branch. -/
def State.drainMcasts (s : State) : State :=
  repeatStep (fun t => firstIndex (fun u i => u.tryMcast i []) t t.mcasts.length) s.mcasts.length s

/-- Events leave the send queues and reach their receivers; capability messages arrive. -/
def State.drainEvents (s : State) : State :=
  let s1 := s.liveCores.foldl (fun s c => repeatStep (·.tryDepart c) (s.core c).sendQ.length s) s
  let s2 := repeatStep (fun t => firstIndex State.tryCap t t.capMsgs.length) (2 * s1.capMsgs.length) s1
  repeatStep (fun t => firstIndex State.tryArrival t t.flight.length) (2 * s2.flight.length + 64) s2

/-- The module drains: object operations that wait for their contexts' writes follow those. -/
def State.drain (s : State) : State :=
  let cs := s.liveCores
  let s1 := cs.foldl (fun s c => (s.drainSlice c).drainCopies c) s
  let s2 := cs.foldl State.drainReqs s1.drainObjects
  let s3 := (s2.groups.map (·.1)).foldl (fun s g => (s.tryRound g).getD s) s2
  let s4 := cs.foldl (fun s c => (s.drainSlice c).drainReqs c) s3.drainMcasts
  s4.drainObjects.drainEvents

/-- A request has left for another module, and its packet is no longer kept: its reply is in flight (R382). -/
def State.replyOnWay (s : State) (c : CoreId) (h : CtxId) (q : Req) : Bool :=
  isRemote q.pa && q.sent && q.reply.isNone && q.fault.isNone && (match q.kind with
    | .load _ | .ldc _ | .lda _ | .atomic _ => true
    | _ => false) && !(s.kept.any fun e => e.req == some (c, h, q.id))

/-- The module is drained: no copy request runs, no engine has a word to write, no multicast store and no reply is in flight. What
waits then (an element for its bank, for its line or for a place in the reserve) holds up the save (R371). -/
def State.drained (s : State) : Bool :=
  s.mcasts.isEmpty && s.liveCores.all fun c =>
    let k := s.core c
    ((List.finRange 4).all fun i => (k.chans.get i).running.isNone || (k.chans.get i).fault.isSome) && k.engW.isEmpty &&
      ctxIds.all fun h => !((k.ctx h).reqs.any fun q => s.replyOnWay c h q)

/-! ## Saving (R370 to R374) -/

/-- The drained module is saved at PEBASE: PESTAT reads 2, and FREEZE clears. -/
def State.saveModule (s : State) : State :=
  let base := s.pebase.toNat * 65536
  let t := s.writeImages base s.cores fun _ => true
  { t with
    saved := t.saved.put base { cores := s.cores, counters := s.counters, launches := s.launches, groups := s.groups,
                                hostPages := s.hostPages, joboff := s.joboff }
    pestat := 2, pectl := t.pectl &&& 6, peMarks := [], peSent := false }

/-- A cut is in progress. -/
def State.cutting (s : State) : Bool := decide (s.ckState = 1 ∨ s.ckState = 2)

/-- A freeze that is refused: no launch is live, or a cut is in progress (R370). -/
def State.freezeRefused (s : State) : Bool := s.launches.isEmpty || s.cutting

/-- Ports that are up. -/
def State.upPorts (s : State) : List (Fin 8) := (List.finRange 8).filter fun p => decide ((s.ports.get p).state = 2)

/-- The module behind a port (R377). -/
def State.neighbour (s : State) (p : Fin 8) : BitVec 20 :=
  let d := s.devCoord
  let put (lo n : Nat) (v : Nat) : BitVec 20 :=
    BitVec.ofNat 20 (d.toNat - d.toNat / 2 ^ lo % n * 2 ^ lo + v % n * 2 ^ lo)
  let at_ (lo n : Nat) : Nat := d.toNat / 2 ^ lo % n
  match p.val with
  | 0 => put 17 8 (at_ 17 8 + 1)
  | 1 => put 17 8 (at_ 17 8 + 7)
  | 2 => put 14 8 (at_ 14 8 + 1)
  | 3 => put 14 8 (at_ 14 8 + 7)
  | 4 => put 7 128 (at_ 7 128 + 1)
  | 5 => put 7 128 (at_ 7 128 + 127)
  | 6 => put 0 128 (at_ 0 128 + 1)
  | _ => put 0 128 (at_ 0 128 + 127)

/-- A marker leaves on every up port (R386). -/
def State.sendMarkers (s : State) (freezeMarker : Bool) : State :=
  s.upPorts.foldl (fun s p => s.emit (s.neighbour p) false none (.marker freezeMarker)) s

/-- Markers have arrived on all up ports. -/
def State.allMarked (s : State) (marks : List Nat) : Bool := s.upPorts.all fun p => marks.contains p.val

/-- The freeze goes on: the module drains, of a coordinated freeze exchanges markers, and is saved once all that has come about
(R371, R374). What the module has to send leaves before its marker. -/
def State.freezeGo (s : State) : State :=
  let d := s.drain
  if !d.drained then d
  else
    let m := if bit d.pectl 2 && !d.peSent then { d.sendMarkers true with peSent := true } else d
    if (!bit m.pectl 2 || m.allMarked m.peMarks) && m.imageFits (m.pebase.toNat * 65536) then m.saveModule else m

/-- A write of 1 to PECTL.FREEZE (R370, R371): a coordinated freeze waits for its instant. -/
def State.freezeWrite (s : State) (coord : Bool) : State :=
  if s.stopped then s
  else if s.freezeRefused then { s with pestat := 4 }
  else if coord then { s with pectl := 5, pestat := 0 }
  else { s with pectl := 1, pestat := 1, peSent := false }.freezeGo

/-- FREEZE (R371). -/
def execFreeze (coord : Bool) (s : State) : Out := .next (s.freezeWrite coord)

/-- A prepared register's prefetch starts again (R373). -/
def Ctx.reprepare (x : Ctx) : Ctx :=
  { x with b := Vector.ofFn fun i => let b := x.b.get i; if b.v && (b.ready || b.busy) then b.start else b
           fq := [] }

/-- A core is restored: TLB and caches empty, prefetches restarted (R373). -/
def Core.restore (k : Core) : Core :=
  { k with tlb := [], code := [], ctxs := Vector.ofFn fun h => (k.ctxs.get h).reprepare }

/-- A recorded request for another module is sent again, unless its packet is still kept (R373, R382). -/
def Req.resent (kept : List Kept) (c : CoreId) (h : CtxId) (q : Req) : Req :=
  let far := isRemote q.pa && q.reply.isNone && q.fault.isNone && (match q.kind with
    | .load _ | .ldc _ | .lda _ | .atomic _ | .store => true
    | _ => false)
  if far && !(kept.any fun e => e.req == some (c, h, q.id)) then { q with sent := false } else q

/-- A core's recorded requests for other modules are sent again. -/
def Core.resent (kept : List Kept) (c : CoreId) (k : Core) : Core :=
  { k with ctxs := Vector.ofFn fun h => { k.ctxs.get h with reqs := (k.ctxs.get h).reqs.map (Req.resent kept c h) } }

/-- What was saved in the area that PEBASE names: in that place, or in another from which the images were copied, by the module
record (R373). -/
def State.savedAt (s : State) : Option Saved :=
  let base := s.pebase.toNat * 65536
  let of (v : Saved) : List Byte := { s with cores := v.cores, counters := v.counters, launches := v.launches, groups := v.groups,
                                             hostPages := v.hostPages, joboff := v.joboff }.moduleRecord
  match s.saved.find base with
  | some v => some v
  | none => (s.saved.find? fun e => s.mem.read base 0x40000 == of e.2).map (·.2)

/-- The cores of a save area: those that were saved, as their images now are. -/
def State.imageCores (s : State) (v : Saved) : KMap Core :=
  let base := s.pebase.toNat * 65536
  v.cores.map fun e => (e.1, ((e.2.fromImage s.mem (imageAt base (mkCore e.1))).restore).resent s.kept (mkCore e.1))

/-- The images of a save area are restored, and the module runs: JOBOFF has risen by `dt` (R373, R374). -/
def State.restoreModule (s : State) (v : Saved) (dt : DWord) : State :=
  let wp := s.wsPeriod.toNat
  let fall := if wp = 0 then 0 else dt.toNat % wp
  { s with
    cores := s.imageCores v
    counters := v.counters, launches := v.launches, groups := v.groups, hostPages := v.hostPages
    joboff := v.joboff + dt, wsCal := s.wsCal - dw fall
    ltlb := [], constC := [], pestat := 0, pectl := s.pectl &&& 5 }.wsRefresh

/-- A write of PECTL.RESUME (R370, R373): from the save area that PEBASE names; a coordinated resume waits for its instant.
An area that holds no images of this module is a failure (log 37). -/
def State.resumeWrite (s : State) (coord : Bool) : State :=
  if s.pestat ≠ 2 ∧ s.pestat ≠ 3 then s
  else match s.savedAt with
    | none => { s with pestat := 4 }
    | some v => if coord then { s with pectl := 6, pestat := 3 } else { s with pectl := 2 }.restoreModule v 0

/-- RESUME (R373). -/
def execResume (coord : Bool) (s : State) : Out := .next (s.resumeWrite coord)

/-- COORDINATED_FREEZE_INSTANT (R374): the timebase reaches PEFREEZE. -/
def State.tryFreezeInstant (s : State) : Option State :=
  if s.pectl = 5 ∧ s.pestat = 0 ∧ s.pefreeze.toNat ≤ s.timebase.toNat then
    if s.freezeRefused then some { s with pestat := 4, pectl := s.pectl &&& 6 }
    else some { s with pestat := 1, peSent := false }.freezeGo
  else none

/-- COORDINATED_FREEZE_INSTANT. -/
def execCoordinatedFreezeInstant (s : State) : Out := happen s s.tryFreezeInstant

/-- COORDINATED_RESUME_INSTANT (R374): JOBOFF rises by Tr − Tf. -/
def State.tryResumeInstant (s : State) : Option State :=
  if s.pectl = 6 ∧ s.pestat = 3 ∧ s.peresume.toNat ≤ s.timebase.toNat then
    s.savedAt.map fun v => s.restoreModule v (s.peresume - s.pefreeze)
  else none

/-- COORDINATED_RESUME_INSTANT. -/
def execCoordinatedResumeInstant (s : State) : Out := happen s s.tryResumeInstant

/-- The instants of a coordinated freeze and resume come about before anything else happens then (R374). -/
def State.instants (s : State) : State :=
  let t := s.tryFreezeInstant.getD s
  if s.dead then s else t.tryResumeInstant.getD t

/-! ## The cut (R357, R386) -/

/-- What waited for a place in the reserve of a cut that is over is written. -/
def State.writeLate (s : State) : State := s.lateW.foldl State.writeResult { s with lateW := [] }

/-- A kind 4 commit requests a cut (R357). Markers that came before it count for it (R386). A request while another
cut is pending, saving or draining is ignored (log 38). -/
def State.cutCommit (s : State) (w : WinSlot) : State :=
  if s.cutting || decide (s.ckState = 4) then s
  else if s.launches.isEmpty || s.cores.any fun e => decide (w.w1.toNat < e.2.last.t.toNat) then
    { s with ckState := 6, earlyMarks := [], earlyAfter := [] }.writeLate
  else
    { s with
      ckState := 1, ckRsv := 0, earlyMarks := [], earlyAfter := []
      cut := some { tc := w.w1, save := w.w3, reserve := w.w4, pages := w.w5.toNat, form := w.w6, markers := s.earlyMarks,
                    after := s.earlyAfter, cores := none, drainTo := none, mem := [], copied := [] } }.writeLate

/-- CHECKPOINT_CUT_COMMIT (R357). -/
def execCheckpointCutCommit (w : WinSlot) (s : State) : Out := .next (s.commit 4 w fun s => s.cutCommit w)

/-- The clock of a core has passed the cut by its horizon. -/
def State.pastCut (s : State) (k : Core) (tc : DWord) : Bool :=
  decide (tc.toNat + k.horizon ≤ s.jobTime.toNat / k.tagunit.toNat)

/-- A core has nothing left below the cut: no reaction runs or may start there, its engines and its send queue are empty. -/
def State.cutQuiet (s : State) (c : CoreId) (tc : DWord) : Bool :=
  let k := s.core c
  s.pastCut k tc &&
    !(ctxIds.any fun h => (k.ctx h).live && (k.ctx h).run.isSome && decide ((k.ctx h).tnow.t.toNat < tc.toNat)) &&
    (match s.ready? c with
      | some (_, e, _, _) => decide (tc.toNat ≤ e.ev.tag.t.toNat)
      | none => true) &&
    ((List.finRange 4).all fun i => (k.chans.get i).running.isNone) && k.mRun.isNone && k.engW.isEmpty && k.sendQ.isEmpty

/-- The cut fails: CKSTAT reads 6. -/
def State.cutFail (s : State) : State := if s.cutting then { s with ckState := 6, cut := none } else s

/-- The cut is taken once markers have arrived on all up ports and every event that belongs to it stands in its inbox (log 39): the
images hold the cores as step 2 saved them and the inboxes without what came behind a marker, pages become copy-on-write, and the
cut's form is delivered with an open identifier (log 39). -/
def State.cutFinish (s : State) : State :=
  match s.cut with
  | none => s
  | some q =>
    if s.ckState = 2 ∧ s.allMarked q.markers ∧ s.flight.isEmpty ∧ s.liveCores.all fun c => (s.core c).held.isEmpty then
      let t := s.writeImages q.save.toNat (q.cores.getD s.cores) fun e => !q.after.contains e.ev.rkey
      let d := { t with ckState := 3, cut := some { q with mem := t.mem } }.draw 64
      d.2.deliverForm q.form d.1.toNat 0 []
    else s

/-- CUT_SAVE (R357, step 2), once no event of the module is on its way to one of its cores: then the markers leave (step 3). -/
def State.tryCutSave (s : State) : Option State :=
  match s.cut with
  | none => none
  | some q =>
    if s.ckState = 1 ∧ s.flight.isEmpty ∧ (decide (8192 ≤ s.cores.length) || s.pastCut Core.reset q.tc) ∧
        s.liveCores.all fun c => s.cutQuiet c q.tc then
      some ({ s with ckState := 2, cut := some { q with cores := some s.cores } }.sendMarkers false).cutFinish
    else none

/-- CUT_SAVE. -/
def execCutSave (s : State) : Out := happen s s.tryCutSave

/-- A marker arrives on a port (R386, R374). A cut marker may come before the module's own cut is requested. -/
def State.marker (s : State) (port : Fin 8) (freezeMarker : Bool) : State :=
  if freezeMarker then
    let s1 := { s with peMarks := insertNat s.peMarks port.val }
    if s1.pestat = 1 then s1.freezeGo else s1
  else
    let early := { s with earlyMarks := insertNat s.earlyMarks port.val }
    match s.cut with
    | some q =>
      if s.cutting then { s with cut := some { q with markers := insertNat q.markers port.val } }.cutFinish else early
    | none => early

/-- CUT_MARKER_ARRIVAL (R386). -/
def execCutMarkerArrival (port : Fin 8) (freezeMarker : Bool) (s : State) : Out :=
  .next (if (s.ports.get port).state = 2 then s.marker port freezeMarker else s)

/-! ## The drain (R358) -/

/-- A kind 5 commit drains the last cut: to a base and with a completion form. -/
def State.drainCommit (s : State) (w : WinSlot) : State :=
  match s.cut with
  | some q => if s.ckState = 3 then { s with ckState := 4, cut := some { q with drainTo := some (w.w3, w.w4) } } else s
  | none => s

/-- CHECKPOINT_DRAIN_COMMIT (R358). -/
def execCheckpointDrainCommit (w : WinSlot) (s : State) : Out := .next (s.commit 5 w fun s => s.drainCommit w)

/-- Memory with the local HBM of another memory copied to an address. -/
def Memory.copyHbm (m from_ : Memory) (base : Nat) : Memory :=
  let hbm := from_.filter fun e => decide (e.1 < 0xC000000000)
  (m.filter fun e => decide (e.1 < base)) ++ hbm.map (fun e => (base + e.1, e.2)) ++
    m.filter fun e => decide (base + 0xC000000000 ≤ e.1)

/-- DRAIN_COMPLETE (R358): every page of the cut stands at the pool, and the drain's form is delivered. What waited for a place in
the reserve is written. -/
def State.tryDrained (s : State) : Option State :=
  match s.cut with
  | some q => match q.drainTo with
    | some (base, form) =>
      if s.ckState = 4 then
        let t := { s with mem := s.mem.copyHbm q.mem base.toNat, ckState := 5, ckRsv := 0, cut := none }
        let d := t.writeLate.draw 64
        some (d.2.deliverForm form d.1.toNat 0 [])
      else none
    | none => none
  | none => none

/-- DRAIN_COMPLETE. -/
def execDrainComplete (s : State) : Out := happen s s.tryDrained

end Sys2Proof.Machine
end

