-- ==== Sys2Proof/Machine/Fabric.lean ====
section
/-! DEFINITION. The Hawser fabric: arrival of packets and their checks (R379 to R383), links (R381, R384), timestamp
exchange (R385). -/

namespace Sys2Proof.Machine

/-! ## Ports -/

/-- Change a port. -/
def State.modPort (s : State) (p : Fin 8) (f : Port → Port) : State := { s with ports := vmod s.ports p f }

/-- Port events are counted on core 0 of die 0 (R387). -/
def State.count0 (s : State) (code : Nat) : State := s.modCore 0 fun k => k.perf code 1

/-- A port goes down: a cut, or the exchange of freeze markers, that needs it fails (R386). -/
def State.portDown (s : State) (p : Fin 8) : State :=
  let s1 := (s.modPort p fun q => { q with state := 0, key := false }).cutFail
  if s1.pestat = 1 then { s1 with pestat := 4 } else s1

/-- LINK_DOWN (R381): what crosses the link is cut, and discarded behind it. -/
def execLinkDown (port : Fin 8) (s : State) : Out :=
  .next (if (s.ports.get port).state = 2 then s.portDown port else s)

/-- LINK_BRING_UP (R384): training ends, link keys are agreed; nothing sent before is kept for a replay. -/
def execLinkBringUp (port : Fin 8) (s : State) : Out :=
  .next (s.modPort port fun q => { q with state := 2, key := true, packets := 0, tagFail := 0, keyAt := s.timebase, sent := [] })

/-- LINK_KEY_RENEWAL (R384): after 2^32 packets or one hour. -/
def execLinkKeyRenewal (port : Fin 8) (s : State) : Out :=
  let q := s.ports.get port
  .next (if q.state = 2 ∧ (2 ^ 32 ≤ q.packets ∨ 3600000000000 ≤ (s.timebase - q.keyAt).toNat) then
    s.modPort port fun q => { q with key := true, packets := 0, keyAt := s.timebase } else s)

/-! ## Retries (R382) -/

/-- A context whose ordered request has its outcome goes on (R110). -/
def State.wakeOrdered (s : State) (c : CoreId) (h : CtxId) : State :=
  let x := (s.core c).ctx h
  if x.stop = .ordered ∧ x.orderedReq.isNone then s.goOrdered c h else s

/-- A host event that leaves the module takes its credit until it is handed on, or given up (R344). DESIGN CHOICE: a given-up
event returns its credit too (log 77). -/
def State.creditBack (s : State) (e : Kept) : State :=
  match e.packet.body with
  | .event v => if v.fromHost s.devCoord then { s with winCred := s.winCred + 1 } else s
  | _ => s

/-- An engine's access of another module has its outcome: a fault's cause, or 0 and a value. -/
def State.engReply (s : State) (id : Nat) (cause : Byte) (v : DWord) : State :=
  { s with engReqs := s.engReqs.filterMap fun q =>
      if q.id = id ∧ q.reply.isNone then (if q.unit = 64 then none else some { q with reply := some (cause, v) }) else some q }

/-- A given-up packet: the request or the engine that waits for it receives 0x1D; an event is lost, and a capability is no longer
waited for (R378, R382). -/
def State.giveUp (s : State) (e : Kept) : State :=
  match e.req, e.eng with
  | some (c, h, id), _ => (s.modReq c h id fun q =>
    if q.reply.isSome then q else { q with fault := some ⟨0x1D, q.va, e.dst.setWidth 64⟩ }).wakeOrdered c h
  | none, some n => s.engReply n 0x1D 0
  | none, none => (s.creditBack e).releaseHeld

/-- E2E_RETRY_TIMEOUT (R382): the packet is sent again unchanged, or given up after its last transmission. -/
def State.tryRetry (s : State) (k : Nat) : Option State :=
  match s.kept[k]? with
  | none => none
  | some e =>
    if (s.timebase - e.sentAt).toNat < s.e2eTimeout.toNat then none
    else if e.tries < s.e2eRetries.toNat then
      some ({ s.transmit none e.dst e.packet with
              kept := listPut s.kept k { e with sentAt := s.timebase, tries := e.tries + 1 } }.count0 0x51)
    else
      let s1 := { s with kept := listDrop s.kept k }.giveUp e
      some (match e.packet.body with
        | .event _ => s1.count0 0x51
        | _ => s1)

/-- E2E_RETRY_TIMEOUT. -/
def execE2eRetryTimeout (k : Nat) (s : State) : Out := happen s (s.tryRetry k)

/-- A store for another module that is acknowledged is performed (R92, R382). -/
def State.storeDone (s : State) (c : CoreId) (h : CtxId) (id : Nat) : State :=
  match ((s.core c).ctx h).reqs.find? fun q => q.id == id with
  | none => s
  | some q =>
    if q.kind ≠ .store ∨ q.fault.isSome then s
    else ((s.memWrite (.request c h q) q.pa (leBytes q.size q.data.toNat)).sawNow c h q.pa).answer c h q 0

/-- An engine's store for another module that is acknowledged is performed (R92, R382). -/
def State.engStored (s : State) (id : Nat) : State :=
  match s.engReqs.find? fun q => q.id == id && q.reply.isNone with
  | some q => match q.data with
    | some v =>
      let w : Writer := ⟨some q.core, q.agent, if q.rels.isEmpty then 7 else (q.rels.map Rel.scope).foldl max 0, q.rels⟩
      (s.memWrite w q.pa (leBytes q.n v)).engReply id 0 (dw (s.past.length + 1))
    | none => s
  | none => s

/-- What the acknowledgement of a kept packet says: a store is performed, a host event's credit returns. -/
def State.delivered (s : State) (e : Kept) : State :=
  match e.req, e.eng with
  | some (c, h, id), _ => s.storeDone c h id
  | none, some n => s.engStored n
  | none, none => s.creditBack e

/-- An acknowledgement releases the kept packet, and what waited behind a capability packet (R378). -/
def State.acked (s : State) (src : BitVec 20) (seq : Word) : State :=
  let mine (e : Kept) : Bool := e.dst == src && e.packet.e2eseq == seq
  ((s.kept.filter mine).foldl State.delivered { s with kept := s.kept.filter fun e => !mine e }).releaseHeld

/-- E2E_ACK_ARRIVAL (R382). -/
def execE2eAckArrival (src : BitVec 20) (seq : Word) (s : State) : Out := .next (s.acked src seq)

/-! ## Time (R385) -/

/-- The offset that an exchange measures: ((t2 − t1) − (t4 − t3)) / 2. -/
def offsetOf (t1 t2 t3 t4 : DWord) : Int := ((t2 - t1).toInt - (t4 - t3).toInt) / 2

/-- A slew that is allowed: towards the reference, at most 100 ppm, that is 1 ns in 10 µs; while no launch is live, a step. -/
def State.slewGood (s : State) (off slew : Int) : Bool :=
  decide (slew = 0) || ((decide (0 < slew) == decide (0 < off)) && decide (slew.natAbs ≤ off.natAbs) &&
    ((decide (slew.natAbs ≤ 1) && decide (10000 ≤ (s.timebase - s.slewAt).toNat)) || s.launches.isEmpty))

/-- Cause 0x12 on core 0 of each die of the module, when the offset exceeds the bound of one of them (R365, R385; log 59). -/
def State.clockTrap (s : State) (off : Int) (far : Bool) : State :=
  let zeros : List CoreId := [mkCore 0, mkCore 2048, mkCore 4096, mkCore 6144]
  let bound (c : CoreId) : Nat := if far then (s.core c).eboundFar.toNat else (s.core c).eboundCh.toNat
  if zeros.any fun c => decide (bound c < off.natAbs) then
    zeros.foldl (fun s c => s.trapNoCtx c 0x12 (BitVec.ofInt 64 off) 0) s
  else s

/-- Slew the timebase by a number of nanoseconds: it never runs backward, it waits. -/
def State.slewBy (s : State) (ns : Int) : State :=
  { s with phase := s.phase + ns * s.mhz, slewAt := if ns = 0 then s.slewAt else s.timebase }

/-- What a module's timebase follows (R356, R385). -/
inductive Reference where
  | host | own | port (p : Fin 8)
deriving DecidableEq, Repr

/-- The distance of two places in the mesh of a chassis. -/
def meshDistance (a b : BitVec 20) : Nat :=
  (max (mxOf a) (mxOf b) - min (mxOf a) (mxOf b)) + (max (myOf a) (myOf b) - min (myOf a) (myOf b))

/-- The port to the mesh neighbour nearest the chassis master, whose place firmware names (R385). -/
def State.masterPort (s : State) : Option (Fin 8) :=
  (([0, 1, 2, 3] : List (Fin 8)).filter s.portUp).foldl (fun best p =>
    match best with
    | some q => if meshDistance (s.neighbour p) s.masterAt < meshDistance (s.neighbour q) s.masterAt then some p else some q
    | none => some p) none

/-- The reference of a module (R385): its mesh neighbour nearest the master; of the master, as CLKCFG selects, the TZ− chassis, the
host, or its own oscillator, in whose place PTMCTL.HOSTREF puts the host (R356; log 59). -/
def State.reference (s : State) : Reference :=
  if !bit s.clkcfg 0 then (match s.masterPort with
    | some p => .port p
    | none => .own)
  else match fld s.clkcfg 2 1 with
    | 1 => .host
    | 2 => .port 5
    | _ => if bit s.ptmctl 1 then .host else .own

/-- The offset to the reference is measured: CLKOFF and the slew, of the hardware timebase (R374, R385). -/
def State.discipline (s : State) (off slew : Int) : State :=
  let s1 := { s with clkoff := BitVec.ofInt 64 off }
  if s1.slewGood off slew then s1.slewBy slew else s1

/-- TIMESTAMP_EXCHANGE (R385) with the module behind a port: of the reference, CLKOFF, the slew and the check of the bounds. What
another neighbour's offset is, nothing reads. -/
def State.exchange (s : State) (t1 t2 t3 t4 : DWord) (port : Fin 8) (slew : Int) : State :=
  let off := offsetOf t1 t2 t3 t4
  if s.reference = .port port then (s.discipline off slew).clockTrap off (bit s.clkcfg 0) else s

/-- TIMESTAMP_EXCHANGE. -/
def execTimestampExchange (t1 t2 t3 t4 : DWord) (port : Fin 8) (slew : Int) (s : State) : Out :=
  .next (s.exchange t1 t2 t3 t4 port slew)

/-! ## Arrival (R379 to R383) -/

/-- The outstanding request of a number. -/
def State.findReq (s : State) (id : Nat) : Option (CoreId × CtxId × Req) :=
  s.cores.findSome? fun e => ctxIds.findSome? fun h =>
    ((e.2.ctx h).reqs.find? fun q => q.id == id).map fun q => (mkCore e.1, h, q)

/-- The instant at which a place of another module held what a reply brings: the newest that the requester may still read, or a
write of that module now (R90, R92). -/
def State.farInstant (s : State) (lo pa n v : Nat) : Nat × State :=
  let hi := s.past.length
  match (upto (hi - lo + 1)).find? fun i => leNat (s.readAt (hi - i) pa n) == v % 2 ^ (8 * n) with
  | some i => (hi - i, s)
  | none => (hi + 1, s.memWrite .far pa (leBytes n v))

/-- The releases of this module's agents that what another module sends comes after (R97). -/
def farRels (m : KMap Nat) : List Rel := if m.isEmpty then [] else [⟨none, 5, m⟩]

/-- A context has read what comes after releases of this module, for a later FENCE.ACQ (R98). -/
def State.farHeard (s : State) (c : CoreId) (h : CtxId) (m : KMap Nat) : State :=
  s.modCtx c h fun x => { x with obs := x.obs ++ (farRels m).filter fun q => !x.obs.contains q }

/-- A context has read a value of another module's memory, with whatever comes before it (R84, R90, R97). -/
def State.farSaw (s : State) (c : CoreId) (h : CtxId) (q : Req) (v : Nat) (m : KMap Nat) : Option (Nat × Write) × State :=
  let r := s.farInstant (((s.core c).ctx h).seen.get 0 (q.pa / 8)) q.pa q.size v
  let w := r.2.writeAt r.1 q.pa q.size
  (w, (r.2.hasRead c h q.pa w).farHeard c h m)

/-- What the other modules of the chassis have written: what they send comes after it (R101, R103, R104). -/
def State.farSeen (s : State) : KMap Nat := s.writtenBy none Writer.far.unit

/-- FINFO of the fault that the home of another module has found (R361). -/
def farFinfo (q : Req) (cause : Byte) : DWord :=
  if cause = 0x18 then dw (6 + 256 * (if q.isLoad then Access.load else Access.store).code)
  else if cause = 0x16 then 2 else 0

/-- What the value of a reply does beyond its register: the places that the requester knows, an acquire, an atomic's write. `m`: what
the reply comes after; a pop's value comes after its push (R97, R103). -/
def State.farEffect (s : State) (c : CoreId) (h : CtxId) (q : Req) (v : DWord) (m : KMap Nat) : State :=
  match q.kind with
  | .load _ => (s.farSaw c h q v.toNat m).2
  | .ldc _ => (s.farSaw c h q v.toNat m).2
  | .lda _ =>
    let r := s.farSaw c h q v.toNat m
    (r.2.acquireFrom c h q.scope r.1).syncWith c h (if 5 ≤ q.scope then m else [])
  | .atomic op => ((s.farInstant s.past.length q.pa 8 v.toNat).2.performAtomic c h q op v).farHeard c h m
  | .opop => if v = noVersion then s else s.syncWith c h (joinSeen s.farSeen m)
  | _ => s

/-- The value of a reply as its register takes it. -/
def farValue (q : Req) (v : DWord) : DWord :=
  match q.kind with
  | .load sg => extend q.size sg v.toNat
  | .lda sg => extend q.size sg v.toNat
  | .ldc sg => extend q.size sg v.toNat
  | _ => v

/-- The reply of an engine's load: a value that the place has had, or a fault (R84, R164). -/
def State.engLoaded (s : State) (id : Nat) (v : DWord) (cause : Byte) : State :=
  match s.engReqs.find? fun q => q.id == id && q.reply.isNone with
  | none => s
  | some q => if cause = 0 then ((s.farInstant s.past.length q.pa q.n v.toNat).2).engReply id 0 v else s.engReply id cause 0

/-- A reply reaches its request, if that still waits: a value, or the fault that the home has found. -/
def State.remoteReply (s : State) (id : Nat) (v : DWord) (cause : Byte) (m : KMap Nat) : State :=
  match s.findReq id with
  | none => s.engLoaded id v cause
  | some (c, h, q) =>
    if q.reply.isSome || q.fault.isSome then s
    else if cause ≠ 0 then (s.deferFault c h q cause (farFinfo q cause)).wakeOrdered c h
    else ((s.farEffect c h q v m).replied c h q (farValue q v)).wakeOrdered c h

/-- The fragments of an event's block that have arrived. -/
def State.fragsOf (s : State) (e : Ev) : List (Nat × List Byte) :=
  (s.frags.filter fun f => f.1 == e.origin && f.2.1 == e.seq).map fun f => f.2.2

/-- The block that fragments make up: each stands at its offset. -/
def gathered (n : Nat) (fs : List (Nat × List Byte)) : List Byte :=
  (upto n).map fun i => match fs.find? fun f => decide (f.1 ≤ i) && decide (i < f.1 + f.2.length) with
    | some f => f.2.getD (i - f.1) 0
    | none => 0

/-- An event with the block that its fragments have brought (R380). -/
def State.withBlock (s : State) (e : Ev) : Ev :=
  match e.payload with
  | .block b => { e with payload := .block (gathered b.length (s.fragsOf e)) }
  | _ => e

/-- Every byte of an event's block has come. -/
def State.blockThere (s : State) (e : Ev) : Bool :=
  match e.payload with
  | .block b => (upto b.length).all fun i => (s.fragsOf e).any fun f => decide (f.1 ≤ i) && decide (i < f.1 + f.2.length)
  | _ => true

/-- An event and all its fragments are there: it goes on to its core's landing router (R380). -/
def State.letIn (s : State) (f : Flight) : State :=
  if s.blockThere f.ev then
    { s with flight := s.flight ++ [{ f with ev := s.withBlock f.ev }]
             frags := s.frags.filter fun g => !(g.1 == f.ev.origin && g.2.1 == f.ev.seq) }
  else { s with waitFrag := s.waitFrag ++ [f] }

/-- Events whose last fragment has come go on. -/
def State.letInWaiting (s : State) : State := s.waitFrag.foldl State.letIn { s with waitFrag := [] }

/-- The local address of a packet's PA. -/
def packetPa (pa : Nat) : Nat := if isRemote pa then remoteLocal pa else pa

/-- A write of another module finds its page in the reserve of a cut, and its line not overflowed (R65, R358). -/
def State.farWrite (s : State) (a n : Nat) (perform : State) : Option State :=
  if !s.cowFits a n || s.bankAway a || s.overflowed a then none else some perform

/-- The local address of what a packet writes. -/
def packetTarget : PBody → Option Nat
  | .store pa _ => some (packetPa pa)
  | .atomic _ _ _ pa _ _ => some (packetPa pa)
  | _ => none

/-- The overflowed line at which the home holds the write of a packet, if it does not hold one there already (R65). -/
def State.packetHolds (s : State) (b : PBody) : Option Nat :=
  match packetTarget b with
  | some a => if s.overflowed a && !s.lineHeld a then some a else none
  | none => none

/-- A load for this module (R84): a versioned word gives its newest version (R74); a lost line gives the fault. A confidential
page's reply is encrypted as its request was (R384). -/
def State.serveLoad (s : State) (src : BitVec 20) (enc : Bool) (tag pa n : Nat) (versioned : Bool) : Option State :=
  let a := packetPa pa
  let n := min n 8
  if s.bankAway a || s.lineHeld a then none
  else if s.isLost a then some (s.emit src enc none (.loadReply tag 0 0x18))
  else if versioned || !(s.verAt a).vers.isEmpty then
    some (s.emit src enc none (.loadReply tag (dw ((s.newest a).toNat / 2 ^ (8 * (a % 8)) % 2 ^ (8 * n))) 0))
  else if s.objMeets a n then some ((s.draw 64).2.emit src enc none (.loadReply tag (s.draw 64).1 0))
  else some (s.emit src enc none (.loadReply tag (dw (s.mem.readNat a n)) 0) (s.relsHeard a n))

/-- A store for this module; a locked weight store takes none (R69). `m`: what it comes after (R97). -/
def State.serveStore (s : State) (pa : Nat) (b : List Byte) (m : KMap Nat) : Option State :=
  let a := packetPa pa
  if inWs a && s.wsLocked then some s
  else s.farWrite a b.length ((upto (b.length / 128 + 2)).foldl
    (fun (s : State) i => if lineOf a + 128 * i < a + b.length then s.unshare (a / 128 * 128 + 128 * i) else s)
    (s.memWrite { Writer.far with rels := farRels m } a b))

/-- The kept reply to an atomic of a core of another module (R383). -/
def State.keptReply (s : State) (src : BitVec 20) (core : Nat) (seq : Word) : Option DWord :=
  ((s.replies.get [] (src.toNat * 8192 + core % 8192)).find? fun r => r.1 == seq).map (·.2)

/-- An atomic for this module is performed at its home, its reply kept; one whose reply is kept is answered from there and applied no
second time (R383). -/
def State.serveAtomic (s : State) (src : BitVec 20) (enc : Bool) (core tag op pa : Nat) (x expected : DWord) (seq : Word)
    (m : KMap Nat) : Option State :=
  let a := packetPa pa
  let old := s.mem.read64 a
  let key := src.toNat * 8192 + core % 8192
  let l := s.replies.get [] key
  let w : Writer := { Writer.far with rels := farRels m ++ relsOf a 8 s.past }
  let s1 := (s.memWrite w a (leBytes 8 (atomicNew op old x expected).toNat)).unshare a
  match s.keptReply src core seq with
  | some v => some (s.emit src enc none (.atomicReply tag v 0))
  | none =>
    if inWs a && s.wsLocked then some (s.emit src enc none (.atomicReply tag 0 0x09))
    else if s.isLost a then some (s.emit src enc none (.atomicReply tag 0 0x18))
    else s.farWrite a 8 ({ s1 with
      replies := s1.replies.put key ((if l.length < 8 then l else l.tail) ++ [(seq, old)]) }.emit src enc none
        (.atomicReply tag old 0) (s.relsHeard a 8))

/-- A capability message from another module reaches its core: gained, or refused and sent back (R75). `m`: what it comes after
(R104). -/
def State.serveCap (s : State) (src : BitVec 20) (region sender core : Nat) (refused : Bool) (m : KMap Nat) : State :=
  let c := mkCore core
  let l := match s.launchOf c with
    | some (l, _) => l
    | none => 0
  match (s.core c).gainCap region l m with
  | some k => s.setCore c k
  | none =>
    if refused then
      match s.launches.find l with
      | some r => { s with launches := s.launches.put l { r with given := r.given.filter (· ≠ region) } }
      | none => s
    else s.emit src false none (.capability region core sender true)

/-- An object operation for this module enters its mesh at a router that R391 leaves open. -/
def State.serveObject (s : State) (src : BitVec 20) (enc : Bool) (core tag op pa : Nat) (v : DWord) (m : KMap Nat) : State :=
  let kind : ReqKind := match op with
    | 0 => .opush
    | 1 => .opop
    | _ => .ocnt
  let a := packetPa pa
  let s1 := (s.draw 9).2
  { s1 with objMsgs := s1.objMsgs ++
    [{ dev := some src, enc := enc, seen := m, core := mkCore core, ctx := 0, req := tag, op := kind, pa := a, va := 0, value := v,
       lcnt := (s.launches.head?.map (·.1)).getD 0, path := objPath kind (s.draw 9).1.toNat a, waited := false, left := 0 }] }

/-- What an accepted packet of types 0 to 9 does; none while its home cannot take it now. `m`: what it comes after, of this
module's packets (R97). -/
def State.serve (s : State) (src : BitVec 20) (enc : Bool) (seq : Word) (m : KMap Nat) : PBody → Option State
  | .event e => some (s.letIn
      { dest := descCore e.dest, ev := e, cls := s.classFrom src, pool := none, seen := joinSeen s.farSeen m })
  | .fragment o q i b => some { s with frags := s.frags ++ [(o, q, i, b)] }.letInWaiting
  | .loadRequest tag pa n v => s.serveLoad src enc tag pa n v
  | .loadReply tag v cause => some (s.remoteReply tag v cause m)
  | .store pa b => s.serveStore pa b m
  | .atomic core tag op pa x e => s.serveAtomic src enc core tag op pa x e seq m
  | .atomicReply tag v cause => some (s.remoteReply tag v cause m)
  | .objectOp core tag op pa v => some (s.serveObject src enc core tag op pa v (joinSeen s.farSeen m))
  | .objectReply tag v cause => some (s.remoteReply tag v cause m)
  | .capability region sender core refused => some (s.serveCap src region sender core refused (joinSeen s.farSeen m))
  | .ack _ | .timestamps _ _ _ _ | .marker _ | .reserved _ => none

/-- A repeated packet is acknowledged again and dropped; an atomic is answered from the kept replies (R382, R383). -/
def State.duplicate (s : State) (src : BitVec 20) (enc : Bool) (seq : Word) (b : PBody) : State :=
  let s1 := (s.count0 0x52).emit src false none (.ack seq)
  match b with
  | .atomic core tag _ _ _ _ =>
    match s1.keptReply src core seq with
    | some v => s1.emit src enc none (.atomicReply tag v 0)
    | none => s1
  | _ => s1

/-- A port's cut marker has come, and the cut is not taken yet (R386). -/
def State.cutMarked (s : State) (port : Fin 8) : Bool :=
  s.earlyMarks.contains port.val || (s.cutting && (match s.cut with
    | some q => q.markers.contains port.val
    | none => false))

/-- A port's freeze marker has come, and the freeze is not taken yet; or the module is frozen (R374, R386). -/
def State.freezeMarked (s : State) (port : Fin 8) : Bool :=
  s.peMarks.contains port.val || decide (s.pestat = 2) || decide (s.pestat = 3)

/-- A packet belongs after the cut or the freeze whose marker has come before it (R386): of a cut, what changes memory waits until the
cut is taken; of a freeze, what reaches a core waits until the module resumes, but for replies while the module drains (DESIGN CHOICE,
log 85). -/
def State.behindMarker (s : State) (port : Fin 8) (b : PBody) : Bool :=
  match b with
  | .store _ _ | .atomic _ _ _ _ _ _ | .objectOp _ _ _ _ _ => s.cutMarked port
  | .event _ | .fragment _ _ _ _ => s.freezeMarked port
  | .loadReply _ _ _ | .atomicReply _ _ _ | .objectReply _ _ _ => decide (s.pestat = 2) || decide (s.pestat = 3)
  | .capability _ _ _ _ => s.cutMarked port || s.freezeMarked port
  | _ => false

/-- An event that has come behind a cut marker is left out of the images (R386). -/
def State.noteAfter (s : State) (port : Fin 8) (b : PBody) : State :=
  match b with
  | .event e =>
    if s.cutMarked port then
      match s.cut with
      | some _ => { s with cut := s.cut.map fun q => { q with after := q.after ++ [e.rkey] } }
      | none => { s with earlyAfter := s.earlyAfter ++ [e.rkey] }
    else s
  | _ => s

/-- An E2ESEQ enters the record of a source module (R382). -/
def State.noteAccepted (s : State) (src : BitVec 20) (seq : Word) : State :=
  let l := s.accepted.get [] src.toNat
  { s with accepted := s.accepted.put src.toNat ((if l.length < 4096 then l else l.tail) ++ [seq]) }

/-- A good packet for this module. What a timestamp exchange finds is the happening TIMESTAMP_EXCHANGE. -/
def State.receive (s : State) (port : Fin 8) (src : BitVec 20) (p : Packet) : Option State :=
  match p.body with
  | .ack seq => some (s.acked src seq)
  | .timestamps _ _ _ _ => some s
  | .marker f => some (s.marker port f)
  | .reserved _ => some (s.count0 0x53)
  | b =>
    if (s.accepted.get [] src.toNat).contains p.e2eseq then some (s.duplicate src (bit p.header 50) p.e2eseq b)
    else if s.behindMarker port b then none
    else match s.serve src (bit p.header 50) p.e2eseq (s.heard p.after) b with
      | none => (s.packetHolds b).map fun a => s.holdLine a (some (.packet port p))
      | some t => some (((t.noteAfter port b).noteAccepted src p.e2eseq).emit src false none (.ack p.e2eseq))

/-- A flit fails its link CRC: the port asks for a go-back replay, which brings the packet again (R381). -/
def State.linkError (s : State) (port : Fin 8) : State := (s.modPort port fun q => { q with replay := q.replay + 1 }).count0 0x50

/-- A failed GCM tag is as a failed link CRC; the third in a row takes the port down (R384). -/
def State.tagFailure (s : State) (port : Fin 8) : State :=
  let s1 := ((s.modPort port fun q => { q with tagFail := q.tagFail + 1 }).count0 0x54).linkError port
  if 3 ≤ (s1.ports.get port).tagFail then s1.portDown port else s1

/-- A packet that has come whole across its link: the checks of the tag, of the header, and end to end. One for another module is
forwarded. -/
def State.wholePacket (s : State) (port : Fin 8) (p : Packet) : Option State :=
  if bit p.header 50 && !p.tagGood then some (s.tagFailure port)
  else
    let s0 := if bit p.header 50 then s.modPort port fun q => { q with tagFail := 0 } else s
    if p.hchk ≠ crc16 p.header then some (s0.count0 0x53)
    else if p.dst ≠ s.devCoord then some (s0.transmit (some port) p.dst p)
    else if !p.echkGood then some (s0.count0 0x53)
    else s0.receive port p.src p

/-- The link goes down under a packet (R381): its first flit has passed the checks of the header, so a part of it may have gone on
already, and is ended with a cut marker; the port goes down. -/
def State.brokenPacket (s : State) (port : Fin 8) (p : Packet) : State :=
  (if p.hchk = crc16 p.header ∧ p.dst ≠ s.devCoord then s.transmit (some port) p.dst { p with crossing := .cut } else s).portDown port

/-- PACKET_ARRIVAL (R381): a packet comes across a link. A part that ends with a cut marker is discarded. -/
def State.tryPacket (s : State) (port : Fin 8) (p : Packet) : Option State :=
  if (s.ports.get port).state ≠ 2 ∨ fld p.header 47 44 ≠ p.body.type then none
  else match p.crossing with
    | .whole => s.wholePacket port p
    | .replay => some (s.linkError port)
    | .broken => some (s.brokenPacket port p)
    | .cut => some s

/-- The module behind a port asks for a replay from the `k`th newest packet of the port's buffer on (R381): those packets are sent
again, oldest first. -/
def State.linkReplay (s : State) (port : Fin 8) (k : Nat) : State :=
  let q := s.ports.get port
  if q.state = 2 then { s with outbox := q.sent.take (k + 1) ++ s.outbox } else s

/-- PACKET_ARRIVAL. -/
def execPacketArrival (port : Fin 8) (p : Packet) (s : State) : Out := happen s (s.tryPacket port p)

end Sys2Proof.Machine
end

