-- ==== Sys2Proof/Machine/Management.lean ====
section
/-! DEFINITION. BAR0 registers and the BAR4 aperture (R341, R342), host queues and fallback replies (R352, R355), PTM
(R356), machine checks and re-runs (R367, R369), fences (R368), power and firmware (R388, R389). -/

namespace Sys2Proof.Machine

/-! ## Host queues and replies -/

/-- HQHEAD_WRITE (R352): a write that moves the head past TAIL is ignored. -/
def State.headWrite (s : State) (i : Fin 17) (v : Word) : State :=
  let q := s.hostQ.get i
  if (v - q.head).toNat ≤ (q.tail - q.head).toNat then { s with hostQ := vput s.hostQ i { q with head := v } } else s

/-- HQHEAD_WRITE. -/
def execHqheadWrite (q : Fin 17) (v : Word) (s : State) : Out := .next (s.headWrite q v)

/-- A context whose atomic the host has performed knows the write that replaced the value that the host answers (R90). -/
def State.sawHost (s : State) (c : CoreId) (h : CtxId) (pa v : Nat) : State :=
  let hi := s.past.length
  match (upto (hi + 1)).find? fun i => leNat (s.readAt (hi - i) pa 8) == v with
  | some i => s.modCtx c h fun x =>
    { x with seen := x.seen.put (pa / 8) (max (min (hi - i + 1) hi) (x.seen.get 0 (pa / 8))) }
  | none => s

/-- FALLBACK_REPLY_COMMIT (R355): the waiting atomic completes and the id is free; without a request it is counted. -/
def State.fallbackReply (s : State) (id : Byte) (v : DWord) : State :=
  match s.fallback.find id.toNat with
  | none => { s with fbDup := s.fbDup + 1 }
  | some (c, h, n) =>
    let s1 := { s with fallback := s.fallback.drop id.toNat }
    match ((s1.core c).ctx h).reqs.find? fun q => q.id == n with
    | some q => (s1.sawHost c h q.pa v.toNat).answer c h q v
    | none => s1

/-- FALLBACK_REPLY_COMMIT. -/
def execFallbackReplyCommit (id : Byte) (v : DWord) (s : State) : Out :=
  .next ({ s with fbValue := s.fbValue.put id.toNat v }.fallbackReply id v)

/-- A write of the fallback reply window (R355): a value, or id + 0x100, which commits the reply. DESIGN CHOICE: another value written
there does nothing and is not counted (log 93). -/
def State.replyWrite (s : State) (off : Nat) (v : DWord) : State :=
  let id := off / 16
  if off % 16 = 0 then { s with fbValue := s.fbValue.put id v }
  else if off % 16 = 8 ∧ v.toNat = id + 0x100 then s.fallbackReply (BitVec.ofNat 8 id) (s.fbValue.get 0 id)
  else s

/-- PTM_EXCHANGE (R356): HOSTOFF is host time less TIMEBASE as the host reads it; a master that follows the host steers its hardware
timebase (R374, R385). -/
def execPtmExchange (answer : PtmAnswer) (s : State) : Out :=
  .next (if bit s.ptmctl 0 then
      let s1 := { s with hostOff := answer.hostTime - s.jobTime }
      let off := (answer.hostTime - s.timebase).toInt
      if s1.reference = .host then (s1.discipline off answer.slew).clockTrap off true else s1
    else s)

/-! ## The aperture (R341) -/

/-- A host store through BAR4: the locked weight store takes none (R69); an overflowed line holds it (R65). -/
def State.apertureStore (s : State) (pa n : Nat) (v : DWord) : Option State :=
  if inWs pa && s.wsLocked then some s
  else if !s.cowFits pa n then none
  else if s.overflowed pa then (if s.lineHeld pa then none else some (s.holdLine pa (some (.aperture pa n v))))
  else some ((s.memWrite .host pa (leBytes n v.toNat)).unshare pa)

/-- The host receives the value of a read (R341, R342). -/
def State.hostGets (s : State) (v : DWord) : State := { s with hostData := v :: s.hostData }

/-- A host load through BAR4: a versioned word gives its newest version. What a lost line, an object and another module's memory
give is open (log 61). -/
def State.apertureLoad (s : State) (pa n : Nat) : Option State :=
  if s.bankAway pa || s.lineHeld pa then none
  else if s.isLost pa || isRemote pa || s.objMeets pa n then
    some ((s.draw 64).2.hostGets (dw ((s.draw 64).1.toNat % 2 ^ (8 * n))))
  else if !(s.verAt pa).vers.isEmpty then
    some (s.hostGets (dw ((s.newest pa).toNat / 2 ^ (8 * (pa % 8)) % 2 ^ (8 * n))))
  else some (s.hostGets (dw (s.mem.readNat pa n)))

/-- HOST_APERTURE_ACCESS: accesses stay within the 4 GiB and within 8 bytes. -/
def State.tryAperture (s : State) (store : Bool) (off : Word) (size : Fin 9) (v : DWord) : Option State :=
  let pa := s.apbase.toNat * 2 ^ 32 + off.toNat
  if size = 0 || decide (2 ^ 32 < off.toNat + size.val) || !populated pa || s.paUnreachable pa then none
  else if !store then s.apertureLoad pa size.val
  else if isRemote pa then
    some ((s.emit (s.remoteDev pa) false none (.store pa (leBytes size.val v.toNat))).memWrite .host pa (leBytes size.val v.toNat))
  else s.apertureStore pa size.val v

/-- HOST_APERTURE_ACCESS. -/
def execHostApertureAccess (store : Bool) (off : Word) (size : Fin 9) (v : DWord) (s : State) : Out :=
  happen s (s.tryAperture store off size v)

/-! ## Fences (R368) -/

/-- A core is released: it starts reactions and accepts events again, and running helpers reload their heartbeats. -/
def Core.release (k : Core) : Core :=
  if k.fenced || k.halted then
    { k with
      fenced := false, halted := false
      ctxs := Vector.ofFn fun h =>
        let x := k.ctxs.get h
        if x.live && x.run.isSome then { x with beatLeft := k.beatIv } else x }
  else k

/-- The cores of a FENCE register whose bit is written 1 are released. -/
def State.fenceRelease (s : State) (n : Fin 128) (mask : DWord) : State :=
  { s with cores := s.cores.map fun e =>
      (e.1, if e.1 / 64 = n.val ∧ bit mask (e.1 % 64) then e.2.release else e.2) }

/-- FENCE_RELEASE. -/
def execFenceRelease (n : Fin 128) (mask : DWord) (s : State) : Out := .next (s.fenceRelease n mask)

/-! ## Machine checks (R367, R369) -/

/-- Events of a ring in R14 order, to be run again. -/
def replayRing (ring : List InEv) : List InEv :=
  (ring.foldl (fun l e => insertEv e l) []).map fun (e : InEv) => { e with rerun := true, block := none }

/-- A record of a ring as the loop-back port brings it (R369). -/
def InEv.replayed (e : InEv) : Arrival :=
  { ev := e.ev, cls := e.cls, arr := e.arr, pool := e.pool, seen := e.seen, replay := some e }

/-- A spilled event whose units have run keeps what its record knows of them (R369). -/
def unitsOf (ring : List InEv) (e : InEv) : InEv :=
  match ring.find? fun r => r.ev.rkey == e.ev.rkey with
  | some r => { e with units := r.units, spent := r.spent }
  | none => e

/-- A spare core with the ring's routine table and the launch state; every unretired record waits at its loop-back port, before what is
held back there, or stands in the heap if it was spilled (R369, R39; log 58). -/
def Core.spareFrom (k : Core) : Core :=
  let fmode := (k.ctx 1).fmode
  let unspilled := k.ring.filter fun r => !(k.spilled.any fun e => e.ev.rkey == r.ev.rkey)
  { Core.reset with
    replayKeys := k.replayKeys, held := (replayRing unspilled).map InEv.replayed ++ k.held.filter fun a => a.replay.isNone
    heap := k.heap, spilled := k.spilled.map (unitsOf k.ring), spillN := k.spillN, floor := k.floor
    slots := Vector.ofFn fun i => { k.ringTab.get i with pending := none, waiting := [] }
    lx28 := k.lx28, lx29 := k.lx29, lstk := k.lstk, det := k.det, detRounds := k.detRounds, quantum := k.quantum
    ctxs := Vector.ofFn fun h => if 1 ≤ h.val ∧ h.val ≤ 10 then { Ctx.reset with fmode := fmode } else Ctx.reset
    seq := k.seq, logging := true, ringTab := k.ringTab, ring := replayRing k.ring }

/-- A logged core with a free spare on its die: the spare takes its place, with a machine check of kind 6 (R369). -/
def State.rerun (s : State) (c : CoreId) : State :=
  let n := s.spares.get (dieIx c.val)
  ({ s with spares := vput s.spares (dieIx c.val) (n - 1) }.setCore c (s.core c).spareFrom).machineCheck 6 c 0 0

/-- A core that keeps a ring may be re-run: a spare of its die is free (R369). -/
def State.canRerun (s : State) (c : CoreId) : Bool := (s.core c).logging && decide (0 < s.spares.get (dieIx c.val))

/-- In this cycle a restartable reaction of the core has met an uncorrectable error of its own scratchpad (R369). -/
def State.lostItself (s : State) (c : CoreId) : Bool :=
  let k := s.core c
  k.recs.any (mine k) || mine k k.trap
where
  /-- The record of such an error. -/
  mine (k : Core) (r : TrapRec) : Bool :=
    decide (r.at_ = s.cycle) && decide (r.cause = 0x18) && decide (r.finfo.toNat % 8 = 0) && !k.spadLost.isEmpty &&
      decide (r.faddr.toNat < 0x40000) && (if h : r.ctx < 14 then
        let x := k.ctx ⟨r.ctx, h⟩
        x.live && x.stop == .faulted && (match x.run with
          | some u => u.restartable
          | none => false)
      else false)

/-- Such a core is re-run; with no spare free it halts, with a machine check of kind 3 (R369; log 58). -/
def State.rerunLost (s : State) (c : CoreId) : State :=
  if (s.core c).logging && !(s.core c).halted && s.lostItself c then
    if s.canRerun c then s.rerun c else (s.haltCore c).machineCheck 3 c 0 0
  else s

/-- A line is lost to an uncorrectable error of a part, as FINFO of cause 0x18 numbers it (R361, R367). -/
def State.lose (s : State) (pa part : Nat) : State :=
  { s with lost := if (s.lost.find (lineOf pa)).isSome then s.lost else s.lost.put (lineOf pa) part }

/-- MACHINE_CHECK (R367): a write-back error loses its line; an error of a core's logic halts it unless it is re-run. -/
def State.check (s : State) (kind : McKind) (c : CoreId) (pa : Nat) : State :=
  match kind with
  | .writeBack => (s.lose pa (sourceCode pa)).machineCheck 1 (homeCore (homeLanding pa)) 0 (lineOf pa)
  | .directory => s.machineCheck 2 (homeCore (homeLanding pa)) 0 (lineOf pa)
  | .coreLogic =>
    if s.canRerun c then s.rerun c
    else (s.haltCore c).machineCheck 3 c 0 0

/-- MACHINE_CHECK. -/
def execMachineCheck (kind : McKind) (c : CoreId) (pa : Nat) (s : State) : Out := .next (s.check kind c pa)

/-! ## Registers (R9, R342, R367 to R370, R385) -/

/-- A die has a live launch. -/
def State.dieLive (s : State) (d : Nat) : Bool :=
  s.launches.any fun e => decide (dieOf e.2.first ≤ d) && decide (d ≤ dieOf (e.2.first + e.2.ncore - 1))

/-- A write of a host queue's register. -/
def State.hostqWrite (s : State) (q : Fin 17) (reg : Nat) (v : DWord) : State :=
  match reg with
  | 0 => { s with hostQ := vmod s.hostQ q fun h => { h with base := v } }
  | 8 => { s with hostQ := vmod s.hostQ q fun h => { h with cfg := v.setWidth 16 } }
  | 16 => s.headWrite q (v.setWidth 32)
  | _ => s

/-- A write of a BAR0 register below 0x1000 (R342). -/
def State.bar0Low (s : State) (off : Nat) (v : DWord) : State :=
  match off with
  | 0x8 => if v.setWidth 32 = (0 : Word) then s else { s with winDrop := 0 }
  | 0x20 => { s with ptmctl := v.setWidth 2 }
  | 0x100 => if s.dieLive 0 then s else { s with ptroot := vput s.ptroot 0 (BitVec.ofNat 36 (fld v 51 16)) }
  | 0x108 => if s.dieLive 1 then s else { s with ptroot := vput s.ptroot 1 (BitVec.ofNat 36 (fld v 51 16)) }
  | 0x110 => if s.dieLive 2 then s else { s with ptroot := vput s.ptroot 2 (BitVec.ofNat 36 (fld v 51 16)) }
  | 0x118 => if s.dieLive 3 then s else { s with ptroot := vput s.ptroot 3 (BitVec.ofNat 36 (fld v 51 16)) }
  | 0x140 => { s with spillBase := BitVec.ofNat 40 (fld v 55 16), spillLog := BitVec.ofNat 8 (fld v 63 56) }
  | 0x148 => { s with ovfBase := BitVec.ofNat 40 (fld v 55 16), ovfLog := BitVec.ofNat 8 (fld v 63 56) }
  | 0x200 => { s with apbase := BitVec.ofNat 20 (fld v 51 32) }
  | _ => s

/-- A write of PECTL (R9, R370): the bits take the value written, and a 1 in FREEZE or RESUME acts. A 0 takes back a command that
waits for its instant, and a 1 that cannot act reads 0 again (DESIGN CHOICE, log 82). -/
def State.pectlWrite (s : State) (v : DWord) : State :=
  let s1 := { s with pectl := (s.pectl &&& v.setWidth 3 &&& 3) ||| (if bit v 2 then 4 else 0)
                     pestat := if s.pestat = 3 ∧ !bit v 1 then 2 else s.pestat }
  if bit v 0 then s1.freezeWrite (bit v 2) else if bit v 1 then s1.resumeWrite (bit v 2) else s1

/-- A write of a BAR0 register from 0x3000 on (R367 to R370, R385). -/
def State.bar0High (s : State) (off : Nat) (v : DWord) : State :=
  match off with
  | 0x3000 => s.pectlWrite v
  | 0x3008 => { s with pebase := BitVec.ofNat 40 (fld v 55 16) }
  | 0x3018 => { s with pefreeze := v }
  | 0x3020 => { s with peresume := v }
  | 0x3810 => if v.setWidth 32 = (0 : Word) then s else { s with mcCount := 0 }
  | 0x3818 => { s with mcVec := v.setWidth 11 }
  | 0x3900 => { s with snapEn := bit v 0, snapBase := BitVec.ofNat 40 (fld v 55 16), snapLog := BitVec.ofNat 8 (fld v 63 56) }
  | 0x4040 => { s with e2eTimeout := v.setWidth 32, e2eRetries := BitVec.ofNat 4 (fld v 35 32) }
  | 0x4048 => { s with clkcfg := v.setWidth 3 }
  | 0x4058 => { s with unreach := v }
  | _ => s

/-- Registers that firmware sets by a path of its own (R70, R315), numbered here as the special registers are, from 2^24
on, and at 0x1000 beyond the chassis master's place, which it names (R385; log 40). -/
def State.firmwareWrite (s : State) (reg : Nat) (v : DWord) : State :=
  match reg with
  | 0x13 => { s with devCoord := v.setWidth 20 }
  | 0x1000 => { s with masterAt := v.setWidth 20 }
  | 0x80 => { s with wsCal := v }.wsRefresh
  | 0x81 => { s with wsPeriod := v.setWidth 32 }.wsRefresh
  | 0x82 => { s with wsWindow := v.setWidth 32 }.wsRefresh
  | _ => s

/-- REGISTER_WRITE (R9): RW fields take the value, W1C counts clear, RO fields and unlisted offsets stay. -/
def State.registerWrite (s : State) (off : Nat) (v : DWord) : State :=
  if 2 ^ 24 ≤ off then s.firmwareWrite (off - 2 ^ 24) v
  else if off < 0x1000 then s.bar0Low off v
  else if off < 0x1220 then s.hostqWrite ⟨(off - 0x1000) / 32 % 17, Nat.mod_lt _ (by decide)⟩ (off % 32) v
  else if off = 0x1300 then (if v.setWidth 32 = (0 : Word) then s else { s with fbDup := 0 })
  else if 0x2000 ≤ off ∧ off < 0x3000 then s.replyWrite (off - 0x2000) v
  else if 0x3100 ≤ off ∧ off < 0x3500 ∧ off % 8 = 0 then
    s.fenceRelease ⟨(off - 0x3100) / 8 % 128, Nat.mod_lt _ (by decide)⟩ v
  else if 0x8000 ≤ off ∧ off < 0x8800 ∧ off % 8 = 0 then { s with farunr := s.farunr.put ((off - 0x8000) / 8) v }
  else if 0x100000 ≤ off ∧ off < 0x108000 ∧ off % 8 = 0 then { s with msixTab := s.msixTab.put ((off - 0x100000) / 8) v }
  else s.bar0High off v

/-- REGISTER_WRITE. -/
def execRegisterWrite (off : Nat) (v : DWord) (s : State) : Out := .next (s.registerWrite off v)

/-! ## Reads of BAR0 (R341, R342, R367 to R370, R385) -/

/-- A read of a host queue's register. -/
def HostQ.read (q : HostQ) (reg : Nat) : DWord :=
  match reg with
  | 0 => q.base
  | 8 => q.cfg.setWidth 64
  | 16 => q.head.setWidth 64
  | _ => 0

/-- A root table frame as its register holds it. -/
def State.rootRead (s : State) (d : Fin 4) : DWord := dw ((s.ptroot.get d).toNat * 2 ^ 16)

/-- A register of a base [55:16] and a logarithm [63:56]. -/
def baseLog (base : BitVec 40) (log : Byte) : DWord := dw (base.toNat * 2 ^ 16 + log.toNat * 2 ^ 56)

/-- A read of a BAR0 register below 0x1000. TIMEBASE reads the job's timebase (R374). -/
def State.bar0LowRead (s : State) (off : Nat) : DWord :=
  match off with
  | 0x0 => dw s.credits
  | 0x8 => s.winDrop.setWidth 64
  | 0x10 => s.jobTime
  | 0x18 => s.hostOff
  | 0x20 => s.ptmctl.setWidth 64
  | 0x100 => s.rootRead 0
  | 0x108 => s.rootRead 1
  | 0x110 => s.rootRead 2
  | 0x118 => s.rootRead 3
  | 0x140 => baseLog s.spillBase s.spillLog
  | 0x148 => baseLog s.ovfBase s.ovfLog
  | 0x200 => dw (s.apbase.toNat * 2 ^ 32)
  | _ => 0

/-- FENCEn: a bit for each core that is fenced or halted (R368). -/
def State.fenceRead (s : State) (n : Nat) : DWord :=
  dw (((upto 64).map fun i => let k := s.core (mkCore (64 * n + i)); b2n (k.fenced || k.halted) * 2 ^ i).foldl (· + ·) 0)

/-- PORTSTAT of a port (R385). -/
def Port.read (p : Port) : DWord := dw (p.state.toNat + b2n p.key * 4 + p.replay.toNat * 2 ^ 16)

/-- A read of a BAR0 register from 0x3000 on. -/
def State.bar0HighRead (s : State) (off : Nat) : DWord :=
  match off with
  | 0x3000 => s.pectl.setWidth 64
  | 0x3008 => dw (s.pebase.toNat * 2 ^ 16)
  | 0x3010 => s.pestat.setWidth 64
  | 0x3018 => s.pefreeze
  | 0x3020 => s.peresume
  | 0x3028 => s.joboff
  | 0x3800 => dw (s.mcKind.toNat + s.mcCore.toNat * 2 ^ 4 + s.mcCause.toNat * 2 ^ 24)
  | 0x3808 => s.mcAddr.setWidth 64
  | 0x3810 => s.mcCount.setWidth 64
  | 0x3818 => s.mcVec.setWidth 64
  | 0x3900 => dw (b2n s.snapEn) ||| baseLog s.snapBase s.snapLog
  | 0x4040 => dw (s.e2eTimeout.toNat + s.e2eRetries.toNat * 2 ^ 32)
  | 0x4048 => s.clkcfg.setWidth 64
  | 0x4050 => s.clkoff
  | 0x4058 => s.unreach
  | _ => 0

/-- What a read of BAR0 returns; an offset that is not listed reads as zero. The PBA shows no vector pending: each is signalled at
once (log 61). -/
def State.bar0Read (s : State) (off : Nat) : DWord :=
  if off % 8 ≠ 0 then 0
  else if off < 0x1000 then s.bar0LowRead off
  else if off < 0x1220 then (s.hostQ.get ⟨(off - 0x1000) / 32 % 17, Nat.mod_lt _ (by decide)⟩).read (off % 32)
  else if off = 0x1300 then s.fbDup.setWidth 64
  else if off = 0x1308 then dw (s.ckState.toNat + s.ckRsv.toNat * 2 ^ 16)
  else if 0x2000 ≤ off ∧ off < 0x3000 then (if off % 16 = 0 then s.fbValue.get 0 ((off - 0x2000) / 16) else 0)
  else if 0x3100 ≤ off ∧ off < 0x3500 then s.fenceRead ((off - 0x3100) / 8)
  else if 0x4000 ≤ off ∧ off < 0x4040 then (s.ports.get ⟨(off - 0x4000) / 8 % 8, Nat.mod_lt _ (by decide)⟩).read
  else if 0x8000 ≤ off ∧ off < 0x8800 then s.farunr.get 0 ((off - 0x8000) / 8)
  else if 0x10000 ≤ off ∧ off < 0x10000 + 8 * 4432 then (s.counter ((off - 0x10000) / 8)).image
  else if 0x100000 ≤ off ∧ off < 0x108000 then s.msixTab.get 0 ((off - 0x100000) / 8)
  else s.bar0HighRead off

/-! ## The slots of the event window (R343) -/

/-- A slot whose words are zero. -/
def emptySlot : WinSlot := ⟨0, 0, 0, 0, 0, 0, 0, 0⟩

/-- A word of a slot. -/
def slotWord (w : WinSlot) (i : Fin 8) : DWord :=
  match i with
  | 0 => w.w0
  | 1 => w.w1
  | 2 => w.w2
  | 3 => w.w3
  | 4 => w.w4
  | 5 => w.w5
  | 6 => w.w6
  | 7 => w.w7

/-- A slot with a word written. -/
def slotPut (w : WinSlot) (i : Fin 8) (v : DWord) : WinSlot :=
  match i with
  | 0 => { w with w0 := v }
  | 1 => { w with w1 := v }
  | 2 => { w with w2 := v }
  | 3 => { w with w3 := v }
  | 4 => { w with w4 := v }
  | 5 => { w with w5 := v }
  | 6 => { w with w6 := v }
  | 7 => { w with w7 := v }

/-- A slot of the window. -/
def State.winSlot (s : State) (slot : Fin 4096) : WinSlot := s.winSlots.get emptySlot slot.val

/-- A commit of a slot, by its kind; the reserved kinds are dropped (log 31). -/
def State.commitSlot (s : State) (w : WinSlot) : Out :=
  match w.kind with
  | 1 => execLaunchCommit w s
  | 2 => execSetCounterCommit w s
  | 3 => execCancelCommit w s
  | 4 => execCheckpointCutCommit w s
  | 5 => execCheckpointDrainCommit w s
  | _ => execHostEventCommit w s

/-- The host writes a word of a slot: word 7 with VALID commits a copy of the slot. -/
def State.slotWrite (s : State) (slot : Fin 4096) (word : Fin 8) (v : DWord) : Out :=
  let w := slotPut (s.winSlot slot) word v
  let s1 := { s with winSlots := s.winSlots.put slot.val w }
  if word = 7 ∧ bit v 0 then s1.commitSlot w else .next s1

/-! ## The home routine's invalidation (R65, R66) -/

/-- The step, if the write it performs is of a line. -/
def writesLine (line : Nat) (step : State → Option State) (s : State) : Option State :=
  match step s with
  | some t => if s.past.length < t.past.length ∧ (t.past.head?.any fun w => w.meets line 128) then some t else none
  | none => none

/-- The first write of a core that meets a line and can be performed: of a request, a copy, or a stream. -/
def State.grantOn (line : Nat) (c : CoreId) (s : State) : Option State :=
  let req (h : CtxId) (s : State) : Option State := firstIndex (fun t k =>
    writesLine line (orElse (·.tryGrant c h k) (·.tryAtomic c h k)) t) s ((s.core c).ctx h).reqs.length
  let copy (ch : Fin 4) (s : State) : Option State := match ((s.core c).chans.get ch).running with
    | some r => firstIndex (fun t k => writesLine line (·.copyElement c ch k) t) s r.req.count
    | none => none
  orElse (fun s => ctxIds.findSome? fun h => req h s)
    (orElse (fun s => (List.finRange 4).findSome? fun ch => copy ch s)
      fun s => (List.finRange 8).findSome? fun i => writesLine line (·.tryStream c i) s) s

/-- The write that was held at a line is granted: that of an outside agent as it was kept, or a core's. -/
def State.grantHeld (line : Nat) (w : Option HeldWrite) (s : State) : State :=
  match w with
  | some (.aperture pa n v) => (s.apertureStore pa n v).getD s
  | some (.packet port p) => (s.receive port p.src p).getD s
  | none => (s.liveCores.findSome? fun c => State.grantOn line c s).getD s

/-- The home routine invalidates every sharer of a line; the mark clears, and a write that was held there is granted at once (R65). -/
def State.invalidateLine (s : State) (line : Nat) : State :=
  if s.lineHeld line then State.grantHeld line (s.dirAt line).write (s.invalidate line) else s.invalidate line

/-- OVERFLOW_INVALIDATION (R65): the home routine invalidates a line where a write is held. -/
def State.tryInvalidate (s : State) (line : Nat) : Option State :=
  let l := lineOf line
  if !s.lineHeld l then none else some ((s.invalidateLine l).homeRest (homeLanding l))

/-- The home routine serves its oldest notice: it records the sharer, after invalidating every sharer of its oldest overflowed
line when the table is full (R65, R66). -/
def State.serveNotice (s : State) (landing : Nat) : Option State :=
  match s.notices.get [] landing with
  | [] => none
  | e :: r =>
    let s1 := { s with notices := s.notices.put landing r }
    let s2 := match s1.ovfTab.get [] landing with
      | o :: _ => if s1.ovfFull landing then s1.invalidateLine o.1 else s1
      | [] => s1
    if !s.cowRoom (s.ovfAddr landing (s2.ovfTab.get [] landing).length) then none
    else some ((if s2.overflowed e.1 then s2.ovfRecord landing e else s2.shareLine (mkCore e.2) e.1).homeRest landing)

/-- A fill that waits at its home is made once a read would be served there (R65, R66). -/
def State.settleFills (s : State) : State :=
  s.prefetches.foldl (fun s e => s.fillLine e.1 e.2) { s with prefetches := [] }

/-- OVERFLOW_INVALIDATION. -/
def execOverflowInvalidation (line : Nat) (s : State) : Out := happen s (s.tryInvalidate line)

/-! ## Power (R389) -/

/-- The clock falls by 100 MHz, to no lower than 1.5 GHz. -/
def State.slowDown (s : State) : State := { s with mhz := max 1500 (s.mhz - 100) }

/-- POWER_CAP_THROTTLE: power above the cap. -/
def execPowerCapThrottle (milliwatts : Nat) (s : State) : Out :=
  .next (if s.powerCap < milliwatts then s.slowDown else s)

/-- THERMAL_LIMIT: above 105 degrees the clock falls; at 115 the module shuts down and reports it over PLDM. -/
def execThermalLimit (celsius : Nat) (s : State) : Out :=
  .next (if 115 ≤ celsius then
      { s with shutdown := true, mgmtOut := [BitVec.ofNat 8 celsius] :: s.mgmtOut }
    else if 105 < celsius then s.slowDown else s)

/-- POWER_CAP_SET: 1.2 to 3.2 kW. -/
def execPowerCapSet (milliwatts : Nat) (s : State) : Out :=
  .next (if 1200000 ≤ milliwatts ∧ milliwatts ≤ 3200000 then { s with powerCap := milliwatts } else s)

/-! ## Firmware and management (R388) -/

/-- PLDM_FIRMWARE_UPDATE: an image whose version lies below the rollback counter is refused. -/
def execPldmFirmwareUpdate (image : List Byte) (version : Nat) (s : State) : Out :=
  .next (if version < s.rollback.val then s else { s with firmware := image, fwVersion := version })

/-- PLDM_MONITOR: power and temperatures, which the model does not have, then port states and machine-check counts. -/
def execPldmMonitor (s : State) : Out :=
  let d := s.draw 256
  .next { d.2 with mgmtOut := (leBytes 32 d.1.toNat ++ (s.ports.toList.map fun (p : Port) => p.state.setWidth 8) ++
    leBytes 4 s.mcCount.toNat) :: d.2.mgmtOut }

/-- SPDM_ATTESTATION: an answer signed with the identity key. -/
def execSpdmAttestation (request : List Byte) (s : State) : Out :=
  .next { s with mgmtOut := Config.attestation request :: s.mgmtOut }

/-- The module right after power-up: at reset, but for the agenda, the fuses, the staged firmware, and memory that lies
outside it. -/
def State.powerUp (s : State) : State :=
  { State.reset with
    agenda := s.agenda, cur := s.cur, curCtx := s.curCtx, freeCtr := s.freeCtr, reqCtr := s.reqCtr
    mem := s.mem.filter fun e => decide (2 ^ 50 ≤ e.1)
    rollback := s.rollback, firmware := s.firmware, fwVersion := s.fwVersion }

/-- The device firmware that the service processor verifies: what a PLDM update has stored, else the image that the module came
with, as the boot finds it. -/
def State.bootImage (s : State) (device : List Byte) (version : Nat) : List Byte × Nat :=
  if s.firmware.isEmpty then (device, version) else (s.firmware, s.fwVersion)

/-- FIRMWARE_BOOT_VERIFY: reset is released when both images' signatures verify and the version is not rolled back. -/
def execFirmwareBootVerify (service device : List Byte) (version : Nat) (s : State) : Out :=
  let b := s.bootImage device version
  .next { s.powerUp with
    inReset := !(Config.signatureGood service && Config.signatureGood b.1 && decide (s.rollback.val ≤ b.2)) }

end Sys2Proof.Machine
end

