-- ==== Sys2Proof/Machine/Auto.lean ====
section
/-! DEFINITION. What a step does around the turn it takes (log 5): which core issues and what comes about when the agenda
names nothing, full/empty waiters that are served first (R60). -/

namespace Sys2Proof.Machine

/-! ## An empty agenda -/

/-- A core can issue. -/
def State.canIssue (s : State) (c : CoreId) : Bool :=
  !s.stopped && !(s.core c).halted && (match (s.core c).pick with
    | some h => !s.fetchWaits c h
    | none => false)

/-- The core that issues: the one named by `cur`, else the first that can. -/
def State.issuer (s : State) : Option CoreId :=
  if s.canIssue s.cur then some s.cur else s.liveCores.find? fun c => s.canIssue c

/-- The first of some steps that can be taken. -/
def firstOf : List (State → Option State) → State → Option State
  | [], _ => none
  | a :: r, s => orElse a (firstOf r) s

/-- The first happening of a core that can come about. -/
def State.autoCore (c : CoreId) (s : State) : Option State :=
  firstOf
    [firstOf (ctxIds.map fun h => State.reqStep c h), (·.tryDepart c), (·.tryEntry c), State.autoSpill c,
     firstOf ((List.finRange 64).map fun i s => s.trySlot c i), (·.tryStale c), (·.tryCancelled c), (·.tryStart c),
     (·.tryGrace c), (·.tryUnit c),
     firstOf ((List.finRange 4).map fun i s => firstOf
       [(·.tryCopyDone c i), (·.tryChannelFault c i false), (·.tryCopyStart c i)] s),
     (·.tryMma c), (·.tryMmaFault c), (·.tryLeave c), (·.tryBarrier c),
     fun s => firstIndex (fun t i => t.engineWrite c i) s (s.core c).engW.length,
     firstOf ((List.finRange 8).map fun i s => s.tryStream c i),
     firstOf (ctxIds.map fun h s => firstOf ((List.finRange 8).map fun n t => t.tryPrefetch c h n) s),
     firstOf ((List.finRange 2).map fun i s => s.tryLocal c i)] s

/-- A waiting instruction of a core is tried again. -/
def State.autoWait (c : CoreId) (s : State) : Option State := firstOf (ctxIds.map fun h s => s.tryWait c h) s

/-- The first happening that can come about when no core can issue. -/
def State.auto (s : State) : Option State :=
  firstOf
    [firstOf (s.liveCores.map State.autoCore),
     fun s => firstIndex State.tryArrival s s.flight.length,
     fun s => firstIndex State.tryCap s s.capMsgs.length,
     fun s => firstIndex State.tryHome s s.objMsgs.length,
     fun s => firstIndex State.tryRouter s s.objMsgs.length,
     fun s => firstOf (s.windows.map fun e s => firstIndex (fun t i => t.tryExpire e.1 i) s e.2.length) s,
     firstOf (s.groups.map fun e s => firstOf (e.2.aborting.map fun r s => s.tryAbort e.1 r) s),
     firstOf (s.groups.map fun e s => s.tryRound e.1),
     fun s => firstIndex (fun t i => t.tryMcast i []) s s.mcasts.length,
     firstOf ((List.finRange 4).map fun d s => s.unitResume d),
     firstOf (s.launches.map fun e s => s.tryRoundClose e.1),
     firstOf (s.notices.map fun e s => s.serveNotice e.1), firstOf (s.dir.map fun e s => s.tryInvalidate e.1),
     fun s => firstIndex State.tryRetry s s.kept.length,
     State.tryCutSave, State.tryDrained, State.tryFreezeInstant, State.tryResumeInstant,
     firstOf (s.liveCores.map State.autoWait)] s

/-- `n` core cycles pass: with the first, what the last one has set up takes effect (R312). -/
def State.passCycles (s : State) : Nat → State
  | 0 => s.pass 0
  | 1 => (s.pass 1).nextCycle
  | n + 2 => ((s.pass 1).nextCycle).pass (n + 1)

/-! ## What comes about at the end of every step -/

/-- The slots of a core whose change waits to take effect. -/
def Core.slotsDue (k : Core) : List (Fin 64) := (List.finRange 64).filter fun i => (k.slots.get i).pending.isSome

/-- The waiting firings of an output make their events as long as entries are free, `f` of them at most (R51). -/
def State.settleLocal (s : State) (c : CoreId) (o : Fin 2) : Nat → State
  | 0 => s
  | f + 1 => match s.tryLocal c o with
    | some s1 => s1.settleLocal c o f
    | none => s

/-- What a core does at the first instant at which it can: slot changes take effect (R25, R33), waiting firings of the crossbar
enter the inbox (R51). -/
def State.settleCore (s : State) (c : CoreId) : State :=
  let s1 := (s.core c).slotsDue.foldl (fun s i => (s.trySlot c i).getD s) s
  ([0, 1] : List (Fin 2)).foldl (fun s o => s.settleLocal c o 64) s1

/-- The rounds that are due close (R110). -/
def State.settleRounds (s : State) : State :=
  s.launches.foldl (fun s e => if s.roundDue e.1 then (s.tryRoundClose e.1).getD s else s) s

/-- The next turn serves a full/empty waiter that can be served, or runs the one that is. -/
def State.serves (s : State) : Bool :=
  match s.agenda with
  | ⟨0, .waiter c h⟩ :: _ => (s.served c).any fun w => w.ctx == h
  | ⟨0, .happening (.feWaiterService c)⟩ :: _ => (s.served c).isSome
  | _ => false

/-- A satisfied full/empty waiter is the next to run (R60). -/
def State.settleWaiters (s : State) : State :=
  if s.serves then s
  else match s.cores.find? fun e => (s.served (mkCore e.1)).isSome with
    | some (c, _) => { s with agenda := ⟨0, .happening (.feWaiterService (mkCore c))⟩ :: s.agenda }
    | none => s

/-- What no step may leave undone: a re-run (R369), slot changes, firings, rounds, fills, waiters, a cut that can be taken (R386). A
module that is stopped stays; one that freezes goes on doing that (R371). -/
def State.settle (s : State) : State :=
  if s.dead then s
  else if s.pestat = 1 then s.freezeGo
  else if s.stopped then s
  else
    let s1 := s.rerunLost s.cur
    (s1.liveCores.foldl State.settleCore s1).settleRounds.settleFills.cutFinish.settleWaiters

end Sys2Proof.Machine
end

