-- ==== Sys2Proof/Machine/Predicate.lean ====
section
/-! DEFINITION. Compares and predicates (R224 to R229). Predicate logic is not lane-wise (R228). -/

namespace Sys2Proof.Machine

/-- p[D] ← f(p[A]). -/
def pop1 (f : Word → Word) (d a : PReg) (s : State) : Act := .ok (s.putP d (f (s.rdP a)))

/-- p[D] ← f(p[A], p[B]). -/
def pop2 (f : Word → Word → Word) (d a b : PReg) (s : State) : Act := .ok (s.putP d (f (s.rdP a) (s.rdP b)))

/-- CMP (R225). -/
def execCmp (g : Guard) (d : PReg) (a b : Reg) (cc : ICond) (s : State) : Out :=
  instr g (fun s => do
    let x ← s.rdX a
    let y ← s.rdX b
    return s.putP d (predBit (icond cc x y))) s

/-- CMPI: the immediate is sign-extended for every condition (R226). -/
def execCmpi (g : Guard) (d : PReg) (a : Reg) (imm : Int) (cc : ICond) (s : State) : Out :=
  instr g (fun s => do
    let x ← s.rdX a
    return s.putP d (predBit (icond cc x (ofImm imm)))) s

/-- FCMP (R227). -/
def execFcmp (g : Guard) (d : PReg) (a b : Reg) (cc : FCond) (s : State) : Out :=
  instr g (fun s =>
    let r := fp64.cond cc (s.rdF a).toNat (s.rdF b).toNat
    .ok ((s.putP d (predBit r.1)).orFlags (flag r.2 flNV))) s

/-- The lowest set lane alone. -/
def firstLane (p : Word) : Word :=
  match lowestSet p with
  | some i => (1 : Word) <<< i
  | none => 0

/-- PAND (R228). -/
def execPand (g : Guard) (d a b : PReg) (s : State) : Out := instr g (pop2 (· &&& ·) d a b) s

/-- POR (R228). -/
def execPor (g : Guard) (d a b : PReg) (s : State) : Out := instr g (pop2 (· ||| ·) d a b) s

/-- PXOR (R228). -/
def execPxor (g : Guard) (d a b : PReg) (s : State) : Out := instr g (pop2 (· ^^^ ·) d a b) s

/-- PANDN (R228). -/
def execPandn (g : Guard) (d a b : PReg) (s : State) : Out := instr g (pop2 (fun x y => x &&& ~~~y) d a b) s

/-- PNOT (R228). -/
def execPnot (g : Guard) (d a : PReg) (s : State) : Out := instr g (pop1 (~~~ ·) d a) s

/-- PMOV (R228). -/
def execPmov (g : Guard) (d a : PReg) (s : State) : Out := instr g (pop1 id d a) s

/-- PALL (R228). -/
def execPall (g : Guard) (d a : PReg) (s : State) : Out := instr g (pop1 (fun x => predBit (decide (x = BitVec.allOnes 32))) d a) s

/-- PNONE (R228). -/
def execPnone (g : Guard) (d a : PReg) (s : State) : Out := instr g (pop1 (fun x => predBit (decide (x = 0))) d a) s

/-- PFIRST (R229). -/
def execPfirst (g : Guard) (d a : PReg) (s : State) : Out := instr g (pop1 firstLane d a) s

/-- PCNT (R229). -/
def execPcnt (g : Guard) (d : Reg) (a : PReg) (s : State) : Out := instr g (fun s => s.wrX d (dw (popCount (s.rdP a)))) s

/-- PTOX (R229). -/
def execPtox (g : Guard) (d : Reg) (a : PReg) (s : State) : Out := instr g (fun s => s.wrX d ((s.rdP a).setWidth 64)) s

/-- PFFS (R229). -/
def execPffs (g : Guard) (d : Reg) (a : PReg) (s : State) : Out := instr g (fun s => s.wrX d (dw ((lowestSet (s.rdP a)).getD 32))) s

/-- XTOP: xA[63:32] is ignored (R229). -/
def execXtop (g : Guard) (d : PReg) (a : Reg) (s : State) : Out :=
  instr g (fun s => do
    let x ← s.rdX a
    return s.putP d (x.setWidth 32)) s

end Sys2Proof.Machine
end

