-- ==== Sys2Proof/Machine/Dispatch.lean ====
section
/-! DEFINITION. One arm per constructor of `Instr`: the one match that leads to the meanings. -/

namespace Sys2Proof.Machine

/-- What an instruction, or a happening, does to the machine. -/
def exec (i : Instr) (s : State) : Host.Outcome State Fault Refusal :=
  match i with
  | .eventArrival k => Sys2Proof.Machine.execEventArrival k s
  | .holdBackEntry c => Sys2Proof.Machine.execHoldBackEntry c s
  | .reactionStart c => Sys2Proof.Machine.execReactionStart c s
  | .headStaleDiscard c => Sys2Proof.Machine.execHeadStaleDiscard c s
  | .cancelledEventDiscard c => Sys2Proof.Machine.execCancelledEventDiscard c s
  | .joinGraceExpired c => Sys2Proof.Machine.execJoinGraceExpired c s
  | .poolUnitStart c => Sys2Proof.Machine.execPoolUnitStart c s
  | .heartbeatMissed c h => Sys2Proof.Machine.execHeartbeatMissed c h s
  | .sendDeparture c => Sys2Proof.Machine.execSendDeparture c s
  | .slotChangeEffect c slot => Sys2Proof.Machine.execSlotChangeEffect c slot s
  | .crossbarCounterZero c i_ => Sys2Proof.Machine.execCrossbarCounterZero c i_ s
  | .crossbarLocalEventEntry c out => Sys2Proof.Machine.execCrossbarLocalEventEntry c out s
  | .copyRequestStart c ch => Sys2Proof.Machine.execCopyRequestStart c ch s
  | .copyRequestComplete c ch => Sys2Proof.Machine.execCopyRequestComplete c ch s
  | .channelFault c ch uncorrectable => Sys2Proof.Machine.execChannelFault c ch uncorrectable s
  | .gangBarrierComplete c => Sys2Proof.Machine.execGangBarrierComplete c s
  | .mmaStep c => Sys2Proof.Machine.execMmaStep c s
  | .accumulatorLeavesOwnership c => Sys2Proof.Machine.execAccumulatorLeavesOwnership c s
  | .mmaOperationFault c => Sys2Proof.Machine.execMmaOperationFault c s
  | .mstoComplete c n => Sys2Proof.Machine.execMstoComplete c n s
  | .collectiveRoundComplete grp => Sys2Proof.Machine.execCollectiveRoundComplete grp s
  | .collectiveAbortArrival grp rank => Sys2Proof.Machine.execCollectiveAbortArrival grp rank s
  | .mcastCompletionRecord k pierErrors => Sys2Proof.Machine.execMcastCompletionRecord k pierErrors s
  | .objectOpAtRouter k => Sys2Proof.Machine.execObjectOpAtRouter k s
  | .windowWaitExpired landing k => Sys2Proof.Machine.execWindowWaitExpired landing k s
  | .objectOpAtHome k => Sys2Proof.Machine.execObjectOpAtHome k s
  | .splitPhaseReply c h k => Sys2Proof.Machine.execSplitPhaseReply c h k s
  | .stvApply c h k => Sys2Proof.Machine.execStvApply c h k s
  | .reclApply c h k => Sys2Proof.Machine.execReclApply c h k s
  | .capabilityArrival k => Sys2Proof.Machine.execCapabilityArrival k s
  | .capqAnswer c h k => Sys2Proof.Machine.execCapqAnswer c h k s
  | .atomicAtHome c h k => Sys2Proof.Machine.execAtomicAtHome c h k s
  | .storeGrant c h k => Sys2Proof.Machine.execStoreGrant c h k s
  | .directoryOverflowNotice line c => Sys2Proof.Machine.execDirectoryOverflowNotice line c s
  | .overflowInvalidation line => Sys2Proof.Machine.execOverflowInvalidation line s
  | .tlbWalkComplete c va => Sys2Proof.Machine.execTlbWalkComplete c va s
  | .prefetchComplete c h n => Sys2Proof.Machine.execPrefetchComplete c h n s
  | .wsRefreshWindow => Sys2Proof.Machine.execWsRefreshWindow s
  | .streamElementAccess c st => Sys2Proof.Machine.execStreamElementAccess c st s
  | .feWaiterService c => Sys2Proof.Machine.execFeWaiterService c s
  | .waitSatisfied c h => Sys2Proof.Machine.execWaitSatisfied c h s
  | .detRoundClose lcnt => Sys2Proof.Machine.execDetRoundClose lcnt s
  | .trapEntry c => Sys2Proof.Machine.execTrapEntry c s
  | .trapBudgetExpired c => Sys2Proof.Machine.execTrapBudgetExpired c s
  | .machineCheck kind c pa => Sys2Proof.Machine.execMachineCheck kind c pa s
  | .fenceRelease n mask => Sys2Proof.Machine.execFenceRelease n mask s
  | .hostEventCommit w => Sys2Proof.Machine.execHostEventCommit w s
  | .launchCommit w => Sys2Proof.Machine.execLaunchCommit w s
  | .launchSetupResume die => Sys2Proof.Machine.execLaunchSetupResume die s
  | .setCounterCommit w => Sys2Proof.Machine.execSetCounterCommit w s
  | .cancelCommit w => Sys2Proof.Machine.execCancelCommit w s
  | .checkpointCutCommit w => Sys2Proof.Machine.execCheckpointCutCommit w s
  | .cutSave => Sys2Proof.Machine.execCutSave s
  | .cutMarkerArrival port freezeMarker => Sys2Proof.Machine.execCutMarkerArrival port freezeMarker s
  | .checkpointDrainCommit w => Sys2Proof.Machine.execCheckpointDrainCommit w s
  | .drainComplete => Sys2Proof.Machine.execDrainComplete s
  | .hqheadWrite q v => Sys2Proof.Machine.execHqheadWrite q v s
  | .fallbackReplyCommit id v => Sys2Proof.Machine.execFallbackReplyCommit id v s
  | .atomicopUnsupported c h k => Sys2Proof.Machine.execAtomicopUnsupported c h k s
  | .ptmExchange answer => Sys2Proof.Machine.execPtmExchange answer s
  | .timestampExchange t1 t2 t3 t4 port slew => Sys2Proof.Machine.execTimestampExchange t1 t2 t3 t4 port slew s
  | .freeze coord => Sys2Proof.Machine.execFreeze coord s
  | .resume coord => Sys2Proof.Machine.execResume coord s
  | .coordinatedFreezeInstant => Sys2Proof.Machine.execCoordinatedFreezeInstant s
  | .coordinatedResumeInstant => Sys2Proof.Machine.execCoordinatedResumeInstant s
  | .packetArrival port p => Sys2Proof.Machine.execPacketArrival port p s
  | .linkDown port => Sys2Proof.Machine.execLinkDown port s
  | .e2eRetryTimeout k => Sys2Proof.Machine.execE2eRetryTimeout k s
  | .e2eAckArrival src seq => Sys2Proof.Machine.execE2eAckArrival src seq s
  | .linkKeyRenewal port => Sys2Proof.Machine.execLinkKeyRenewal port s
  | .powerCapThrottle milliwatts => Sys2Proof.Machine.execPowerCapThrottle milliwatts s
  | .thermalLimit celsius => Sys2Proof.Machine.execThermalLimit celsius s
  | .powerCapSet milliwatts => Sys2Proof.Machine.execPowerCapSet milliwatts s
  | .pldmFirmwareUpdate image version => Sys2Proof.Machine.execPldmFirmwareUpdate image version s
  | .pldmMonitor => Sys2Proof.Machine.execPldmMonitor s
  | .spdmAttestation request => Sys2Proof.Machine.execSpdmAttestation request s
  | .firmwareBootVerify service device version => Sys2Proof.Machine.execFirmwareBootVerify service device version s
  | .hostApertureAccess store off size v => Sys2Proof.Machine.execHostApertureAccess store off size v s
  | .spillTakeRead c d => Sys2Proof.Machine.execSpillTakeRead c d s
  | .spillPutWrite c addr => Sys2Proof.Machine.execSpillPutWrite c addr s
  | .spillNWrite c v => Sys2Proof.Machine.execSpillNWrite c v s
  | .registerWrite off v => Sys2Proof.Machine.execRegisterWrite off v s
  | .linkBringUp port => Sys2Proof.Machine.execLinkBringUp port s
  | .add g d a b => Sys2Proof.Machine.execAdd g d a b s
  | .sub g d a b => Sys2Proof.Machine.execSub g d a b s
  | .andR g d a b => Sys2Proof.Machine.execAndR g d a b s
  | .orR g d a b => Sys2Proof.Machine.execOrR g d a b s
  | .xor g d a b => Sys2Proof.Machine.execXor g d a b s
  | .andn g d a b => Sys2Proof.Machine.execAndn g d a b s
  | .minS g d a b => Sys2Proof.Machine.execMinS g d a b s
  | .maxS g d a b => Sys2Proof.Machine.execMaxS g d a b s
  | .minu g d a b => Sys2Proof.Machine.execMinu g d a b s
  | .maxu g d a b => Sys2Proof.Machine.execMaxu g d a b s
  | .shl g d a b => Sys2Proof.Machine.execShl g d a b s
  | .shr g d a b => Sys2Proof.Machine.execShr g d a b s
  | .sra g d a b => Sys2Proof.Machine.execSra g d a b s
  | .rol g d a b => Sys2Proof.Machine.execRol g d a b s
  | .ror g d a b => Sys2Proof.Machine.execRor g d a b s
  | .mov g d a => Sys2Proof.Machine.execMov g d a s
  | .mul g d a b => Sys2Proof.Machine.execMul g d a b s
  | .mulhiS g d a b => Sys2Proof.Machine.execMulhiS g d a b s
  | .mulhiU g d a b => Sys2Proof.Machine.execMulhiU g d a b s
  | .mulhiSu g d a b => Sys2Proof.Machine.execMulhiSu g d a b s
  | .div g d a b => Sys2Proof.Machine.execDiv g d a b s
  | .divu g d a b => Sys2Proof.Machine.execDivu g d a b s
  | .rem g d a b => Sys2Proof.Machine.execRem g d a b s
  | .remu g d a b => Sys2Proof.Machine.execRemu g d a b s
  | .clz g d a => Sys2Proof.Machine.execClz g d a s
  | .ctz g d a => Sys2Proof.Machine.execCtz g d a s
  | .popc g d a => Sys2Proof.Machine.execPopc g d a s
  | .sextB g d a => Sys2Proof.Machine.execSextB g d a s
  | .sextH g d a => Sys2Proof.Machine.execSextH g d a s
  | .sextW g d a => Sys2Proof.Machine.execSextW g d a s
  | .zextH g d a => Sys2Proof.Machine.execZextH g d a s
  | .zextW g d a => Sys2Proof.Machine.execZextW g d a s
  | .lea g d a b c => Sys2Proof.Machine.execLea g d a b c s
  | .yld g d a => Sys2Proof.Machine.execYld g d a s
  | .ybase g d a => Sys2Proof.Machine.execYbase g d a s
  | .yext g d a n => Sys2Proof.Machine.execYext g d a n s
  | .yrd g d a n => Sys2Proof.Machine.execYrd g d a n s
  | .sbind g d a => Sys2Proof.Machine.execSbind g d a s
  | .sunb g d => Sys2Proof.Machine.execSunb g d s
  | .slink g d a => Sys2Proof.Machine.execSlink g d a s
  | .sstat g d a => Sys2Proof.Machine.execSstat g d a s
  | .addw g d a b => Sys2Proof.Machine.execAddw g d a b s
  | .subw g d a b => Sys2Proof.Machine.execSubw g d a b s
  | .mulw g d a b => Sys2Proof.Machine.execMulw g d a b s
  | .shlw g d a b => Sys2Proof.Machine.execShlw g d a b s
  | .shrw g d a b => Sys2Proof.Machine.execShrw g d a b s
  | .sraw g d a b => Sys2Proof.Machine.execSraw g d a b s
  | .divw g d a b => Sys2Proof.Machine.execDivw g d a b s
  | .remw g d a b => Sys2Proof.Machine.execRemw g d a b s
  | .addi g d a imm => Sys2Proof.Machine.execAddi g d a imm s
  | .andi g d a imm => Sys2Proof.Machine.execAndi g d a imm s
  | .ori g d a imm => Sys2Proof.Machine.execOri g d a imm s
  | .xori g d a imm => Sys2Proof.Machine.execXori g d a imm s
  | .shli g d a imm => Sys2Proof.Machine.execShli g d a imm s
  | .shri g d a imm => Sys2Proof.Machine.execShri g d a imm s
  | .srai g d a imm => Sys2Proof.Machine.execSrai g d a imm s
  | .roli g d a imm => Sys2Proof.Machine.execRoli g d a imm s
  | .ldi d imm => Sys2Proof.Machine.execLdi d imm s
  | .seth d imm16 pos => Sys2Proof.Machine.execSeth d imm16 pos s
  | .cmpi g d a imm cc => Sys2Proof.Machine.execCmpi g d a imm cc s
  | .cmp g d a b cc => Sys2Proof.Machine.execCmp g d a b cc s
  | .fcmp g d a b cc => Sys2Proof.Machine.execFcmp g d a b cc s
  | .pand g d a b => Sys2Proof.Machine.execPand g d a b s
  | .por g d a b => Sys2Proof.Machine.execPor g d a b s
  | .pxor g d a b => Sys2Proof.Machine.execPxor g d a b s
  | .pandn g d a b => Sys2Proof.Machine.execPandn g d a b s
  | .pnot g d a => Sys2Proof.Machine.execPnot g d a s
  | .pmov g d a => Sys2Proof.Machine.execPmov g d a s
  | .pall g d a => Sys2Proof.Machine.execPall g d a s
  | .pnone g d a => Sys2Proof.Machine.execPnone g d a s
  | .pfirst g d a => Sys2Proof.Machine.execPfirst g d a s
  | .pcnt g d a => Sys2Proof.Machine.execPcnt g d a s
  | .ptox g d a => Sys2Proof.Machine.execPtox g d a s
  | .xtop g d a => Sys2Proof.Machine.execXtop g d a s
  | .pffs g d a => Sys2Proof.Machine.execPffs g d a s
  | .fmvxf g d a => Sys2Proof.Machine.execFmvxf g d a s
  | .fmvfx g d a => Sys2Proof.Machine.execFmvfx g d a s
  | .fkind g d a => Sys2Proof.Machine.execFkind g d a s
  | .fadd g d a b => Sys2Proof.Machine.execFadd g d a b s
  | .fsub g d a b => Sys2Proof.Machine.execFsub g d a b s
  | .fmul g d a b => Sys2Proof.Machine.execFmul g d a b s
  | .fdiv g d a b => Sys2Proof.Machine.execFdiv g d a b s
  | .fmin g d a b => Sys2Proof.Machine.execFmin g d a b s
  | .fmax g d a b => Sys2Proof.Machine.execFmax g d a b s
  | .fsqrt g d a => Sys2Proof.Machine.execFsqrt g d a s
  | .fsgn g d a b => Sys2Proof.Machine.execFsgn g d a b s
  | .fma g d a b => Sys2Proof.Machine.execFma g d a b s
  | .fms g d a b => Sys2Proof.Machine.execFms g d a b s
  | .fabs g d a => Sys2Proof.Machine.execFabs g d a s
  | .fneg g d a => Sys2Proof.Machine.execFneg g d a s
  | .fcvtXf g d a mode => Sys2Proof.Machine.execFcvtXf g d a mode s
  | .fcvtFx g d a mode => Sys2Proof.Machine.execFcvtFx g d a mode s
  | .fcvtUf g d a mode => Sys2Proof.Machine.execFcvtUf g d a mode s
  | .fcvtFu g d a mode => Sys2Proof.Machine.execFcvtFu g d a mode s
  | .cgrp g d a => Sys2Proof.Machine.execCgrp g d a s
  | .cinj g a b => Sys2Proof.Machine.execCinj g a b s
  | .cinjHld g a b => Sys2Proof.Machine.execCinjHld g a b s
  | .cext g d a => Sys2Proof.Machine.execCext g d a s
  | .cstat g d a => Sys2Proof.Machine.execCstat g d a s
  | .cabort g a => Sys2Proof.Machine.execCabort g a s
  | .cfree g a => Sys2Proof.Machine.execCfree g a s
  | .cinjx g a b => Sys2Proof.Machine.execCinjx g a b s
  | .cinjxHld g a b => Sys2Proof.Machine.execCinjxHld g a b s
  | .cextx g a b => Sys2Proof.Machine.execCextx g a b s
  | .mma c n a b fmt => Sys2Proof.Machine.execMma c n a b fmt s
  | .prep n off => Sys2Proof.Machine.execPrep n off s
  | .prepx g n a => Sys2Proof.Machine.execPrepx g n a s
  | .mfb g d n => Sys2Proof.Machine.execMfb g d n s
  | .mtb g n a => Sys2Proof.Machine.execMtb g n a s
  | .clrb g n => Sys2Proof.Machine.execClrb g n s
  | .tstb g d n => Sys2Proof.Machine.execTstb g d n s
  | .nop g => Sys2Proof.Machine.execNop g s
  | .endL g => Sys2Proof.Machine.execEndL g s
  | .halt g => Sys2Proof.Machine.execHalt g s
  | .brk g => Sys2Proof.Machine.execBrk g s
  | .eret g => Sys2Proof.Machine.execEret g s
  | .syncCL g => Sys2Proof.Machine.execSyncCL g s
  | .beatL g => Sys2Proof.Machine.execBeatL g s
  | .idle g a => Sys2Proof.Machine.execIdle g a s
  | .trap g imm => Sys2Proof.Machine.execTrap g imm s
  | .mfs d sp => Sys2Proof.Machine.execMfs d sp s
  | .mts sp d => Sys2Proof.Machine.execMts sp d s
  | .tagt g d => Sys2Proof.Machine.execTagt g d s
  | .tagm g d => Sys2Proof.Machine.execTagm g d s
  | .clk g d => Sys2Proof.Machine.execClk g d s
  | .horz g d => Sys2Proof.Machine.execHorz g d s
  | .lastt g d => Sys2Proof.Machine.execLastt g d s
  | .lastm g d => Sys2Proof.Machine.execLastm g d s
  | .bound g d a => Sys2Proof.Machine.execBound g d a s
  | .ebnd g d a => Sys2Proof.Machine.execEbnd g d a s
  | .mwait g n => Sys2Proof.Machine.execMwait g n s
  | .mzero g n => Sys2Proof.Machine.execMzero g n s
  | .mrd g d a b => Sys2Proof.Machine.execMrd g d a b s
  | .mstoS g n a => Sys2Proof.Machine.execMstoS g n a s
  | .mstoBf g n a => Sys2Proof.Machine.execMstoBf g n a s
  | .gang g a => Sys2Proof.Machine.execGang g a s
  | .mstat g d => Sys2Proof.Machine.execMstat g d s
  | .send g d a b => Sys2Proof.Machine.execSend g d a b s
  | .send2 g d a b => Sys2Proof.Machine.execSend2 g d a b s
  | .send4 g d a b => Sys2Proof.Machine.execSend4 g d a b s
  | .sendv g d a b => Sys2Proof.Machine.execSendv g d a b s
  | .sendb g d a b => Sys2Proof.Machine.execSendb g d a b s
  | .mcast g d a b => Sys2Proof.Machine.execMcast g d a b s
  | .sendh g d a => Sys2Proof.Machine.execSendh g d a s
  | .bindS g d a b => Sys2Proof.Machine.execBindS g d a b s
  | .unbind g a => Sys2Proof.Machine.execUnbind g a s
  | .arm g a b => Sys2Proof.Machine.execArm g a b s
  | .hold g a b => Sys2Proof.Machine.execHold g a b s
  | .rlse g a b => Sys2Proof.Machine.execRlse g a b s
  | .startL g d a => Sys2Proof.Machine.execStartL g d a s
  | .genrd g d a => Sys2Proof.Machine.execGenrd g d a s
  | .capq g d a b => Sys2Proof.Machine.execCapq g d a b s
  | .ticket g d => Sys2Proof.Machine.execTicket g d s
  | .poolcfg g d a => Sys2Proof.Machine.execPoolcfg g d a s
  | .cntdn g a => Sys2Proof.Machine.execCntdn g a s
  | .cancel g a => Sys2Proof.Machine.execCancel g a s
  | .cntrd g d a => Sys2Proof.Machine.execCntrd g d a s
  | .ecw g a b => Sys2Proof.Machine.execEcw g a b s
  | .ecr g d a => Sys2Proof.Machine.execEcr g d a s
  | .ecpulse g => Sys2Proof.Machine.execEcpulse g s
  | .eccnt g d a => Sys2Proof.Machine.execEccnt g d a s
  | .pcfg g a b => Sys2Proof.Machine.execPcfg g a b s
  | .prd g d a => Sys2Proof.Machine.execPrd g d a s
  | .prst g a => Sys2Proof.Machine.execPrst g a s
  | .tlbi g a b => Sys2Proof.Machine.execTlbi g a b s
  | .ldb g d a off => Sys2Proof.Machine.execLdb g d a off s
  | .ldh g d a off => Sys2Proof.Machine.execLdh g d a off s
  | .ldw g d a off => Sys2Proof.Machine.execLdw g d a off s
  | .ldd g d a off => Sys2Proof.Machine.execLdd g d a off s
  | .ldbu g d a off => Sys2Proof.Machine.execLdbu g d a off s
  | .ldhu g d a off => Sys2Proof.Machine.execLdhu g d a off s
  | .ldwu g d a off => Sys2Proof.Machine.execLdwu g d a off s
  | .stb g d a off => Sys2Proof.Machine.execStb g d a off s
  | .sth g d a off => Sys2Proof.Machine.execSth g d a off s
  | .stw g d a off => Sys2Proof.Machine.execStw g d a off s
  | .std g d a off => Sys2Proof.Machine.execStd g d a off s
  | .ldxb g d a b => Sys2Proof.Machine.execLdxb g d a b s
  | .ldxh g d a b => Sys2Proof.Machine.execLdxh g d a b s
  | .ldxw g d a b => Sys2Proof.Machine.execLdxw g d a b s
  | .ldxd g d a b => Sys2Proof.Machine.execLdxd g d a b s
  | .ldxbu g d a b => Sys2Proof.Machine.execLdxbu g d a b s
  | .ldxhu g d a b => Sys2Proof.Machine.execLdxhu g d a b s
  | .ldxwu g d a b => Sys2Proof.Machine.execLdxwu g d a b s
  | .stxb g d a b => Sys2Proof.Machine.execStxb g d a b s
  | .stxh g d a b => Sys2Proof.Machine.execStxh g d a b s
  | .stxw g d a b => Sys2Proof.Machine.execStxw g d a b s
  | .stxd g d a b => Sys2Proof.Machine.execStxd g d a b s
  | .ldf g d a off => Sys2Proof.Machine.execLdf g d a off s
  | .ldk g d a off => Sys2Proof.Machine.execLdk g d a off s
  | .ste g d a off => Sys2Proof.Machine.execSte g d a off s
  | .stf g d a off => Sys2Proof.Machine.execStf g d a off s
  | .sete g a off => Sys2Proof.Machine.execSete g a off s
  | .setf g a off => Sys2Proof.Machine.execSetf g a off s
  | .tfe g d a off => Sys2Proof.Machine.execTfe g d a off s
  | .ldgB g d a pol off => Sys2Proof.Machine.execLdgB g d a pol off s
  | .ldgH g d a pol off => Sys2Proof.Machine.execLdgH g d a pol off s
  | .ldgW g d a pol off => Sys2Proof.Machine.execLdgW g d a pol off s
  | .ldgD g d a pol off => Sys2Proof.Machine.execLdgD g d a pol off s
  | .ldgBu g d a pol off => Sys2Proof.Machine.execLdgBu g d a pol off s
  | .ldgHu g d a pol off => Sys2Proof.Machine.execLdgHu g d a pol off s
  | .ldgWu g d a pol off => Sys2Proof.Machine.execLdgWu g d a pol off s
  | .stgB g d a pol off => Sys2Proof.Machine.execStgB g d a pol off s
  | .stgH g d a pol off => Sys2Proof.Machine.execStgH g d a pol off s
  | .stgW g d a pol off => Sys2Proof.Machine.execStgW g d a pol off s
  | .stgD g d a pol off => Sys2Proof.Machine.execStgD g d a pol off s
  | .ldcW g d a off => Sys2Proof.Machine.execLdcW g d a off s
  | .ldcD g d a off => Sys2Proof.Machine.execLdcD g d a off s
  | .ldcWu g d a off => Sys2Proof.Machine.execLdcWu g d a off s
  | .cinvC g => Sys2Proof.Machine.execCinvC g s
  | .cfl g a off => Sys2Proof.Machine.execCfl g a off s
  | .cinvl g a off => Sys2Proof.Machine.execCinvl g a off s
  | .cpf g a off => Sys2Proof.Machine.execCpf g a off s
  | .aadd g d a b => Sys2Proof.Machine.execAadd g d a b s
  | .aand g d a b => Sys2Proof.Machine.execAand g d a b s
  | .aor g d a b => Sys2Proof.Machine.execAor g d a b s
  | .axor g d a b => Sys2Proof.Machine.execAxor g d a b s
  | .amin g d a b => Sys2Proof.Machine.execAmin g d a b s
  | .amax g d a b => Sys2Proof.Machine.execAmax g d a b s
  | .aminu g d a b => Sys2Proof.Machine.execAminu g d a b s
  | .aswap g d a b => Sys2Proof.Machine.execAswap g d a b s
  | .acas g d a b => Sys2Proof.Machine.execAcas g d a b s
  | .redadd g a b => Sys2Proof.Machine.execRedadd g a b s
  | .redand g a b => Sys2Proof.Machine.execRedand g a b s
  | .redor g a b => Sys2Proof.Machine.execRedor g a b s
  | .redxor g a b => Sys2Proof.Machine.execRedxor g a b s
  | .redmin g a b => Sys2Proof.Machine.execRedmin g a b s
  | .redmax g a b => Sys2Proof.Machine.execRedmax g a b s
  | .fenceAcq g scope => Sys2Proof.Machine.execFenceAcq g scope s
  | .fenceRel g scope => Sys2Proof.Machine.execFenceRel g scope s
  | .fenceFull g scope => Sys2Proof.Machine.execFenceFull g scope s
  | .ldaD g d a scope => Sys2Proof.Machine.execLdaD g d a scope s
  | .stlD g d a scope => Sys2Proof.Machine.execStlD g d a scope s
  | .ldaW g d a scope => Sys2Proof.Machine.execLdaW g d a scope s
  | .stlW g d a scope => Sys2Proof.Machine.execStlW g d a scope s
  | .ldv g d a b => Sys2Proof.Machine.execLdv g d a b s
  | .ldvn g d a b => Sys2Proof.Machine.execLdvn g d a b s
  | .stv g d a b => Sys2Proof.Machine.execStv g d a b s
  | .recl g a b => Sys2Proof.Machine.execRecl g a b s
  | .hand g a b => Sys2Proof.Machine.execHand g a b s
  | .opush g d a b => Sys2Proof.Machine.execOpush g d a b s
  | .opop g d a => Sys2Proof.Machine.execOpop g d a s
  | .ocnt g d a => Sys2Proof.Machine.execOcnt g d a s
  | .vaddW g d a b => Sys2Proof.Machine.execVaddW g d a b s
  | .vsubW g d a b => Sys2Proof.Machine.execVsubW g d a b s
  | .vmulW g d a b => Sys2Proof.Machine.execVmulW g d a b s
  | .vmulhW g d a b => Sys2Proof.Machine.execVmulhW g d a b s
  | .vminW g d a b => Sys2Proof.Machine.execVminW g d a b s
  | .vmaxW g d a b => Sys2Proof.Machine.execVmaxW g d a b s
  | .vminuW g d a b => Sys2Proof.Machine.execVminuW g d a b s
  | .vmaxuW g d a b => Sys2Proof.Machine.execVmaxuW g d a b s
  | .vaddH g d a b => Sys2Proof.Machine.execVaddH g d a b s
  | .vsubH g d a b => Sys2Proof.Machine.execVsubH g d a b s
  | .vmulH g d a b => Sys2Proof.Machine.execVmulH g d a b s
  | .vmulhH g d a b => Sys2Proof.Machine.execVmulhH g d a b s
  | .vminH g d a b => Sys2Proof.Machine.execVminH g d a b s
  | .vmaxH g d a b => Sys2Proof.Machine.execVmaxH g d a b s
  | .vminuH g d a b => Sys2Proof.Machine.execVminuH g d a b s
  | .vmaxuH g d a b => Sys2Proof.Machine.execVmaxuH g d a b s
  | .vaddB g d a b => Sys2Proof.Machine.execVaddB g d a b s
  | .vsubB g d a b => Sys2Proof.Machine.execVsubB g d a b s
  | .vaddsB g d a b => Sys2Proof.Machine.execVaddsB g d a b s
  | .vsubsB g d a b => Sys2Proof.Machine.execVsubsB g d a b s
  | .vminB g d a b => Sys2Proof.Machine.execVminB g d a b s
  | .vmaxB g d a b => Sys2Proof.Machine.execVmaxB g d a b s
  | .vminuB g d a b => Sys2Proof.Machine.execVminuB g d a b s
  | .vmaxuB g d a b => Sys2Proof.Machine.execVmaxuB g d a b s
  | .vand g d a b => Sys2Proof.Machine.execVand g d a b s
  | .vor g d a b => Sys2Proof.Machine.execVor g d a b s
  | .vxor g d a b => Sys2Proof.Machine.execVxor g d a b s
  | .vandn g d a b => Sys2Proof.Machine.execVandn g d a b s
  | .vshlW g d a b => Sys2Proof.Machine.execVshlW g d a b s
  | .vshrW g d a b => Sys2Proof.Machine.execVshrW g d a b s
  | .vsraW g d a b => Sys2Proof.Machine.execVsraW g d a b s
  | .vnot g d a => Sys2Proof.Machine.execVnot g d a s
  | .vfaddS g d a b => Sys2Proof.Machine.execVfaddS g d a b s
  | .vfsubS g d a b => Sys2Proof.Machine.execVfsubS g d a b s
  | .vfmulS g d a b => Sys2Proof.Machine.execVfmulS g d a b s
  | .vfmaS g d a b => Sys2Proof.Machine.execVfmaS g d a b s
  | .vfminS g d a b => Sys2Proof.Machine.execVfminS g d a b s
  | .vfmaxS g d a b => Sys2Proof.Machine.execVfmaxS g d a b s
  | .vfabsS g d a => Sys2Proof.Machine.execVfabsS g d a s
  | .vfnegS g d a => Sys2Proof.Machine.execVfnegS g d a s
  | .vfaddBf g d a b => Sys2Proof.Machine.execVfaddBf g d a b s
  | .vfsubBf g d a b => Sys2Proof.Machine.execVfsubBf g d a b s
  | .vfmulBf g d a b => Sys2Proof.Machine.execVfmulBf g d a b s
  | .vfmaBf g d a b => Sys2Proof.Machine.execVfmaBf g d a b s
  | .vfminBf g d a b => Sys2Proof.Machine.execVfminBf g d a b s
  | .vfmaxBf g d a b => Sys2Proof.Machine.execVfmaxBf g d a b s
  | .vfdotBf g d a b => Sys2Proof.Machine.execVfdotBf g d a b s
  | .vrcpS g d a => Sys2Proof.Machine.execVrcpS g d a s
  | .vrsqS g d a => Sys2Proof.Machine.execVrsqS g d a s
  | .vexp2S g d a => Sys2Proof.Machine.execVexp2S g d a s
  | .vlog2S g d a => Sys2Proof.Machine.execVlog2S g d a s
  | .vsqrtS g d a => Sys2Proof.Machine.execVsqrtS g d a s
  | .vdivS g d a b => Sys2Proof.Machine.execVdivS g d a b s
  | .vfloorS g d a => Sys2Proof.Machine.execVfloorS g d a s
  | .vtanhS g d a => Sys2Proof.Machine.execVtanhS g d a s
  | .vcmp g p a b cc => Sys2Proof.Machine.execVcmp g p a b cc s
  | .vcmpF g p a b cc => Sys2Proof.Machine.execVcmpF g p a b cc s
  | .vbcast g d a => Sys2Proof.Machine.execVbcast g d a s
  | .vbcastf g d a => Sys2Proof.Machine.execVbcastf g d a s
  | .vext g d a b => Sys2Proof.Machine.execVext g d a b s
  | .vins g d a b => Sys2Proof.Machine.execVins g d a b s
  | .vperm g d a b => Sys2Proof.Machine.execVperm g d a b s
  | .viota g d => Sys2Proof.Machine.execViota g d s
  | .vmov g d a => Sys2Proof.Machine.execVmov g d a s
  | .vslide g d a b => Sys2Proof.Machine.execVslide g d a b s
  | .vld g d a off => Sys2Proof.Machine.execVld g d a off s
  | .vst g d a off => Sys2Proof.Machine.execVst g d a off s
  | .vldf g d a off => Sys2Proof.Machine.execVldf g d a off s
  | .vste g d a off => Sys2Proof.Machine.execVste g d a off s
  | .vlds g d a b => Sys2Proof.Machine.execVlds g d a b s
  | .vsts g d a b => Sys2Proof.Machine.execVsts g d a b s
  | .vgath g d a b => Sys2Proof.Machine.execVgath g d a b s
  | .vscat g d a b => Sys2Proof.Machine.execVscat g d a b s
  | .vstf g d a => Sys2Proof.Machine.execVstf g d a s
  | .vrsumS g d a => Sys2Proof.Machine.execVrsumS g d a s
  | .vrmaxS g d a => Sys2Proof.Machine.execVrmaxS g d a s
  | .vrminS g d a => Sys2Proof.Machine.execVrminS g d a s
  | .vrsumW g d a => Sys2Proof.Machine.execVrsumW g d a s
  | .vscanS g d a => Sys2Proof.Machine.execVscanS g d a s
  | .vcavS g d a => Sys2Proof.Machine.execVcavS g d a s
  | .vcavmS g d a => Sys2Proof.Machine.execVcavmS g d a s
  | .vdot4B g d a b => Sys2Proof.Machine.execVdot4B g d a b s
  | .vcvtSBf g d a => Sys2Proof.Machine.execVcvtSBf g d a s
  | .vcvtBfS g d a => Sys2Proof.Machine.execVcvtBfS g d a s
  | .vcvtSW g d a => Sys2Proof.Machine.execVcvtSW g d a s
  | .vcvtWS g d a => Sys2Proof.Machine.execVcvtWS g d a s
  | .vcvtE4S g d a b => Sys2Proof.Machine.execVcvtE4S g d a b s
  | .vcvtSE4 g d a b => Sys2Proof.Machine.execVcvtSE4 g d a b s
  | .vcvtE5S g d a b => Sys2Proof.Machine.execVcvtE5S g d a b s
  | .vcvtSE5 g d a b => Sys2Proof.Machine.execVcvtSE5 g d a b s
  | .xqW g d a => Sys2Proof.Machine.execXqW g d a s
  | .xqT g d a => Sys2Proof.Machine.execXqT g d a s
  | .xdone g d a => Sys2Proof.Machine.execXdone g d a s
  | .xwait g a b => Sys2Proof.Machine.execXwait g a b s
  | .xstat g d a b => Sys2Proof.Machine.execXstat g d a b s
  | .xclr g a => Sys2Proof.Machine.execXclr g a s
  | .xenc g d a b => Sys2Proof.Machine.execXenc g d a b s
  | .xdec g d a => Sys2Proof.Machine.execXdec g d a s
  | .movC d a => Sys2Proof.Machine.execMovC d a s
  | .addC d a => Sys2Proof.Machine.execAddC d a s
  | .subC d a => Sys2Proof.Machine.execSubC d a s
  | .andC d a => Sys2Proof.Machine.execAndC d a s
  | .orC d a => Sys2Proof.Machine.execOrC d a s
  | .xorC d a => Sys2Proof.Machine.execXorC d a s
  | .lddC d a => Sys2Proof.Machine.execLddC d a s
  | .stdC d a => Sys2Proof.Machine.execStdC d a s
  | .addiC d imm => Sys2Proof.Machine.execAddiC d imm s
  | .ldiC d imm => Sys2Proof.Machine.execLdiC d imm s
  | .shliC d imm => Sys2Proof.Machine.execShliC d imm s
  | .shriC d imm => Sys2Proof.Machine.execShriC d imm s
  | .sraiC d imm => Sys2Proof.Machine.execSraiC d imm s
  | .andiC d imm => Sys2Proof.Machine.execAndiC d imm s
  | .ldsC d imm => Sys2Proof.Machine.execLdsC d imm s
  | .stsC d imm => Sys2Proof.Machine.execStsC d imm s
  | .go n => Sys2Proof.Machine.execGo n s
  | .goGuarded n sense p => Sys2Proof.Machine.execGoGuarded n sense p s
  | .call n => Sys2Proof.Machine.execCall n s
  | .callGuarded n sense p => Sys2Proof.Machine.execCallGuarded n sense p s
  | .nopC => Sys2Proof.Machine.execNopC s
  | .endC => Sys2Proof.Machine.execEndC s
  | .beatC => Sys2Proof.Machine.execBeatC s
  | .syncC => Sys2Proof.Machine.execSyncC s
  | .brkC => Sys2Proof.Machine.execBrkC s

end Sys2Proof.Machine
end

