-- ==== Sys2Proof/Machine/Step.lean ====
section
/-! DEFINITION. One step of the module (log 5): the next turn of the agenda; when it is empty, an instruction of a core
that can issue, or else what can come about by itself. -/

noncomputable section

namespace Sys2Proof.Machine

/-- A context issues: fetch, decode (R207), execute. A fault of the fetch or of the decoding is taken precisely. -/
def State.issueAt (s : State) (c : CoreId) (h : CtxId) : Out :=
  match (s.select c h).fetchInstr c h with
  | (.error t, s1) => .next (s1.trapHere t)
  | (.ok bytes, s1) =>
    match decode bytes with
    | .error e => .next (s1.trapHere (decodeTrap e))
    | .ok (i, _) => exec i (s1.fillQueue c h)

/-- A core issues from the next ready context, if it has one, is not stopped (R12, R318, R371), and the fetch does not wait
(R214). -/
def State.issue (s : State) (c : CoreId) : Out :=
  if s.canIssue c then
    match (s.core c).pick with
    | none => .next s
    | some h => s.issueAt c h
  else .next s

/-- A waiting context that is served runs its instruction again (R60, R286). -/
def State.serveWaiter (s : State) (c : CoreId) (h : CtxId) : Out :=
  match s.takeService c h with
  | some s1 => s1.issueAt c h
  | none => .next s

/-- An uncorrectable error strikes a scratchpad word (R367). -/
def State.loseWord (s : State) (c : CoreId) (word : Nat) : State :=
  if word < 0x8000 then s.modCore c fun k => { k with spadLost := insertNat k.spadLost word } else s

/-- What goes on while the module is held in reset or shut down (R388, R389): its service processor, and memory outside it. -/
def Who.whileHeld : Who → Bool
  | .happening (.firmwareBootVerify _ _ _) => true
  | .happening (.pldmFirmwareUpdate _ _) => true
  | .happening .pldmMonitor => true
  | .happening (.spdmAttestation _) => true
  | .happening (.powerCapSet _) => true
  | .outsideWrite _ _ => true
  | _ => false

/-- What an entry of the agenda lets happen in a module that runs. -/
def State.act (s : State) : Who → Out
  | .core c => s.issue c
  | .waiter c h => s.serveWaiter c h
  | .happening i => if i.isHappening then exec i s else .next s
  | .copyElement c ch k => .next ((s.copyElement c ch k).getD s)
  | .engineWrite c k => .next ((s.engineWrite c k).getD s)
  | .homeRoutine landing => .next ((s.serveNotice landing).getD s)
  | .hostRead off => .next (s.hostGets (s.bar0Read off))
  | .slotWrite slot word v => s.slotWrite slot word v
  | .slotRead slot word => .next (s.hostGets (slotWord (s.winSlot slot) word))
  | .upset pa part => .next (if populated pa ∧ part < 8 then s.lose pa part else s)
  | .upsetSpad c word => .next (s.loseWord c word)
  | .linkReplay port k => .next (s.linkReplay port k)
  | .outsideWrite pa bytes => .next (s.outside pa bytes)

/-- What a turn of the agenda lets happen. -/
def State.turn (s : State) (w : Who) : Out := if s.dead && !w.whileHeld then .next s else s.act w

/-- What happens when the agenda is empty. -/
def State.idle (s : State) : Out :=
  match s.issuer with
  | some c => s.issue c
  | none => .next (if s.dead then s else s.auto.getD s)

/-- What comes about at once follows the step's own turn. -/
def settled : Out → Out
  | .next s => .next s.settle
  | o => o

/-- `n` core cycles pass: with the first, what the last one has set up takes effect (R312); a freeze or a resume whose instant they
reach comes about (R374). -/
def State.onTime (s : State) (n : Nat) : State := (s.passCycles n).instants

/-- One step. -/
def step (s : State) : Host.Outcome State Fault Refusal :=
  settled (match s.agenda with
    | [] => (s.onTime 1).idle
    | t :: rest => ({ s with agenda := rest }.onTime t.cycles).turn t.who)

/-! ## Placing one instruction (log 17) -/

/-- The page tables that map VA 0x5_0000 to PA 0x5_0000 with every permission: root 0x1_0000, then 0x2_0000, 0x3_0000,
0x4_0000, and the leaf in entry 5 (R76, R77). -/
def placeTables (m : Memory) : Memory :=
  ((((m.writeNat 0x10000 8 0x20001).writeNat 0x20000 8 0x30001).writeNat 0x30000 8 0x40001).writeNat 0x40028 8 0x5000F)

/-- The state with one instruction where context 0 of the core named by `cur` fetches next: the page tables and the
bytes in memory, the context alone live at VA 0x5_0000, no TLB entry, no cached code, nothing else to happen first. -/
def State.withFetchWord (s : State) (nbits w : Nat) : State :=
  let k := s.core s.cur
  let x := k.ctx 0
  { s with
    agenda := []
    mem := (placeTables s.mem).write 0x50000 ((tableBytes nbits w ++ [0, 0]).take 4)
    ptroot := vput s.ptroot (dieIx s.cur.val) 1
    lost := [], shutdown := false, inReset := false, pestat := 0
    ltlb := s.ltlb.put (landingOf s.cur.val) [] }.setCore s.cur
    { k with
      halted := false, tlb := [], code := [], rr := 0
      ctxs := Vector.ofFn fun h => if h = 0 then { x with live := true, stop := .no, pc := 0x50000, fq := [] }
                                   else { k.ctxs.get h with live := false } }

end Sys2Proof.Machine

end
end

