-- ==== Sys2Proof/Safety.lean ====
section
/-! DEFINITION. What counts as a well-formed state and a safe run, and the terms in which the statements speak of what an
instruction leaves unchanged. -/

namespace Sys2Proof.Machine

/-- A core's scratchpad is in the canonical form of `Memory.wf`, and the numbers of its full words rise. -/
def Core.spadOk (k : Core) : Prop := k.spad.wf = true ∧ k.full.Pairwise (· < ·)

/-- Main memory, the memory a cut keeps, and every scratchpad, of a core or of a saved image, are in the canonical form of
`Memory.wf`; the numbers of full words and the lines of the directory rise. -/
def State.memOk (s : State) : Prop :=
  s.mem.wf = true ∧ (s.dir.map Prod.fst).Pairwise (· < ·) ∧ (∀ q, s.cut = some q → q.mem.wf = true) ∧
    (∀ e ∈ s.cores, e.2.spadOk) ∧ ∀ v ∈ s.saved, ∀ e ∈ v.2.cores, e.2.spadOk

/-- A step of the machine goes on. -/
def goesOn (s : State) : Prop := ∃ t, step s = .next t

/-! ## Readiness -/

/-- No reply is outstanding on any of the general registers named (R253). -/
def State.xReady (s : State) (rs : List Reg) : Prop := ∀ r ∈ rs, s.regFree r = true

/-- No request of the issuing context has met a fault that an instruction would take (R253). -/
def State.noDeferred (s : State) : Prop := ∀ q ∈ s.cx.reqs, q.fault = none

/-- No request of the issuing context is outstanding, and the accesses that the context comes after are performed (R108). -/
def State.quiet (s : State) : Prop := s.cx.reqs = [] ∧ ∀ b ∈ s.cx.behind, s.me.behindDone b = true

/-- Every access of the issuing context that stands before its newest FENCE.REL is performed (R98). -/
def State.released (s : State) : Prop := ∀ q ∈ s.cx.reqs, s.cx.epoch ≤ q.epoch ∨ q.performed 6 = true

/-- No word that `n` bytes of the issuing core's scratchpad meet is lost to an uncorrectable error (R367). -/
def State.sound (s : State) (a n : Nat) : Prop := ∀ w, a < 8 * w + 8 → 8 * w < a + n → w ∉ s.me.spadLost

/-- A context of the issuing core is known to come after at least what `m` says of each doubleword (R95 to R99). -/
def Ctx.knows (x : Ctx) (m : KMap Nat) : Prop := ∀ a, m.get 0 a ≤ x.seen.get 0 a

/-- No request of the issuing context is an acquire that still waits for its value (R261, R262), and the accesses that the
context comes after are performed (R108). -/
def State.ungated (s : State) : Prop := (∀ q ∈ s.cx.reqs, q.gate = false) ∧ ∀ b ∈ s.cx.behind, s.me.behindDone b = true

/-- A split-phase instruction has a place: no acquire waits, and fewer than sixteen replies are outstanding (R253). -/
def State.hasPlace (s : State) : Prop := s.ungated ∧ (s.cx.reqs.filter Req.awaited).length < 16

/-- `n` bytes at an address lie in the scratchpad and are aligned (R252). -/
def inSpad (ea : DWord) (n : Nat) : Prop := ea.toNat + n ≤ 0x40000 ∧ ea.toNat % n = 0

/-- A global address passes the checks of R252 for an access of the issuing core: the translated address, and the state
after the TLB fill. -/
def State.reaches (s : State) (ea : DWord) (n : Nat) (k : Access) (e : EA) (u : State) : Prop :=
  s.globalCheck s.cur ea n k = (.ok e, u)

/-! ## Results -/

/-- The trap context is free and is not the one that issues. -/
def State.trapFree (s : State) : Prop := s.curCtx ≠ 13 ∧ (s.me.ctx 13).live = false

/-- The issuing context has taken a precise trap (R360): its record is loaded, context 13 is live at TVEC with the number of
the faulted context in x1 and its x28 and x29, the faulted context is stopped and otherwise as it was. -/
def State.trapsTo (s t : State) (cause : Byte) (faddr finfo : DWord) : Prop :=
  t.me.trap = { cause := cause, ctx := s.curCtx.val, defd := false, fpc := s.cx.pc, faddr := faddr, finfo := finfo,
                frpc := s.cx.pc, req := none, at_ := s.cycle } ∧
    (t.me.ctx 13).live = true ∧ (t.me.ctx 13).pc = s.me.tvec.setWidth 64 ∧ (t.me.ctx 13).x.get 1 = dw s.curCtx.val ∧
    (t.me.ctx 13).x.get 28 = s.cx.x.get 28 ∧ (t.me.ctx 13).x.get 29 = s.cx.x.get 29 ∧
    (t.me.ctx 13).x.get 31 = s.me.tstk.setWidth 64 ∧ t.cx = { s.cx with stop := .faulted }

/-- The instruction of `len` bytes completes with a value in general register `d` and nothing else. -/
def State.doneX (s : State) (d : Reg) (v : DWord) (len : Nat) : Out := .next ((s.putX d v).retire len)

/-- A 32-bit instruction completes with a value in predicate register `d` and nothing else. -/
def State.doneP (s : State) (d : PReg) (v : Word) : Out := .next ((s.putP d v).retire 4)

/-- A 32-bit instruction completes with an FP64 code in scalar FP register `d` and flags added to FFLAGS. -/
def State.doneF (s : State) (d : Reg) (r : FRes) : Out := .next (((s.putF d (dw r.1)).orFlags r.2).retire 4)

/-- The integer conditions of R224, over the integers the operands stand for. -/
def condHolds {w : Nat} (cc : ICond) (x y : BitVec w) : Bool :=
  match cc with
  | .eq => decide (x.toNat = y.toNat)
  | .ne => decide (x.toNat ≠ y.toNat)
  | .lt => decide (x.toInt < y.toInt)
  | .ge => decide (y.toInt ≤ x.toInt)
  | .ltu => decide (x.toNat < y.toNat)
  | .geu => decide (y.toNat ≤ x.toNat)
  | .tst => (List.range w).any fun i => x.getLsbD i && y.getLsbD i
  | .ntst => (List.range w).all fun i => !(x.getLsbD i && y.getLsbD i)

/-! ## Frames -/

/-- Every byte of memory and of every scratchpad reads as before. -/
def State.sameBytes (s t : State) : Prop :=
  (∀ a, t.mem.get a = s.mem.get a) ∧ ∀ c a, (t.core c).spad.get a = (s.core c).spad.get a

/-- Nothing has changed but the issuing context (and the performance counters of its core). -/
def State.sameButCtx (s t : State) : Prop :=
  t = { s with cores := t.cores } ∧ (∀ c, c ≠ s.cur → t.core c = s.core c) ∧
    t.me = { s.me with ctxs := t.me.ctxs, pcnt := t.me.pcnt } ∧ ∀ h, h ≠ s.curCtx → t.me.ctx h = s.me.ctx h

/-- Of the issuing context, only general register `d`, the PC, the count of retired instructions, the reason it does
not issue and the operands it has latched may have changed. -/
def State.frameX (s t : State) (d : Reg) : Prop :=
  s.sameBytes t ∧ s.sameButCtx t ∧
    t.cx = { s.cx with
      x := t.cx.x, pc := t.cx.pc, retired := t.cx.retired, latch := t.cx.latch, stop := t.cx.stop } ∧
    ∀ r, r ≠ d → t.cx.x.get r = s.cx.x.get r

/-- Only predicate register `d` and FFLAGS, whose flags stay set, may have changed beside PC, count and reason. -/
def State.frameP (s t : State) (d : PReg) : Prop :=
  s.sameBytes t ∧ s.sameButCtx t ∧
    t.cx = { s.cx with
      p := t.cx.p, fflags := t.cx.fflags, pc := t.cx.pc, retired := t.cx.retired, latch := t.cx.latch, stop := t.cx.stop } ∧
    (∀ r, r ≠ d → t.cx.p.get r = s.cx.p.get r) ∧ s.cx.fflags &&& t.cx.fflags = s.cx.fflags

/-- Only scalar FP register `d` and FFLAGS, whose flags stay set, may have changed beside PC, count and reason. -/
def State.frameF (s t : State) (d : Reg) : Prop :=
  s.sameBytes t ∧ s.sameButCtx t ∧
    t.cx = { s.cx with
      f := t.cx.f, fflags := t.cx.fflags, pc := t.cx.pc, retired := t.cx.retired, latch := t.cx.latch, stop := t.cx.stop } ∧
    (∀ r, r ≠ d → t.cx.f.get r = s.cx.f.get r) ∧ s.cx.fflags &&& t.cx.fflags = s.cx.fflags

/-- Nothing but the scratchpad of the issuing core, with what the model notes of its words (log 69), and the PC, the count, the
reason and the latch of the issuing context may have changed. -/
def State.frameSpad (s t : State) : Prop :=
  (∀ a, t.mem.get a = s.mem.get a) ∧ t = { s with cores := t.cores } ∧ (∀ c, c ≠ s.cur → t.core c = s.core c) ∧
    t.me = { s.me with
      ctxs := t.me.ctxs, pcnt := t.me.pcnt, spad := t.me.spad, spadRel := t.me.spadRel, spadLost := t.me.spadLost } ∧
    (∀ h, h ≠ s.curCtx → t.me.ctx h = s.me.ctx h) ∧
    t.cx = { s.cx with
      pc := t.cx.pc, retired := t.cx.retired, latch := t.cx.latch, stop := t.cx.stop }

/-! ## Vectors -/

/-- None of the vector registers named names a stream of the issuing context (R176). -/
def State.noStreams (s : State) (rs : List Reg) : Prop := ∀ r ∈ rs, s.streamNamed r = none

/-- No stream of the issuing core is bound. -/
def State.unbound (s : State) : Prop := ∀ i, (s.me.streams.get i).bound = none

/-- Of the module, only the issuing context has changed, and of it only what `u` says, the PC, the count of retired
instructions and the reason it does not issue; of its core only the counters and IFLAGS. -/
def State.onlyCtx (s t : State) (u : Ctx) : Prop :=
  s.sameBytes t ∧ t = { s with cores := t.cores } ∧ (∀ c, c ≠ s.cur → t.core c = s.core c) ∧
    t.me = { s.me with ctxs := t.me.ctxs, pcnt := t.me.pcnt, iflags := t.me.iflags } ∧
    (∀ h, h ≠ s.curCtx → t.me.ctx h = s.me.ctx h) ∧
    t.cx = { u with
      pc := t.cx.pc, retired := t.cx.retired, latch := t.cx.latch, stop := t.cx.stop }

/-- The instruction completes with lanes 0 to n − 1 of width w of vector register `d` as given where their guard passes,
lane l guarded by predicate lane `pl l`; every other bit of the register and every other register stay; the flags of the
lanes that pass are added to FFLAGS, and IFLAGS.SAT is set if one of them was clamped (R117, R125, R203). -/
def State.lanesTo (s : State) (i : Instr) (g : Guard) (w n : Nat) (pl : Nat → Nat) (d : Reg) (f : Nat → LaneRes w) : Prop :=
  ∃ t, exec i s = .next t ∧ t.cx.pc = s.cx.pc + 4 ∧ s.onlyCtx t { s.cx with v := t.cx.v, fflags := t.cx.fflags } ∧
    (∀ l, l < n → lane w l (t.cx.v.get d) = if s.lanePasses g (pl l) then (f l).1 else lane w l (s.cx.v.get d)) ∧
    (∀ j, w * n ≤ j → (t.cx.v.get d).getLsbD j = (s.cx.v.get d).getLsbD j) ∧
    (∀ r, r ≠ d → t.cx.v.get r = s.cx.v.get r) ∧
    (∀ k, k < 5 → t.cx.fflags.getLsbD k =
      (s.cx.fflags.getLsbD k || (List.range n).any fun l => s.lanePasses g (pl l) && (f l).2.1.getLsbD k)) ∧
    t.me.iflags = if (List.range n).any (fun l => s.lanePasses g (pl l) && (f l).2.2) then s.me.iflags ||| 1
      else s.me.iflags

end Sys2Proof.Machine
end

