-- ==== Sys2Proof/Certificates/Slice0/Obligations.lean ====
section
/-! DEFINITION. The statements for the provers. Every statement is about `Sys2Proof.Machine.exec`, `step` or the decoder;
the terms for results and frames stand in Sys2Proof/Safety.lean. -/

open Sys2Proof Sys2Proof.Machine

/-! ## Integer arithmetic -/

/-- R230 (and R209): ADD to MAX write the result named to xD; nothing waits, PC passes the instruction. R231, R118: MINU to
ROR by xB[5:0], and MOV. Their encodings: MAJ 0x01 and 0x02 by FN, B zero in MOV. -/
def Obligations.IntegerOperationResults : Prop :=
  (∀ (g : Guard) (d a b : Reg) (s : State), s.guardPasses g = true → s.xReady [d, a, b] →
     let x := s.cx.xr a
     let y := s.cx.xr b
     exec (.add g d a b) s = s.doneX d (x + y) 4 ∧
     exec (.sub g d a b) s = s.doneX d (x - y) 4 ∧
     exec (.andR g d a b) s = s.doneX d (x &&& y) 4 ∧
     exec (.orR g d a b) s = s.doneX d (x ||| y) 4 ∧
     exec (.xor g d a b) s = s.doneX d (x ^^^ y) 4 ∧
     exec (.andn g d a b) s = s.doneX d (x &&& ~~~y) 4 ∧
     exec (.minS g d a b) s = s.doneX d (if x.toInt < y.toInt then x else y) 4 ∧
     exec (.maxS g d a b) s = s.doneX d (if y.toInt < x.toInt then x else y) 4) ∧
  (∀ (g : Guard) (d a b : Reg) (s : State), s.guardPasses g = true → s.xReady [d, a, b] →
     let x := s.cx.xr a
     let y := s.cx.xr b
     let n := y.toNat % 64
     exec (.minu g d a b) s = s.doneX d (if x.toNat < y.toNat then x else y) 4 ∧
     exec (.maxu g d a b) s = s.doneX d (if y.toNat < x.toNat then x else y) 4 ∧
     exec (.shl g d a b) s = s.doneX d (x <<< n) 4 ∧
     exec (.shr g d a b) s = s.doneX d (x >>> n) 4 ∧
     exec (.sra g d a b) s = s.doneX d (BitVec.ofInt 64 (x.toInt / 2 ^ n)) 4 ∧
     exec (.rol g d a b) s = s.doneX d ((x <<< n) ||| (x >>> (64 - n))) 4 ∧
     exec (.ror g d a b) s = s.doneX d ((x >>> n) ||| (x <<< (64 - n))) 4 ∧
     exec (.mov g d a) s = s.doneX d x 4) ∧
  (∀ (f : W32) (rest : List Byte), f.g = true ∨ f.x = 0 →
     let g : Guard := if f.g then guardOf f.x else .always
     let dec : Except DecodeError (Instr × Nat) := decode (bytes32 f.toNat ++ rest)
     let ops (l : List (Guard → Reg → Reg → Reg → Instr)) : Prop :=
       dec = .ok ((l.getD f.fn.val .add) g f.d f.a f.b, 4)
     (f.maj = 1 → ops [.add, .sub, .andR, .orR, .xor, .andn, .minS, .maxS]) ∧
     (f.maj = 2 → f.fn ≠ 7 → ops [.minu, .maxu, .shl, .shr, .sra, .rol, .ror]) ∧
     (f.maj = 2 → f.fn = 7 → dec = if f.b = 0 then .ok (.mov g f.d f.a, 4) else .error .reserved))

/-- R232, R118: products and quotients. Division by zero gives all ones and leaves the dividend as remainder; the quotient is
cut towards zero and wraps. R233, R234: bit counts, extensions and LEA. Their encodings: MAJ 0x03 and 0x04 by FN, B zero in
MAJ 0x04, and MAJ 0x05 with C in the place of FN. -/
def Obligations.MultiplyAndCountResults : Prop :=
  (∀ (g : Guard) (d a b : Reg) (s : State), s.guardPasses g = true → s.xReady [d, a, b] →
     let x := s.cx.xr a
     let y := s.cx.xr b
     exec (.mul g d a b) s = s.doneX d (BitVec.ofNat 64 (x.toNat * y.toNat)) 4 ∧
     exec (.mulhiS g d a b) s = s.doneX d (BitVec.ofInt 64 (x.toInt * y.toInt / 2 ^ 64)) 4 ∧
     exec (.mulhiU g d a b) s = s.doneX d (BitVec.ofNat 64 (x.toNat * y.toNat / 2 ^ 64)) 4 ∧
     exec (.mulhiSu g d a b) s = s.doneX d (BitVec.ofInt 64 (x.toInt * (y.toNat : Int) / 2 ^ 64)) 4 ∧
     exec (.div g d a b) s =
       s.doneX d (if y = 0 then BitVec.allOnes 64 else BitVec.ofInt 64 (x.toInt.tdiv y.toInt)) 4 ∧
     exec (.divu g d a b) s = s.doneX d (if y = 0 then BitVec.allOnes 64 else x / y) 4 ∧
     exec (.rem g d a b) s = s.doneX d (if y = 0 then x else BitVec.ofInt 64 (x.toInt.tmod y.toInt)) 4 ∧
     exec (.remu g d a b) s = s.doneX d (if y = 0 then x else x % y) 4) ∧
  (∀ (g : Guard) (d a b : Reg) (c : Fin 8) (s : State), s.guardPasses g = true → s.xReady [d, a, b] →
     let x := s.cx.xr a
     exec (.clz g d a) s = s.doneX d (if x = 0 then 64 else dw (63 - x.toNat.log2)) 4 ∧
     (∃ n, exec (.ctz g d a) s = s.doneX d (dw n) 4 ∧ n ≤ 64 ∧ (∀ i, i < n → x.getLsbD i = false) ∧
       (n < 64 → x.getLsbD n = true)) ∧
     exec (.popc g d a) s = s.doneX d (dw ((List.range 64).filter fun i => x.getLsbD i).length) 4 ∧
     exec (.sextB g d a) s = s.doneX d ((x.setWidth 8).signExtend 64) 4 ∧
     exec (.sextH g d a) s = s.doneX d ((x.setWidth 16).signExtend 64) 4 ∧
     exec (.sextW g d a) s = s.doneX d ((x.setWidth 32).signExtend 64) 4 ∧
     exec (.zextH g d a) s = s.doneX d (dw (x.toNat % 2 ^ 16)) 4 ∧
     exec (.zextW g d a) s = s.doneX d (dw (x.toNat % 2 ^ 32)) 4 ∧
     exec (.lea g d a b c) s = s.doneX d (x + (s.cx.xr b <<< c.val)) 4) ∧
  (∀ (f : W32) (rest : List Byte), f.g = true ∨ f.x = 0 →
     let g : Guard := if f.g then guardOf f.x else .always
     let dec : Except DecodeError (Instr × Nat) := decode (bytes32 f.toNat ++ rest)
     (f.maj = 3 → dec = .ok ((([Instr.mul, .mulhiS, .mulhiU, .mulhiSu, .div, .divu, .rem, .remu] :
       List (Guard → Reg → Reg → Reg → Instr)).getD f.fn.val .mul) g f.d f.a f.b, 4)) ∧
     (f.maj = 4 → dec = if f.b = 0 then .ok ((([Instr.clz, .ctz, .popc, .sextB, .sextH, .sextW, .zextH, .zextW] :
       List (Guard → Reg → Reg → Instr)).getD f.fn.val .clz) g f.d f.a, 4) else .error .reserved) ∧
     (f.maj = 5 → dec = .ok (.lea g f.d f.a f.b f.fn, 4)))

/-- R235, R118: the word operations act on bits [31:0] and sign-extend the 32-bit result. R236 to R239: the immediate forms;
SETH replaces one 16-bit field. R248, R249: the 16-bit forms abbreviate their 32-bit instructions, and PC advances by 2. -/
def Obligations.WordImmediateShortResults : Prop :=
  (∀ (g : Guard) (d a b : Reg) (s : State), s.guardPasses g = true → s.xReady [d, a, b] →
     let x := (s.cx.xr a).setWidth 32
     let y := (s.cx.xr b).setWidth 32
     let n := (s.cx.xr b).toNat % 32
     let done (v : BitVec 32) := s.doneX d (v.signExtend 64) 4
     exec (.addw g d a b) s = done (x + y) ∧
     exec (.subw g d a b) s = done (x - y) ∧
     exec (.mulw g d a b) s = done (x * y) ∧
     exec (.shlw g d a b) s = done (x <<< n) ∧
     exec (.shrw g d a b) s = done (x >>> n) ∧
     exec (.sraw g d a b) s = done (x.sshiftRight n) ∧
     exec (.divw g d a b) s =
       done (if y = 0 then BitVec.allOnes 32 else BitVec.ofInt 32 (x.toInt.tdiv y.toInt)) ∧
     exec (.remw g d a b) s = done (if y = 0 then x else BitVec.ofInt 32 (x.toInt.tmod y.toInt))) ∧
  (∀ (g : Guard) (d a : Reg) (imm : Int) (n : Nat) (v : BitVec 16) (pos : Fin 4) (s : State),
     s.guardPasses g = true → s.xReady [d, a] → n < 64 →
     let x := s.cx.xr a
     let i := BitVec.ofInt 64 imm
     exec (.addi g d a imm) s = s.doneX d (x + i) 4 ∧
     exec (.andi g d a imm) s = s.doneX d (x &&& i) 4 ∧
     exec (.ori g d a imm) s = s.doneX d (x ||| i) 4 ∧
     exec (.xori g d a imm) s = s.doneX d (x ^^^ i) 4 ∧
     exec (.shli g d a n) s = s.doneX d (x <<< n) 4 ∧
     exec (.shri g d a n) s = s.doneX d (x >>> n) 4 ∧
     exec (.srai g d a n) s = s.doneX d (BitVec.ofInt 64 (x.toInt / 2 ^ n)) 4 ∧
     exec (.roli g d a n) s = s.doneX d ((x <<< n) ||| (x >>> (64 - n))) 4 ∧
     exec (.ldi d imm) s = s.doneX d i 4 ∧
     ∃ r : DWord, exec (.seth d v pos) s = s.doneX d r 4 ∧ ∀ j, j < 64 →
       r.getLsbD j = if 16 * pos.val ≤ j ∧ j < 16 * pos.val + 16 then v.getLsbD (j - 16 * pos.val)
         else (s.cx.xr d).getLsbD j) ∧
  (∀ (d a : Reg) (imm : Int) (n : Nat) (s : State), s.xReady [d, a] → n < 64 →
     let x := s.cx.xr d
     let y := s.cx.xr a
     let i := BitVec.ofInt 64 imm
     exec (.movC d a) s = s.doneX d y 2 ∧
     exec (.addC d a) s = s.doneX d (x + y) 2 ∧
     exec (.subC d a) s = s.doneX d (x - y) 2 ∧
     exec (.andC d a) s = s.doneX d (x &&& y) 2 ∧
     exec (.orC d a) s = s.doneX d (x ||| y) 2 ∧
     exec (.xorC d a) s = s.doneX d (x ^^^ y) 2 ∧
     exec (.addiC d imm) s = s.doneX d (x + i) 2 ∧
     exec (.ldiC d imm) s = s.doneX d i 2 ∧
     exec (.shliC d n) s = s.doneX d (x <<< n) 2 ∧
     exec (.shriC d n) s = s.doneX d (x >>> n) 2 ∧
     exec (.sraiC d n) s = s.doneX d (BitVec.ofInt 64 (x.toInt / 2 ^ n)) 2 ∧
     exec (.andiC d imm) s = s.doneX d (x &&& i) 2)

/-- R199, R210: x0 reads 0, and a write to it changes no register of any context; the instruction still passes. Frame of the
instructions whose one destination is a general register (R209, R210: no flag is set): whatever they do while no request has
met a fault, waiting included, they leave every other register, every flag, every special register, every other context and
core, and every byte of memory. -/
def Obligations.GeneralRegisterRules : Prop :=
  (∀ (g : Guard) (a b : Reg) (s : State), s.guardPasses g = true → s.xReady [0, a, b] →
     s.cx.xr 0 = 0 ∧
     ∀ i ∈ [Instr.add g 0 a b, .mul g 0 a b, .clz g 0 a, .addw g 0 a b, .addi g 0 a 1, .ldi 0 1],
       ∃ t, exec i s = .next t ∧ (∀ c h, ((t.core c).ctx h).x = ((s.core c).ctx h).x) ∧
         t.cx.pc = s.cx.pc + 4) ∧
  (∀ (g : Guard) (d a b : Reg) (p : PReg) (c : Fin 8) (imm : Int) (n : Nat) (v : BitVec 16) (pos : Fin 4) (s t : State),
     s.noDeferred →
     ∀ i ∈ [Instr.add g d a b, .sub g d a b, .andR g d a b, .orR g d a b, .xor g d a b, .andn g d a b, .minS g d a b,
         .maxS g d a b, .minu g d a b, .maxu g d a b, .shl g d a b, .shr g d a b, .sra g d a b, .rol g d a b,
         .ror g d a b, .mov g d a, .mul g d a b, .mulhiS g d a b, .mulhiU g d a b, .mulhiSu g d a b, .div g d a b,
         .divu g d a b, .rem g d a b, .remu g d a b, .clz g d a, .ctz g d a, .popc g d a, .sextB g d a, .sextH g d a,
         .sextW g d a, .zextH g d a, .zextW g d a, .lea g d a b c, .addw g d a b, .subw g d a b, .mulw g d a b,
         .shlw g d a b, .shrw g d a b, .sraw g d a b, .divw g d a b, .remw g d a b, .addi g d a imm, .andi g d a imm,
         .ori g d a imm, .xori g d a imm, .shli g d a n, .shri g d a n, .srai g d a n, .roli g d a n, .ldi d imm,
         .seth d v pos, .movC d a, .addC d a, .subC d a, .andC d a, .orC d a, .xorC d a, .addiC d imm, .ldiC d imm,
         .shliC d n, .shriC d n, .sraiC d n, .andiC d imm, .pcnt g d p, .ptox g d p, .pffs g d p, .fmvxf g d a,
         .fkind g d a, .mfb g d c, .horz g d, .tagt g d, .tagm g d, .clk g d, .lastt g d, .lastm g d],
       exec i s = .next t → s.frameX t d)

/-! ## Compares and predicates -/

/-- R224 to R226: CMP and CMPI set lane 0 of pD to the condition and clear the other lanes. R228, R229: predicate logic on
all 32 lanes, and the moves between predicates and general registers. -/
def Obligations.ComparePredicateResults : Prop :=
  (∀ (g : Guard) (d : PReg) (a b : Reg) (imm : Int) (cc : ICond) (s : State), s.guardPasses g = true →
     s.xReady [a, b] →
     exec (.cmp g d a b cc) s = s.doneP d (if condHolds cc (s.cx.xr a) (s.cx.xr b) then 1 else 0) ∧
     exec (.cmpi g d a imm cc) s = s.doneP d (if condHolds cc (s.cx.xr a) (BitVec.ofInt 64 imm) then 1 else 0)) ∧
  (∀ (g : Guard) (d a b : PReg) (r : Reg) (s : State), s.guardPasses g = true → s.xReady [r] →
     let x := s.cx.p.get a
     let y := s.cx.p.get b
     let lanes := (List.range 32).filter fun i => x.getLsbD i
     exec (.pand g d a b) s = s.doneP d (x &&& y) ∧
     exec (.por g d a b) s = s.doneP d (x ||| y) ∧
     exec (.pxor g d a b) s = s.doneP d (x ^^^ y) ∧
     exec (.pandn g d a b) s = s.doneP d (x &&& ~~~y) ∧
     exec (.pnot g d a) s = s.doneP d (~~~x) ∧
     exec (.pmov g d a) s = s.doneP d x ∧
     exec (.pall g d a) s = s.doneP d (if x = BitVec.allOnes 32 then 1 else 0) ∧
     exec (.pnone g d a) s = s.doneP d (if x = 0 then 1 else 0) ∧
     (∃ v : BitVec 32, exec (.pfirst g d a) s = s.doneP d v ∧
       ∀ i, i < 32 → (v.getLsbD i = true ↔ x.getLsbD i = true ∧ ∀ j, j < i → x.getLsbD j = false)) ∧
     exec (.pcnt g r a) s = s.doneX r (dw lanes.length) 4 ∧
     exec (.ptox g r a) s = s.doneX r (dw x.toNat) 4 ∧
     exec (.pffs g r a) s = s.doneX r (dw (lanes.headD 32)) 4 ∧
     exec (.xtop g d r) s = s.doneP d (BitVec.ofNat 32 (s.cx.xr r).toNat))

/-- Frame of the instructions whose one destination is a predicate register: FCMP may set flags of FFLAGS, which stay set
(R125), the others none. Frame of the instructions whose one destination is a scalar FP register, and of FCVT.FX and FCVT.FU,
whose destination is a general register: flags of FFLAGS are only added (R125). -/
def Obligations.PredicateFloatFrames : Prop :=
  (∀ (g : Guard) (d p q : PReg) (a b : Reg) (n : Fin 8) (imm : Int) (cc : ICond) (fc : FCond) (s t : State), s.noDeferred →
     (∀ i ∈ [Instr.cmp g d a b cc, .cmpi g d a imm cc, .fcmp g d a b fc, .pand g d p q, .por g d p q, .pxor g d p q,
         .pandn g d p q, .pnot g d p, .pmov g d p, .pall g d p, .pnone g d p, .pfirst g d p, .xtop g d a, .tstb g d n],
       exec i s = .next t → s.frameP t d) ∧
     (∀ i ∈ [Instr.cmp g d a b cc, .cmpi g d a imm cc, .pand g d p q, .por g d p q, .pxor g d p q, .pandn g d p q,
         .pnot g d p, .pmov g d p, .pall g d p, .pnone g d p, .pfirst g d p, .xtop g d a, .tstb g d n],
       exec i s = .next t → t.cx.fflags = s.cx.fflags)) ∧
  (∀ (g : Guard) (d a b : Reg) (m : FcvtMode) (s t : State), s.noDeferred →
     (∀ i ∈ [Instr.fadd g d a b, .fsub g d a b, .fmul g d a b, .fdiv g d a b, .fmin g d a b, .fmax g d a b, .fsqrt g d a,
         .fsgn g d a b, .fma g d a b, .fms g d a b, .fabs g d a, .fneg g d a, .fmvfx g d a, .fcvtXf g d a m,
         .fcvtUf g d a m], exec i s = .next t → s.frameF t d) ∧
     (∀ i ∈ [Instr.fsgn g d a b, .fabs g d a, .fneg g d a, .fmvfx g d a], exec i s = .next t →
       t.cx.fflags = s.cx.fflags) ∧
     ∀ i ∈ [Instr.fcvtFx g d a m, .fcvtFu g d a m], exec i s = .next t → s.sameBytes t ∧ s.sameButCtx t ∧
       t.cx = { s.cx with x := t.cx.x, fflags := t.cx.fflags, pc := t.cx.pc, retired := t.cx.retired, latch := t.cx.latch,
                          stop := t.cx.stop } ∧
       (∀ r, r ≠ d → t.cx.x.get r = s.cx.x.get r) ∧ s.cx.fflags &&& t.cx.fflags = s.cx.fflags)

/-! ## Scalar FP64 -/

/-- R241, R242, R227: FADD to FMS and FCMP give the value rounded once under FMODE.RM, and set the flags that arose. R241,
R243, R245, R246: the bit operations on FP64 codes, which set no flag, and FKIND. -/
def Obligations.FloatResults : Prop :=
  (∀ (g : Guard) (d a b : Reg) (p : PReg) (cc : FCond) (s : State), s.guardPasses g = true →
     let x := (s.cx.f.get a).toNat
     let y := (s.cx.f.get b).toNat
     let z := (s.cx.f.get d).toNat
     let rm := RM.of s.cx.fmode
     exec (.fadd g d a b) s = s.doneF d (fp64.add rm x y) ∧
     exec (.fsub g d a b) s = s.doneF d (fp64.sub rm x y) ∧
     exec (.fmul g d a b) s = s.doneF d (fp64.mul rm x y) ∧
     exec (.fdiv g d a b) s = s.doneF d (fp64.div rm x y) ∧
     exec (.fmin g d a b) s = s.doneF d (fp64.pick false x y) ∧
     exec (.fmax g d a b) s = s.doneF d (fp64.pick true x y) ∧
     exec (.fsqrt g d a) s = s.doneF d (fp64.sqrt rm x) ∧
     exec (.fma g d a b) s = s.doneF d (fp64.fma rm x y z false) ∧
     exec (.fms g d a b) s = s.doneF d (fp64.fma rm x y z true) ∧
     exec (.fcmp g p a b cc) s =
       .next (((s.putP p (if (fp64.cond cc x y).1 then 1 else 0)).orFlags
         (if (fp64.cond cc x y).2 then 1 else 0)).retire 4)) ∧
  (∀ (g : Guard) (d a b : Reg) (s : State), s.guardPasses g = true → s.xReady [d, a] →
     let x := s.cx.f.get a
     let top := (1 : DWord) <<< 63
     let plain (v : DWord) : Out := .next ((s.putF d v).retire 4)
     exec (.fsgn g d a b) s = plain ((x &&& ~~~top) ||| (s.cx.f.get b &&& top)) ∧
     exec (.fabs g d a) s = plain (x &&& ~~~top) ∧
     exec (.fneg g d a) s = plain (x ^^^ top) ∧
     exec (.fmvfx g d a) s = plain (s.cx.xr a) ∧
     exec (.fmvxf g d a) s = s.doneX d x 4 ∧
     ∃ k, k < 6 ∧ exec (.fkind g d a) s = s.doneX d (dw (k + 8 * (x.toNat / 2 ^ 63))) 4 ∧
       (k = 0 ↔ x.toNat % 2 ^ 63 = 0) ∧
       (k = 1 ↔ x.toNat / 2 ^ 52 % 2048 = 0 ∧ x.toNat % 2 ^ 52 ≠ 0) ∧
       (k = 3 ↔ x.toNat % 2 ^ 63 = 2047 * 2 ^ 52) ∧
       (k = 4 ↔ x.toNat / 2 ^ 52 % 2048 = 2047 ∧ 2 ^ 51 ≤ x.toNat % 2 ^ 52) ∧
       (k = 5 ↔ x.toNat / 2 ^ 52 % 2048 = 2047 ∧ x.toNat % 2 ^ 52 ≠ 0 ∧ x.toNat % 2 ^ 52 < 2 ^ 51))

/-- R244, R127: conversions between FP64 and 64-bit integers, in the mode given or FMODE.RM, saturating. -/
def Obligations.FloatConversionResults : Prop :=
  ∀ (g : Guard) (d a : Reg) (m : FcvtMode) (s : State), s.guardPasses g = true → s.xReady [d, a] →
    let rm := s.modeOf m
    let x := fp64.val (s.cx.f.get a).toNat
    let v := s.cx.xr a
    exec (.fcvtXf g d a m) s = s.doneF d (fp64.code rm (.fin (decide (v.toInt < 0)) v.toInt.natAbs 0)) ∧
    exec (.fcvtUf g d a m) s = s.doneF d (fp64.code rm (.fin false v.toNat 0)) ∧
    exec (.fcvtFx g d a m) s = .next (((s.putX d (BitVec.ofInt 64 (x.toInt rm (-(2 ^ 63)) (2 ^ 63 - 1)).1)).orFlags
      (x.toInt rm (-(2 ^ 63)) (2 ^ 63 - 1)).2).retire 4) ∧
    exec (.fcvtFu g d a m) s = .next (((s.putX d (BitVec.ofInt 64 (x.toInt rm 0 (2 ^ 64 - 1)).1)).orFlags
      (x.toInt rm 0 (2 ^ 64 - 1)).2).retire 4)

/-! ## Transfers of control -/

/-- R215, R216, R219 to R222: the branch-target registers. PREP, PREPX and MTB of an image with V prepare a target and
start its prefetch; CLRB and MTB of an image without V unprepare; MFB and TSTB read. -/
def Obligations.BranchTargetResults : Prop :=
  ∀ (g : Guard) (n : Fin 8) (off : Int) (d : Reg) (p : PReg) (a : Reg) (s : State), s.guardPasses g = true →
    s.xReady [d, a] →
    let b := s.cx.b.get n
    let x := s.cx.xr a
    let prepared (tgt : DWord) (b' : BReg) : Prop := b'.tgt = tgt.setWidth 56 ∧ b'.v = true ∧ b'.ready = false ∧ b'.f = 0 ∧
      b'.busy = true ∧ (b'.nonCanon = true ↔ 2 ^ 56 ≤ tgt.toNat)
    let unprepared (tgt : BitVec 56) (b' : BReg) : Prop := b'.tgt = tgt ∧ b'.v = false ∧ b'.ready = false ∧ b'.f = 0 ∧
      b'.busy = false
    let becomes (i : Instr) (P : BReg → Prop) : Prop := ∃ t, exec i s = .next t ∧ P (t.cx.b.get n) ∧
      (∀ m, m ≠ n → t.cx.b.get m = s.cx.b.get m) ∧ t.cx.pc = s.cx.pc + 4 ∧ t.cx.x = s.cx.x ∧ s.sameBytes t
    becomes (.prep n off) (prepared (s.cx.pc + BitVec.ofInt 64 (2 * off))) ∧
    becomes (.prepx g n a) (prepared x) ∧
    (x.getLsbD 0 = true → becomes (.mtb g n a) (prepared (dw (x.toNat % 2 ^ 56 / 2 * 2)))) ∧
    (x.getLsbD 0 = false → becomes (.mtb g n a) (unprepared (BitVec.ofNat 56 (x.toNat % 2 ^ 56 / 2 * 2)))) ∧
    becomes (.clrb g n) (unprepared b.tgt) ∧
    exec (.mfb g d n) s =
      s.doneX d (dw ((if b.f = 0 then 0 else 2 ^ 63) + b.tgt.toNat / 2 * 2 + (if b.v then 1 else 0))) 4 ∧
    exec (.tstb g p n) s = s.doneP p (BitVec.ofNat 32 ((if b.v then 1 else 0) + (if b.ready then 2 else 0) +
      (if b.f = 0 then 0 else 4)))

/-- R217, R218: GO and CALL through a prepared register whose prefetch is done put its target into PC; the register stays
prepared and ready; CALL links PC + 2 into b0, read after the target. An untaken transfer only passes. R217, R360: a GO or
CALL through a register that is not prepared, also a guarded one that is taken, raises 0x03 with FADDR 0 and FINFO[10:8] = N:
the trap context starts at TVEC, FPC is the GO, and the PC of the context stays. -/
def Obligations.TransferResults : Prop :=
  (∀ (n : Fin 8) (p : PReg) (s : State),
     (s.cx.b.get n).v = true → (s.cx.b.get n).ready = true → (s.cx.b.get n).f = 0 →
     let lane := (s.cx.p.get p).getLsbD 0
     let target := (s.cx.b.get n).tgt.setWidth 64
     (∀ i, i = Instr.go n ∨ i = .goGuarded n (!lane) p → ∃ t, exec i s = .next t ∧ t.cx.pc = target ∧
       (t.cx.b.get n).v = true ∧ (t.cx.b.get n).ready = true ∧ t.cx.x = s.cx.x ∧ s.sameBytes t ∧
       ∀ m, m ≠ n → t.cx.b.get m = s.cx.b.get m) ∧
     (∀ i, i = Instr.call n ∨ i = .callGuarded n (!lane) p → ∃ t, exec i s = .next t ∧ t.cx.pc = target ∧
       (t.cx.b.get 0).tgt = (s.cx.pc + 2).setWidth 56 ∧ (t.cx.b.get 0).v = true ∧ (t.cx.b.get 0).busy = true ∧
       (n ≠ 0 → (t.cx.b.get n).v = true ∧ (t.cx.b.get n).ready = true ∧ (t.cx.b.get n).f = 0 ∧
         (t.cx.b.get n).tgt = (s.cx.b.get n).tgt) ∧
       t.cx.x = s.cx.x ∧ s.sameBytes t ∧ ∀ m, m ≠ n → m ≠ 0 → t.cx.b.get m = s.cx.b.get m) ∧
     ∀ i, i = Instr.goGuarded n lane p ∨ i = .callGuarded n lane p →
       ∃ t, exec i s = .next t ∧ t.cx.pc = s.cx.pc + 2 ∧ t.cx.b = s.cx.b ∧ t.cx.x = s.cx.x ∧ s.sameBytes t) ∧
  (∀ (n : Fin 8) (p : PReg) (s : State), (s.cx.b.get n).v = false → s.curCtx ≠ 13 → (s.me.ctx 13).live = false →
     let lane := (s.cx.p.get p).getLsbD 0
     ∀ i, i = Instr.go n ∨ i = .call n ∨ i = .goGuarded n (!lane) p ∨ i = .callGuarded n (!lane) p → ∃ t, exec i s = .next t ∧
       t.me.trap.cause = 0x03 ∧ t.me.trap.fpc = s.cx.pc ∧ t.me.trap.faddr = 0 ∧ t.me.trap.finfo = dw (256 * n.val) ∧
       t.me.trap.ctx = s.curCtx.val ∧ (t.me.ctx 13).live = true ∧ (t.me.ctx 13).pc = s.me.tvec.setWidth 64 ∧
       t.cx.pc = s.cx.pc ∧ t.cx.stop = .faulted ∧ t.cx.b = s.cx.b)

/-- R223: SYNC.C waits for the context's global stores, atomics and reductions, then empties the code cache of its core
and restarts every prepared register of the core; the context's fetch queue is dropped. -/
def Obligations.SyncCodeResults : Prop :=
  ∀ (g : Guard) (s : State), s.guardPasses g = true → (∀ q ∈ s.cx.reqs, q.writes = false) →
    ∀ i, i = Instr.syncC ∨ i = .syncCL g → ∃ t, exec i s = .next t ∧ t.me.code = [] ∧ t.cx.fq = [] ∧
      (∀ h n, ((t.me.ctx h).b.get n).tgt = ((s.me.ctx h).b.get n).tgt ∧
        (((s.me.ctx h).b.get n).v = true → ((t.me.ctx h).b.get n).ready = false ∧
          ((t.me.ctx h).b.get n).busy = true)) ∧
      t.cx.x = s.cx.x ∧ s.sameBytes t ∧ t.cx.pc = s.cx.pc + (if i = .syncC then 2 else 4)

/-! ## The scratchpad -/

/-- R254, R256, R248, R249: a scratchpad load gives the bytes at its address, extended as its entry says, and leaves all of
memory and the full/empty bits. Where it reads what a store after a FENCE.REL wrote, a later FENCE.ACQ acts on that (R98,
`spadSeen`); elsewhere `spadSeen` changes nothing. R252 for the scratchpad: an address beyond the end is 0x06, checked before
a misaligned one, 0x05; FADDR is the whole address; nothing of the instruction acts. R367, R361: a load of a word lost to an
uncorrectable error is 0x18, FINFO 0. -/
def Obligations.ScratchpadLoadResults : Prop :=
  (∀ (g : Guard) (d a b : Reg) (off : Int) (n : Nat) (s : State), s.guardPasses g = true → s.xReady [d, a, b, 31] →
     s.ungated →
     let at_ (k : Nat) : DWord := s.cx.xr a + BitVec.ofInt 64 (off * k)
     let ix (k : Nat) : DWord := s.cx.xr a + s.cx.xr b * dw k
     let value (k : Nat) (signed : Bool) (ea : DWord) : DWord :=
       let v := BitVec.ofNat (8 * k) (s.me.spad.readNat ea.toNat k)
       if signed then v.signExtend 64 else v.setWidth 64
     let loads (i : Instr) (ea : DWord) (k : Nat) (signed : Bool) (len : Nat) : Prop :=
       inSpad ea k → s.sound ea.toNat k →
         exec i s = .next (((s.putX d (value k signed ea)).spadSeen ea.toNat k).retire len) ∧
         ((∀ w ∈ s.me.spadRel, w.1 < ea.toNat / 8 ∨ (ea.toNat + k - 1) / 8 < w.1) → exec i s = s.doneX d (value k signed ea) len)
     (∀ e ∈ [(Instr.ldb g d a off, 1, true, at_ 1), (.ldh g d a off, 2, true, at_ 2), (.ldw g d a off, 4, true, at_ 4),
         (.ldd g d a off, 8, false, at_ 8), (.ldbu g d a off, 1, false, at_ 1), (.ldhu g d a off, 2, false, at_ 2),
         (.ldwu g d a off, 4, false, at_ 4), (.ldxb g d a b, 1, true, ix 1), (.ldxh g d a b, 2, true, ix 2),
         (.ldxw g d a b, 4, true, ix 4), (.ldxd g d a b, 8, false, ix 8), (.ldxbu g d a b, 1, false, ix 1),
         (.ldxhu g d a b, 2, false, ix 2), (.ldxwu g d a b, 4, false, ix 4)],
       loads e.1 e.2.2.2 e.2.1 e.2.2.1 4) ∧
     loads (.lddC d a) (s.cx.xr a) 8 false 2 ∧ loads (.ldsC d n) (s.cx.xr 31 + dw (8 * n)) 8 false 2) ∧
  (∀ (g : Guard) (d a b : Reg) (off : Int) (n : Nat) (s : State), s.guardPasses g = true → s.xReady [d, a, b, 31] →
     s.ungated → s.released → s.trapFree →
     let at_ (k : Nat) : DWord := s.cx.xr a + BitVec.ofInt 64 (off * k)
     let ix (k : Nat) : DWord := s.cx.xr a + s.cx.xr b * dw k
     let loads := [(Instr.ldb g d a off, 1, at_ 1), (.ldh g d a off, 2, at_ 2), (.ldw g d a off, 4, at_ 4),
       (.ldd g d a off, 8, at_ 8), (.ldbu g d a off, 1, at_ 1), (.ldhu g d a off, 2, at_ 2), (.ldwu g d a off, 4, at_ 4),
       (.ldxb g d a b, 1, ix 1), (.ldxh g d a b, 2, ix 2), (.ldxw g d a b, 4, ix 4), (.ldxd g d a b, 8, ix 8),
       (.ldxbu g d a b, 1, ix 1), (.ldxhu g d a b, 2, ix 2), (.ldxwu g d a b, 4, ix 4), (.lddC d a, 8, s.cx.xr a),
       (.ldsC d n, 8, s.cx.xr 31 + dw (8 * n))]
     let stores := [(Instr.stb g d a off, 1, at_ 1), (.sth g d a off, 2, at_ 2), (.stw g d a off, 4, at_ 4),
       (.std g d a off, 8, at_ 8), (.stxb g d a b, 1, ix 1), (.stxh g d a b, 2, ix 2), (.stxw g d a b, 4, ix 4),
       (.stxd g d a b, 8, ix 8), (.stdC d a, 8, s.cx.xr a), (.stsC d n, 8, s.cx.xr 31 + dw (8 * n))]
     let traps (i : Instr) (cause : Byte) (ea : DWord) : Prop := ∃ t, exec i s = .next t ∧ s.trapsTo t cause ea 0 ∧ s.sameBytes t
     (∀ e ∈ loads ++ stores,
       (0x40000 < e.2.2.toNat + e.2.1 → traps e.1 0x06 e.2.2) ∧
       (e.2.2.toNat + e.2.1 ≤ 0x40000 → e.2.2.toNat % e.2.1 ≠ 0 → traps e.1 0x05 e.2.2)) ∧
     ∀ e ∈ loads, inSpad e.2.2 e.2.1 → e.2.2.toNat / 8 ∈ s.me.spadLost → traps e.1 0x18 e.2.2)

/-- R255, R256, R248, R249, R59: a scratchpad store writes the low bytes of xD at its address and no other byte; no
full/empty bit and no register changes. The premise on the scratchpad is the invariant of
`Obligations.StepKeepsCanonicalMemory`. Frame of the scratchpad stores whatever their operands hold: a store that waits or is
passed by stores nothing; one that faults stores nothing either (R252). -/
def Obligations.ScratchpadStoreResults : Prop :=
  (∀ (g : Guard) (d a b : Reg) (off : Int) (n : Nat) (s : State), s.guardPasses g = true → s.xReady [d, a, b, 31] →
     s.ungated → s.released → s.me.spad.wf = true →
     let at_ (k : Nat) : DWord := s.cx.xr a + BitVec.ofInt 64 (off * k)
     let ix (k : Nat) : DWord := s.cx.xr a + s.cx.xr b * dw k
     ∀ e ∈ [(Instr.stb g d a off, 1, 4, at_ 1), (.sth g d a off, 2, 4, at_ 2), (.stw g d a off, 4, 4, at_ 4),
         (.std g d a off, 8, 4, at_ 8), (.stxb g d a b, 1, 4, ix 1), (.stxh g d a b, 2, 4, ix 2),
         (.stxw g d a b, 4, 4, ix 4), (.stxd g d a b, 8, 4, ix 8), (.stdC d a, 8, 2, s.cx.xr a),
         (.stsC d n, 8, 2, s.cx.xr 31 + dw (8 * n))],
       let ea := e.2.2.2.toNat
       let k := e.2.1
       inSpad e.2.2.2 k → ∃ t, exec e.1 s = .next t ∧ t.cx.pc = s.cx.pc + dw e.2.2.1 ∧
         t.me.spad.readNat ea k = (s.cx.xr d).toNat % 2 ^ (8 * k) ∧
         (∀ i, i < ea ∨ ea + k ≤ i → t.me.spad.get i = s.me.spad.get i) ∧ s.frameSpad t) ∧
  (∀ (g : Guard) (d a b : Reg) (off : Int) (n : Nat) (s t : State),
     let at_ (k : Nat) : DWord := s.cx.xr a + BitVec.ofInt 64 (off * k)
     let ix (k : Nat) : DWord := s.cx.xr a + s.cx.xr b * dw k
     ∀ e ∈ [(Instr.stb g d a off, 1, at_ 1), (.sth g d a off, 2, at_ 2), (.stw g d a off, 4, at_ 4),
         (.std g d a off, 8, at_ 8), (.stxb g d a b, 1, ix 1), (.stxh g d a b, 2, ix 2), (.stxw g d a b, 4, ix 4),
         (.stxd g d a b, 8, ix 8), (.stdC d a, 8, s.cx.xr a), (.stsC d n, 8, s.cx.xr 31 + dw (8 * n))],
       exec e.1 s = .next t →
       (∀ i, t.mem.get i = s.mem.get i) ∧
       (∀ i, i < e.2.2.toNat ∨ e.2.2.toNat + e.2.1 ≤ i → t.me.spad.get i = s.me.spad.get i) ∧
       (∀ c, c ≠ s.cur → t.core c = s.core c) ∧ t.me.full = s.me.full ∧ t.cx.x = s.cx.x ∧ t.cx.f = s.cx.f ∧
       t.cx.v = s.cx.v ∧ t.cx.p = s.cx.p ∧ t.cx.b = s.cx.b ∧ t.cx.fflags = s.cx.fflags ∧
       (¬inSpad e.2.2 e.2.1 → ∀ i, t.me.spad.get i = s.me.spad.get i))

/-- R257, R59, R60: the full/empty operations on an aligned word whose bit is as they wait for it. R60, R286: LDF of an empty
word and STE of a full one wait: the context does not issue and is among the word's waiters; its PC and registers, the bits
and all bytes stay. -/
def Obligations.FullEmptyResults : Prop :=
  (∀ (g : Guard) (d a : Reg) (p : PReg) (off : Int) (s : State), s.guardPasses g = true → s.xReady [d, a] → s.quiet →
     s.unbound → s.me.spad.wf = true → s.me.full.Pairwise (· < ·) →
     let ea : DWord := s.cx.xr a + BitVec.ofInt 64 (off * 8)
     let word := ea.toNat / 8
     let full := word ∈ s.me.full
     inSpad ea 8 →
     let onlyBit (t : State) : Prop := ∀ w, w ≠ word → (w ∈ t.me.full ↔ w ∈ s.me.full)
     let loads (i : Instr) (after : Bool) : Prop := full → word ∉ s.me.spadLost → ∃ t, exec i s = .next t ∧
       t.cx.x = (s.cx.setX d (dw (s.me.spad.readNat ea.toNat 8))).x ∧ (word ∈ t.me.full ↔ after = true) ∧ onlyBit t ∧
       s.sameBytes t ∧ t.cx.pc = s.cx.pc + 4
     let stores (i : Instr) : Prop := ∃ t, exec i s = .next t ∧
       t.me.spad.readNat ea.toNat 8 = (s.cx.xr d).toNat ∧
       (∀ j, j < ea.toNat ∨ ea.toNat + 8 ≤ j → t.me.spad.get j = s.me.spad.get j) ∧ word ∈ t.me.full ∧ onlyBit t ∧
       t.cx.x = s.cx.x ∧ t.cx.pc = s.cx.pc + 4
     let sets (i : Instr) (after : Bool) : Prop := ∃ t, exec i s = .next t ∧ (word ∈ t.me.full ↔ after = true) ∧ onlyBit t ∧
       s.sameBytes t ∧ t.cx.x = s.cx.x ∧ t.cx.pc = s.cx.pc + 4
     loads (.ldf g d a off) false ∧ loads (.ldk g d a off) true ∧
     (¬full → stores (.ste g d a off)) ∧ stores (.stf g d a off) ∧
     sets (.sete g a off) false ∧ sets (.setf g a off) true ∧
     exec (.tfe g p a off) s = s.doneP p (if full then 1 else 0)) ∧
  (∀ (g : Guard) (d a : Reg) (off : Int) (s : State), s.guardPasses g = true → s.xReady [d, a] → s.quiet →
     s.unbound →
     let ea : DWord := s.cx.xr a + BitVec.ofInt 64 (off * 8)
     inSpad ea 8 →
     let waits (i : Instr) : Prop := ∃ t, exec i s = .next t ∧ t.cx = { s.cx with stop := .waiting } ∧
       (∃ w ∈ t.me.feWait, w.ctx = s.curCtx) ∧ t.me.full = s.me.full ∧ s.sameBytes t
     (ea.toNat / 8 ∉ s.me.full → waits (.ldf g d a off) ∧ waits (.ldk g d a off)) ∧
     (ea.toNat / 8 ∈ s.me.full → waits (.ste g d a off)))

/-! ## Global memory -/

/-- R253, R258, R260, R261, R267: a load of global memory whose address passes its checks sends its request and its context
goes on: the request, with the place and size the entry gives, is among those outstanding; no register and no byte changes
until the reply. R259, R262, R268, R269, R47: stores, release stores, versioned stores and watermark writes are posted: the
request with its place and data is among those outstanding, and no byte changes at the issue. A store in a reaction of a
restartable routine, or to a page with V or OBJ, is not this case. -/
def Obligations.GlobalIssueResults : Prop :=
  (∀ (g : Guard) (d a b : Reg) (pol : Policy) (off : Int) (sc : Scope) (e : EA) (s u : State),
     s.guardPasses g = true → s.xReady [d, a, b] → s.hasPlace → s.noDeferred → s.paUnreachable e.pa = false →
     let at_ (k : Nat) : DWord := s.cx.xr a + BitVec.ofInt 64 (off * k)
     let issuesAs (k : Access) (i : Instr) (ea : DWord) (n : Nat) (kind : ReqKind) : Prop :=
       s.reaches ea n k e u → ∃ t q, exec i s = .next t ∧ t.cx.reqs = s.cx.reqs ++ [q] ∧ q.kind = kind ∧
         q.pc = s.cx.pc ∧ q.va = ea ∧ q.pa = e.pa ∧ q.size = n ∧ q.dest = (if d = 0 then none else some d) ∧
         q.reply = none ∧ q.fault = none ∧ t.cx.x = s.cx.x ∧ t.cx.pc = s.cx.pc + 4 ∧ s.sameBytes t
     let issues : Instr → DWord → Nat → ReqKind → Prop := issuesAs .load
     issues (.ldgB g d a pol off) (at_ 1) 1 (.load true) ∧ issues (.ldgH g d a pol off) (at_ 2) 2 (.load true) ∧
     issues (.ldgW g d a pol off) (at_ 4) 4 (.load true) ∧ issues (.ldgD g d a pol off) (at_ 8) 8 (.load false) ∧
     issues (.ldgBu g d a pol off) (at_ 1) 1 (.load false) ∧ issues (.ldgHu g d a pol off) (at_ 2) 2 (.load false) ∧
     issues (.ldgWu g d a pol off) (at_ 4) 4 (.load false) ∧
     (e.isV = false → e.isObj = false → issues (.ldcW g d a off) (at_ 4) 4 (.ldc true) ∧
       issues (.ldcD g d a off) (at_ 8) 8 (.ldc false) ∧ issues (.ldcWu g d a off) (at_ 4) 4 (.ldc false)) ∧
     (e.isV = false → issues (.ldaW g d a sc) (s.cx.xr a) 4 (.lda true) ∧
       issues (.ldaD g d a sc) (s.cx.xr a) 8 (.lda false)) ∧
     (e.isV = true → issuesAs .versioned (.ldv g d a b) (s.cx.xr a) 8 .ldv ∧
       issuesAs .versioned (.ldvn g d a b) (s.cx.xr a) 8 .ldvn)) ∧
  (∀ (g : Guard) (d a b : Reg) (pol : Policy) (off : Int) (sc : Scope) (e : EA) (s u : State),
     s.guardPasses g = true → s.xReady [d, a, b] → s.quiet → s.restartable = false →
     s.paUnreachable e.pa = false → s.unbound →
     let at_ (k : Nat) : DWord := s.cx.xr a + BitVec.ofInt 64 (off * k)
     let base := s.cx.xr a
     let region : DWord := dw ((s.cx.xr a).toNat / 65536 * 65536)
     let issues (i : Instr) (ea : DWord) (align n : Nat) (kind : ReqKind) (data aux : Option DWord) : Prop :=
       s.reaches ea align .store e u → ∃ t q, exec i s = .next t ∧ t.cx.reqs = [q] ∧ q.kind = kind ∧ q.pc = s.cx.pc ∧
         q.va = ea ∧ q.pa = e.pa ∧ q.size = n ∧ q.dest = none ∧ (∀ v, data = some v → q.data = v) ∧
         (∀ v, aux = some v → q.aux = v) ∧ t.cx.x = s.cx.x ∧ t.cx.pc = s.cx.pc + 4 ∧ s.sameBytes t
     (e.isV = false → e.isObj = false →
       issues (.stgB g d a pol off) (at_ 1) 1 1 .store (some (s.cx.xr d)) none) ∧
     (e.isV = false → e.isObj = false →
       issues (.stgH g d a pol off) (at_ 2) 2 2 .store (some (s.cx.xr d)) none) ∧
     (e.isV = false → e.isObj = false →
       issues (.stgW g d a pol off) (at_ 4) 4 4 .store (some (s.cx.xr d)) none) ∧
     (e.isV = false → e.isObj = false →
       issues (.stgD g d a pol off) (at_ 8) 8 8 .store (some (s.cx.xr d)) none) ∧
     (e.isV = false → e.isObj = false → issues (.stlW g d a sc) base 4 4 .store (some (s.cx.xr d)) none ∧
       issues (.stlD g d a sc) base 8 8 .store (some (s.cx.xr d)) none) ∧
     (e.isV = true → s.capHeld s.cur (regionOf base) = true →
       issues (.stv g d a b) base 8 8 .stv (some (s.cx.xr d)) (some (s.cx.xr b))) ∧
     (e.isV = true → s.capHeld s.cur (regionOf region) = true →
       issues (.recl g a b) region 8 8 .recl none (some (s.cx.xr b))))

/-- R263 to R266, R47, R84, R109: atomics and reductions to a page without V and OBJ are issued as one request each, which
names the operation, the operand and for ACAS the expected value; an atomic's old value comes with its reply, a reduction has
no destination. One for another module needs that module in reach and fewer than eight of its core on their way there. One for
the fallback queue needs a page with HA; on another it is 0x17. -/
def Obligations.AtomicIssue : Prop :=
  ∀ (g : Guard) (d a b : Reg) (e : EA) (s u : State), s.guardPasses g = true → s.xReady [d, a, b] → s.hasPlace →
    s.restartable = false → s.me.det = false → s.reaches (s.cx.xr a) 8 .store e u → e.isV = false → e.isObj = false →
    s.paUnreachable e.pa = false → (isRemote e.pa = true → s.remoteAtomics (s.remoteDev e.pa) < 8) →
    let falls (op : Nat) : Bool := s.toFallback s.cur op e.pa && !e.isHa
    let issues (i : Instr) (op : Nat) (dest : Option Reg) : Prop := (falls op = false → ∃ t q, exec i s = .next t ∧
      t.cx.reqs = s.cx.reqs ++ [q] ∧ q.kind = .atomic op ∧ q.va = s.cx.xr a ∧ q.pa = e.pa ∧ q.size = 8 ∧
      q.dest = dest ∧ q.data = s.cx.xr b ∧ (op = 8 → q.aux = s.cx.xr d) ∧ q.reply = none ∧ q.fault = none ∧
      q.sent = !isRemote e.pa ∧ t.cx.x = s.cx.x ∧ t.cx.pc = s.cx.pc + 4 ∧ s.sameBytes t) ∧
      (falls op = true → s.trapFree → ∃ t, exec i s = .next t ∧ s.trapsTo t 0x17 (s.cx.xr a) 0 ∧ s.sameBytes t)
    (∀ k ∈ [(Instr.aadd g d a b, 0), (.aand g d a b, 1), (.aor g d a b, 2), (.axor g d a b, 3), (.amin g d a b, 4),
        (.amax g d a b, 5), (.aminu g d a b, 6), (.aswap g d a b, 7), (.acas g d a b, 8)],
      issues k.1 k.2 (if d = 0 then none else some d)) ∧
    ∀ k ∈ [(Instr.redadd g a b, 9), (.redand g a b, 10), (.redor g a b, 11), (.redxor g a b, 12), (.redmin g a b, 13),
        (.redmax g a b, 14)], issues k.1 k.2 none

/-- R252, R258, R361: the global checks in their order, at an LDG: a nonzero bit of [63:56] is 0x07 (FINFO level 0, reason 0,
kind load), then misalignment 0x05, then the translation and the page's permission. R367: a walk that meets an entry lost to
an uncorrectable error is 0x18, with the part in FINFO. R252, R259 to R261, R267, R268, R84, R361: an access that its page
does not take, after the translation: a store or an LDC of a page with V or OBJ, an LDA of one with V, a versioned access of
one without V, is 0x08; an STV without the capability 0x0C; a store to a module out of reach 0x1D, with the module's
coordinate in FINFO. R47, R287, R109: in a reaction of a restartable routine a store, an atomic and a reduction to global
memory, an OPUSH and an OPOP are 0x08, and so are the instructions that R287 lists; under DET a fetching atomic is 0x1C. -/
def Obligations.GlobalFaultResults : Prop :=
  (∀ (g : Guard) (d a : Reg) (pol : Policy) (off : Int) (s : State), s.guardPasses g = true → s.xReady [d, a] →
     s.hasPlace → s.trapFree →
     let ea : DWord := s.cx.xr a + BitVec.ofInt 64 (off * 8)
     (2 ^ 56 ≤ ea.toNat → ∃ t, exec (.ldgD g d a pol off) s = .next t ∧ s.trapsTo t 0x07 ea 0 ∧ s.sameBytes t) ∧
     (ea.toNat < 2 ^ 56 → ea.toNat % 8 ≠ 0 →
       ∃ t, exec (.ldgD g d a pol off) s = .next t ∧ s.trapsTo t 0x05 ea 0 ∧ s.sameBytes t) ∧
     (ea.toNat < 2 ^ 56 → ea.toNat % 8 = 0 → s.tlbFind s.cur ea.toNat = none →
       ∀ w, s.walk s.cur ea.toNat = .error w → ∃ t, exec (.ldgD g d a pol off) s = .next t ∧ s.sameBytes t ∧
         (w.lost = none → s.trapsTo t 0x07 ea (dw (w.level + 16 * w.reason))) ∧
         ∀ part, w.lost = some part → s.trapsTo t 0x18 ea (dw part)) ∧
     (ea.toNat < 2 ^ 56 → ea.toNat % 8 = 0 → s.tlbFind s.cur ea.toNat = none →
       ∀ f, s.walk s.cur ea.toNat = .ok f → populated (s.pageAddr f ea.toNat) = true → f.leaf.getLsbD 1 = false →
         ∃ t, exec (.ldgD g d a pol off) s = .next t ∧ s.trapsTo t 0x08 ea 0 ∧ s.sameBytes t)) ∧
  (∀ (g : Guard) (d a b : Reg) (pol : Policy) (off : Int) (sc : Scope) (e : EA) (s u : State), s.guardPasses g = true →
     s.xReady [d, a, b] → s.hasPlace → s.noDeferred → s.trapFree → s.restartable = false →
     let va := s.cx.xr a
     let at_ (k : Nat) : DWord := va + BitVec.ofInt 64 (off * k)
     let traps (i : Instr) (cause : Byte) (ea info : DWord) : Prop :=
       ∃ t, exec i s = .next t ∧ s.trapsTo t cause ea info ∧ s.sameBytes t
     let refused := e.isV = true ∨ e.isObj = true
     (∀ p ∈ [(Instr.stgB g d a pol off, 1), (.stgH g d a pol off, 2), (.stgW g d a pol off, 4), (.stgD g d a pol off, 8)],
       s.reaches (at_ p.2) p.2 .store e u → (refused → traps p.1 0x08 (at_ p.2) 256) ∧
         (¬refused → s.paUnreachable e.pa = true → traps p.1 0x1D (at_ p.2) ((s.remoteDev e.pa).setWidth 64))) ∧
     (∀ p ∈ [(Instr.ldcW g d a off, 4), (.ldcD g d a off, 8), (.ldcWu g d a off, 4)],
       s.reaches (at_ p.2) p.2 .load e u → refused → traps p.1 0x08 (at_ p.2) 0) ∧
     (∀ p ∈ [(Instr.ldaW g d a sc, 4), (.ldaD g d a sc, 8)],
       s.reaches va p.2 .load e u → e.isV = true → traps p.1 0x08 va 0) ∧
     (s.reaches va 8 .versioned e u → e.isV = false → traps (.ldv g d a b) 0x08 va 0 ∧ traps (.ldvn g d a b) 0x08 va 0) ∧
     (s.reaches va 8 .store e u →
       (e.isV = false → traps (.stv g d a b) 0x08 va 256) ∧
       (e.isV = true → s.capHeld s.cur (regionOf va) = false → traps (.stv g d a b) 0x0C va 0) ∧
       (e.isV = true → s.capHeld s.cur (regionOf va) = true → s.paUnreachable e.pa = true →
         traps (.stv g d a b) 0x1D va ((s.remoteDev e.pa).setWidth 64)))) ∧
  (∀ (g : Guard) (d a b : Reg) (pol : Policy) (off : Int) (sc : Scope) (s : State), s.guardPasses g = true →
     s.xReady [d, a, b] → s.trapFree →
     let at_ (k : Nat) : DWord := s.cx.xr a + BitVec.ofInt 64 (off * k)
     let traps (i : Instr) (cause : Byte) (ea : DWord) (info : Nat) : Prop :=
       ∃ t, exec i s = .next t ∧ s.trapsTo t cause ea (dw info)
     let atomics := [Instr.aadd g d a b, .aand g d a b, .aor g d a b, .axor g d a b, .amin g d a b, .amax g d a b,
       .aminu g d a b, .aswap g d a b, .acas g d a b]
     (s.restartable = true →
       (∀ e ∈ [(Instr.stgB g d a pol off, 1), (.stgH g d a pol off, 2), (.stgW g d a pol off, 4), (.stgD g d a pol off, 8)],
         traps e.1 0x08 (at_ e.2) 256) ∧
       (∀ i ∈ atomics ++ [.redadd g a b, .redand g a b, .redor g a b, .redxor g a b, .redmin g a b, .redmax g a b,
         .stlW g d a sc, .stlD g d a sc, .opush g d a b, .opop g d a], traps i 0x08 (s.cx.xr a) 256) ∧
       ∀ i ∈ [Instr.mcast g d a b, .sendh g d a, .bindS g d a b, .unbind g a, .arm g a b, .hold g a b, .rlse g a b,
         .startL g d a, .cntdn g a, .cancel g a, .cinj g a b, .cinjHld g a b, .cinjx g a b, .cinjxHld g a b, .cabort g a,
         .ecw g a b, .ecpulse g, .prst g a, .tlbi g a b], traps i 0x08 0 0) ∧
     (s.restartable = false → s.me.det = true → ∀ i ∈ atomics, traps i 0x1C (s.cx.xr a) 0))

/-- R260, R68, R79: the line operations. CINV.C empties the landing's constant cache; CFL and CINVL pass once their address
passes the checks; CPF never faults. None changes a register or a byte. That CFL and CINVL change nothing else is log 7.
R261, R262, R94, R95, R98, R99: a fence completes once what it waits for is performed. FENCE.ACQ makes the context come after
the releases that its earlier loads and atomics have read and that its scope reaches. FENCE.REL of a scope beyond the context
opens a new epoch, whose stores are releases at its scope. FENCE.FULL acquires likewise, comes after every earlier FENCE.FULL
with which it is mutually covering, is one of those that later ones come after, and makes the stores after it releases at its
scope. No fence changes a register or a byte, or takes back what the context knows. The fields in which the model keeps this
order (seen, obs, obsT, epoch, relS, fulls) and what an acquire knows from them are log 6. R270, R75: HAND of a region whose
capability the core holds, in its table or by default, sends it to a core, and it is no longer the core's: to one of the
module it is in flight, to one of another module of the chassis a packet leaves, whether or not the fabric reaches it. To a
module of another chassis it is 0x1D, of a region that the core does not hold 0x0C. -/
def Obligations.OrderingResults : Prop :=
  (∀ (g : Guard) (a : Reg) (off : Int) (s : State), s.guardPasses g = true → s.xReady [a] → s.released → s.ungated →
     let ea : DWord := s.cx.xr a + BitVec.ofInt 64 (off * 128)
     let passes (i : Instr) (P : State → Prop) : Prop := ∃ t, exec i s = .next t ∧ t.cx.x = s.cx.x ∧
       t.cx.pc = s.cx.pc + 4 ∧ s.sameBytes t ∧ P t
     passes (.cinvC g) (fun t => t.constC = s.constC.drop (s.cur.val / 16)) ∧
     (∀ e u, s.reaches ea 1 .load e u → passes (.cfl g a off) (fun _ => True) ∧ passes (.cinvl g a off) (fun _ => True)) ∧
     passes (.cpf g a off) (fun _ => True)) ∧
  (∀ (g : Guard) (sc : Scope) (s : State), s.guardPasses g = true → s.quiet →
     s.unbound →
     let passes (i : Instr) (P : State → Prop) : Prop := ∃ t, exec i s = .next t ∧ t.cx.x = s.cx.x ∧
       t.cx.pc = s.cx.pc + 4 ∧ s.sameBytes t ∧ t.cx.knows s.cx.seen ∧ P t
     let acquired (t : State) : Prop := t.cx.knows (s.knownAt s.cur (scopeCode sc) s.cx.obsT) ∧
       ∀ r ∈ s.cx.obs, r.syncs s.cur (scopeCode sc) = true → t.cx.knows r.seen
     passes (.fenceAcq g sc) acquired ∧
     passes (.fenceRel g sc) (fun t => if sc = .ctx then t.cx.epoch = s.cx.epoch ∧ t.cx.relS = s.cx.relS
       else t.cx.epoch = s.cx.epoch + 1 ∧ t.cx.relS = max s.cx.relS (scopeCode sc)) ∧
     passes (.fenceFull g sc) (fun t => acquired t ∧ (sc ≠ .ctx →
       (∀ r ∈ s.fulls, r.syncs s.cur (scopeCode sc) = true → t.cx.knows r.seen) ∧
       t.fulls = s.fulls ++ [{ core := s.cur, scope := scopeCode sc, seen := t.cx.seen }] ∧
       t.cx.relS = max s.cx.relS (scopeCode sc)))) ∧
  (∀ (g : Guard) (a b : Reg) (s : State), s.guardPasses g = true → s.xReady [a, b] → s.quiet →
     s.unbound →
     let region := regionOf (s.cx.xr a)
     let y := s.cx.xr b
     let entry := s.me.caps.find? fun p => p.1 == region
     (s.capHeld s.cur region = true → s.isLocal y = true ∨ (descDev y).toNat % 2 ^ 14 = s.devCoord.toNat % 2 ^ 14 →
       ∃ t l, exec (.hand g a b) s = .next t ∧ t.cx.pc = s.cx.pc + 4 ∧ s.sameBytes t ∧
       (∀ p, entry = some p → t.me.caps = s.me.caps.filter (fun r => r != p) ∧ l = p.2) ∧
       (entry = none → t.me.caps = s.me.caps ∧ ∃ r, t.launches.find l = some r ∧ region ∈ r.given) ∧
       (s.isLocal y = true → t.capMsgs = s.capMsgs ++ [⟨region, l, s.cur, descCore y, false, s.cx.seen⟩]) ∧
       (s.isLocal y = false → ∃ p, t.outbox = p :: s.outbox ∧
         p.body = .capability region s.cur.val (descCore y).val false)) ∧
     (s.capHeld s.cur region = true → s.isLocal y = false → (descDev y).toNat % 2 ^ 14 ≠ s.devCoord.toNat % 2 ^ 14 →
       s.trapFree → ∃ t, exec (.hand g a b) s = .next t ∧ s.trapsTo t 0x1D (s.cx.xr a) ((descDev y).setWidth 64) ∧
       s.sameBytes t ∧ t.me.caps = s.me.caps) ∧
     (s.capHeld s.cur region = false → s.trapFree → ∃ t, exec (.hand g a b) s = .next t ∧
       s.trapsTo t 0x0C (s.cx.xr a) 0 ∧ s.sameBytes t ∧ t.me.caps = s.me.caps))

/-! ## The system group -/

/-- R250, R317: NOP passes; IDLE makes its context not ready for xA[15:0] cycles; BEAT reloads BEAT_LEFT in a reaction and
does nothing elsewhere. That IDLE of 0 cycles leaves its context ready is log 11. R317, R319, R250: BRK and TRAP take their
traps, with the skip bit FINFO[31] set, and TRAP's immediate in FINFO. R318, R367: HALT stops its core for good and reports a
machine check of kind 5 with cause 0x1E. -/
def Obligations.IdleAndStopResults : Prop :=
  (∀ (g : Guard) (a : Reg) (s : State), s.guardPasses g = true → s.xReady [a] → s.cx.stop = .no →
     let n := (s.cx.xr a).toNat % 65536
     exec (.nop g) s = .next (s.retire 4) ∧ exec .nopC s = .next (s.retire 2) ∧
     (∃ t, exec (.idle g a) s = .next t ∧ t.cx.stop = (if n = 0 then .no else .idle n) ∧ t.cx.pc = s.cx.pc + 4 ∧
       t.cx.x = s.cx.x ∧ s.sameBytes t) ∧
     ∀ i, i = Instr.beatC ∨ i = .beatL g → ∃ t, exec i s = .next t ∧
       t.cx.beatLeft = (if s.cx.run.isSome then s.me.beatIv else s.cx.beatLeft) ∧ t.cx.x = s.cx.x ∧ s.sameBytes t ∧
       t.cx.pc = s.cx.pc + (if i = .beatC then 2 else 4)) ∧
  (∀ (g : Guard) (imm : Int) (s : State), s.guardPasses g = true → s.trapFree →
     (∃ t, exec (.brk g) s = .next t ∧ s.trapsTo t 0x1A 0 (dw (2 ^ 31)) ∧ s.sameBytes t) ∧
     (∃ t, exec .brkC s = .next t ∧ s.trapsTo t 0x1A 0 (dw (2 ^ 31)) ∧ s.sameBytes t) ∧
     ∃ t, exec (.trap g imm) s = .next t ∧ s.sameBytes t ∧
       s.trapsTo t 0x19 0 (dw (2 ^ 31 + (imm % (if g.isGuarded then 256 else 8192)).toNat))) ∧
  (∀ (g : Guard) (s : State), s.guardPasses g = true → ∃ t, exec (.halt g) s = .next t ∧ t.me.halted = true ∧
     t.mcKind = 5 ∧ t.mcCause = 0x1E ∧ t.mcCore = BitVec.ofNat 13 s.cur.val ∧ t.mcCount = s.mcCount + 1 ∧
     t.cx.x = s.cx.x ∧ s.sameBytes t ∧ ∀ c, c ≠ s.cur → t.core c = s.core c)

/-- R320, R362, R375: ERET of context 13 returns to the faulted context: it is ready again at FPC, to execute the instruction
once more, and context 13 is live no more. With FINFO[31] set it is ready behind the instruction: by 4 where the top two bits of
its first halfword are ones, else by 2; where that halfword cannot be read, by either (log 28). For a deferred fault it is
ready at FRPC, and the recorded request is outstanding again, sent once more, or with FINFO[31] set abandoned; an object
operation, which travels the mesh anew, is not this case. ERET of another context is 0x02. -/
def Obligations.ReturnFromTrapResults : Prop :=
  ∀ (g : Guard) (h : CtxId) (s : State), s.guardPasses g = true → s.me.trap.ctx = h.val → h ≠ 13 →
    s.me.recs = [] →
    (s.curCtx = 13 → ∃ t, exec (.eret g) s = .next t ∧ (t.me.ctx h).stop ≠ .faulted ∧ (t.me.ctx 13).live = false) ∧
    (s.curCtx = 13 → s.me.trap.defd = false → s.me.trap.finfo.getLsbD 31 = false → ∃ t, exec (.eret g) s = .next t ∧
      (t.me.ctx h).pc = s.me.trap.fpc ∧ (t.me.ctx h).stop = .no ∧ (t.me.ctx h).x = (s.me.ctx h).x ∧
      (t.me.ctx h).p = (s.me.ctx h).p ∧ (t.me.ctx 13).live = false ∧ s.sameBytes t) ∧
    (s.curCtx = 13 → s.me.trap.defd = false → s.me.trap.finfo.getLsbD 31 = true → ∃ t, exec (.eret g) s = .next t ∧
      (∀ w, (s.fetchHalf s.cur s.me.trap.fpc).1 = .ok w →
        (t.me.ctx h).pc = s.me.trap.fpc + (if w / 2 ^ 14 = 3 then 4 else 2)) ∧
      ((t.me.ctx h).pc = s.me.trap.fpc + 2 ∨ (t.me.ctx h).pc = s.me.trap.fpc + 4) ∧ (t.me.ctx h).stop = .no ∧
      (t.me.ctx h).x = (s.me.ctx h).x ∧ (t.me.ctx 13).live = false ∧ s.sameBytes t) ∧
    (∀ q, s.curCtx = 13 → s.me.trap.defd = true → s.me.trap.req = some q →
      (∀ r ∈ (s.me.ctx h).reqs, r.id ≠ q.id) → q.kind ≠ .opush → q.kind ≠ .opop → q.kind ≠ .ocnt → ∃ t,
      exec (.eret g) s = .next t ∧ (t.me.ctx h).pc = s.me.trap.frpc ∧ (t.me.ctx h).stop = .no ∧
      (t.me.ctx h).x = (s.me.ctx h).x ∧ (t.me.ctx 13).live = false ∧ s.sameBytes t ∧
      (s.me.trap.finfo.getLsbD 31 = true → (t.me.ctx h).reqs = (s.me.ctx h).reqs) ∧
      (s.me.trap.finfo.getLsbD 31 = false → ∃ p ∈ (t.me.ctx h).reqs, p.id = q.id ∧ p.kind = q.kind ∧ p.va = q.va ∧
        p.data = q.data ∧ p.dest = q.dest ∧ p.pc = q.pc ∧ p.reply = none ∧
        (∀ op e u, q.kind = .atomic op → s.reaches q.va 8 .store e u → p.pa = e.pa ∧ p.ha = e.isHa))) ∧
    (s.trapFree → ∃ t, exec (.eret g) s = .next t ∧ s.trapsTo t 0x02 0 0)

/-- R317, R52, R44, R250, R350, R351, R363: END once the context's accesses are performed. A helper's reaction counts its launch
counter down by one; every context that ends is no longer live and holds no request; the other contexts and every byte stay,
unless the count reaches zero: then the counter is done and its launch has ended. END of context 13 ends the reaction whose
fault it handles, and context 13. -/
def Obligations.EndResults : Prop :=
  ∀ (g : Guard) (s : State), s.guardPasses g = true → s.quiet → s.unbound →
    let uncancelled := ∀ e ∈ s.counters, e.2.canc = false
    ∀ i, i = Instr.endC ∨ i = .endL g →
      (s.curCtx ≠ 13 → s.cx.run = none → ∃ t, exec i s = .next t ∧ t.cx.live = false ∧ t.cx.reqs = [] ∧
        (∀ h, h ≠ s.curCtx → t.me.ctx h = s.me.ctx h) ∧ (∀ c, c ≠ s.cur → t.core c = s.core c) ∧ s.sameBytes t) ∧
      (∀ r, s.cx.run = some r → 1 ≤ s.curCtx.val → s.curCtx.val ≤ 10 → 2 ≤ (s.counter r.lcnt).count.toNat →
        uncancelled → ∃ t, exec i s = .next t ∧ t.cx.live = false ∧ t.cx.run = none ∧
        t.cx.reqs = [] ∧ (t.counter r.lcnt).count = (s.counter r.lcnt).count - 1 ∧
        (∀ h, h ≠ s.curCtx → t.me.ctx h = s.me.ctx h) ∧ (∀ c, c ≠ s.cur → t.core c = s.core c) ∧ s.sameBytes t) ∧
      (∀ r, s.cx.run = some r → 1 ≤ s.curCtx.val → s.curCtx.val ≤ 10 → (s.counter r.lcnt).count = 1 →
        (s.counter r.lcnt).parent = none → r.lcnt < 4096 → uncancelled → ∃ t, exec i s = .next t ∧ t.cx.live = false ∧
        (t.counter r.lcnt).count = 0 ∧ (t.counter r.lcnt).done = true ∧ t.launches.find r.lcnt = none) ∧
      ∀ (f : CtxId) (r : Run), s.curCtx = 13 → s.me.recs = [] → s.me.trap.ctx = f.val → 1 ≤ f.val → f.val ≤ 10 →
        (s.me.ctx f).run = some r → s.me.faultedReady = true → 2 ≤ (s.counter r.lcnt).count.toNat → uncancelled →
        ∃ t, exec i s = .next t ∧ (t.me.ctx f).live = false ∧ (t.me.ctx f).run = none ∧ (t.me.ctx f).reqs = [] ∧
        (t.me.ctx 13).live = false ∧ (t.counter r.lcnt).count = (s.counter r.lcnt).count - 1 ∧
        (∀ c, c ≠ s.cur → t.core c = s.core c) ∧ s.sameBytes t

/-- R314, R18, R30, R35, R301, R315: MFS reads the register named (SPILL_TAKE in context 12 takes the greatest entry), and
the reads of tags and clocks are its short forms. R314, R18, R30, R359: MTS writes the fields a register lets a program
write, W1C bits clear, counts are cleared by a nonzero write, read-only registers stay; TAGUNIT and BLKAREA take a write only
where R18 and R30 let them; no general register and no byte changes (SPILL_PUT in context 12 puts the record). -/
def Obligations.SpecialRegisterResults : Prop :=
  (∀ (g : Guard) (d a : Reg) (r : SpecialReg) (s : State), s.guardPasses g = true → s.xReady [d, a] →
     ((r = .spillTake → s.curCtx ≠ 12) → exec (.mfs d r) s = s.doneX d (s.special s.cur s.curCtx r) 4) ∧
     (s.curCtx = 12 → exec (.mfs d .spillTake) s =
       (s.modMe fun _ => s.me.spillTake.2).doneX d (dw s.me.spillTake.1.length) 4) ∧
     (∀ e ∈ ([(.tnowT, s.cx.tnow.t), (.tnowM, s.cx.tnow.m.setWidth 64),
         (.clock, dw (s.jobTime.toNat / s.me.tagunit.toNat)),
         (.horizon, dw ((s.me.horizonNs + s.me.tagunit.toNat - 1) / s.me.tagunit.toNat)), (.lastT, s.me.last.t),
         (.lastM, s.me.last.m.setWidth 64), (.tagunit, s.me.tagunit.setWidth 64), (.dbDie, s.me.dbDie.setWidth 64),
         (.dbPkg, s.me.dbPkg.setWidth 64), (.dbChas, s.me.dbChas.setWidth 64), (.dbFar, s.me.dbFar.setWidth 64),
         (.ebound, dw (s.me.eboundCh.toNat + s.me.eboundFar.toNat * 2 ^ 32)), (.inclass, dw (1 + 2 * s.me.inclass.toNat)),
         (.coreId, dw s.cur.val), (.landingId, dw (s.cur.val / 16)), (.dieId, dw (s.cur.val / 2048)),
         (.devCoord, s.devCoord.setWidth 64), (.ctxId, dw s.curCtx.val), (.origin, s.cx.origin), (.cause, s.me.trap.causeWord),
         (.fpc, s.me.trap.fpc), (.faddr, s.me.trap.faddr), (.finfo, s.me.trap.finfo), (.frpc, s.me.trap.frpc),
         (.tvec, s.me.tvec.setWidth 64), (.tstk, s.me.tstk.setWidth 64), (.inboxN, dw s.me.inbox.length),
         (.spillN, s.me.spillN.setWidth 64), (.wsCal, s.wsCal), (.slot, s.cx.slot.setWidth 64),
         (.joinN, s.cx.joinN.setWidth 64), (.fflags, s.cx.fflags.setWidth 64), (.fmode, s.cx.fmode.setWidth 64),
         (.iflags, s.me.iflags.setWidth 64), (.lateT, s.me.late.t), (.lateM, s.me.late.m.setWidth 64),
         (.lateOrig, s.me.late.orig), (.lateSend, s.me.late.send), (.lateArr, s.me.late.arr),
         (.lateLastT, s.me.late.lastT), (.lateLastM, s.me.late.lastM.setWidth 64),
         (.lateClass, dw (classCode s.me.late.cls + b2n s.me.late.sl * 4 + b2n s.me.late.bx * 8 + b2n s.me.late.rp * 16)),
         (.tcfg, dw (s.me.tcfgBudget.toNat + b2n s.me.tcfgInf11 * 2 ^ 32 + b2n s.me.tcfgInf14 * 2 ^ 33)),
         (.beatIv, s.me.beatIv.setWidth 64), (.beatLeft, s.cx.beatLeft.setWidth 64),
         (.gangCfg, dw (s.me.glog.toNat + 8 * (s.cur.val % 16 % 2 ^ s.me.glog.toNat) +
           128 * (s.cur.val % 16 / 2 ^ s.me.glog.toNat))),
         (.staleCnt, s.me.staleCnt.setWidth 64), (.bexCnt, s.me.bexCnt.setWidth 64),
         (.spillPut, s.me.spillPut.setWidth 64), (.spillBuf, s.me.spillBuf.setWidth 64),
         (.blkarea, dw (s.me.blkFirst.toNat + 8 * s.me.blkN.toNat)),
         (.detCfg, dw (3 * b2n s.me.det + s.me.detRounds.toNat * 2 ^ 32)), (.quantum, s.me.quantum.setWidth 64),
         (.wsPeriod, s.wsPeriod.setWidth 64), (.wsWindow, s.wsWindow.setWidth 64)] : List (SpecialReg × DWord)),
       exec (.mfs d e.1) s = s.doneX d e.2 4) ∧
     exec (.tagt g d) s = s.doneX d s.cx.tnow.t 4 ∧
     exec (.tagm g d) s = s.doneX d (s.cx.tnow.m.setWidth 64) 4 ∧
     exec (.clk g d) s = s.doneX d (dw (s.jobTime.toNat / s.me.tagunit.toNat)) 4 ∧
     exec (.horz g d) s = s.doneX d (dw ((s.me.horizonNs + s.me.tagunit.toNat - 1) / s.me.tagunit.toNat)) 4 ∧
     exec (.lastt g d) s = s.doneX d s.me.last.t 4 ∧
     exec (.lastm g d) s = s.doneX d (s.me.last.m.setWidth 64) 4 ∧
     let c := (s.cx.xr a).toNat
     (c < 4 →
       exec (.bound g d a) s = s.doneX d (dw (if c = 0 then s.me.dbDie.toNat else if c = 1 then s.me.dbPkg.toNat
         else if c = 2 then s.me.dbChas.toNat else s.me.dbFar.toNat)) 4 ∧
       exec (.ebnd g d a) s = s.doneX d (dw (if c = 2 then s.me.eboundCh.toNat else if c = 3 then s.me.eboundFar.toNat
         else 0)) 4)) ∧
  (∀ (r : SpecialReg) (d : Reg) (s : State), s.xReady [d] →
     let v := s.cx.xr d
     let a := v.toNat % 2 ^ 18
     let unit := v.toNat % 2 ^ 20
     let first := v.toNat % 8
     let blocks := v.toNat / 8 % 16
     let clear : Prop := ∀ i, ∀ b ∈ (s.me.slots.get i).joinBufs, overlaps (0x3C000 + first * 2048) (blocks * 2048) b.1 b.2 = false
     let timeless : Prop := s.curCtx = 0 ∧ s.me.inbox = [] ∧ ∀ h, 1 ≤ h.val → h.val ≤ 10 → (s.me.ctx h).live = false
     (s.curCtx = 12 → s.me.canPut a = true → ∃ t e, exec (.mts .spillPut d) s = .next t ∧ t.cx.pc = s.cx.pc + 4 ∧
       t.me.spillPut = v.setWidth 18 ∧ t.me.inbox = s.me.inbox ++ [e] ∧ t.me.floor = some e.ev ∧
       e.ev.dest = BitVec.ofNat 64 (s.me.spad.readNat a 8) ∧
       e.ev.tag.t = BitVec.ofNat 64 (s.me.spad.readNat (a + 8) 8)) ∧
     ((r = .spillPut → s.curCtx ≠ 12) → ∃ t, exec (.mts r d) s = .next t ∧ t.cx.pc = s.cx.pc + 4 ∧ t.cx.x = s.cx.x ∧
       s.sameBytes t ∧
       (r = .dbDie → t.me.dbDie = v.setWidth 32) ∧ (r = .dbPkg → t.me.dbPkg = v.setWidth 32) ∧
       (r = .dbChas → t.me.dbChas = v.setWidth 32) ∧ (r = .dbFar → t.me.dbFar = v.setWidth 32) ∧
       (r = .ebound → t.me.eboundCh = v.setWidth 32 ∧ t.me.eboundFar = (v >>> 32).setWidth 32) ∧
       (r = .inclass → t.me.inclass = (v >>> 1).setWidth 3) ∧
       (r = .tvec → t.me.tvec = BitVec.ofNat 56 (v.toNat % 2 ^ 56 / 2 * 2)) ∧
       (r = .tcfg → t.me.tcfgBudget = v.setWidth 32 ∧ t.me.tcfgInf11 = v.getLsbD 32 ∧ t.me.tcfgInf14 = v.getLsbD 33) ∧
       (r = .tstk → t.me.tstk = v.setWidth 18) ∧ (r = .beatIv → t.me.beatIv = v.setWidth 32) ∧
       (r = .spillN → t.me.spillN = v.setWidth 32) ∧ (r = .spillBuf → t.me.spillBuf = v.setWidth 18) ∧
       (r = .staleCnt → t.me.staleCnt = if v.setWidth 32 = (0 : Word) then s.me.staleCnt else 0) ∧
       (r = .bexCnt → t.me.bexCnt = if v.setWidth 32 = (0 : Word) then s.me.bexCnt else 0) ∧
       (r = .finfo → (t.me.trap.finfo.getLsbD 31 = v.getLsbD 31) ∧
         ∀ i, i ≠ 31 → t.me.trap.finfo.getLsbD i = s.me.trap.finfo.getLsbD i) ∧
       (r = .fmode → t.cx.fmode = v.setWidth 2) ∧ (r = .fflags → t.cx.fflags = s.cx.fflags &&& ~~~(v.setWidth 5)) ∧
       (r = .iflags → t.me.iflags = s.me.iflags &&& ~~~(v.setWidth 2)) ∧
       (r ≠ .fflags → t.cx.fflags = s.cx.fflags) ∧ (r ≠ .fmode → t.cx.fmode = s.cx.fmode) ∧
       (r ≠ .tvec → t.me.tvec = s.me.tvec) ∧ t.me.last = s.me.last ∧ t.cx.tnow = s.cx.tnow ∧
       (r = .tagunit → (timeless → 1 ≤ unit → unit ≤ 1000000 → t.me.tagunit = v.setWidth 20) ∧
         (¬timeless ∨ unit = 0 ∨ 1000000 < unit → t.me.tagunit = s.me.tagunit)) ∧
       (r ≠ .tagunit → t.me.tagunit = s.me.tagunit) ∧
       (r = .blkarea → (first + blocks ≤ 8 → s.me.blkUsed = [] → clear → t.me.blkFirst = v.setWidth 3 ∧
           t.me.blkN = (v >>> 3).setWidth 4) ∧
         (8 < first + blocks ∨ s.me.blkUsed ≠ [] ∨ ¬clear → t.me.blkFirst = s.me.blkFirst ∧ t.me.blkN = s.me.blkN)) ∧
       (r ≠ .blkarea → t.me.blkFirst = s.me.blkFirst ∧ t.me.blkN = s.me.blkN) ∧
       (r ∈ [SpecialReg.coreId, .landingId, .dieId, .devCoord, .ctxId, .clock, .horizon, .tnowT, .tnowM, .lastT, .lastM, .slot,
         .origin, .joinN, .lateT, .lateM, .lateOrig, .lateSend, .lateArr, .lateLastT, .lateLastM, .lateClass, .cause, .fpc,
         .faddr, .frpc, .beatLeft, .gangCfg, .inboxN, .spillTake, .detCfg, .quantum, .wsCal, .wsPeriod, .wsWindow] →
         t.me = (s.retire 4).me)))

/-! ## Vectors -/

/-- R272 to R275, R117, R118, R203: the integer lane operations, on 32, 16 and 8 bits. VADDS.B and VSUBS.B clamp and then
set IFLAGS.SAT. -/
def Obligations.VectorIntegerResults : Prop :=
  ∀ (g : Guard) (d a b : Reg) (s : State), s.noStreams [d, a, b] →
    let lanes (i : Instr) (w : Nat) (f : BitVec w → BitVec w → LaneRes w) : Prop :=
      s.lanesTo i g w (1024 / w) (fun l => l * w / 32) d fun l => f (lane w l (s.cx.v.get a)) (lane w l (s.cx.v.get b))
    let common (w : Nat) (is : List Instr) : Prop :=
      ∀ e ∈ is.zip [fun x y : BitVec w => x + y, fun x y => x - y,
          fun x y => if x.toInt < y.toInt then x else y, fun x y => if y.toInt < x.toInt then x else y,
          fun x y => if x.toNat < y.toNat then x else y, fun x y => if y.toNat < x.toNat then x else y,
          fun x y => BitVec.ofInt w (x.toInt * y.toInt), fun x y => BitVec.ofInt w (x.toInt * y.toInt / 2 ^ w)],
        lanes e.1 w fun x y => (e.2 x y, 0, false)
    common 32 [.vaddW g d a b, .vsubW g d a b, .vminW g d a b, .vmaxW g d a b, .vminuW g d a b, .vmaxuW g d a b,
      .vmulW g d a b, .vmulhW g d a b] ∧
    common 16 [.vaddH g d a b, .vsubH g d a b, .vminH g d a b, .vmaxH g d a b, .vminuH g d a b, .vmaxuH g d a b,
      .vmulH g d a b, .vmulhH g d a b] ∧
    common 8 [.vaddB g d a b, .vsubB g d a b, .vminB g d a b, .vmaxB g d a b, .vminuB g d a b, .vmaxuB g d a b] ∧
    (∀ e ∈ [(Instr.vand g d a b, fun x y : BitVec 32 => x &&& y), (.vor g d a b, fun x y => x ||| y),
        (.vxor g d a b, fun x y => x ^^^ y), (.vandn g d a b, fun x y => x &&& ~~~y),
        (.vshlW g d a b, fun x y => x <<< (y.toNat % 32)), (.vshrW g d a b, fun x y => x >>> (y.toNat % 32)),
        (.vsraW g d a b, fun x y => x.sshiftRight (y.toNat % 32))],
      lanes e.1 32 fun x y => (e.2 x y, 0, false)) ∧
    s.lanesTo (.vnot g d a) g 32 32 id d (fun l => (~~~lane 32 l (s.cx.v.get a), 0, false)) ∧
    let clamped (z : Int) : LaneRes 8 :=
      (BitVec.ofInt 8 (max (-128) (min 127 z)), 0, decide (z < -128) || decide (127 < z))
    lanes (.vaddsB g d a b) 8 (fun x y => clamped (x.toInt + y.toInt)) ∧
    lanes (.vsubsB g d a b) 8 (fun x y => clamped (x.toInt - y.toInt))

/-- R276 to R278, R123 to R126: the floating-point lane operations, each rounded once; FP32 under FMODE.RM, BF16 and the
elementary functions to nearest even. VFMA reads vD as its third operand. The elementary functions are as the model evaluates
them (log entry 30); which flags VFDOT.BF sets where a NaN stands beside an invalid product is log entry 83. -/
def Obligations.VectorFloatResults : Prop :=
  ∀ (g : Guard) (d a b : Reg) (s : State), s.noStreams [d, a, b] →
    let rm := RM.of s.cx.fmode
    let lanes (i : Instr) (w : Nat) (f : Nat → Nat → Nat → FRes) : Prop :=
      s.lanesTo i g w (1024 / w) (fun l => l * w / 32) d fun l =>
        let r := f (lane w l (s.cx.v.get a)).toNat (lane w l (s.cx.v.get b)).toNat (lane w l (s.cx.v.get d)).toNat
        (BitVec.ofNat w r.1, r.2, false)
    let bits (i : Instr) (f : BitVec 32 → BitVec 32) : Prop :=
      s.lanesTo i g 32 32 id d fun l => (f (lane 32 l (s.cx.v.get a)), 0, false)
    (∀ e ∈ [(Instr.vfaddS g d a b, fun x y _ => fp32.add rm x y), (.vfsubS g d a b, fun x y _ => fp32.sub rm x y),
        (.vfmulS g d a b, fun x y _ => fp32.mul rm x y), (.vdivS g d a b, fun x y _ => fp32.div rm x y),
        (.vfminS g d a b, fun x y _ => fp32.pick false x y), (.vfmaxS g d a b, fun x y _ => fp32.pick true x y),
        (.vfmaS g d a b, fun x y z => fp32.fma rm x y z false), (.vsqrtS g d a, fun x _ _ => fp32.sqrt rm x),
        (.vrcpS g d a, fun x _ _ => fp32.div .rne 0x3F800000 x), (.vrsqS g d a, fun x _ _ => rsqrt32 x),
        (.vexp2S g d a, fun x _ _ => exp2of x), (.vlog2S g d a, fun x _ _ => log2of x),
        (.vtanhS g d a, fun x _ _ => tanhOf x), (.vfloorS g d a, fun x _ _ => floor32 x)], lanes e.1 32 e.2) ∧
    (∀ e ∈ [(Instr.vfaddBf g d a b, fun x y _ => bf16.add .rne x y), (.vfsubBf g d a b, fun x y _ => bf16.sub .rne x y),
        (.vfmulBf g d a b, fun x y _ => bf16.mul .rne x y), (.vfminBf g d a b, fun x y _ => bf16.pick false x y),
        (.vfmaxBf g d a b, fun x y _ => bf16.pick true x y),
        (.vfmaBf g d a b, fun x y z => bf16.fma .rne x y z false)], lanes e.1 16 e.2) ∧
    bits (.vfabsS g d a) (fun x => x &&& 0x7FFFFFFF) ∧ bits (.vfnegS g d a) (fun x => x ^^^ 0x80000000) ∧
    s.lanesTo (.vfdotBf g d a b) g 32 32 id d
      (fun l => fdotLane (lane 32 l (s.cx.v.get a)) (lane 32 l (s.cx.v.get b)) (lane 32 l (s.cx.v.get d)))

/-- R279, R280, R224, R227: compares write the predicate lanes that pass; VBCAST to VSLIDE move 32-bit lanes; VEXT and VINS
act on lane xB[4:0]. -/
def Obligations.VectorMoveResults : Prop :=
  ∀ (g : Guard) (d a b : Reg) (p : PReg) (cc : ICond) (fc : FCond) (s : State), s.noStreams [d, a, b] →
    s.xReady [d, a, b] →
    let va (l : Nat) := lane 32 l (s.cx.v.get a)
    let vb (l : Nat) := lane 32 l (s.cx.v.get b)
    let compares (i : Instr) (f : Nat → Bool × Bool) : Prop := ∃ t, exec i s = .next t ∧ t.cx.pc = s.cx.pc + 4 ∧
      s.onlyCtx t { s.cx with p := t.cx.p, fflags := t.cx.fflags } ∧ (∀ q, q ≠ p → t.cx.p.get q = s.cx.p.get q) ∧
      (∀ l, l < 32 → (t.cx.p.get p).getLsbD l = if s.lanePasses g l then (f l).1 else (s.cx.p.get p).getLsbD l) ∧
      t.cx.fflags = if (List.range 32).any (fun l => s.lanePasses g l && (f l).2) then s.cx.fflags ||| 1 else s.cx.fflags
    let moves (i : Instr) (f : Nat → Word) : Prop := s.lanesTo i g 32 32 id d fun l => (f l, 0, false)
    compares (.vcmp g p a b cc) (fun l => (condHolds cc (va l) (vb l), false)) ∧
    compares (.vcmpF g p a b fc) (fun l => fp32.cond fc (va l).toNat (vb l).toNat) ∧
    moves (.vbcast g d a) (fun _ => (s.cx.xr a).setWidth 32) ∧
    moves (.viota g d) (fun l => BitVec.ofNat 32 l) ∧
    moves (.vmov g d a) va ∧
    moves (.vperm g d a b) (fun l => va ((vb l).toNat % 32)) ∧
    moves (.vslide g d a b) (fun l =>
      if 0 ≤ l + (s.cx.xr b).toInt ∧ l + (s.cx.xr b).toInt ≤ 31 then va (l + (s.cx.xr b).toInt).toNat else 0) ∧
    (let x := fp64.val (s.cx.f.get a).toNat
     let r := fp32.deliver (RM.of s.cx.fmode) x.isSig x
     s.lanesTo (.vbcastf g d a) g 32 32 id d fun _ => (BitVec.ofNat 32 r.1, r.2, false)) ∧
    let n := (s.cx.xr b).toNat % 32
    (∃ t, exec (.vext g d a b) s = .next t ∧ t.cx.pc = s.cx.pc + 4 ∧
      s.onlyCtx t (if s.lanePasses g n then s.cx.setX d ((va n).signExtend 64) else s.cx)) ∧
    ∃ t, exec (.vins g d a b) s = .next t ∧ t.cx.pc = s.cx.pc + 4 ∧ s.onlyCtx t { s.cx with v := t.cx.v } ∧
      (∀ r, r ≠ d → t.cx.v.get r = s.cx.v.get r) ∧ ∀ l, l < 32 → lane 32 l (t.cx.v.get d) =
        if l = n ∧ s.lanePasses g n = true then (s.cx.xr a).setWidth 32 else lane 32 l (s.cx.v.get d)

/-- R281, R282, R59: vector loads and stores of the scratchpad. VLDF takes 16 full words and leaves them empty; VSTE fills 16
empty ones, VSTF any. Of stores to one address the highest lane's value stays. A load of a word that an uncorrectable error has
lost is fault 0x18 (R361), which these loads do not meet. -/
def Obligations.VectorMemoryResults : Prop :=
  ∀ (g : Guard) (d a b : Reg) (off : Int) (s : State), s.guardPasses g = true → s.xReady [a, b] → s.quiet → s.unbound →
    s.me.spad.wf = true → s.me.full.Pairwise (· < ·) →
    let at_ : DWord := s.cx.xr a + BitVec.ofInt 64 (off * 128)
    let row (l : Nat) : DWord := s.cx.xr a + dw l * s.cx.xr b
    let idx (l : Nat) : DWord := s.cx.xr a + dw (4 * (lane 32 l (s.cx.v.get b)).toNat)
    let fits (x : DWord) : Prop := x.toNat + 128 ≤ 0x40000 ∧ x.toNat % 8 = 0
    let allFit (f : Nat → DWord) : Prop := ∀ l, l < 32 → inSpad (f l) 4
    let words (x : DWord) (P : Nat → Prop) : Prop := ∀ w, x.toNat / 8 ≤ w → w < x.toNat / 8 + 16 → P w
    let bitsAfter (t : State) (x : DWord) (full : Prop) : Prop := words x (fun w => (w ∈ t.me.full ↔ full)) ∧
      ∀ w, w < x.toNat / 8 ∨ x.toNat / 8 + 16 ≤ w → (w ∈ t.me.full ↔ w ∈ s.me.full)
    let done (t : State) : Prop := t.cx.pc = s.cx.pc + 4 ∧ t.cx.x = s.cx.x ∧ t.cx.p = s.cx.p ∧ t.cx.f = s.cx.f ∧
      (∀ m, t.mem.get m = s.mem.get m) ∧ (∀ r, r ≠ d → t.cx.v.get r = s.cx.v.get r) ∧ ∀ c, c ≠ s.cur → t.core c = s.core c
    let loaded (t : State) : Prop := done t ∧ ∀ m, t.me.spad.get m = s.me.spad.get m
    let stored (t : State) (x : DWord) : Prop := done t ∧ t.cx.v = s.cx.v ∧
      t.me.spad.readNat x.toNat 128 = (s.cx.v.get d).toNat ∧
      ∀ m, m < x.toNat ∨ x.toNat + 128 ≤ m → t.me.spad.get m = s.me.spad.get m
    let gathers (i : Instr) (f : Nat → DWord) : Prop := allFit f → (∀ l, l < 32 → s.sound (f l).toNat 4) →
      ∃ t, exec i s = .next t ∧ loaded t ∧
      t.me.full = s.me.full ∧ ∀ l, l < 32 → (lane 32 l (t.cx.v.get d)).toNat = s.me.spad.readNat (f l).toNat 4
    let scatters (i : Instr) (f : Nat → DWord) : Prop := allFit f → ∃ t, exec i s = .next t ∧ done t ∧ t.cx.v = s.cx.v ∧
      t.me.full = s.me.full ∧
      (∀ l, l < 32 → (∀ k, l < k → k < 32 → f k ≠ f l) →
        t.me.spad.readNat (f l).toNat 4 = (lane 32 l (s.cx.v.get d)).toNat) ∧
      ∀ m, (∀ l, l < 32 → m < (f l).toNat ∨ (f l).toNat + 4 ≤ m) → t.me.spad.get m = s.me.spad.get m
    (fits at_ → s.sound at_.toNat 128 → ∃ t, exec (.vld g d a off) s = .next t ∧ loaded t ∧ t.me.full = s.me.full ∧
      (t.cx.v.get d).toNat = s.me.spad.readNat at_.toNat 128) ∧
    (fits at_ → ∃ t, exec (.vst g d a off) s = .next t ∧ stored t at_ ∧ t.me.full = s.me.full) ∧
    (fits at_ → s.sound at_.toNat 128 → words at_ (· ∈ s.me.full) → ∃ t, exec (.vldf g d a off) s = .next t ∧
      loaded t ∧ bitsAfter t at_ False ∧
      (t.cx.v.get d).toNat = s.me.spad.readNat at_.toNat 128) ∧
    (fits at_ → words at_ (· ∉ s.me.full) → ∃ t, exec (.vste g d a off) s = .next t ∧ stored t at_ ∧
      bitsAfter t at_ True) ∧
    (fits (s.cx.xr a) → ∃ t, exec (.vstf g d a) s = .next t ∧ stored t (s.cx.xr a) ∧ bitsAfter t (s.cx.xr a) True) ∧
    gathers (.vlds g d a b) row ∧ gathers (.vgath g d a b) idx ∧
    scatters (.vsts g d a b) row ∧ scatters (.vscat g d a b) idx

/-- R283, R183: folds over the 32 lanes from lane 0 upwards, scans and cavities, each step rounded to nearest even; lanes
beyond the result are zero. VDOT4.B adds four products of signed bytes to each lane, clamped. -/
def Obligations.VectorFoldResults : Prop :=
  ∀ (g : Guard) (d a b : Reg) (s : State), s.guardPasses g = true → s.noStreams [d, a, b] →
    let x (l : Nat) : Word := lane 32 l (s.cx.v.get a)
    let gives (i : Instr) (f : Nat → Word) : Prop := ∃ t, exec i s = .next t ∧ t.cx.pc = s.cx.pc + 4 ∧
      s.onlyCtx t { s.cx with v := t.cx.v, fflags := t.cx.fflags } ∧ (∀ r, r ≠ d → t.cx.v.get r = s.cx.v.get r) ∧
      s.cx.fflags &&& t.cx.fflags = s.cx.fflags ∧ ∀ l, l < 32 → lane 32 l (t.cx.v.get d) = f l
    let sum (p q : Word) : Word := BitVec.ofNat 32 (fp32.add .rne p.toNat q.toNat).1
    let most (p q : Word) : Word := BitVec.ofNat 32 (fp32.pick true p.toNat q.toNat).1
    let least (p q : Word) : Word := BitVec.ofNat 32 (fp32.pick false p.toNat q.toNat).1
    let upTo (op : Word → Word → Word) (e : Word) (n : Nat) : Word := (List.range n).foldl (fun p l => op p (x l)) e
    let after (op : Word → Word → Word) (e : Word) (l : Nat) : Word :=
      ((List.range 32).drop (l + 1)).foldr (fun k q => op (x k) q) e
    let first (v : Word) (l : Nat) : Word := if l = 0 then v else 0
    gives (.vrsumS g d a) (first (upTo sum 0x80000000 32)) ∧
    gives (.vrmaxS g d a) (first (upTo most 0xFF800000 32)) ∧
    gives (.vrminS g d a) (first (upTo least 0x7F800000 32)) ∧
    gives (.vrsumW g d a) (first (upTo (· + ·) 0 32)) ∧
    gives (.vscanS g d a) (fun l => upTo sum 0x80000000 (l + 1)) ∧
    gives (.vcavS g d a) (fun l => sum (upTo sum 0x80000000 l) (after sum 0x80000000 l)) ∧
    gives (.vcavmS g d a) (fun l => most (upTo most 0xFF800000 l) (after most 0xFF800000 l)) ∧
    let byte (v : Word) (k : Nat) : Int := ((v >>> (8 * k)).setWidth 8).toInt
    s.lanesTo (.vdot4B g d a b) .always 32 32 id d fun l =>
      let y := lane 32 l (s.cx.v.get b)
      let z := (lane 32 l (s.cx.v.get d)).toInt + byte (x l) 0 * byte y 0 + byte (x l) 1 * byte y 1 +
        byte (x l) 2 * byte y 2 + byte (x l) 3 * byte y 3
      (BitVec.ofInt 32 (max (-(2 ^ 31)) (min (2 ^ 31 - 1) z)), 0, decide (z < -(2 ^ 31)) || decide (2 ^ 31 ≤ z))

/-- R284, R127, R128: conversions of 32 elements, widened from or narrowed into the low lanes; the scale of an 8-bit
conversion is fB. A scale that FP32 does not hold exactly is 0x0E before any lane changes, FINFO[8:6] = 1. That an infinity
with a scale of 0 is an invalid product is log entry 83. -/
def Obligations.VectorConversionResults : Prop :=
  ∀ (g : Guard) (d a b : Reg) (s : State), s.noStreams [d, a] →
    let rm := RM.of s.cx.fmode
    let src (w l : Nat) : BitVec w := lane w l (s.cx.v.get a)
    let lanes (i : Instr) (w : Nat) (f : Nat → FRes) : Prop :=
      s.lanesTo i g w 32 id d fun l => (BitVec.ofNat w (f l).1, (f l).2, false)
    let deliver (f : Fmt) (m : RM) (x : FVal) : FRes := f.deliver m x.isSig x
    let times (f : Fmt) (m : RM) (x : FVal) : FRes :=
      let p := x.mul (fp64.val (s.cx.f.get b).toNat)
      f.deliver m (p.2 || x.isSig) p.1
    lanes (.vcvtSBf g d a) 32 (fun l => deliver fp32 .rne (bf16.val (src 16 l).toNat)) ∧
    lanes (.vcvtBfS g d a) 16 (fun l => deliver bf16 .rne (fp32.val (src 32 l).toNat)) ∧
    lanes (.vcvtSW g d a) 32 (fun l =>
      deliver fp32 rm (.fin (decide ((src 32 l).toInt < 0)) (src 32 l).toInt.natAbs 0)) ∧
    s.lanesTo (.vcvtWS g d a) g 32 32 id d (fun l =>
      let r := (fp32.val (src 32 l).toNat).toInt rm (-(2 ^ 31)) (2 ^ 31 - 1)
      (BitVec.ofInt 32 r.1, r.2, false)) ∧
    (scaleGood (s.cx.f.get b) = true →
      lanes (.vcvtE4S g d a b) 8 (fun l => times e4m3 .rne (fp32.val (src 32 l).toNat)) ∧
      lanes (.vcvtE5S g d a b) 8 (fun l => times e5m2 .rne (fp32.val (src 32 l).toNat)) ∧
      lanes (.vcvtSE4 g d a b) 32 (fun l => times fp32 rm (e4m3.val (src 8 l).toNat)) ∧
      lanes (.vcvtSE5 g d a b) 32 (fun l => times fp32 rm (e5m2.val (src 8 l).toNat))) ∧
    (scaleGood (s.cx.f.get b) = false → s.trapFree → (∃ l, l < 32 ∧ s.lanePasses g l = true) →
      ∀ i ∈ [Instr.vcvtE4S g d a b, .vcvtE5S g d a b, .vcvtSE4 g d a b, .vcvtSE5 g d a b],
        ∃ t, exec i s = .next t ∧ s.trapsTo t 0x0E 0 64 ∧ s.sameBytes t ∧ t.cx.v = s.cx.v)

/-- R129 to R133, R306, R307: encoding then decoding gives back 64 codes and the scale; XENC stores the block of lanes 0 to
63 with the scale in lane 64 and gives its length; XDEC puts the codes and the scale of a block into lanes 0 to 64, every
other bit zero, and raises 0x0E at the block's address for a block that breaks R132. -/
def Obligations.XfBlockResults : Prop :=
  (∀ (codes : List Nat) (scale : Nat), codes.length = 64 → (∀ c ∈ codes, c < 256) → scale < 256 →
    let block := leNat (xfEncode codes scale)
    (xfHeader (block % 2 ^ 32)).bytes = (xfEncode codes scale).length ∧
      xfDecode block = some { scale := scale, codes := codes }) ∧
  ∀ (g : Guard) (d a b : Reg) (s : State), s.guardPasses g = true → s.ungated → s.released → s.xReady [a, b, d] →
    s.noStreams [a, d] → s.me.spad.wf = true →
    let lanes (l : Nat) : Nat := (lane 8 l (s.cx.v.get a)).toNat
    let block := xfEncode ((List.range 64).map lanes) (lanes 64)
    let dst := (s.cx.xr b).toNat
    let at_ := (s.cx.xr a).toNat
    let n := (xfHeader (s.me.spad.readNat at_ 4)).bytes
    (dst % 4 = 0 → dst + 68 ≤ 0x40000 → ∃ t, exec (.xenc g d a b) s = .next t ∧ t.cx.pc = s.cx.pc + 4 ∧
      t.cx.x = (s.cx.setX d (dw block.length)).x ∧ t.cx.v = s.cx.v ∧ t.me.full = s.me.full ∧ t.mem = s.mem ∧
      (∀ i, i < block.length → t.me.spad.get (dst + i) = block.getD i 0) ∧
      ∀ m, m < dst ∨ dst + block.length ≤ m → t.me.spad.get m = s.me.spad.get m) ∧
    (∀ q, at_ % 4 = 0 → at_ + 36 ≤ 0x40000 → at_ + n ≤ 0x40000 → s.sound at_ n →
      xfDecode (s.me.spad.readNat at_ n) = some q → ∃ t, exec (.xdec g d a) s = .next t ∧ t.cx.pc = s.cx.pc + 4 ∧
        s.onlyCtx t { s.cx with v := t.cx.v, obs := t.cx.obs } ∧
        (∀ l, l < 64 → (lane 8 l (t.cx.v.get d)).toNat = q.codes.getD l 0 % 256) ∧
        (lane 8 64 (t.cx.v.get d)).toNat = q.scale % 256 ∧ (∀ j, 520 ≤ j → (t.cx.v.get d).getLsbD j = false) ∧
        ∀ r, r ≠ d → t.cx.v.get r = s.cx.v.get r) ∧
    (s.trapFree → at_ % 4 = 0 → at_ + 36 ≤ 0x40000 → at_ + n ≤ 0x40000 → s.sound at_ n →
      xfDecode (s.me.spad.readNat at_ n) = none →
      ∃ t, exec (.xdec g d a) s = .next t ∧ s.trapsTo t 0x0E (s.cx.xr a) 128 ∧ s.sameBytes t ∧ t.cx.v = s.cx.v)

/-! ## Layouts, streams, copies -/

/-- R169, R170, R308: the layout registers. YLD of a good record takes it and clears the extents; YBASE, YEXT and YRD. -/
def Obligations.LayoutResults : Prop :=
  ∀ (g : Guard) (y n : Fin 4) (m : Fin 5) (d a : Reg) (e : EA) (r : LayoutRec) (ws : List DWord) (s u v : State),
    s.guardPasses g = true → s.xReady [d, a] → s.ungated →
    let x := s.cx.xr a
    let old := s.me.layouts.get y
    let sets (i : Instr) (P : LayoutReg → Prop) : Prop := ∃ t, exec i s = .next t ∧ t.cx.pc = s.cx.pc + 4 ∧
      t.cx.x = s.cx.x ∧ P (t.me.layouts.get y) ∧ ∀ z, z ≠ y → t.me.layouts.get z = s.me.layouts.get z
    (s.reaches x 64 .load e u → u.readWaits e 0 8 = .ok (ws, v) → layoutOf ws = some r →
      sets (.yld g y a) (fun q => q.record = some r ∧ ∀ k, q.ext.get k = 0)) ∧
    sets (.ybase g y a) (fun q => q = { old with base := x }) ∧
    sets (.yext g y a n) (fun q => q.record = old.record ∧ q.base = old.base ∧ q.ext.get n = x.setWidth 32 ∧
      ∀ k, k ≠ n → q.ext.get k = old.ext.get k) ∧
    exec (.yrd g d y m) s = s.doneX d (match old.record with
      | none => 0
      | some _ => if h : m.val < 4 then (old.ext.get ⟨m.val, h⟩).setWidth 64 else old.base) 4

/-- R175 to R179, R308: SBIND, SUNB, SLINK and SSTAT; a pop of a memory input takes its oldest vector, a push to a memory output
appends one. The premise on the crossbar's stream sources says that none is set to a stream (R311). The order of a stream's
elements is the model's reading (log entry 47). -/
def Obligations.StreamResults : Prop :=
  ∀ (g : Guard) (i : Fin 8) (d a : Reg) (desc : StreamDesc) (s : State), s.guardPasses g = true → s.xReady [d, a] →
    s.quiet → (∀ k, (s.me.xbar.estr.get k).getLsbD 4 = false) →
    let st := s.me.streams.get i
    let x := s.cx.xr a
    let vi : Reg := ⟨24 + i.val, by omega⟩
    let does (j : Instr) (P : State → Prop) : Prop := ∃ t, exec j s = .next t ∧ t.cx.pc = s.cx.pc + 4 ∧ t.cx.x = s.cx.x ∧
      (∀ k, k ≠ i → t.me.streams.get k = s.me.streams.get k) ∧ P t
    (st.bound = none → x.toNat + 64 ≤ 0x40000 → x.toNat % 64 = 0 → s.sound x.toNat 64 →
      streamDescOf (s.spadWords x.toNat 8) = .ok desc →
      does (.sbind g i a) fun t => t.me.streams.get i =
        { bound := some (.memory s.curCtx desc), buf := [], upTo := [], seen := [], reads := [], wrote := [],
          boundAt := s.reqCtr, engine := 0, passed := 0, ovr := false, fault := none, ended := false }) ∧
    (st.bound = some (.memory s.curCtx desc) → desc.output = false → does (.sunb g i) fun t =>
      (t.me.streams.get i).bound = none ∧ ∀ r, r ≠ vi → t.cx.v.get r = s.cx.v.get r) ∧
    (st.bound = none → ∀ h : x.toNat % 16 < 14, x.toNat < 32 → does (.slink g i a) fun t =>
      (t.me.streams.get i).bound = some (if x.toNat < 16 then .link s.curCtx ⟨x.toNat % 16, h⟩ true false
        else .link ⟨x.toNat % 16, h⟩ s.curCtx false true)) ∧
    (st.bound = none → exec (.sstat g d i) s = s.doneX d 0 4) ∧
    (st.bound = some (.memory s.curCtx desc) → desc.output = false → st.fault = none → st.passed < desc.vectors →
      exec (.sstat g d i) s = s.doneX d (dw (1 + 16 * (if st.ovr then 1 else 0) + 256 * st.ready desc)) 4) ∧
    (st.bound = some (.memory s.curCtx desc) → desc.output = false → st.passed < desc.vectors → st.ready desc ≠ 0 →
      s.streamNamed d = none → does (.vmov .always d vi) fun t =>
        (∀ l, l < 32 → lane 32 l (t.cx.v.get d) = lane 32 l (st.buf.headD 0)) ∧
        t.me.streams.get i = { st with buf := st.buf.tail, reads := st.reads.tail, passed := st.passed + 1 }) ∧
    (st.bound = some (.memory s.curCtx desc) → desc.output = true → st.fault = none → st.passed < desc.vectors →
      st.buf.length < 8 → s.restartable = false → s.streamNamed a = none → does (.vmov .always vi a) fun t =>
        t.cx.v = s.cx.v ∧ ∃ w, (∀ l, l < 32 → lane 32 l w = lane 32 l (s.cx.v.get a)) ∧
        t.me.streams.get i = { st with
          buf := st.buf ++ [w], passed := st.passed + 1, upTo := st.upTo ++ [s.reqCtr],
          seen := st.seen ++ [if s.cx.relS = 0 then [] else s.cx.seen] })

/-- R156, R160 to R165, R305: queueing a copy request gives it its channel's next id, or with a full FIFO waits (XQ.W) or
returns all ones (XQ.T); a request that breaks a rule is 0x0F with its word and bit; XDONE, XWAIT, XSTAT and XCLR. -/
def Obligations.CopyResults : Prop :=
  ∀ (g : Guard) (d a b : Reg) (s : State), s.guardPasses g = true → s.quiet → s.unbound →
    s.xReady [d, a, b, regPlus a 1, regPlus a 2, regPlus a 3] →
    let w0 := s.cx.xr a
    let layout : Option LayoutReg := if w0.toNat / 2 ^ 56 = 1 then
      some (s.me.layouts.get ⟨w0.toNat / 2 ^ 50 % 4, Nat.mod_lt _ (by decide)⟩) else none
    let r : CopyReq := { w0 := w0, w1 := s.cx.xr (regPlus a 1), w2 := s.cx.xr (regPlus a 2), w3 := s.cx.xr (regPlus a 3),
                         id := 0, released := false, layout := layout, seen := s.cx.seen }
    let q := s.me.chans.get r.chan
    let free := w0.getLsbD 52 && q.armed
    let after := if free then joinSeen s.cx.seen (s.me.xbar.term.get (r.chan.castLE (by decide))).seen else s.cx.seen
    (a.val ≤ 28 → s.restartable = false → requestFault s.me r = none → s.me.fifo.length < 8 →
      ∀ i, i = Instr.xqW g d a ∨ i = .xqT g d a → ∃ t, exec i s = .next t ∧ t.cx.pc = s.cx.pc + 4 ∧ s.sameBytes t ∧
        t.cx.x = (s.cx.setX d (q.next.setWidth 64)).x ∧ (t.me.chans.get r.chan).next = q.next + 1 ∧
        t.me.fifo = s.me.fifo ++ [{ r with id := q.next, released := free, seen := after }]) ∧
    (a.val ≤ 28 → s.restartable = false → requestFault s.me r = none → 8 ≤ s.me.fifo.length →
      exec (.xqT g d a) s = s.doneX d (BitVec.allOnes 64) 4 ∧
      ∃ t, exec (.xqW g d a) s = .next t ∧ t.cx = { s.cx with stop := .waiting } ∧ t.me.fifo = s.me.fifo) ∧
    (a.val ≤ 28 → s.restartable = false → s.trapFree → ∀ w k, requestFault s.me r = some (w, k) →
      ∀ i, i = Instr.xqW g d a ∨ i = .xqT g d a → ∃ t, exec i s = .next t ∧ s.trapsTo t 0x0F 0 (dw (w + 4 * k)) ∧
        t.me.fifo = s.me.fifo) ∧
    ∀ h : w0.toNat < 4,
      let c : Fin 4 := ⟨w0.toNat, h⟩
      let k := s.me.chans.get c
      let ahead := ((s.cx.xr b).setWidth 32 - k.done).toNat
      (∃ t, exec (.xdone g d a) s = .next t ∧ t.cx.pc = s.cx.pc + 4 ∧ t.cx.x = (s.cx.setX d (k.done.setWidth 64)).x) ∧
      (ahead = 0 ∨ 2 ^ 31 ≤ ahead → ∃ t, exec (.xwait g a b) s = .next t ∧ t.cx.pc = s.cx.pc + 4 ∧ t.cx.x = s.cx.x) ∧
      (0 < ahead → ahead < 2 ^ 31 → k.fault = none → ∃ t, exec (.xwait g a b) s = .next t ∧
        t.cx = { s.cx with stop := .waiting }) ∧
      (0 < ahead → ahead < 2 ^ 31 → s.trapFree → ∀ cause addr, k.fault = some (cause, addr) →
        ∃ t, exec (.xwait g a b) s = .next t ∧
          s.trapsTo t cause addr (dw (c.val + 2 ^ 30 + (k.done + 1).toNat * 2 ^ 32))) ∧
      (s.cx.xr b = 0 → exec (.xstat g d a b) s = s.doneX d (chanStatus s.me c) 4) ∧
      (s.cx.xr b = 1 → exec (.xstat g d a b) s = s.doneX d (match k.fault with
        | some f => f.2
        | none => 0) 4) ∧
      ∀ f run, k.fault = some f → k.running = some run →
        ∃ t, exec (.xclr g a) s = .next t ∧ t.cx.pc = s.cx.pc + 4 ∧
          t.me.chans.get c = { k with
            fault := none, running := none, done := run.req.id, seen := s.chanSeen s.cur c run.req }

/-! ## The matrix slice and groups -/

/-- R141, R144, R145, R150, R151, R154, R302 to R304: MMA posts its operation with the operands and scales of now; MWAIT,
MZERO, MRD, MSTO, GANG and MSTAT. A recorded operation fault is raised by the consumer and cleared. -/
def Obligations.MatrixResults : Prop :=
  ∀ (g : Guard) (c : Fin 8) (n : Fin 4) (d a b : Reg) (fmt : MmaFmt) (s : State), s.guardPasses g = true → s.quiet →
    s.xReady [d, a, b] → s.noStreams [d] →
    let x := s.cx.xr a
    let y := s.cx.xr b
    let size := 2 ^ s.me.glog.toNat
    let sA := s.cx.f.get ⟨c.val, by omega⟩
    let sB := s.cx.f.get ⟨(c.val + 1) % 8, by omega⟩
    let align := if fmt = .xf8 then 4 else 32
    let free := s.me.accFault.get n = none
    let pushed := s.pushesDone s.cur s.curCtx = true
    let does (j : Instr) (P : State → Prop) : Prop := ∃ t, exec j s = .next t ∧ t.cx.pc = s.cx.pc + 4 ∧ s.sameBytes t ∧ P t
    (free → pushed → (hasScales fmt = false → c = 0) → (hasScales fmt = true → scaleGood sA = true ∧ scaleGood sB = true) →
      x.toNat % align = 0 → y.toNat % align = 0 → x.toNat + sizeA fmt size ≤ 0x40000 → y.toNat + sizeB fmt ≤ 0x40000 →
      s.me.mq.length < 4 → does (.mma c n a b fmt) fun t =>
        t.me.mq = s.me.mq ++ [{ fmt := fmt, n := n, glog := s.me.glog.toNat, xa := x, xb := y, sA := sA, sB := sB,
                                ctx := s.curCtx, pc := s.cx.pc, snap := s.me.spad, seen := s.cx.seen }] ∧
        t.me.mHist = s.me.mHist ++ [(s.me.glog.toNat, fmt, n)] ∧ t.me.accs = s.me.accs ∧ t.cx.x = s.cx.x) ∧
    (free → (∀ p ∈ s.me.mq, p.n ≠ n) → (∀ w ∈ s.me.engW, w.acc ≠ some n) →
      does (.mwait g n) (fun t => t.me.accs = s.me.accs ∧ t.cx.x = s.cx.x) ∧
      does (.mzero g n) fun t => (∀ e, (t.me.accs.get n).get e = 0) ∧
        ∀ m, m ≠ n → t.me.accs.get m = s.me.accs.get m) ∧
    (∀ f, s.me.accFault.get n = some f → s.trapFree → ∀ j ∈ [Instr.mwait g n, .mzero g n, .mrd g d n b],
      ∃ t, exec j s = .next t ∧ s.trapsTo t f.cause f.pc (dw (f.fidx + 16 * n.val)) ∧ t.me.accFault.get n = none ∧
        t.me.accs = s.me.accs) ∧
    (free → s.me.mRun = none → does (.mrd g d n b) fun t =>
      (∀ l, l < 32 → lane 32 l (t.cx.v.get d) =
        (s.me.accs.get n).get ⟨(32 * (y.toNat % 8) + l) % 256, Nat.mod_lt _ (by decide)⟩) ∧
      ∀ r, r ≠ d → t.cx.v.get r = s.cx.v.get r) ∧
    (free → pushed → s.me.mRun = none → x.toNat % 8 = 0 →
      (x.toNat + 1024 ≤ 0x40000 → does (.mstoS g n a) fun t => t.me.engW = s.me.engW ++ storeWords x.toNat n
        (((s.me.accs.get n).toList.map fun v => leBytes 4 v.toNat).flatten)) ∧
      (x.toNat + 512 ≤ 0x40000 → does (.mstoBf g n a) fun t => t.me.engW = s.me.engW ++ storeWords x.toNat n
        (((s.me.accs.get n).toList.map fun v =>
          leBytes 2 (bf16.deliver .rne (fp32.val v.toNat).isSig (fp32.val v.toNat)).1).flatten))) ∧
    (s.me.mq = [] → ∀ k, k ≤ 4 → x.toNat = 2 ^ k → does (.gang g a) fun t => t.me.glog.toNat = k ∧ t.me.mHist = []) ∧
    ((∀ k, k ≤ 4 → x.toNat ≠ 2 ^ k) → s.trapFree → ∃ t, exec (.gang g a) s = .next t ∧ s.trapsTo t 0x0D 0 0) ∧
    exec (.mstat g d) s = s.doneX d (matrixStatus s.me) 4

/-- R180 to R182, R184 to R187, R309, R310: the group instructions of a member on a live group. An injection is a release towards
the members that extract its result (R106). CSTAT reports an outcome with the words of its extractions written (R324). CGRP of a
descriptor that no live group has makes the group, in a free slot (which one: log entry 29). That a member of a BROADCAST that is
not its root extracts the root's data is R182, against R310 (log entry 48). Which round an abort ends for a member that has not
injected in it is the model's reading (log entry 74). -/
def Obligations.GroupResults : Prop :=
  ∀ (g : Guard) (d a b : Reg) (i r : Nat) (q : Group) (m : Member) (e : EA) (s u : State), s.guardPasses g = true →
    s.quiet → s.unbound → s.restartable = false → s.xReady [d, a, b] →
    let x := s.cx.xr a
    let y := (s.cx.xr b).toNat
    let round := m.injRound + 1
    let rounds (t : State) (n : Member) : Prop := t.groups.find i = some { q with
      members := listPut q.members r n, seen := q.seen.put round (joinSeen (q.seen.get [] round) s.cx.seen) }
    let does (j : Instr) (P : State → Prop) : Prop := ∃ t, exec j s = .next t ∧ t.cx.pc = s.cx.pc + 4 ∧ s.sameBytes t ∧ P t
    let vec : List Word := (upto q.count).map fun l =>
      if q.ty = 2 then (lane 16 l (s.cx.v.get b)).setWidth 32 else lane 32 l (s.cx.v.get b)
    let spad : List Word := (upto q.count).map fun l =>
      BitVec.ofNat 32 (s.me.spad.readNat (y + q.esize * l) q.esize)
    let injected (held : Bool) (xs : List Word) (t : State) : Prop :=
      rounds t { m with inj := some xs, held := held, injRound := round } ∧ t.me.lastGroup = some i ∧
      t.me.heldInj = (if held then s.me.heldInj ++ [i] else s.me.heldInj) ∧ t.cx.x = s.cx.x
    let inRange := y % 8 = 0 ∧ y + q.count * q.esize ≤ 0x40000
    let last := q.members.foldl (fun n k => max n k.injRound) 0
    (s.reaches x 64 .load e u → u.groups.find? (fun p => p.2.live && p.2.desc == x) = some (i, q) →
      q.rankOf s.cur = some r → ∃ t, exec (.cgrp g d a) s = .next t ∧ t.cx.pc = s.cx.pc + 4 ∧
        t.cx.x = (s.cx.setX d (dw (i + q.gen.toNat * 2 ^ 16))).x) ∧
    (∀ (ws : List DWord) (ls : List Byte) (j : Nat) (v w z : State),
      let w0 := (ws.getD 0 0).toNat
      let n := w0 / 2 ^ 32 % 2 ^ 14
      let cores := (List.range n).map fun k => leNat ((ls.drop (2 * k)).take 2)
      s.reaches x 64 .load e u → (∀ p ∈ u.groups, p.2.live = true → p.2.desc ≠ x) → u.readWaits e 0 8 = .ok (ws, v) →
      descGood ws = true → v.readList (ws.getD 1 0) (2 * n) (n / 4 + 2) = .ok (ls, w) → (∀ k ∈ cores, k < 8192) →
      cores.Nodup → s.cur.val ∈ cores → w.freeGroup = (some j, z) →
      ∃ t p, exec (.cgrp g d a) s = .next t ∧ t.cx.pc = s.cx.pc + 4 ∧ t.groups.find j = some p ∧
        t.cx.x = (s.cx.setX d (dw (j + p.gen.toNat * 2 ^ 16))).x ∧
        p.gen = (match z.groups.find j with
          | some old => old.gen + 1
          | none => 1) ∧
        p.live = true ∧ p.desc = x ∧ p.op = w0 % 8 ∧ p.ty = w0 / 8 % 4 ∧ p.kind = w0 / 32 % 8 ∧ p.count = w0 / 256 % 128 ∧
        p.root = w0 / 2 ^ 16 % 2 ^ 13 ∧ p.aborted = false ∧ p.members.map (fun k => k.core) = cores ∧
        ∀ k ∈ p.members, k.joined = decide (k.core = s.cur.val) ∧ k.freed = false ∧ k.injRound = 0 ∧ k.outRound = 0) ∧
    (s.groupOf x = .ok (i, q, r, m) →
      (m.injRound = m.outRound → m.inj = none → q.abortedAt r = false → s.noStreams [b] →
        does (.cinj g a b) (injected false vec) ∧ does (.cinjHld g a b) (injected true vec)) ∧
      (m.injRound = m.outRound → m.inj = none → q.abortedAt r = false → inRange → s.cx.latch = none →
        s.sound y (q.count * q.esize) →
        does (.cinjx g a b) (injected false spad) ∧ does (.cinjxHld g a b) (injected true spad)) ∧
      (m.injRound = m.outRound → m.injRound ≠ 0 → m.outRes = true → q.receives r = true → q.count ≠ 0 → s.noStreams [d] →
        does (.cext g d a) fun t => (∀ k, k ≠ d → t.cx.v.get k = s.cx.v.get k) ∧
          (q.ty = 2 → ∀ l, l < 64 → lane 16 l (t.cx.v.get d) = (m.data.getD l 0).setWidth 16) ∧
          (q.ty ≠ 2 → ∀ l, l < 32 → lane 32 l (t.cx.v.get d) = m.data.getD l 0)) ∧
      (m.injRound ≠ 0 → inRange → does (.cextx g a b) fun t =>
        (m.injRound = m.outRound → t.me.engW = s.me.engW ++ q.extWrites i y (q.dataOf r m) ∧ t.me.extx = s.me.extx) ∧
        (m.injRound ≠ m.outRound → t.me.engW = s.me.engW ∧
          t.me.extx = s.me.extx ++ [{ grp := i, rank := r, round := m.injRound, addr := y, ctx := some s.curCtx }])) ∧
      (∃ t, exec (.cstat g d a) s = .next t ∧ t.cx.pc = s.cx.pc + 4 ∧
        t.cx.x = (s.cx.setX d (groupStatus q m)).x ∧ t.me.engW = s.me.engW.filter fun w => w.grp != some i) ∧
      (m.injRound = m.outRound → q.aborted = false → does (.cabort g a) fun t => ∃ p, t.groups.find i = some p ∧
        p.aborted = true ∧ r ∉ p.aborting ∧ p.members = if m.outRound < last then
          listPut q.members r { m with outRes := false, rounds := m.rounds + 1 } else q.members) ∧
      (q.aborted = true → exec (.cabort g a) s = .next (s.retire 4)) ∧
      does (.cfree g a) fun t => ∃ p, t.groups.find i = some p ∧ p.members = listPut q.members r { m with freed := true } ∧
        (p.live = false ↔ ∀ k ∈ p.members, k.freed = true))

/-! ## Sending, the routine table, counters -/

/-- R15, R21, R47, R285 to R291: SEND and its kin put an event with their payload and tag into the send queue, with the core's
next sequence number or, in a restartable reaction on a core that logs, the next of that reaction's own 256; a 257th is 0x08.
SENDH writes its message into the ring of its host queue and the new tail behind the ring (R352), MCAST hands a block to a group's
members. That the tail has 32 bits is log entry 93. -/
def Obligations.SendResults : Prop :=
  ∀ (g : Guard) (d a b : Reg) (s : State), s.guardPasses g = true → s.quiet → s.unbound →
    s.xReady [a, b, d, regPlus d 0, regPlus d 1, regPlus d 2, regPlus d 3] →
    let dest := s.cx.xr a
    let delta := s.cx.xr b
    let now := s.cx.tnow
    let tag : Tag := if delta = 0 then { t := now.t, m := if now.m = BitVec.allOnes 32 then now.m else now.m + 1 }
      else { t := BitVec.ofNat 64 (min (now.t.toNat + delta.toNat) (2 ^ 64 - 1)), m := 0 }
    let sends (i : Instr) (p : Payload) : Prop := ∃ t e, exec i s = .next t ∧ t.cx.pc = s.cx.pc + 4 ∧ s.sameBytes t ∧
      t.me.sendQ = s.me.sendQ ++ [e] ∧ e.ctx = s.curCtx ∧ e.ev.dest = dest ∧ e.ev.tag = tag ∧ e.ev.payload = p ∧
      ((∀ r, s.cx.run = some r → r.seqBase = none) → e.ev.seq = s.me.seq ∧ t.me.seq = s.me.seq + 1) ∧
      (∀ r n, s.cx.run = some r → r.seqBase = some n → e.ev.seq = n + BitVec.ofNat 32 r.sends ∧ t.me.seq = s.me.seq ∧
        t.cx.run = some { r with sends := r.sends + 1 }) ∧
      e.ev.restartable = s.restartable ∧ t.cx.x = s.cx.x
    let w (k : Nat) : DWord := s.cx.xr (regPlus d k)
    let blk := s.cx.xr d
    let at_ := blk.toNat % 2 ^ 18
    let len := blk.toNat / 2 ^ 32 % 2 ^ 12
    let block := blk.toNat = at_ + len * 2 ^ 32 ∧ 8 ≤ len ∧ len ≤ 2048 ∧ len % 8 = 0 ∧ at_ % 8 = 0 ∧ at_ + len ≤ 0x40000
    (s.sendsLeft = false → s.trapFree → ∀ i ∈ [Instr.send g d a b, .send2 g d a b, .send4 g d a b, .sendv g d a b,
      .sendb g d a b], ∃ t, exec i s = .next t ∧ s.trapsTo t 0x08 0 0 ∧ t.me.sendQ = s.me.sendQ) ∧
    (s.descFault dest = none → s.sendsLeft = true → s.me.sendQ.length < 32 →
      sends (.send g d a b) (.words [w 0]) ∧ sends (.send2 g d a b) (.words [w 0, w 1]) ∧
      sends (.send4 g d a b) (.words [w 0, w 1, w 2, w 3]) ∧
      (s.noStreams [d] → sends (.sendv g d a b) (.vector (s.cx.v.get d))) ∧
      (block → s.cx.latch = none → s.sound at_ len → s.me.blockBytes + len ≤ 16384 →
        sends (.sendb g d a b) (.block (s.me.spad.read at_ len)))) ∧
    (s.restartable = false → ∀ h : dest.toNat < 16,
      let i : Fin 17 := ⟨dest.toNat, by omega⟩
      (s.hostQ.get i).credit = true → ∃ t, exec (.sendh g d a) s = .next t ∧ t.cx.pc = s.cx.pc + 4 ∧ t.cx.x = s.cx.x ∧
        (t.hostQ.get i).tail = (s.hostQ.get i).tail + 1 ∧ t.msix = (s.hostQ.get i).cfg.toNat / 16 % 2 ^ 11 :: s.msix ∧
        (∀ c k, (t.core c).spad.get k = (s.core c).spad.get k) ∧
        let size := 2 ^ ((s.hostQ.get i).cfg.toNat % 16 + 4)
        let base := (s.hostQ.get i).base.toNat
        let entry := 2 ^ 50 + base + 64 * ((s.hostQ.get i).tail.toNat % size)
        let shadow := 2 ^ 50 + base + 64 * size
        let words : List DWord :=
          [s.originOf s.cur s.curCtx.val, now.t, dw (now.m.toNat + dest.toNat * 2 ^ 32), 0, w 0, w 1, w 2, w 3]
        s.mem.wf = true → base + 64 * size + 8 ≤ 2 ^ 50 →
        (∀ k, k < 8 → t.mem.readNat (entry + 8 * k) 8 = (words.getD k 0).toNat) ∧
        t.mem.readNat shadow 8 = ((s.hostQ.get i).tail + 1).toNat ∧
        ∀ k, k < entry ∨ entry + 64 ≤ k → k < shadow ∨ shadow + 8 ≤ k → t.mem.get k = s.mem.get k) ∧
    ∀ i q r m, s.restartable = false → s.groupOf dest = .ok (i, q, r, m) → q.kind = 5 → block → s.cx.latch = none →
      s.sound at_ len → delta.toNat % 8 = 0 → q.members ≠ [] →
      delta.toNat + (q.members.length + 63) / 64 * 8 ≤ 0x40000 →
      ∃ t, exec (.mcast g d a b) s = .next t ∧ t.cx.pc = s.cx.pc + 4 ∧ t.cx.x = s.cx.x ∧ s.sameBytes t ∧
        t.mcasts = s.mcasts ++ [{ id := s.reqCtr, members := q.members.map Member.core, core := s.cur,
                                  record := delta.toNat }]

/-- R292 to R297, R23, R37: the routine table. A change waits in the pending register of its slot; HOLD and RLSE act at once,
and RLSE leaves the slot's own bit; CAPQ asks a core for a capability. -/
def Obligations.SlotResults : Prop :=
  ∀ (g : Guard) (d a b : Reg) (r : BindRec) (s : State), s.guardPasses g = true → s.restartable = false →
    s.xReady [d, a, b] → ∀ h : (s.cx.xr a).toNat < 64,
    let i : Fin 64 := ⟨(s.cx.xr a).toNat, h⟩
    let y := s.cx.xr b
    let old := s.me.slots.get i
    let open_ := old.pending = none ∧ old.waiting = []
    let sets (j : Instr) (x : Vector DWord 32) (P : Slot → Prop) : Prop := ∃ t, exec j s = .next t ∧
      t.cx.pc = s.cx.pc + 4 ∧ t.cx.x = x ∧ s.sameBytes t ∧ P (t.me.slots.get i) ∧
      ∀ k, k ≠ i → t.me.slots.get k = s.me.slots.get k
    let w (k : Nat) : DWord := BitVec.ofNat 64 (s.me.spad.readNat (y.toNat + 8 * k) 8)
    (y.toNat % 8 = 0 → y.toNat + 32 ≤ 0x40000 → s.cx.latch = none → s.sound y.toNat 32 →
      bindRec (w 0) (w 1) (w 2) (w 3) = some r → r.code.getLsbD 0 = false →
      open_ → sets (.bindS g d a b) (s.cx.setX d ((old.gen + 1).setWidth 64)).x
        fun t => t = { old with pending := some (.bind r none) }) ∧
    (open_ → sets (.unbind g a) s.cx.x fun t => t = { old with pending := some (.unbind none) }) ∧
    (open_ → s.me.armGood y = true →
      let arm : SlotChange := .arm (y.toNat % 32) (BitVec.ofNat 16 (y.toNat / 2 ^ 16)) (BitVec.ofNat 18 (y.toNat / 2 ^ 32)) none
      sets (.arm g a b) s.cx.x fun t => t = { old with pending := some arm }) ∧
    (¬open_ → s.me.armGood y = true → ∀ j, j = Instr.unbind g a ∨ j = .arm g a b →
      ∃ t, exec j s = .next t ∧ t.cx = { s.cx with stop := .waiting } ∧ t.me.slots = s.me.slots) ∧
    sets (.hold g a b) s.cx.x (fun t => t = { old with hold := old.hold ||| y }) ∧
    sets (.rlse g a b) s.cx.x (fun t => ∃ v, t = { old with hold := v } ∧ ∀ k, k < 64 →
      v.getLsbD k = (old.hold.getLsbD k && (!y.getLsbD k || k == i.val))) ∧
    (old.pending = none → exec (.genrd g d a) s = s.doneX d (dw (old.gen.toNat + (if old.bound then 256 else 0) +
      (old.gen + 1).toNat * 2 ^ 16)) 4) ∧
    (s.hasPlace → s.isLocal y = true ∨ (descDev y).toNat % 2 ^ 14 = s.devCoord.toNat % 2 ^ 14 ∧
      s.unreachable (descDev y) = false →
      ∃ t q, exec (.capq g d a b) s = .next t ∧ t.cx.pc = s.cx.pc + 4 ∧
      t.cx.reqs = s.cx.reqs ++ [q] ∧ q.kind = .capq ∧ q.va = s.cx.xr a ∧ q.data = y ∧
      q.dest = (if d = 0 then none else some d) ∧ q.reply = none ∧ q.fault = none)

/-- R44, R45, R298 to R300, R41, R295: CNTDN, CANCEL and CNTRD of a counter, a bad name being 0x02; TICKET and POOLCFG; START of a
record that the launch unit accepts is answered with the launch counter, of one that it refuses with all ones. In a launch under
DET a TICKET stops its context until a round closes (R109, R110). CNTDN of a count of 1 completes the counter: a launch ends, a
parent counts down (R350, R351). What the launch unit makes of a record is the model's reading (log entries 41 and 55), and so is
that a TICKET pulls its index as it issues (log entry 53). -/
def Obligations.CounterResults : Prop :=
  ∀ (g : Guard) (d a : Reg) (n : Nat) (e : EA) (s u w : State), s.guardPasses g = true → s.restartable = false →
    s.quiet → s.unbound → s.xReady [d, a] →
    let x := s.cx.xr a
    let c := s.counter n
    let seen := joinSeen c.seen s.cx.seen
    let answered (j : Instr) (v : DWord) : Prop := ∃ t q, exec j s = .next t ∧ t.cx.pc = s.cx.pc + 4 ∧ t.cx.reqs = [q] ∧
      q.kind = .ticket ∧ q.dest = (if d = 0 then none else some d) ∧ q.reply = some v
    (counterOf x = some n → c.canc = false → 2 ≤ c.count.toNat → ∃ t, exec (.cntdn g a) s = .next t ∧
      t.cx.pc = s.cx.pc + 4 ∧ t.counter n = { c with count := c.count - 1, seen := seen } ∧ s.sameBytes t) ∧
    (counterOf x = some n → c.canc = false → c.count = 0 → ∃ t, exec (.cntdn g a) s = .next t ∧
      t.cx.pc = s.cx.pc + 4 ∧ t.counter n = { c with ufl := true, seen := seen } ∧ s.sameBytes t) ∧
    (counterOf x = some n → c.canc = false → c.count = 1 →
      (c.parent = none → ∃ t, exec (.cntdn g a) s = .next t ∧ t.cx.pc = s.cx.pc + 4 ∧ t.cx.x = s.cx.x ∧
        (t.counter n).count = 0 ∧ (t.counter n).done = true ∧ (t.counter n).ufl = c.ufl ∧
        (n < 4096 → t.launches.find n = none)) ∧
      ∀ p, c.parent = some p → p ≠ n → (s.counter p).canc = false → 2 ≤ (s.counter p).count.toNat →
        ∃ t, exec (.cntdn g a) s = .next t ∧ t.cx.pc = s.cx.pc + 4 ∧ (t.counter n).count = 0 ∧ (t.counter n).done = true ∧
        (t.counter p).count = (s.counter p).count - 1 ∧ (n < 4096 → t.launches.find n = none)) ∧
    (counterOf x = some n → c.count ≠ 0 → ∃ t, exec (.cancel g a) s = .next t ∧ (t.counter n).canc = true) ∧
    (counterOf x = some n → c.count = 0 → exec (.cancel g a) s = .next (s.retire 4)) ∧
    (counterOf x = some n → exec (.cntrd g d a) s = s.doneX d (dw (c.count.toNat + (if c.ufl then 2 ^ 32 else 0) +
      (if c.canc then 2 ^ 33 else 0) + (if c.done then 2 ^ 34 else 0))) 4) ∧
    (counterOf x = none → s.trapFree → ∀ j ∈ [Instr.cntdn g a, .cancel g a, .cntrd g d a],
      ∃ t, exec j s = .next t ∧ s.trapsTo t 0x02 0 0) ∧
    (s.cx.run = none → s.me.det = false → answered (.ticket g d) (BitVec.allOnes 64)) ∧
    (s.me.det = true → ∃ t q, exec (.ticket g d) s = .next t ∧ t.cx.pc = s.cx.pc + 4 ∧ t.cx.reqs = [q] ∧ q.kind = .ticket ∧
      q.sent = false ∧ q.reply = none ∧ t.cx.stop = .ordered) ∧
    (∀ r k, s.cx.run = some r → s.me.det = false → r.pool = true → s.pull s.cur r.lcnt = (some k, w) →
      answered (.ticket g d) (dw k)) ∧
    (∀ r l, s.cx.run = some r → s.launches.find r.lcnt = some l → l.poolN ≠ 0 → x = 0 →
      exec (.poolcfg g d a) s = s.doneX d (dw l.poolN) 4) ∧
    (∀ i l, s.cx.run = none → s.cx.setup = some i → s.launches.find i = some l → l.poolN ≠ 0 → x = 0 →
      exec (.poolcfg g d a) s = s.doneX d (dw l.poolN) 4) ∧
    (s.cx.run = none → s.cx.setup = none → x.toNat < 4 → exec (.poolcfg g d a) s = s.doneX d 0 4) ∧
    (s.reaches x 64 .load e u →
      let tag : Tag := { t := s.cx.tnow.t, m := if s.cx.tnow.m = BitVec.allOnes 32 then s.cx.tnow.m else s.cx.tnow.m + 1 }
      let die := dieIx s.cur.val
      u.recordStalls die e.va.toNat = false →
      let goes (v : DWord) : Out :=
        let z := w.post { w.newReq .start e.va e.pa 64 d 0 0 with reply := some v }
        .next ((z.setupGo die (z.setupFuel die)).retire 4)
      (∀ l, u.handleRecord die e.va tag u.cx.seen = (.ok l, w) → exec (.startL g d a) s = goes (dw l)) ∧
      ∀ why, u.handleRecord die e.va tag u.cx.seen = (.error why, w) → exec (.startL g d a) s = goes (BitVec.allOnes 64))

/-- R189 to R191, R271, R109: the object instructions on an OBJ page issue a request that goes to the object's home along the
mesh, or under DET waits with its context for the close of a round; an OPOP is an acquire, before whose reply no later access is
sent (R95); the sentinel is not pushed (0x16, FINFO 0), a page without OBJ is 0x16 with FINFO 1, a misaligned address 0x05. That a
page with V comes first is the model's reading (log entry 50). -/
def Obligations.ObjectResults : Prop :=
  ∀ (g : Guard) (d a b : Reg) (e : EA) (s u : State), s.guardPasses g = true → s.restartable = false → s.quiet →
    s.unbound → s.xReady [d, a, b] →
    let va := s.cx.xr a
    let y := s.cx.xr b
    let issues (j : Instr) (op : ReqKind) (v : DWord) : Prop := ∃ t q, exec j s = .next t ∧ t.cx.pc = s.cx.pc + 4 ∧
      t.cx.reqs = [q] ∧ q.kind = op ∧ q.va = va ∧ q.pa = e.pa ∧ q.data = v ∧ q.dest = (if d = 0 then none else some d) ∧
      q.reply = none ∧ q.fault = none ∧ q.gate = (op == .opop) ∧ t.cx.x = s.cx.x ∧ s.sameBytes t ∧
      (s.me.det = false → ∃ m, t.objMsgs = s.objMsgs ++ [m] ∧ m.op = op ∧ m.pa = e.pa ∧ m.value = v ∧ m.req = q.id ∧
        m.core = s.cur ∧ m.ctx = s.curCtx) ∧
      (s.me.det = true → t.cx.stop = .ordered ∧ q.sent = false ∧ t.objMsgs = s.objMsgs)
    let traps (j : Instr) (cause : Byte) (info : Nat) : Prop := ∃ t, exec j s = .next t ∧ s.trapsTo t cause va (dw info)
    (va.toNat % 64 = 0 → s.reaches va 64 .store e u → e.isV = false → e.isObj = true →
      s.paUnreachable e.pa = false →
      (y ≠ 0x8000000000000000 → issues (.opush g d a b) .opush y) ∧ issues (.opop g d a) .opop 0 ∧
      issues (.ocnt g d a) .ocnt 0) ∧
    (va.toNat % 64 = 0 → s.reaches va 64 .store e u → e.isV = false → e.isObj = true → s.trapFree →
      y = 0x8000000000000000 → traps (.opush g d a b) 0x16 0) ∧
    (va.toNat % 64 = 0 → s.reaches va 64 .store e u → e.isV = false → e.isObj = false → s.trapFree →
      traps (.opush g d a b) 0x16 1 ∧ traps (.opop g d a) 0x16 1 ∧ traps (.ocnt g d a) 0x16 1) ∧
    (va.toNat % 64 ≠ 0 → s.trapFree →
      traps (.opush g d a b) 0x05 0 ∧ traps (.opop g d a) 0x05 0 ∧ traps (.ocnt g d a) 0x05 0)

/-- R49, R50, R311 to R313: the crossbar's and the performance counters' registers, ECPULSE and TLBI. What ECW and PCFG write, and
the pulse of ECPULSE, take effect with the next cycle (R312). What a counter of an event inside caches and compressors reads is
open (log entry 25). -/
def Obligations.CrossbarResults : Prop :=
  ∀ (g : Guard) (d a b : Reg) (s : State), s.guardPasses g = true → s.restartable = false → s.xReady [d, a, b] →
    let x := (s.cx.xr a).toNat
    let v := s.cx.xr b
    let does (j : Instr) (P : State → Prop) : Prop := ∃ t, exec j s = .next t ∧ t.cx.pc = s.cx.pc + 4 ∧ t.cx.x = s.cx.x ∧
      s.sameBytes t ∧ P t
    let calm := ∀ k ∈ s.cores, k.2.hasSoon = false
    (x < 19 → xbarReserved x v = false → does (.ecw g a b) fun t =>
      t.me.xbar = { s.me.xbar with soon := s.me.xbar.soon ++ [(x, v)] } ∧ (calm →
        let z := t.nextCycle.me.xbar
        z.read x = (if 4 ≤ x ∧ x < 12 then dw (v.toNat % 2 ^ 24) else v) ∧
        (∀ k, k < 19 → k ≠ x → z.read k = s.me.xbar.read k) ∧
        ∀ h : x < 4, (z.cnt.get ⟨x, h⟩).cur = (z.cnt.get ⟨x, h⟩).reload)) ∧
    (x < 19 → exec (.ecr g d a) s = s.doneX d (s.me.xbar.read x) 4) ∧
    (∀ h : x < 4, exec (.eccnt g d a) s = s.doneX d ((s.me.xbar.cnt.get ⟨x, h⟩).cur.setWidth 64) 4) ∧
    (s.me.xbar.pulseCounts = false ∨ s.quiet ∧ s.unbound → does (.ecpulse g) fun t =>
      t.me.xbar.pulse.isSome = true ∧ t.me.xbar.cnt = s.me.xbar.cnt ∧
      (calm → (∀ k, (s.me.xbar.term.get k).en = false) → ∀ k,
        let c := s.me.xbar.cnt.get k
        (t.nextCycle.me.xbar.cnt.get k).cur =
          if c.src = 15 ∧ c.reload ≠ 0 ∧ c.cur ≠ 0 then (if c.cur = 1 then c.reload else c.cur - 1) else c.cur)) ∧
    (∀ h : x < 8, does (.pcfg g a b) (fun t => t.me.pcfg = s.me.pcfg ∧ (calm →
        t.nextCycle.me.pcfg.get ⟨x, h⟩ = v.setWidth 16 ∧
        ∀ k, k ≠ ⟨x, h⟩ → t.nextCycle.me.pcfg.get k = s.me.pcfg.get k)) ∧
      (hiddenEvent s.cur (s.me.pcfg.get ⟨x, h⟩) = true → s.me.pcntAt.get ⟨x, h⟩ ≠ s.cycle →
        exec (.prd g d a) s =
          (s.settleCount s.cur ⟨x, h⟩).doneX d (s.me.pcnt.get ⟨x, h⟩ + Config.free 64 s.freeCtr) 4) ∧
      (hiddenEvent s.cur (s.me.pcfg.get ⟨x, h⟩) = false ∨ s.me.pcntAt.get ⟨x, h⟩ = s.cycle →
        exec (.prd g d a) s = s.doneX d (s.me.pcnt.get ⟨x, h⟩) 4)) ∧
    (x < 256 → does (.prst g a) fun t => ∀ k, s.me.pcfg.get k ≠ 2 →
      t.me.pcnt.get k = if (s.cx.xr a).getLsbD k.val then 0 else s.me.pcnt.get k) ∧
    let scope := v.toNat / 2 ^ 32
    let pages := v.toNat % 2 ^ 32
    let base := x % 2 ^ 56 / 65536 * 65536
    let named (k : Nat) : Prop := scope = 1 ∧ k = s.cur.val ∨ scope = 2 ∧ k / 16 = s.cur.val / 16 ∨
      scope = 3 ∧ k / 2048 = s.cur.val / 2048 ∨ scope = 4
    let named2 (l : Nat) : Prop := scope ≤ 2 ∧ l = s.cur.val / 16 ∨ scope = 3 ∧ l / 128 = s.cur.val / 2048 ∨ scope = 4
    let stays (k : TlbEnt) : Prop := pages ≠ 0 ∧ (base + pages * 65536 ≤ k.va ∨ k.va + 2 ^ k.log ≤ base)
    (1 ≤ scope → scope ≤ 4 → does (.tlbi g a b) fun t =>
      (∀ c : CoreId, (¬named c.val → (t.core c).tlb = (s.core c).tlb) ∧
        (named c.val → ∀ k, k ∈ (t.core c).tlb ↔ k ∈ (s.core c).tlb ∧ stays k)) ∧
      ∀ l, (¬named2 l → t.ltlb.get [] l = s.ltlb.get [] l) ∧
        (named2 l → ∀ k, k ∈ t.ltlb.get [] l ↔ k ∈ s.ltlb.get [] l ∧ stays k))

/-! ## Happenings: requests and memory -/

/-- R253, R92, R98, R100, R65, R66, R353, R71, R72, R75, R270, R297: what becomes of a request beyond its core, at its place in
the requests of a context. A write that meets an overflowed line is held there and wakes the home context. A request that meets a
fault stays among those outstanding, with the fault. An atomic takes the path that was chosen as its address was translated (log
entry 94). `bare` leaves out what the model notes of a request's predecessors. -/
def Obligations.RequestHappenings : Prop :=
  ∀ (c : CoreId) (h : CtxId) (k : Nat) (q : Req) (s : State), s.reqAt c h k = some q → q.fault = none → s.mem.wf = true →
    s.cowActive = false →
    let x := (s.core c).ctx h
    let bare (l : List Req) : List Req := l.map fun r => { r with seen := [] }
    let gone (t : State) : Prop := bare ((t.core c).ctx h).reqs = bare (x.reqs.filter fun r => r.id ≠ q.id)
    let takes (t : State) (v : DWord) : Prop := gone t ∧ ((t.core c).ctx h).x = (match q.dest with
      | some d => (x.setX d v).x
      | none => x.x)
    let stays (t : State) : Prop := ∃ r ∈ ((t.core c).ctx h).reqs, r.id = q.id
    let fails (t : State) (cause : Byte) : Prop := stays t ∧ ∀ r ∈ ((t.core c).ctx h).reqs, r.id = q.id →
      r.fault = some ⟨cause, q.va, 0⟩
    let now := s.mem.readNat q.pa q.size
    let word := BitVec.ofNat 64 (s.mem.readNat q.pa 8)
    let wrote (t : State) (n v : Nat) : Prop := t.mem.readNat q.pa n = v % 2 ^ (8 * n) ∧
      ∀ m, m < q.pa ∨ q.pa + n ≤ m → t.mem.get m = s.mem.get m
    (∀ v, q.reply = some v → ∃ t, exec (.splitPhaseReply c h k) s = .next t ∧ takes t v ∧ t.mem = s.mem) ∧
    (∀ sg, q.kind = .load sg → q.reply = none → q.aux = 0 → isRemote q.pa = false → s.bankAway q.pa = false →
      s.lineHeld q.pa = false → s.isLost q.pa = false → s.objs = [] → s.past = [] → (∀ r ∈ x.reqs.take k, r.meets q = false) →
      s.pushPending c h q.va q.pa q.size q.id = false → ∃ t, exec (.splitPhaseReply c h k) s = .next t ∧
        takes t (if sg then (BitVec.ofNat (8 * q.size) now).signExtend 64 else (BitVec.ofNat (8 * q.size) now).setWidth 64) ∧
        t.mem = s.mem) ∧
    (q.kind = .store → isRemote q.pa = false → s.writeOpen c h k q = true →
      (s.overflowed q.pa = false → ∃ t, exec (.storeGrant c h k) s = .next t ∧ gone t ∧ wrote t q.size q.data.toNat) ∧
      (s.overflowed q.pa = true → s.lineHeld q.pa = false → ∃ t, exec (.storeGrant c h k) s = .next t ∧
        t.lineHeld q.pa = true ∧ ((t.core (homeCore (homeLanding q.pa))).ctx 11).live = true ∧ t.mem = s.mem)) ∧
    (∀ op, q.kind = .atomic op → q.fb = none → q.reply = none → q.obj = false → isRemote q.pa = false →
      s.overflowed q.pa = false → s.writeOpen c h k q = true → q.queue = false → s.isLost q.pa = false →
        ∃ t v, exec (.atomicAtHome c h k) s = .next t ∧
        takes t word ∧ wrote t 8 (BitVec.toNat v) ∧
        (op = 0 ∨ op = 9 → v = word + q.data) ∧ (op = 1 ∨ op = 10 → v = word &&& q.data) ∧
        (op = 2 ∨ op = 11 → v = word ||| q.data) ∧ (op = 3 ∨ op = 12 → v = word ^^^ q.data) ∧
        (op = 4 ∨ op = 13 → v = if word.toInt < q.data.toInt then word else q.data) ∧
        (op = 5 ∨ op = 14 → v = if q.data.toInt < word.toInt then word else q.data) ∧
        (op = 6 → v = if word.toNat < q.data.toNat then word else q.data) ∧ (op = 7 → v = q.data) ∧
        (op = 8 → v = if word = q.aux then q.data else word)) ∧
    (∀ op, q.kind = .atomic op → q.fb = none → q.reply = none → q.obj = false → inHost q.pa = true →
      s.writeOpen c h k q = true → q.queue = false → ∃ t, exec (.atomicopUnsupported c h k) s = .next t ∧
        q.pa / 4096 ∈ t.hostPages.get (dieIx c.val) ∧ (q.ha = false → fails t 0x17 ∧ t.mem = s.mem) ∧
        (q.ha = true → (s.hostQ.get 16).credit = false → t.mem = s.mem ∧ stays t ∧
          ∀ r ∈ ((t.core c).ctx h).reqs, r.id = q.id → r.obj = true ∧ r.fb = q.fb)) ∧
    (q.kind = .stv → (∀ r ∈ x.reqs.take k, r.fault ≠ none ∨ r.reply ≠ none) → s.pushesDone c h = true →
      s.bankAway q.pa = false →
      let w := s.verAt q.pa
      (w.vers.find? (fun p => p.1 == q.aux.toNat) = none → s.mark q.pa q.va ≤ q.aux.toNat → w.vers.length < 4 →
        s.homeStoreFree q.pa = true → ∃ t, exec (.stvApply c h k) s = .next t ∧ gone t ∧
          (q.aux.toNat, q.data) ∈ (t.verAt q.pa).vers ∧ (∀ p ∈ w.vers, p ∈ (t.verAt q.pa).vers) ∧ t.mem = s.mem) ∧
      (w.vers.find? (fun p => p.1 == q.aux.toNat) = none → q.aux.toNat < s.mark q.pa q.va →
        ∃ t, exec (.stvApply c h k) s = .next t ∧ fails t 0x0B ∧ t.vers = s.vers)) ∧
    (q.kind = .recl → s.mark q.pa q.va < q.aux.toNat → ∃ t, exec (.reclApply c h k) s = .next t ∧ gone t ∧
      t.mark q.pa q.va = q.aux.toNat) ∧
    (q.kind = .capq → s.isLocal q.data = true → ∃ t, exec (.capqAnswer c h k) s = .next t ∧
      takes t (if s.capHeld (descCore q.data) (regionOf q.va) then 1 else 0)) ∧
    ∀ m, s.capMsgs = [m] →
      ((s.core m.dst).caps.length < 64 → ∃ t, exec (.capabilityArrival 0) s = .next t ∧ t.capMsgs = [] ∧
        (t.core m.dst).caps = (s.core m.dst).caps ++ [(m.region, m.lcnt)]) ∧
      (64 ≤ (s.core m.dst).caps.length → m.refused = false → ∃ t, exec (.capabilityArrival 0) s = .next t ∧
        t.capMsgs = [{ m with src := m.dst, dst := m.src, refused := true }] ∧ t.cores = s.cores)

/-- R253, R84, R90, R92, R67, R71, R74, R261, R266, R361, R367: replies of loads, and requests that leave the module. A load
returns what stood at its place at some instant that is not before what its context knows, or its own pending store; an LDC
of a line that is not cached what stands there; LDV and LDVN a version, and a plain load of a versioned word the newest. A load
of a
lost line meets 0x18 and stays outstanding. An access of another module's memory leaves as one packet and stays outstanding. Which
instants those are, with the fields that keep them (past, seen), is log entry 6; that a versioned load waits for an own STV before
it is log entry 90. -/
def Obligations.LoadHappenings : Prop :=
  ∀ (c : CoreId) (h : CtxId) (k : Nat) (q : Req) (s : State), s.reqAt c h k = some q → q.fault = none → q.reply = none →
    let x := (s.core c).ctx h
    let bare (l : List Req) : List Req := l.map fun r => { r with seen := [] }
    let earlier := s.openBefore c h k
    let mine (t : State) : List Req := ((t.core c).ctx h).reqs.filter fun r => r.id == q.id
    let takes (v : DWord) (t : State) : Prop := bare ((t.core c).ctx h).reqs = bare (x.reqs.filter fun r => r.id ≠ q.id) ∧
      ((t.core c).ctx h).x = (match q.dest with
        | some d => (x.setX d v).x
        | none => x.x) ∧ t.mem = s.mem
    let fails (cause : Byte) (t : State) : Prop := mine t ≠ [] ∧ (∀ r ∈ mine t, ∃ i, r.fault = some ⟨cause, q.va, i⟩) ∧
      t.mem = s.mem
    let leaves (t : State) : Prop := t.outbox.length = s.outbox.length + 1 ∧ mine t ≠ [] ∧ (∀ r ∈ mine t, r.sent = true) ∧
      t.mem = s.mem
    let does (i : Instr) (P : State → Prop) : Prop := ∃ t, exec i s = .next t ∧ P t
    let replies : (State → Prop) → Prop := does (.splitPhaseReply c h k)
    let wide (sg : Bool) (n : Nat) : DWord :=
      if sg then (BitVec.ofNat (8 * q.size) n).signExtend 64 else (BitVec.ofNat (8 * q.size) n).setWidth 64
    let loads (sg : Bool) : Prop := q.kind = .load sg ∨ q.kind = .lda sg
    let here := isRemote q.pa = false ∧ s.bankAway q.pa = false ∧ s.lineHeld q.pa = false ∧
      (q.aux.getLsbD 3 = true → s.shareOpen c q.pa = true)
    let plain := q.aux.getLsbD 0 = false ∧ q.aux.getLsbD 1 = false ∧ s.objOpen q.pa q.va q.size = false ∧ s.isLost q.pa = false
    let known := x.seen.get 0 (q.pa / 8)
    (∀ sg, loads sg → here → plain → (∀ r ∈ earlier, r.meets q = false) → s.pushPending c h q.va q.pa q.size q.id = false →
      ∃ n, n ≤ s.past.length ∧ (known ≤ s.past.length → known ≤ n) ∧
        replies (takes (wide sg (leNat (s.readAt n q.pa q.size))))) ∧
    (∀ sg st, loads sg → here → plain → earlier = [st] → st.kind = .store → st.meets q = true → st.pa ≤ q.pa →
      q.pa + q.size ≤ st.pa + st.size →
      replies (takes (wide sg (st.data.toNat / 2 ^ (8 * (q.pa - st.pa)) % 2 ^ (8 * q.size))))) ∧
    (∀ sg, q.kind = .ldc sg → here → s.isLost q.pa = false → s.objOpen q.pa q.va q.size = false →
      (∀ r ∈ earlier, r.meets q = true → r.isLoad = false) →
      KMap.find (s.constC.get [] (landingOf c.val)) (lineOf q.pa) = none →
      replies (takes (wide sg (s.mem.readNat q.pa q.size)))) ∧
    (∀ sg, loads sg ∨ q.kind = .ldc sg → here → s.isLost q.pa = true → replies (fails 0x18)) ∧
    (s.bankAway q.pa = false → s.stvBefore c h k q = false → s.isLost q.pa = false →
      let vers := (s.verAt q.pa).vers
      let n := q.aux.toNat
      (q.kind = .ldv → (∀ p, vers.find? (fun p => p.1 == n) = some p → replies (takes p.2)) ∧
        (vers.find? (fun p => p.1 == n) = none → n < s.mark q.pa q.va → replies (fails 0x0B)) ∧
        (vers.find? (fun p => p.1 == n) = none → s.mark q.pa q.va ≤ n → exec (.splitPhaseReply c h k) s = .next s)) ∧
      (q.kind = .ldvn → vers.Pairwise (fun p r => p.1 < r.1) →
        (∀ p ∈ vers, p.1 ≤ n → (∀ r ∈ vers, r.1 ≤ n → r.1 ≤ p.1) → replies (takes p.2)) ∧
        ((∀ p ∈ vers, n < p.1) → replies (takes 0x8000000000000000)))) ∧
    (∀ sg, q.kind = .load sg → s.loadStops c q = false → q.aux.getLsbD 0 = true → s.isLost q.pa = false →
      s.stvBefore c h k q = false →
      replies (takes (wide sg ((match (s.verAt q.pa).vers.getLast? with
        | some p => p.2
        | none => (0x8000000000000000 : DWord)).toNat / 2 ^ (8 * (q.pa % 8)))))) ∧
    (isRemote q.pa = true → q.sent = false →
      (∀ sg, loads sg ∨ q.kind = .ldc sg → q.aux.getLsbD 0 = false → (∀ r ∈ earlier, r.meets q = false) →
        s.pushPending c h q.va q.pa q.size q.id = false → replies leaves) ∧
      (q.kind = .store → s.writeOpen c h k q = true → does (.storeGrant c h k) leaves) ∧
      ∀ op, q.kind = .atomic op → q.fb = none → s.writeOpen c h k q = true → does (.atomicAtHome c h k) leaves) ∧
    ∀ op, q.kind = .atomic op → q.fb = none → isRemote q.pa = false → s.writeOpen c h k q = true → q.ha = false →
      q.obj = true ∨ q.queue = true → does (.atomicAtHome c h k) (fails 0x17)

/-- R65, R66, R81, R82, R212, R70, R60, R286, R360, R46, R364: the directory, walks, prefetches, the calendar, waiters, waiting
trap records, missed heartbeats. A full/empty waiter that is served, the oldest whose words are as it waits for and which can
issue, and a waiting context that tries again, issue before anything else happens: that their turns stand at the head of the
agenda
is log entry 5. Contexts 11 and 12 do not issue (log entry 16). -/
def Obligations.CoreHappenings : Prop :=
  ∀ (c : CoreId) (h : CtxId) (s : State),
    let k := s.core c
    let x := k.ctx h
    (∀ line, line % 128 = 0 → inHbm line = true → (s.dirAt line).sharers.length = 4 → s.isSharer c line = false →
      s.lineHeld line = false → (s.notices.get [] (homeLanding line)).length < 32 →
      ∃ t, exec (.directoryOverflowNotice line c) s = .next t ∧ t.overflowed line = true ∧ t.isSharer c line = true ∧
        t.notices.get [] (homeLanding line) = s.notices.get [] (homeLanding line) ++ [(line, c.val)] ∧
        ((t.core (homeCore (homeLanding line))).ctx 11).live = true) ∧
    (∀ line, line % 128 = 0 → (s.dir.map Prod.fst).Nodup →
      let z := s.invalidate line
      z.overflowed line = false ∧ (∀ d, z.isSharer d line = false) ∧ z.mem = s.mem ∧
        (s.lineHeld line = true → exec (.overflowInvalidation line) s =
          .next ((State.grantHeld line (s.dirAt line).write z).homeRest (homeLanding line)) ∧
          ((s.dirAt line).write = none → State.grantHeld line none z =
            (z.liveCores.findSome? fun d => State.grantOn line d z).getD z)) ∧
        (s.lineHeld line = false → exec (.overflowInvalidation line) s = .next s)) ∧
    (∀ va, va.toNat < 2 ^ 56 → (∀ e, s.walk c va.toNat = .ok e → ∃ t, exec (.tlbWalkComplete c va) s = .next t ∧
        e ∈ (t.core c).tlb ∧ e ∈ t.ltlb.get [] (landingOf c.val) ∧ t.mem = s.mem) ∧
      ∀ w, s.walk c va.toNat = .error w → exec (.tlbWalkComplete c va) s = .next s) ∧
    (∀ n, (x.b.get n).busy = true → s.prefetchWaits c (x.b.get n) = false → s.codeAway c ((x.b.get n).tgt.setWidth 64) = false →
      s.codeAway c ((x.b.get n).tgt.setWidth 64 + 14) = false →
      ∃ t, exec (.prefetchComplete c h n) s = .next t ∧
        let b := ((t.core c).ctx h).b.get n
        b.ready = true ∧ b.busy = false ∧ b.v = (x.b.get n).v ∧ b.tgt = (x.b.get n).tgt ∧
        ((x.b.get n).nonCanon = true → b.f = 0x07) ∧
        ((x.b.get n).nonCanon = false → (x.b.get n).tgt.getLsbD 0 = true → b.f = 0x05) ∧
        ∀ m, m ≠ n → ((t.core c).ctx h).b.get m = x.b.get m) ∧
    (∃ t, exec .wsRefreshWindow s = .next t ∧ t.mem = s.mem ∧ t.cores = s.cores ∧ ∀ j : Fin 16, t.wsAway = some j ↔
      s.wsPeriod.toNat ≠ 0 ∧
        let r := (((s.jobTime.toNat : Int) - s.wsCal.toInt) % s.wsPeriod.toNat).toNat
        let p := s.wsPeriod.toNat / 16
        j.val = r / p ∧ r - j.val * p < s.wsWindow.toNat) ∧
    (∀ w, k.feWait.find? (fun w => k.allFe w.addr w.full w.n && s.canRetry c w.ctx) = some w →
      exec (.feWaiterService c) s = .next { s with agenda := ⟨0, .waiter c w.ctx⟩ :: s.agenda }) ∧
    (k.feWait.find? (fun w => k.allFe w.addr w.full w.n && s.canRetry c w.ctx) = none →
      exec (.feWaiterService c) s = .next s) ∧
    (x.live = true → x.stop = .waiting → (∀ w ∈ k.feWait, w.ctx ≠ h) →
      exec (.waitSatisfied c h) s = .next { s with agenda := ⟨0, .waiter c h⟩ :: s.agenda }) ∧
    (∀ r rest, (k.ctx 13).live = false → k.recs = r :: rest → ∃ t, exec (.trapEntry c) s = .next t ∧
      (t.core c).trap = r ∧ (t.core c).recs = rest ∧ ((t.core c).ctx 13).live = true ∧
      ((t.core c).ctx 13).pc = k.tvec.setWidth 64 ∧ ((t.core c).ctx 13).beatLeft = k.beatOf 13) ∧
    (x.beats h = true → x.beatLeft = 0 → k.beatOf h ≠ 0 → ∃ t, exec (.heartbeatMissed c h) s = .next t ∧
      (t.core c).fenced = true ∧ t.mem = s.mem) ∧
    ((k.ctx 13).beats 13 = true → (k.ctx 13).beatLeft = 0 → k.beatOf 13 ≠ 0 →
      ∃ t, exec (.trapBudgetExpired c) s = .next t ∧ (t.core c).fenced = true ∧ t.mem = s.mem)

/-! ## Happenings: reactions and events -/

/-- R27 to R32, R41, R37, R45, R25, R110: the selector starts reactions, joins and pooled units, events at the head are discarded,
slot changes take effect, rounds close. A re-run starts the units of a pool event again with their own indices (R48, R369). When a
round may close is the model's reading (log entry 23). -/
def Obligations.ReactionHappenings : Prop :=
  ∀ (c : CoreId) (j : Nat) (e : InEv) (n : Fin 64) (h : CtxId) (l : Nat) (s : State),
    let k := s.core c
    let slot := k.slots.get n
    let group := k.group n e
    let entered (t : State) (evs : List InEv) (pool : Bool) : Prop :=
      let y := (t.core c).ctx h
      y.live = true ∧ y.stop = .no ∧ y.pc = slot.code ∧ y.tnow = e.ev.tag ∧ (t.core c).last = e.ev.tag ∧
      y.x.get 5 = e.ev.origin ∧ y.x.get 28 = k.lx28 ∧ y.x.get 29 = k.lx29 ∧
      y.x.get 31 = dw (k.lstk.toNat + 2048 * h.val) ∧ y.beatLeft = k.beatIv ∧ y.slot = BitVec.ofNat 6 n.val ∧
      y.joinN = BitVec.ofNat 5 evs.length ∧ (∀ i, (y.b.get i).v = false) ∧
      (∃ r, y.run = some r ∧ r.slot = n ∧ r.lcnt = slot.lcnt ∧ r.pool = pool) ∧
      ∀ g, g ≠ h → (t.core c).ctx g = k.ctx g
    (s.selects c = some (j, e, n, h) → e.pool = none →
      (slot.k ≤ 1 → ∃ t, exec (.reactionStart c) s = .next t ∧ entered t [e] false ∧ e ∉ (t.core c).inbox ∧
        ∀ ws, e.ev.payload = .words ws → ((t.core c).ctx h).x.get 1 = ws.getD 0 0 ∧ ((t.core c).ctx h).x.get 2 = ws.getD 1 0 ∧
          ((t.core c).ctx h).x.get 3 = ws.getD 2 0 ∧ ((t.core c).ctx h).x.get 4 = ws.getD 3 0) ∧
      (1 < slot.k → slot.k ≤ group.length → group.head? = some e → ∃ t, exec (.reactionStart c) s = .next t ∧
        entered t (group.take slot.k) false ∧ ((t.core c).ctx h).x.get 7 = slot.jbuf.setWidth 64) ∧
      (1 < slot.k → group.length < slot.k → e.ev.tag.t.toNat + k.horizon + slot.g.toNat ≤ s.clock c →
        group.head? = some e → ∃ t, exec (.joinGraceExpired c) s = .next t ∧ entered t group false)) ∧
    (s.selects c = some (j, e, n, h) → e.pool = some l → s.isDet l = false →
      (∀ ix w, e.units = [] → e.spent = false → s.pull c l = (some ix, w) →
        ∃ t, exec (.poolUnitStart c) s = .next t ∧ entered t [e] true ∧ ((t.core c).ctx h).x.get 7 = dw ix) ∧
      ∀ ix b rest, e.units = (ix, b) :: rest →
        ∃ t r, exec (.poolUnitStart c) s = .next t ∧ entered t [e] true ∧ ((t.core c).ctx h).x.get 7 = dw ix ∧
          ((t.core c).ctx h).run = some r ∧ r.replay = true ∧ r.asCtx = b.2) ∧
    (k.head = some (j, e) → k.genOk e.ev = false → ∃ t, exec (.headStaleDiscard c) s = .next t ∧
      (t.core c).inbox = listDrop k.inbox j ∧
      (t.core c).staleCnt = if k.staleCnt = BitVec.allOnes 32 then k.staleCnt else k.staleCnt + 1) ∧
    (k.head = some (j, e) → k.genOk e.ev = true → s.slotCancelled (k.slots.get (descSlot e.ev.dest)) = true →
      e.pool = none → ∃ t, exec (.cancelledEventDiscard c) s = .next t ∧
        (t.core c).inbox = listDrop k.inbox j) ∧
    (k.runsSlot n = false → slot.waiting = [] →
      (∀ r, slot.pending = some (.bind r none) → ∃ t, exec (.slotChangeEffect c n) s = .next t ∧
        let z := (t.core c).slots.get n
        z.bound = true ∧ z.code = r.code ∧ z.hold = r.hold ||| dw (2 ^ n.val) ∧ z.late = r.late ∧ z.pool = r.pool ∧
        z.restart = r.restart ∧ z.lcnt = r.lcnt ∧ z.gen = slot.gen + 1 ∧ z.pending = none) ∧
      (slot.pending = some (.unbind none) → ∃ t, exec (.slotChangeEffect c n) s = .next t ∧
        (t.core c).slots.get n = { slot with bound := false, late := none, pending := none }) ∧
      ∀ m g b, slot.pending = some (.arm m g b none) → ∃ t, exec (.slotChangeEffect c n) s = .next t ∧
        (t.core c).slots.get n = { slot with k := m, g := g, jbuf := b, pending := none }) ∧
    ∀ r, s.launches.find l = some r → r.det = true → r.first + r.ncore ≤ 8192 → 0 < r.ncore →
      (∀ d ∈ r.cores, (s.core d).asks = false) → (∀ d ∈ r.cores, ∀ g ∈ helpers, s.roundOf d l g = .ran ∨
        s.roundOf d l g = .free) →
      (∃ d ∈ r.cores, ∃ g ∈ helpers, s.roundOf d l g = .ran) → ∃ t, exec (.detRoundClose l) s = .next t ∧
        ∀ d ∈ r.cores, (t.core d).detRounds = (s.core d).detRounds + 1 ∧
          ∀ g ∈ helpers, s.roundOf d l g = .ran → ((t.core d).ctx g).retired = 0

/-- R26, R390, R22, R288, R39, R40, R316, R50, R51, R369: events arrive, enter and leave, the spill routine takes them to its
heap,
as far as that has room, and puts them back, crossbar counters and local events; a record of a snapshot ring enters as it stands
(log entry 58). Codes of a spill record are the model's (log entry 22), and so is what the spill routine does with its heap (log
entries 16 and 76) and that a counter which stands at 0 with a reload value pulses (log entry 43). -/
def Obligations.EventHappenings : Prop :=
  ∀ (c : CoreId) (a : Arrival) (f : Flight) (d : Reg) (addr : BitVec 18) (v : Word) (i : Fin 4) (o : Fin 2) (s : State),
    let k := s.core c
    let enters (t : State) (ev : Ev) : Prop := ∃ e, (t.core c).inbox = k.inbox ++ [e] ∧ e.ev.tag = ev.tag ∧
      e.ev.dest = ev.dest ∧ e.ev.payload = ev.payload ∧ e.ev.origin = ev.origin ∧ e.late = none
    let testsGood (ev : Ev) : Prop := ev.replay = false ∧ k.genOk ev = true ∧ Tag.less ev.tag k.last = false ∧ k.tcfgInf11 = false
    (s.flight = [f] → f.dest = c → s.capMsgs = [] → k.fenced = false → k.held = [] → (∀ q, k.xbar.wait.get q = []) →
      s.canEnter c f.ev = true → testsGood f.ev → ∃ t, exec (.eventArrival 0) s = .next t ∧ t.flight = [] ∧ enters t f.ev) ∧
    (s.flight = [f] → f.dest = c → s.capMsgs = [] → k.fenced = false → k.held ≠ [] →
      ∃ t, exec (.eventArrival 0) s = .next t ∧ t.flight = [] ∧ (t.core c).inbox = k.inbox ∧
        ∃ b, (t.core c).held = k.held ++ [b] ∧ b.ev = f.ev) ∧
    (∀ rest r, k.held = a :: rest → a.replay = some r → s.inboxRoom c a.ev = true → (∀ q, k.xbar.wait.get q = []) →
      ∃ t g, exec (.holdBackEntry c) s = .next t ∧ (t.core c).held = rest ∧ (t.core c).inbox = k.inbox ++ [g] ∧ g.ev = r.ev ∧
        g.units = r.units ∧ (t.core c).ring = k.ring) ∧
    (∀ rest, k.held = a :: rest → a.replay = none → s.canEnter c a.ev = true → (∀ q, k.xbar.wait.get q = []) → testsGood a.ev →
      ∃ t, exec (.holdBackEntry c) s = .next t ∧ (t.core c).held = rest ∧ enters t a.ev) ∧
    (∀ e rest, k.sendQ = e :: rest → s.mayLeave c e = true → s.isLocal e.ev.dest = true →
      ∃ t g, exec (.sendDeparture c) s = .next t ∧ (t.core c).sendQ = rest ∧ t.flight = s.flight ++ [g] ∧
        g.dest = descCore e.ev.dest ∧ g.ev.tag = e.ev.tag ∧ g.ev.payload = e.ev.payload ∧ g.ev.sendTs = s.jobTime ∧
        g.ev.sendLate = (e.ev.sendLate || decide (e.ev.tag.t.toNat < s.clock c)) ∧
        (t.core c).iflags = if e.ev.tag.t.toNat < s.clock c then k.iflags ||| 2 else k.iflags) ∧
    ((k.ctx 12).live = true → k.inbox ≠ [] → s.heapTakes k k.spillTake.1.length = true →
      s.cowFits (s.heapPlace c k.spillTake.1.length) k.spillTake.1.length = true →
        ∃ t e, exec (.spillTakeRead c d) s = .next t ∧ e ∈ k.inbox ∧
      (∀ g ∈ k.inbox, e.ev.below g.ev = false) ∧ (t.core c).inbox.length + 1 = k.inbox.length ∧
      ((t.core c).ctx 12).x = ((k.ctx 12).setX d (dw (spillRecord (k.current e)).length)).x ∧ (t.core c).floor ≠ none ∧
      (t.core c).heap = k.heap ++ [spillRecord (k.current e)] ∧
      (t.core c).spillN = BitVec.ofNat 32 (k.heap.length + 1)) ∧
    ((k.ctx 12).live = true → k.inbox ≠ [] → s.heapTakes k k.spillTake.1.length = false →
      exec (.spillTakeRead c d) s = .next s) ∧
    ((k.ctx 12).live = true → k.heap ≠ [] → (k.fromHeap addr.toNat).canPut addr.toNat = true →
      ∃ t e, exec (.spillPutWrite c addr) s = .next t ∧ (t.core c).inbox = k.inbox ++ [e] ∧
        (t.core c).heap.length + 1 = k.heap.length ∧ (t.core c).spillN = BitVec.ofNat 32 (t.core c).heap.length) ∧
    ((k.ctx 12).live = true → k.heap = [] → k.canPut addr.toNat = true → ∃ t e, exec (.spillPutWrite c addr) s = .next t ∧
      (t.core c).spillPut = addr ∧ (t.core c).inbox = k.inbox ++ [e] ∧ (t.core c).floor = some e.ev ∧
      e.ev.dest = BitVec.ofNat 64 (k.spad.readNat addr.toNat 8) ∧
      e.ev.tag.t = BitVec.ofNat 64 (k.spad.readNat (addr.toNat + 8) 8)) ∧
    (∃ t, exec (.spillNWrite c v) s = .next t ∧ (t.core c).spillN = v ∧
      (t.core c).floor = if v = 0 then none else k.floor) ∧
    ((k.xbar.cnt.get i).cur = 0 → (k.xbar.cnt.get i).reload ≠ 0 → (∀ q, (k.xbar.term.get q).en = false) →
      ∃ t, exec (.crossbarCounterZero c i) s = .next t ∧ ((t.core c).xbar.cnt.get i).cur = (k.xbar.cnt.get i).reload ∧
        ∀ m, m ≠ i → (t.core c).xbar.cnt.get m = k.xbar.cnt.get m) ∧
    (∀ w rest, k.xbar.wait.get o = w :: rest → k.inbox.length < 64 →
      ∃ t e, exec (.crossbarLocalEventEntry c o) s = .next t ∧ (t.core c).xbar.wait.get o = rest ∧
        (t.core c).inbox = k.inbox ++ [e] ∧ e.ev.payload = .words [dw (4 + o.val), w.1] ∧
        e.ev.tag = { t := k.last.t, m := if k.last.m = BitVec.allOnes 32 then k.last.m else k.last.m + 1 })

/-! ## Happenings: engines, groups, objects -/

/-- R159, R163, R164, R166, R178: copy channels start, complete and stop on a fault; the stream engine reads or performs one
element. The premises on the crossbar say that no term is enabled and no source watches a stream. That a stream's elements go one
at a time in rising order, the pieces of each together, is the model's reading (log entry 47), as is what an FE stream's accesses
order (log entry 89) and that a queued request starts on a halted core (log entry 87). -/
def Obligations.CopyHappenings : Prop :=
  ∀ (c : CoreId) (ch : Fin 4) (i : Fin 8) (h : CtxId) (desc : StreamDesc) (s w : State),
    (∀ n, ((s.core c).xbar.term.get n).en = false) → (∀ n, ((s.core c).xbar.estr.get n).getLsbD 4 = false) →
    let k := s.core c
    let q := k.chans.get ch
    let st := k.streams.get i
    (∀ r, k.fifo.find? (fun r => r.chan == ch) = some r → q.running = none → q.fault = none → r.isHeld = false →
      s.stopped = false → ∃ t, exec (.copyRequestStart c ch) s = .next t ∧ t.mem = s.mem ∧
        (t.core c).chans.get ch = { q with running := some { req := r, done := [], idx := [] } } ∧
        (t.core c).fifo.length + 1 = k.fifo.length) ∧
    (∀ run v, q.running = some run → q.fault = none → s.copyAll c ch run (upto run.req.count) = .ok (w, v) →
      (∀ n, ((w.core c).xbar.term.get n).en = false) → ∃ t, exec (.copyRequestComplete c ch) s = .next t ∧
        ((t.core c).chans.get ch).running = none ∧ ((t.core c).chans.get ch).done = run.req.id ∧ t.mem = w.mem) ∧
    (∀ run, q.running = some run → q.fault = none → run.done = [] → k.spad.wf = true →
      let r := run.req
      let a := r.w2.toNat % 2 ^ 18
      r.w0.toNat / 2 ^ 56 = 4 → r.w0.toNat % 2 ^ 48 = 8 → r.w2.toNat / 2 ^ 62 = 1 → a % 8 = 0 →
      ∃ t, exec (.copyRequestComplete c ch) s = .next t ∧ (t.core c).spad.readNat a 8 = r.w3.toNat ∧
        (∀ m, m < a ∨ a + 8 ≤ m → (t.core c).spad.get m = k.spad.get m) ∧
        (r.w0.getLsbD 53 = true → a / 8 ∈ (t.core c).full) ∧ ((t.core c).chans.get ch).done = r.id) ∧
    (∀ run, q.running = some run → q.fault = none →
      (∃ j, j < run.req.count ∧ run.mayPerform j = true ∧ s.elementAddr c run j ≠ none) →
      ∃ t, exec (.channelFault c ch true) s = .next t ∧ t.mem = s.mem ∧ ∃ j a, j < run.req.count ∧ run.mayPerform j = true ∧
        s.elementAddr c run j = some a ∧ (t.core c).chans.get ch = { q with fault := some (0x18, a) }) ∧
    (∀ v l, st.bound = some (.memory h desc) → desc.output = false → st.fault = none → st.engine < desc.total →
      s.stopped = false → st.buf.length < 8 → s.elementWaits c h st desc (desc.addr st.engine) = false →
      s.streamRead c i desc (desc.addr st.engine) 0 desc.pieces = .ok (v, l, w) →
      ∃ t, exec (.streamElementAccess c i) s = .next t ∧ (t.core c).streams.get i =
        { st with engine := st.engine + 1, buf := joinElement desc st.engine v st.buf,
                  reads := joinReads desc st.engine l st.reads }) ∧
    (st.bound = some (.memory h desc) → s.elementWaits c h st desc (desc.addr st.engine) = true →
      exec (.streamElementAccess c i) s = .next s) ∧
    ∀ v m rest, st.bound = some (.memory h desc) → desc.output = true → st.fault = none → st.engine < desc.total →
      s.stopped = false → st.buf = v :: rest → st.engine % desc.perVec + 1 = desc.perVec →
      s.elementWaits c h st desc (desc.addr st.engine) = false →
      s.streamWrite c i (s.pushWriter c h st) desc (desc.addr st.engine)
        (v.toNat / 2 ^ (8 * 2 ^ desc.es * (st.engine % desc.perVec)) % 2 ^ (8 * 2 ^ desc.es)) 0 desc.pieces = .ok (m, w) →
      (∀ n, ((w.core c).xbar.estr.get n).getLsbD 4 = false) → (w.core c).streams = k.streams →
      ∃ t, exec (.streamElementAccess c i) s = .next t ∧
        (t.core c).streams.get i = { st with engine := st.engine + 1, buf := rest, seen := st.seen.tail, upTo := st.upTo.tail,
                                             wrote := joinSeen st.wrote m } ∧ t.mem = w.mem

/-- R138, R143, R146, R147, R149, R153, R304: the barrier, a step, the end of an operation and of an accumulator store. A step of
an INT8 operation on a gang of one core is worked out by its sums; of every format and gang, each element is the one that R138
gives for the chunk of A and the latched B that the cores have read (`accStep`), and a core that cannot read its operands ends the
step on all cores with the causes that R153 names. That a later operation fault takes the place of an unraised one is the model's
choice (log entry 73), that a lost word is fault 0x18 its reading (log entry 86), and where a mismatch behind a running operation
is found log entry 91. -/
def Obligations.MatrixHappenings : Prop :=
  ∀ (c : CoreId) (n : Fin 4) (p : MmaPost) (rest : List MmaPost) (r : MmaRun) (w : EngWrite) (s : State),
    let k := s.core c
    (∀ d ∈ s.gang c, ∀ m, ((s.core d).xbar.term.get m).en = false) →
    (k.mq = p :: rest → s.barrierOpen c = true → ∃ t, exec (.gangBarrierComplete c) s = .next t ∧
      (t.core c).mq = k.mq ∧ (t.core c).accs = k.accs ∧
      (t.core c).mRun = some { step := 0, start := k.accs.get p.n, hist := [], latch := [],
                               fault := (s.mismatch c).map fun i => (0x0D, i) }) ∧
    (k.mq = p :: rest → k.mRun = some r → k.glog = 0 → r.fault = none → r.step = 0 → p.fmt = .i8 → p.snap = k.spad →
      k.spadLost = [] →
      let a (j : Nat) : Int := (k.spad.get (p.xa.toNat + j)).toInt
      let b (j : Nat) : Int := (k.spad.get (p.xb.toNat + j)).toInt
      let dot (e : Nat) : Int :=
        ((List.range 16).map fun i => a (16 * (e / 16) + i) * b (16 * i + e % 16)).foldl (· + ·) 0
      ∃ t, exec (.mmaStep c) s = .next t ∧ (∃ v, (t.core c).mRun = some v ∧ v.step = 1) ∧
        ∀ e : Fin 256, (((t.core c).accs.get p.n).get e).toInt =
          max (-(2 ^ 31)) (min (2 ^ 31 - 1) (((k.accs.get p.n).get e).toInt + dot e.val))) ∧
    (let g := (s.gang c).length
     let qs := s.runners c r.step
     let reads (j : Nat) : Except Byte (List (Nat × Nat) × List (Nat × Nat)) := match qs[j]? with
       | some q => (s.core q.core).readStep q.post q.run j g (s.freeCtr + j * wordCount)
       | none => .error 0x0E
     k.mRun = some r → r.fault = none → r.step < g → qs.length = g →
     ((∀ j, j < g → ∃ x, reads j = .ok x) → ∃ t, exec (.mmaStep c) s = .next t ∧
       ∀ (j : Nat) (q o : Runner) (x y : List (Nat × Nat) × List (Nat × Nat)), qs[j]? = some q →
         qs[(j + r.step) % g]? = some o → reads j = .ok x → reads ((j + r.step) % g) = .ok y →
         (∃ v, (t.core q.core).mRun = some v ∧ v.step = r.step + 1) ∧
         (t.core q.core).accs.get q.post.n = Vector.ofFn fun e =>
           ((accStep q.post.fmt (scaleOf q.post.fmt q.post.sA) (scaleOf q.post.fmt o.post.sB) x.1 y.2
             ((s.core q.core).accs.get q.post.n)).get e).1) ∧
     (∀ b cause, b < g → reads b = .error cause → (∀ j, j < b → ∃ x, reads j = .ok x) → ∃ t, exec (.mmaStep c) s = .next t ∧
       ∀ (j : Nat) (q : Runner), qs[j]? = some q → (t.core q.core).accs = (s.core q.core).accs ∧
         (t.core q.core).mRun = some { q.run with fault := some (if j = b then cause else 0x0D, b) })) ∧
    (k.mq = p :: rest → k.mRun = some r → r.fault = none → r.step = 2 ^ k.glog.toNat →
      ∃ t, exec (.accumulatorLeavesOwnership c) s = .next t ∧ (t.core c).mq = rest ∧ (t.core c).mRun = none ∧
        (t.core c).accs = k.accs) ∧
    (∀ cause i, k.mq = p :: rest → k.mRun = some r → k.glog = 0 → r.fault = some (cause, i) →
      ∃ t, exec (.mmaOperationFault c) s = .next t ∧ (t.core c).mq = rest ∧ (t.core c).mRun = none ∧
        (t.core c).accs.get p.n = r.start ∧ (t.core c).accFault.get p.n = some ⟨cause, i, p.pc⟩ ∧
        (t.core c).mCause = cause ∧ (t.core c).mFidx = i) ∧
    (k.engW = [w] → w.acc = some n → w.full = true → w.bytes ≠ [] → k.spad.wf = true → ∃ t, exec (.mstoComplete c n) s = .next t ∧
      (t.core c).engW = [] ∧ (∀ i, i < w.bytes.length → (t.core c).spad.get (w.addr + i) = w.bytes.getD i 0) ∧
      (∀ m, m < w.addr ∨ w.addr + w.bytes.length ≤ m → (t.core c).spad.get m = k.spad.get m) ∧
      w.addr / 8 ∈ (t.core c).full)

/-- R182, R186, R188, R109, R190, R192, R193, R326: outcomes of rounds, aborts, completion records, and object operations at
routers, in pairing windows and at their homes; under DET nothing pairs, and a router tests the operations of one cycle in the
order of their cores. The premise on the crossbars says that no term is enabled. Which round an abort ends for a member that
has not injected in it is the model's reading (log entry 74); what a BROADCAST gives its members follows R182 (log entry 48). -/
def Obligations.NetworkHappenings : Prop :=
  ∀ (i rank : Nat) (q : Group) (m : Member) (o : ObjHome) (op other : ObjMsg) (l : Nat) (rest : List Nat) (s : State),
    (∀ c n, ((s.core c).xbar.term.get n).en = false) →
    let reply (t : State) (x : ObjMsg) (v : DWord) : Prop :=
      ((t.core x.core).ctx x.ctx).reqs.map Req.id = ((s.core x.core).ctx x.ctx).reqs.map Req.id ∧
        ∀ r ∈ ((t.core x.core).ctx x.ctx).reqs, r.id = x.req → r.reply = some v
    let atHome (t : State) (n : Nat) : Prop := ∃ z, t.objs.find op.pa = some z ∧ z.count = n ∧ z.cap = o.cap
    (s.group i = some q → q.live = true → (∀ x ∈ q.members, x.inj ≠ none ∧ x.held = false ∧ x.injRound ≠ x.outRound) →
      q.members ≠ [] → q.members[rank]? = some m → ∃ t p z, exec (.collectiveRoundComplete i) s = .next t ∧
        t.group i = some p ∧ p.members[rank]? = some z ∧ z.outRound = m.injRound ∧ z.outRes = true ∧ z.inj = none ∧
        z.data = q.results.getD rank []) ∧
    (s.group i = some q → rank ∈ q.aborting → q.members[rank]? = some m → m.injRound ≠ m.outRound →
      ∃ t p z, exec (.collectiveAbortArrival i rank) s = .next t ∧ t.group i = some p ∧ p.members[rank]? = some z ∧
        z.outRound = m.injRound ∧ z.outRes = false ∧ z.inj = (if m.held then none else m.inj) ∧
          p.aborting = removeNat q.aborting rank) ∧
    (s.group i = some q → rank ∈ q.aborting → q.members[rank]? = some m → m.injRound = m.outRound → m.outRound < q.abRound →
      ∃ t p z, exec (.collectiveAbortArrival i rank) s = .next t ∧ t.group i = some p ∧ p.members[rank]? = some z ∧
        z = { m with outRes := false, rounds := m.rounds + 1 } ∧ p.aborting = removeNat q.aborting rank) ∧
    (∀ x, s.mcasts = [x] → (∀ c, (s.core c).engW = []) → (s.core x.core).spad.wf = true →
      ∃ t, exec (.mcastCompletionRecord 0 []) s = .next t ∧ t.mcasts = [] ∧
        ∀ b, b < (x.members.length + 63) / 64 * 8 → (t.core x.core).spad.get (x.record + b) = 0) ∧
    (s.objMsgs = [op] → op.path = l :: rest → s.objMayMove op = true → s.routerTurn l op = true → s.objs.find op.pa = none →
      ∃ t, exec (.objectOpAtRouter 0) s = .next t ∧ t.objMsgs = [{ op with path := rest }] ∧ t.cores = s.cores) ∧
    (s.objMsgs = [op] → op.path = l :: rest → s.objMayMove op = true → s.routerTurn l op = true → s.isDet op.lcnt = true →
      ∃ t, exec (.objectOpAtRouter 0) s = .next t ∧ t.objMsgs = [{ op with path := rest }] ∧ t.windows = s.windows) ∧
    (s.objMsgs = [op] → op.path = l :: rest → s.routerTurn l op = false → exec (.objectOpAtRouter 0) s = .next s) ∧
    (s.objMsgs = [op] → op.path = l :: rest → s.objMayMove op = true → s.routerTurn l op = true → s.isDet op.lcnt = false →
      s.objs.find op.pa = some o → o.bad = false →
      o.w ≠ 0 → l ∈ o.told → s.windows.get [] l = [other] → other.pa = op.pa → other.op = .opush → op.op = .opop →
      other.left ≠ 0 → other.dev = none → op.dev = none → ∃ t, exec (.objectOpAtRouter 0) s = .next t ∧
        t.objMsgs = [] ∧ t.windows.get [] l = [] ∧ reply t op other.value ∧ t.objs = s.objs) ∧
    (s.windows.get [] l = [op] → op.left = 0 → ∃ t, exec (.windowWaitExpired l 0) s = .next t ∧ t.windows.get [] l = [] ∧
      t.objMsgs = s.objMsgs ++ [{ op with path := op.path.drop 1 }]) ∧
    (s.objMsgs = [op] → op.path = [] → s.objMayMove op = true → op.dev = none → isRemote op.pa = false →
      s.isLost op.pa = false → s.objs.find op.pa = some o → o.bad = false → s.mem.wf = true → s.cowActive = false →
      (op.op = .opush → o.count < o.cap → ∀ p, s.storeEntry op.pa o o.count = some p →
        (inWs p && s.wsLocked) = false → ∃ t, exec (.objectOpAtHome 0) s = .next t ∧ t.objMsgs = [] ∧ reply t op 0 ∧
          atHome t (o.count + 1) ∧
          t.mem.readNat p 8 = op.value.toNat ∧ ∀ b, b < p ∨ p + 8 ≤ b → t.mem.get b = s.mem.get b) ∧
      (op.op = .opush → o.count = o.cap → ∃ t, exec (.objectOpAtHome 0) s = .next t ∧ t.objMsgs = [] ∧ reply t op 1 ∧
        atHome t o.count ∧ t.mem = s.mem) ∧
      (op.op = .opop → o.count ≠ 0 → ∀ p, s.storeEntry op.pa o (o.count - 1) = some p → s.isLost p = false →
        ∃ t, exec (.objectOpAtHome 0) s = .next t ∧ t.objMsgs = [] ∧ atHome t (o.count - 1) ∧ t.mem = s.mem ∧
          reply t op (BitVec.ofNat 64 (s.mem.readNat p 8))) ∧
      (op.op = .opop → o.count = 0 → ∃ t, exec (.objectOpAtHome 0) s = .next t ∧ t.objMsgs = [] ∧
        reply t op 0x8000000000000000 ∧ atHome t 0 ∧ t.mem = s.mem) ∧
      (op.op = .ocnt → ∃ t, exec (.objectOpAtHome 0) s = .next t ∧ t.objMsgs = [] ∧ reply t op (dw o.count) ∧
        atHome t o.count ∧ t.mem = s.mem))

/-! ## Happenings: the host, the driver, management -/

/-- R343 to R352, R355, R295: slots and commits of the host window, credits and drops, the launch unit's answer, counters, host
queues and fallback replies. Commits the spec does not describe are as log entry 31 says; what the launch unit makes of a record,
and which steps of a set-up wait, are log entries 41 and 55; that the module is the writer of an acknowledgement is log entry 67;
that bits of a completion form which R350 says are zero are ignored is log entry 93. -/
def Obligations.HostHappenings : Prop :=
  ∀ (w : WinSlot) (die : Fin 4) (i : Fin 17) (v : Word) (id : Byte) (x : DWord) (s : State),
    let commit (kind : Nat) : Prop := w.valid = true ∧ w.kind = kind ∧ w.good = true ∧ s.stopped = false ∧ s.winCred ≠ 0
    let n := w.w3.toNat
    (commit 0 → s.descFault w.w0 = none → s.isLocal w.w0 = true → ∃ t f, exec (.hostEventCommit w) s = .next t ∧
      t.flight = s.flight ++ [f] ∧ t.winCred + 1 = s.winCred ∧ t.hostSeq = s.hostSeq + 1 ∧ f.dest = descCore w.w0 ∧
      f.cls = .package ∧ f.ev.dest = w.w0 ∧ f.ev.tag = { t := w.w1, m := w.w2.setWidth 32 } ∧ f.ev.seq = s.hostSeq ∧
      f.ev.payload = .words ([w.w3, w.w4, w.w5, w.w6].take w.npay)) ∧
    (commit 0 → s.descFault w.w0 = none → s.isLocal w.w0 = false → s.behindCap 0 w.w0 = false →
      ∃ t, exec (.hostEventCommit w) s = .next t ∧
      t.winCred + 1 = s.winCred ∧ t.hostSeq = s.hostSeq + 1 ∧ t.flight = s.flight ∧ t.outbox.length = s.outbox.length + 1) ∧
    (∀ slot k u, u.getLsbD 0 = true → u.toNat / 2 % 8 = 0 →
      let z := { s with winSlots := s.winSlots.put slot.val (slotPut (s.winSlot slot) 7 u) }
      s.turn (.slotWrite slot 7 u) = exec (.hostEventCommit (slotPut (s.winSlot slot) 7 u)) z ∧
        (k ≠ 7 → ∃ t, s.turn (.slotWrite slot k u) = .next t ∧ t.winCred = s.winCred ∧ t.flight = s.flight ∧
          t.turn (.slotRead slot k) = .next { t with hostData := u :: t.hostData })) ∧
    (commit 0 → s.descFault w.w0 ≠ none → ∃ t, exec (.hostEventCommit w) s = .next t ∧ t = { s with winDrop := s.winDrop + 1 }) ∧
    (∀ j k, (j, k) ∈ [(Instr.hostEventCommit w, 0), (.launchCommit w, 1), (.setCounterCommit w, 2), (.cancelCommit w, 3)] →
      w.valid = true → w.kind = k → (w.good = false ∨ s.stopped = true ∨ s.winCred = 0) →
      exec j s = .next { s with winDrop := s.winDrop + 1 }) ∧
    (∀ j ∈ [Instr.hostEventCommit w, .launchCommit w, .setCounterCommit w, .cancelCommit w], w.valid = false →
      exec j s = .next s) ∧
    (commit 1 → s.recordStalls (commitDie w) w.w3.toNat = true →
      exec (.launchCommit w) s = .next { s with launchWait := s.launchWait ++ [w] }) ∧
    (commit 1 → s.recordStalls (commitDie w) w.w3.toNat = false → w.w4 ≠ 0 → s.mem.wf = true → s.cowActive = false →
      s.setupQ.get (commitDie w) = [] → ∀ why u, s.handleRecord (commitDie w) w.w3 w.tag s.hostKnows = (.error why, u) →
        ∃ t, exec (.launchCommit w) s = .next t ∧ t.launches = s.launches ∧
          t.counters = s.counters ∧
          t.mem.readNat (2 ^ 50 + w.w4.toNat % 2 ^ 50) 8 = why % 2 ^ 48 * 2 ^ 16) ∧
    (commit 1 → s.recordStalls (commitDie w) w.w3.toNat = false →
      ∀ l u, s.handleRecord (commitDie w) w.w3 w.tag s.hostKnows = (.ok l, u) → exec (.launchCommit w) s =
        (let d := commitDie w
         let z := if w.w4 = 0 then u else u.memWrite .module (2 ^ 50 + w.w4.toNat % 2 ^ 50) (leBytes 8 (dw (1 + 2 * l)).toNat)
         .next (z.setupGo d (z.setupFuel d)))) ∧
    (∀ l r, s.setupQ.get die = [l] → s.launches.find l = some r → r.stage = 1 → r.det = true → r.ncore = 1 → r.first < 8192 →
      r.bound = [] → r.setup = false → r.snap = false → r.poolN = 0 → r.init = [] →
      let c := mkCore r.first
      (s.core c).mq = [] → (s.core c).changing l = false →
      ∃ t, exec (.launchSetupResume die) s = .next t ∧ t.setupQ.get die = [] ∧ (t.core c).det = true ∧
        (t.core c).quantum = r.quantum ∧ (t.core c).glog = 0 ∧ (t.core c).lx28 = r.state.setWidth 64 ∧
        (t.core c).lx29 = r.args ∧ (t.core c).tlb = [] ∧ (t.core c).accFault = Vector.replicate 4 none ∧
          ∀ y, ((t.core c).layouts.get y).record = none) ∧
    (commit 2 → 4096 ≤ n → n < 4096 + 256 → w.w5 = BitVec.allOnes 64 → (s.counter n).live = false →
      ∃ t, exec (.setCounterCommit w) s = .next t ∧ t.mem = s.mem ∧ t.counter n =
        { count := w.w4.setWidth 32, ufl := false, canc := false, done := false, live := true, parent := none, form := w.w6,
          die := 0, seen := [] }) ∧
    (commit 3 → n < 4096 → (s.counter n).count ≠ 0 → ∃ t, exec (.cancelCommit w) s = .next t ∧ (t.counter n).canc = true) ∧
    ((v - (s.hostQ.get i).head).toNat ≤ ((s.hostQ.get i).tail - (s.hostQ.get i).head).toNat →
      ∃ t, exec (.hqheadWrite i v) s = .next t ∧ t.hostQ.get i = { (s.hostQ.get i) with head := v } ∧
        ∀ j, j ≠ i → t.hostQ.get j = s.hostQ.get j) ∧
    (((s.hostQ.get i).tail - (s.hostQ.get i).head).toNat < (v - (s.hostQ.get i).head).toNat →
      exec (.hqheadWrite i v) s = .next s) ∧
    (s.fallback.find id.toNat = none → exec (.fallbackReplyCommit id x) s =
      .next { s with fbValue := s.fbValue.put id.toNat x, fbDup := s.fbDup + 1 }) ∧
    ∀ c h m q, s.fallback.find id.toNat = some (c, h, m) → ((s.core c).ctx h).reqs.find? (fun q => q.id == m) = some q →
      q.id = m → ∃ t, exec (.fallbackReplyCommit id x) s = .next t ∧
        t.fbValue.get 0 id.toNat = x ∧
        ((t.core c).ctx h).reqs.map Req.id = (((s.core c).ctx h).reqs.filter fun r => r.id ≠ m).map Req.id ∧
        ∀ d, q.dest = some d → ((t.core c).ctx h).x = (((s.core c).ctx h).setX d x).x

/-- R9, R341, R342, R356, R367 to R369, R388, R389: the aperture, registers as the driver writes and reads them, PTM, fences,
machine checks, power and firmware. The clauses on PLDM and SPDM say only that an answer is added (their contents are open: log
entries 2 and 3). Memory that reads 0 below 2^50 after the boot is log entry 4, a PECTL write that takes back a command log entry
82, the records of a re-run core that wait behind an empty inbox log entry 58. -/
def Obligations.DriverHappenings : Prop :=
  ∀ (c : CoreId) (off : Word) (size : Fin 9) (v : DWord) (n : Fin 128) (pa milli temp version : Nat) (image : List Byte)
    (answer : PtmAnswer) (s : State),
    let at_ := s.apbase.toNat * 2 ^ 32 + off.toNat
    (size ≠ 0 → off.toNat + size.val ≤ 2 ^ 32 → inHbm at_ = true → s.overflowed at_ = false → s.cowActive = false →
      s.mem.wf = true → ∃ t, exec (.hostApertureAccess true off size v) s = .next t ∧
        t.mem.readNat at_ size.val = v.toNat % 2 ^ (8 * size.val) ∧
        ∀ b, b < at_ ∨ at_ + size.val ≤ b → t.mem.get b = s.mem.get b) ∧
    (size ≠ 0 → off.toNat + size.val ≤ 2 ^ 32 → inHbm at_ = true → s.overflowed at_ = true → s.lineHeld at_ = false →
      s.cowActive = false → ∃ t, exec (.hostApertureAccess true off size v) s = .next t ∧ t.lineHeld at_ = true ∧
        t.mem = s.mem) ∧
    (inWs at_ = true → s.wsLocked = true →
      exec (.hostApertureAccess true off size v) s = .next s) ∧
    (size ≠ 0 → off.toNat + size.val ≤ 2 ^ 32 → inHbm at_ = true → s.bankAway at_ = false → s.lineHeld at_ = false →
      s.isLost at_ = false → s.objs = [] → (s.verAt at_).vers = [] → exec (.hostApertureAccess false off size v) s =
        .next { s with hostData := dw (s.mem.readNat at_ size.val) :: s.hostData }) ∧
    (let reads (o : Nat) (y : DWord) : Prop := s.turn (.hostRead o) = .next { s with hostData := y :: s.hostData }
     reads 0x10 s.jobTime ∧ reads 0x3010 (s.pestat.setWidth 64) ∧ reads 0x3810 (s.mcCount.setWidth 64) ∧
       (∀ i, i < 4432 → reads (0x10000 + 8 * i) (s.counter i).image) ∧ reads 0x9000 0) ∧
    (s.ptmctl.getLsbD 0 = false → exec (.ptmExchange answer) s = .next s) ∧
    (s.ptmctl.getLsbD 0 = true → s.reference ≠ .host →
      exec (.ptmExchange answer) s = .next { s with hostOff := answer.hostTime - s.jobTime }) ∧
    (s.ptmctl.getLsbD 0 = true → s.reference = .host → ∃ t, exec (.ptmExchange answer) s = .next t ∧
      t.hostOff = answer.hostTime - s.jobTime ∧ t.clkoff = answer.hostTime - s.timebase) ∧
    ((s.core c).fenced = true → c.val / 64 = n.val → v.getLsbD (c.val % 64) = true →
      ∃ t, exec (.fenceRelease n v) s = .next t ∧ (t.core c).fenced = false ∧ (t.core c).halted = false ∧ t.mem = s.mem) ∧
    (c.val / 64 ≠ n.val → ∃ t, exec (.fenceRelease n v) s = .next t ∧ t.core c = s.core c) ∧
    (∃ t, exec (.machineCheck .writeBack c pa) s = .next t ∧ t.isLost pa = true ∧ t.mcKind = 1 ∧
      t.mcCount = s.mcCount + 1 ∧ t.msix = s.mcVec.toNat :: s.msix ∧ t.mem = s.mem) ∧
    (∃ t, exec (.machineCheck .directory c pa) s = .next t ∧ t.mcKind = 2 ∧ t.mcCount = s.mcCount + 1 ∧ t.lost = s.lost) ∧
    ((s.core c).logging = false ∨ s.spares.get (dieIx c.val) = 0 → ∃ t, exec (.machineCheck .coreLogic c pa) s = .next t ∧
      (t.core c).halted = true ∧ t.mcKind = 3 ∧ t.mcCore = BitVec.ofNat 13 c.val) ∧
    ((s.core c).logging = true → 0 < s.spares.get (dieIx c.val) → ∃ t, exec (.machineCheck .coreLogic c pa) s = .next t ∧
      (t.core c).halted = false ∧ t.mcKind = 6 ∧ t.spares.get (dieIx c.val) + 1 = s.spares.get (dieIx c.val) ∧
      (t.core c).inbox = [] ∧ ((t.core c).held.filter fun a => a.replay.isSome).length =
        ((s.core c).ring.filter fun r => !(s.core c).spilled.any fun e => e.ev.rkey == r.ev.rkey).length) ∧
    (∃ t, exec (.registerWrite 0x3818 v) s = .next t ∧ t = { s with mcVec := v.setWidth 11 }) ∧
    (v.getLsbD 0 = false → v.getLsbD 1 = false → exec (.registerWrite 0x3000 v) s =
      .next { s with pectl := if v.getLsbD 2 then 4 else 0, pestat := if s.pestat = 3 then 2 else s.pestat }) ∧
    (∃ t, exec (.registerWrite 0x4040 v) s = .next t ∧ t.e2eTimeout = v.setWidth 32 ∧
      t.e2eRetries = (v >>> 32).setWidth 4) ∧
    (s.dieLive 0 = true → exec (.registerWrite 0x100 v) s = .next s) ∧
    (s.dieLive 0 = false → ∃ t, exec (.registerWrite 0x100 v) s = .next t ∧ t.ptroot.get 0 = (v >>> 16).setWidth 36) ∧
    exec (.registerWrite 0 v) s = .next s ∧
    (s.powerCap < milli → ∃ t, exec (.powerCapThrottle milli) s = .next t ∧ t = { s with mhz := max 1500 (s.mhz - 100) }) ∧
    (milli ≤ s.powerCap → exec (.powerCapThrottle milli) s = .next s) ∧
    (105 < temp → temp < 115 → exec (.thermalLimit temp) s = .next { s with mhz := max 1500 (s.mhz - 100) }) ∧
    (115 ≤ temp → ∃ t, exec (.thermalLimit temp) s = .next t ∧ t.shutdown = true ∧ t.cores = s.cores) ∧
    (exec (.powerCapSet milli) s =
      .next (if 1200000 ≤ milli ∧ milli ≤ 3200000 then { s with powerCap := milli } else s)) ∧
    (exec (.pldmFirmwareUpdate image version) s = .next (if version < s.rollback.val then s else
      { s with firmware := image, fwVersion := version })) ∧
    (∃ t, exec .pldmMonitor s = .next t ∧ t.mgmtOut.length = s.mgmtOut.length + 1 ∧ t.cores = s.cores ∧ t.mem = s.mem) ∧
    (∃ t, exec (.spdmAttestation image) s = .next t ∧ t.mgmtOut.length = s.mgmtOut.length + 1 ∧ t.cores = s.cores ∧
      t.mem = s.mem) ∧
    (∃ t, exec (.firmwareBootVerify image image version) s = .next t ∧ t.cores = [] ∧ t.launches = [] ∧ t.firmware = s.firmware ∧
      t.rollback = s.rollback ∧ (s.firmware = [] → version < s.rollback.val → t.inReset = true) ∧
      (s.firmware ≠ [] → s.fwVersion < s.rollback.val → t.inReset = true) ∧ (∀ b, b < 2 ^ 50 → t.mem.get b = 0))

/-- R357, R358, R370 to R374, R386: pre-emption and the checkpoint cut as the driver and the host command them. A freeze drains
the
module and saves it once what the drain needs has come about; until then it stays drained as far as it can be. Cases the spec
leaves open are as log entries 36 to 39, 57 and 85 say. -/
def Obligations.FreezeHappenings : Prop :=
  ∀ (w : WinSlot) (coord : Bool) (port : Fin 8) (q : Cut) (s : State),
    let commit (kind : Nat) : Prop := w.valid = true ∧ w.kind = kind ∧ w.good = true ∧ s.stopped = false ∧ s.winCred ≠ 0
    (s.stopped = false → (s.launches = [] ∨ s.ckState = 1 ∨ s.ckState = 2) →
      exec (.freeze coord) s = .next { s with pestat := 4 }) ∧
    (s.stopped = false → s.launches ≠ [] → s.ckState ≠ 1 → s.ckState ≠ 2 →
      exec (.freeze true) s = .next { s with pectl := 5, pestat := 0 } ∧
      let d := { s with pectl := 1, pestat := 1, peSent := false }.drain
      (d.drained = false → exec (.freeze false) s = .next d) ∧
      (d.drained = true → d.pectl.getLsbD 2 = false → d.imageFits (d.pebase.toNat * 65536) = true →
        ∃ t v, exec (.freeze false) s = .next t ∧ t.pestat = 2 ∧ t.pectl.getLsbD 0 = false ∧
          t.saved.find (d.pebase.toNat * 65536) = some v ∧ v.cores = d.cores ∧ v.counters = d.counters ∧
          v.launches = d.launches ∧ v.groups = d.groups ∧ v.joboff = d.joboff)) ∧
    (s.pestat ≠ 2 → s.pestat ≠ 3 → exec (.resume coord) s = .next s) ∧
    (s.pestat = 2 ∨ s.pestat = 3 → s.savedAt = none → exec (.resume coord) s = .next { s with pestat := 4 }) ∧
    (∀ v, s.pestat = 2 ∨ s.pestat = 3 → s.savedAt = some v →
      exec (.resume true) s = .next { s with pectl := 6, pestat := 3 } ∧
      ∃ t, exec (.resume false) s = .next t ∧ t.pestat = 0 ∧ t.joboff = v.joboff ∧ t.counters = v.counters ∧
        t.launches = v.launches ∧ t.groups = v.groups ∧ t.ltlb = [] ∧ t.mem = s.mem) ∧
    (s.pectl = 5 → s.pestat = 0 → s.pefreeze.toNat ≤ s.timebase.toNat → s.launches ≠ [] → s.ckState ≠ 1 → s.ckState ≠ 2 →
      let d := { s with pestat := 1, peSent := false }.drain
      (d.drained = false → exec .coordinatedFreezeInstant s = .next d) ∧
      (d.drained = true → d.upPorts = [] → d.imageFits (d.pebase.toNat * 65536) = true →
        ∃ t, exec .coordinatedFreezeInstant s = .next t ∧ t.pestat = 2)) ∧
    (s.pectl = 5 → s.pestat = 0 → s.pefreeze.toNat ≤ s.timebase.toNat → s.launches = [] →
      exec .coordinatedFreezeInstant s = .next { s with pestat := 4, pectl := 4 }) ∧
    (∀ v, s.pectl = 6 → s.pestat = 3 → s.peresume.toNat ≤ s.timebase.toNat →
      s.savedAt = some v → ∃ t, exec .coordinatedResumeInstant s = .next t ∧ t.pestat = 0 ∧
        t.joboff = v.joboff + (s.peresume - s.pefreeze)) ∧
    (commit 4 → s.ckState = 0 → s.lateW = [] → s.launches ≠ [] → (∀ e ∈ s.cores, e.2.last.t.toNat ≤ w.w1.toNat) →
      ∃ t, exec (.checkpointCutCommit w) s = .next t ∧ t.ckState = 1 ∧ t.ckRsv = 0 ∧ t.mem = s.mem ∧
        ∃ p, t.cut = some p ∧ p.markers = s.earlyMarks ∧ p.tc = w.w1 ∧ p.save = w.w3 ∧ p.reserve = w.w4 ∧ p.pages = w.w5.toNat) ∧
    (commit 4 → s.ckState = 0 → s.lateW = [] → (s.launches = [] ∨ ∃ e ∈ s.cores, w.w1.toNat < e.2.last.t.toNat) →
      exec (.checkpointCutCommit w) s = .next { s with ckState := 6, earlyMarks := [], earlyAfter := [] }) ∧
    (s.cut = some q → s.ckState = 1 → s.pastCut Core.reset q.tc = true → (∀ c, s.cutQuiet c q.tc = true) → s.flight = [] →
      (∀ p, (s.ports.get p).state ≠ 2) → ((∀ c, (s.core c).held = []) → ∃ t, exec .cutSave s = .next t ∧ t.ckState = 3) ∧
        ((∃ c, (s.core c).held ≠ []) → exec .cutSave s =
          .next { s with ckState := 2, cut := some { q with cores := some s.cores } })) ∧
    (s.cut = some q → s.ckState = 1 → (s.ports.get port).state = 2 →
      ∃ t p, exec (.cutMarkerArrival port false) s = .next t ∧ t.cut = some p ∧ port.val ∈ p.markers) ∧
    ((s.ports.get port).state = 2 → s.cut = none → exec (.cutMarkerArrival port false) s =
      .next { s with earlyMarks := insertNat s.earlyMarks port.val }) ∧
    ((s.ports.get port).state = 2 → s.pestat ≠ 1 → ∃ t, exec (.cutMarkerArrival port true) s = .next t ∧
      port.val ∈ t.peMarks) ∧
    (commit 5 → s.cut = some q → s.ckState = 3 → ∃ t, exec (.checkpointDrainCommit w) s = .next t ∧ t.ckState = 4 ∧
      t.cut = some { q with drainTo := some (w.w3, w.w4) }) ∧
    (∀ base form, s.cut = some q → s.ckState = 4 → q.drainTo = some (base, form) → form.toNat % 4 ≠ 3 →
      s.lateW = [] → q.mem.wf = true → s.mem.wf = true → ∃ t, exec .drainComplete s = .next t ∧ t.ckState = 5 ∧ t.ckRsv = 0 ∧
        t.cut = none ∧
        ∀ b, b < 0xC000000000 → t.mem.get (base.toNat + b) = q.mem.get b)

/-- R379 to R385: packets arrive and are checked, links go down and come up, packets are kept, sent again and given up, clocks are
compared. Bodies of packets and slews are as log entries 12 and 59 say, the way of a packet and its channel as log entry 81, what
a packet comes after as log entry 84, what waits behind a marker as log entry 85. -/
def Obligations.FabricHappenings : Prop :=
  ∀ (port : Fin 8) (p : Packet) (src : BitVec 20) (seq : Word) (e : Kept) (t1 t2 t3 t4 : DWord)
    (slew : Int) (s : State),
    let up := (s.ports.get port).state = 2
    let whole := p.crossing = .whole
    let sent (t : State) (x : Packet) : Prop := ∃ n, t.outbox = x.onChannel n :: s.outbox
    let checked := up ∧ whole ∧ p.header.toNat / 2 ^ 44 % 16 = p.body.type ∧ p.header.getLsbD 50 = false ∧
      p.hchk = crc16 p.header ∧
      p.header.toNat % 2 ^ 20 = s.devCoord.toNat ∧ p.echkGood = true
    let from_ := p.header.toNat / 2 ^ 20 % 2 ^ 20
    (∀ pa b, checked → p.body = .store pa b → isRemote pa = false → s.behindMarker port p.body = false →
      p.e2eseq ∉ s.accepted.get [] from_ → s.overflowed pa = false →
      s.bankAway pa = false → (inWs pa && s.wsLocked) = false → s.cowActive = false → s.mem.wf = true →
        ∃ t, exec (.packetArrival port p) s = .next t ∧
        (∀ i, i < b.length → t.mem.get (pa + i) = b.getD i 0) ∧ p.e2eseq ∈ t.accepted.get [] from_ ∧
        ∃ a, t.outbox = a :: s.outbox ∧ a.body = .ack p.e2eseq) ∧
    (∀ pa b, checked → p.body = .store pa b → p.e2eseq ∈ s.accepted.get [] from_ →
      ∃ t, exec (.packetArrival port p) s = .next t ∧ t.mem = s.mem ∧ t.accepted = s.accepted ∧
        ∃ a, t.outbox = a :: s.outbox ∧ a.body = .ack p.e2eseq) ∧
    (∀ pa b, checked → p.body = .store pa b → s.behindMarker port p.body = true → p.e2eseq ∉ s.accepted.get [] from_ →
      exec (.packetArrival port p) s = .next s) ∧
    (up → whole → p.header.toNat / 2 ^ 44 % 16 = p.body.type → p.header.getLsbD 50 = false → p.hchk ≠ crc16 p.header →
      ∃ t, exec (.packetArrival port p) s = .next t ∧ t.mem = s.mem ∧ t.outbox = s.outbox ∧ t.flight = s.flight) ∧
    (up → whole → p.header.toNat / 2 ^ 44 % 16 = p.body.type → p.header.getLsbD 50 = false → p.hchk = crc16 p.header →
      p.header.toNat % 2 ^ 20 ≠ s.devCoord.toNat → ∃ t, exec (.packetArrival port p) s = .next t ∧ sent t p ∧
        t.mem = s.mem ∧ t.kept = s.kept ∧ t.accepted = s.accepted ∧
        let out := s.route p.src (some port) p.dst
        (t.ports.get out).packets = (s.ports.get out).packets + 1) ∧
    (up → p.header.toNat / 2 ^ 44 % 16 = p.body.type →
      (p.crossing = .cut → exec (.packetArrival port p) s = .next s) ∧
      (p.crossing = .replay → ∃ t, exec (.packetArrival port p) s = .next t ∧
        (t.ports.get port).replay = (s.ports.get port).replay + 1 ∧ t.mem = s.mem ∧ t.outbox = s.outbox) ∧
      (p.crossing = .broken → ∃ t, exec (.packetArrival port p) s = .next t ∧ (t.ports.get port).state = 0 ∧ t.mem = s.mem)) ∧
    (up → ∃ t, exec (.linkDown port) s = .next t ∧ (t.ports.get port).state = 0 ∧ (t.ports.get port).key = false ∧
      ((s.ckState = 1 ∨ s.ckState = 2) → t.ckState = 6) ∧ (s.pestat = 1 → t.pestat = 4)) ∧
    (∃ t, exec (.linkBringUp port) s = .next t ∧ t.ports.get port =
      { (s.ports.get port) with state := 2, key := true, packets := 0, tagFail := 0, keyAt := s.timebase, sent := [] }) ∧
    (up → (2 ^ 32 ≤ (s.ports.get port).packets ∨ 3600000000000 ≤ (s.timebase - (s.ports.get port).keyAt).toNat) →
      ∃ t, exec (.linkKeyRenewal port) s = .next t ∧ (t.ports.get port).packets = 0 ∧ (t.ports.get port).keyAt = s.timebase) ∧
    (s.kept = [e] → s.e2eTimeout.toNat ≤ (s.timebase - e.sentAt).toNat → e.tries < s.e2eRetries.toNat →
      ∃ t, exec (.e2eRetryTimeout 0) s = .next t ∧ sent t e.packet ∧
        t.kept = [{ e with sentAt := s.timebase, tries := e.tries + 1 }]) ∧
    (∀ c h id, s.kept = [e] → s.e2eTimeout.toNat ≤ (s.timebase - e.sentAt).toNat → s.e2eRetries.toNat ≤ e.tries →
      e.req = some (c, h, id) → ∃ t, exec (.e2eRetryTimeout 0) s = .next t ∧ t.kept = [] ∧ t.outbox = s.outbox ∧
        ((t.core c).ctx h).reqs.map Req.id = ((s.core c).ctx h).reqs.map Req.id ∧
        ∀ r ∈ ((t.core c).ctx h).reqs, r.id = id → r.reply = none → ∃ va, r.fault = some ⟨0x1D, va, e.dst.setWidth 64⟩) ∧
    (∀ n, s.kept = [e] → s.e2eTimeout.toNat ≤ (s.timebase - e.sentAt).toNat → s.e2eRetries.toNat ≤ e.tries →
      e.req = none → e.eng = some n → ∃ t, exec (.e2eRetryTimeout 0) s = .next t ∧ t.kept = [] ∧
        ∀ r ∈ s.engReqs, r.id = n → r.reply = none → r.unit ≠ 64 → { r with reply := some (0x1D, 0) } ∈ t.engReqs) ∧
    (∃ t, exec (.e2eAckArrival src seq) s = .next t ∧
      (∀ k ∈ s.kept, ¬(k.dst = src ∧ k.packet.e2eseq = seq) → k ∈ t.kept) ∧
      (s.capWait = [] → ∀ k ∈ t.kept, k ∈ s.kept ∧ ¬(k.dst = src ∧ k.packet.e2eseq = seq))) ∧
    (s.reference ≠ .port port → exec (.timestampExchange t1 t2 t3 t4 port slew) s = .next s) ∧
    (s.reference = .port port → ∃ t, exec (.timestampExchange t1 t2 t3 t4 port 0) s = .next t ∧
      t.clkoff = BitVec.ofInt 64 (((t2 - t1).toInt - (t4 - t3).toInt) / 2) ∧ t.timebase = s.timebase ∧ t.mem = s.mem)

/-! ## Decoding and encoding -/

/-- R201 to R207: decoding what `encode` writes for a well-formed instruction gives back that instruction and its length,
whatever follows it, with every operand at every value the encoding admits; and an instruction has no encoding exactly if
it is a happening. -/
def Obligations.RoundTrip : Prop :=
  ∀ (i : Instr), i.wf = true → (i.isHappening = true ↔ encode i = none) ∧
    ∀ bytes rest, encode i = some bytes → decode (bytes ++ rest) = .ok (i, bytes.length)

/-- Words that the spec writes out beside their instructions, one or more of each family. -/
def Obligations.DecodeWords : Prop :=
  (∀ p ∈ ([(0xC0052908, .add .always 9 9 1), (0xC009D507, .mov .always 14 21), (0xC00DA952, .mulhiU .always 13 9 10),
      (0xC0157D53, .lea .always 11 29 10 3), (0xC122F430, .addi .always 23 20 304), (0xDF2249FF, .addi .always 18 9 (-1)),
      (0xC03211F0, .shli .always 16 17 30), (0xC0358001, .ldi 12 1), (0xC8394020, .seth 10 0x20 1),
      (0xC03C4F01, .cmpi .always 2 15 0 .ne), (0xC0402953, .cmp .always 1 9 10 .ge), (0xC04D2101, .pcnt .always 9 1),
      (0xC0506110, .fadd .always 3 1 2), (0xC04D4307, .fkind .always 10 3)] : List (Nat × Instr)),
    decodeTableWord 32 p.1 = some p.2) ∧
  (∀ p ∈ ([(0xC060200E, .prep 1 14), (0xC0646700, .prepx .always 3 7), (0xC0712040, .mfs 9 .cause),
      (0xC0752044, .mts .tvec 9), (0xC06C0005, .trap .always 5), (0xC0680004, .eret .always), (0xC0680907, .idle .always 9),
      (0xC0680001, .endL .always), (0xC0792000, .tagt .always 9)] : List (Nat × Instr)),
    decodeTableWord 32 p.1 = some p.2) ∧
  (∀ p ∈ ([(0xC0913C1A, .ldw .always 9 28 3), (0xDF913FFB, .ldd .always 9 31 (-1)), (0xC094BC38, .stb .always 5 28 7),
      (0xC0993C52, .ldxw .always 9 28 10), (0xC09D3C53, .stxd .always 9 28 10), (0xC0A13C08, .ldf .always 9 28 1),
      (0xC3A01AFC, .sete .always 26 127), (0xC0A05C06, .tfe .always 2 28 0), (0xC0A55453, .ldgD .always 10 20 .stream 2),
      (0xC0A9340B, .stgD .always 9 20 .normal 1), (0xC0B80402, .fenceFull .always .device),
      (0xC0B13457, .aswap .always 9 20 10), (0xC0B53450, .acas .always 9 20 10), (0xC0B41451, .redadd .always 20 10),
      (0xC0C13458, .ldv .always 9 20 11), (0xC0C01464, .hand .always 20 12), (0xC0C53450, .opush .always 9 20 10)] :
      List (Nat × Instr)),
    decodeTableWord 32 p.1 = some p.2) ∧
  (∀ p ∈ ([(0xC0C82218, .vaddW .always 1 2 3), (0xC0CC221B, .vmulhH .always 1 2 3), (0xC0D0221A, .vaddsB .always 1 2 3),
      (0xC0D4221D, .vshrW .always 1 2 3), (0xC0D88533, .vfmaS .always 4 5 6), (0xC0E02202, .vexp2S .always 1 2),
      (0xC0E6221D, .vcmpF .always 1 2 3 .ge), (0xC0E8224F, .vslide .always 1 2 9), (0xC0EC9C10, .vld .always 4 28 2),
      (0xC0F03C1A, .vgath .always 1 28 3), (0xC0F42200, .vrsumS .always 1 2), (0xC0F8A614, .vcvtE4S .always 5 6 2)] :
      List (Nat × Instr)),
    decodeTableWord 32 p.1 = some p.2) ∧
  (∀ p ∈ ([(0xC0812B60, .send .always 9 11 12), (0xC081B4AD, .mcast .always 13 20 21), (0xC0852A58, .bindS .always 9 10 11),
      (0xC0892000, .ticket .always 9), (0xC08C0950, .ecw .always 9 10), (0xC07C824A, .mrd .always 4 2 9),
      (0xC07C1403, .mstoS .always 0 20), (0xC25C2A59, .mma 2 1 10 11 .f8), (0xC0FD2C00, .xqW .always 9 12),
      (0xC0FC0A4B, .xwait .always 10 9), (0xC0FD2456, .xenc .always 9 4 10), (0xC0182A12, .yext .always 1 10 2),
      (0xC0184904, .sbind .always 2 9), (0xC0582921, .cinjHld .always 9 4)] : List (Nat × Instr)),
    decodeTableWord 32 p.1 = some p.2) ∧
  decodeTableWord 16 0x8908 = some (.goGuarded 1 false 1) ∧ decodeTableWord 16 0x9300 = some (.call 3) ∧
  decodeTableWord 16 0xA001 = some .endC

/-- R201, R206, R207: the halfword zero, major opcode 0, functions that are not allocated, and 16-bit operations that are
not allocated are illegal; a guard in form L or E, a set extension field of form R without a guard, a scope above 6 and a
16-bit form with a bit that must be zero are reserved. -/
def Obligations.RefusedEncodings : Prop :=
  ∀ (f : W32) (h : W16) (rest : List Byte),
    let word : Except DecodeError (Instr × Nat) := decode (bytes32 f.toNat ++ rest)
    let half : Except DecodeError (Instr × Nat) := decode (bytes16 h.toNat ++ rest)
    decode (0 :: 0 :: rest) = .error .illegal ∧
    (f.maj = 0 → word = .error .illegal) ∧
    (((f.maj = 0x17 ∨ f.maj = 0x1F ∨ f.maj = 0x20 ∨ f.maj = 0x24 ∨ f.maj = 0x26 ∨ f.maj = 0x28 ∨ f.maj = 0x29 ∨
      f.maj = 0x2B ∨ f.maj = 0x2D ∨ f.maj = 0x37) ∧ f.fn = 7) → word = .error .illegal) ∧
    (((f.maj = 0x0C ∨ f.maj = 0x25 ∨ f.maj = 0x27 ∨ f.maj = 0x2A ∨ f.maj = 0x2F ∨ f.maj = 0x3B) ∧ 4 ≤ f.fn) →
      word = .error .illegal) ∧
    (((f.maj = 0x2E ∨ f.maj = 0x31) ∧ 3 ≤ f.fn) → word = .error .illegal) ∧
    (((f.maj = 0x19 ∨ f.maj = 0x22 ∨ f.maj = 0x30 ∨ f.maj = 0x3C) ∧ 5 ≤ f.fn) → word = .error .illegal) ∧
    ((f.maj = 0x0D ∨ f.maj = 0x0E ∨ f.maj = 0x18 ∨ f.maj = 0x1C ∨ f.maj = 0x1D ∨ f.maj = 0x17 ∧ f.fn ≠ 7) → f.g = true →
      word = .error .reserved) ∧
    ((1 ≤ f.maj ∧ f.maj ≤ 4 ∨ f.maj = 7 ∨ f.maj = 0x10 ∨ f.maj = 0x11 ∨ 0x32 ≤ f.maj ∧ f.maj ≤ 0x36) → f.g = false →
      f.x ≠ 0 → word = .error .reserved) ∧
    (f.maj = 0x2E → f.fn < 3 → 7 ≤ f.a → word = .error .reserved) ∧
    (f.maj = 0x2F → f.fn < 4 → 7 ≤ f.b → word = .error .reserved) ∧
    (h.fmt = 2 → 5 ≤ h.op → half = .error .illegal) ∧
    (h.fmt = 0 → h.lo.val % 2 = 1 → half = .error .reserved) ∧
    (h.fmt = 2 → h.op < 4 → h.lo.val % 8 ≠ 0 → half = .error .reserved)

/-! ## The machine as a whole -/

/-- Log 5: the step of a module with nothing else to do, the turn of a core that the agenda names, and that of a waiting context
which is served (`takeService`), run the instruction whose bytes stand at the PC of the context that issues; what `step` adds is
the passing of time before, with the heartbeats that run out in it and the instants that it reaches (`onTime`), the choice of the
context (`select`), the read-ahead of sequential fetch (`fillQueue`) and what comes about at once after (`settled`). Bytes that do
not decode and a fault of the fetch are taken as traps. The agenda is the model's input (log entry 5). -/
def Obligations.StepRunsDecoded : Prop :=
  ∀ (c : CoreId) (h : CtxId) (bytes : List Byte) (i : Instr) (n : Nat) (e : DecodeError) (q : TrapInfo) (s t u : State),
    ((s.agenda = [] ∧ t = s.onTime 1 ∧ t.issuer = some c ∨
        ∃ k rest, s.agenda = ⟨k, .core c⟩ :: rest ∧ t = { s with agenda := rest }.onTime k) ∧
        t.canIssue c = true ∧ (t.core c).pick = some h ∨
      ∃ k rest, s.agenda = ⟨k, .waiter c h⟩ :: rest ∧ ({ s with agenda := rest }.onTime k).takeService c h = some t) →
    ((t.select c h).fetchInstr c h = (.ok bytes, u) → decode bytes = .ok (i, n) →
      step s = settled (exec i (u.fillQueue c h))) ∧
    ((t.select c h).fetchInstr c h = (.ok bytes, u) → decode bytes = .error e →
      step s = .next (u.trapHere (decodeTrap e)).settle) ∧
    ((t.select c h).fetchInstr c h = (.error q, u) → step s = .next (u.trapHere q).settle)

/-- R201, R5: with no code cached and nothing read ahead, the bytes fetched are those of memory at the translated PC: four
if the halfword there has 3 in its top bits and the next halfword is translated too, else two. -/
def Obligations.FetchReadsMemory : Prop :=
  ∀ (c : CoreId) (h : CtxId) (e f : EA) (s u w : State),
    let pc := ((s.core c).ctx h).pc
    let first := s.mem.readNat e.pa 2
    ((s.core c).ctx h).fq = [] → (s.core c).code = [] → s.globalCheck c pc 2 .fetch = (.ok e, u) →
    s.paUnreachable e.pa = false → s.isLost e.pa = false → e.pa % 16 < 14 →
    (first / 2 ^ 14 ≠ 3 → (s.fetchInstr c h).1 = .ok (s.mem.read e.pa 2)) ∧
    (first / 2 ^ 14 = 3 → ∀ v, u.codeHalf c e.pa = (first, v) → v.globalCheck c (pc + 2) 2 .fetch = (.ok f, w) →
      f.pa = e.pa + 2 → s.paUnreachable f.pa = false → (s.fetchInstr c h).1 = .ok (s.mem.read e.pa 4))

/-- R207, R360, R364: an illegal encoding is fault 0x01, a reserved one 0x02; a precise trap forms the record, stops the context
and makes context 13 live at TVEC; while context 13 is live the record waits, records of one cycle in the order of their
contexts, which a handler entered in the same cycle and not yet begun follows too; a fault in context 13 itself halts the core,
with a machine check of kind 4 that records its cause. That the second record of a double fault is kept is log entry 10. -/
def Obligations.TrapEntryResults : Prop :=
  ∀ (q : TrapInfo) (s : State),
    ((decodeTrap .illegal).cause = 0x01 ∧ (decodeTrap .reserved).cause = 0x02) ∧
    (s.trapFree → s.trapsTo (s.trapHere q) q.cause q.faddr q.finfo ∧ s.sameBytes (s.trapHere q) ∧
      ∀ h, h ≠ 13 → h ≠ s.curCtx → (s.trapHere q).me.ctx h = s.me.ctx h) ∧
    (s.curCtx ≠ 13 → (s.me.ctx 13).live = true → s.me.trap.at_ ≠ s.cycle → (s.trapHere q).me.trap = s.me.trap ∧
      (∃ r before after, s.me.recs = before ++ after ∧ (s.trapHere q).me.recs = before ++ r :: after ∧ r.cause = q.cause ∧
        r.ctx = s.curCtx.val ∧ r.fpc = s.cx.pc ∧ r.faddr = q.faddr ∧ r.finfo = q.finfo ∧ r.at_ = s.cycle ∧
        (∀ p ∈ before, p.at_ < s.cycle ∨ p.at_ = s.cycle ∧ p.ctx ≤ s.curCtx.val) ∧
        ∀ p, after.head? = some p → s.cycle < p.at_ ∨ p.at_ = s.cycle ∧ s.curCtx.val < p.ctx) ∧
      (s.trapHere q).cx = { s.cx with stop := .faulted } ∧ (s.trapHere q).me.ctx 13 = s.me.ctx 13) ∧
    (s.curCtx ≠ 13 → (s.me.ctx 13).live = true → s.me.trap.at_ = s.cycle → s.curCtx.val < s.me.trap.ctx →
      (s.me.ctx 13).pc = s.me.tvec.setWidth 64 → (s.me.ctx 13).stop = .no → (s.trapHere q).me.trap.ctx = s.curCtx.val ∧
      (s.trapHere q).me.trap.cause = q.cause ∧ s.me.trap ∈ (s.trapHere q).me.recs ∧
      ((s.trapHere q).me.ctx 13).x.get 1 = dw s.curCtx.val) ∧
    (s.curCtx = 13 → (s.trapHere q).me.halted = true ∧ (s.trapHere q).mcKind = 4 ∧ (s.trapHere q).mcCause = q.cause ∧
      (s.trapHere q).mcCore = BitVec.ofNat 13 s.cur.val ∧ (s.trapHere q).mcCount = s.mcCount + 1 ∧
      (s.trapHere q).me.trap = s.me.trap)

/-- R203: a 32-bit instruction whose guard is false only advances the PC: for MAJ 0x32 to 0x3A and 0x3E if no lane of the
guard passes, for every other if lane 0 fails. -/
def Obligations.FalseGuardResults : Prop :=
  ∀ (i : Instr) (f : W32) (s : State), i.wf = true → i.fields = some (.w32 f) → f.g = true →
    ((0x32 ≤ f.maj ∧ f.maj ≤ 0x3A ∨ f.maj = 0x3E) → (∀ l, l < 32 → s.lanePasses (guardOf f.x) l = false) →
      exec i s = .next (s.retire 4)) ∧
    (¬(0x32 ≤ f.maj ∧ f.maj ≤ 0x3A ∨ f.maj = 0x3E) → s.lanePasses (guardOf f.x) 0 = false → exec i s = .next (s.retire 4))

/-- Memory, scratchpads, full bits and the directory keep their canonical forms (log 4, Memory.wf): every step keeps
`memOk`. -/
def Obligations.StepKeepsCanonicalMemory : Prop := ∀ (s t : State), s.memOk → step s = .next t → t.memOk

/-- What the spec gives for reset: R12 (no context is live), R18 (TAGUNIT, the delay bounds, LAST), R23 (slots), R63 (every
full/empty bit empty), R110 (QUANTUM), R141 (GANG_CFG), R161 (channel ids), R342 (the window, PESTAT, CKSTAT, MCCOUNT), R46,
R359. Memory is in canonical form there. The canonical form is the model's (log entry 4), and so is TIMEBASE 0, for which the spec
gives no reset value (log entry 1). -/
def Obligations.ResetState : Prop :=
  let s := State.reset
  s.memOk ∧ s.timebase = 0 ∧ s.winCred = 4096 ∧ s.winDrop = 0 ∧ s.pestat = 0 ∧ s.ckState = 0 ∧ s.mcCount = 0 ∧
    s.launches = [] ∧ (∀ n, (s.counter n).live = false ∧ (s.counter n).count = 0) ∧
    ∀ c, let k := s.core c
      k.full = [] ∧ k.fenced = false ∧ k.halted = false ∧ k.inbox = [] ∧ k.glog = 0 ∧ k.quantum = 4096 ∧
      k.last = { t := 0, m := 0 } ∧ k.tagunit = 1000 ∧ k.dbDie = 40 ∧ k.dbPkg = 120 ∧ k.dbChas = 600 ∧ k.dbFar = 4000 ∧
      k.beatIv = 3000000 ∧ k.tvec = 0 ∧ k.recs = [] ∧ k.caps = [] ∧
      (∀ h, (k.ctx h).live = false ∧ (k.ctx h).fflags = 0 ∧ (k.ctx h).fmode = 0) ∧
      (∀ n, (k.slots.get n).bound = false ∧ (k.slots.get n).gen = 0 ∧ (k.slots.get n).late = none) ∧
      (∀ n, (k.chans.get n).next = 1 ∧ (k.chans.get n).done = 0) ∧
      (∀ n, (k.layouts.get n).record = none) ∧ ∀ n, (k.streams.get n).bound = none
end

