-- ==== Sys2Proof/Laws/Maps.lean ====
section
/-! SUPPORT. The laws of finite maps and of memory: a read after a write, and that every memory operation keeps the
canonical form. -/

namespace Sys2Proof.Machine

/-! ## Finite maps -/

theorem KMap.get_put_self {α : Type} (d : α) (m : KMap α) (i : Nat) (w : α) : (m.put i w).get d i = w := by
  induction m with
  | nil => simp [KMap.put, KMap.get]
  | cons e r ih =>
    obtain ⟨k, v⟩ := e
    by_cases h1 : i < k
    · simp [KMap.put, KMap.get, h1]
    · by_cases h2 : i = k
      · simp [KMap.put, KMap.get, h2]
      · simpa [KMap.put, KMap.get, h1, h2] using ih

theorem KMap.get_put_ne {α : Type} (d : α) (m : KMap α) (i j : Nat) (w : α) (h : j ≠ i) :
    (m.put i w).get d j = m.get d j := by
  induction m with
  | nil => simp [KMap.put, KMap.get, h]
  | cons e r ih =>
    obtain ⟨k, v⟩ := e
    by_cases h1 : i < k
    · simp [KMap.put, KMap.get, h1, h]
    · by_cases h2 : i = k
      · subst h2; simp [KMap.put, KMap.get, h]
      · simp [KMap.put, KMap.get, h1, h2, ih]

theorem KMap.find_put_self {α : Type} (m : KMap α) (i : Nat) (w : α) : (m.put i w).find i = some w := by
  induction m with
  | nil => simp [KMap.put, KMap.find]
  | cons e r ih =>
    obtain ⟨k, v⟩ := e
    by_cases h1 : i < k
    · simp [KMap.put, KMap.find, h1]
    · by_cases h2 : i = k
      · simp [KMap.put, KMap.find, h2]
      · simpa [KMap.put, KMap.find, h1, h2] using ih

/-- What stands in a map after a put stood there before, or is what was put. -/
theorem KMap.mem_put {α : Type} (m : KMap α) (i : Nat) (w : α) (e : Nat × α) (h : e ∈ m.put i w) :
    e ∈ m ∨ e = (i, w) := by
  induction m with
  | nil => simpa [KMap.put] using h
  | cons e' r ih =>
    obtain ⟨k, v⟩ := e'
    unfold KMap.put at h
    split at h
    · simp only [List.mem_cons] at h ⊢; tauto
    · split at h
      · simp only [List.mem_cons] at h ⊢; tauto
      · simp only [List.mem_cons] at h ⊢
        rcases h with h | h
        · tauto
        · rcases ih h with h | h <;> tauto

/-- A value read from a map stands in it, or is the default. -/
theorem KMap.get_mem {α : Type} (d : α) (m : KMap α) (i : Nat) : (i, m.get d i) ∈ m ∨ m.get d i = d := by
  induction m with
  | nil => simp [KMap.get]
  | cons e r ih =>
    obtain ⟨k, v⟩ := e
    by_cases h : i = k
    · subst h; simp [KMap.get]
    · simp only [KMap.get, h, if_false, List.mem_cons]
      tauto

/-! ## One byte -/

theorem Memory.get_below (m : Memory) (lo a : Nat) (h : m.wfFrom lo = true) (ha : a < lo) : m.get a = 0 := by
  induction m generalizing lo with
  | nil => rfl
  | cons e r ih =>
    obtain ⟨k, v⟩ := e
    simp only [Memory.wfFrom, Bool.and_eq_true, decide_eq_true_eq] at h
    have : a ≠ k := by omega
    simp only [Memory.get, this, if_false]
    exact ih (k + 1) h.2 (by omega)

theorem Memory.wfFrom_mono (m : Memory) (lo hi : Nat) (h : m.wfFrom hi = true) (hl : lo ≤ hi) :
    m.wfFrom lo = true := by
  cases m with
  | nil => rfl
  | cons e r =>
    obtain ⟨k, v⟩ := e
    simp only [Memory.wfFrom, Bool.and_eq_true, decide_eq_true_eq] at h ⊢
    exact ⟨⟨by omega, h.1.2⟩, h.2⟩

theorem Memory.wfFrom_clear (m : Memory) (lo a : Nat) (h : m.wfFrom lo = true) : (m.clear a).wfFrom lo = true := by
  induction m generalizing lo with
  | nil => rfl
  | cons e r ih =>
    obtain ⟨k, v⟩ := e
    simp only [Memory.wfFrom, Bool.and_eq_true, decide_eq_true_eq] at h
    by_cases hk : a = k
    · simp only [Memory.clear, hk, if_true]; exact Memory.wfFrom_mono r lo (k + 1) h.2 (by omega)
    · simp only [Memory.clear, hk, if_false, Memory.wfFrom, Bool.and_eq_true, decide_eq_true_eq]
      exact ⟨h.1, ih (k + 1) h.2⟩

theorem Memory.wfFrom_list (m : Memory) (lo a : Nat) (b : Byte) (h : m.wfFrom lo = true) (ha : lo ≤ a) (hb : b ≠ 0) :
    (m.list a b).wfFrom lo = true := by
  induction m generalizing lo with
  | nil => simp only [Memory.list, Memory.wfFrom, Bool.and_eq_true, decide_eq_true_eq]; exact ⟨⟨ha, hb⟩, trivial⟩
  | cons e r ih =>
    obtain ⟨k, v⟩ := e
    simp only [Memory.wfFrom, Bool.and_eq_true, decide_eq_true_eq] at h
    by_cases h1 : a < k
    · simp only [Memory.list, h1, if_true, Memory.wfFrom, Bool.and_eq_true, decide_eq_true_eq]
      exact ⟨⟨ha, hb⟩, ⟨by omega, h.1.2⟩, h.2⟩
    · by_cases h2 : a = k
      · subst h2
        simp only [Memory.list, lt_irrefl, if_false, if_true, Memory.wfFrom, Bool.and_eq_true, decide_eq_true_eq]
        exact ⟨⟨ha, hb⟩, h.2⟩
      · simp only [Memory.list, h1, h2, if_false, Memory.wfFrom, Bool.and_eq_true, decide_eq_true_eq]
        exact ⟨h.1, ih (k + 1) h.2 (by omega)⟩

/-- Writing one byte keeps the canonical form. -/
theorem Memory.put_wf (m : Memory) (a : Nat) (b : Byte) (h : m.wf = true) : (m.put a b).wf = true := by
  unfold Memory.put
  split
  · exact Memory.wfFrom_clear m 0 a h
  · exact Memory.wfFrom_list m 0 a b h (Nat.zero_le a) (by assumption)

theorem Memory.get_clear_self (m : Memory) (lo a : Nat) (h : m.wfFrom lo = true) : (m.clear a).get a = 0 := by
  induction m generalizing lo with
  | nil => rfl
  | cons e r ih =>
    obtain ⟨k, v⟩ := e
    simp only [Memory.wfFrom, Bool.and_eq_true, decide_eq_true_eq] at h
    by_cases hk : a = k
    · simp only [Memory.clear, hk, if_true]; exact Memory.get_below r (k + 1) k h.2 (by omega)
    · simp only [Memory.clear, hk, if_false, Memory.get]; exact ih (k + 1) h.2

theorem Memory.get_clear_ne (m : Memory) (a i : Nat) (hi : i ≠ a) : (m.clear a).get i = m.get i := by
  induction m with
  | nil => rfl
  | cons e r ih =>
    obtain ⟨k, v⟩ := e
    by_cases hk : a = k
    · subst hk; simp [Memory.clear, Memory.get, hi]
    · simp [Memory.clear, Memory.get, hk, ih]

theorem Memory.get_list_self (m : Memory) (a : Nat) (b : Byte) : (m.list a b).get a = b := by
  induction m with
  | nil => simp [Memory.list, Memory.get]
  | cons e r ih =>
    obtain ⟨k, v⟩ := e
    by_cases h1 : a < k
    · simp [Memory.list, Memory.get, h1]
    · by_cases h2 : a = k
      · simp [Memory.list, Memory.get, h2]
      · simpa [Memory.list, Memory.get, h1, h2] using ih

theorem Memory.get_list_ne (m : Memory) (a i : Nat) (b : Byte) (hi : i ≠ a) : (m.list a b).get i = m.get i := by
  induction m with
  | nil => simp [Memory.list, Memory.get, hi]
  | cons e r ih =>
    obtain ⟨k, v⟩ := e
    by_cases h1 : a < k
    · simp [Memory.list, Memory.get, h1, hi]
    · by_cases h2 : a = k
      · subst h2; simp [Memory.list, Memory.get, hi]
      · simp [Memory.list, Memory.get, h1, h2, ih]

/-- A byte reads as what was written last. -/
theorem Memory.get_put_self (m : Memory) (a : Nat) (b : Byte) (h : m.wf = true) : (m.put a b).get a = b := by
  unfold Memory.put
  split
  · next hb => rw [hb]; exact Memory.get_clear_self m 0 a h
  · exact Memory.get_list_self m a b

/-- Writing one byte leaves every other byte. -/
theorem Memory.get_put_ne (m : Memory) (a i : Nat) (b : Byte) (hi : i ≠ a) : (m.put a b).get i = m.get i := by
  unfold Memory.put
  split
  · exact Memory.get_clear_ne m a i hi
  · exact Memory.get_list_ne m a i b hi

/-! ## Several bytes -/

theorem Memory.write_wf (m : Memory) (a : Nat) (bs : List Byte) (h : m.wf = true) : (m.write a bs).wf = true := by
  induction bs generalizing m a with
  | nil => exact h
  | cons b r ih => exact ih (m.put a b) (a + 1) (Memory.put_wf m a b h)

theorem Memory.writeNat_wf (m : Memory) (a n v : Nat) (h : m.wf = true) : (m.writeNat a n v).wf = true :=
  Memory.write_wf m a _ h

/-- A write leaves every byte outside the written ones. -/
theorem Memory.get_write_out (m : Memory) (a i : Nat) (bs : List Byte) (h : i < a ∨ a + bs.length ≤ i) :
    (m.write a bs).get i = m.get i := by
  induction bs generalizing m a with
  | nil => rfl
  | cons b r ih =>
    simp only [List.length_cons] at h
    rw [Memory.write, ih (m.put a b) (a + 1) (by omega), Memory.get_put_ne m a i b (by omega)]

/-- What a write wrote is read back. -/
theorem Memory.get_write_in (m : Memory) (a i : Nat) (bs : List Byte) (hw : m.wf = true) (h : i < bs.length) :
    (m.write a bs).get (a + i) = bs.getD i 0 := by
  induction bs generalizing m a i with
  | nil => simp at h
  | cons b r ih =>
    rw [Memory.write]
    cases i with
    | zero =>
      rw [Memory.get_write_out _ _ _ _ (by omega)]
      simpa using Memory.get_put_self m a b hw
    | succ j =>
      have := ih (m.put a b) (a + 1) j (Memory.put_wf m a b hw) (by simpa using h)
      simpa [Nat.add_assoc, Nat.add_comm 1 j] using this

theorem leBytes_length (n v : Nat) : (leBytes n v).length = n := by
  induction n generalizing v with
  | zero => rfl
  | succ n ih => simp [leBytes, ih]

theorem leNat_leBytes (n v : Nat) : leNat (leBytes n v) = v % 256 ^ n := by
  induction n generalizing v with
  | zero => simp [leBytes, leNat, Nat.mod_one]
  | succ n ih =>
    have h1 : (BitVec.ofNat 8 v).toNat = v % 256 := BitVec.toNat_ofNat v 8
    rw [leBytes, leNat, ih, h1, show 256 ^ (n + 1) = 256 * 256 ^ n from Nat.pow_succ', Nat.mod_mul]

theorem Memory.read_congr (m m' : Memory) (a n : Nat) (h : ∀ i, i < n → m.get (a + i) = m'.get (a + i)) :
    m.read a n = m'.read a n := by
  induction n generalizing a with
  | zero => rfl
  | succ n ih =>
    simp only [Memory.read]
    rw [ih (a + 1) (fun i hi => by simpa [Nat.add_assoc, Nat.add_comm 1 i] using h (i + 1) (by omega))]
    have := h 0 (by omega)
    simp only [Nat.add_zero] at this
    rw [this]

theorem Memory.read_write_self (m : Memory) (a : Nat) (bs : List Byte) (hw : m.wf = true) :
    (m.write a bs).read a bs.length = bs := by
  induction bs generalizing m a with
  | nil => rfl
  | cons b r ih =>
    simp only [List.length_cons, Memory.read, Memory.write]
    rw [ih (m.put a b) (a + 1) (Memory.put_wf m a b hw), Memory.get_write_out _ _ _ _ (by omega),
      Memory.get_put_self m a b hw]

/-- A number written reads back, cut to its bytes. -/
theorem Memory.readNat_writeNat (m : Memory) (a n v : Nat) (hw : m.wf = true) :
    (m.writeNat a n v).readNat a n = v % 256 ^ n := by
  have h := Memory.read_write_self m a (leBytes n v) hw
  rw [leBytes_length] at h
  unfold Memory.readNat Memory.writeNat
  rw [h, leNat_leBytes]

/-- Bytes elsewhere read as before. -/
theorem Memory.readNat_write_out (m : Memory) (a n b : Nat) (bs : List Byte)
    (h : b + n ≤ a ∨ a + bs.length ≤ b) : (m.write a bs).readNat b n = m.readNat b n := by
  unfold Memory.readNat
  rw [Memory.read_congr _ m b n (fun i hi => Memory.get_write_out m a (b + i) bs (by omega))]

theorem Memory.wfFrom_filter (m : Memory) (lo : Nat) (p : Nat × Byte → Bool) (h : m.wfFrom lo = true) :
    Memory.wfFrom lo (m.filter p) = true := by
  induction m generalizing lo with
  | nil => rfl
  | cons e r ih =>
    obtain ⟨k, v⟩ := e
    simp only [Memory.wfFrom, Bool.and_eq_true, decide_eq_true_eq] at h
    simp only [List.filter_cons]
    split
    · simp only [Memory.wfFrom, Bool.and_eq_true, decide_eq_true_eq]
      exact ⟨h.1, ih (k + 1) h.2⟩
    · exact Memory.wfFrom_mono _ lo (k + 1) (ih (k + 1) h.2) (by omega)

/-- Dropping bytes keeps the canonical form. -/
theorem Memory.filter_wf (m : Memory) (p : Nat × Byte → Bool) (h : m.wf = true) :
    Memory.wf (m.filter p) = true := Memory.wfFrom_filter m 0 p h

/-! ## Vectors of fixed length -/

theorem vget_vput_self {α : Type} {n : Nat} (v : Vector α n) (i : Fin n) (x : α) : (vput v i x).get i = x := by
  unfold vput
  exact Vector.getElem_set_self i.isLt

theorem vget_vput_ne {α : Type} {n : Nat} (v : Vector α n) (i j : Fin n) (x : α) (h : j ≠ i) :
    (vput v i x).get j = v.get j := by
  unfold vput
  exact Vector.getElem_set_ne i.isLt j.isLt (fun e => h (Fin.ext e.symm))

theorem vget_ofFn {α : Type} {n : Nat} (f : Fin n → α) (i : Fin n) : (Vector.ofFn f).get i = f i :=
  Vector.getElem_ofFn i.isLt

end Sys2Proof.Machine
end

