-- ==== Sys2Proof/Laws/State.lean ====
section
/-! SUPPORT. One lemma per field per update of the state: what an update leaves, and what it writes. -/

namespace Sys2Proof.Machine

/-! ## Replacing or changing a core of the module -/

@[simp] theorem State.setCore_agenda (s : State) (c : CoreId) (k : Core) : (s.setCore c k).agenda = s.agenda := rfl
@[simp] theorem State.modCore_agenda (s : State) (c : CoreId) (g : Core → Core) : (s.modCore c g).agenda = s.agenda := rfl
@[simp] theorem State.modCtx_agenda (s : State) (c : CoreId) (h : CtxId) (g : Ctx → Ctx) : (s.modCtx c h g).agenda = s.agenda := rfl
@[simp] theorem State.modMe_agenda (s : State) (g : Core → Core) : (s.modMe g).agenda = s.agenda := rfl
@[simp] theorem State.modCx_agenda (s : State) (g : Ctx → Ctx) : (s.modCx g).agenda = s.agenda := rfl
@[simp] theorem State.setCore_cur (s : State) (c : CoreId) (k : Core) : (s.setCore c k).cur = s.cur := rfl
@[simp] theorem State.modCore_cur (s : State) (c : CoreId) (g : Core → Core) : (s.modCore c g).cur = s.cur := rfl
@[simp] theorem State.modCtx_cur (s : State) (c : CoreId) (h : CtxId) (g : Ctx → Ctx) : (s.modCtx c h g).cur = s.cur := rfl
@[simp] theorem State.modMe_cur (s : State) (g : Core → Core) : (s.modMe g).cur = s.cur := rfl
@[simp] theorem State.modCx_cur (s : State) (g : Ctx → Ctx) : (s.modCx g).cur = s.cur := rfl
@[simp] theorem State.setCore_curCtx (s : State) (c : CoreId) (k : Core) : (s.setCore c k).curCtx = s.curCtx := rfl
@[simp] theorem State.modCore_curCtx (s : State) (c : CoreId) (g : Core → Core) : (s.modCore c g).curCtx = s.curCtx := rfl
@[simp] theorem State.modCtx_curCtx (s : State) (c : CoreId) (h : CtxId) (g : Ctx → Ctx) : (s.modCtx c h g).curCtx = s.curCtx := rfl
@[simp] theorem State.modMe_curCtx (s : State) (g : Core → Core) : (s.modMe g).curCtx = s.curCtx := rfl
@[simp] theorem State.modCx_curCtx (s : State) (g : Ctx → Ctx) : (s.modCx g).curCtx = s.curCtx := rfl
@[simp] theorem State.setCore_freeCtr (s : State) (c : CoreId) (k : Core) : (s.setCore c k).freeCtr = s.freeCtr := rfl
@[simp] theorem State.modCore_freeCtr (s : State) (c : CoreId) (g : Core → Core) : (s.modCore c g).freeCtr = s.freeCtr := rfl
@[simp] theorem State.modCtx_freeCtr (s : State) (c : CoreId) (h : CtxId) (g : Ctx → Ctx) : (s.modCtx c h g).freeCtr = s.freeCtr := rfl
@[simp] theorem State.modMe_freeCtr (s : State) (g : Core → Core) : (s.modMe g).freeCtr = s.freeCtr := rfl
@[simp] theorem State.modCx_freeCtr (s : State) (g : Ctx → Ctx) : (s.modCx g).freeCtr = s.freeCtr := rfl
@[simp] theorem State.setCore_reqCtr (s : State) (c : CoreId) (k : Core) : (s.setCore c k).reqCtr = s.reqCtr := rfl
@[simp] theorem State.modCore_reqCtr (s : State) (c : CoreId) (g : Core → Core) : (s.modCore c g).reqCtr = s.reqCtr := rfl
@[simp] theorem State.modCtx_reqCtr (s : State) (c : CoreId) (h : CtxId) (g : Ctx → Ctx) : (s.modCtx c h g).reqCtr = s.reqCtr := rfl
@[simp] theorem State.modMe_reqCtr (s : State) (g : Core → Core) : (s.modMe g).reqCtr = s.reqCtr := rfl
@[simp] theorem State.modCx_reqCtr (s : State) (g : Ctx → Ctx) : (s.modCx g).reqCtr = s.reqCtr := rfl
@[simp] theorem State.setCore_mem (s : State) (c : CoreId) (k : Core) : (s.setCore c k).mem = s.mem := rfl
@[simp] theorem State.modCore_mem (s : State) (c : CoreId) (g : Core → Core) : (s.modCore c g).mem = s.mem := rfl
@[simp] theorem State.modCtx_mem (s : State) (c : CoreId) (h : CtxId) (g : Ctx → Ctx) : (s.modCtx c h g).mem = s.mem := rfl
@[simp] theorem State.modMe_mem (s : State) (g : Core → Core) : (s.modMe g).mem = s.mem := rfl
@[simp] theorem State.modCx_mem (s : State) (g : Ctx → Ctx) : (s.modCx g).mem = s.mem := rfl
@[simp] theorem State.setCore_past (s : State) (c : CoreId) (k : Core) : (s.setCore c k).past = s.past := rfl
@[simp] theorem State.modCore_past (s : State) (c : CoreId) (g : Core → Core) : (s.modCore c g).past = s.past := rfl
@[simp] theorem State.modCtx_past (s : State) (c : CoreId) (h : CtxId) (g : Ctx → Ctx) : (s.modCtx c h g).past = s.past := rfl
@[simp] theorem State.modMe_past (s : State) (g : Core → Core) : (s.modMe g).past = s.past := rfl
@[simp] theorem State.modCx_past (s : State) (g : Ctx → Ctx) : (s.modCx g).past = s.past := rfl
@[simp] theorem State.setCore_fulls (s : State) (c : CoreId) (k : Core) : (s.setCore c k).fulls = s.fulls := rfl
@[simp] theorem State.modCore_fulls (s : State) (c : CoreId) (g : Core → Core) : (s.modCore c g).fulls = s.fulls := rfl
@[simp] theorem State.modCtx_fulls (s : State) (c : CoreId) (h : CtxId) (g : Ctx → Ctx) : (s.modCtx c h g).fulls = s.fulls := rfl
@[simp] theorem State.modMe_fulls (s : State) (g : Core → Core) : (s.modMe g).fulls = s.fulls := rfl
@[simp] theorem State.modCx_fulls (s : State) (g : Ctx → Ctx) : (s.modCx g).fulls = s.fulls := rfl
@[simp] theorem State.setCore_hostSeen (s : State) (c : CoreId) (k : Core) : (s.setCore c k).hostSeen = s.hostSeen := rfl
@[simp] theorem State.modCore_hostSeen (s : State) (c : CoreId) (g : Core → Core) : (s.modCore c g).hostSeen = s.hostSeen := rfl
@[simp] theorem State.modCtx_hostSeen (s : State) (c : CoreId) (h : CtxId) (g : Ctx → Ctx) : (s.modCtx c h g).hostSeen = s.hostSeen := rfl
@[simp] theorem State.modMe_hostSeen (s : State) (g : Core → Core) : (s.modMe g).hostSeen = s.hostSeen := rfl
@[simp] theorem State.modCx_hostSeen (s : State) (g : Ctx → Ctx) : (s.modCx g).hostSeen = s.hostSeen := rfl
@[simp] theorem State.setCore_cycle (s : State) (c : CoreId) (k : Core) : (s.setCore c k).cycle = s.cycle := rfl
@[simp] theorem State.modCore_cycle (s : State) (c : CoreId) (g : Core → Core) : (s.modCore c g).cycle = s.cycle := rfl
@[simp] theorem State.modCtx_cycle (s : State) (c : CoreId) (h : CtxId) (g : Ctx → Ctx) : (s.modCtx c h g).cycle = s.cycle := rfl
@[simp] theorem State.modMe_cycle (s : State) (g : Core → Core) : (s.modMe g).cycle = s.cycle := rfl
@[simp] theorem State.modCx_cycle (s : State) (g : Ctx → Ctx) : (s.modCx g).cycle = s.cycle := rfl
@[simp] theorem State.setCore_lateW (s : State) (c : CoreId) (k : Core) : (s.setCore c k).lateW = s.lateW := rfl
@[simp] theorem State.modCore_lateW (s : State) (c : CoreId) (g : Core → Core) : (s.modCore c g).lateW = s.lateW := rfl
@[simp] theorem State.modCtx_lateW (s : State) (c : CoreId) (h : CtxId) (g : Ctx → Ctx) : (s.modCtx c h g).lateW = s.lateW := rfl
@[simp] theorem State.modMe_lateW (s : State) (g : Core → Core) : (s.modMe g).lateW = s.lateW := rfl
@[simp] theorem State.modCx_lateW (s : State) (g : Ctx → Ctx) : (s.modCx g).lateW = s.lateW := rfl
@[simp] theorem State.setCore_lost (s : State) (c : CoreId) (k : Core) : (s.setCore c k).lost = s.lost := rfl
@[simp] theorem State.modCore_lost (s : State) (c : CoreId) (g : Core → Core) : (s.modCore c g).lost = s.lost := rfl
@[simp] theorem State.modCtx_lost (s : State) (c : CoreId) (h : CtxId) (g : Ctx → Ctx) : (s.modCtx c h g).lost = s.lost := rfl
@[simp] theorem State.modMe_lost (s : State) (g : Core → Core) : (s.modMe g).lost = s.lost := rfl
@[simp] theorem State.modCx_lost (s : State) (g : Ctx → Ctx) : (s.modCx g).lost = s.lost := rfl
@[simp] theorem State.setCore_timebase (s : State) (c : CoreId) (k : Core) : (s.setCore c k).timebase = s.timebase := rfl
@[simp] theorem State.modCore_timebase (s : State) (c : CoreId) (g : Core → Core) : (s.modCore c g).timebase = s.timebase := rfl
@[simp] theorem State.modCtx_timebase (s : State) (c : CoreId) (h : CtxId) (g : Ctx → Ctx) : (s.modCtx c h g).timebase = s.timebase := rfl
@[simp] theorem State.modMe_timebase (s : State) (g : Core → Core) : (s.modMe g).timebase = s.timebase := rfl
@[simp] theorem State.modCx_timebase (s : State) (g : Ctx → Ctx) : (s.modCx g).timebase = s.timebase := rfl
@[simp] theorem State.setCore_phase (s : State) (c : CoreId) (k : Core) : (s.setCore c k).phase = s.phase := rfl
@[simp] theorem State.modCore_phase (s : State) (c : CoreId) (g : Core → Core) : (s.modCore c g).phase = s.phase := rfl
@[simp] theorem State.modCtx_phase (s : State) (c : CoreId) (h : CtxId) (g : Ctx → Ctx) : (s.modCtx c h g).phase = s.phase := rfl
@[simp] theorem State.modMe_phase (s : State) (g : Core → Core) : (s.modMe g).phase = s.phase := rfl
@[simp] theorem State.modCx_phase (s : State) (g : Ctx → Ctx) : (s.modCx g).phase = s.phase := rfl
@[simp] theorem State.setCore_mhz (s : State) (c : CoreId) (k : Core) : (s.setCore c k).mhz = s.mhz := rfl
@[simp] theorem State.modCore_mhz (s : State) (c : CoreId) (g : Core → Core) : (s.modCore c g).mhz = s.mhz := rfl
@[simp] theorem State.modCtx_mhz (s : State) (c : CoreId) (h : CtxId) (g : Ctx → Ctx) : (s.modCtx c h g).mhz = s.mhz := rfl
@[simp] theorem State.modMe_mhz (s : State) (g : Core → Core) : (s.modMe g).mhz = s.mhz := rfl
@[simp] theorem State.modCx_mhz (s : State) (g : Ctx → Ctx) : (s.modCx g).mhz = s.mhz := rfl
@[simp] theorem State.setCore_powerCap (s : State) (c : CoreId) (k : Core) : (s.setCore c k).powerCap = s.powerCap := rfl
@[simp] theorem State.modCore_powerCap (s : State) (c : CoreId) (g : Core → Core) : (s.modCore c g).powerCap = s.powerCap := rfl
@[simp] theorem State.modCtx_powerCap (s : State) (c : CoreId) (h : CtxId) (g : Ctx → Ctx) : (s.modCtx c h g).powerCap = s.powerCap := rfl
@[simp] theorem State.modMe_powerCap (s : State) (g : Core → Core) : (s.modMe g).powerCap = s.powerCap := rfl
@[simp] theorem State.modCx_powerCap (s : State) (g : Ctx → Ctx) : (s.modCx g).powerCap = s.powerCap := rfl
@[simp] theorem State.setCore_shutdown (s : State) (c : CoreId) (k : Core) : (s.setCore c k).shutdown = s.shutdown := rfl
@[simp] theorem State.modCore_shutdown (s : State) (c : CoreId) (g : Core → Core) : (s.modCore c g).shutdown = s.shutdown := rfl
@[simp] theorem State.modCtx_shutdown (s : State) (c : CoreId) (h : CtxId) (g : Ctx → Ctx) : (s.modCtx c h g).shutdown = s.shutdown := rfl
@[simp] theorem State.modMe_shutdown (s : State) (g : Core → Core) : (s.modMe g).shutdown = s.shutdown := rfl
@[simp] theorem State.modCx_shutdown (s : State) (g : Ctx → Ctx) : (s.modCx g).shutdown = s.shutdown := rfl
@[simp] theorem State.setCore_inReset (s : State) (c : CoreId) (k : Core) : (s.setCore c k).inReset = s.inReset := rfl
@[simp] theorem State.modCore_inReset (s : State) (c : CoreId) (g : Core → Core) : (s.modCore c g).inReset = s.inReset := rfl
@[simp] theorem State.modCtx_inReset (s : State) (c : CoreId) (h : CtxId) (g : Ctx → Ctx) : (s.modCtx c h g).inReset = s.inReset := rfl
@[simp] theorem State.modMe_inReset (s : State) (g : Core → Core) : (s.modMe g).inReset = s.inReset := rfl
@[simp] theorem State.modCx_inReset (s : State) (g : Ctx → Ctx) : (s.modCx g).inReset = s.inReset := rfl
@[simp] theorem State.setCore_rollback (s : State) (c : CoreId) (k : Core) : (s.setCore c k).rollback = s.rollback := rfl
@[simp] theorem State.modCore_rollback (s : State) (c : CoreId) (g : Core → Core) : (s.modCore c g).rollback = s.rollback := rfl
@[simp] theorem State.modCtx_rollback (s : State) (c : CoreId) (h : CtxId) (g : Ctx → Ctx) : (s.modCtx c h g).rollback = s.rollback := rfl
@[simp] theorem State.modMe_rollback (s : State) (g : Core → Core) : (s.modMe g).rollback = s.rollback := rfl
@[simp] theorem State.modCx_rollback (s : State) (g : Ctx → Ctx) : (s.modCx g).rollback = s.rollback := rfl
@[simp] theorem State.setCore_firmware (s : State) (c : CoreId) (k : Core) : (s.setCore c k).firmware = s.firmware := rfl
@[simp] theorem State.modCore_firmware (s : State) (c : CoreId) (g : Core → Core) : (s.modCore c g).firmware = s.firmware := rfl
@[simp] theorem State.modCtx_firmware (s : State) (c : CoreId) (h : CtxId) (g : Ctx → Ctx) : (s.modCtx c h g).firmware = s.firmware := rfl
@[simp] theorem State.modMe_firmware (s : State) (g : Core → Core) : (s.modMe g).firmware = s.firmware := rfl
@[simp] theorem State.modCx_firmware (s : State) (g : Ctx → Ctx) : (s.modCx g).firmware = s.firmware := rfl
@[simp] theorem State.setCore_fwVersion (s : State) (c : CoreId) (k : Core) : (s.setCore c k).fwVersion = s.fwVersion := rfl
@[simp] theorem State.modCore_fwVersion (s : State) (c : CoreId) (g : Core → Core) : (s.modCore c g).fwVersion = s.fwVersion := rfl
@[simp] theorem State.modCtx_fwVersion (s : State) (c : CoreId) (h : CtxId) (g : Ctx → Ctx) : (s.modCtx c h g).fwVersion = s.fwVersion := rfl
@[simp] theorem State.modMe_fwVersion (s : State) (g : Core → Core) : (s.modMe g).fwVersion = s.fwVersion := rfl
@[simp] theorem State.modCx_fwVersion (s : State) (g : Ctx → Ctx) : (s.modCx g).fwVersion = s.fwVersion := rfl
@[simp] theorem State.setCore_mgmtOut (s : State) (c : CoreId) (k : Core) : (s.setCore c k).mgmtOut = s.mgmtOut := rfl
@[simp] theorem State.modCore_mgmtOut (s : State) (c : CoreId) (g : Core → Core) : (s.modCore c g).mgmtOut = s.mgmtOut := rfl
@[simp] theorem State.modCtx_mgmtOut (s : State) (c : CoreId) (h : CtxId) (g : Ctx → Ctx) : (s.modCtx c h g).mgmtOut = s.mgmtOut := rfl
@[simp] theorem State.modMe_mgmtOut (s : State) (g : Core → Core) : (s.modMe g).mgmtOut = s.mgmtOut := rfl
@[simp] theorem State.modCx_mgmtOut (s : State) (g : Ctx → Ctx) : (s.modCx g).mgmtOut = s.mgmtOut := rfl
@[simp] theorem State.setCore_devCoord (s : State) (c : CoreId) (k : Core) : (s.setCore c k).devCoord = s.devCoord := rfl
@[simp] theorem State.modCore_devCoord (s : State) (c : CoreId) (g : Core → Core) : (s.modCore c g).devCoord = s.devCoord := rfl
@[simp] theorem State.modCtx_devCoord (s : State) (c : CoreId) (h : CtxId) (g : Ctx → Ctx) : (s.modCtx c h g).devCoord = s.devCoord := rfl
@[simp] theorem State.modMe_devCoord (s : State) (g : Core → Core) : (s.modMe g).devCoord = s.devCoord := rfl
@[simp] theorem State.modCx_devCoord (s : State) (g : Ctx → Ctx) : (s.modCx g).devCoord = s.devCoord := rfl
@[simp] theorem State.setCore_wsCal (s : State) (c : CoreId) (k : Core) : (s.setCore c k).wsCal = s.wsCal := rfl
@[simp] theorem State.modCore_wsCal (s : State) (c : CoreId) (g : Core → Core) : (s.modCore c g).wsCal = s.wsCal := rfl
@[simp] theorem State.modCtx_wsCal (s : State) (c : CoreId) (h : CtxId) (g : Ctx → Ctx) : (s.modCtx c h g).wsCal = s.wsCal := rfl
@[simp] theorem State.modMe_wsCal (s : State) (g : Core → Core) : (s.modMe g).wsCal = s.wsCal := rfl
@[simp] theorem State.modCx_wsCal (s : State) (g : Ctx → Ctx) : (s.modCx g).wsCal = s.wsCal := rfl
@[simp] theorem State.setCore_wsPeriod (s : State) (c : CoreId) (k : Core) : (s.setCore c k).wsPeriod = s.wsPeriod := rfl
@[simp] theorem State.modCore_wsPeriod (s : State) (c : CoreId) (g : Core → Core) : (s.modCore c g).wsPeriod = s.wsPeriod := rfl
@[simp] theorem State.modCtx_wsPeriod (s : State) (c : CoreId) (h : CtxId) (g : Ctx → Ctx) : (s.modCtx c h g).wsPeriod = s.wsPeriod := rfl
@[simp] theorem State.modMe_wsPeriod (s : State) (g : Core → Core) : (s.modMe g).wsPeriod = s.wsPeriod := rfl
@[simp] theorem State.modCx_wsPeriod (s : State) (g : Ctx → Ctx) : (s.modCx g).wsPeriod = s.wsPeriod := rfl
@[simp] theorem State.setCore_wsWindow (s : State) (c : CoreId) (k : Core) : (s.setCore c k).wsWindow = s.wsWindow := rfl
@[simp] theorem State.modCore_wsWindow (s : State) (c : CoreId) (g : Core → Core) : (s.modCore c g).wsWindow = s.wsWindow := rfl
@[simp] theorem State.modCtx_wsWindow (s : State) (c : CoreId) (h : CtxId) (g : Ctx → Ctx) : (s.modCtx c h g).wsWindow = s.wsWindow := rfl
@[simp] theorem State.modMe_wsWindow (s : State) (g : Core → Core) : (s.modMe g).wsWindow = s.wsWindow := rfl
@[simp] theorem State.modCx_wsWindow (s : State) (g : Ctx → Ctx) : (s.modCx g).wsWindow = s.wsWindow := rfl
@[simp] theorem State.setCore_wsAway (s : State) (c : CoreId) (k : Core) : (s.setCore c k).wsAway = s.wsAway := rfl
@[simp] theorem State.modCore_wsAway (s : State) (c : CoreId) (g : Core → Core) : (s.modCore c g).wsAway = s.wsAway := rfl
@[simp] theorem State.modCtx_wsAway (s : State) (c : CoreId) (h : CtxId) (g : Ctx → Ctx) : (s.modCtx c h g).wsAway = s.wsAway := rfl
@[simp] theorem State.modMe_wsAway (s : State) (g : Core → Core) : (s.modMe g).wsAway = s.wsAway := rfl
@[simp] theorem State.modCx_wsAway (s : State) (g : Ctx → Ctx) : (s.modCx g).wsAway = s.wsAway := rfl
@[simp] theorem State.setCore_ltlb (s : State) (c : CoreId) (k : Core) : (s.setCore c k).ltlb = s.ltlb := rfl
@[simp] theorem State.modCore_ltlb (s : State) (c : CoreId) (g : Core → Core) : (s.modCore c g).ltlb = s.ltlb := rfl
@[simp] theorem State.modCtx_ltlb (s : State) (c : CoreId) (h : CtxId) (g : Ctx → Ctx) : (s.modCtx c h g).ltlb = s.ltlb := rfl
@[simp] theorem State.modMe_ltlb (s : State) (g : Core → Core) : (s.modMe g).ltlb = s.ltlb := rfl
@[simp] theorem State.modCx_ltlb (s : State) (g : Ctx → Ctx) : (s.modCx g).ltlb = s.ltlb := rfl
@[simp] theorem State.setCore_constC (s : State) (c : CoreId) (k : Core) : (s.setCore c k).constC = s.constC := rfl
@[simp] theorem State.modCore_constC (s : State) (c : CoreId) (g : Core → Core) : (s.modCore c g).constC = s.constC := rfl
@[simp] theorem State.modCtx_constC (s : State) (c : CoreId) (h : CtxId) (g : Ctx → Ctx) : (s.modCtx c h g).constC = s.constC := rfl
@[simp] theorem State.modMe_constC (s : State) (g : Core → Core) : (s.modMe g).constC = s.constC := rfl
@[simp] theorem State.modCx_constC (s : State) (g : Ctx → Ctx) : (s.modCx g).constC = s.constC := rfl
@[simp] theorem State.setCore_dir (s : State) (c : CoreId) (k : Core) : (s.setCore c k).dir = s.dir := rfl
@[simp] theorem State.modCore_dir (s : State) (c : CoreId) (g : Core → Core) : (s.modCore c g).dir = s.dir := rfl
@[simp] theorem State.modCtx_dir (s : State) (c : CoreId) (h : CtxId) (g : Ctx → Ctx) : (s.modCtx c h g).dir = s.dir := rfl
@[simp] theorem State.modMe_dir (s : State) (g : Core → Core) : (s.modMe g).dir = s.dir := rfl
@[simp] theorem State.modCx_dir (s : State) (g : Ctx → Ctx) : (s.modCx g).dir = s.dir := rfl
@[simp] theorem State.setCore_notices (s : State) (c : CoreId) (k : Core) : (s.setCore c k).notices = s.notices := rfl
@[simp] theorem State.modCore_notices (s : State) (c : CoreId) (g : Core → Core) : (s.modCore c g).notices = s.notices := rfl
@[simp] theorem State.modCtx_notices (s : State) (c : CoreId) (h : CtxId) (g : Ctx → Ctx) : (s.modCtx c h g).notices = s.notices := rfl
@[simp] theorem State.modMe_notices (s : State) (g : Core → Core) : (s.modMe g).notices = s.notices := rfl
@[simp] theorem State.modCx_notices (s : State) (g : Ctx → Ctx) : (s.modCx g).notices = s.notices := rfl
@[simp] theorem State.setCore_ovfTab (s : State) (c : CoreId) (k : Core) : (s.setCore c k).ovfTab = s.ovfTab := rfl
@[simp] theorem State.modCore_ovfTab (s : State) (c : CoreId) (g : Core → Core) : (s.modCore c g).ovfTab = s.ovfTab := rfl
@[simp] theorem State.modCtx_ovfTab (s : State) (c : CoreId) (h : CtxId) (g : Ctx → Ctx) : (s.modCtx c h g).ovfTab = s.ovfTab := rfl
@[simp] theorem State.modMe_ovfTab (s : State) (g : Core → Core) : (s.modMe g).ovfTab = s.ovfTab := rfl
@[simp] theorem State.modCx_ovfTab (s : State) (g : Ctx → Ctx) : (s.modCx g).ovfTab = s.ovfTab := rfl
@[simp] theorem State.setCore_prefetches (s : State) (c : CoreId) (k : Core) : (s.setCore c k).prefetches = s.prefetches := rfl
@[simp] theorem State.modCore_prefetches (s : State) (c : CoreId) (g : Core → Core) : (s.modCore c g).prefetches = s.prefetches := rfl
@[simp] theorem State.modCtx_prefetches (s : State) (c : CoreId) (h : CtxId) (g : Ctx → Ctx) : (s.modCtx c h g).prefetches = s.prefetches := rfl
@[simp] theorem State.modMe_prefetches (s : State) (g : Core → Core) : (s.modMe g).prefetches = s.prefetches := rfl
@[simp] theorem State.modCx_prefetches (s : State) (g : Ctx → Ctx) : (s.modCx g).prefetches = s.prefetches := rfl
@[simp] theorem State.setCore_vers (s : State) (c : CoreId) (k : Core) : (s.setCore c k).vers = s.vers := rfl
@[simp] theorem State.modCore_vers (s : State) (c : CoreId) (g : Core → Core) : (s.modCore c g).vers = s.vers := rfl
@[simp] theorem State.modCtx_vers (s : State) (c : CoreId) (h : CtxId) (g : Ctx → Ctx) : (s.modCtx c h g).vers = s.vers := rfl
@[simp] theorem State.modMe_vers (s : State) (g : Core → Core) : (s.modMe g).vers = s.vers := rfl
@[simp] theorem State.modCx_vers (s : State) (g : Ctx → Ctx) : (s.modCx g).vers = s.vers := rfl
@[simp] theorem State.setCore_marks (s : State) (c : CoreId) (k : Core) : (s.setCore c k).marks = s.marks := rfl
@[simp] theorem State.modCore_marks (s : State) (c : CoreId) (g : Core → Core) : (s.modCore c g).marks = s.marks := rfl
@[simp] theorem State.modCtx_marks (s : State) (c : CoreId) (h : CtxId) (g : Ctx → Ctx) : (s.modCtx c h g).marks = s.marks := rfl
@[simp] theorem State.modMe_marks (s : State) (g : Core → Core) : (s.modMe g).marks = s.marks := rfl
@[simp] theorem State.modCx_marks (s : State) (g : Ctx → Ctx) : (s.modCx g).marks = s.marks := rfl
@[simp] theorem State.setCore_capMsgs (s : State) (c : CoreId) (k : Core) : (s.setCore c k).capMsgs = s.capMsgs := rfl
@[simp] theorem State.modCore_capMsgs (s : State) (c : CoreId) (g : Core → Core) : (s.modCore c g).capMsgs = s.capMsgs := rfl
@[simp] theorem State.modCtx_capMsgs (s : State) (c : CoreId) (h : CtxId) (g : Ctx → Ctx) : (s.modCtx c h g).capMsgs = s.capMsgs := rfl
@[simp] theorem State.modMe_capMsgs (s : State) (g : Core → Core) : (s.modMe g).capMsgs = s.capMsgs := rfl
@[simp] theorem State.modCx_capMsgs (s : State) (g : Ctx → Ctx) : (s.modCx g).capMsgs = s.capMsgs := rfl
@[simp] theorem State.setCore_counters (s : State) (c : CoreId) (k : Core) : (s.setCore c k).counters = s.counters := rfl
@[simp] theorem State.modCore_counters (s : State) (c : CoreId) (g : Core → Core) : (s.modCore c g).counters = s.counters := rfl
@[simp] theorem State.modCtx_counters (s : State) (c : CoreId) (h : CtxId) (g : Ctx → Ctx) : (s.modCtx c h g).counters = s.counters := rfl
@[simp] theorem State.modMe_counters (s : State) (g : Core → Core) : (s.modMe g).counters = s.counters := rfl
@[simp] theorem State.modCx_counters (s : State) (g : Ctx → Ctx) : (s.modCx g).counters = s.counters := rfl
@[simp] theorem State.setCore_launches (s : State) (c : CoreId) (k : Core) : (s.setCore c k).launches = s.launches := rfl
@[simp] theorem State.modCore_launches (s : State) (c : CoreId) (g : Core → Core) : (s.modCore c g).launches = s.launches := rfl
@[simp] theorem State.modCtx_launches (s : State) (c : CoreId) (h : CtxId) (g : Ctx → Ctx) : (s.modCtx c h g).launches = s.launches := rfl
@[simp] theorem State.modMe_launches (s : State) (g : Core → Core) : (s.modMe g).launches = s.launches := rfl
@[simp] theorem State.modCx_launches (s : State) (g : Ctx → Ctx) : (s.modCx g).launches = s.launches := rfl
@[simp] theorem State.setCore_setupQ (s : State) (c : CoreId) (k : Core) : (s.setCore c k).setupQ = s.setupQ := rfl
@[simp] theorem State.modCore_setupQ (s : State) (c : CoreId) (g : Core → Core) : (s.modCore c g).setupQ = s.setupQ := rfl
@[simp] theorem State.modCtx_setupQ (s : State) (c : CoreId) (h : CtxId) (g : Ctx → Ctx) : (s.modCtx c h g).setupQ = s.setupQ := rfl
@[simp] theorem State.modMe_setupQ (s : State) (g : Core → Core) : (s.modMe g).setupQ = s.setupQ := rfl
@[simp] theorem State.modCx_setupQ (s : State) (g : Ctx → Ctx) : (s.modCx g).setupQ = s.setupQ := rfl
@[simp] theorem State.setCore_launchWait (s : State) (c : CoreId) (k : Core) : (s.setCore c k).launchWait = s.launchWait := rfl
@[simp] theorem State.modCore_launchWait (s : State) (c : CoreId) (g : Core → Core) : (s.modCore c g).launchWait = s.launchWait := rfl
@[simp] theorem State.modCtx_launchWait (s : State) (c : CoreId) (h : CtxId) (g : Ctx → Ctx) : (s.modCtx c h g).launchWait = s.launchWait := rfl
@[simp] theorem State.modMe_launchWait (s : State) (g : Core → Core) : (s.modMe g).launchWait = s.launchWait := rfl
@[simp] theorem State.modCx_launchWait (s : State) (g : Ctx → Ctx) : (s.modCx g).launchWait = s.launchWait := rfl
@[simp] theorem State.setCore_groups (s : State) (c : CoreId) (k : Core) : (s.setCore c k).groups = s.groups := rfl
@[simp] theorem State.modCore_groups (s : State) (c : CoreId) (g : Core → Core) : (s.modCore c g).groups = s.groups := rfl
@[simp] theorem State.modCtx_groups (s : State) (c : CoreId) (h : CtxId) (g : Ctx → Ctx) : (s.modCtx c h g).groups = s.groups := rfl
@[simp] theorem State.modMe_groups (s : State) (g : Core → Core) : (s.modMe g).groups = s.groups := rfl
@[simp] theorem State.modCx_groups (s : State) (g : Ctx → Ctx) : (s.modCx g).groups = s.groups := rfl
@[simp] theorem State.setCore_mcasts (s : State) (c : CoreId) (k : Core) : (s.setCore c k).mcasts = s.mcasts := rfl
@[simp] theorem State.modCore_mcasts (s : State) (c : CoreId) (g : Core → Core) : (s.modCore c g).mcasts = s.mcasts := rfl
@[simp] theorem State.modCtx_mcasts (s : State) (c : CoreId) (h : CtxId) (g : Ctx → Ctx) : (s.modCtx c h g).mcasts = s.mcasts := rfl
@[simp] theorem State.modMe_mcasts (s : State) (g : Core → Core) : (s.modMe g).mcasts = s.mcasts := rfl
@[simp] theorem State.modCx_mcasts (s : State) (g : Ctx → Ctx) : (s.modCx g).mcasts = s.mcasts := rfl
@[simp] theorem State.setCore_objs (s : State) (c : CoreId) (k : Core) : (s.setCore c k).objs = s.objs := rfl
@[simp] theorem State.modCore_objs (s : State) (c : CoreId) (g : Core → Core) : (s.modCore c g).objs = s.objs := rfl
@[simp] theorem State.modCtx_objs (s : State) (c : CoreId) (h : CtxId) (g : Ctx → Ctx) : (s.modCtx c h g).objs = s.objs := rfl
@[simp] theorem State.modMe_objs (s : State) (g : Core → Core) : (s.modMe g).objs = s.objs := rfl
@[simp] theorem State.modCx_objs (s : State) (g : Ctx → Ctx) : (s.modCx g).objs = s.objs := rfl
@[simp] theorem State.setCore_objMsgs (s : State) (c : CoreId) (k : Core) : (s.setCore c k).objMsgs = s.objMsgs := rfl
@[simp] theorem State.modCore_objMsgs (s : State) (c : CoreId) (g : Core → Core) : (s.modCore c g).objMsgs = s.objMsgs := rfl
@[simp] theorem State.modCtx_objMsgs (s : State) (c : CoreId) (h : CtxId) (g : Ctx → Ctx) : (s.modCtx c h g).objMsgs = s.objMsgs := rfl
@[simp] theorem State.modMe_objMsgs (s : State) (g : Core → Core) : (s.modMe g).objMsgs = s.objMsgs := rfl
@[simp] theorem State.modCx_objMsgs (s : State) (g : Ctx → Ctx) : (s.modCx g).objMsgs = s.objMsgs := rfl
@[simp] theorem State.setCore_windows (s : State) (c : CoreId) (k : Core) : (s.setCore c k).windows = s.windows := rfl
@[simp] theorem State.modCore_windows (s : State) (c : CoreId) (g : Core → Core) : (s.modCore c g).windows = s.windows := rfl
@[simp] theorem State.modCtx_windows (s : State) (c : CoreId) (h : CtxId) (g : Ctx → Ctx) : (s.modCtx c h g).windows = s.windows := rfl
@[simp] theorem State.modMe_windows (s : State) (g : Core → Core) : (s.modMe g).windows = s.windows := rfl
@[simp] theorem State.modCx_windows (s : State) (g : Ctx → Ctx) : (s.modCx g).windows = s.windows := rfl
@[simp] theorem State.setCore_routerAt (s : State) (c : CoreId) (k : Core) : (s.setCore c k).routerAt = s.routerAt := rfl
@[simp] theorem State.modCore_routerAt (s : State) (c : CoreId) (g : Core → Core) : (s.modCore c g).routerAt = s.routerAt := rfl
@[simp] theorem State.modCtx_routerAt (s : State) (c : CoreId) (h : CtxId) (g : Ctx → Ctx) : (s.modCtx c h g).routerAt = s.routerAt := rfl
@[simp] theorem State.modMe_routerAt (s : State) (g : Core → Core) : (s.modMe g).routerAt = s.routerAt := rfl
@[simp] theorem State.modCx_routerAt (s : State) (g : Ctx → Ctx) : (s.modCx g).routerAt = s.routerAt := rfl
@[simp] theorem State.setCore_flight (s : State) (c : CoreId) (k : Core) : (s.setCore c k).flight = s.flight := rfl
@[simp] theorem State.modCore_flight (s : State) (c : CoreId) (g : Core → Core) : (s.modCore c g).flight = s.flight := rfl
@[simp] theorem State.modCtx_flight (s : State) (c : CoreId) (h : CtxId) (g : Ctx → Ctx) : (s.modCtx c h g).flight = s.flight := rfl
@[simp] theorem State.modMe_flight (s : State) (g : Core → Core) : (s.modMe g).flight = s.flight := rfl
@[simp] theorem State.modCx_flight (s : State) (g : Ctx → Ctx) : (s.modCx g).flight = s.flight := rfl
@[simp] theorem State.setCore_waitFrag (s : State) (c : CoreId) (k : Core) : (s.setCore c k).waitFrag = s.waitFrag := rfl
@[simp] theorem State.modCore_waitFrag (s : State) (c : CoreId) (g : Core → Core) : (s.modCore c g).waitFrag = s.waitFrag := rfl
@[simp] theorem State.modCtx_waitFrag (s : State) (c : CoreId) (h : CtxId) (g : Ctx → Ctx) : (s.modCtx c h g).waitFrag = s.waitFrag := rfl
@[simp] theorem State.modMe_waitFrag (s : State) (g : Core → Core) : (s.modMe g).waitFrag = s.waitFrag := rfl
@[simp] theorem State.modCx_waitFrag (s : State) (g : Ctx → Ctx) : (s.modCx g).waitFrag = s.waitFrag := rfl
@[simp] theorem State.setCore_frags (s : State) (c : CoreId) (k : Core) : (s.setCore c k).frags = s.frags := rfl
@[simp] theorem State.modCore_frags (s : State) (c : CoreId) (g : Core → Core) : (s.modCore c g).frags = s.frags := rfl
@[simp] theorem State.modCtx_frags (s : State) (c : CoreId) (h : CtxId) (g : Ctx → Ctx) : (s.modCtx c h g).frags = s.frags := rfl
@[simp] theorem State.modMe_frags (s : State) (g : Core → Core) : (s.modMe g).frags = s.frags := rfl
@[simp] theorem State.modCx_frags (s : State) (g : Ctx → Ctx) : (s.modCx g).frags = s.frags := rfl
@[simp] theorem State.setCore_winCred (s : State) (c : CoreId) (k : Core) : (s.setCore c k).winCred = s.winCred := rfl
@[simp] theorem State.modCore_winCred (s : State) (c : CoreId) (g : Core → Core) : (s.modCore c g).winCred = s.winCred := rfl
@[simp] theorem State.modCtx_winCred (s : State) (c : CoreId) (h : CtxId) (g : Ctx → Ctx) : (s.modCtx c h g).winCred = s.winCred := rfl
@[simp] theorem State.modMe_winCred (s : State) (g : Core → Core) : (s.modMe g).winCred = s.winCred := rfl
@[simp] theorem State.modCx_winCred (s : State) (g : Ctx → Ctx) : (s.modCx g).winCred = s.winCred := rfl
@[simp] theorem State.setCore_winDrop (s : State) (c : CoreId) (k : Core) : (s.setCore c k).winDrop = s.winDrop := rfl
@[simp] theorem State.modCore_winDrop (s : State) (c : CoreId) (g : Core → Core) : (s.modCore c g).winDrop = s.winDrop := rfl
@[simp] theorem State.modCtx_winDrop (s : State) (c : CoreId) (h : CtxId) (g : Ctx → Ctx) : (s.modCtx c h g).winDrop = s.winDrop := rfl
@[simp] theorem State.modMe_winDrop (s : State) (g : Core → Core) : (s.modMe g).winDrop = s.winDrop := rfl
@[simp] theorem State.modCx_winDrop (s : State) (g : Ctx → Ctx) : (s.modCx g).winDrop = s.winDrop := rfl
@[simp] theorem State.setCore_hostSeq (s : State) (c : CoreId) (k : Core) : (s.setCore c k).hostSeq = s.hostSeq := rfl
@[simp] theorem State.modCore_hostSeq (s : State) (c : CoreId) (g : Core → Core) : (s.modCore c g).hostSeq = s.hostSeq := rfl
@[simp] theorem State.modCtx_hostSeq (s : State) (c : CoreId) (h : CtxId) (g : Ctx → Ctx) : (s.modCtx c h g).hostSeq = s.hostSeq := rfl
@[simp] theorem State.modMe_hostSeq (s : State) (g : Core → Core) : (s.modMe g).hostSeq = s.hostSeq := rfl
@[simp] theorem State.modCx_hostSeq (s : State) (g : Ctx → Ctx) : (s.modCx g).hostSeq = s.hostSeq := rfl
@[simp] theorem State.setCore_hostOff (s : State) (c : CoreId) (k : Core) : (s.setCore c k).hostOff = s.hostOff := rfl
@[simp] theorem State.modCore_hostOff (s : State) (c : CoreId) (g : Core → Core) : (s.modCore c g).hostOff = s.hostOff := rfl
@[simp] theorem State.modCtx_hostOff (s : State) (c : CoreId) (h : CtxId) (g : Ctx → Ctx) : (s.modCtx c h g).hostOff = s.hostOff := rfl
@[simp] theorem State.modMe_hostOff (s : State) (g : Core → Core) : (s.modMe g).hostOff = s.hostOff := rfl
@[simp] theorem State.modCx_hostOff (s : State) (g : Ctx → Ctx) : (s.modCx g).hostOff = s.hostOff := rfl
@[simp] theorem State.setCore_ptmctl (s : State) (c : CoreId) (k : Core) : (s.setCore c k).ptmctl = s.ptmctl := rfl
@[simp] theorem State.modCore_ptmctl (s : State) (c : CoreId) (g : Core → Core) : (s.modCore c g).ptmctl = s.ptmctl := rfl
@[simp] theorem State.modCtx_ptmctl (s : State) (c : CoreId) (h : CtxId) (g : Ctx → Ctx) : (s.modCtx c h g).ptmctl = s.ptmctl := rfl
@[simp] theorem State.modMe_ptmctl (s : State) (g : Core → Core) : (s.modMe g).ptmctl = s.ptmctl := rfl
@[simp] theorem State.modCx_ptmctl (s : State) (g : Ctx → Ctx) : (s.modCx g).ptmctl = s.ptmctl := rfl
@[simp] theorem State.setCore_ptroot (s : State) (c : CoreId) (k : Core) : (s.setCore c k).ptroot = s.ptroot := rfl
@[simp] theorem State.modCore_ptroot (s : State) (c : CoreId) (g : Core → Core) : (s.modCore c g).ptroot = s.ptroot := rfl
@[simp] theorem State.modCtx_ptroot (s : State) (c : CoreId) (h : CtxId) (g : Ctx → Ctx) : (s.modCtx c h g).ptroot = s.ptroot := rfl
@[simp] theorem State.modMe_ptroot (s : State) (g : Core → Core) : (s.modMe g).ptroot = s.ptroot := rfl
@[simp] theorem State.modCx_ptroot (s : State) (g : Ctx → Ctx) : (s.modCx g).ptroot = s.ptroot := rfl
@[simp] theorem State.setCore_spillBase (s : State) (c : CoreId) (k : Core) : (s.setCore c k).spillBase = s.spillBase := rfl
@[simp] theorem State.modCore_spillBase (s : State) (c : CoreId) (g : Core → Core) : (s.modCore c g).spillBase = s.spillBase := rfl
@[simp] theorem State.modCtx_spillBase (s : State) (c : CoreId) (h : CtxId) (g : Ctx → Ctx) : (s.modCtx c h g).spillBase = s.spillBase := rfl
@[simp] theorem State.modMe_spillBase (s : State) (g : Core → Core) : (s.modMe g).spillBase = s.spillBase := rfl
@[simp] theorem State.modCx_spillBase (s : State) (g : Ctx → Ctx) : (s.modCx g).spillBase = s.spillBase := rfl
@[simp] theorem State.setCore_spillLog (s : State) (c : CoreId) (k : Core) : (s.setCore c k).spillLog = s.spillLog := rfl
@[simp] theorem State.modCore_spillLog (s : State) (c : CoreId) (g : Core → Core) : (s.modCore c g).spillLog = s.spillLog := rfl
@[simp] theorem State.modCtx_spillLog (s : State) (c : CoreId) (h : CtxId) (g : Ctx → Ctx) : (s.modCtx c h g).spillLog = s.spillLog := rfl
@[simp] theorem State.modMe_spillLog (s : State) (g : Core → Core) : (s.modMe g).spillLog = s.spillLog := rfl
@[simp] theorem State.modCx_spillLog (s : State) (g : Ctx → Ctx) : (s.modCx g).spillLog = s.spillLog := rfl
@[simp] theorem State.setCore_ovfBase (s : State) (c : CoreId) (k : Core) : (s.setCore c k).ovfBase = s.ovfBase := rfl
@[simp] theorem State.modCore_ovfBase (s : State) (c : CoreId) (g : Core → Core) : (s.modCore c g).ovfBase = s.ovfBase := rfl
@[simp] theorem State.modCtx_ovfBase (s : State) (c : CoreId) (h : CtxId) (g : Ctx → Ctx) : (s.modCtx c h g).ovfBase = s.ovfBase := rfl
@[simp] theorem State.modMe_ovfBase (s : State) (g : Core → Core) : (s.modMe g).ovfBase = s.ovfBase := rfl
@[simp] theorem State.modCx_ovfBase (s : State) (g : Ctx → Ctx) : (s.modCx g).ovfBase = s.ovfBase := rfl
@[simp] theorem State.setCore_ovfLog (s : State) (c : CoreId) (k : Core) : (s.setCore c k).ovfLog = s.ovfLog := rfl
@[simp] theorem State.modCore_ovfLog (s : State) (c : CoreId) (g : Core → Core) : (s.modCore c g).ovfLog = s.ovfLog := rfl
@[simp] theorem State.modCtx_ovfLog (s : State) (c : CoreId) (h : CtxId) (g : Ctx → Ctx) : (s.modCtx c h g).ovfLog = s.ovfLog := rfl
@[simp] theorem State.modMe_ovfLog (s : State) (g : Core → Core) : (s.modMe g).ovfLog = s.ovfLog := rfl
@[simp] theorem State.modCx_ovfLog (s : State) (g : Ctx → Ctx) : (s.modCx g).ovfLog = s.ovfLog := rfl
@[simp] theorem State.setCore_apbase (s : State) (c : CoreId) (k : Core) : (s.setCore c k).apbase = s.apbase := rfl
@[simp] theorem State.modCore_apbase (s : State) (c : CoreId) (g : Core → Core) : (s.modCore c g).apbase = s.apbase := rfl
@[simp] theorem State.modCtx_apbase (s : State) (c : CoreId) (h : CtxId) (g : Ctx → Ctx) : (s.modCtx c h g).apbase = s.apbase := rfl
@[simp] theorem State.modMe_apbase (s : State) (g : Core → Core) : (s.modMe g).apbase = s.apbase := rfl
@[simp] theorem State.modCx_apbase (s : State) (g : Ctx → Ctx) : (s.modCx g).apbase = s.apbase := rfl
@[simp] theorem State.setCore_hostQ (s : State) (c : CoreId) (k : Core) : (s.setCore c k).hostQ = s.hostQ := rfl
@[simp] theorem State.modCore_hostQ (s : State) (c : CoreId) (g : Core → Core) : (s.modCore c g).hostQ = s.hostQ := rfl
@[simp] theorem State.modCtx_hostQ (s : State) (c : CoreId) (h : CtxId) (g : Ctx → Ctx) : (s.modCtx c h g).hostQ = s.hostQ := rfl
@[simp] theorem State.modMe_hostQ (s : State) (g : Core → Core) : (s.modMe g).hostQ = s.hostQ := rfl
@[simp] theorem State.modCx_hostQ (s : State) (g : Ctx → Ctx) : (s.modCx g).hostQ = s.hostQ := rfl
@[simp] theorem State.setCore_fbDup (s : State) (c : CoreId) (k : Core) : (s.setCore c k).fbDup = s.fbDup := rfl
@[simp] theorem State.modCore_fbDup (s : State) (c : CoreId) (g : Core → Core) : (s.modCore c g).fbDup = s.fbDup := rfl
@[simp] theorem State.modCtx_fbDup (s : State) (c : CoreId) (h : CtxId) (g : Ctx → Ctx) : (s.modCtx c h g).fbDup = s.fbDup := rfl
@[simp] theorem State.modMe_fbDup (s : State) (g : Core → Core) : (s.modMe g).fbDup = s.fbDup := rfl
@[simp] theorem State.modCx_fbDup (s : State) (g : Ctx → Ctx) : (s.modCx g).fbDup = s.fbDup := rfl
@[simp] theorem State.setCore_fallback (s : State) (c : CoreId) (k : Core) : (s.setCore c k).fallback = s.fallback := rfl
@[simp] theorem State.modCore_fallback (s : State) (c : CoreId) (g : Core → Core) : (s.modCore c g).fallback = s.fallback := rfl
@[simp] theorem State.modCtx_fallback (s : State) (c : CoreId) (h : CtxId) (g : Ctx → Ctx) : (s.modCtx c h g).fallback = s.fallback := rfl
@[simp] theorem State.modMe_fallback (s : State) (g : Core → Core) : (s.modMe g).fallback = s.fallback := rfl
@[simp] theorem State.modCx_fallback (s : State) (g : Ctx → Ctx) : (s.modCx g).fallback = s.fallback := rfl
@[simp] theorem State.setCore_hostPages (s : State) (c : CoreId) (k : Core) : (s.setCore c k).hostPages = s.hostPages := rfl
@[simp] theorem State.modCore_hostPages (s : State) (c : CoreId) (g : Core → Core) : (s.modCore c g).hostPages = s.hostPages := rfl
@[simp] theorem State.modCtx_hostPages (s : State) (c : CoreId) (h : CtxId) (g : Ctx → Ctx) : (s.modCtx c h g).hostPages = s.hostPages := rfl
@[simp] theorem State.modMe_hostPages (s : State) (g : Core → Core) : (s.modMe g).hostPages = s.hostPages := rfl
@[simp] theorem State.modCx_hostPages (s : State) (g : Ctx → Ctx) : (s.modCx g).hostPages = s.hostPages := rfl
@[simp] theorem State.setCore_fbValue (s : State) (c : CoreId) (k : Core) : (s.setCore c k).fbValue = s.fbValue := rfl
@[simp] theorem State.modCore_fbValue (s : State) (c : CoreId) (g : Core → Core) : (s.modCore c g).fbValue = s.fbValue := rfl
@[simp] theorem State.modCtx_fbValue (s : State) (c : CoreId) (h : CtxId) (g : Ctx → Ctx) : (s.modCtx c h g).fbValue = s.fbValue := rfl
@[simp] theorem State.modMe_fbValue (s : State) (g : Core → Core) : (s.modMe g).fbValue = s.fbValue := rfl
@[simp] theorem State.modCx_fbValue (s : State) (g : Ctx → Ctx) : (s.modCx g).fbValue = s.fbValue := rfl
@[simp] theorem State.setCore_winSlots (s : State) (c : CoreId) (k : Core) : (s.setCore c k).winSlots = s.winSlots := rfl
@[simp] theorem State.modCore_winSlots (s : State) (c : CoreId) (g : Core → Core) : (s.modCore c g).winSlots = s.winSlots := rfl
@[simp] theorem State.modCtx_winSlots (s : State) (c : CoreId) (h : CtxId) (g : Ctx → Ctx) : (s.modCtx c h g).winSlots = s.winSlots := rfl
@[simp] theorem State.modMe_winSlots (s : State) (g : Core → Core) : (s.modMe g).winSlots = s.winSlots := rfl
@[simp] theorem State.modCx_winSlots (s : State) (g : Ctx → Ctx) : (s.modCx g).winSlots = s.winSlots := rfl
@[simp] theorem State.setCore_msixTab (s : State) (c : CoreId) (k : Core) : (s.setCore c k).msixTab = s.msixTab := rfl
@[simp] theorem State.modCore_msixTab (s : State) (c : CoreId) (g : Core → Core) : (s.modCore c g).msixTab = s.msixTab := rfl
@[simp] theorem State.modCtx_msixTab (s : State) (c : CoreId) (h : CtxId) (g : Ctx → Ctx) : (s.modCtx c h g).msixTab = s.msixTab := rfl
@[simp] theorem State.modMe_msixTab (s : State) (g : Core → Core) : (s.modMe g).msixTab = s.msixTab := rfl
@[simp] theorem State.modCx_msixTab (s : State) (g : Ctx → Ctx) : (s.modCx g).msixTab = s.msixTab := rfl
@[simp] theorem State.setCore_hostData (s : State) (c : CoreId) (k : Core) : (s.setCore c k).hostData = s.hostData := rfl
@[simp] theorem State.modCore_hostData (s : State) (c : CoreId) (g : Core → Core) : (s.modCore c g).hostData = s.hostData := rfl
@[simp] theorem State.modCtx_hostData (s : State) (c : CoreId) (h : CtxId) (g : Ctx → Ctx) : (s.modCtx c h g).hostData = s.hostData := rfl
@[simp] theorem State.modMe_hostData (s : State) (g : Core → Core) : (s.modMe g).hostData = s.hostData := rfl
@[simp] theorem State.modCx_hostData (s : State) (g : Ctx → Ctx) : (s.modCx g).hostData = s.hostData := rfl
@[simp] theorem State.setCore_msix (s : State) (c : CoreId) (k : Core) : (s.setCore c k).msix = s.msix := rfl
@[simp] theorem State.modCore_msix (s : State) (c : CoreId) (g : Core → Core) : (s.modCore c g).msix = s.msix := rfl
@[simp] theorem State.modCtx_msix (s : State) (c : CoreId) (h : CtxId) (g : Ctx → Ctx) : (s.modCtx c h g).msix = s.msix := rfl
@[simp] theorem State.modMe_msix (s : State) (g : Core → Core) : (s.modMe g).msix = s.msix := rfl
@[simp] theorem State.modCx_msix (s : State) (g : Ctx → Ctx) : (s.modCx g).msix = s.msix := rfl
@[simp] theorem State.setCore_ckState (s : State) (c : CoreId) (k : Core) : (s.setCore c k).ckState = s.ckState := rfl
@[simp] theorem State.modCore_ckState (s : State) (c : CoreId) (g : Core → Core) : (s.modCore c g).ckState = s.ckState := rfl
@[simp] theorem State.modCtx_ckState (s : State) (c : CoreId) (h : CtxId) (g : Ctx → Ctx) : (s.modCtx c h g).ckState = s.ckState := rfl
@[simp] theorem State.modMe_ckState (s : State) (g : Core → Core) : (s.modMe g).ckState = s.ckState := rfl
@[simp] theorem State.modCx_ckState (s : State) (g : Ctx → Ctx) : (s.modCx g).ckState = s.ckState := rfl
@[simp] theorem State.setCore_ckRsv (s : State) (c : CoreId) (k : Core) : (s.setCore c k).ckRsv = s.ckRsv := rfl
@[simp] theorem State.modCore_ckRsv (s : State) (c : CoreId) (g : Core → Core) : (s.modCore c g).ckRsv = s.ckRsv := rfl
@[simp] theorem State.modCtx_ckRsv (s : State) (c : CoreId) (h : CtxId) (g : Ctx → Ctx) : (s.modCtx c h g).ckRsv = s.ckRsv := rfl
@[simp] theorem State.modMe_ckRsv (s : State) (g : Core → Core) : (s.modMe g).ckRsv = s.ckRsv := rfl
@[simp] theorem State.modCx_ckRsv (s : State) (g : Ctx → Ctx) : (s.modCx g).ckRsv = s.ckRsv := rfl
@[simp] theorem State.setCore_cut (s : State) (c : CoreId) (k : Core) : (s.setCore c k).cut = s.cut := rfl
@[simp] theorem State.modCore_cut (s : State) (c : CoreId) (g : Core → Core) : (s.modCore c g).cut = s.cut := rfl
@[simp] theorem State.modCtx_cut (s : State) (c : CoreId) (h : CtxId) (g : Ctx → Ctx) : (s.modCtx c h g).cut = s.cut := rfl
@[simp] theorem State.modMe_cut (s : State) (g : Core → Core) : (s.modMe g).cut = s.cut := rfl
@[simp] theorem State.modCx_cut (s : State) (g : Ctx → Ctx) : (s.modCx g).cut = s.cut := rfl
@[simp] theorem State.setCore_earlyMarks (s : State) (c : CoreId) (k : Core) : (s.setCore c k).earlyMarks = s.earlyMarks := rfl
@[simp] theorem State.modCore_earlyMarks (s : State) (c : CoreId) (g : Core → Core) : (s.modCore c g).earlyMarks = s.earlyMarks := rfl
@[simp] theorem State.modCtx_earlyMarks (s : State) (c : CoreId) (h : CtxId) (g : Ctx → Ctx) : (s.modCtx c h g).earlyMarks = s.earlyMarks := rfl
@[simp] theorem State.modMe_earlyMarks (s : State) (g : Core → Core) : (s.modMe g).earlyMarks = s.earlyMarks := rfl
@[simp] theorem State.modCx_earlyMarks (s : State) (g : Ctx → Ctx) : (s.modCx g).earlyMarks = s.earlyMarks := rfl
@[simp] theorem State.setCore_earlyAfter (s : State) (c : CoreId) (k : Core) : (s.setCore c k).earlyAfter = s.earlyAfter := rfl
@[simp] theorem State.modCore_earlyAfter (s : State) (c : CoreId) (g : Core → Core) : (s.modCore c g).earlyAfter = s.earlyAfter := rfl
@[simp] theorem State.modCtx_earlyAfter (s : State) (c : CoreId) (h : CtxId) (g : Ctx → Ctx) : (s.modCtx c h g).earlyAfter = s.earlyAfter := rfl
@[simp] theorem State.modMe_earlyAfter (s : State) (g : Core → Core) : (s.modMe g).earlyAfter = s.earlyAfter := rfl
@[simp] theorem State.modCx_earlyAfter (s : State) (g : Ctx → Ctx) : (s.modCx g).earlyAfter = s.earlyAfter := rfl
@[simp] theorem State.setCore_pectl (s : State) (c : CoreId) (k : Core) : (s.setCore c k).pectl = s.pectl := rfl
@[simp] theorem State.modCore_pectl (s : State) (c : CoreId) (g : Core → Core) : (s.modCore c g).pectl = s.pectl := rfl
@[simp] theorem State.modCtx_pectl (s : State) (c : CoreId) (h : CtxId) (g : Ctx → Ctx) : (s.modCtx c h g).pectl = s.pectl := rfl
@[simp] theorem State.modMe_pectl (s : State) (g : Core → Core) : (s.modMe g).pectl = s.pectl := rfl
@[simp] theorem State.modCx_pectl (s : State) (g : Ctx → Ctx) : (s.modCx g).pectl = s.pectl := rfl
@[simp] theorem State.setCore_pebase (s : State) (c : CoreId) (k : Core) : (s.setCore c k).pebase = s.pebase := rfl
@[simp] theorem State.modCore_pebase (s : State) (c : CoreId) (g : Core → Core) : (s.modCore c g).pebase = s.pebase := rfl
@[simp] theorem State.modCtx_pebase (s : State) (c : CoreId) (h : CtxId) (g : Ctx → Ctx) : (s.modCtx c h g).pebase = s.pebase := rfl
@[simp] theorem State.modMe_pebase (s : State) (g : Core → Core) : (s.modMe g).pebase = s.pebase := rfl
@[simp] theorem State.modCx_pebase (s : State) (g : Ctx → Ctx) : (s.modCx g).pebase = s.pebase := rfl
@[simp] theorem State.setCore_pestat (s : State) (c : CoreId) (k : Core) : (s.setCore c k).pestat = s.pestat := rfl
@[simp] theorem State.modCore_pestat (s : State) (c : CoreId) (g : Core → Core) : (s.modCore c g).pestat = s.pestat := rfl
@[simp] theorem State.modCtx_pestat (s : State) (c : CoreId) (h : CtxId) (g : Ctx → Ctx) : (s.modCtx c h g).pestat = s.pestat := rfl
@[simp] theorem State.modMe_pestat (s : State) (g : Core → Core) : (s.modMe g).pestat = s.pestat := rfl
@[simp] theorem State.modCx_pestat (s : State) (g : Ctx → Ctx) : (s.modCx g).pestat = s.pestat := rfl
@[simp] theorem State.setCore_pefreeze (s : State) (c : CoreId) (k : Core) : (s.setCore c k).pefreeze = s.pefreeze := rfl
@[simp] theorem State.modCore_pefreeze (s : State) (c : CoreId) (g : Core → Core) : (s.modCore c g).pefreeze = s.pefreeze := rfl
@[simp] theorem State.modCtx_pefreeze (s : State) (c : CoreId) (h : CtxId) (g : Ctx → Ctx) : (s.modCtx c h g).pefreeze = s.pefreeze := rfl
@[simp] theorem State.modMe_pefreeze (s : State) (g : Core → Core) : (s.modMe g).pefreeze = s.pefreeze := rfl
@[simp] theorem State.modCx_pefreeze (s : State) (g : Ctx → Ctx) : (s.modCx g).pefreeze = s.pefreeze := rfl
@[simp] theorem State.setCore_peresume (s : State) (c : CoreId) (k : Core) : (s.setCore c k).peresume = s.peresume := rfl
@[simp] theorem State.modCore_peresume (s : State) (c : CoreId) (g : Core → Core) : (s.modCore c g).peresume = s.peresume := rfl
@[simp] theorem State.modCtx_peresume (s : State) (c : CoreId) (h : CtxId) (g : Ctx → Ctx) : (s.modCtx c h g).peresume = s.peresume := rfl
@[simp] theorem State.modMe_peresume (s : State) (g : Core → Core) : (s.modMe g).peresume = s.peresume := rfl
@[simp] theorem State.modCx_peresume (s : State) (g : Ctx → Ctx) : (s.modCx g).peresume = s.peresume := rfl
@[simp] theorem State.setCore_joboff (s : State) (c : CoreId) (k : Core) : (s.setCore c k).joboff = s.joboff := rfl
@[simp] theorem State.modCore_joboff (s : State) (c : CoreId) (g : Core → Core) : (s.modCore c g).joboff = s.joboff := rfl
@[simp] theorem State.modCtx_joboff (s : State) (c : CoreId) (h : CtxId) (g : Ctx → Ctx) : (s.modCtx c h g).joboff = s.joboff := rfl
@[simp] theorem State.modMe_joboff (s : State) (g : Core → Core) : (s.modMe g).joboff = s.joboff := rfl
@[simp] theorem State.modCx_joboff (s : State) (g : Ctx → Ctx) : (s.modCx g).joboff = s.joboff := rfl
@[simp] theorem State.setCore_peMarks (s : State) (c : CoreId) (k : Core) : (s.setCore c k).peMarks = s.peMarks := rfl
@[simp] theorem State.modCore_peMarks (s : State) (c : CoreId) (g : Core → Core) : (s.modCore c g).peMarks = s.peMarks := rfl
@[simp] theorem State.modCtx_peMarks (s : State) (c : CoreId) (h : CtxId) (g : Ctx → Ctx) : (s.modCtx c h g).peMarks = s.peMarks := rfl
@[simp] theorem State.modMe_peMarks (s : State) (g : Core → Core) : (s.modMe g).peMarks = s.peMarks := rfl
@[simp] theorem State.modCx_peMarks (s : State) (g : Ctx → Ctx) : (s.modCx g).peMarks = s.peMarks := rfl
@[simp] theorem State.setCore_peSent (s : State) (c : CoreId) (k : Core) : (s.setCore c k).peSent = s.peSent := rfl
@[simp] theorem State.modCore_peSent (s : State) (c : CoreId) (g : Core → Core) : (s.modCore c g).peSent = s.peSent := rfl
@[simp] theorem State.modCtx_peSent (s : State) (c : CoreId) (h : CtxId) (g : Ctx → Ctx) : (s.modCtx c h g).peSent = s.peSent := rfl
@[simp] theorem State.modMe_peSent (s : State) (g : Core → Core) : (s.modMe g).peSent = s.peSent := rfl
@[simp] theorem State.modCx_peSent (s : State) (g : Ctx → Ctx) : (s.modCx g).peSent = s.peSent := rfl
@[simp] theorem State.setCore_saved (s : State) (c : CoreId) (k : Core) : (s.setCore c k).saved = s.saved := rfl
@[simp] theorem State.modCore_saved (s : State) (c : CoreId) (g : Core → Core) : (s.modCore c g).saved = s.saved := rfl
@[simp] theorem State.modCtx_saved (s : State) (c : CoreId) (h : CtxId) (g : Ctx → Ctx) : (s.modCtx c h g).saved = s.saved := rfl
@[simp] theorem State.modMe_saved (s : State) (g : Core → Core) : (s.modMe g).saved = s.saved := rfl
@[simp] theorem State.modCx_saved (s : State) (g : Ctx → Ctx) : (s.modCx g).saved = s.saved := rfl
@[simp] theorem State.setCore_mcKind (s : State) (c : CoreId) (k : Core) : (s.setCore c k).mcKind = s.mcKind := rfl
@[simp] theorem State.modCore_mcKind (s : State) (c : CoreId) (g : Core → Core) : (s.modCore c g).mcKind = s.mcKind := rfl
@[simp] theorem State.modCtx_mcKind (s : State) (c : CoreId) (h : CtxId) (g : Ctx → Ctx) : (s.modCtx c h g).mcKind = s.mcKind := rfl
@[simp] theorem State.modMe_mcKind (s : State) (g : Core → Core) : (s.modMe g).mcKind = s.mcKind := rfl
@[simp] theorem State.modCx_mcKind (s : State) (g : Ctx → Ctx) : (s.modCx g).mcKind = s.mcKind := rfl
@[simp] theorem State.setCore_mcCore (s : State) (c : CoreId) (k : Core) : (s.setCore c k).mcCore = s.mcCore := rfl
@[simp] theorem State.modCore_mcCore (s : State) (c : CoreId) (g : Core → Core) : (s.modCore c g).mcCore = s.mcCore := rfl
@[simp] theorem State.modCtx_mcCore (s : State) (c : CoreId) (h : CtxId) (g : Ctx → Ctx) : (s.modCtx c h g).mcCore = s.mcCore := rfl
@[simp] theorem State.modMe_mcCore (s : State) (g : Core → Core) : (s.modMe g).mcCore = s.mcCore := rfl
@[simp] theorem State.modCx_mcCore (s : State) (g : Ctx → Ctx) : (s.modCx g).mcCore = s.mcCore := rfl
@[simp] theorem State.setCore_mcCause (s : State) (c : CoreId) (k : Core) : (s.setCore c k).mcCause = s.mcCause := rfl
@[simp] theorem State.modCore_mcCause (s : State) (c : CoreId) (g : Core → Core) : (s.modCore c g).mcCause = s.mcCause := rfl
@[simp] theorem State.modCtx_mcCause (s : State) (c : CoreId) (h : CtxId) (g : Ctx → Ctx) : (s.modCtx c h g).mcCause = s.mcCause := rfl
@[simp] theorem State.modMe_mcCause (s : State) (g : Core → Core) : (s.modMe g).mcCause = s.mcCause := rfl
@[simp] theorem State.modCx_mcCause (s : State) (g : Ctx → Ctx) : (s.modCx g).mcCause = s.mcCause := rfl
@[simp] theorem State.setCore_mcAddr (s : State) (c : CoreId) (k : Core) : (s.setCore c k).mcAddr = s.mcAddr := rfl
@[simp] theorem State.modCore_mcAddr (s : State) (c : CoreId) (g : Core → Core) : (s.modCore c g).mcAddr = s.mcAddr := rfl
@[simp] theorem State.modCtx_mcAddr (s : State) (c : CoreId) (h : CtxId) (g : Ctx → Ctx) : (s.modCtx c h g).mcAddr = s.mcAddr := rfl
@[simp] theorem State.modMe_mcAddr (s : State) (g : Core → Core) : (s.modMe g).mcAddr = s.mcAddr := rfl
@[simp] theorem State.modCx_mcAddr (s : State) (g : Ctx → Ctx) : (s.modCx g).mcAddr = s.mcAddr := rfl
@[simp] theorem State.setCore_mcCount (s : State) (c : CoreId) (k : Core) : (s.setCore c k).mcCount = s.mcCount := rfl
@[simp] theorem State.modCore_mcCount (s : State) (c : CoreId) (g : Core → Core) : (s.modCore c g).mcCount = s.mcCount := rfl
@[simp] theorem State.modCtx_mcCount (s : State) (c : CoreId) (h : CtxId) (g : Ctx → Ctx) : (s.modCtx c h g).mcCount = s.mcCount := rfl
@[simp] theorem State.modMe_mcCount (s : State) (g : Core → Core) : (s.modMe g).mcCount = s.mcCount := rfl
@[simp] theorem State.modCx_mcCount (s : State) (g : Ctx → Ctx) : (s.modCx g).mcCount = s.mcCount := rfl
@[simp] theorem State.setCore_mcVec (s : State) (c : CoreId) (k : Core) : (s.setCore c k).mcVec = s.mcVec := rfl
@[simp] theorem State.modCore_mcVec (s : State) (c : CoreId) (g : Core → Core) : (s.modCore c g).mcVec = s.mcVec := rfl
@[simp] theorem State.modCtx_mcVec (s : State) (c : CoreId) (h : CtxId) (g : Ctx → Ctx) : (s.modCtx c h g).mcVec = s.mcVec := rfl
@[simp] theorem State.modMe_mcVec (s : State) (g : Core → Core) : (s.modMe g).mcVec = s.mcVec := rfl
@[simp] theorem State.modCx_mcVec (s : State) (g : Ctx → Ctx) : (s.modCx g).mcVec = s.mcVec := rfl
@[simp] theorem State.setCore_snapEn (s : State) (c : CoreId) (k : Core) : (s.setCore c k).snapEn = s.snapEn := rfl
@[simp] theorem State.modCore_snapEn (s : State) (c : CoreId) (g : Core → Core) : (s.modCore c g).snapEn = s.snapEn := rfl
@[simp] theorem State.modCtx_snapEn (s : State) (c : CoreId) (h : CtxId) (g : Ctx → Ctx) : (s.modCtx c h g).snapEn = s.snapEn := rfl
@[simp] theorem State.modMe_snapEn (s : State) (g : Core → Core) : (s.modMe g).snapEn = s.snapEn := rfl
@[simp] theorem State.modCx_snapEn (s : State) (g : Ctx → Ctx) : (s.modCx g).snapEn = s.snapEn := rfl
@[simp] theorem State.setCore_snapBase (s : State) (c : CoreId) (k : Core) : (s.setCore c k).snapBase = s.snapBase := rfl
@[simp] theorem State.modCore_snapBase (s : State) (c : CoreId) (g : Core → Core) : (s.modCore c g).snapBase = s.snapBase := rfl
@[simp] theorem State.modCtx_snapBase (s : State) (c : CoreId) (h : CtxId) (g : Ctx → Ctx) : (s.modCtx c h g).snapBase = s.snapBase := rfl
@[simp] theorem State.modMe_snapBase (s : State) (g : Core → Core) : (s.modMe g).snapBase = s.snapBase := rfl
@[simp] theorem State.modCx_snapBase (s : State) (g : Ctx → Ctx) : (s.modCx g).snapBase = s.snapBase := rfl
@[simp] theorem State.setCore_snapLog (s : State) (c : CoreId) (k : Core) : (s.setCore c k).snapLog = s.snapLog := rfl
@[simp] theorem State.modCore_snapLog (s : State) (c : CoreId) (g : Core → Core) : (s.modCore c g).snapLog = s.snapLog := rfl
@[simp] theorem State.modCtx_snapLog (s : State) (c : CoreId) (h : CtxId) (g : Ctx → Ctx) : (s.modCtx c h g).snapLog = s.snapLog := rfl
@[simp] theorem State.modMe_snapLog (s : State) (g : Core → Core) : (s.modMe g).snapLog = s.snapLog := rfl
@[simp] theorem State.modCx_snapLog (s : State) (g : Ctx → Ctx) : (s.modCx g).snapLog = s.snapLog := rfl
@[simp] theorem State.setCore_spares (s : State) (c : CoreId) (k : Core) : (s.setCore c k).spares = s.spares := rfl
@[simp] theorem State.modCore_spares (s : State) (c : CoreId) (g : Core → Core) : (s.modCore c g).spares = s.spares := rfl
@[simp] theorem State.modCtx_spares (s : State) (c : CoreId) (h : CtxId) (g : Ctx → Ctx) : (s.modCtx c h g).spares = s.spares := rfl
@[simp] theorem State.modMe_spares (s : State) (g : Core → Core) : (s.modMe g).spares = s.spares := rfl
@[simp] theorem State.modCx_spares (s : State) (g : Ctx → Ctx) : (s.modCx g).spares = s.spares := rfl
@[simp] theorem State.setCore_ports (s : State) (c : CoreId) (k : Core) : (s.setCore c k).ports = s.ports := rfl
@[simp] theorem State.modCore_ports (s : State) (c : CoreId) (g : Core → Core) : (s.modCore c g).ports = s.ports := rfl
@[simp] theorem State.modCtx_ports (s : State) (c : CoreId) (h : CtxId) (g : Ctx → Ctx) : (s.modCtx c h g).ports = s.ports := rfl
@[simp] theorem State.modMe_ports (s : State) (g : Core → Core) : (s.modMe g).ports = s.ports := rfl
@[simp] theorem State.modCx_ports (s : State) (g : Ctx → Ctx) : (s.modCx g).ports = s.ports := rfl
@[simp] theorem State.setCore_e2eTimeout (s : State) (c : CoreId) (k : Core) : (s.setCore c k).e2eTimeout = s.e2eTimeout := rfl
@[simp] theorem State.modCore_e2eTimeout (s : State) (c : CoreId) (g : Core → Core) : (s.modCore c g).e2eTimeout = s.e2eTimeout := rfl
@[simp] theorem State.modCtx_e2eTimeout (s : State) (c : CoreId) (h : CtxId) (g : Ctx → Ctx) : (s.modCtx c h g).e2eTimeout = s.e2eTimeout := rfl
@[simp] theorem State.modMe_e2eTimeout (s : State) (g : Core → Core) : (s.modMe g).e2eTimeout = s.e2eTimeout := rfl
@[simp] theorem State.modCx_e2eTimeout (s : State) (g : Ctx → Ctx) : (s.modCx g).e2eTimeout = s.e2eTimeout := rfl
@[simp] theorem State.setCore_e2eRetries (s : State) (c : CoreId) (k : Core) : (s.setCore c k).e2eRetries = s.e2eRetries := rfl
@[simp] theorem State.modCore_e2eRetries (s : State) (c : CoreId) (g : Core → Core) : (s.modCore c g).e2eRetries = s.e2eRetries := rfl
@[simp] theorem State.modCtx_e2eRetries (s : State) (c : CoreId) (h : CtxId) (g : Ctx → Ctx) : (s.modCtx c h g).e2eRetries = s.e2eRetries := rfl
@[simp] theorem State.modMe_e2eRetries (s : State) (g : Core → Core) : (s.modMe g).e2eRetries = s.e2eRetries := rfl
@[simp] theorem State.modCx_e2eRetries (s : State) (g : Ctx → Ctx) : (s.modCx g).e2eRetries = s.e2eRetries := rfl
@[simp] theorem State.setCore_e2eNext (s : State) (c : CoreId) (k : Core) : (s.setCore c k).e2eNext = s.e2eNext := rfl
@[simp] theorem State.modCore_e2eNext (s : State) (c : CoreId) (g : Core → Core) : (s.modCore c g).e2eNext = s.e2eNext := rfl
@[simp] theorem State.modCtx_e2eNext (s : State) (c : CoreId) (h : CtxId) (g : Ctx → Ctx) : (s.modCtx c h g).e2eNext = s.e2eNext := rfl
@[simp] theorem State.modMe_e2eNext (s : State) (g : Core → Core) : (s.modMe g).e2eNext = s.e2eNext := rfl
@[simp] theorem State.modCx_e2eNext (s : State) (g : Ctx → Ctx) : (s.modCx g).e2eNext = s.e2eNext := rfl
@[simp] theorem State.setCore_kept (s : State) (c : CoreId) (k : Core) : (s.setCore c k).kept = s.kept := rfl
@[simp] theorem State.modCore_kept (s : State) (c : CoreId) (g : Core → Core) : (s.modCore c g).kept = s.kept := rfl
@[simp] theorem State.modCtx_kept (s : State) (c : CoreId) (h : CtxId) (g : Ctx → Ctx) : (s.modCtx c h g).kept = s.kept := rfl
@[simp] theorem State.modMe_kept (s : State) (g : Core → Core) : (s.modMe g).kept = s.kept := rfl
@[simp] theorem State.modCx_kept (s : State) (g : Ctx → Ctx) : (s.modCx g).kept = s.kept := rfl
@[simp] theorem State.setCore_accepted (s : State) (c : CoreId) (k : Core) : (s.setCore c k).accepted = s.accepted := rfl
@[simp] theorem State.modCore_accepted (s : State) (c : CoreId) (g : Core → Core) : (s.modCore c g).accepted = s.accepted := rfl
@[simp] theorem State.modCtx_accepted (s : State) (c : CoreId) (h : CtxId) (g : Ctx → Ctx) : (s.modCtx c h g).accepted = s.accepted := rfl
@[simp] theorem State.modMe_accepted (s : State) (g : Core → Core) : (s.modMe g).accepted = s.accepted := rfl
@[simp] theorem State.modCx_accepted (s : State) (g : Ctx → Ctx) : (s.modCx g).accepted = s.accepted := rfl
@[simp] theorem State.setCore_replies (s : State) (c : CoreId) (k : Core) : (s.setCore c k).replies = s.replies := rfl
@[simp] theorem State.modCore_replies (s : State) (c : CoreId) (g : Core → Core) : (s.modCore c g).replies = s.replies := rfl
@[simp] theorem State.modCtx_replies (s : State) (c : CoreId) (h : CtxId) (g : Ctx → Ctx) : (s.modCtx c h g).replies = s.replies := rfl
@[simp] theorem State.modMe_replies (s : State) (g : Core → Core) : (s.modMe g).replies = s.replies := rfl
@[simp] theorem State.modCx_replies (s : State) (g : Ctx → Ctx) : (s.modCx g).replies = s.replies := rfl
@[simp] theorem State.setCore_outbox (s : State) (c : CoreId) (k : Core) : (s.setCore c k).outbox = s.outbox := rfl
@[simp] theorem State.modCore_outbox (s : State) (c : CoreId) (g : Core → Core) : (s.modCore c g).outbox = s.outbox := rfl
@[simp] theorem State.modCtx_outbox (s : State) (c : CoreId) (h : CtxId) (g : Ctx → Ctx) : (s.modCtx c h g).outbox = s.outbox := rfl
@[simp] theorem State.modMe_outbox (s : State) (g : Core → Core) : (s.modMe g).outbox = s.outbox := rfl
@[simp] theorem State.modCx_outbox (s : State) (g : Ctx → Ctx) : (s.modCx g).outbox = s.outbox := rfl
@[simp] theorem State.setCore_sentSeen (s : State) (c : CoreId) (k : Core) : (s.setCore c k).sentSeen = s.sentSeen := rfl
@[simp] theorem State.modCore_sentSeen (s : State) (c : CoreId) (g : Core → Core) : (s.modCore c g).sentSeen = s.sentSeen := rfl
@[simp] theorem State.modCtx_sentSeen (s : State) (c : CoreId) (h : CtxId) (g : Ctx → Ctx) : (s.modCtx c h g).sentSeen = s.sentSeen := rfl
@[simp] theorem State.modMe_sentSeen (s : State) (g : Core → Core) : (s.modMe g).sentSeen = s.sentSeen := rfl
@[simp] theorem State.modCx_sentSeen (s : State) (g : Ctx → Ctx) : (s.modCx g).sentSeen = s.sentSeen := rfl
@[simp] theorem State.setCore_capWait (s : State) (c : CoreId) (k : Core) : (s.setCore c k).capWait = s.capWait := rfl
@[simp] theorem State.modCore_capWait (s : State) (c : CoreId) (g : Core → Core) : (s.modCore c g).capWait = s.capWait := rfl
@[simp] theorem State.modCtx_capWait (s : State) (c : CoreId) (h : CtxId) (g : Ctx → Ctx) : (s.modCtx c h g).capWait = s.capWait := rfl
@[simp] theorem State.modMe_capWait (s : State) (g : Core → Core) : (s.modMe g).capWait = s.capWait := rfl
@[simp] theorem State.modCx_capWait (s : State) (g : Ctx → Ctx) : (s.modCx g).capWait = s.capWait := rfl
@[simp] theorem State.setCore_engReqs (s : State) (c : CoreId) (k : Core) : (s.setCore c k).engReqs = s.engReqs := rfl
@[simp] theorem State.modCore_engReqs (s : State) (c : CoreId) (g : Core → Core) : (s.modCore c g).engReqs = s.engReqs := rfl
@[simp] theorem State.modCtx_engReqs (s : State) (c : CoreId) (h : CtxId) (g : Ctx → Ctx) : (s.modCtx c h g).engReqs = s.engReqs := rfl
@[simp] theorem State.modMe_engReqs (s : State) (g : Core → Core) : (s.modMe g).engReqs = s.engReqs := rfl
@[simp] theorem State.modCx_engReqs (s : State) (g : Ctx → Ctx) : (s.modCx g).engReqs = s.engReqs := rfl
@[simp] theorem State.setCore_clkcfg (s : State) (c : CoreId) (k : Core) : (s.setCore c k).clkcfg = s.clkcfg := rfl
@[simp] theorem State.modCore_clkcfg (s : State) (c : CoreId) (g : Core → Core) : (s.modCore c g).clkcfg = s.clkcfg := rfl
@[simp] theorem State.modCtx_clkcfg (s : State) (c : CoreId) (h : CtxId) (g : Ctx → Ctx) : (s.modCtx c h g).clkcfg = s.clkcfg := rfl
@[simp] theorem State.modMe_clkcfg (s : State) (g : Core → Core) : (s.modMe g).clkcfg = s.clkcfg := rfl
@[simp] theorem State.modCx_clkcfg (s : State) (g : Ctx → Ctx) : (s.modCx g).clkcfg = s.clkcfg := rfl
@[simp] theorem State.setCore_clkoff (s : State) (c : CoreId) (k : Core) : (s.setCore c k).clkoff = s.clkoff := rfl
@[simp] theorem State.modCore_clkoff (s : State) (c : CoreId) (g : Core → Core) : (s.modCore c g).clkoff = s.clkoff := rfl
@[simp] theorem State.modCtx_clkoff (s : State) (c : CoreId) (h : CtxId) (g : Ctx → Ctx) : (s.modCtx c h g).clkoff = s.clkoff := rfl
@[simp] theorem State.modMe_clkoff (s : State) (g : Core → Core) : (s.modMe g).clkoff = s.clkoff := rfl
@[simp] theorem State.modCx_clkoff (s : State) (g : Ctx → Ctx) : (s.modCx g).clkoff = s.clkoff := rfl
@[simp] theorem State.setCore_slewAt (s : State) (c : CoreId) (k : Core) : (s.setCore c k).slewAt = s.slewAt := rfl
@[simp] theorem State.modCore_slewAt (s : State) (c : CoreId) (g : Core → Core) : (s.modCore c g).slewAt = s.slewAt := rfl
@[simp] theorem State.modCtx_slewAt (s : State) (c : CoreId) (h : CtxId) (g : Ctx → Ctx) : (s.modCtx c h g).slewAt = s.slewAt := rfl
@[simp] theorem State.modMe_slewAt (s : State) (g : Core → Core) : (s.modMe g).slewAt = s.slewAt := rfl
@[simp] theorem State.modCx_slewAt (s : State) (g : Ctx → Ctx) : (s.modCx g).slewAt = s.slewAt := rfl
@[simp] theorem State.setCore_masterAt (s : State) (c : CoreId) (k : Core) : (s.setCore c k).masterAt = s.masterAt := rfl
@[simp] theorem State.modCore_masterAt (s : State) (c : CoreId) (g : Core → Core) : (s.modCore c g).masterAt = s.masterAt := rfl
@[simp] theorem State.modCtx_masterAt (s : State) (c : CoreId) (h : CtxId) (g : Ctx → Ctx) : (s.modCtx c h g).masterAt = s.masterAt := rfl
@[simp] theorem State.modMe_masterAt (s : State) (g : Core → Core) : (s.modMe g).masterAt = s.masterAt := rfl
@[simp] theorem State.modCx_masterAt (s : State) (g : Ctx → Ctx) : (s.modCx g).masterAt = s.masterAt := rfl
@[simp] theorem State.setCore_unreach (s : State) (c : CoreId) (k : Core) : (s.setCore c k).unreach = s.unreach := rfl
@[simp] theorem State.modCore_unreach (s : State) (c : CoreId) (g : Core → Core) : (s.modCore c g).unreach = s.unreach := rfl
@[simp] theorem State.modCtx_unreach (s : State) (c : CoreId) (h : CtxId) (g : Ctx → Ctx) : (s.modCtx c h g).unreach = s.unreach := rfl
@[simp] theorem State.modMe_unreach (s : State) (g : Core → Core) : (s.modMe g).unreach = s.unreach := rfl
@[simp] theorem State.modCx_unreach (s : State) (g : Ctx → Ctx) : (s.modCx g).unreach = s.unreach := rfl
@[simp] theorem State.setCore_farunr (s : State) (c : CoreId) (k : Core) : (s.setCore c k).farunr = s.farunr := rfl
@[simp] theorem State.modCore_farunr (s : State) (c : CoreId) (g : Core → Core) : (s.modCore c g).farunr = s.farunr := rfl
@[simp] theorem State.modCtx_farunr (s : State) (c : CoreId) (h : CtxId) (g : Ctx → Ctx) : (s.modCtx c h g).farunr = s.farunr := rfl
@[simp] theorem State.modMe_farunr (s : State) (g : Core → Core) : (s.modMe g).farunr = s.farunr := rfl
@[simp] theorem State.modCx_farunr (s : State) (g : Ctx → Ctx) : (s.modCx g).farunr = s.farunr := rfl

/-! ## Drawing a free value -/

@[simp] theorem State.draw_agenda (s : State) (w : Nat) : (s.draw w).2.agenda = s.agenda := rfl
@[simp] theorem State.draw_cur (s : State) (w : Nat) : (s.draw w).2.cur = s.cur := rfl
@[simp] theorem State.draw_curCtx (s : State) (w : Nat) : (s.draw w).2.curCtx = s.curCtx := rfl
@[simp] theorem State.draw_reqCtr (s : State) (w : Nat) : (s.draw w).2.reqCtr = s.reqCtr := rfl
@[simp] theorem State.draw_cores (s : State) (w : Nat) : (s.draw w).2.cores = s.cores := rfl
@[simp] theorem State.draw_mem (s : State) (w : Nat) : (s.draw w).2.mem = s.mem := rfl
@[simp] theorem State.draw_past (s : State) (w : Nat) : (s.draw w).2.past = s.past := rfl
@[simp] theorem State.draw_fulls (s : State) (w : Nat) : (s.draw w).2.fulls = s.fulls := rfl
@[simp] theorem State.draw_hostSeen (s : State) (w : Nat) : (s.draw w).2.hostSeen = s.hostSeen := rfl
@[simp] theorem State.draw_cycle (s : State) (w : Nat) : (s.draw w).2.cycle = s.cycle := rfl
@[simp] theorem State.draw_lateW (s : State) (w : Nat) : (s.draw w).2.lateW = s.lateW := rfl
@[simp] theorem State.draw_lost (s : State) (w : Nat) : (s.draw w).2.lost = s.lost := rfl
@[simp] theorem State.draw_timebase (s : State) (w : Nat) : (s.draw w).2.timebase = s.timebase := rfl
@[simp] theorem State.draw_phase (s : State) (w : Nat) : (s.draw w).2.phase = s.phase := rfl
@[simp] theorem State.draw_mhz (s : State) (w : Nat) : (s.draw w).2.mhz = s.mhz := rfl
@[simp] theorem State.draw_powerCap (s : State) (w : Nat) : (s.draw w).2.powerCap = s.powerCap := rfl
@[simp] theorem State.draw_shutdown (s : State) (w : Nat) : (s.draw w).2.shutdown = s.shutdown := rfl
@[simp] theorem State.draw_inReset (s : State) (w : Nat) : (s.draw w).2.inReset = s.inReset := rfl
@[simp] theorem State.draw_rollback (s : State) (w : Nat) : (s.draw w).2.rollback = s.rollback := rfl
@[simp] theorem State.draw_firmware (s : State) (w : Nat) : (s.draw w).2.firmware = s.firmware := rfl
@[simp] theorem State.draw_fwVersion (s : State) (w : Nat) : (s.draw w).2.fwVersion = s.fwVersion := rfl
@[simp] theorem State.draw_mgmtOut (s : State) (w : Nat) : (s.draw w).2.mgmtOut = s.mgmtOut := rfl
@[simp] theorem State.draw_devCoord (s : State) (w : Nat) : (s.draw w).2.devCoord = s.devCoord := rfl
@[simp] theorem State.draw_wsCal (s : State) (w : Nat) : (s.draw w).2.wsCal = s.wsCal := rfl
@[simp] theorem State.draw_wsPeriod (s : State) (w : Nat) : (s.draw w).2.wsPeriod = s.wsPeriod := rfl
@[simp] theorem State.draw_wsWindow (s : State) (w : Nat) : (s.draw w).2.wsWindow = s.wsWindow := rfl
@[simp] theorem State.draw_wsAway (s : State) (w : Nat) : (s.draw w).2.wsAway = s.wsAway := rfl
@[simp] theorem State.draw_ltlb (s : State) (w : Nat) : (s.draw w).2.ltlb = s.ltlb := rfl
@[simp] theorem State.draw_constC (s : State) (w : Nat) : (s.draw w).2.constC = s.constC := rfl
@[simp] theorem State.draw_dir (s : State) (w : Nat) : (s.draw w).2.dir = s.dir := rfl
@[simp] theorem State.draw_notices (s : State) (w : Nat) : (s.draw w).2.notices = s.notices := rfl
@[simp] theorem State.draw_ovfTab (s : State) (w : Nat) : (s.draw w).2.ovfTab = s.ovfTab := rfl
@[simp] theorem State.draw_prefetches (s : State) (w : Nat) : (s.draw w).2.prefetches = s.prefetches := rfl
@[simp] theorem State.draw_vers (s : State) (w : Nat) : (s.draw w).2.vers = s.vers := rfl
@[simp] theorem State.draw_marks (s : State) (w : Nat) : (s.draw w).2.marks = s.marks := rfl
@[simp] theorem State.draw_capMsgs (s : State) (w : Nat) : (s.draw w).2.capMsgs = s.capMsgs := rfl
@[simp] theorem State.draw_counters (s : State) (w : Nat) : (s.draw w).2.counters = s.counters := rfl
@[simp] theorem State.draw_launches (s : State) (w : Nat) : (s.draw w).2.launches = s.launches := rfl
@[simp] theorem State.draw_setupQ (s : State) (w : Nat) : (s.draw w).2.setupQ = s.setupQ := rfl
@[simp] theorem State.draw_launchWait (s : State) (w : Nat) : (s.draw w).2.launchWait = s.launchWait := rfl
@[simp] theorem State.draw_groups (s : State) (w : Nat) : (s.draw w).2.groups = s.groups := rfl
@[simp] theorem State.draw_mcasts (s : State) (w : Nat) : (s.draw w).2.mcasts = s.mcasts := rfl
@[simp] theorem State.draw_objs (s : State) (w : Nat) : (s.draw w).2.objs = s.objs := rfl
@[simp] theorem State.draw_objMsgs (s : State) (w : Nat) : (s.draw w).2.objMsgs = s.objMsgs := rfl
@[simp] theorem State.draw_windows (s : State) (w : Nat) : (s.draw w).2.windows = s.windows := rfl
@[simp] theorem State.draw_routerAt (s : State) (w : Nat) : (s.draw w).2.routerAt = s.routerAt := rfl
@[simp] theorem State.draw_flight (s : State) (w : Nat) : (s.draw w).2.flight = s.flight := rfl
@[simp] theorem State.draw_waitFrag (s : State) (w : Nat) : (s.draw w).2.waitFrag = s.waitFrag := rfl
@[simp] theorem State.draw_frags (s : State) (w : Nat) : (s.draw w).2.frags = s.frags := rfl
@[simp] theorem State.draw_winCred (s : State) (w : Nat) : (s.draw w).2.winCred = s.winCred := rfl
@[simp] theorem State.draw_winDrop (s : State) (w : Nat) : (s.draw w).2.winDrop = s.winDrop := rfl
@[simp] theorem State.draw_hostSeq (s : State) (w : Nat) : (s.draw w).2.hostSeq = s.hostSeq := rfl
@[simp] theorem State.draw_hostOff (s : State) (w : Nat) : (s.draw w).2.hostOff = s.hostOff := rfl
@[simp] theorem State.draw_ptmctl (s : State) (w : Nat) : (s.draw w).2.ptmctl = s.ptmctl := rfl
@[simp] theorem State.draw_ptroot (s : State) (w : Nat) : (s.draw w).2.ptroot = s.ptroot := rfl
@[simp] theorem State.draw_spillBase (s : State) (w : Nat) : (s.draw w).2.spillBase = s.spillBase := rfl
@[simp] theorem State.draw_spillLog (s : State) (w : Nat) : (s.draw w).2.spillLog = s.spillLog := rfl
@[simp] theorem State.draw_ovfBase (s : State) (w : Nat) : (s.draw w).2.ovfBase = s.ovfBase := rfl
@[simp] theorem State.draw_ovfLog (s : State) (w : Nat) : (s.draw w).2.ovfLog = s.ovfLog := rfl
@[simp] theorem State.draw_apbase (s : State) (w : Nat) : (s.draw w).2.apbase = s.apbase := rfl
@[simp] theorem State.draw_hostQ (s : State) (w : Nat) : (s.draw w).2.hostQ = s.hostQ := rfl
@[simp] theorem State.draw_fbDup (s : State) (w : Nat) : (s.draw w).2.fbDup = s.fbDup := rfl
@[simp] theorem State.draw_fallback (s : State) (w : Nat) : (s.draw w).2.fallback = s.fallback := rfl
@[simp] theorem State.draw_hostPages (s : State) (w : Nat) : (s.draw w).2.hostPages = s.hostPages := rfl
@[simp] theorem State.draw_fbValue (s : State) (w : Nat) : (s.draw w).2.fbValue = s.fbValue := rfl
@[simp] theorem State.draw_winSlots (s : State) (w : Nat) : (s.draw w).2.winSlots = s.winSlots := rfl
@[simp] theorem State.draw_msixTab (s : State) (w : Nat) : (s.draw w).2.msixTab = s.msixTab := rfl
@[simp] theorem State.draw_hostData (s : State) (w : Nat) : (s.draw w).2.hostData = s.hostData := rfl
@[simp] theorem State.draw_msix (s : State) (w : Nat) : (s.draw w).2.msix = s.msix := rfl
@[simp] theorem State.draw_ckState (s : State) (w : Nat) : (s.draw w).2.ckState = s.ckState := rfl
@[simp] theorem State.draw_ckRsv (s : State) (w : Nat) : (s.draw w).2.ckRsv = s.ckRsv := rfl
@[simp] theorem State.draw_cut (s : State) (w : Nat) : (s.draw w).2.cut = s.cut := rfl
@[simp] theorem State.draw_earlyMarks (s : State) (w : Nat) : (s.draw w).2.earlyMarks = s.earlyMarks := rfl
@[simp] theorem State.draw_earlyAfter (s : State) (w : Nat) : (s.draw w).2.earlyAfter = s.earlyAfter := rfl
@[simp] theorem State.draw_pectl (s : State) (w : Nat) : (s.draw w).2.pectl = s.pectl := rfl
@[simp] theorem State.draw_pebase (s : State) (w : Nat) : (s.draw w).2.pebase = s.pebase := rfl
@[simp] theorem State.draw_pestat (s : State) (w : Nat) : (s.draw w).2.pestat = s.pestat := rfl
@[simp] theorem State.draw_pefreeze (s : State) (w : Nat) : (s.draw w).2.pefreeze = s.pefreeze := rfl
@[simp] theorem State.draw_peresume (s : State) (w : Nat) : (s.draw w).2.peresume = s.peresume := rfl
@[simp] theorem State.draw_joboff (s : State) (w : Nat) : (s.draw w).2.joboff = s.joboff := rfl
@[simp] theorem State.draw_peMarks (s : State) (w : Nat) : (s.draw w).2.peMarks = s.peMarks := rfl
@[simp] theorem State.draw_peSent (s : State) (w : Nat) : (s.draw w).2.peSent = s.peSent := rfl
@[simp] theorem State.draw_saved (s : State) (w : Nat) : (s.draw w).2.saved = s.saved := rfl
@[simp] theorem State.draw_mcKind (s : State) (w : Nat) : (s.draw w).2.mcKind = s.mcKind := rfl
@[simp] theorem State.draw_mcCore (s : State) (w : Nat) : (s.draw w).2.mcCore = s.mcCore := rfl
@[simp] theorem State.draw_mcCause (s : State) (w : Nat) : (s.draw w).2.mcCause = s.mcCause := rfl
@[simp] theorem State.draw_mcAddr (s : State) (w : Nat) : (s.draw w).2.mcAddr = s.mcAddr := rfl
@[simp] theorem State.draw_mcCount (s : State) (w : Nat) : (s.draw w).2.mcCount = s.mcCount := rfl
@[simp] theorem State.draw_mcVec (s : State) (w : Nat) : (s.draw w).2.mcVec = s.mcVec := rfl
@[simp] theorem State.draw_snapEn (s : State) (w : Nat) : (s.draw w).2.snapEn = s.snapEn := rfl
@[simp] theorem State.draw_snapBase (s : State) (w : Nat) : (s.draw w).2.snapBase = s.snapBase := rfl
@[simp] theorem State.draw_snapLog (s : State) (w : Nat) : (s.draw w).2.snapLog = s.snapLog := rfl
@[simp] theorem State.draw_spares (s : State) (w : Nat) : (s.draw w).2.spares = s.spares := rfl
@[simp] theorem State.draw_ports (s : State) (w : Nat) : (s.draw w).2.ports = s.ports := rfl
@[simp] theorem State.draw_e2eTimeout (s : State) (w : Nat) : (s.draw w).2.e2eTimeout = s.e2eTimeout := rfl
@[simp] theorem State.draw_e2eRetries (s : State) (w : Nat) : (s.draw w).2.e2eRetries = s.e2eRetries := rfl
@[simp] theorem State.draw_e2eNext (s : State) (w : Nat) : (s.draw w).2.e2eNext = s.e2eNext := rfl
@[simp] theorem State.draw_kept (s : State) (w : Nat) : (s.draw w).2.kept = s.kept := rfl
@[simp] theorem State.draw_accepted (s : State) (w : Nat) : (s.draw w).2.accepted = s.accepted := rfl
@[simp] theorem State.draw_replies (s : State) (w : Nat) : (s.draw w).2.replies = s.replies := rfl
@[simp] theorem State.draw_outbox (s : State) (w : Nat) : (s.draw w).2.outbox = s.outbox := rfl
@[simp] theorem State.draw_sentSeen (s : State) (w : Nat) : (s.draw w).2.sentSeen = s.sentSeen := rfl
@[simp] theorem State.draw_capWait (s : State) (w : Nat) : (s.draw w).2.capWait = s.capWait := rfl
@[simp] theorem State.draw_engReqs (s : State) (w : Nat) : (s.draw w).2.engReqs = s.engReqs := rfl
@[simp] theorem State.draw_clkcfg (s : State) (w : Nat) : (s.draw w).2.clkcfg = s.clkcfg := rfl
@[simp] theorem State.draw_clkoff (s : State) (w : Nat) : (s.draw w).2.clkoff = s.clkoff := rfl
@[simp] theorem State.draw_slewAt (s : State) (w : Nat) : (s.draw w).2.slewAt = s.slewAt := rfl
@[simp] theorem State.draw_masterAt (s : State) (w : Nat) : (s.draw w).2.masterAt = s.masterAt := rfl
@[simp] theorem State.draw_unreach (s : State) (w : Nat) : (s.draw w).2.unreach = s.unreach := rfl
@[simp] theorem State.draw_farunr (s : State) (w : Nat) : (s.draw w).2.farunr = s.farunr := rfl

/-! ## Replacing or changing a context of a core -/

@[simp] theorem Core.setCtx_rr (k : Core) (h : CtxId) (x : Ctx) : (k.setCtx h x).rr = k.rr := rfl
@[simp] theorem Core.modCtx_rr (k : Core) (h : CtxId) (g : Ctx → Ctx) : (k.modCtx h g).rr = k.rr := rfl
@[simp] theorem Core.setCtx_spad (k : Core) (h : CtxId) (x : Ctx) : (k.setCtx h x).spad = k.spad := rfl
@[simp] theorem Core.modCtx_spad (k : Core) (h : CtxId) (g : Ctx → Ctx) : (k.modCtx h g).spad = k.spad := rfl
@[simp] theorem Core.setCtx_full (k : Core) (h : CtxId) (x : Ctx) : (k.setCtx h x).full = k.full := rfl
@[simp] theorem Core.modCtx_full (k : Core) (h : CtxId) (g : Ctx → Ctx) : (k.modCtx h g).full = k.full := rfl
@[simp] theorem Core.setCtx_feSeen (k : Core) (h : CtxId) (x : Ctx) : (k.setCtx h x).feSeen = k.feSeen := rfl
@[simp] theorem Core.modCtx_feSeen (k : Core) (h : CtxId) (g : Ctx → Ctx) : (k.modCtx h g).feSeen = k.feSeen := rfl
@[simp] theorem Core.setCtx_endSeen (k : Core) (h : CtxId) (x : Ctx) : (k.setCtx h x).endSeen = k.endSeen := rfl
@[simp] theorem Core.modCtx_endSeen (k : Core) (h : CtxId) (g : Ctx → Ctx) : (k.modCtx h g).endSeen = k.endSeen := rfl
@[simp] theorem Core.setCtx_spadRel (k : Core) (h : CtxId) (x : Ctx) : (k.setCtx h x).spadRel = k.spadRel := rfl
@[simp] theorem Core.modCtx_spadRel (k : Core) (h : CtxId) (g : Ctx → Ctx) : (k.modCtx h g).spadRel = k.spadRel := rfl
@[simp] theorem Core.setCtx_spadLost (k : Core) (h : CtxId) (x : Ctx) : (k.setCtx h x).spadLost = k.spadLost := rfl
@[simp] theorem Core.modCtx_spadLost (k : Core) (h : CtxId) (g : Ctx → Ctx) : (k.modCtx h g).spadLost = k.spadLost := rfl
@[simp] theorem Core.setCtx_feWait (k : Core) (h : CtxId) (x : Ctx) : (k.setCtx h x).feWait = k.feWait := rfl
@[simp] theorem Core.modCtx_feWait (k : Core) (h : CtxId) (g : Ctx → Ctx) : (k.modCtx h g).feWait = k.feWait := rfl
@[simp] theorem Core.setCtx_last (k : Core) (h : CtxId) (x : Ctx) : (k.setCtx h x).last = k.last := rfl
@[simp] theorem Core.modCtx_last (k : Core) (h : CtxId) (g : Ctx → Ctx) : (k.modCtx h g).last = k.last := rfl
@[simp] theorem Core.setCtx_tagunit (k : Core) (h : CtxId) (x : Ctx) : (k.setCtx h x).tagunit = k.tagunit := rfl
@[simp] theorem Core.modCtx_tagunit (k : Core) (h : CtxId) (g : Ctx → Ctx) : (k.modCtx h g).tagunit = k.tagunit := rfl
@[simp] theorem Core.setCtx_dbDie (k : Core) (h : CtxId) (x : Ctx) : (k.setCtx h x).dbDie = k.dbDie := rfl
@[simp] theorem Core.modCtx_dbDie (k : Core) (h : CtxId) (g : Ctx → Ctx) : (k.modCtx h g).dbDie = k.dbDie := rfl
@[simp] theorem Core.setCtx_dbPkg (k : Core) (h : CtxId) (x : Ctx) : (k.setCtx h x).dbPkg = k.dbPkg := rfl
@[simp] theorem Core.modCtx_dbPkg (k : Core) (h : CtxId) (g : Ctx → Ctx) : (k.modCtx h g).dbPkg = k.dbPkg := rfl
@[simp] theorem Core.setCtx_dbChas (k : Core) (h : CtxId) (x : Ctx) : (k.setCtx h x).dbChas = k.dbChas := rfl
@[simp] theorem Core.modCtx_dbChas (k : Core) (h : CtxId) (g : Ctx → Ctx) : (k.modCtx h g).dbChas = k.dbChas := rfl
@[simp] theorem Core.setCtx_dbFar (k : Core) (h : CtxId) (x : Ctx) : (k.setCtx h x).dbFar = k.dbFar := rfl
@[simp] theorem Core.modCtx_dbFar (k : Core) (h : CtxId) (g : Ctx → Ctx) : (k.modCtx h g).dbFar = k.dbFar := rfl
@[simp] theorem Core.setCtx_eboundCh (k : Core) (h : CtxId) (x : Ctx) : (k.setCtx h x).eboundCh = k.eboundCh := rfl
@[simp] theorem Core.modCtx_eboundCh (k : Core) (h : CtxId) (g : Ctx → Ctx) : (k.modCtx h g).eboundCh = k.eboundCh := rfl
@[simp] theorem Core.setCtx_eboundFar (k : Core) (h : CtxId) (x : Ctx) : (k.setCtx h x).eboundFar = k.eboundFar := rfl
@[simp] theorem Core.modCtx_eboundFar (k : Core) (h : CtxId) (g : Ctx → Ctx) : (k.modCtx h g).eboundFar = k.eboundFar := rfl
@[simp] theorem Core.setCtx_inclass (k : Core) (h : CtxId) (x : Ctx) : (k.setCtx h x).inclass = k.inclass := rfl
@[simp] theorem Core.modCtx_inclass (k : Core) (h : CtxId) (g : Ctx → Ctx) : (k.modCtx h g).inclass = k.inclass := rfl
@[simp] theorem Core.setCtx_iflags (k : Core) (h : CtxId) (x : Ctx) : (k.setCtx h x).iflags = k.iflags := rfl
@[simp] theorem Core.modCtx_iflags (k : Core) (h : CtxId) (g : Ctx → Ctx) : (k.modCtx h g).iflags = k.iflags := rfl
@[simp] theorem Core.setCtx_staleCnt (k : Core) (h : CtxId) (x : Ctx) : (k.setCtx h x).staleCnt = k.staleCnt := rfl
@[simp] theorem Core.modCtx_staleCnt (k : Core) (h : CtxId) (g : Ctx → Ctx) : (k.modCtx h g).staleCnt = k.staleCnt := rfl
@[simp] theorem Core.setCtx_spillN (k : Core) (h : CtxId) (x : Ctx) : (k.setCtx h x).spillN = k.spillN := rfl
@[simp] theorem Core.modCtx_spillN (k : Core) (h : CtxId) (g : Ctx → Ctx) : (k.modCtx h g).spillN = k.spillN := rfl
@[simp] theorem Core.setCtx_spillPut (k : Core) (h : CtxId) (x : Ctx) : (k.setCtx h x).spillPut = k.spillPut := rfl
@[simp] theorem Core.modCtx_spillPut (k : Core) (h : CtxId) (g : Ctx → Ctx) : (k.modCtx h g).spillPut = k.spillPut := rfl
@[simp] theorem Core.setCtx_spillBuf (k : Core) (h : CtxId) (x : Ctx) : (k.setCtx h x).spillBuf = k.spillBuf := rfl
@[simp] theorem Core.modCtx_spillBuf (k : Core) (h : CtxId) (g : Ctx → Ctx) : (k.modCtx h g).spillBuf = k.spillBuf := rfl
@[simp] theorem Core.setCtx_bexCnt (k : Core) (h : CtxId) (x : Ctx) : (k.setCtx h x).bexCnt = k.bexCnt := rfl
@[simp] theorem Core.modCtx_bexCnt (k : Core) (h : CtxId) (g : Ctx → Ctx) : (k.modCtx h g).bexCnt = k.bexCnt := rfl
@[simp] theorem Core.setCtx_blkFirst (k : Core) (h : CtxId) (x : Ctx) : (k.setCtx h x).blkFirst = k.blkFirst := rfl
@[simp] theorem Core.modCtx_blkFirst (k : Core) (h : CtxId) (g : Ctx → Ctx) : (k.modCtx h g).blkFirst = k.blkFirst := rfl
@[simp] theorem Core.setCtx_blkN (k : Core) (h : CtxId) (x : Ctx) : (k.setCtx h x).blkN = k.blkN := rfl
@[simp] theorem Core.modCtx_blkN (k : Core) (h : CtxId) (g : Ctx → Ctx) : (k.modCtx h g).blkN = k.blkN := rfl
@[simp] theorem Core.setCtx_blkUsed (k : Core) (h : CtxId) (x : Ctx) : (k.setCtx h x).blkUsed = k.blkUsed := rfl
@[simp] theorem Core.modCtx_blkUsed (k : Core) (h : CtxId) (g : Ctx → Ctx) : (k.modCtx h g).blkUsed = k.blkUsed := rfl
@[simp] theorem Core.setCtx_beatIv (k : Core) (h : CtxId) (x : Ctx) : (k.setCtx h x).beatIv = k.beatIv := rfl
@[simp] theorem Core.modCtx_beatIv (k : Core) (h : CtxId) (g : Ctx → Ctx) : (k.modCtx h g).beatIv = k.beatIv := rfl
@[simp] theorem Core.setCtx_late (k : Core) (h : CtxId) (x : Ctx) : (k.setCtx h x).late = k.late := rfl
@[simp] theorem Core.modCtx_late (k : Core) (h : CtxId) (g : Ctx → Ctx) : (k.modCtx h g).late = k.late := rfl
@[simp] theorem Core.setCtx_trap (k : Core) (h : CtxId) (x : Ctx) : (k.setCtx h x).trap = k.trap := rfl
@[simp] theorem Core.modCtx_trap (k : Core) (h : CtxId) (g : Ctx → Ctx) : (k.modCtx h g).trap = k.trap := rfl
@[simp] theorem Core.setCtx_tvec (k : Core) (h : CtxId) (x : Ctx) : (k.setCtx h x).tvec = k.tvec := rfl
@[simp] theorem Core.modCtx_tvec (k : Core) (h : CtxId) (g : Ctx → Ctx) : (k.modCtx h g).tvec = k.tvec := rfl
@[simp] theorem Core.setCtx_tcfgBudget (k : Core) (h : CtxId) (x : Ctx) : (k.setCtx h x).tcfgBudget = k.tcfgBudget := rfl
@[simp] theorem Core.modCtx_tcfgBudget (k : Core) (h : CtxId) (g : Ctx → Ctx) : (k.modCtx h g).tcfgBudget = k.tcfgBudget := rfl
@[simp] theorem Core.setCtx_tcfgInf11 (k : Core) (h : CtxId) (x : Ctx) : (k.setCtx h x).tcfgInf11 = k.tcfgInf11 := rfl
@[simp] theorem Core.modCtx_tcfgInf11 (k : Core) (h : CtxId) (g : Ctx → Ctx) : (k.modCtx h g).tcfgInf11 = k.tcfgInf11 := rfl
@[simp] theorem Core.setCtx_tcfgInf14 (k : Core) (h : CtxId) (x : Ctx) : (k.setCtx h x).tcfgInf14 = k.tcfgInf14 := rfl
@[simp] theorem Core.modCtx_tcfgInf14 (k : Core) (h : CtxId) (g : Ctx → Ctx) : (k.modCtx h g).tcfgInf14 = k.tcfgInf14 := rfl
@[simp] theorem Core.setCtx_tstk (k : Core) (h : CtxId) (x : Ctx) : (k.setCtx h x).tstk = k.tstk := rfl
@[simp] theorem Core.modCtx_tstk (k : Core) (h : CtxId) (g : Ctx → Ctx) : (k.modCtx h g).tstk = k.tstk := rfl
@[simp] theorem Core.setCtx_recs (k : Core) (h : CtxId) (x : Ctx) : (k.setCtx h x).recs = k.recs := rfl
@[simp] theorem Core.modCtx_recs (k : Core) (h : CtxId) (g : Ctx → Ctx) : (k.modCtx h g).recs = k.recs := rfl
@[simp] theorem Core.setCtx_det (k : Core) (h : CtxId) (x : Ctx) : (k.setCtx h x).det = k.det := rfl
@[simp] theorem Core.modCtx_det (k : Core) (h : CtxId) (g : Ctx → Ctx) : (k.modCtx h g).det = k.det := rfl
@[simp] theorem Core.setCtx_detRounds (k : Core) (h : CtxId) (x : Ctx) : (k.setCtx h x).detRounds = k.detRounds := rfl
@[simp] theorem Core.modCtx_detRounds (k : Core) (h : CtxId) (g : Ctx → Ctx) : (k.modCtx h g).detRounds = k.detRounds := rfl
@[simp] theorem Core.setCtx_quantum (k : Core) (h : CtxId) (x : Ctx) : (k.setCtx h x).quantum = k.quantum := rfl
@[simp] theorem Core.modCtx_quantum (k : Core) (h : CtxId) (g : Ctx → Ctx) : (k.modCtx h g).quantum = k.quantum := rfl
@[simp] theorem Core.setCtx_glog (k : Core) (h : CtxId) (x : Ctx) : (k.setCtx h x).glog = k.glog := rfl
@[simp] theorem Core.modCtx_glog (k : Core) (h : CtxId) (g : Ctx → Ctx) : (k.modCtx h g).glog = k.glog := rfl
@[simp] theorem Core.setCtx_slots (k : Core) (h : CtxId) (x : Ctx) : (k.setCtx h x).slots = k.slots := rfl
@[simp] theorem Core.modCtx_slots (k : Core) (h : CtxId) (g : Ctx → Ctx) : (k.modCtx h g).slots = k.slots := rfl
@[simp] theorem Core.setCtx_inbox (k : Core) (h : CtxId) (x : Ctx) : (k.setCtx h x).inbox = k.inbox := rfl
@[simp] theorem Core.modCtx_inbox (k : Core) (h : CtxId) (g : Ctx → Ctx) : (k.modCtx h g).inbox = k.inbox := rfl
@[simp] theorem Core.setCtx_held (k : Core) (h : CtxId) (x : Ctx) : (k.setCtx h x).held = k.held := rfl
@[simp] theorem Core.modCtx_held (k : Core) (h : CtxId) (g : Ctx → Ctx) : (k.modCtx h g).held = k.held := rfl
@[simp] theorem Core.setCtx_sendQ (k : Core) (h : CtxId) (x : Ctx) : (k.setCtx h x).sendQ = k.sendQ := rfl
@[simp] theorem Core.modCtx_sendQ (k : Core) (h : CtxId) (g : Ctx → Ctx) : (k.modCtx h g).sendQ = k.sendQ := rfl
@[simp] theorem Core.setCtx_seq (k : Core) (h : CtxId) (x : Ctx) : (k.setCtx h x).seq = k.seq := rfl
@[simp] theorem Core.modCtx_seq (k : Core) (h : CtxId) (g : Ctx → Ctx) : (k.modCtx h g).seq = k.seq := rfl
@[simp] theorem Core.setCtx_floor (k : Core) (h : CtxId) (x : Ctx) : (k.setCtx h x).floor = k.floor := rfl
@[simp] theorem Core.modCtx_floor (k : Core) (h : CtxId) (g : Ctx → Ctx) : (k.modCtx h g).floor = k.floor := rfl
@[simp] theorem Core.setCtx_heap (k : Core) (h : CtxId) (x : Ctx) : (k.setCtx h x).heap = k.heap := rfl
@[simp] theorem Core.modCtx_heap (k : Core) (h : CtxId) (g : Ctx → Ctx) : (k.modCtx h g).heap = k.heap := rfl
@[simp] theorem Core.setCtx_spilled (k : Core) (h : CtxId) (x : Ctx) : (k.setCtx h x).spilled = k.spilled := rfl
@[simp] theorem Core.modCtx_spilled (k : Core) (h : CtxId) (g : Ctx → Ctx) : (k.modCtx h g).spilled = k.spilled := rfl
@[simp] theorem Core.setCtx_replayKeys (k : Core) (h : CtxId) (x : Ctx) : (k.setCtx h x).replayKeys = k.replayKeys := rfl
@[simp] theorem Core.modCtx_replayKeys (k : Core) (h : CtxId) (g : Ctx → Ctx) : (k.modCtx h g).replayKeys = k.replayKeys := rfl
@[simp] theorem Core.setCtx_ring (k : Core) (h : CtxId) (x : Ctx) : (k.setCtx h x).ring = k.ring := rfl
@[simp] theorem Core.modCtx_ring (k : Core) (h : CtxId) (g : Ctx → Ctx) : (k.modCtx h g).ring = k.ring := rfl
@[simp] theorem Core.setCtx_logging (k : Core) (h : CtxId) (x : Ctx) : (k.setCtx h x).logging = k.logging := rfl
@[simp] theorem Core.modCtx_logging (k : Core) (h : CtxId) (g : Ctx → Ctx) : (k.modCtx h g).logging = k.logging := rfl
@[simp] theorem Core.setCtx_ringTab (k : Core) (h : CtxId) (x : Ctx) : (k.setCtx h x).ringTab = k.ringTab := rfl
@[simp] theorem Core.modCtx_ringTab (k : Core) (h : CtxId) (g : Ctx → Ctx) : (k.modCtx h g).ringTab = k.ringTab := rfl
@[simp] theorem Core.setCtx_lx28 (k : Core) (h : CtxId) (x : Ctx) : (k.setCtx h x).lx28 = k.lx28 := rfl
@[simp] theorem Core.modCtx_lx28 (k : Core) (h : CtxId) (g : Ctx → Ctx) : (k.modCtx h g).lx28 = k.lx28 := rfl
@[simp] theorem Core.setCtx_lx29 (k : Core) (h : CtxId) (x : Ctx) : (k.setCtx h x).lx29 = k.lx29 := rfl
@[simp] theorem Core.modCtx_lx29 (k : Core) (h : CtxId) (g : Ctx → Ctx) : (k.modCtx h g).lx29 = k.lx29 := rfl
@[simp] theorem Core.setCtx_lstk (k : Core) (h : CtxId) (x : Ctx) : (k.setCtx h x).lstk = k.lstk := rfl
@[simp] theorem Core.modCtx_lstk (k : Core) (h : CtxId) (g : Ctx → Ctx) : (k.modCtx h g).lstk = k.lstk := rfl
@[simp] theorem Core.setCtx_fifo (k : Core) (h : CtxId) (x : Ctx) : (k.setCtx h x).fifo = k.fifo := rfl
@[simp] theorem Core.modCtx_fifo (k : Core) (h : CtxId) (g : Ctx → Ctx) : (k.modCtx h g).fifo = k.fifo := rfl
@[simp] theorem Core.setCtx_chans (k : Core) (h : CtxId) (x : Ctx) : (k.setCtx h x).chans = k.chans := rfl
@[simp] theorem Core.modCtx_chans (k : Core) (h : CtxId) (g : Ctx → Ctx) : (k.modCtx h g).chans = k.chans := rfl
@[simp] theorem Core.setCtx_layouts (k : Core) (h : CtxId) (x : Ctx) : (k.setCtx h x).layouts = k.layouts := rfl
@[simp] theorem Core.modCtx_layouts (k : Core) (h : CtxId) (g : Ctx → Ctx) : (k.modCtx h g).layouts = k.layouts := rfl
@[simp] theorem Core.setCtx_streams (k : Core) (h : CtxId) (x : Ctx) : (k.setCtx h x).streams = k.streams := rfl
@[simp] theorem Core.modCtx_streams (k : Core) (h : CtxId) (g : Ctx → Ctx) : (k.modCtx h g).streams = k.streams := rfl
@[simp] theorem Core.setCtx_accs (k : Core) (h : CtxId) (x : Ctx) : (k.setCtx h x).accs = k.accs := rfl
@[simp] theorem Core.modCtx_accs (k : Core) (h : CtxId) (g : Ctx → Ctx) : (k.modCtx h g).accs = k.accs := rfl
@[simp] theorem Core.setCtx_accSeen (k : Core) (h : CtxId) (x : Ctx) : (k.setCtx h x).accSeen = k.accSeen := rfl
@[simp] theorem Core.modCtx_accSeen (k : Core) (h : CtxId) (g : Ctx → Ctx) : (k.modCtx h g).accSeen = k.accSeen := rfl
@[simp] theorem Core.setCtx_mq (k : Core) (h : CtxId) (x : Ctx) : (k.setCtx h x).mq = k.mq := rfl
@[simp] theorem Core.modCtx_mq (k : Core) (h : CtxId) (g : Ctx → Ctx) : (k.modCtx h g).mq = k.mq := rfl
@[simp] theorem Core.setCtx_mHist (k : Core) (h : CtxId) (x : Ctx) : (k.setCtx h x).mHist = k.mHist := rfl
@[simp] theorem Core.modCtx_mHist (k : Core) (h : CtxId) (g : Ctx → Ctx) : (k.modCtx h g).mHist = k.mHist := rfl
@[simp] theorem Core.setCtx_mRun (k : Core) (h : CtxId) (x : Ctx) : (k.setCtx h x).mRun = k.mRun := rfl
@[simp] theorem Core.modCtx_mRun (k : Core) (h : CtxId) (g : Ctx → Ctx) : (k.modCtx h g).mRun = k.mRun := rfl
@[simp] theorem Core.setCtx_accFault (k : Core) (h : CtxId) (x : Ctx) : (k.setCtx h x).accFault = k.accFault := rfl
@[simp] theorem Core.modCtx_accFault (k : Core) (h : CtxId) (g : Ctx → Ctx) : (k.modCtx h g).accFault = k.accFault := rfl
@[simp] theorem Core.setCtx_mCause (k : Core) (h : CtxId) (x : Ctx) : (k.setCtx h x).mCause = k.mCause := rfl
@[simp] theorem Core.modCtx_mCause (k : Core) (h : CtxId) (g : Ctx → Ctx) : (k.modCtx h g).mCause = k.mCause := rfl
@[simp] theorem Core.setCtx_mFidx (k : Core) (h : CtxId) (x : Ctx) : (k.setCtx h x).mFidx = k.mFidx := rfl
@[simp] theorem Core.modCtx_mFidx (k : Core) (h : CtxId) (g : Ctx → Ctx) : (k.modCtx h g).mFidx = k.mFidx := rfl
@[simp] theorem Core.setCtx_engW (k : Core) (h : CtxId) (x : Ctx) : (k.setCtx h x).engW = k.engW := rfl
@[simp] theorem Core.modCtx_engW (k : Core) (h : CtxId) (g : Ctx → Ctx) : (k.modCtx h g).engW = k.engW := rfl
@[simp] theorem Core.setCtx_extx (k : Core) (h : CtxId) (x : Ctx) : (k.setCtx h x).extx = k.extx := rfl
@[simp] theorem Core.modCtx_extx (k : Core) (h : CtxId) (g : Ctx → Ctx) : (k.modCtx h g).extx = k.extx := rfl
@[simp] theorem Core.setCtx_heldInj (k : Core) (h : CtxId) (x : Ctx) : (k.setCtx h x).heldInj = k.heldInj := rfl
@[simp] theorem Core.modCtx_heldInj (k : Core) (h : CtxId) (g : Ctx → Ctx) : (k.modCtx h g).heldInj = k.heldInj := rfl
@[simp] theorem Core.setCtx_lastGroup (k : Core) (h : CtxId) (x : Ctx) : (k.setCtx h x).lastGroup = k.lastGroup := rfl
@[simp] theorem Core.modCtx_lastGroup (k : Core) (h : CtxId) (g : Ctx → Ctx) : (k.modCtx h g).lastGroup = k.lastGroup := rfl
@[simp] theorem Core.setCtx_selAt (k : Core) (h : CtxId) (x : Ctx) : (k.setCtx h x).selAt = k.selAt := rfl
@[simp] theorem Core.modCtx_selAt (k : Core) (h : CtxId) (g : Ctx → Ctx) : (k.modCtx h g).selAt = k.selAt := rfl
@[simp] theorem Core.setCtx_xbar (k : Core) (h : CtxId) (x : Ctx) : (k.setCtx h x).xbar = k.xbar := rfl
@[simp] theorem Core.modCtx_xbar (k : Core) (h : CtxId) (g : Ctx → Ctx) : (k.modCtx h g).xbar = k.xbar := rfl
@[simp] theorem Core.setCtx_pcfg (k : Core) (h : CtxId) (x : Ctx) : (k.setCtx h x).pcfg = k.pcfg := rfl
@[simp] theorem Core.modCtx_pcfg (k : Core) (h : CtxId) (g : Ctx → Ctx) : (k.modCtx h g).pcfg = k.pcfg := rfl
@[simp] theorem Core.setCtx_pcfgSoon (k : Core) (h : CtxId) (x : Ctx) : (k.setCtx h x).pcfgSoon = k.pcfgSoon := rfl
@[simp] theorem Core.modCtx_pcfgSoon (k : Core) (h : CtxId) (g : Ctx → Ctx) : (k.modCtx h g).pcfgSoon = k.pcfgSoon := rfl
@[simp] theorem Core.setCtx_pcnt (k : Core) (h : CtxId) (x : Ctx) : (k.setCtx h x).pcnt = k.pcnt := rfl
@[simp] theorem Core.modCtx_pcnt (k : Core) (h : CtxId) (g : Ctx → Ctx) : (k.modCtx h g).pcnt = k.pcnt := rfl
@[simp] theorem Core.setCtx_pcntAt (k : Core) (h : CtxId) (x : Ctx) : (k.setCtx h x).pcntAt = k.pcntAt := rfl
@[simp] theorem Core.modCtx_pcntAt (k : Core) (h : CtxId) (g : Ctx → Ctx) : (k.modCtx h g).pcntAt = k.pcntAt := rfl
@[simp] theorem Core.setCtx_caps (k : Core) (h : CtxId) (x : Ctx) : (k.setCtx h x).caps = k.caps := rfl
@[simp] theorem Core.modCtx_caps (k : Core) (h : CtxId) (g : Ctx → Ctx) : (k.modCtx h g).caps = k.caps := rfl
@[simp] theorem Core.setCtx_capSeen (k : Core) (h : CtxId) (x : Ctx) : (k.setCtx h x).capSeen = k.capSeen := rfl
@[simp] theorem Core.modCtx_capSeen (k : Core) (h : CtxId) (g : Ctx → Ctx) : (k.modCtx h g).capSeen = k.capSeen := rfl
@[simp] theorem Core.setCtx_tlb (k : Core) (h : CtxId) (x : Ctx) : (k.setCtx h x).tlb = k.tlb := rfl
@[simp] theorem Core.modCtx_tlb (k : Core) (h : CtxId) (g : Ctx → Ctx) : (k.modCtx h g).tlb = k.tlb := rfl
@[simp] theorem Core.setCtx_code (k : Core) (h : CtxId) (x : Ctx) : (k.setCtx h x).code = k.code := rfl
@[simp] theorem Core.modCtx_code (k : Core) (h : CtxId) (g : Ctx → Ctx) : (k.modCtx h g).code = k.code := rfl
@[simp] theorem Core.setCtx_fenced (k : Core) (h : CtxId) (x : Ctx) : (k.setCtx h x).fenced = k.fenced := rfl
@[simp] theorem Core.modCtx_fenced (k : Core) (h : CtxId) (g : Ctx → Ctx) : (k.modCtx h g).fenced = k.fenced := rfl
@[simp] theorem Core.setCtx_halted (k : Core) (h : CtxId) (x : Ctx) : (k.setCtx h x).halted = k.halted := rfl
@[simp] theorem Core.modCtx_halted (k : Core) (h : CtxId) (g : Ctx → Ctx) : (k.modCtx h g).halted = k.halted := rfl

/-! ## Writing a general register -/

@[simp] theorem Ctx.setX_live (x : Ctx) (r : Reg) (v : DWord) : (x.setX r v).live = x.live := by unfold Ctx.setX; split <;> rfl
@[simp] theorem Ctx.setX_pc (x : Ctx) (r : Reg) (v : DWord) : (x.setX r v).pc = x.pc := by unfold Ctx.setX; split <;> rfl
@[simp] theorem Ctx.setX_f (x : Ctx) (r : Reg) (v : DWord) : (x.setX r v).f = x.f := by unfold Ctx.setX; split <;> rfl
@[simp] theorem Ctx.setX_v (x : Ctx) (r : Reg) (v : DWord) : (x.setX r v).v = x.v := by unfold Ctx.setX; split <;> rfl
@[simp] theorem Ctx.setX_p (x : Ctx) (r : Reg) (v : DWord) : (x.setX r v).p = x.p := by unfold Ctx.setX; split <;> rfl
@[simp] theorem Ctx.setX_b (x : Ctx) (r : Reg) (v : DWord) : (x.setX r v).b = x.b := by unfold Ctx.setX; split <;> rfl
@[simp] theorem Ctx.setX_fflags (x : Ctx) (r : Reg) (v : DWord) : (x.setX r v).fflags = x.fflags := by unfold Ctx.setX; split <;> rfl
@[simp] theorem Ctx.setX_fmode (x : Ctx) (r : Reg) (v : DWord) : (x.setX r v).fmode = x.fmode := by unfold Ctx.setX; split <;> rfl
@[simp] theorem Ctx.setX_beatLeft (x : Ctx) (r : Reg) (v : DWord) : (x.setX r v).beatLeft = x.beatLeft := by unfold Ctx.setX; split <;> rfl
@[simp] theorem Ctx.setX_tnow (x : Ctx) (r : Reg) (v : DWord) : (x.setX r v).tnow = x.tnow := by unfold Ctx.setX; split <;> rfl
@[simp] theorem Ctx.setX_slot (x : Ctx) (r : Reg) (v : DWord) : (x.setX r v).slot = x.slot := by unfold Ctx.setX; split <;> rfl
@[simp] theorem Ctx.setX_origin (x : Ctx) (r : Reg) (v : DWord) : (x.setX r v).origin = x.origin := by unfold Ctx.setX; split <;> rfl
@[simp] theorem Ctx.setX_joinN (x : Ctx) (r : Reg) (v : DWord) : (x.setX r v).joinN = x.joinN := by unfold Ctx.setX; split <;> rfl
@[simp] theorem Ctx.setX_stop (x : Ctx) (r : Reg) (v : DWord) : (x.setX r v).stop = x.stop := by unfold Ctx.setX; split <;> rfl
@[simp] theorem Ctx.setX_reqs (x : Ctx) (r : Reg) (v : DWord) : (x.setX r v).reqs = x.reqs := by unfold Ctx.setX; split <;> rfl
@[simp] theorem Ctx.setX_epoch (x : Ctx) (r : Reg) (v : DWord) : (x.setX r v).epoch = x.epoch := by unfold Ctx.setX; split <;> rfl
@[simp] theorem Ctx.setX_fqBase (x : Ctx) (r : Reg) (v : DWord) : (x.setX r v).fqBase = x.fqBase := by unfold Ctx.setX; split <;> rfl
@[simp] theorem Ctx.setX_fq (x : Ctx) (r : Reg) (v : DWord) : (x.setX r v).fq = x.fq := by unfold Ctx.setX; split <;> rfl
@[simp] theorem Ctx.setX_fqSure (x : Ctx) (r : Reg) (v : DWord) : (x.setX r v).fqSure = x.fqSure := by unfold Ctx.setX; split <;> rfl
@[simp] theorem Ctx.setX_run (x : Ctx) (r : Reg) (v : DWord) : (x.setX r v).run = x.run := by unfold Ctx.setX; split <;> rfl
@[simp] theorem Ctx.setX_setup (x : Ctx) (r : Reg) (v : DWord) : (x.setX r v).setup = x.setup := by unfold Ctx.setX; split <;> rfl
@[simp] theorem Ctx.setX_retired (x : Ctx) (r : Reg) (v : DWord) : (x.setX r v).retired = x.retired := by unfold Ctx.setX; split <;> rfl
@[simp] theorem Ctx.setX_seen (x : Ctx) (r : Reg) (v : DWord) : (x.setX r v).seen = x.seen := by unfold Ctx.setX; split <;> rfl
@[simp] theorem Ctx.setX_obsT (x : Ctx) (r : Reg) (v : DWord) : (x.setX r v).obsT = x.obsT := by unfold Ctx.setX; split <;> rfl
@[simp] theorem Ctx.setX_obs (x : Ctx) (r : Reg) (v : DWord) : (x.setX r v).obs = x.obs := by unfold Ctx.setX; split <;> rfl
@[simp] theorem Ctx.setX_relS (x : Ctx) (r : Reg) (v : DWord) : (x.setX r v).relS = x.relS := by unfold Ctx.setX; split <;> rfl
@[simp] theorem Ctx.setX_behind (x : Ctx) (r : Reg) (v : DWord) : (x.setX r v).behind = x.behind := by unfold Ctx.setX; split <;> rfl
@[simp] theorem Ctx.setX_latch (x : Ctx) (r : Reg) (v : DWord) : (x.setX r v).latch = x.latch := by unfold Ctx.setX; split <;> rfl

/-! ## Counting a performance event -/

@[simp] theorem Core.perf_ctxs (k : Core) (code n : Nat) : (k.perf code n).ctxs = k.ctxs := rfl
@[simp] theorem Core.perf_rr (k : Core) (code n : Nat) : (k.perf code n).rr = k.rr := rfl
@[simp] theorem Core.perf_spad (k : Core) (code n : Nat) : (k.perf code n).spad = k.spad := rfl
@[simp] theorem Core.perf_full (k : Core) (code n : Nat) : (k.perf code n).full = k.full := rfl
@[simp] theorem Core.perf_feSeen (k : Core) (code n : Nat) : (k.perf code n).feSeen = k.feSeen := rfl
@[simp] theorem Core.perf_endSeen (k : Core) (code n : Nat) : (k.perf code n).endSeen = k.endSeen := rfl
@[simp] theorem Core.perf_spadRel (k : Core) (code n : Nat) : (k.perf code n).spadRel = k.spadRel := rfl
@[simp] theorem Core.perf_spadLost (k : Core) (code n : Nat) : (k.perf code n).spadLost = k.spadLost := rfl
@[simp] theorem Core.perf_feWait (k : Core) (code n : Nat) : (k.perf code n).feWait = k.feWait := rfl
@[simp] theorem Core.perf_last (k : Core) (code n : Nat) : (k.perf code n).last = k.last := rfl
@[simp] theorem Core.perf_tagunit (k : Core) (code n : Nat) : (k.perf code n).tagunit = k.tagunit := rfl
@[simp] theorem Core.perf_dbDie (k : Core) (code n : Nat) : (k.perf code n).dbDie = k.dbDie := rfl
@[simp] theorem Core.perf_dbPkg (k : Core) (code n : Nat) : (k.perf code n).dbPkg = k.dbPkg := rfl
@[simp] theorem Core.perf_dbChas (k : Core) (code n : Nat) : (k.perf code n).dbChas = k.dbChas := rfl
@[simp] theorem Core.perf_dbFar (k : Core) (code n : Nat) : (k.perf code n).dbFar = k.dbFar := rfl
@[simp] theorem Core.perf_eboundCh (k : Core) (code n : Nat) : (k.perf code n).eboundCh = k.eboundCh := rfl
@[simp] theorem Core.perf_eboundFar (k : Core) (code n : Nat) : (k.perf code n).eboundFar = k.eboundFar := rfl
@[simp] theorem Core.perf_inclass (k : Core) (code n : Nat) : (k.perf code n).inclass = k.inclass := rfl
@[simp] theorem Core.perf_iflags (k : Core) (code n : Nat) : (k.perf code n).iflags = k.iflags := rfl
@[simp] theorem Core.perf_staleCnt (k : Core) (code n : Nat) : (k.perf code n).staleCnt = k.staleCnt := rfl
@[simp] theorem Core.perf_spillN (k : Core) (code n : Nat) : (k.perf code n).spillN = k.spillN := rfl
@[simp] theorem Core.perf_spillPut (k : Core) (code n : Nat) : (k.perf code n).spillPut = k.spillPut := rfl
@[simp] theorem Core.perf_spillBuf (k : Core) (code n : Nat) : (k.perf code n).spillBuf = k.spillBuf := rfl
@[simp] theorem Core.perf_bexCnt (k : Core) (code n : Nat) : (k.perf code n).bexCnt = k.bexCnt := rfl
@[simp] theorem Core.perf_blkFirst (k : Core) (code n : Nat) : (k.perf code n).blkFirst = k.blkFirst := rfl
@[simp] theorem Core.perf_blkN (k : Core) (code n : Nat) : (k.perf code n).blkN = k.blkN := rfl
@[simp] theorem Core.perf_blkUsed (k : Core) (code n : Nat) : (k.perf code n).blkUsed = k.blkUsed := rfl
@[simp] theorem Core.perf_beatIv (k : Core) (code n : Nat) : (k.perf code n).beatIv = k.beatIv := rfl
@[simp] theorem Core.perf_late (k : Core) (code n : Nat) : (k.perf code n).late = k.late := rfl
@[simp] theorem Core.perf_trap (k : Core) (code n : Nat) : (k.perf code n).trap = k.trap := rfl
@[simp] theorem Core.perf_tvec (k : Core) (code n : Nat) : (k.perf code n).tvec = k.tvec := rfl
@[simp] theorem Core.perf_tcfgBudget (k : Core) (code n : Nat) : (k.perf code n).tcfgBudget = k.tcfgBudget := rfl
@[simp] theorem Core.perf_tcfgInf11 (k : Core) (code n : Nat) : (k.perf code n).tcfgInf11 = k.tcfgInf11 := rfl
@[simp] theorem Core.perf_tcfgInf14 (k : Core) (code n : Nat) : (k.perf code n).tcfgInf14 = k.tcfgInf14 := rfl
@[simp] theorem Core.perf_tstk (k : Core) (code n : Nat) : (k.perf code n).tstk = k.tstk := rfl
@[simp] theorem Core.perf_recs (k : Core) (code n : Nat) : (k.perf code n).recs = k.recs := rfl
@[simp] theorem Core.perf_det (k : Core) (code n : Nat) : (k.perf code n).det = k.det := rfl
@[simp] theorem Core.perf_detRounds (k : Core) (code n : Nat) : (k.perf code n).detRounds = k.detRounds := rfl
@[simp] theorem Core.perf_quantum (k : Core) (code n : Nat) : (k.perf code n).quantum = k.quantum := rfl
@[simp] theorem Core.perf_glog (k : Core) (code n : Nat) : (k.perf code n).glog = k.glog := rfl
@[simp] theorem Core.perf_slots (k : Core) (code n : Nat) : (k.perf code n).slots = k.slots := rfl
@[simp] theorem Core.perf_inbox (k : Core) (code n : Nat) : (k.perf code n).inbox = k.inbox := rfl
@[simp] theorem Core.perf_held (k : Core) (code n : Nat) : (k.perf code n).held = k.held := rfl
@[simp] theorem Core.perf_sendQ (k : Core) (code n : Nat) : (k.perf code n).sendQ = k.sendQ := rfl
@[simp] theorem Core.perf_seq (k : Core) (code n : Nat) : (k.perf code n).seq = k.seq := rfl
@[simp] theorem Core.perf_floor (k : Core) (code n : Nat) : (k.perf code n).floor = k.floor := rfl
@[simp] theorem Core.perf_heap (k : Core) (code n : Nat) : (k.perf code n).heap = k.heap := rfl
@[simp] theorem Core.perf_spilled (k : Core) (code n : Nat) : (k.perf code n).spilled = k.spilled := rfl
@[simp] theorem Core.perf_replayKeys (k : Core) (code n : Nat) : (k.perf code n).replayKeys = k.replayKeys := rfl
@[simp] theorem Core.perf_ring (k : Core) (code n : Nat) : (k.perf code n).ring = k.ring := rfl
@[simp] theorem Core.perf_logging (k : Core) (code n : Nat) : (k.perf code n).logging = k.logging := rfl
@[simp] theorem Core.perf_ringTab (k : Core) (code n : Nat) : (k.perf code n).ringTab = k.ringTab := rfl
@[simp] theorem Core.perf_lx28 (k : Core) (code n : Nat) : (k.perf code n).lx28 = k.lx28 := rfl
@[simp] theorem Core.perf_lx29 (k : Core) (code n : Nat) : (k.perf code n).lx29 = k.lx29 := rfl
@[simp] theorem Core.perf_lstk (k : Core) (code n : Nat) : (k.perf code n).lstk = k.lstk := rfl
@[simp] theorem Core.perf_fifo (k : Core) (code n : Nat) : (k.perf code n).fifo = k.fifo := rfl
@[simp] theorem Core.perf_chans (k : Core) (code n : Nat) : (k.perf code n).chans = k.chans := rfl
@[simp] theorem Core.perf_layouts (k : Core) (code n : Nat) : (k.perf code n).layouts = k.layouts := rfl
@[simp] theorem Core.perf_streams (k : Core) (code n : Nat) : (k.perf code n).streams = k.streams := rfl
@[simp] theorem Core.perf_accs (k : Core) (code n : Nat) : (k.perf code n).accs = k.accs := rfl
@[simp] theorem Core.perf_accSeen (k : Core) (code n : Nat) : (k.perf code n).accSeen = k.accSeen := rfl
@[simp] theorem Core.perf_mq (k : Core) (code n : Nat) : (k.perf code n).mq = k.mq := rfl
@[simp] theorem Core.perf_mHist (k : Core) (code n : Nat) : (k.perf code n).mHist = k.mHist := rfl
@[simp] theorem Core.perf_mRun (k : Core) (code n : Nat) : (k.perf code n).mRun = k.mRun := rfl
@[simp] theorem Core.perf_accFault (k : Core) (code n : Nat) : (k.perf code n).accFault = k.accFault := rfl
@[simp] theorem Core.perf_mCause (k : Core) (code n : Nat) : (k.perf code n).mCause = k.mCause := rfl
@[simp] theorem Core.perf_mFidx (k : Core) (code n : Nat) : (k.perf code n).mFidx = k.mFidx := rfl
@[simp] theorem Core.perf_engW (k : Core) (code n : Nat) : (k.perf code n).engW = k.engW := rfl
@[simp] theorem Core.perf_extx (k : Core) (code n : Nat) : (k.perf code n).extx = k.extx := rfl
@[simp] theorem Core.perf_heldInj (k : Core) (code n : Nat) : (k.perf code n).heldInj = k.heldInj := rfl
@[simp] theorem Core.perf_lastGroup (k : Core) (code n : Nat) : (k.perf code n).lastGroup = k.lastGroup := rfl
@[simp] theorem Core.perf_selAt (k : Core) (code n : Nat) : (k.perf code n).selAt = k.selAt := rfl
@[simp] theorem Core.perf_xbar (k : Core) (code n : Nat) : (k.perf code n).xbar = k.xbar := rfl
@[simp] theorem Core.perf_pcfg (k : Core) (code n : Nat) : (k.perf code n).pcfg = k.pcfg := rfl
@[simp] theorem Core.perf_pcfgSoon (k : Core) (code n : Nat) : (k.perf code n).pcfgSoon = k.pcfgSoon := rfl
@[simp] theorem Core.perf_pcntAt (k : Core) (code n : Nat) : (k.perf code n).pcntAt = k.pcntAt := rfl
@[simp] theorem Core.perf_caps (k : Core) (code n : Nat) : (k.perf code n).caps = k.caps := rfl
@[simp] theorem Core.perf_capSeen (k : Core) (code n : Nat) : (k.perf code n).capSeen = k.capSeen := rfl
@[simp] theorem Core.perf_tlb (k : Core) (code n : Nat) : (k.perf code n).tlb = k.tlb := rfl
@[simp] theorem Core.perf_code (k : Core) (code n : Nat) : (k.perf code n).code = k.code := rfl
@[simp] theorem Core.perf_fenced (k : Core) (code n : Nat) : (k.perf code n).fenced = k.fenced := rfl
@[simp] theorem Core.perf_halted (k : Core) (code n : Nat) : (k.perf code n).halted = k.halted := rfl

/-! ## Reading what was written -/

@[simp] theorem State.core_setCore_self (s : State) (c : CoreId) (k : Core) : (s.setCore c k).core c = k :=
  KMap.get_put_self _ _ _ _

theorem State.core_setCore_ne (s : State) (c d : CoreId) (k : Core) (h : d ≠ c) : (s.setCore c k).core d = s.core d :=
  KMap.get_put_ne _ _ _ _ _ fun e => h (Fin.ext e)

@[simp] theorem State.core_modCore_self (s : State) (c : CoreId) (g : Core → Core) :
    (s.modCore c g).core c = g (s.core c) := State.core_setCore_self _ _ _

theorem State.core_modCore_ne (s : State) (c d : CoreId) (g : Core → Core) (h : d ≠ c) :
    (s.modCore c g).core d = s.core d := State.core_setCore_ne _ _ _ _ h

@[simp] theorem Core.ctx_setCtx_self (k : Core) (h : CtxId) (x : Ctx) : (k.setCtx h x).ctx h = x :=
  vget_vput_self _ _ _

theorem Core.ctx_setCtx_ne (k : Core) (h i : CtxId) (x : Ctx) (hi : i ≠ h) : (k.setCtx h x).ctx i = k.ctx i :=
  vget_vput_ne _ _ _ _ hi

@[simp] theorem Core.ctx_modCtx_self (k : Core) (h : CtxId) (g : Ctx → Ctx) : (k.modCtx h g).ctx h = g (k.ctx h) :=
  Core.ctx_setCtx_self _ _ _

theorem Core.ctx_modCtx_ne (k : Core) (h i : CtxId) (g : Ctx → Ctx) (hi : i ≠ h) : (k.modCtx h g).ctx i = k.ctx i :=
  Core.ctx_setCtx_ne _ _ _ _ hi

@[simp] theorem State.me_modMe (s : State) (g : Core → Core) : (s.modMe g).me = g s.me :=
  State.core_modCore_self _ _ _

@[simp] theorem State.me_modCx (s : State) (g : Ctx → Ctx) : (s.modCx g).me = s.me.modCtx s.curCtx g :=
  State.core_modCore_self _ _ _

@[simp] theorem State.cx_modCx (s : State) (g : Ctx → Ctx) : (s.modCx g).cx = g s.cx := by
  unfold State.cx
  rw [State.me_modCx, State.modCx_curCtx, Core.ctx_modCtx_self]

theorem State.cx_modMe (s : State) (g : Core → Core) : (s.modMe g).cx = (g s.me).ctx s.curCtx := by
  unfold State.cx
  rw [State.me_modMe, State.modMe_curCtx]

@[simp] theorem State.core_cur (s : State) : s.core s.cur = s.me := rfl

/-- x0 reads 0, whatever was written to it (R199). -/
@[simp] theorem Ctx.xr_zero (x : Ctx) : x.xr 0 = 0 := rfl

@[simp] theorem Ctx.setX_zero (x : Ctx) (v : DWord) : x.setX 0 v = x := rfl

theorem Ctx.xr_setX_self (x : Ctx) (r : Reg) (v : DWord) (h : r ≠ 0) : (x.setX r v).xr r = v := by
  unfold Ctx.xr Ctx.setX
  rw [if_neg h, if_neg h]
  exact vget_vput_self _ _ _

theorem Ctx.xr_setX_ne (x : Ctx) (r q : Reg) (v : DWord) (h : q ≠ r) : (x.setX r v).xr q = x.xr q := by
  unfold Ctx.xr Ctx.setX
  split
  · rfl
  · split
    · rfl
    · exact vget_vput_ne _ _ _ _ h

end Sys2Proof.Machine
end

