-- ==== Sys2Proof/Laws/Ops.lean ====
section
/-! SUPPORT. What each shared operation over registers and instructions can do, said once. -/

namespace Sys2Proof.Machine

/-! ## Sequencing -/

@[simp] theorem ok_bind {α β : Type} (a : α) (f : α → Except Stop β) : (Except.ok a >>= f) = f a := rfl
@[simp] theorem error_bind {α β : Type} (e : Stop) (f : α → Except Stop β) :
    ((Except.error e : Except Stop α) >>= f) = .error e := rfl

/-- What two effects in sequence give is given by the second at what the first gives. -/
theorem bind_ok {α β : Type} {x : Except Stop α} {f : α → Except Stop β} {b : β} (h : (x >>= f) = .ok b) :
    ∃ a, x = .ok a ∧ f a = .ok b := by
  cases x with
  | error e => exact absurd h (by simp)
  | ok a => exact ⟨a, rfl, h⟩

/-- A stop of two effects in sequence is a stop of the first, or of the second at what the first gives. -/
theorem bind_error {α β : Type} {x : Except Stop α} {f : α → Except Stop β} {e : Stop} (h : (x >>= f) = .error e) :
    x = .error e ∨ ∃ a, x = .ok a ∧ f a = .error e := by
  cases x with
  | error e' => simp only [error_bind, Except.error.injEq] at h; subst h; exact .inl rfl
  | ok a => exact .inr ⟨a, rfl, h⟩

@[simp] theorem waitUntil_true : waitUntil true = .ok () := rfl
@[simp] theorem waitUntil_false : waitUntil false = .error .wait := rfl
@[simp] theorem check_true (c : Byte) (a i : DWord) : check true c a i = .ok () := rfl
@[simp] theorem check_false (c : Byte) (a i : DWord) : check false c a i = .error (.trap ⟨c, a, i⟩) := rfl

/-! ## Registers -/

theorem State.regReady_free (s : State) (r : Reg) (h : s.regFree r = true) : s.regReady r = .ok () := by
  unfold State.regFree at h
  unfold State.regReady
  rw [Option.isNone_iff_eq_none.mp h]

theorem State.rdX_free (s : State) (r : Reg) (h : s.regFree r = true) : s.rdX r = .ok (s.cx.xr r) := by
  unfold State.rdX
  rw [s.regReady_free r h]
  rfl

theorem State.wrX_free (s : State) (r : Reg) (v : DWord) (h : s.regFree r = true) : s.wrX r v = .ok (s.putX r v) := by
  unfold State.wrX
  rw [s.regReady_free r h]
  rfl

/-- A register on which a request without fault is outstanding is waited for; the stop of a faulted one is its fault. -/
theorem State.regReady_cases (s : State) (r : Reg) :
    s.regReady r = .ok () ∨ s.regReady r = .error .wait ∨ ∃ q t, q ∈ s.cx.reqs ∧ q.fault = some t ∧
      s.regReady r = .error (.deferred q t) := by
  unfold State.regReady Ctx.pendingOn
  split
  · exact .inl rfl
  · next q hq =>
    split
    · next t ht => exact .inr (.inr ⟨q, t, List.mem_of_find?_eq_some hq, ht, rfl⟩)
    · exact .inr (.inl rfl)

/-- Without deferred faults a register is ready or waited for. -/
theorem State.regReady_noDeferred (s : State) (r : Reg) (h : s.noDeferred) :
    s.regReady r = .ok () ∨ s.regReady r = .error .wait := by
  rcases s.regReady_cases r with h1 | h1 | ⟨q, t, hq, ht, -⟩
  · exact .inl h1
  · exact .inr h1
  · rw [h q hq] at ht; cases ht

@[simp] theorem State.putX_zero (s : State) (v : DWord) : s.putX 0 v = s.modCx fun x => x := rfl

@[simp] theorem State.cx_putX (s : State) (r : Reg) (v : DWord) : (s.putX r v).cx = s.cx.setX r v := State.cx_modCx _ _

theorem op1_free (f : DWord → DWord) (d a : Reg) (s : State) (h : s.xReady [d, a]) :
    op1 f d a s = .ok (s.putX d (f (s.cx.xr a))) := by
  unfold op1
  rw [s.rdX_free a (h a (by simp)), ok_bind, s.wrX_free d _ (h d (by simp))]

theorem op2_free (f : DWord → DWord → DWord) (d a b : Reg) (s : State) (h : s.xReady [d, a, b]) :
    op2 f d a b s = .ok (s.putX d (f (s.cx.xr a) (s.cx.xr b))) := by
  unfold op2
  rw [s.rdX_free a (h a (by simp)), ok_bind, s.rdX_free b (h b (by simp)), ok_bind, s.wrX_free d _ (h d (by simp))]

/-! ## Instructions -/

theorem instr_ok {g : Guard} {body : State → Act} {s t : State} (hg : s.guardPasses g = true) (h : body s = .ok t) :
    instr g body s = .next (t.retire 4) := by
  unfold instr
  rw [if_pos hg, h]
  rfl

theorem instr_stop {g : Guard} {body : State → Act} {s : State} {e : Stop} (hg : s.guardPasses g = true)
    (h : body s = .error e) : instr g body s = .next (s.stopWith e) := by
  unfold instr
  rw [if_pos hg, h]
  rfl

theorem instr_off {g : Guard} {body : State → Act} {s : State} (hg : s.guardPasses g = false) :
    instr g body s = .next (s.retire 4) := by
  unfold instr
  rw [if_neg (by simp [hg])]

theorem instrC_ok {body : State → Act} {s t : State} (h : body s = .ok t) : instrC body s = .next (t.retire 2) := by
  unfold instrC
  rw [h]
  rfl

theorem instrC_stop {body : State → Act} {s : State} {e : Stop} (h : body s = .error e) :
    instrC body s = .next (s.stopWith e) := by
  unfold instrC
  rw [h]
  rfl

theorem instrJump_ok {body : State → Act} {s t : State} (h : body s = .ok t) :
    instrJump body s = .next t.retireJump := by
  unfold instrJump
  rw [h]

theorem instrJump_stop {body : State → Act} {s : State} {e : Stop} (h : body s = .error e) :
    instrJump body s = .next (s.stopWith e) := by
  unfold instrJump
  rw [h]

/-- Everything a guarded instruction can do: nothing but retire, its effect, or a stop. -/
theorem instr_cases {g : Guard} {body : State → Act} {s t : State} (h : instr g body s = .next t) :
    (s.guardPasses g = false ∧ t = s.retire 4) ∨
    (s.guardPasses g = true ∧ ∃ u, body s = .ok u ∧ t = u.retire 4) ∨
    (s.guardPasses g = true ∧ ∃ e, body s = .error e ∧ t = s.stopWith e) := by
  cases hg : s.guardPasses g with
  | false => rw [instr_off hg] at h; cases h; exact .inl ⟨rfl, rfl⟩
  | true =>
    cases hb : body s with
    | ok u => rw [instr_ok hg hb] at h; cases h; exact .inr (.inl ⟨rfl, u, rfl, rfl⟩)
    | error e => rw [instr_stop hg hb] at h; cases h; exact .inr (.inr ⟨rfl, e, rfl, rfl⟩)

/-- The same of an unguarded 16-bit instruction. -/
theorem instrC_cases {body : State → Act} {s t : State} (h : instrC body s = .next t) :
    (∃ u, body s = .ok u ∧ t = u.retire 2) ∨ ∃ e, body s = .error e ∧ t = s.stopWith e := by
  cases hb : body s with
  | ok u => rw [instrC_ok hb] at h; cases h; exact .inl ⟨u, rfl, rfl⟩
  | error e => rw [instrC_stop hb] at h; cases h; exact .inr ⟨e, rfl, rfl⟩

/-! ## What retiring, waiting and writing a register leave -/

theorem State.retire_eq (s : State) (len : Nat) : s.retire len = { s with cores := (s.retire len).cores } := rfl
theorem State.block_eq (s : State) : s.block = { s with cores := s.block.cores } := rfl

@[simp] theorem State.retire_mem (s : State) (len : Nat) : (s.retire len).mem = s.mem := rfl
@[simp] theorem State.retire_cur (s : State) (len : Nat) : (s.retire len).cur = s.cur := rfl
@[simp] theorem State.retire_curCtx (s : State) (len : Nat) : (s.retire len).curCtx = s.curCtx := rfl
@[simp] theorem State.block_mem (s : State) : s.block.mem = s.mem := rfl

/-- A change of the issuing context leaves the rest of the module. -/
theorem State.modCx_sameButCtx (s : State) (g : Ctx → Ctx) : s.sameButCtx (s.modCx g) := by
  refine ⟨rfl, fun c hc => State.core_modCore_ne _ _ _ _ hc, ?_, fun h hh => ?_⟩
  · rw [State.me_modCx]; rfl
  · rw [State.me_modCx]; exact Core.ctx_modCtx_ne _ _ _ _ hh

theorem State.modCx_sameBytes (s : State) (g : Ctx → Ctx) : s.sameBytes (s.modCx g) := by
  refine ⟨fun _ => rfl, fun c a => ?_⟩
  by_cases hc : c = s.cur
  · subst hc; rw [State.modCx, State.modCtx, State.core_modCore_self]; rfl
  · rw [State.modCx, State.modCtx, State.core_modCore_ne _ _ _ _ hc]

@[simp] theorem Core.ctx_perf (k : Core) (code n : Nat) (h : CtxId) : (k.perf code n).ctx h = k.ctx h := rfl

/-- The next state of a retired instruction: the issuing context after it, and its core's counters. -/
theorem State.cx_retire (s : State) (len : Nat) :
    (s.retire len).cx = { s.cx with
      pc := s.cx.pc + dw len
      retired := s.cx.retired + 1
      latch := none
      stop := s.cx.stop.goOn } := by
  unfold State.retire
  rw [State.cx_modMe, State.me_modCx, Core.ctx_perf, State.modCx_curCtx, Core.ctx_modCtx_self]
  rfl

theorem State.me_retire (s : State) (len : Nat) :
    (s.retire len).me = { s.me with ctxs := (s.retire len).me.ctxs, pcnt := (s.retire len).me.pcnt } := by
  unfold State.retire
  rw [State.me_modMe, State.me_modCx]
  rfl

theorem State.retire_sameButCtx (s : State) (len : Nat) : s.sameButCtx (s.retire len) := by
  refine ⟨rfl, fun c hc => ?_, s.me_retire len, fun h hh => ?_⟩
  · unfold State.retire State.modMe
    rw [State.modCx_cur, State.core_modCore_ne _ _ _ _ hc]
    exact State.core_modCore_ne _ _ _ _ hc
  · unfold State.retire
    rw [State.me_modMe, State.me_modCx, Core.ctx_perf]
    exact Core.ctx_modCtx_ne _ _ _ _ hh

end Sys2Proof.Machine
end

