-- ==== Sys2Proof/Laws/Paging.lean ====
section
/-! SUPPORT. What translation and the global address checks can do, said once. -/

namespace Sys2Proof.Machine

/-- Two states differ in translation caches and in the counter of free values only. -/
def State.sameButTlbs (s t : State) : Prop :=
  ∃ l cs n, t = { s with ltlb := l, cores := cs, freeCtr := n } ∧
    ∀ c, t.core c = { s.core c with tlb := (t.core c).tlb }

theorem State.sameButTlbs_refl (s : State) : s.sameButTlbs s := ⟨s.ltlb, s.cores, s.freeCtr, rfl, fun _ => rfl⟩

theorem State.sameButTlbs_draw (s : State) (k : Nat) : s.sameButTlbs (s.draw k).2 :=
  ⟨s.ltlb, s.cores, _, rfl, fun _ => rfl⟩

theorem State.sameButTlbs_trans {s t u : State} (h : s.sameButTlbs t) (g : t.sameButTlbs u) : s.sameButTlbs u := by
  obtain ⟨l, cs, n, rfl, hc⟩ := h
  obtain ⟨l', cs', n', rfl, hd⟩ := g
  refine ⟨l', cs', n', rfl, fun c => ?_⟩
  rw [hd c, hc c]

theorem State.sameButTlbs_fill (s : State) (c : CoreId) (e : TlbEnt) : s.sameButTlbs (s.tlbFill c e) := by
  refine ⟨_, _, s.freeCtr, rfl, fun d => ?_⟩
  unfold State.tlbFill
  by_cases h : d = c
  · subst h; rw [State.core_modCore_self]; rfl
  · rw [State.core_modCore_ne _ _ _ _ h]; rfl

/-- A translation changes translation caches and the counter of free values only (R81, R83). -/
theorem State.xlate_sameButTlbs (s : State) (c : CoreId) (va : Nat) : s.sameButTlbs (s.xlate c va).2 := by
  unfold State.xlate
  split
  · exact s.sameButTlbs_fill c _
  · exact s.sameButTlbs_refl
  · split
    · exact s.sameButTlbs_refl
    · split
      · exact s.sameButTlbs_draw 1
      · exact State.sameButTlbs_trans (s.sameButTlbs_draw 1) (State.sameButTlbs_fill _ c _)
  · split
    · exact s.sameButTlbs_draw 1
    · exact s.sameButTlbs_draw 1

/-- Translation and permission change no more than that, whether they pass or fail (R252). -/
theorem State.pageCheck_sameButTlbs (s : State) (c : CoreId) (va : DWord) (k : Access) :
    s.sameButTlbs (s.pageCheck c va k).2 := by
  have h := s.xlate_sameButTlbs c va.toNat
  unfold State.pageCheck
  split
  · rename_i heq; rw [heq] at h; exact h
  · rename_i heq
    rw [heq] at h
    dsimp only
    split
    · exact h
    · split <;> exact h

/-- The global checks change no more than that (R252). -/
theorem State.globalCheck_sameButTlbs (s : State) (c : CoreId) (va : DWord) (n : Nat) (k : Access) :
    s.sameButTlbs (s.globalCheck c va n k).2 := by
  unfold State.globalCheck
  split
  · exact s.sameButTlbs_refl
  · split
    · exact s.sameButTlbs_refl
    · exact s.pageCheck_sameButTlbs c va k

/-- A canonical, aligned address that no cache holds, that a walk maps to a populated address and that the page permits
passes the checks (R252). -/
theorem State.reaches_walk (s : State) (va : DWord) (n : Nat) (k : Access) (e : TlbEnt) (hc : fld va 63 56 = 0)
    (ha : va.toNat % n = 0) (ht : s.tlbFind s.cur va.toNat = none) (hw : s.walk s.cur va.toNat = .ok e)
    (hp : populated (s.pageAddr e va.toNat) = true) (hk : s.permission e (s.pageAddr e va.toNat) k = none) :
    s.reaches va n k ⟨va, s.pageAddr e va.toNat, e⟩ (s.tlbFill s.cur e) := by
  unfold State.reaches State.globalCheck State.pageCheck State.xlate
  simp only [hc, ha, ht, hw, hp, hk, ne_eq, not_true_eq_false, if_false, Bool.not_true, Bool.false_eq_true]

end Sys2Proof.Machine
end

