-- ==== Sys2Proof/Laws/PerInstr.lean ====
section
/-! SUPPORT. For every constructor of `Instr`: the decoder reads back the fields the encoder writes. -/

namespace Sys2Proof.Laws

/-- The fields of a well-formed instruction decode to that instruction, and a 16-bit form has no [15:14] of 3 (R201);
what has no fields is a happening. -/
def Words.Statement (i : Instr) : Prop :=
  i.wf = true → match i.fields with
    | some (.w32 f) => decodeW32 f = .ok i
    | some (.w16 f) => f.fmt ≠ 3 ∧ decodeW16 f = .ok i
    | none => i.isHappening = true

/-! ## Sequencing, registers, codes -/

theorem bindEq {ε α β : Type} {x : Except ε α} {a : α} {f : α → Except ε β} {r : Except ε β} (h : x = .ok a)
    (h2 : f a = r) : (x >>= f) = r := by subst h; exact h2

theorem guardOf_onSet : ∀ p : PReg, guardOf (widen p) = .onSet p := by decide
theorem guardOf_onClear : ∀ p : PReg, guardOf (raise p) = .onClear p := by decide

theorem guardR_enc (g : Guard) (maj : Fin 64) (d a b : Fin 32) (fn : Fin 8) :
    (encR g maj d a b fn).guardR = .ok g := by
  cases g with
  | always => rfl
  | onSet p => exact congrArg Except.ok (guardOf_onSet p)
  | onClear p => exact congrArg Except.ok (guardOf_onClear p)

theorem narrow4 : ∀ p : Fin 4, narrow 4 (widen p) = .ok p := by decide
theorem narrow5 : ∀ p : Fin 5, narrow 5 (widen p) = .ok p := by decide
theorem narrow8 : ∀ p : Fin 8, narrow 8 (widen p) = .ok p := by decide
theorem narrow16 : ∀ p : Fin 16, narrow 16 (widen p) = .ok p := by decide
theorem mode_enc (m : FcvtMode) : decMode (encMode m) = .ok m := by cases m <;> rfl
theorem scope_enc (m : Scope) : decScope (encScope m) = .ok m := by cases m <;> rfl
theorem fmt_enc (m : MmaFmt) : decFmt (encFmt m) = .ok m := by cases m <;> rfl
theorem icond (c : ICond) : decICond (encICond c) = c := by cases c <;> rfl
theorem fcond (c : FCond) : decFCond (encFCond c) = c := by cases c <;> rfl
theorem special_enc (r : SpecialReg) : decSpecial r.num = .ok r := by cases r <;> rfl
theorem special_lt (r : SpecialReg) : r.num < 262144 := by cases r <;> decide
theorem needLe {c : Bool} (h : c = true) : need c = .ok () := by subst h; rfl

/-! ## Immediates -/

theorem wrap_lt (n : Nat) (v : Int) : wrap n v < 2 ^ n := by
  have hp : (0 : Int) < 2 ^ n := by positivity
  have h1 := Int.emod_nonneg v (ne_of_gt hp)
  have h2 := Int.emod_lt_of_pos v hp
  have h3 : ((2 ^ n : Nat) : Int) = 2 ^ n := by norm_cast
  unfold wrap
  omega

theorem sx_wrap (k : Nat) (v : Int) (h : okSigned (k + 1) v = true) : sx (k + 1) (wrap (k + 1) v) = v := by
  simp only [okSigned, Bool.and_eq_true, decide_eq_true_eq, Nat.add_sub_cancel] at h
  have hp : (0 : Int) < 2 ^ k := by positivity
  have hs : (2 : Int) ^ (k + 1) = 2 * 2 ^ k := by ring
  have h3 : ((2 ^ k : Nat) : Int) = 2 ^ k := by norm_cast
  unfold sx wrap
  rw [hs, Nat.add_sub_cancel]
  generalize (2 : Int) ^ k = m at *
  generalize (2 : Nat) ^ k = mm at *
  rcases Int.lt_or_le v 0 with hv | hv
  · have he : v % (2 * m) = v + 2 * m := by
      rw [← Int.add_emod_right, Int.emod_eq_of_lt (by omega) (by omega)]
    rw [he]
    split <;> omega
  · rw [Int.emod_eq_of_lt hv (by omega)]
    split <;> omega

theorem sx_of {n m : Nat} {v : Int} (hn : 0 < n) (h : okSigned n v = true) (hm : m = wrap n v) : sx n m = v := by
  obtain ⟨k, rfl⟩ : ∃ k, n = k + 1 := ⟨n - 1, by omega⟩
  subst hm
  exact sx_wrap k v h

/-- The fields of a guard and of an immediate, read together. -/
theorem okGV {G V : Type} (f : G → V → Instr) {g g' : G} {v v' : V} (hg : g = g') (hv : v = v') :
    (Except.ok (f g v) : Except DecodeError Instr) = .ok (f g' v') := by subst hg hv; rfl
theorem okPV {P V : Type} (f : P → V → Instr) {p p' : P} {v v' : V} (hp : p = p') (hv : v = v') :
    (Except.ok (f p v) : Except DecodeError Instr) = .ok (f p' v') := by subst hp hv; rfl
theorem okGPV {G P V : Type} (f : G → P → V → Instr) {g g' : G} {p p' : P} {v v' : V} (hg : g = g') (hp : p = p')
    (hv : v = v') : (Except.ok (f g p v) : Except DecodeError Instr) = .ok (f g' p' v') := by subst hg hp hv; rfl

theorem imm13A {maj : Fin 64} {d a : Fin 32} (imm : Int) (h : okSigned 13 imm = true) :
    (encI .always maj d a imm).imm13 = imm := by
  have hl := wrap_lt 13 imm
  exact sx_of (by decide) h (by simp [encI, Guard.isGuarded, lowN]; omega)
theorem imm13G {x : Fin 32} {maj : Fin 64} {d a : Fin 32} (imm : Int) (h : okSigned 8 imm = true) :
    W32.imm13 ⟨true, x, maj, d, a, lowN 32 (wrap 8 imm / 8), lowN 8 (wrap 8 imm)⟩ = imm := by
  have hl := wrap_lt 8 imm
  exact sx_of (by decide) h (by simp only [lowN]; omega)
theorem imm10A {maj : Fin 64} {d a : Fin 32} {fn : Fin 8} (imm : Int) (h : okSigned 10 imm = true) :
    (encIC .always maj d a imm fn).imm10 = imm := by
  have hl := wrap_lt 10 imm
  exact sx_of (n := 10) (by decide) h (by simp [W32.uimm10, encIC, Guard.isGuarded, lowN]; omega)
theorem imm10G {x : Fin 32} {maj : Fin 64} {d a : Fin 32} {fn : Fin 8} (imm : Int) (h : okSigned 5 imm = true) :
    W32.imm10 ⟨true, x, maj, d, a, lowN 32 (wrap 5 imm), fn⟩ = imm := by
  have hl := wrap_lt 5 imm
  exact sx_of (n := 5) (by decide) h (by simp only [W32.uimm10, lowN]; simp; omega)
theorem wrap_nat (n v : Nat) (h : v < 2 ^ n) : wrap n v = v := by
  have h2 : ((v % 2 ^ n : Nat) : Int) = (v : Int) % 2 ^ n := by push_cast; rfl
  unfold wrap
  rw [← h2, Nat.mod_eq_of_lt h]
  rfl
theorem natA {maj : Fin 64} {d a : Fin 32} {fn : Fin 8} (v : Nat) (h : decide (v < 64) = true) :
    (encIC .always maj d a v fn).uimm10 = v := by
  have h := of_decide_eq_true h
  simp only [W32.uimm10, encIC, Guard.isGuarded, lowN, wrap_nat 10 v (by omega)]
  simp
  omega
theorem natG {x : Fin 32} {maj : Fin 64} {d a : Fin 32} {fn : Fin 8} (v : Nat) (h : decide (v < 32) = true) :
    W32.uimm10 ⟨true, x, maj, d, a, lowN 32 (wrap 5 (v : Int)), fn⟩ = v := by
  have h := of_decide_eq_true h
  simp only [W32.uimm10, lowN, wrap_nat 5 v (by omega)]
  simp
  omega
theorem needLt {maj : Fin 64} {d a : Fin 32} {fn : Fin 8} (v : Nat) (h : decide (v < 64) = true) :
    need (decide ((encIC .always maj d a v fn).uimm10 < 64)) = .ok () := by rw [natA v h]; exact needLe h
theorem needLtG {x : Fin 32} {maj : Fin 64} {d a : Fin 32} {fn : Fin 8} (v : Nat) (h : decide (v < 32) = true) :
    need (decide (W32.uimm10 ⟨true, x, maj, d, a, lowN 32 (wrap 5 (v : Int)), fn⟩ < 32)) = .ok () := by
  rw [natG v h]; exact needLe h

theorem policy_of (f : W32) (pol : Policy) (h : f.b.val / 8 = encPolicy pol) : f.policy = pol := by
  unfold W32.policy; rw [h]; cases pol <;> rfl
theorem polA {maj : Fin 64} {d a : Fin 32} {fn : Fin 8} (pol : Policy) (off : Int) :
    (encMP .always maj d a pol off fn).policy = pol := by
  apply policy_of
  have := wrap_lt 8 off
  cases pol <;> simp [encMP, Guard.isGuarded, lowN, encPolicy] <;> omega
theorem polG {x : Fin 32} {maj : Fin 64} {d a : Fin 32} {fn : Fin 8} (pol : Policy) (off : Int) :
    W32.policy ⟨true, x, maj, d, a, lowN 32 (encPolicy pol * 8 + wrap 3 off), fn⟩ = pol := by
  apply policy_of
  have := wrap_lt 3 off
  cases pol <;> simp [lowN, encPolicy] <;> omega
theorem off8A {maj : Fin 64} {d a : Fin 32} {fn : Fin 8} (pol : Policy) (off : Int) (h : okSigned 8 off = true) :
    (encMP .always maj d a pol off fn).off8 = off := by
  have := wrap_lt 8 off
  exact sx_of (by decide) h (by cases pol <;> simp [encMP, Guard.isGuarded, lowN, encPolicy] <;> omega)
theorem off8G {x : Fin 32} {maj : Fin 64} {d a : Fin 32} {fn : Fin 8} (pol : Policy) (off : Int)
    (h : okSigned 3 off = true) :
    W32.off8 ⟨true, x, maj, d, a, lowN 32 (encPolicy pol * 8 + wrap 3 off), fn⟩ = off := by
  have := wrap_lt 3 off
  exact sx_of (by decide) h (by cases pol <;> simp [lowN, encPolicy] <;> omega)
theorem imm18_enc {maj : Fin 64} {d : Fin 32} (v : Nat) (h : v < 262144) : (encL maj d v).imm18 = v := by
  simp only [W32.imm18, encL, lowN]; omega
theorem imm6 (imm : Int) (h : okSigned 6 imm = true) : sx 6 (lowN 64 (wrap 6 imm)).val = imm := by
  have := wrap_lt 6 imm
  exact sx_of (by decide) h (by simp only [lowN]; omega)
theorem nat6 (v : Nat) (h : decide (v < 64) = true) : (lowN 64 v).val = v :=
  Nat.mod_eq_of_lt (of_decide_eq_true h)
theorem even : ∀ a : Reg, need (decide ((double a).val % 2 = 0)) = .ok () := by decide
theorem half : ∀ a : Reg, lowN 32 ((double a).val / 2) = a := by decide

theorem fmt0 : (0 : Fin 4) ≠ 3 := by decide
theorem fmt1 : (1 : Fin 4) ≠ 3 := by decide
theorem fmt2 : (2 : Fin 4) ≠ 3 := by decide

/-! ## Forms of their own -/

theorem words_ldi (d : Reg) (imm : Int) (h : okSigned 18 imm = true) :
    decodeW32 (encL 13 d (wrap 18 imm)) = .ok (.ldi d imm) := by
  have hl := wrap_lt 18 imm
  exact congrArg (fun v => Except.ok (Instr.ldi d v))
    (sx_of (by decide) h (imm18_enc (maj := 13) (d := d) _ (by omega)))
theorem words_prep (n : Fin 8) (imm : Int) (h : okSigned 18 imm = true) :
    decodeW32 (encL 24 (widen n) (wrap 18 imm)) = .ok (.prep n imm) := by
  have hl := wrap_lt 18 imm
  exact bindEq rfl (bindEq (narrow8 n) (congrArg (fun v => Except.ok (Instr.prep n v))
    (sx_of (by decide) h (imm18_enc (maj := 24) (d := widen n) _ (by omega)))))
theorem words_seth (d : Reg) (v : BitVec 16) (pos : Fin 4) :
    decodeW32 (encL 14 d (pos.val * 65536 + v.toNat)) = .ok (.seth d v pos) := by
  have hl := v.isLt
  have he : (encL 14 d (pos.val * 65536 + v.toNat)).imm18 = pos.val * 65536 + v.toNat := imm18_enc _ (by omega)
  exact okPV (fun v p => Instr.seth d v p)
    (by rw [he]; apply BitVec.eq_of_toNat_eq; simp [BitVec.toNat_ofNat]; omega)
    (by rw [he]; apply Fin.ext; simp [lowN]; omega)
theorem words_mfs (d : Reg) (r : SpecialReg) : decodeW32 (encL 28 d r.num) = .ok (.mfs d r) :=
  bindEq rfl (bindEq ((congrArg decSpecial (imm18_enc (maj := 28) (d := d) _ (special_lt r))).trans (special_enc r)) rfl)
theorem words_mts (r : SpecialReg) (d : Reg) : decodeW32 (encL 29 d r.num) = .ok (.mts r d) :=
  bindEq rfl (bindEq ((congrArg decSpecial (imm18_enc (maj := 29) (d := d) _ (special_lt r))).trans (special_enc r)) rfl)
theorem low8 : ∀ c : Fin 8, low 8 (widen c) = c ∧ need (decide ((widen c).val < 8)) = .ok () := by decide
theorem words_mma (c : Fin 8) (n : Fin 4) (a b : Reg) (fmt : MmaFmt) :
    decodeW32 ⟨false, widen c, 23, widen n, a, b, encFmt fmt⟩ = .ok (.mma c n a b fmt) :=
  bindEq (fmt_enc fmt) (bindEq rfl (bindEq (low8 c).2 (bindEq (narrow4 n)
    (congrArg (fun c => Except.ok (Instr.mma c n a b fmt)) (low8 c).1))))
theorem words_cmpi (g : Guard) (d : PReg) (a : Reg) (imm : Int) (cc : ICond) (h : okImm g 5 10 imm = true) :
    decodeW32 (encIC g 15 (widen d) a imm (encICond cc)) = .ok (.cmpi g d a imm cc) := by
  cases g with
  | always => exact bindEq (narrow16 d) (okPV (fun v c => Instr.cmpi .always d a v c) (imm10A imm h) (icond cc))
  | onSet p =>
    exact bindEq (narrow16 d)
      (okGPV (fun g v c => Instr.cmpi g d a v c) (guardOf_onSet p) (imm10G imm h) (icond cc))
  | onClear p =>
    exact bindEq (narrow16 d)
      (okGPV (fun g v c => Instr.cmpi g d a v c) (guardOf_onClear p) (imm10G imm h) (icond cc))
theorem low_widen : ∀ p : PReg, low 16 (widen p) = p ∧ (widen p).val < 16 := by decide
theorem low_raise : ∀ p : PReg, low 16 (raise p) = p ∧ ¬(raise p).val < 16 := by decide
theorem words_vcmp (g : Guard) (p : PReg) (a b : Reg) (cc : ICond) :
    decodeW32 (encR g 57 (widen p) a b (encICond cc)) = .ok (.vcmp g p a b cc) :=
  bindEq (guardR_enc g _ _ _ _ _) (congrArg Except.ok ((if_pos (low_widen p).2).trans
    (by rw [show (encR g 57 (widen p) a b (encICond cc)).d = widen p from rfl, (low_widen p).1,
      show (encR g 57 (widen p) a b (encICond cc)).fn = encICond cc from rfl, icond]; rfl)))
theorem words_vcmpF (g : Guard) (p : PReg) (a b : Reg) (cc : FCond) :
    decodeW32 (encR g 57 (raise p) a b (encFCond cc)) = .ok (.vcmpF g p a b cc) :=
  bindEq (guardR_enc g _ _ _ _ _) (congrArg Except.ok ((if_neg (low_raise p).2).trans
    (by rw [show (encR g 57 (raise p) a b (encFCond cc)).d = raise p from rfl, (low_raise p).1,
      show (encR g 57 (raise p) a b (encFCond cc)).fn = encFCond cc from rfl, fcond]; rfl)))
theorem bn_enc : ∀ (n : Fin 8) (s : Bool) (p : PReg), (encB 1 n s p).bn = n ∧ (encB 1 n s p).sense = s ∧
    (encB 1 n s p).pn = p ∧ (encB 1 n s p).lo.val % 8 = 0 := by decide
theorem words_go : ∀ n : Fin 8, decodeW16 (encB 0 n false 0) = .ok (.go n) := by decide
theorem words_call : ∀ n : Fin 8, decodeW16 (encB 2 n false 0) = .ok (.call n) := by decide
theorem words_goGuarded (n : Fin 8) (s : Bool) (p : PReg) : decodeW16 (encB 1 n s p) = .ok (.goGuarded n s p) :=
  have ⟨h1, h2, h3, h4⟩ := bn_enc n s p
  bindEq (needLe (decide_eq_true h4)) (okGPV (fun n s p => Instr.goGuarded n s p) h1 h2 h3)
theorem words_callGuarded (n : Fin 8) (s : Bool) (p : PReg) : decodeW16 (encB 3 n s p) = .ok (.callGuarded n s p) :=
  have ⟨h1, h2, h3, h4⟩ := bn_enc n s p
  bindEq (needLe (decide_eq_true h4)) (okGPV (fun n s p => Instr.callGuarded n s p) h1 h2 h3)
theorem words_movC : ∀ d a : Reg, (!(d == 0 && a == 0)) = true →
    decodeW16 ⟨0, 0, d, double a⟩ = .ok (.movC d a) := by
  intro d a h
  refine bindEq (even a) ?_
  have hz : ¬(d = 0 ∧ double a = 0) := by
    have : ∀ a : Reg, double a = 0 → a = 0 := by decide
    rintro ⟨rfl, h2⟩
    have := this a h2
    subst this
    exact absurd h (by decide)
  exact (if_neg hz).trans (congrArg (fun v => Except.ok (Instr.movC d v)) (half a))

end Sys2Proof.Laws

/-! ## One lemma a constructor -/

namespace Sys2Proof.Laws.Words

theorem eventArrival (k : Nat) : Statement (.eventArrival k) := fun _ => rfl
theorem holdBackEntry (c : CoreId) : Statement (.holdBackEntry c) := fun _ => rfl
theorem reactionStart (c : CoreId) : Statement (.reactionStart c) := fun _ => rfl
theorem headStaleDiscard (c : CoreId) : Statement (.headStaleDiscard c) := fun _ => rfl
theorem cancelledEventDiscard (c : CoreId) : Statement (.cancelledEventDiscard c) := fun _ => rfl
theorem joinGraceExpired (c : CoreId) : Statement (.joinGraceExpired c) := fun _ => rfl
theorem poolUnitStart (c : CoreId) : Statement (.poolUnitStart c) := fun _ => rfl
theorem heartbeatMissed (c : CoreId) (h : CtxId) : Statement (.heartbeatMissed c h) := fun _ => rfl
theorem sendDeparture (c : CoreId) : Statement (.sendDeparture c) := fun _ => rfl
theorem slotChangeEffect (c : CoreId) (slot : Fin 64) : Statement (.slotChangeEffect c slot) := fun _ => rfl
theorem crossbarCounterZero (c : CoreId) (i : Fin 4) : Statement (.crossbarCounterZero c i) := fun _ => rfl
theorem crossbarLocalEventEntry (c : CoreId) (out : Fin 2) : Statement (.crossbarLocalEventEntry c out) := fun _ => rfl
theorem copyRequestStart (c : CoreId) (ch : Fin 4) : Statement (.copyRequestStart c ch) := fun _ => rfl
theorem copyRequestComplete (c : CoreId) (ch : Fin 4) : Statement (.copyRequestComplete c ch) := fun _ => rfl
theorem channelFault (c : CoreId) (ch : Fin 4) (uncorrectable : Bool) : Statement (.channelFault c ch uncorrectable) := fun _ => rfl
theorem gangBarrierComplete (c : CoreId) : Statement (.gangBarrierComplete c) := fun _ => rfl
theorem mmaStep (c : CoreId) : Statement (.mmaStep c) := fun _ => rfl
theorem accumulatorLeavesOwnership (c : CoreId) : Statement (.accumulatorLeavesOwnership c) := fun _ => rfl
theorem mmaOperationFault (c : CoreId) : Statement (.mmaOperationFault c) := fun _ => rfl
theorem mstoComplete (c : CoreId) (n : Fin 4) : Statement (.mstoComplete c n) := fun _ => rfl
theorem collectiveRoundComplete (grp : Nat) : Statement (.collectiveRoundComplete grp) := fun _ => rfl
theorem collectiveAbortArrival (grp : Nat) (rank : Nat) : Statement (.collectiveAbortArrival grp rank) := fun _ => rfl
theorem mcastCompletionRecord (k : Nat) (pierErrors : List Nat) : Statement (.mcastCompletionRecord k pierErrors) := fun _ => rfl
theorem objectOpAtRouter (k : Nat) : Statement (.objectOpAtRouter k) := fun _ => rfl
theorem windowWaitExpired (landing : Nat) (k : Nat) : Statement (.windowWaitExpired landing k) := fun _ => rfl
theorem objectOpAtHome (k : Nat) : Statement (.objectOpAtHome k) := fun _ => rfl
theorem splitPhaseReply (c : CoreId) (h : CtxId) (k : Nat) : Statement (.splitPhaseReply c h k) := fun _ => rfl
theorem stvApply (c : CoreId) (h : CtxId) (k : Nat) : Statement (.stvApply c h k) := fun _ => rfl
theorem reclApply (c : CoreId) (h : CtxId) (k : Nat) : Statement (.reclApply c h k) := fun _ => rfl
theorem capabilityArrival (k : Nat) : Statement (.capabilityArrival k) := fun _ => rfl
theorem capqAnswer (c : CoreId) (h : CtxId) (k : Nat) : Statement (.capqAnswer c h k) := fun _ => rfl
theorem atomicAtHome (c : CoreId) (h : CtxId) (k : Nat) : Statement (.atomicAtHome c h k) := fun _ => rfl
theorem storeGrant (c : CoreId) (h : CtxId) (k : Nat) : Statement (.storeGrant c h k) := fun _ => rfl
theorem directoryOverflowNotice (line : Nat) (c : CoreId) : Statement (.directoryOverflowNotice line c) := fun _ => rfl
theorem overflowInvalidation (line : Nat) : Statement (.overflowInvalidation line) := fun _ => rfl
theorem tlbWalkComplete (c : CoreId) (va : DWord) : Statement (.tlbWalkComplete c va) := fun _ => rfl
theorem prefetchComplete (c : CoreId) (h : CtxId) (n : Fin 8) : Statement (.prefetchComplete c h n) := fun _ => rfl
theorem wsRefreshWindow : Statement (.wsRefreshWindow) := fun _ => rfl
theorem streamElementAccess (c : CoreId) (st : Fin 8) : Statement (.streamElementAccess c st) := fun _ => rfl
theorem feWaiterService (c : CoreId) : Statement (.feWaiterService c) := fun _ => rfl
theorem waitSatisfied (c : CoreId) (h : CtxId) : Statement (.waitSatisfied c h) := fun _ => rfl
theorem detRoundClose (lcnt : Nat) : Statement (.detRoundClose lcnt) := fun _ => rfl
theorem trapEntry (c : CoreId) : Statement (.trapEntry c) := fun _ => rfl
theorem trapBudgetExpired (c : CoreId) : Statement (.trapBudgetExpired c) := fun _ => rfl
theorem machineCheck (kind : McKind) (c : CoreId) (pa : Nat) : Statement (.machineCheck kind c pa) := fun _ => rfl
theorem fenceRelease (n : Fin 128) (mask : DWord) : Statement (.fenceRelease n mask) := fun _ => rfl
theorem hostEventCommit (w : WinSlot) : Statement (.hostEventCommit w) := fun _ => rfl
theorem launchCommit (w : WinSlot) : Statement (.launchCommit w) := fun _ => rfl
theorem launchSetupResume (die : Fin 4) : Statement (.launchSetupResume die) := fun _ => rfl
theorem setCounterCommit (w : WinSlot) : Statement (.setCounterCommit w) := fun _ => rfl
theorem cancelCommit (w : WinSlot) : Statement (.cancelCommit w) := fun _ => rfl
theorem checkpointCutCommit (w : WinSlot) : Statement (.checkpointCutCommit w) := fun _ => rfl
theorem cutSave : Statement (.cutSave) := fun _ => rfl
theorem cutMarkerArrival (port : Fin 8) (freezeMarker : Bool) : Statement (.cutMarkerArrival port freezeMarker) := fun _ => rfl
theorem checkpointDrainCommit (w : WinSlot) : Statement (.checkpointDrainCommit w) := fun _ => rfl
theorem drainComplete : Statement (.drainComplete) := fun _ => rfl
theorem hqheadWrite (q : Fin 17) (v : Word) : Statement (.hqheadWrite q v) := fun _ => rfl
theorem fallbackReplyCommit (id : Byte) (v : DWord) : Statement (.fallbackReplyCommit id v) := fun _ => rfl
theorem atomicopUnsupported (c : CoreId) (h : CtxId) (k : Nat) : Statement (.atomicopUnsupported c h k) := fun _ => rfl
theorem ptmExchange (answer : PtmAnswer) : Statement (.ptmExchange answer) := fun _ => rfl
theorem timestampExchange (t1 t2 t3 t4 : DWord) (port : Fin 8) (slew : Int) : Statement (.timestampExchange t1 t2 t3 t4 port slew) := fun _ => rfl
theorem freeze (coord : Bool) : Statement (.freeze coord) := fun _ => rfl
theorem resume (coord : Bool) : Statement (.resume coord) := fun _ => rfl
theorem coordinatedFreezeInstant : Statement (.coordinatedFreezeInstant) := fun _ => rfl
theorem coordinatedResumeInstant : Statement (.coordinatedResumeInstant) := fun _ => rfl
theorem packetArrival (port : Fin 8) (p : Packet) : Statement (.packetArrival port p) := fun _ => rfl
theorem linkDown (port : Fin 8) : Statement (.linkDown port) := fun _ => rfl
theorem e2eRetryTimeout (k : Nat) : Statement (.e2eRetryTimeout k) := fun _ => rfl
theorem e2eAckArrival (src : BitVec 20) (seq : Word) : Statement (.e2eAckArrival src seq) := fun _ => rfl
theorem linkKeyRenewal (port : Fin 8) : Statement (.linkKeyRenewal port) := fun _ => rfl
theorem powerCapThrottle (milliwatts : Nat) : Statement (.powerCapThrottle milliwatts) := fun _ => rfl
theorem thermalLimit (celsius : Nat) : Statement (.thermalLimit celsius) := fun _ => rfl
theorem powerCapSet (milliwatts : Nat) : Statement (.powerCapSet milliwatts) := fun _ => rfl
theorem pldmFirmwareUpdate (image : List Byte) (version : Nat) : Statement (.pldmFirmwareUpdate image version) := fun _ => rfl
theorem pldmMonitor : Statement (.pldmMonitor) := fun _ => rfl
theorem spdmAttestation (request : List Byte) : Statement (.spdmAttestation request) := fun _ => rfl
theorem firmwareBootVerify (service device : List Byte) (version : Nat) : Statement (.firmwareBootVerify service device version) := fun _ => rfl
theorem hostApertureAccess (store : Bool) (off : Word) (size : Fin 9) (v : DWord) : Statement (.hostApertureAccess store off size v) := fun _ => rfl
theorem spillTakeRead (c : CoreId) (d : Reg) : Statement (.spillTakeRead c d) := fun _ => rfl
theorem spillPutWrite (c : CoreId) (addr : BitVec 18) : Statement (.spillPutWrite c addr) := fun _ => rfl
theorem spillNWrite (c : CoreId) (v : Word) : Statement (.spillNWrite c v) := fun _ => rfl
theorem registerWrite (off : Nat) (v : DWord) : Statement (.registerWrite off v) := fun _ => rfl
theorem linkBringUp (port : Fin 8) : Statement (.linkBringUp port) := fun _ => rfl
theorem add (g : Guard) (d a b : Reg) : Statement (.add g d a b) := fun _ => bindEq (guardR_enc g _ _ _ _ _) rfl
theorem sub (g : Guard) (d a b : Reg) : Statement (.sub g d a b) := fun _ => bindEq (guardR_enc g _ _ _ _ _) rfl
theorem andR (g : Guard) (d a b : Reg) : Statement (.andR g d a b) := fun _ => bindEq (guardR_enc g _ _ _ _ _) rfl
theorem orR (g : Guard) (d a b : Reg) : Statement (.orR g d a b) := fun _ => bindEq (guardR_enc g _ _ _ _ _) rfl
theorem xor (g : Guard) (d a b : Reg) : Statement (.xor g d a b) := fun _ => bindEq (guardR_enc g _ _ _ _ _) rfl
theorem andn (g : Guard) (d a b : Reg) : Statement (.andn g d a b) := fun _ => bindEq (guardR_enc g _ _ _ _ _) rfl
theorem minS (g : Guard) (d a b : Reg) : Statement (.minS g d a b) := fun _ => bindEq (guardR_enc g _ _ _ _ _) rfl
theorem maxS (g : Guard) (d a b : Reg) : Statement (.maxS g d a b) := fun _ => bindEq (guardR_enc g _ _ _ _ _) rfl
theorem minu (g : Guard) (d a b : Reg) : Statement (.minu g d a b) := fun _ => bindEq (guardR_enc g _ _ _ _ _) rfl
theorem maxu (g : Guard) (d a b : Reg) : Statement (.maxu g d a b) := fun _ => bindEq (guardR_enc g _ _ _ _ _) rfl
theorem shl (g : Guard) (d a b : Reg) : Statement (.shl g d a b) := fun _ => bindEq (guardR_enc g _ _ _ _ _) rfl
theorem shr (g : Guard) (d a b : Reg) : Statement (.shr g d a b) := fun _ => bindEq (guardR_enc g _ _ _ _ _) rfl
theorem sra (g : Guard) (d a b : Reg) : Statement (.sra g d a b) := fun _ => bindEq (guardR_enc g _ _ _ _ _) rfl
theorem rol (g : Guard) (d a b : Reg) : Statement (.rol g d a b) := fun _ => bindEq (guardR_enc g _ _ _ _ _) rfl
theorem ror (g : Guard) (d a b : Reg) : Statement (.ror g d a b) := fun _ => bindEq (guardR_enc g _ _ _ _ _) rfl
theorem mov (g : Guard) (d a : Reg) : Statement (.mov g d a) := fun _ => bindEq (guardR_enc g _ _ _ _ _) (bindEq rfl rfl)
theorem mul (g : Guard) (d a b : Reg) : Statement (.mul g d a b) := fun _ => bindEq (guardR_enc g _ _ _ _ _) rfl
theorem mulhiS (g : Guard) (d a b : Reg) : Statement (.mulhiS g d a b) := fun _ => bindEq (guardR_enc g _ _ _ _ _) rfl
theorem mulhiU (g : Guard) (d a b : Reg) : Statement (.mulhiU g d a b) := fun _ => bindEq (guardR_enc g _ _ _ _ _) rfl
theorem mulhiSu (g : Guard) (d a b : Reg) : Statement (.mulhiSu g d a b) := fun _ => bindEq (guardR_enc g _ _ _ _ _) rfl
theorem div (g : Guard) (d a b : Reg) : Statement (.div g d a b) := fun _ => bindEq (guardR_enc g _ _ _ _ _) rfl
theorem divu (g : Guard) (d a b : Reg) : Statement (.divu g d a b) := fun _ => bindEq (guardR_enc g _ _ _ _ _) rfl
theorem rem (g : Guard) (d a b : Reg) : Statement (.rem g d a b) := fun _ => bindEq (guardR_enc g _ _ _ _ _) rfl
theorem remu (g : Guard) (d a b : Reg) : Statement (.remu g d a b) := fun _ => bindEq (guardR_enc g _ _ _ _ _) rfl
theorem clz (g : Guard) (d a : Reg) : Statement (.clz g d a) := fun _ => bindEq (guardR_enc g _ _ _ _ _) (bindEq rfl rfl)
theorem ctz (g : Guard) (d a : Reg) : Statement (.ctz g d a) := fun _ => bindEq (guardR_enc g _ _ _ _ _) (bindEq rfl rfl)
theorem popc (g : Guard) (d a : Reg) : Statement (.popc g d a) := fun _ => bindEq (guardR_enc g _ _ _ _ _) (bindEq rfl rfl)
theorem sextB (g : Guard) (d a : Reg) : Statement (.sextB g d a) := fun _ => bindEq (guardR_enc g _ _ _ _ _) (bindEq rfl rfl)
theorem sextH (g : Guard) (d a : Reg) : Statement (.sextH g d a) := fun _ => bindEq (guardR_enc g _ _ _ _ _) (bindEq rfl rfl)
theorem sextW (g : Guard) (d a : Reg) : Statement (.sextW g d a) := fun _ => bindEq (guardR_enc g _ _ _ _ _) (bindEq rfl rfl)
theorem zextH (g : Guard) (d a : Reg) : Statement (.zextH g d a) := fun _ => bindEq (guardR_enc g _ _ _ _ _) (bindEq rfl rfl)
theorem zextW (g : Guard) (d a : Reg) : Statement (.zextW g d a) := fun _ => bindEq (guardR_enc g _ _ _ _ _) (bindEq rfl rfl)
theorem lea (g : Guard) (d a b : Reg) (c : Fin 8) : Statement (.lea g d a b c) := fun _ => bindEq (guardR_enc g _ _ _ _ _) rfl
theorem yld (g : Guard) (d : Fin 4) (a : Reg) : Statement (.yld g d a) := fun _ => bindEq (guardR_enc g _ _ _ _ _) (bindEq (narrow4 d) (bindEq rfl rfl))
theorem ybase (g : Guard) (d : Fin 4) (a : Reg) : Statement (.ybase g d a) := fun _ => bindEq (guardR_enc g _ _ _ _ _) (bindEq (narrow4 d) (bindEq rfl rfl))
theorem yext (g : Guard) (d : Fin 4) (a : Reg) (n : Fin 4) : Statement (.yext g d a n) := fun _ => bindEq (guardR_enc g _ _ _ _ _) (bindEq (narrow4 d) (bindEq (narrow4 n) rfl))
theorem yrd (g : Guard) (d : Reg) (a : Fin 4) (n : Fin 5) : Statement (.yrd g d a n) := fun _ => bindEq (guardR_enc g _ _ _ _ _) (bindEq (narrow4 a) (bindEq (narrow5 n) rfl))
theorem sbind (g : Guard) (d : Fin 8) (a : Reg) : Statement (.sbind g d a) := fun _ => bindEq (guardR_enc g _ _ _ _ _) (bindEq (narrow8 d) (bindEq rfl rfl))
theorem sunb (g : Guard) (d : Fin 8) : Statement (.sunb g d) := fun _ => bindEq (guardR_enc g _ _ _ _ _) (bindEq (narrow8 d) (bindEq rfl rfl))
theorem slink (g : Guard) (d : Fin 8) (a : Reg) : Statement (.slink g d a) := fun _ => bindEq (guardR_enc g _ _ _ _ _) (bindEq (narrow8 d) (bindEq rfl rfl))
theorem sstat (g : Guard) (d : Reg) (a : Fin 8) : Statement (.sstat g d a) := fun _ => bindEq (guardR_enc g _ _ _ _ _) (bindEq (narrow8 a) (bindEq rfl rfl))
theorem addw (g : Guard) (d a b : Reg) : Statement (.addw g d a b) := fun _ => bindEq (guardR_enc g _ _ _ _ _) rfl
theorem subw (g : Guard) (d a b : Reg) : Statement (.subw g d a b) := fun _ => bindEq (guardR_enc g _ _ _ _ _) rfl
theorem mulw (g : Guard) (d a b : Reg) : Statement (.mulw g d a b) := fun _ => bindEq (guardR_enc g _ _ _ _ _) rfl
theorem shlw (g : Guard) (d a b : Reg) : Statement (.shlw g d a b) := fun _ => bindEq (guardR_enc g _ _ _ _ _) rfl
theorem shrw (g : Guard) (d a b : Reg) : Statement (.shrw g d a b) := fun _ => bindEq (guardR_enc g _ _ _ _ _) rfl
theorem sraw (g : Guard) (d a b : Reg) : Statement (.sraw g d a b) := fun _ => bindEq (guardR_enc g _ _ _ _ _) rfl
theorem divw (g : Guard) (d a b : Reg) : Statement (.divw g d a b) := fun _ => bindEq (guardR_enc g _ _ _ _ _) rfl
theorem remw (g : Guard) (d a b : Reg) : Statement (.remw g d a b) := fun _ => bindEq (guardR_enc g _ _ _ _ _) rfl
theorem addi (g : Guard) (d a : Reg) (imm : Int) : Statement (.addi g d a imm) := by
  intro h
  cases g with
  | always => exact congrArg (fun v => Except.ok (Instr.addi .always d a v)) (imm13A imm h)
  | onSet p => exact okGV (fun g v => Instr.addi g d a v) (guardOf_onSet p) (imm13G imm h)
  | onClear p => exact okGV (fun g v => Instr.addi g d a v) (guardOf_onClear p) (imm13G imm h)
theorem andi (g : Guard) (d a : Reg) (imm : Int) : Statement (.andi g d a imm) := by
  intro h
  cases g with
  | always => exact congrArg (fun v => Except.ok (Instr.andi .always d a v)) (imm13A imm h)
  | onSet p => exact okGV (fun g v => Instr.andi g d a v) (guardOf_onSet p) (imm13G imm h)
  | onClear p => exact okGV (fun g v => Instr.andi g d a v) (guardOf_onClear p) (imm13G imm h)
theorem ori (g : Guard) (d a : Reg) (imm : Int) : Statement (.ori g d a imm) := by
  intro h
  cases g with
  | always => exact congrArg (fun v => Except.ok (Instr.ori .always d a v)) (imm13A imm h)
  | onSet p => exact okGV (fun g v => Instr.ori g d a v) (guardOf_onSet p) (imm13G imm h)
  | onClear p => exact okGV (fun g v => Instr.ori g d a v) (guardOf_onClear p) (imm13G imm h)
theorem xori (g : Guard) (d a : Reg) (imm : Int) : Statement (.xori g d a imm) := by
  intro h
  cases g with
  | always => exact congrArg (fun v => Except.ok (Instr.xori .always d a v)) (imm13A imm h)
  | onSet p => exact okGV (fun g v => Instr.xori g d a v) (guardOf_onSet p) (imm13G imm h)
  | onClear p => exact okGV (fun g v => Instr.xori g d a v) (guardOf_onClear p) (imm13G imm h)
theorem shli (g : Guard) (d a : Reg) (imm : Nat) : Statement (.shli g d a imm) := by
  intro h
  cases g with
  | always => exact bindEq (needLt imm h) (congrArg (fun v => Except.ok (Instr.shli .always d a v)) (natA imm h))
  | onSet p => exact bindEq (needLtG imm h) (okGV (fun g v => Instr.shli g d a v) (guardOf_onSet p) (natG imm h))
  | onClear p => exact bindEq (needLtG imm h) (okGV (fun g v => Instr.shli g d a v) (guardOf_onClear p) (natG imm h))
theorem shri (g : Guard) (d a : Reg) (imm : Nat) : Statement (.shri g d a imm) := by
  intro h
  cases g with
  | always => exact bindEq (needLt imm h) (congrArg (fun v => Except.ok (Instr.shri .always d a v)) (natA imm h))
  | onSet p => exact bindEq (needLtG imm h) (okGV (fun g v => Instr.shri g d a v) (guardOf_onSet p) (natG imm h))
  | onClear p => exact bindEq (needLtG imm h) (okGV (fun g v => Instr.shri g d a v) (guardOf_onClear p) (natG imm h))
theorem srai (g : Guard) (d a : Reg) (imm : Nat) : Statement (.srai g d a imm) := by
  intro h
  cases g with
  | always => exact bindEq (needLt imm h) (congrArg (fun v => Except.ok (Instr.srai .always d a v)) (natA imm h))
  | onSet p => exact bindEq (needLtG imm h) (okGV (fun g v => Instr.srai g d a v) (guardOf_onSet p) (natG imm h))
  | onClear p => exact bindEq (needLtG imm h) (okGV (fun g v => Instr.srai g d a v) (guardOf_onClear p) (natG imm h))
theorem roli (g : Guard) (d a : Reg) (imm : Nat) : Statement (.roli g d a imm) := by
  intro h
  cases g with
  | always => exact bindEq (needLt imm h) (congrArg (fun v => Except.ok (Instr.roli .always d a v)) (natA imm h))
  | onSet p => exact bindEq (needLtG imm h) (okGV (fun g v => Instr.roli g d a v) (guardOf_onSet p) (natG imm h))
  | onClear p => exact bindEq (needLtG imm h) (okGV (fun g v => Instr.roli g d a v) (guardOf_onClear p) (natG imm h))
theorem ldi (d : Reg) (imm : Int) : Statement (.ldi d imm) := fun h => words_ldi d imm h
theorem seth (d : Reg) (imm16 : Half) (pos : Fin 4) : Statement (.seth d imm16 pos) := fun _ => words_seth d imm16 pos
theorem cmpi (g : Guard) (d : PReg) (a : Reg) (imm : Int) (cc : ICond) : Statement (.cmpi g d a imm cc) := fun h => words_cmpi g d a imm cc h
theorem cmp (g : Guard) (d : PReg) (a b : Reg) (cc : ICond) : Statement (.cmp g d a b cc) := fun _ => bindEq (guardR_enc g _ _ _ _ _) (bindEq (narrow16 d) (congrArg (fun u => Except.ok (Instr.cmp g d a b u)) (icond cc)))
theorem fcmp (g : Guard) (d : PReg) (a b : Reg) (cc : FCond) : Statement (.fcmp g d a b cc) := fun _ => bindEq (guardR_enc g _ _ _ _ _) (bindEq (narrow16 d) (congrArg (fun u => Except.ok (Instr.fcmp g d a b u)) (fcond cc)))
theorem pand (g : Guard) (d : PReg) (a : PReg) (b : PReg) : Statement (.pand g d a b) := fun _ => bindEq (guardR_enc g _ _ _ _ _) (bindEq (narrow16 d) (bindEq (narrow16 a) (bindEq (narrow16 b) rfl)))
theorem por (g : Guard) (d : PReg) (a : PReg) (b : PReg) : Statement (.por g d a b) := fun _ => bindEq (guardR_enc g _ _ _ _ _) (bindEq (narrow16 d) (bindEq (narrow16 a) (bindEq (narrow16 b) rfl)))
theorem pxor (g : Guard) (d : PReg) (a : PReg) (b : PReg) : Statement (.pxor g d a b) := fun _ => bindEq (guardR_enc g _ _ _ _ _) (bindEq (narrow16 d) (bindEq (narrow16 a) (bindEq (narrow16 b) rfl)))
theorem pandn (g : Guard) (d : PReg) (a : PReg) (b : PReg) : Statement (.pandn g d a b) := fun _ => bindEq (guardR_enc g _ _ _ _ _) (bindEq (narrow16 d) (bindEq (narrow16 a) (bindEq (narrow16 b) rfl)))
theorem pnot (g : Guard) (d : PReg) (a : PReg) : Statement (.pnot g d a) := fun _ => bindEq (guardR_enc g _ _ _ _ _) (bindEq (narrow16 d) (bindEq (narrow16 a) (bindEq rfl rfl)))
theorem pmov (g : Guard) (d : PReg) (a : PReg) : Statement (.pmov g d a) := fun _ => bindEq (guardR_enc g _ _ _ _ _) (bindEq (narrow16 d) (bindEq (narrow16 a) (bindEq rfl rfl)))
theorem pall (g : Guard) (d : PReg) (a : PReg) : Statement (.pall g d a) := fun _ => bindEq (guardR_enc g _ _ _ _ _) (bindEq (narrow16 d) (bindEq (narrow16 a) (bindEq rfl rfl)))
theorem pnone (g : Guard) (d : PReg) (a : PReg) : Statement (.pnone g d a) := fun _ => bindEq (guardR_enc g _ _ _ _ _) (bindEq (narrow16 d) (bindEq (narrow16 a) (bindEq rfl rfl)))
theorem pfirst (g : Guard) (d : PReg) (a : PReg) : Statement (.pfirst g d a) := fun _ => bindEq (guardR_enc g _ _ _ _ _) (bindEq (narrow16 d) (bindEq (narrow16 a) (bindEq rfl rfl)))
theorem pcnt (g : Guard) (d : Reg) (a : PReg) : Statement (.pcnt g d a) := fun _ => bindEq (guardR_enc g _ _ _ _ _) (bindEq (narrow16 a) (bindEq rfl rfl))
theorem ptox (g : Guard) (d : Reg) (a : PReg) : Statement (.ptox g d a) := fun _ => bindEq (guardR_enc g _ _ _ _ _) (bindEq (narrow16 a) (bindEq rfl rfl))
theorem xtop (g : Guard) (d : PReg) (a : Reg) : Statement (.xtop g d a) := fun _ => bindEq (guardR_enc g _ _ _ _ _) (bindEq (narrow16 d) (bindEq rfl rfl))
theorem pffs (g : Guard) (d : Reg) (a : PReg) : Statement (.pffs g d a) := fun _ => bindEq (guardR_enc g _ _ _ _ _) (bindEq (narrow16 a) (bindEq rfl rfl))
theorem fmvxf (g : Guard) (d a : Reg) : Statement (.fmvxf g d a) := fun _ => bindEq (guardR_enc g _ _ _ _ _) (bindEq rfl rfl)
theorem fmvfx (g : Guard) (d a : Reg) : Statement (.fmvfx g d a) := fun _ => bindEq (guardR_enc g _ _ _ _ _) (bindEq rfl rfl)
theorem fkind (g : Guard) (d a : Reg) : Statement (.fkind g d a) := fun _ => bindEq (guardR_enc g _ _ _ _ _) (bindEq rfl rfl)
theorem fadd (g : Guard) (d a b : Reg) : Statement (.fadd g d a b) := fun _ => bindEq (guardR_enc g _ _ _ _ _) rfl
theorem fsub (g : Guard) (d a b : Reg) : Statement (.fsub g d a b) := fun _ => bindEq (guardR_enc g _ _ _ _ _) rfl
theorem fmul (g : Guard) (d a b : Reg) : Statement (.fmul g d a b) := fun _ => bindEq (guardR_enc g _ _ _ _ _) rfl
theorem fdiv (g : Guard) (d a b : Reg) : Statement (.fdiv g d a b) := fun _ => bindEq (guardR_enc g _ _ _ _ _) rfl
theorem fmin (g : Guard) (d a b : Reg) : Statement (.fmin g d a b) := fun _ => bindEq (guardR_enc g _ _ _ _ _) rfl
theorem fmax (g : Guard) (d a b : Reg) : Statement (.fmax g d a b) := fun _ => bindEq (guardR_enc g _ _ _ _ _) rfl
theorem fsqrt (g : Guard) (d a : Reg) : Statement (.fsqrt g d a) := fun _ => bindEq (guardR_enc g _ _ _ _ _) (bindEq rfl rfl)
theorem fsgn (g : Guard) (d a b : Reg) : Statement (.fsgn g d a b) := fun _ => bindEq (guardR_enc g _ _ _ _ _) rfl
theorem fma (g : Guard) (d a b : Reg) : Statement (.fma g d a b) := fun _ => bindEq (guardR_enc g _ _ _ _ _) rfl
theorem fms (g : Guard) (d a b : Reg) : Statement (.fms g d a b) := fun _ => bindEq (guardR_enc g _ _ _ _ _) rfl
theorem fabs (g : Guard) (d a : Reg) : Statement (.fabs g d a) := fun _ => bindEq (guardR_enc g _ _ _ _ _) (bindEq rfl rfl)
theorem fneg (g : Guard) (d a : Reg) : Statement (.fneg g d a) := fun _ => bindEq (guardR_enc g _ _ _ _ _) (bindEq rfl rfl)
theorem fcvtXf (g : Guard) (d a : Reg) (mode : FcvtMode) : Statement (.fcvtXf g d a mode) := fun _ => bindEq (guardR_enc g _ _ _ _ _) (bindEq (mode_enc mode) rfl)
theorem fcvtFx (g : Guard) (d a : Reg) (mode : FcvtMode) : Statement (.fcvtFx g d a mode) := fun _ => bindEq (guardR_enc g _ _ _ _ _) (bindEq (mode_enc mode) rfl)
theorem fcvtUf (g : Guard) (d a : Reg) (mode : FcvtMode) : Statement (.fcvtUf g d a mode) := fun _ => bindEq (guardR_enc g _ _ _ _ _) (bindEq (mode_enc mode) rfl)
theorem fcvtFu (g : Guard) (d a : Reg) (mode : FcvtMode) : Statement (.fcvtFu g d a mode) := fun _ => bindEq (guardR_enc g _ _ _ _ _) (bindEq (mode_enc mode) rfl)
theorem cgrp (g : Guard) (d a : Reg) : Statement (.cgrp g d a) := fun _ => bindEq (guardR_enc g _ _ _ _ _) (bindEq rfl rfl)
theorem cinj (g : Guard) (a b : Reg) : Statement (.cinj g a b) := fun _ => bindEq (guardR_enc g _ _ _ _ _) (bindEq rfl rfl)
theorem cinjHld (g : Guard) (a b : Reg) : Statement (.cinjHld g a b) := fun _ => bindEq (guardR_enc g _ _ _ _ _) (bindEq rfl rfl)
theorem cext (g : Guard) (d a : Reg) : Statement (.cext g d a) := fun _ => bindEq (guardR_enc g _ _ _ _ _) (bindEq rfl rfl)
theorem cstat (g : Guard) (d a : Reg) : Statement (.cstat g d a) := fun _ => bindEq (guardR_enc g _ _ _ _ _) (bindEq rfl rfl)
theorem cabort (g : Guard) (a : Reg) : Statement (.cabort g a) := fun _ => bindEq (guardR_enc g _ _ _ _ _) (bindEq rfl rfl)
theorem cfree (g : Guard) (a : Reg) : Statement (.cfree g a) := fun _ => bindEq (guardR_enc g _ _ _ _ _) (bindEq rfl rfl)
theorem cinjx (g : Guard) (a b : Reg) : Statement (.cinjx g a b) := fun _ => bindEq (guardR_enc g _ _ _ _ _) (bindEq rfl rfl)
theorem cinjxHld (g : Guard) (a b : Reg) : Statement (.cinjxHld g a b) := fun _ => bindEq (guardR_enc g _ _ _ _ _) (bindEq rfl rfl)
theorem cextx (g : Guard) (a b : Reg) : Statement (.cextx g a b) := fun _ => bindEq (guardR_enc g _ _ _ _ _) (bindEq rfl rfl)
theorem mma (c : Fin 8) (n : Fin 4) (a b : Reg) (fmt : MmaFmt) : Statement (.mma c n a b fmt) := fun _ => words_mma c n a b fmt
theorem prep (n : Fin 8) (off : Int) : Statement (.prep n off) := fun h => words_prep n off h
theorem prepx (g : Guard) (n : Fin 8) (a : Reg) : Statement (.prepx g n a) := fun _ => bindEq (guardR_enc g _ _ _ _ _) (bindEq (narrow8 n) (bindEq rfl rfl))
theorem mfb (g : Guard) (d : Reg) (n : Fin 8) : Statement (.mfb g d n) := fun _ => bindEq (guardR_enc g _ _ _ _ _) (bindEq (narrow8 n) (bindEq rfl rfl))
theorem mtb (g : Guard) (n : Fin 8) (a : Reg) : Statement (.mtb g n a) := fun _ => bindEq (guardR_enc g _ _ _ _ _) (bindEq (narrow8 n) (bindEq rfl rfl))
theorem clrb (g : Guard) (n : Fin 8) : Statement (.clrb g n) := fun _ => bindEq (guardR_enc g _ _ _ _ _) (bindEq (narrow8 n) (bindEq rfl rfl))
theorem tstb (g : Guard) (d : PReg) (n : Fin 8) : Statement (.tstb g d n) := fun _ => bindEq (guardR_enc g _ _ _ _ _) (bindEq (narrow16 d) (bindEq (narrow8 n) (bindEq rfl rfl)))
theorem nop (g : Guard) : Statement (.nop g) := fun _ => bindEq (guardR_enc g _ _ _ _ _) (bindEq rfl rfl)
theorem endL (g : Guard) : Statement (.endL g) := fun _ => bindEq (guardR_enc g _ _ _ _ _) (bindEq rfl rfl)
theorem halt (g : Guard) : Statement (.halt g) := fun _ => bindEq (guardR_enc g _ _ _ _ _) (bindEq rfl rfl)
theorem brk (g : Guard) : Statement (.brk g) := fun _ => bindEq (guardR_enc g _ _ _ _ _) (bindEq rfl rfl)
theorem eret (g : Guard) : Statement (.eret g) := fun _ => bindEq (guardR_enc g _ _ _ _ _) (bindEq rfl rfl)
theorem syncCL (g : Guard) : Statement (.syncCL g) := fun _ => bindEq (guardR_enc g _ _ _ _ _) (bindEq rfl rfl)
theorem beatL (g : Guard) : Statement (.beatL g) := fun _ => bindEq (guardR_enc g _ _ _ _ _) (bindEq rfl rfl)
theorem idle (g : Guard) (a : Reg) : Statement (.idle g a) := fun _ => bindEq (guardR_enc g _ _ _ _ _) (bindEq rfl rfl)
theorem trap (g : Guard) (imm : Int) : Statement (.trap g imm) := by
  intro h
  cases g with
  | always => exact bindEq rfl (congrArg (fun v => Except.ok (Instr.trap .always v)) (imm13A imm h))
  | onSet p => exact bindEq rfl (okGV (fun g v => Instr.trap g v) (guardOf_onSet p) (imm13G imm h))
  | onClear p => exact bindEq rfl (okGV (fun g v => Instr.trap g v) (guardOf_onClear p) (imm13G imm h))
theorem mfs (d : Reg) (sp : SpecialReg) : Statement (.mfs d sp) := fun _ => words_mfs d sp
theorem mts (sp : SpecialReg) (d : Reg) : Statement (.mts sp d) := fun _ => words_mts sp d
theorem tagt (g : Guard) (d : Reg) : Statement (.tagt g d) := fun _ => bindEq (guardR_enc g _ _ _ _ _) (bindEq rfl rfl)
theorem tagm (g : Guard) (d : Reg) : Statement (.tagm g d) := fun _ => bindEq (guardR_enc g _ _ _ _ _) (bindEq rfl rfl)
theorem clk (g : Guard) (d : Reg) : Statement (.clk g d) := fun _ => bindEq (guardR_enc g _ _ _ _ _) (bindEq rfl rfl)
theorem horz (g : Guard) (d : Reg) : Statement (.horz g d) := fun _ => bindEq (guardR_enc g _ _ _ _ _) (bindEq rfl rfl)
theorem lastt (g : Guard) (d : Reg) : Statement (.lastt g d) := fun _ => bindEq (guardR_enc g _ _ _ _ _) (bindEq rfl rfl)
theorem lastm (g : Guard) (d : Reg) : Statement (.lastm g d) := fun _ => bindEq (guardR_enc g _ _ _ _ _) (bindEq rfl rfl)
theorem bound (g : Guard) (d a : Reg) : Statement (.bound g d a) := fun _ => bindEq (guardR_enc g _ _ _ _ _) (bindEq rfl rfl)
theorem ebnd (g : Guard) (d a : Reg) : Statement (.ebnd g d a) := fun _ => bindEq (guardR_enc g _ _ _ _ _) (bindEq rfl rfl)
theorem mwait (g : Guard) (n : Fin 4) : Statement (.mwait g n) := fun _ => bindEq (guardR_enc g _ _ _ _ _) (bindEq (narrow4 n) (bindEq rfl rfl))
theorem mzero (g : Guard) (n : Fin 4) : Statement (.mzero g n) := fun _ => bindEq (guardR_enc g _ _ _ _ _) (bindEq (narrow4 n) (bindEq rfl rfl))
theorem mrd (g : Guard) (d : Reg) (a : Fin 4) (b : Reg) : Statement (.mrd g d a b) := fun _ => bindEq (guardR_enc g _ _ _ _ _) (bindEq (narrow4 a) rfl)
theorem mstoS (g : Guard) (n : Fin 4) (a : Reg) : Statement (.mstoS g n a) := fun _ => bindEq (guardR_enc g _ _ _ _ _) (bindEq (narrow4 n) (bindEq rfl rfl))
theorem mstoBf (g : Guard) (n : Fin 4) (a : Reg) : Statement (.mstoBf g n a) := fun _ => bindEq (guardR_enc g _ _ _ _ _) (bindEq (narrow4 n) (bindEq rfl rfl))
theorem gang (g : Guard) (a : Reg) : Statement (.gang g a) := fun _ => bindEq (guardR_enc g _ _ _ _ _) (bindEq rfl rfl)
theorem mstat (g : Guard) (d : Reg) : Statement (.mstat g d) := fun _ => bindEq (guardR_enc g _ _ _ _ _) (bindEq rfl rfl)
theorem send (g : Guard) (d a b : Reg) : Statement (.send g d a b) := fun _ => bindEq (guardR_enc g _ _ _ _ _) rfl
theorem send2 (g : Guard) (d a b : Reg) : Statement (.send2 g d a b) := fun h => bindEq (guardR_enc g _ _ _ _ _) (bindEq (needLe h) rfl)
theorem send4 (g : Guard) (d a b : Reg) : Statement (.send4 g d a b) := fun h => bindEq (guardR_enc g _ _ _ _ _) (bindEq (needLe h) rfl)
theorem sendv (g : Guard) (d a b : Reg) : Statement (.sendv g d a b) := fun _ => bindEq (guardR_enc g _ _ _ _ _) rfl
theorem sendb (g : Guard) (d a b : Reg) : Statement (.sendb g d a b) := fun _ => bindEq (guardR_enc g _ _ _ _ _) rfl
theorem mcast (g : Guard) (d a b : Reg) : Statement (.mcast g d a b) := fun _ => bindEq (guardR_enc g _ _ _ _ _) rfl
theorem sendh (g : Guard) (d a : Reg) : Statement (.sendh g d a) := fun h => bindEq (guardR_enc g _ _ _ _ _) (bindEq (needLe h) (bindEq rfl rfl))
theorem bindS (g : Guard) (d a b : Reg) : Statement (.bindS g d a b) := fun _ => bindEq (guardR_enc g _ _ _ _ _) rfl
theorem unbind (g : Guard) (a : Reg) : Statement (.unbind g a) := fun _ => bindEq (guardR_enc g _ _ _ _ _) (bindEq rfl rfl)
theorem arm (g : Guard) (a b : Reg) : Statement (.arm g a b) := fun _ => bindEq (guardR_enc g _ _ _ _ _) (bindEq rfl rfl)
theorem hold (g : Guard) (a b : Reg) : Statement (.hold g a b) := fun _ => bindEq (guardR_enc g _ _ _ _ _) (bindEq rfl rfl)
theorem rlse (g : Guard) (a b : Reg) : Statement (.rlse g a b) := fun _ => bindEq (guardR_enc g _ _ _ _ _) (bindEq rfl rfl)
theorem startL (g : Guard) (d a : Reg) : Statement (.startL g d a) := fun _ => bindEq (guardR_enc g _ _ _ _ _) (bindEq rfl rfl)
theorem genrd (g : Guard) (d a : Reg) : Statement (.genrd g d a) := fun _ => bindEq (guardR_enc g _ _ _ _ _) (bindEq rfl rfl)
theorem capq (g : Guard) (d a b : Reg) : Statement (.capq g d a b) := fun _ => bindEq (guardR_enc g _ _ _ _ _) rfl
theorem ticket (g : Guard) (d : Reg) : Statement (.ticket g d) := fun _ => bindEq (guardR_enc g _ _ _ _ _) (bindEq rfl rfl)
theorem poolcfg (g : Guard) (d a : Reg) : Statement (.poolcfg g d a) := fun _ => bindEq (guardR_enc g _ _ _ _ _) (bindEq rfl rfl)
theorem cntdn (g : Guard) (a : Reg) : Statement (.cntdn g a) := fun _ => bindEq (guardR_enc g _ _ _ _ _) (bindEq rfl rfl)
theorem cancel (g : Guard) (a : Reg) : Statement (.cancel g a) := fun _ => bindEq (guardR_enc g _ _ _ _ _) (bindEq rfl rfl)
theorem cntrd (g : Guard) (d a : Reg) : Statement (.cntrd g d a) := fun _ => bindEq (guardR_enc g _ _ _ _ _) (bindEq rfl rfl)
theorem ecw (g : Guard) (a b : Reg) : Statement (.ecw g a b) := fun _ => bindEq (guardR_enc g _ _ _ _ _) (bindEq rfl rfl)
theorem ecr (g : Guard) (d a : Reg) : Statement (.ecr g d a) := fun _ => bindEq (guardR_enc g _ _ _ _ _) (bindEq rfl rfl)
theorem ecpulse (g : Guard) : Statement (.ecpulse g) := fun _ => bindEq (guardR_enc g _ _ _ _ _) (bindEq rfl rfl)
theorem eccnt (g : Guard) (d a : Reg) : Statement (.eccnt g d a) := fun _ => bindEq (guardR_enc g _ _ _ _ _) (bindEq rfl rfl)
theorem pcfg (g : Guard) (a b : Reg) : Statement (.pcfg g a b) := fun _ => bindEq (guardR_enc g _ _ _ _ _) (bindEq rfl rfl)
theorem prd (g : Guard) (d a : Reg) : Statement (.prd g d a) := fun _ => bindEq (guardR_enc g _ _ _ _ _) (bindEq rfl rfl)
theorem prst (g : Guard) (a : Reg) : Statement (.prst g a) := fun _ => bindEq (guardR_enc g _ _ _ _ _) (bindEq rfl rfl)
theorem tlbi (g : Guard) (a b : Reg) : Statement (.tlbi g a b) := fun _ => bindEq (guardR_enc g _ _ _ _ _) (bindEq rfl rfl)
theorem ldb (g : Guard) (d a : Reg) (off : Int) : Statement (.ldb g d a off) := by
  intro h
  cases g with
  | always => exact congrArg (fun v => Except.ok (Instr.ldb .always d a v)) (imm10A off h)
  | onSet p => exact okGV (fun g v => Instr.ldb g d a v) (guardOf_onSet p) (imm10G off h)
  | onClear p => exact okGV (fun g v => Instr.ldb g d a v) (guardOf_onClear p) (imm10G off h)
theorem ldh (g : Guard) (d a : Reg) (off : Int) : Statement (.ldh g d a off) := by
  intro h
  cases g with
  | always => exact congrArg (fun v => Except.ok (Instr.ldh .always d a v)) (imm10A off h)
  | onSet p => exact okGV (fun g v => Instr.ldh g d a v) (guardOf_onSet p) (imm10G off h)
  | onClear p => exact okGV (fun g v => Instr.ldh g d a v) (guardOf_onClear p) (imm10G off h)
theorem ldw (g : Guard) (d a : Reg) (off : Int) : Statement (.ldw g d a off) := by
  intro h
  cases g with
  | always => exact congrArg (fun v => Except.ok (Instr.ldw .always d a v)) (imm10A off h)
  | onSet p => exact okGV (fun g v => Instr.ldw g d a v) (guardOf_onSet p) (imm10G off h)
  | onClear p => exact okGV (fun g v => Instr.ldw g d a v) (guardOf_onClear p) (imm10G off h)
theorem ldd (g : Guard) (d a : Reg) (off : Int) : Statement (.ldd g d a off) := by
  intro h
  cases g with
  | always => exact congrArg (fun v => Except.ok (Instr.ldd .always d a v)) (imm10A off h)
  | onSet p => exact okGV (fun g v => Instr.ldd g d a v) (guardOf_onSet p) (imm10G off h)
  | onClear p => exact okGV (fun g v => Instr.ldd g d a v) (guardOf_onClear p) (imm10G off h)
theorem ldbu (g : Guard) (d a : Reg) (off : Int) : Statement (.ldbu g d a off) := by
  intro h
  cases g with
  | always => exact congrArg (fun v => Except.ok (Instr.ldbu .always d a v)) (imm10A off h)
  | onSet p => exact okGV (fun g v => Instr.ldbu g d a v) (guardOf_onSet p) (imm10G off h)
  | onClear p => exact okGV (fun g v => Instr.ldbu g d a v) (guardOf_onClear p) (imm10G off h)
theorem ldhu (g : Guard) (d a : Reg) (off : Int) : Statement (.ldhu g d a off) := by
  intro h
  cases g with
  | always => exact congrArg (fun v => Except.ok (Instr.ldhu .always d a v)) (imm10A off h)
  | onSet p => exact okGV (fun g v => Instr.ldhu g d a v) (guardOf_onSet p) (imm10G off h)
  | onClear p => exact okGV (fun g v => Instr.ldhu g d a v) (guardOf_onClear p) (imm10G off h)
theorem ldwu (g : Guard) (d a : Reg) (off : Int) : Statement (.ldwu g d a off) := by
  intro h
  cases g with
  | always => exact congrArg (fun v => Except.ok (Instr.ldwu .always d a v)) (imm10A off h)
  | onSet p => exact okGV (fun g v => Instr.ldwu g d a v) (guardOf_onSet p) (imm10G off h)
  | onClear p => exact okGV (fun g v => Instr.ldwu g d a v) (guardOf_onClear p) (imm10G off h)
theorem stb (g : Guard) (d a : Reg) (off : Int) : Statement (.stb g d a off) := by
  intro h
  cases g with
  | always => exact congrArg (fun v => Except.ok (Instr.stb .always d a v)) (imm10A off h)
  | onSet p => exact okGV (fun g v => Instr.stb g d a v) (guardOf_onSet p) (imm10G off h)
  | onClear p => exact okGV (fun g v => Instr.stb g d a v) (guardOf_onClear p) (imm10G off h)
theorem sth (g : Guard) (d a : Reg) (off : Int) : Statement (.sth g d a off) := by
  intro h
  cases g with
  | always => exact congrArg (fun v => Except.ok (Instr.sth .always d a v)) (imm10A off h)
  | onSet p => exact okGV (fun g v => Instr.sth g d a v) (guardOf_onSet p) (imm10G off h)
  | onClear p => exact okGV (fun g v => Instr.sth g d a v) (guardOf_onClear p) (imm10G off h)
theorem stw (g : Guard) (d a : Reg) (off : Int) : Statement (.stw g d a off) := by
  intro h
  cases g with
  | always => exact congrArg (fun v => Except.ok (Instr.stw .always d a v)) (imm10A off h)
  | onSet p => exact okGV (fun g v => Instr.stw g d a v) (guardOf_onSet p) (imm10G off h)
  | onClear p => exact okGV (fun g v => Instr.stw g d a v) (guardOf_onClear p) (imm10G off h)
theorem std (g : Guard) (d a : Reg) (off : Int) : Statement (.std g d a off) := by
  intro h
  cases g with
  | always => exact congrArg (fun v => Except.ok (Instr.std .always d a v)) (imm10A off h)
  | onSet p => exact okGV (fun g v => Instr.std g d a v) (guardOf_onSet p) (imm10G off h)
  | onClear p => exact okGV (fun g v => Instr.std g d a v) (guardOf_onClear p) (imm10G off h)
theorem ldxb (g : Guard) (d a b : Reg) : Statement (.ldxb g d a b) := fun _ => bindEq (guardR_enc g _ _ _ _ _) rfl
theorem ldxh (g : Guard) (d a b : Reg) : Statement (.ldxh g d a b) := fun _ => bindEq (guardR_enc g _ _ _ _ _) rfl
theorem ldxw (g : Guard) (d a b : Reg) : Statement (.ldxw g d a b) := fun _ => bindEq (guardR_enc g _ _ _ _ _) rfl
theorem ldxd (g : Guard) (d a b : Reg) : Statement (.ldxd g d a b) := fun _ => bindEq (guardR_enc g _ _ _ _ _) rfl
theorem ldxbu (g : Guard) (d a b : Reg) : Statement (.ldxbu g d a b) := fun _ => bindEq (guardR_enc g _ _ _ _ _) rfl
theorem ldxhu (g : Guard) (d a b : Reg) : Statement (.ldxhu g d a b) := fun _ => bindEq (guardR_enc g _ _ _ _ _) rfl
theorem ldxwu (g : Guard) (d a b : Reg) : Statement (.ldxwu g d a b) := fun _ => bindEq (guardR_enc g _ _ _ _ _) rfl
theorem stxb (g : Guard) (d a b : Reg) : Statement (.stxb g d a b) := fun _ => bindEq (guardR_enc g _ _ _ _ _) rfl
theorem stxh (g : Guard) (d a b : Reg) : Statement (.stxh g d a b) := fun _ => bindEq (guardR_enc g _ _ _ _ _) rfl
theorem stxw (g : Guard) (d a b : Reg) : Statement (.stxw g d a b) := fun _ => bindEq (guardR_enc g _ _ _ _ _) rfl
theorem stxd (g : Guard) (d a b : Reg) : Statement (.stxd g d a b) := fun _ => bindEq (guardR_enc g _ _ _ _ _) rfl
theorem ldf (g : Guard) (d a : Reg) (off : Int) : Statement (.ldf g d a off) := by
  intro h
  cases g with
  | always => exact congrArg (fun v => Except.ok (Instr.ldf .always d a v)) (imm10A off h)
  | onSet p => exact okGV (fun g v => Instr.ldf g d a v) (guardOf_onSet p) (imm10G off h)
  | onClear p => exact okGV (fun g v => Instr.ldf g d a v) (guardOf_onClear p) (imm10G off h)
theorem ldk (g : Guard) (d a : Reg) (off : Int) : Statement (.ldk g d a off) := by
  intro h
  cases g with
  | always => exact congrArg (fun v => Except.ok (Instr.ldk .always d a v)) (imm10A off h)
  | onSet p => exact okGV (fun g v => Instr.ldk g d a v) (guardOf_onSet p) (imm10G off h)
  | onClear p => exact okGV (fun g v => Instr.ldk g d a v) (guardOf_onClear p) (imm10G off h)
theorem ste (g : Guard) (d a : Reg) (off : Int) : Statement (.ste g d a off) := by
  intro h
  cases g with
  | always => exact congrArg (fun v => Except.ok (Instr.ste .always d a v)) (imm10A off h)
  | onSet p => exact okGV (fun g v => Instr.ste g d a v) (guardOf_onSet p) (imm10G off h)
  | onClear p => exact okGV (fun g v => Instr.ste g d a v) (guardOf_onClear p) (imm10G off h)
theorem stf (g : Guard) (d a : Reg) (off : Int) : Statement (.stf g d a off) := by
  intro h
  cases g with
  | always => exact congrArg (fun v => Except.ok (Instr.stf .always d a v)) (imm10A off h)
  | onSet p => exact okGV (fun g v => Instr.stf g d a v) (guardOf_onSet p) (imm10G off h)
  | onClear p => exact okGV (fun g v => Instr.stf g d a v) (guardOf_onClear p) (imm10G off h)
theorem sete (g : Guard) (a : Reg) (off : Int) : Statement (.sete g a off) := by
  intro h
  cases g with
  | always => exact bindEq rfl (congrArg (fun v => Except.ok (Instr.sete .always a v)) (imm10A off h))
  | onSet p => exact bindEq rfl (okGV (fun g v => Instr.sete g a v) (guardOf_onSet p) (imm10G off h))
  | onClear p => exact bindEq rfl (okGV (fun g v => Instr.sete g a v) (guardOf_onClear p) (imm10G off h))
theorem setf (g : Guard) (a : Reg) (off : Int) : Statement (.setf g a off) := by
  intro h
  cases g with
  | always => exact bindEq rfl (congrArg (fun v => Except.ok (Instr.setf .always a v)) (imm10A off h))
  | onSet p => exact bindEq rfl (okGV (fun g v => Instr.setf g a v) (guardOf_onSet p) (imm10G off h))
  | onClear p => exact bindEq rfl (okGV (fun g v => Instr.setf g a v) (guardOf_onClear p) (imm10G off h))
theorem tfe (g : Guard) (d : PReg) (a : Reg) (off : Int) : Statement (.tfe g d a off) := by
  intro h
  cases g with
  | always => exact bindEq (narrow16 d) (congrArg (fun v => Except.ok (Instr.tfe .always d a v)) (imm10A off h))
  | onSet p => exact bindEq (narrow16 d) (okGV (fun g v => Instr.tfe g d a v) (guardOf_onSet p) (imm10G off h))
  | onClear p => exact bindEq (narrow16 d) (okGV (fun g v => Instr.tfe g d a v) (guardOf_onClear p) (imm10G off h))
theorem ldgB (g : Guard) (d a : Reg) (pol : Policy) (off : Int) : Statement (.ldgB g d a pol off) := by
  intro h
  cases g with
  | always => exact okPV (fun u v => Instr.ldgB .always d a u v) (polA pol off) (off8A pol off h)
  | onSet p => exact okGPV (fun g u v => Instr.ldgB g d a u v) (guardOf_onSet p) (polG pol off) (off8G pol off h)
  | onClear p => exact okGPV (fun g u v => Instr.ldgB g d a u v) (guardOf_onClear p) (polG pol off) (off8G pol off h)
theorem ldgH (g : Guard) (d a : Reg) (pol : Policy) (off : Int) : Statement (.ldgH g d a pol off) := by
  intro h
  cases g with
  | always => exact okPV (fun u v => Instr.ldgH .always d a u v) (polA pol off) (off8A pol off h)
  | onSet p => exact okGPV (fun g u v => Instr.ldgH g d a u v) (guardOf_onSet p) (polG pol off) (off8G pol off h)
  | onClear p => exact okGPV (fun g u v => Instr.ldgH g d a u v) (guardOf_onClear p) (polG pol off) (off8G pol off h)
theorem ldgW (g : Guard) (d a : Reg) (pol : Policy) (off : Int) : Statement (.ldgW g d a pol off) := by
  intro h
  cases g with
  | always => exact okPV (fun u v => Instr.ldgW .always d a u v) (polA pol off) (off8A pol off h)
  | onSet p => exact okGPV (fun g u v => Instr.ldgW g d a u v) (guardOf_onSet p) (polG pol off) (off8G pol off h)
  | onClear p => exact okGPV (fun g u v => Instr.ldgW g d a u v) (guardOf_onClear p) (polG pol off) (off8G pol off h)
theorem ldgD (g : Guard) (d a : Reg) (pol : Policy) (off : Int) : Statement (.ldgD g d a pol off) := by
  intro h
  cases g with
  | always => exact okPV (fun u v => Instr.ldgD .always d a u v) (polA pol off) (off8A pol off h)
  | onSet p => exact okGPV (fun g u v => Instr.ldgD g d a u v) (guardOf_onSet p) (polG pol off) (off8G pol off h)
  | onClear p => exact okGPV (fun g u v => Instr.ldgD g d a u v) (guardOf_onClear p) (polG pol off) (off8G pol off h)
theorem ldgBu (g : Guard) (d a : Reg) (pol : Policy) (off : Int) : Statement (.ldgBu g d a pol off) := by
  intro h
  cases g with
  | always => exact okPV (fun u v => Instr.ldgBu .always d a u v) (polA pol off) (off8A pol off h)
  | onSet p => exact okGPV (fun g u v => Instr.ldgBu g d a u v) (guardOf_onSet p) (polG pol off) (off8G pol off h)
  | onClear p => exact okGPV (fun g u v => Instr.ldgBu g d a u v) (guardOf_onClear p) (polG pol off) (off8G pol off h)
theorem ldgHu (g : Guard) (d a : Reg) (pol : Policy) (off : Int) : Statement (.ldgHu g d a pol off) := by
  intro h
  cases g with
  | always => exact okPV (fun u v => Instr.ldgHu .always d a u v) (polA pol off) (off8A pol off h)
  | onSet p => exact okGPV (fun g u v => Instr.ldgHu g d a u v) (guardOf_onSet p) (polG pol off) (off8G pol off h)
  | onClear p => exact okGPV (fun g u v => Instr.ldgHu g d a u v) (guardOf_onClear p) (polG pol off) (off8G pol off h)
theorem ldgWu (g : Guard) (d a : Reg) (pol : Policy) (off : Int) : Statement (.ldgWu g d a pol off) := by
  intro h
  cases g with
  | always => exact okPV (fun u v => Instr.ldgWu .always d a u v) (polA pol off) (off8A pol off h)
  | onSet p => exact okGPV (fun g u v => Instr.ldgWu g d a u v) (guardOf_onSet p) (polG pol off) (off8G pol off h)
  | onClear p => exact okGPV (fun g u v => Instr.ldgWu g d a u v) (guardOf_onClear p) (polG pol off) (off8G pol off h)
theorem stgB (g : Guard) (d a : Reg) (pol : Policy) (off : Int) : Statement (.stgB g d a pol off) := by
  intro h
  cases g with
  | always => exact okPV (fun u v => Instr.stgB .always d a u v) (polA pol off) (off8A pol off h)
  | onSet p => exact okGPV (fun g u v => Instr.stgB g d a u v) (guardOf_onSet p) (polG pol off) (off8G pol off h)
  | onClear p => exact okGPV (fun g u v => Instr.stgB g d a u v) (guardOf_onClear p) (polG pol off) (off8G pol off h)
theorem stgH (g : Guard) (d a : Reg) (pol : Policy) (off : Int) : Statement (.stgH g d a pol off) := by
  intro h
  cases g with
  | always => exact okPV (fun u v => Instr.stgH .always d a u v) (polA pol off) (off8A pol off h)
  | onSet p => exact okGPV (fun g u v => Instr.stgH g d a u v) (guardOf_onSet p) (polG pol off) (off8G pol off h)
  | onClear p => exact okGPV (fun g u v => Instr.stgH g d a u v) (guardOf_onClear p) (polG pol off) (off8G pol off h)
theorem stgW (g : Guard) (d a : Reg) (pol : Policy) (off : Int) : Statement (.stgW g d a pol off) := by
  intro h
  cases g with
  | always => exact okPV (fun u v => Instr.stgW .always d a u v) (polA pol off) (off8A pol off h)
  | onSet p => exact okGPV (fun g u v => Instr.stgW g d a u v) (guardOf_onSet p) (polG pol off) (off8G pol off h)
  | onClear p => exact okGPV (fun g u v => Instr.stgW g d a u v) (guardOf_onClear p) (polG pol off) (off8G pol off h)
theorem stgD (g : Guard) (d a : Reg) (pol : Policy) (off : Int) : Statement (.stgD g d a pol off) := by
  intro h
  cases g with
  | always => exact okPV (fun u v => Instr.stgD .always d a u v) (polA pol off) (off8A pol off h)
  | onSet p => exact okGPV (fun g u v => Instr.stgD g d a u v) (guardOf_onSet p) (polG pol off) (off8G pol off h)
  | onClear p => exact okGPV (fun g u v => Instr.stgD g d a u v) (guardOf_onClear p) (polG pol off) (off8G pol off h)
theorem ldcW (g : Guard) (d a : Reg) (off : Int) : Statement (.ldcW g d a off) := by
  intro h
  cases g with
  | always => exact congrArg (fun v => Except.ok (Instr.ldcW .always d a v)) (imm10A off h)
  | onSet p => exact okGV (fun g v => Instr.ldcW g d a v) (guardOf_onSet p) (imm10G off h)
  | onClear p => exact okGV (fun g v => Instr.ldcW g d a v) (guardOf_onClear p) (imm10G off h)
theorem ldcD (g : Guard) (d a : Reg) (off : Int) : Statement (.ldcD g d a off) := by
  intro h
  cases g with
  | always => exact congrArg (fun v => Except.ok (Instr.ldcD .always d a v)) (imm10A off h)
  | onSet p => exact okGV (fun g v => Instr.ldcD g d a v) (guardOf_onSet p) (imm10G off h)
  | onClear p => exact okGV (fun g v => Instr.ldcD g d a v) (guardOf_onClear p) (imm10G off h)
theorem ldcWu (g : Guard) (d a : Reg) (off : Int) : Statement (.ldcWu g d a off) := by
  intro h
  cases g with
  | always => exact congrArg (fun v => Except.ok (Instr.ldcWu .always d a v)) (imm10A off h)
  | onSet p => exact okGV (fun g v => Instr.ldcWu g d a v) (guardOf_onSet p) (imm10G off h)
  | onClear p => exact okGV (fun g v => Instr.ldcWu g d a v) (guardOf_onClear p) (imm10G off h)
theorem cinvC (g : Guard) : Statement (.cinvC g) := fun _ => bindEq (guardR_enc g _ _ _ _ _) (bindEq rfl rfl)
theorem cfl (g : Guard) (a : Reg) (off : Int) : Statement (.cfl g a off) := by
  intro h
  cases g with
  | always => exact bindEq rfl (congrArg (fun v => Except.ok (Instr.cfl .always a v)) (imm10A off h))
  | onSet p => exact bindEq rfl (okGV (fun g v => Instr.cfl g a v) (guardOf_onSet p) (imm10G off h))
  | onClear p => exact bindEq rfl (okGV (fun g v => Instr.cfl g a v) (guardOf_onClear p) (imm10G off h))
theorem cinvl (g : Guard) (a : Reg) (off : Int) : Statement (.cinvl g a off) := by
  intro h
  cases g with
  | always => exact bindEq rfl (congrArg (fun v => Except.ok (Instr.cinvl .always a v)) (imm10A off h))
  | onSet p => exact bindEq rfl (okGV (fun g v => Instr.cinvl g a v) (guardOf_onSet p) (imm10G off h))
  | onClear p => exact bindEq rfl (okGV (fun g v => Instr.cinvl g a v) (guardOf_onClear p) (imm10G off h))
theorem cpf (g : Guard) (a : Reg) (off : Int) : Statement (.cpf g a off) := by
  intro h
  cases g with
  | always => exact bindEq rfl (congrArg (fun v => Except.ok (Instr.cpf .always a v)) (imm10A off h))
  | onSet p => exact bindEq rfl (okGV (fun g v => Instr.cpf g a v) (guardOf_onSet p) (imm10G off h))
  | onClear p => exact bindEq rfl (okGV (fun g v => Instr.cpf g a v) (guardOf_onClear p) (imm10G off h))
theorem aadd (g : Guard) (d a b : Reg) : Statement (.aadd g d a b) := fun _ => bindEq (guardR_enc g _ _ _ _ _) rfl
theorem aand (g : Guard) (d a b : Reg) : Statement (.aand g d a b) := fun _ => bindEq (guardR_enc g _ _ _ _ _) rfl
theorem aor (g : Guard) (d a b : Reg) : Statement (.aor g d a b) := fun _ => bindEq (guardR_enc g _ _ _ _ _) rfl
theorem axor (g : Guard) (d a b : Reg) : Statement (.axor g d a b) := fun _ => bindEq (guardR_enc g _ _ _ _ _) rfl
theorem amin (g : Guard) (d a b : Reg) : Statement (.amin g d a b) := fun _ => bindEq (guardR_enc g _ _ _ _ _) rfl
theorem amax (g : Guard) (d a b : Reg) : Statement (.amax g d a b) := fun _ => bindEq (guardR_enc g _ _ _ _ _) rfl
theorem aminu (g : Guard) (d a b : Reg) : Statement (.aminu g d a b) := fun _ => bindEq (guardR_enc g _ _ _ _ _) rfl
theorem aswap (g : Guard) (d a b : Reg) : Statement (.aswap g d a b) := fun _ => bindEq (guardR_enc g _ _ _ _ _) rfl
theorem acas (g : Guard) (d a b : Reg) : Statement (.acas g d a b) := fun _ => bindEq (guardR_enc g _ _ _ _ _) rfl
theorem redadd (g : Guard) (a b : Reg) : Statement (.redadd g a b) := fun _ => bindEq (guardR_enc g _ _ _ _ _) (bindEq rfl rfl)
theorem redand (g : Guard) (a b : Reg) : Statement (.redand g a b) := fun _ => bindEq (guardR_enc g _ _ _ _ _) (bindEq rfl rfl)
theorem redor (g : Guard) (a b : Reg) : Statement (.redor g a b) := fun _ => bindEq (guardR_enc g _ _ _ _ _) (bindEq rfl rfl)
theorem redxor (g : Guard) (a b : Reg) : Statement (.redxor g a b) := fun _ => bindEq (guardR_enc g _ _ _ _ _) (bindEq rfl rfl)
theorem redmin (g : Guard) (a b : Reg) : Statement (.redmin g a b) := fun _ => bindEq (guardR_enc g _ _ _ _ _) (bindEq rfl rfl)
theorem redmax (g : Guard) (a b : Reg) : Statement (.redmax g a b) := fun _ => bindEq (guardR_enc g _ _ _ _ _) (bindEq rfl rfl)
theorem fenceAcq (g : Guard) (scope : Scope) : Statement (.fenceAcq g scope) := fun _ => bindEq (guardR_enc g _ _ _ _ _) (bindEq (scope_enc scope) (bindEq rfl rfl))
theorem fenceRel (g : Guard) (scope : Scope) : Statement (.fenceRel g scope) := fun _ => bindEq (guardR_enc g _ _ _ _ _) (bindEq (scope_enc scope) (bindEq rfl rfl))
theorem fenceFull (g : Guard) (scope : Scope) : Statement (.fenceFull g scope) := fun _ => bindEq (guardR_enc g _ _ _ _ _) (bindEq (scope_enc scope) (bindEq rfl rfl))
theorem ldaD (g : Guard) (d a : Reg) (scope : Scope) : Statement (.ldaD g d a scope) := fun _ => bindEq (guardR_enc g _ _ _ _ _) (bindEq (scope_enc scope) rfl)
theorem stlD (g : Guard) (d a : Reg) (scope : Scope) : Statement (.stlD g d a scope) := fun _ => bindEq (guardR_enc g _ _ _ _ _) (bindEq (scope_enc scope) rfl)
theorem ldaW (g : Guard) (d a : Reg) (scope : Scope) : Statement (.ldaW g d a scope) := fun _ => bindEq (guardR_enc g _ _ _ _ _) (bindEq (scope_enc scope) rfl)
theorem stlW (g : Guard) (d a : Reg) (scope : Scope) : Statement (.stlW g d a scope) := fun _ => bindEq (guardR_enc g _ _ _ _ _) (bindEq (scope_enc scope) rfl)
theorem ldv (g : Guard) (d a b : Reg) : Statement (.ldv g d a b) := fun _ => bindEq (guardR_enc g _ _ _ _ _) rfl
theorem ldvn (g : Guard) (d a b : Reg) : Statement (.ldvn g d a b) := fun _ => bindEq (guardR_enc g _ _ _ _ _) rfl
theorem stv (g : Guard) (d a b : Reg) : Statement (.stv g d a b) := fun _ => bindEq (guardR_enc g _ _ _ _ _) rfl
theorem recl (g : Guard) (a b : Reg) : Statement (.recl g a b) := fun _ => bindEq (guardR_enc g _ _ _ _ _) (bindEq rfl rfl)
theorem hand (g : Guard) (a b : Reg) : Statement (.hand g a b) := fun _ => bindEq (guardR_enc g _ _ _ _ _) (bindEq rfl rfl)
theorem opush (g : Guard) (d a b : Reg) : Statement (.opush g d a b) := fun _ => bindEq (guardR_enc g _ _ _ _ _) rfl
theorem opop (g : Guard) (d a : Reg) : Statement (.opop g d a) := fun _ => bindEq (guardR_enc g _ _ _ _ _) (bindEq rfl rfl)
theorem ocnt (g : Guard) (d a : Reg) : Statement (.ocnt g d a) := fun _ => bindEq (guardR_enc g _ _ _ _ _) (bindEq rfl rfl)
theorem vaddW (g : Guard) (d a b : Reg) : Statement (.vaddW g d a b) := fun _ => bindEq (guardR_enc g _ _ _ _ _) rfl
theorem vsubW (g : Guard) (d a b : Reg) : Statement (.vsubW g d a b) := fun _ => bindEq (guardR_enc g _ _ _ _ _) rfl
theorem vmulW (g : Guard) (d a b : Reg) : Statement (.vmulW g d a b) := fun _ => bindEq (guardR_enc g _ _ _ _ _) rfl
theorem vmulhW (g : Guard) (d a b : Reg) : Statement (.vmulhW g d a b) := fun _ => bindEq (guardR_enc g _ _ _ _ _) rfl
theorem vminW (g : Guard) (d a b : Reg) : Statement (.vminW g d a b) := fun _ => bindEq (guardR_enc g _ _ _ _ _) rfl
theorem vmaxW (g : Guard) (d a b : Reg) : Statement (.vmaxW g d a b) := fun _ => bindEq (guardR_enc g _ _ _ _ _) rfl
theorem vminuW (g : Guard) (d a b : Reg) : Statement (.vminuW g d a b) := fun _ => bindEq (guardR_enc g _ _ _ _ _) rfl
theorem vmaxuW (g : Guard) (d a b : Reg) : Statement (.vmaxuW g d a b) := fun _ => bindEq (guardR_enc g _ _ _ _ _) rfl
theorem vaddH (g : Guard) (d a b : Reg) : Statement (.vaddH g d a b) := fun _ => bindEq (guardR_enc g _ _ _ _ _) rfl
theorem vsubH (g : Guard) (d a b : Reg) : Statement (.vsubH g d a b) := fun _ => bindEq (guardR_enc g _ _ _ _ _) rfl
theorem vmulH (g : Guard) (d a b : Reg) : Statement (.vmulH g d a b) := fun _ => bindEq (guardR_enc g _ _ _ _ _) rfl
theorem vmulhH (g : Guard) (d a b : Reg) : Statement (.vmulhH g d a b) := fun _ => bindEq (guardR_enc g _ _ _ _ _) rfl
theorem vminH (g : Guard) (d a b : Reg) : Statement (.vminH g d a b) := fun _ => bindEq (guardR_enc g _ _ _ _ _) rfl
theorem vmaxH (g : Guard) (d a b : Reg) : Statement (.vmaxH g d a b) := fun _ => bindEq (guardR_enc g _ _ _ _ _) rfl
theorem vminuH (g : Guard) (d a b : Reg) : Statement (.vminuH g d a b) := fun _ => bindEq (guardR_enc g _ _ _ _ _) rfl
theorem vmaxuH (g : Guard) (d a b : Reg) : Statement (.vmaxuH g d a b) := fun _ => bindEq (guardR_enc g _ _ _ _ _) rfl
theorem vaddB (g : Guard) (d a b : Reg) : Statement (.vaddB g d a b) := fun _ => bindEq (guardR_enc g _ _ _ _ _) rfl
theorem vsubB (g : Guard) (d a b : Reg) : Statement (.vsubB g d a b) := fun _ => bindEq (guardR_enc g _ _ _ _ _) rfl
theorem vaddsB (g : Guard) (d a b : Reg) : Statement (.vaddsB g d a b) := fun _ => bindEq (guardR_enc g _ _ _ _ _) rfl
theorem vsubsB (g : Guard) (d a b : Reg) : Statement (.vsubsB g d a b) := fun _ => bindEq (guardR_enc g _ _ _ _ _) rfl
theorem vminB (g : Guard) (d a b : Reg) : Statement (.vminB g d a b) := fun _ => bindEq (guardR_enc g _ _ _ _ _) rfl
theorem vmaxB (g : Guard) (d a b : Reg) : Statement (.vmaxB g d a b) := fun _ => bindEq (guardR_enc g _ _ _ _ _) rfl
theorem vminuB (g : Guard) (d a b : Reg) : Statement (.vminuB g d a b) := fun _ => bindEq (guardR_enc g _ _ _ _ _) rfl
theorem vmaxuB (g : Guard) (d a b : Reg) : Statement (.vmaxuB g d a b) := fun _ => bindEq (guardR_enc g _ _ _ _ _) rfl
theorem vand (g : Guard) (d a b : Reg) : Statement (.vand g d a b) := fun _ => bindEq (guardR_enc g _ _ _ _ _) rfl
theorem vor (g : Guard) (d a b : Reg) : Statement (.vor g d a b) := fun _ => bindEq (guardR_enc g _ _ _ _ _) rfl
theorem vxor (g : Guard) (d a b : Reg) : Statement (.vxor g d a b) := fun _ => bindEq (guardR_enc g _ _ _ _ _) rfl
theorem vandn (g : Guard) (d a b : Reg) : Statement (.vandn g d a b) := fun _ => bindEq (guardR_enc g _ _ _ _ _) rfl
theorem vshlW (g : Guard) (d a b : Reg) : Statement (.vshlW g d a b) := fun _ => bindEq (guardR_enc g _ _ _ _ _) rfl
theorem vshrW (g : Guard) (d a b : Reg) : Statement (.vshrW g d a b) := fun _ => bindEq (guardR_enc g _ _ _ _ _) rfl
theorem vsraW (g : Guard) (d a b : Reg) : Statement (.vsraW g d a b) := fun _ => bindEq (guardR_enc g _ _ _ _ _) rfl
theorem vnot (g : Guard) (d a : Reg) : Statement (.vnot g d a) := fun _ => bindEq (guardR_enc g _ _ _ _ _) (bindEq rfl rfl)
theorem vfaddS (g : Guard) (d a b : Reg) : Statement (.vfaddS g d a b) := fun _ => bindEq (guardR_enc g _ _ _ _ _) rfl
theorem vfsubS (g : Guard) (d a b : Reg) : Statement (.vfsubS g d a b) := fun _ => bindEq (guardR_enc g _ _ _ _ _) rfl
theorem vfmulS (g : Guard) (d a b : Reg) : Statement (.vfmulS g d a b) := fun _ => bindEq (guardR_enc g _ _ _ _ _) rfl
theorem vfmaS (g : Guard) (d a b : Reg) : Statement (.vfmaS g d a b) := fun _ => bindEq (guardR_enc g _ _ _ _ _) rfl
theorem vfminS (g : Guard) (d a b : Reg) : Statement (.vfminS g d a b) := fun _ => bindEq (guardR_enc g _ _ _ _ _) rfl
theorem vfmaxS (g : Guard) (d a b : Reg) : Statement (.vfmaxS g d a b) := fun _ => bindEq (guardR_enc g _ _ _ _ _) rfl
theorem vfabsS (g : Guard) (d a : Reg) : Statement (.vfabsS g d a) := fun _ => bindEq (guardR_enc g _ _ _ _ _) (bindEq rfl rfl)
theorem vfnegS (g : Guard) (d a : Reg) : Statement (.vfnegS g d a) := fun _ => bindEq (guardR_enc g _ _ _ _ _) (bindEq rfl rfl)
theorem vfaddBf (g : Guard) (d a b : Reg) : Statement (.vfaddBf g d a b) := fun _ => bindEq (guardR_enc g _ _ _ _ _) rfl
theorem vfsubBf (g : Guard) (d a b : Reg) : Statement (.vfsubBf g d a b) := fun _ => bindEq (guardR_enc g _ _ _ _ _) rfl
theorem vfmulBf (g : Guard) (d a b : Reg) : Statement (.vfmulBf g d a b) := fun _ => bindEq (guardR_enc g _ _ _ _ _) rfl
theorem vfmaBf (g : Guard) (d a b : Reg) : Statement (.vfmaBf g d a b) := fun _ => bindEq (guardR_enc g _ _ _ _ _) rfl
theorem vfminBf (g : Guard) (d a b : Reg) : Statement (.vfminBf g d a b) := fun _ => bindEq (guardR_enc g _ _ _ _ _) rfl
theorem vfmaxBf (g : Guard) (d a b : Reg) : Statement (.vfmaxBf g d a b) := fun _ => bindEq (guardR_enc g _ _ _ _ _) rfl
theorem vfdotBf (g : Guard) (d a b : Reg) : Statement (.vfdotBf g d a b) := fun _ => bindEq (guardR_enc g _ _ _ _ _) rfl
theorem vrcpS (g : Guard) (d a : Reg) : Statement (.vrcpS g d a) := fun _ => bindEq (guardR_enc g _ _ _ _ _) (bindEq rfl rfl)
theorem vrsqS (g : Guard) (d a : Reg) : Statement (.vrsqS g d a) := fun _ => bindEq (guardR_enc g _ _ _ _ _) (bindEq rfl rfl)
theorem vexp2S (g : Guard) (d a : Reg) : Statement (.vexp2S g d a) := fun _ => bindEq (guardR_enc g _ _ _ _ _) (bindEq rfl rfl)
theorem vlog2S (g : Guard) (d a : Reg) : Statement (.vlog2S g d a) := fun _ => bindEq (guardR_enc g _ _ _ _ _) (bindEq rfl rfl)
theorem vsqrtS (g : Guard) (d a : Reg) : Statement (.vsqrtS g d a) := fun _ => bindEq (guardR_enc g _ _ _ _ _) (bindEq rfl rfl)
theorem vdivS (g : Guard) (d a b : Reg) : Statement (.vdivS g d a b) := fun _ => bindEq (guardR_enc g _ _ _ _ _) rfl
theorem vfloorS (g : Guard) (d a : Reg) : Statement (.vfloorS g d a) := fun _ => bindEq (guardR_enc g _ _ _ _ _) (bindEq rfl rfl)
theorem vtanhS (g : Guard) (d a : Reg) : Statement (.vtanhS g d a) := fun _ => bindEq (guardR_enc g _ _ _ _ _) (bindEq rfl rfl)
theorem vcmp (g : Guard) (p : PReg) (a b : Reg) (cc : ICond) : Statement (.vcmp g p a b cc) := fun _ => words_vcmp g p a b cc
theorem vcmpF (g : Guard) (p : PReg) (a b : Reg) (cc : FCond) : Statement (.vcmpF g p a b cc) := fun _ => words_vcmpF g p a b cc
theorem vbcast (g : Guard) (d a : Reg) : Statement (.vbcast g d a) := fun _ => bindEq (guardR_enc g _ _ _ _ _) (bindEq rfl rfl)
theorem vbcastf (g : Guard) (d a : Reg) : Statement (.vbcastf g d a) := fun _ => bindEq (guardR_enc g _ _ _ _ _) (bindEq rfl rfl)
theorem vext (g : Guard) (d a b : Reg) : Statement (.vext g d a b) := fun _ => bindEq (guardR_enc g _ _ _ _ _) rfl
theorem vins (g : Guard) (d a b : Reg) : Statement (.vins g d a b) := fun _ => bindEq (guardR_enc g _ _ _ _ _) rfl
theorem vperm (g : Guard) (d a b : Reg) : Statement (.vperm g d a b) := fun _ => bindEq (guardR_enc g _ _ _ _ _) rfl
theorem viota (g : Guard) (d : Reg) : Statement (.viota g d) := fun _ => bindEq (guardR_enc g _ _ _ _ _) (bindEq rfl rfl)
theorem vmov (g : Guard) (d a : Reg) : Statement (.vmov g d a) := fun _ => bindEq (guardR_enc g _ _ _ _ _) (bindEq rfl rfl)
theorem vslide (g : Guard) (d a b : Reg) : Statement (.vslide g d a b) := fun _ => bindEq (guardR_enc g _ _ _ _ _) rfl
theorem vld (g : Guard) (d a : Reg) (off : Int) : Statement (.vld g d a off) := by
  intro h
  cases g with
  | always => exact congrArg (fun v => Except.ok (Instr.vld .always d a v)) (imm10A off h)
  | onSet p => exact okGV (fun g v => Instr.vld g d a v) (guardOf_onSet p) (imm10G off h)
  | onClear p => exact okGV (fun g v => Instr.vld g d a v) (guardOf_onClear p) (imm10G off h)
theorem vst (g : Guard) (d a : Reg) (off : Int) : Statement (.vst g d a off) := by
  intro h
  cases g with
  | always => exact congrArg (fun v => Except.ok (Instr.vst .always d a v)) (imm10A off h)
  | onSet p => exact okGV (fun g v => Instr.vst g d a v) (guardOf_onSet p) (imm10G off h)
  | onClear p => exact okGV (fun g v => Instr.vst g d a v) (guardOf_onClear p) (imm10G off h)
theorem vldf (g : Guard) (d a : Reg) (off : Int) : Statement (.vldf g d a off) := by
  intro h
  cases g with
  | always => exact congrArg (fun v => Except.ok (Instr.vldf .always d a v)) (imm10A off h)
  | onSet p => exact okGV (fun g v => Instr.vldf g d a v) (guardOf_onSet p) (imm10G off h)
  | onClear p => exact okGV (fun g v => Instr.vldf g d a v) (guardOf_onClear p) (imm10G off h)
theorem vste (g : Guard) (d a : Reg) (off : Int) : Statement (.vste g d a off) := by
  intro h
  cases g with
  | always => exact congrArg (fun v => Except.ok (Instr.vste .always d a v)) (imm10A off h)
  | onSet p => exact okGV (fun g v => Instr.vste g d a v) (guardOf_onSet p) (imm10G off h)
  | onClear p => exact okGV (fun g v => Instr.vste g d a v) (guardOf_onClear p) (imm10G off h)
theorem vlds (g : Guard) (d a b : Reg) : Statement (.vlds g d a b) := fun _ => bindEq (guardR_enc g _ _ _ _ _) rfl
theorem vsts (g : Guard) (d a b : Reg) : Statement (.vsts g d a b) := fun _ => bindEq (guardR_enc g _ _ _ _ _) rfl
theorem vgath (g : Guard) (d a b : Reg) : Statement (.vgath g d a b) := fun _ => bindEq (guardR_enc g _ _ _ _ _) rfl
theorem vscat (g : Guard) (d a b : Reg) : Statement (.vscat g d a b) := fun _ => bindEq (guardR_enc g _ _ _ _ _) rfl
theorem vstf (g : Guard) (d a : Reg) : Statement (.vstf g d a) := fun _ => bindEq (guardR_enc g _ _ _ _ _) (bindEq rfl rfl)
theorem vrsumS (g : Guard) (d a : Reg) : Statement (.vrsumS g d a) := fun _ => bindEq (guardR_enc g _ _ _ _ _) (bindEq rfl rfl)
theorem vrmaxS (g : Guard) (d a : Reg) : Statement (.vrmaxS g d a) := fun _ => bindEq (guardR_enc g _ _ _ _ _) (bindEq rfl rfl)
theorem vrminS (g : Guard) (d a : Reg) : Statement (.vrminS g d a) := fun _ => bindEq (guardR_enc g _ _ _ _ _) (bindEq rfl rfl)
theorem vrsumW (g : Guard) (d a : Reg) : Statement (.vrsumW g d a) := fun _ => bindEq (guardR_enc g _ _ _ _ _) (bindEq rfl rfl)
theorem vscanS (g : Guard) (d a : Reg) : Statement (.vscanS g d a) := fun _ => bindEq (guardR_enc g _ _ _ _ _) (bindEq rfl rfl)
theorem vcavS (g : Guard) (d a : Reg) : Statement (.vcavS g d a) := fun _ => bindEq (guardR_enc g _ _ _ _ _) (bindEq rfl rfl)
theorem vcavmS (g : Guard) (d a : Reg) : Statement (.vcavmS g d a) := fun _ => bindEq (guardR_enc g _ _ _ _ _) (bindEq rfl rfl)
theorem vdot4B (g : Guard) (d a b : Reg) : Statement (.vdot4B g d a b) := fun _ => bindEq (guardR_enc g _ _ _ _ _) rfl
theorem vcvtSBf (g : Guard) (d a : Reg) : Statement (.vcvtSBf g d a) := fun _ => bindEq (guardR_enc g _ _ _ _ _) (bindEq rfl rfl)
theorem vcvtBfS (g : Guard) (d a : Reg) : Statement (.vcvtBfS g d a) := fun _ => bindEq (guardR_enc g _ _ _ _ _) (bindEq rfl rfl)
theorem vcvtSW (g : Guard) (d a : Reg) : Statement (.vcvtSW g d a) := fun _ => bindEq (guardR_enc g _ _ _ _ _) (bindEq rfl rfl)
theorem vcvtWS (g : Guard) (d a : Reg) : Statement (.vcvtWS g d a) := fun _ => bindEq (guardR_enc g _ _ _ _ _) (bindEq rfl rfl)
theorem vcvtE4S (g : Guard) (d a b : Reg) : Statement (.vcvtE4S g d a b) := fun _ => bindEq (guardR_enc g _ _ _ _ _) rfl
theorem vcvtSE4 (g : Guard) (d a b : Reg) : Statement (.vcvtSE4 g d a b) := fun _ => bindEq (guardR_enc g _ _ _ _ _) rfl
theorem vcvtE5S (g : Guard) (d a b : Reg) : Statement (.vcvtE5S g d a b) := fun _ => bindEq (guardR_enc g _ _ _ _ _) rfl
theorem vcvtSE5 (g : Guard) (d a b : Reg) : Statement (.vcvtSE5 g d a b) := fun _ => bindEq (guardR_enc g _ _ _ _ _) rfl
theorem xqW (g : Guard) (d a : Reg) : Statement (.xqW g d a) := fun h => bindEq (guardR_enc g _ _ _ _ _) (bindEq (needLe h) (bindEq rfl rfl))
theorem xqT (g : Guard) (d a : Reg) : Statement (.xqT g d a) := fun h => bindEq (guardR_enc g _ _ _ _ _) (bindEq (needLe h) (bindEq rfl rfl))
theorem xdone (g : Guard) (d a : Reg) : Statement (.xdone g d a) := fun _ => bindEq (guardR_enc g _ _ _ _ _) (bindEq rfl rfl)
theorem xwait (g : Guard) (a b : Reg) : Statement (.xwait g a b) := fun _ => bindEq (guardR_enc g _ _ _ _ _) (bindEq rfl rfl)
theorem xstat (g : Guard) (d a b : Reg) : Statement (.xstat g d a b) := fun _ => bindEq (guardR_enc g _ _ _ _ _) rfl
theorem xclr (g : Guard) (a : Reg) : Statement (.xclr g a) := fun _ => bindEq (guardR_enc g _ _ _ _ _) (bindEq rfl rfl)
theorem xenc (g : Guard) (d a b : Reg) : Statement (.xenc g d a b) := fun _ => bindEq (guardR_enc g _ _ _ _ _) rfl
theorem xdec (g : Guard) (d a : Reg) : Statement (.xdec g d a) := fun _ => bindEq (guardR_enc g _ _ _ _ _) (bindEq rfl rfl)
theorem movC (d a : Reg) : Statement (.movC d a) := fun h => ⟨fmt0, words_movC d a h⟩
theorem addC (d a : Reg) : Statement (.addC d a) := fun _ => ⟨fmt0, bindEq (even a) (congrArg (fun v => Except.ok (Instr.addC d v)) (half a))⟩
theorem subC (d a : Reg) : Statement (.subC d a) := fun _ => ⟨fmt0, bindEq (even a) (congrArg (fun v => Except.ok (Instr.subC d v)) (half a))⟩
theorem andC (d a : Reg) : Statement (.andC d a) := fun _ => ⟨fmt0, bindEq (even a) (congrArg (fun v => Except.ok (Instr.andC d v)) (half a))⟩
theorem orC (d a : Reg) : Statement (.orC d a) := fun _ => ⟨fmt0, bindEq (even a) (congrArg (fun v => Except.ok (Instr.orC d v)) (half a))⟩
theorem xorC (d a : Reg) : Statement (.xorC d a) := fun _ => ⟨fmt0, bindEq (even a) (congrArg (fun v => Except.ok (Instr.xorC d v)) (half a))⟩
theorem lddC (d a : Reg) : Statement (.lddC d a) := fun _ => ⟨fmt0, bindEq (even a) (congrArg (fun v => Except.ok (Instr.lddC d v)) (half a))⟩
theorem stdC (d a : Reg) : Statement (.stdC d a) := fun _ => ⟨fmt0, bindEq (even a) (congrArg (fun v => Except.ok (Instr.stdC d v)) (half a))⟩
theorem addiC (d : Reg) (imm : Int) : Statement (.addiC d imm) := fun h => ⟨fmt1, congrArg (fun v => Except.ok (Instr.addiC d v)) (imm6 imm h)⟩
theorem ldiC (d : Reg) (imm : Int) : Statement (.ldiC d imm) := fun h => ⟨fmt1, congrArg (fun v => Except.ok (Instr.ldiC d v)) (imm6 imm h)⟩
theorem shliC (d : Reg) (imm : Nat) : Statement (.shliC d imm) := fun h => ⟨fmt1, congrArg (fun v => Except.ok (Instr.shliC d v)) (nat6 imm h)⟩
theorem shriC (d : Reg) (imm : Nat) : Statement (.shriC d imm) := fun h => ⟨fmt1, congrArg (fun v => Except.ok (Instr.shriC d v)) (nat6 imm h)⟩
theorem sraiC (d : Reg) (imm : Nat) : Statement (.sraiC d imm) := fun h => ⟨fmt1, congrArg (fun v => Except.ok (Instr.sraiC d v)) (nat6 imm h)⟩
theorem andiC (d : Reg) (imm : Int) : Statement (.andiC d imm) := fun h => ⟨fmt1, congrArg (fun v => Except.ok (Instr.andiC d v)) (imm6 imm h)⟩
theorem ldsC (d : Reg) (imm : Nat) : Statement (.ldsC d imm) := fun h => ⟨fmt1, congrArg (fun v => Except.ok (Instr.ldsC d v)) (nat6 imm h)⟩
theorem stsC (d : Reg) (imm : Nat) : Statement (.stsC d imm) := fun h => ⟨fmt1, congrArg (fun v => Except.ok (Instr.stsC d v)) (nat6 imm h)⟩
theorem go (n : Fin 8) : Statement (.go n) := fun _ => ⟨fmt2, words_go n⟩
theorem goGuarded (n : Fin 8) (sense : Bool) (p : PReg) : Statement (.goGuarded n sense p) := fun _ => ⟨fmt2, words_goGuarded n sense p⟩
theorem call (n : Fin 8) : Statement (.call n) := fun _ => ⟨fmt2, words_call n⟩
theorem callGuarded (n : Fin 8) (sense : Bool) (p : PReg) : Statement (.callGuarded n sense p) := fun _ => ⟨fmt2, words_callGuarded n sense p⟩
theorem nopC : Statement (.nopC) := fun _ => ⟨fmt2, rfl⟩
theorem endC : Statement (.endC) := fun _ => ⟨fmt2, rfl⟩
theorem beatC : Statement (.beatC) := fun _ => ⟨fmt2, rfl⟩
theorem syncC : Statement (.syncC) := fun _ => ⟨fmt2, rfl⟩
theorem brkC : Statement (.brkC) := fun _ => ⟨fmt2, rfl⟩

end Sys2Proof.Laws.Words
end

