-- ==== Sys2Proof/Tests/Slice0.lean ====
section
/-! SUPPORT. The model's own tests: small named theorems, each about one word or one step, and for each statement of
Certificates/Slice0/Obligations.lean a state and operands that meet the hypotheses of its clauses. -/

namespace Sys2Proof.Tests

open Sys2Proof.Machine

/-! ## Ill-formed terms are refused by each check of WellFormed -/

theorem test_wf_imm13 : (Instr.addi .always 1 2 4096).wf = false := by decide
theorem test_wf_imm8 : (Instr.addi (.onSet 1) 1 2 128).wf = false := by decide
theorem test_wf_shift : (Instr.shli (.onSet 1) 1 2 32).wf = false := by decide
theorem test_wf_cmpi : (Instr.cmpi .always 1 2 512 .eq).wf = false := by decide
theorem test_wf_off8 : (Instr.ldgD .always 1 2 .normal 128).wf = false := by decide
theorem test_wf_imm18 : (Instr.ldi 1 131072).wf = false := by decide
theorem test_wf_imm6 : (Instr.addiC 1 32).wf = false := by decide
theorem test_wf_uimm6 : (Instr.ldsC 1 64).wf = false := by decide
theorem test_wf_send2 : (Instr.send2 .always 31 1 2).wf = false := by decide
theorem test_wf_xq : (Instr.xqW .always 1 29).wf = false := by decide
theorem test_wf_movC : (Instr.movC 0 0).wf = false := by decide

/-! ## Words of the spec beside their instructions (R202 to R206), one or more for each major opcode

Where the spec prints a word, it is that word; the others are put together from the fields of R202 and R204. -/

theorem test_dec_01 : decodeTableWord 32 0xC0052958 = some (.add .always 9 9 11) := by decide
-- MAJ 0x02, G 1, S 1, P 3: 11 1 1 0011 000010 00001 00010 00011 010
theorem test_dec_02 : decodeTableWord 32 0xF308221A = some (.shl (.onClear 3) 1 2 3) := by decide
theorem test_dec_03 : decodeTableWord 32 0xC00DA952 = some (.mulhiU .always 13 9 10) := by decide
-- MAJ 0x04: 11 0 00000 000100 00001 00010 00000 010
theorem test_dec_04 : decodeTableWord 32 0xC0102202 = some (.popc .always 1 2) := by decide
theorem test_dec_05 : decodeTableWord 32 0xC0157D53 = some (.lea .always 11 29 10 3) := by decide
theorem test_dec_06 : decodeTableWord 32 0xC0182900 = some (.yld .always 1 9) := by decide
-- MAJ 0x07: 11 0 00000 000111 00001 00010 00011 111
theorem test_dec_07 : decodeTableWord 32 0xC01C221F = some (.remw .always 1 2 3) := by decide
theorem test_dec_08 : decodeTableWord 32 0xC022D480 = some (.addi .always 22 20 128) := by decide
-- MAJ 0x0A, G 1, S 0, P 2, imm8 = -3: 11 1 0 0010 001010 00001 00010 11111 101
theorem test_dec_0a : decodeTableWord 32 0xE22822FD = some (.ori (.onSet 2) 1 2 (-3)) := by decide
theorem test_dec_0c : decodeTableWord 32 0xC03211F0 = some (.shli .always 16 17 30) := by decide
-- MAJ 0x0D, imm18 = -1: 11 0 11111 001101 00001 11111 11111 111
theorem test_dec_0d : decodeTableWord 32 0xDF343FFF = some (.ldi 1 (-1)) := by decide
theorem test_dec_0e : decodeTableWord 32 0xC839A02C = some (.seth 13 44 1) := by decide
theorem test_dec_0f : decodeTableWord 32 0xC03C3801 = some (.cmpi .always 1 24 0 .ne) := by decide
theorem test_dec_10 : decodeTableWord 32 0xC0402953 = some (.cmp .always 1 9 10 .ge) := by decide
-- MAJ 0x11: 11 0 00000 010001 00010 00001 00011 110
theorem test_dec_11 : decodeTableWord 32 0xC044411E = some (.fcmp .always 2 1 3 .un) := by decide
-- MAJ 0x12: 11 0 00000 010010 00001 00010 00011 011
theorem test_dec_12 : decodeTableWord 32 0xC048221B = some (.pandn .always 1 2 3) := by decide
theorem test_dec_13 : decodeTableWord 32 0xC04D4307 = some (.fkind .always 10 3) := by decide
theorem test_dec_14 : decodeTableWord 32 0xC0506110 = some (.fadd .always 3 1 2) := by decide
-- MAJ 0x15: FCVT.FX x1, f2, RUP (mode 3): 11 0 00000 010101 00001 00010 00011 101
theorem test_dec_15 : decodeTableWord 32 0xC054221D = some (.fcvtFx .always 1 2 .rup) := by decide
theorem test_dec_16 : decodeTableWord 32 0xC058A902 = some (.cext .always 5 9) := by decide
theorem test_dec_17 : decodeTableWord 32 0xC05C15A0 = some (.mma 0 0 21 20 .xf8) := by decide
theorem test_dec_18 : decodeTableWord 32 0xC0602002 = some (.prep 1 2) := by decide
theorem test_dec_19 : decodeTableWord 32 0xC0646700 = some (.prepx .always 3 7) := by decide
theorem test_dec_1a : decodeTableWord 32 0xC0680907 = some (.idle .always 9) := by decide
theorem test_dec_1b : decodeTableWord 32 0xC06C0005 = some (.trap .always 5) := by decide
theorem test_dec_1c : decodeTableWord 32 0xC0722010 = some (.mfs 17 .coreId) := by decide
theorem test_dec_1d : decodeTableWord 32 0xC0752044 = some (.mts .tvec 9) := by decide
theorem test_dec_1e : decodeTableWord 32 0xC0792002 = some (.clk .always 9) := by decide
theorem test_dec_1f : decodeTableWord 32 0xC07C824A = some (.mrd .always 4 2 9) := by decide
theorem test_dec_20 : decodeTableWord 32 0xC0802B62 = some (.send4 .always 1 11 12) := by decide
theorem test_dec_21 : decodeTableWord 32 0xC0840A5B = some (.hold .always 10 11) := by decide
theorem test_dec_22 : decodeTableWord 32 0xC0892A04 = some (.cntrd .always 9 10) := by decide
theorem test_dec_23 : decodeTableWord 32 0xC08C0957 = some (.tlbi .always 9 10) := by decide
theorem test_dec_24 : decodeTableWord 32 0xDF913FFB = some (.ldd .always 9 31 (-1)) := by decide
theorem test_dec_25 : decodeTableWord 32 0xC094BC38 = some (.stb .always 5 28 7) := by decide
theorem test_dec_26 : decodeTableWord 32 0xC0993C52 = some (.ldxw .always 9 28 10) := by decide
theorem test_dec_27 : decodeTableWord 32 0xC09D3C53 = some (.stxd .always 9 28 10) := by decide
theorem test_dec_28 : decodeTableWord 32 0xC3A169F8 = some (.ldf .always 11 9 127) := by decide
theorem test_dec_29 : decodeTableWord 32 0xC0A55453 = some (.ldgD .always 10 20 .stream 2) := by decide
theorem test_dec_2a : decodeTableWord 32 0xC0A9340B = some (.stgD .always 9 20 .normal 1) := by decide
theorem test_dec_2b : decodeTableWord 32 0xC0AD3409 = some (.ldcD .always 9 20 1) := by decide
theorem test_dec_2c : decodeTableWord 32 0xC0B13450 = some (.aadd .always 9 20 10) := by decide
theorem test_dec_2d : decodeTableWord 32 0xC0B41451 = some (.redadd .always 20 10) := by decide
theorem test_dec_2e : decodeTableWord 32 0xC0B80301 = some (.fenceRel .always .die) := by decide
theorem test_dec_2f : decodeTableWord 32 0xC0BD3421 = some (.stlD .always 9 20 .device) := by decide
theorem test_dec_30 : decodeTableWord 32 0xC0C1345A = some (.stv .always 9 20 11) := by decide
theorem test_dec_31 : decodeTableWord 32 0xC0C53401 = some (.opop .always 9 20) := by decide
theorem test_dec_32 : decodeTableWord 32 0xC0C82218 = some (.vaddW .always 1 2 3) := by decide
theorem test_dec_33 : decodeTableWord 32 0xC0CC221B = some (.vmulhH .always 1 2 3) := by decide
theorem test_dec_34 : decodeTableWord 32 0xC0D0221A = some (.vaddsB .always 1 2 3) := by decide
theorem test_dec_35 : decodeTableWord 32 0xC0D4221D = some (.vshrW .always 1 2 3) := by decide
theorem test_dec_36 : decodeTableWord 32 0xC0D84009 = some (.vfsubS .always 2 0 1) := by decide
theorem test_dec_37 : decodeTableWord 32 0xC0DC8536 = some (.vfdotBf .always 4 5 6) := by decide
theorem test_dec_38 : decodeTableWord 32 0xC0E02202 = some (.vexp2S .always 1 2) := by decide
theorem test_dec_39 : decodeTableWord 32 0xC0E4221A = some (.vcmp .always 1 2 3 .lt) := by decide
theorem test_dec_39f : decodeTableWord 32 0xC0E6221D = some (.vcmpF .always 1 2 3 .ge) := by decide
theorem test_dec_3a : decodeTableWord 32 0xC0E8AC73 = some (.vins .always 5 12 14) := by decide
theorem test_dec_3b : decodeTableWord 32 0xC0EC9C09 = some (.vst .always 4 28 1) := by decide
theorem test_dec_3c : decodeTableWord 32 0xC0F05C04 = some (.vstf .always 2 28) := by decide
theorem test_dec_3d : decodeTableWord 32 0xC0F42006 = some (.vcavmS .always 1 0) := by decide
theorem test_dec_3e : decodeTableWord 32 0xC0F8A614 = some (.vcvtE4S .always 5 6 2) := by decide
theorem test_dec_3f : decodeTableWord 32 0xC0FCAA07 = some (.xdec .always 5 10) := by decide
-- 16-bit: op 001, b 1, sense 0, p 1; CALL b3; END; ADDI.C x3, #-1: 01 000 00011 111111; SUB.C x1, x2: 00 010 00001 00010 0
theorem test_dec_go : decodeTableWord 16 0x8908 = some (.goGuarded 1 false 1) := by decide
theorem test_dec_call : decodeTableWord 16 0x9300 = some (.call 3) := by decide
theorem test_dec_end : decodeTableWord 16 0xA001 = some .endC := by decide
theorem test_dec_addiC : decodeTableWord 16 0x40FF = some (.addiC 3 (-1)) := by decide
theorem test_dec_subC : decodeTableWord 16 0x1044 = some (.subC 1 2) := by decide
theorem test_dec_zero : decode [0, 0, 0, 0] = .error .illegal := by decide
theorem test_dec_scope : decodeTableWord 32 0xC0B80700 = none := by decide

/-! ## States for the witnesses -/

/-- The module at reset with the issuing context changed. -/
def cxs (f : Ctx → Ctx) : State := State.reset.modCx f

/-- The module at reset with its core 0 changed. -/
def mes (f : Core → Core) : State := State.reset.modMe f

/-- x2 and x3 of the issuing context hold these values. -/
def regs (a b : DWord) : State := cxs fun x => { x with x := vput (vput x.x 2 a) 3 b }

/-- A reaction as a helper runs it. -/
def aRun (restart pool : Bool) : Run :=
  { slot := 0, restartable := restart, pool := pool, replay := false, lcnt := 1, block := none, events := [], seqBase := none,
    sends := 0, asCtx := 0, since := 0 }

/-- Page tables that map VA 0x5_0000 to PA 0x5_0000 with the attribute bits given (R76, R77): root 0x1_0000, then 0x2_0000,
0x3_0000 and 0x4_0000. -/
def tables (lo : Byte) (hi : List Host.Cell) : Memory :=
  [(0x10000, 1), (0x10002, 2), (0x20000, 1), (0x20002, 3), (0x30000, 1), (0x30002, 4), (0x40028, lo)] ++ hi ++ [(0x4002A, 5)]

/-- A state with those tables, as its core 0 uses them. -/
def withTables (s : State) (lo : Byte) (hi : List Host.Cell) : State :=
  { s with mem := tables lo hi, ptroot := vput s.ptroot 0 1 }

/-- The same with data on the page. -/
def withData (s : State) (data : List Host.Cell) : State :=
  { withTables s 0xF [] with mem := tables 0xF [] ++ data }

/-- The page as a walk finds it, and an address on it. -/
def pageEnt (bits : DWord) : TlbEnt := { va := 0x50000, log := 16, leaf := 0x50000 + bits, level := 4 }
def onPage (bits va : DWord) : EA := { va := va, pa := va.toNat, page := pageEnt bits }

theorem reaches_page (s : State) (ea va : DWord) (n : Nat) (k : Access) (bits : DWord) (he : ea = va) (hc : fld va 63 56 = 0)
    (ha : va.toNat % n = 0) (ht : s.tlbFind s.cur va.toNat = none) (hw : s.walk s.cur va.toNat = .ok (pageEnt bits))
    (hp : populated va.toNat = true) (hk : s.permission (pageEnt bits) va.toNat k = none)
    (hq : s.pageAddr (pageEnt bits) va.toNat = va.toNat) :
    s.reaches ea n k (onPage bits va) (s.tlbFill s.cur (pageEnt bits)) := by
  subst he
  have h := s.reaches_walk ea n k (pageEnt bits) hc ha ht hw (by rw [hq]; exact hp) (by rw [hq]; exact hk)
  rw [hq] at h; exact h

/-- A request outstanding. -/
def aReq (k : ReqKind) (dest : Option Reg) : Req :=
  { id := 1, kind := k, pc := 0, va := 0x50000, pa := 0x50000, size := 8, dest := dest, data := 5, aux := 0, obj := false,
    ha := false, queue := false, again := false, enc := false, gate := false, epoch := 0, scope := 6, sent := true, fb := none,
    reply := none, fault := none,
      seen := [] }

/-- Where no word of the scratchpad is lost, none that an access meets is. -/
theorem sound_of {s : State} (h : s.me.spadLost = []) (a n : Nat) : s.sound a n := fun w _ _ hw => by
  rw [h] at hw; exact absurd hw (by simp)

/-! ## Witnesses: scalar instructions -/

theorem witness_IntegerOperationResults : ∃ s : State, s.guardPasses (.onClear 1) = true ∧ s.xReady [1, 2, 3] :=
  ⟨State.reset, by decide, by unfold State.xReady; decide⟩
theorem witness_MultiplyAndCountResults : ∃ s : State, s.guardPasses .always = true ∧ s.xReady [0, 2, 3] :=
  ⟨State.reset, by decide, by unfold State.xReady; decide⟩
theorem witness_WordImmediateShortResults : ∃ (s : State) (n : Nat), s.guardPasses .always = true ∧ s.xReady [1, 2, 3] ∧
    n < 64 ∧ 63 ≤ n := ⟨State.reset, 63, by decide, by unfold State.xReady; decide, by decide, by decide⟩
theorem witness_GeneralRegisterRules : ∃ s t : State, s.guardPasses .always = true ∧ s.xReady [0, 2, 3] ∧ s.noDeferred ∧
    exec (.add .always 1 2 3) s = .next t :=
  ⟨State.reset, _, by decide, by unfold State.xReady; decide, by unfold State.noDeferred; decide, rfl⟩
theorem witness_ComparePredicateResults : ∃ s : State, s.guardPasses .always = true ∧ s.xReady [2, 3] ∧ s.xReady [4] :=
  ⟨State.reset, by decide, by unfold State.xReady; decide, by unfold State.xReady; decide⟩
theorem witness_FloatResults : ∃ s : State, s.guardPasses .always = true ∧ s.xReady [1, 2] :=
  ⟨State.reset, by decide, by unfold State.xReady; decide⟩
theorem witness_FloatConversionResults : ∃ s : State, s.guardPasses .always = true ∧ s.xReady [1, 2] :=
  ⟨State.reset, by decide, by unfold State.xReady; decide⟩
theorem witness_PredicateFloatFrames : ∃ s t u : State, s.noDeferred ∧ exec (.pand .always 1 2 3) s = .next t ∧
    exec (.fabs .always 1 2) s = .next u :=
  ⟨State.reset, _, _, by unfold State.noDeferred; decide, rfl, rfl⟩
theorem witness_BranchTargetResults : ∃ s u : State, s.guardPasses .always = true ∧ s.xReady [1, 2] ∧
    (s.cx.xr 2).getLsbD 0 = true ∧ u.guardPasses .always = true ∧ u.xReady [1, 2] ∧ (u.cx.xr 2).getLsbD 0 = false :=
  ⟨regs 1 0, State.reset, by decide, by unfold State.xReady; decide, by decide, by decide, by unfold State.xReady; decide,
    by decide⟩
theorem witness_TransferResults : ∃ s u : State, (s.cx.b.get 3).v = true ∧ (s.cx.b.get 3).ready = true ∧
    (s.cx.b.get 3).f = 0 ∧ (u.cx.b.get 3).v = false ∧ u.curCtx ≠ 13 ∧ (u.me.ctx 13).live = false :=
  ⟨cxs fun x => { x with b := vput x.b 3 { BReg.reset with v := true, ready := true } }, State.reset, by decide, by decide,
    by decide, by decide, by decide, by decide⟩
theorem witness_SyncCodeResults : ∃ s : State, s.guardPasses .always = true ∧ ∀ q ∈ s.cx.reqs, q.writes = false :=
  ⟨cxs fun x => { x with reqs := [aReq (.load false) (some 4)] }, by decide, by decide⟩

/-! ## Witnesses: the scratchpad -/

-- a doubleword at the end of the scratchpad, sound and lost; one byte beyond it; a misaligned address
theorem witness_ScratchpadLoadResults : ∃ s l u w : State,
    (s.guardPasses .always = true ∧ s.xReady [1, 2, 3, 31] ∧ s.ungated ∧ inSpad (s.cx.xr 2 + BitVec.ofInt 64 (0 * 8)) 8 ∧
      s.sound (s.cx.xr 2 + BitVec.ofInt 64 (0 * 8)).toNat 8 ∧ s.me.spadRel = []) ∧
    (l.guardPasses .always = true ∧ l.xReady [1, 2] ∧ l.ungated ∧ l.released ∧ l.trapFree ∧
      inSpad (l.cx.xr 2 + BitVec.ofInt 64 (0 * 8)) 8 ∧ (l.cx.xr 2 + BitVec.ofInt 64 (0 * 8)).toNat / 8 ∈ l.me.spadLost) ∧
    (u.guardPasses .always = true ∧ u.xReady [1, 2] ∧ u.ungated ∧ u.released ∧ u.trapFree ∧
      0x40000 < (u.cx.xr 2 + BitVec.ofInt 64 (0 * 8)).toNat + 8) ∧
    (w.guardPasses .always = true ∧ w.xReady [1, 2] ∧ w.ungated ∧ w.released ∧ w.trapFree ∧
      (w.cx.xr 2 + BitVec.ofInt 64 (0 * 8)).toNat + 8 ≤ 0x40000 ∧ (w.cx.xr 2 + BitVec.ofInt 64 (0 * 8)).toNat % 8 ≠ 0) :=
  ⟨regs 0x3FFF8 0, (regs 0x3FFF8 0).modMe fun k => { k with spadLost := [0x7FFF] }, regs 0x3FFF9 0, regs 0x3FFF7 0,
    ⟨by decide, by unfold State.xReady; decide, by unfold State.ungated; decide, by unfold inSpad; decide, sound_of rfl _ _, rfl⟩,
    by unfold State.xReady State.ungated State.released State.trapFree inSpad; decide,
    by unfold State.xReady State.ungated State.released State.trapFree; decide,
    by unfold State.xReady State.ungated State.released State.trapFree; decide⟩
theorem witness_ScratchpadStoreResults : ∃ s t : State, s.guardPasses .always = true ∧ s.xReady [1, 2, 3, 31] ∧ s.ungated ∧
    s.released ∧ s.me.spad.wf = true ∧ inSpad (s.cx.xr 2 + BitVec.ofInt 64 (0 * 8)) 8 ∧ exec (.std .always 1 2 0) s = .next t :=
  ⟨regs 0x3FFF8 0, _, by decide, by unfold State.xReady; decide, by unfold State.ungated; decide,
    by unfold State.released; decide, by decide, by unfold inSpad; decide, rfl⟩
-- word 0x7FFF, empty and full
theorem witness_FullEmptyResults : ∃ s u : State,
    (s.guardPasses .always = true ∧ s.xReady [1, 2] ∧ s.quiet ∧ s.unbound ∧ s.me.spad.wf = true ∧
      s.me.full.Pairwise (· < ·) ∧ inSpad (s.cx.xr 2 + BitVec.ofInt 64 (0 * 8)) 8 ∧
      (s.cx.xr 2 + BitVec.ofInt 64 (0 * 8)).toNat / 8 ∉ s.me.full) ∧
    (u.guardPasses .always = true ∧ u.xReady [1, 2] ∧ u.quiet ∧ u.unbound ∧ u.me.spad.wf = true ∧
      u.me.full.Pairwise (· < ·) ∧ inSpad (u.cx.xr 2 + BitVec.ofInt 64 (0 * 8)) 8 ∧
      (u.cx.xr 2 + BitVec.ofInt 64 (0 * 8)).toNat / 8 ∈ u.me.full ∧ u.me.spadLost = []) :=
  ⟨regs 0x3FFF8 0, (regs 0x3FFF8 0).modMe fun k => { k with full := [3, 0x7FFF] },
    by unfold State.xReady State.quiet State.unbound inSpad; decide,
      by unfold State.xReady State.quiet State.unbound inSpad; decide⟩

/-- The last doubleword of a plain page; a page with V whose region core 0 holds. -/
def pageTop : State := withTables (regs 0x5FFF8 0) 0xF []
def pageV : State := withTables ((regs 0x50000 0).modMe fun k => { k with caps := [(5, 1)] }) 0x0F [(0x40029, 1)]

/-- A launch with units in its pool. -/
def aLaunch : Launch :=
  { lcnt := 1, die := 0, tag := ⟨0, 0⟩, det := false, setup := false, fmode := 0, quantum := 4096, first := 0, ncore := 1,
    args := 0, arglen := 0, state := 0, stk := 0, count := 1, parent := none, form := 0, poolN := 8, recs := [], init := [],
    stage := 0, ranges := [(0, 2), (2, 4), (4, 6), (6, 8)], given := [], todo := [], snap := false, seen := [], began := none }

/-! ## Witnesses: global memory -/

theorem witness_GlobalIssueResults : ∃ s u v w : State,
    (s.guardPasses .always = true ∧ s.xReady [1, 2, 3] ∧ s.hasPlace ∧ s.noDeferred ∧ s.quiet ∧ s.restartable = false ∧
      s.unbound ∧ s.paUnreachable 0x5FFF8 = false ∧
      s.reaches (s.cx.xr 2 + BitVec.ofInt 64 (0 * 8)) 8 .load (onPage 0xF 0x5FFF8) u ∧
      s.reaches (s.cx.xr 2 + BitVec.ofInt 64 (0 * 8)) 8 .store (onPage 0xF 0x5FFF8) u ∧ (onPage 0xF 0x5FFF8).isV = false ∧
      (onPage 0xF 0x5FFF8).isObj = false) ∧
    (v.guardPasses .always = true ∧ v.xReady [1, 2, 3] ∧ v.hasPlace ∧ v.noDeferred ∧ v.quiet ∧ v.restartable = false ∧
      v.unbound ∧ v.paUnreachable 0x50000 = false ∧ v.reaches (v.cx.xr 2) 8 .versioned (onPage 0x10F 0x50000) w ∧
      v.reaches (v.cx.xr 2) 8 .store (onPage 0x10F 0x50000) w ∧ (onPage 0x10F 0x50000).isV = true ∧
      v.capHeld v.cur (regionOf (v.cx.xr 2)) = true) :=
  ⟨pageTop, _, pageV, _,
    ⟨by decide, by unfold State.xReady; decide, by unfold State.hasPlace State.ungated; decide,
      by unfold State.noDeferred; decide, by unfold State.quiet; decide, by decide, by unfold State.unbound; decide, by decide,
      (reaches_page _ _ _ _ _ _ (by decide) (by decide) (by decide) (by decide) (by decide) (by decide) (by decide) (by decide)),
      (reaches_page _ _ _ _ _ _ (by decide) (by decide) (by decide) (by decide) (by decide) (by decide) (by decide) (by decide)),
      by decide, by decide⟩,
    ⟨by decide, by unfold State.xReady; decide, by unfold State.hasPlace State.ungated; decide,
      by unfold State.noDeferred; decide, by unfold State.quiet; decide, by decide, by unfold State.unbound; decide, by decide,
      (reaches_page _ _ _ _ _ _ (by decide) (by decide) (by decide) (by decide) (by decide) (by decide) (by decide) (by decide)),
      (reaches_page _ _ _ _ _ _ (by decide) (by decide) (by decide) (by decide) (by decide) (by decide) (by decide) (by decide)),
      by decide, by decide⟩⟩
/-- VA 0x5_0000 mapped to a page of host memory or of another module: its attributes and the top bits of its address. -/
def farEnt (bits : DWord) : TlbEnt := { va := 0x50000, log := 16, leaf := 0x50000 + bits, level := 4 }
def farPage (top : Byte) : State := { withData (regs 0x50000 0) [(0x4002E, top)] with devCoord := 0x20000 }
def hostPage : State := farPage 4
def otherPage : State := farPage 8

-- a page of this module; a host page without HA, for an operation with no PCIe AtomicOp and one with it; another module's page
theorem witness_AtomicIssue : ∃ s u v w : State, ∃ e f : EA,
    (s.guardPasses .always = true ∧ s.xReady [1, 2, 3] ∧ s.hasPlace ∧
      s.restartable = false ∧ s.me.det = false ∧ s.reaches (s.cx.xr 2) 8 .store (onPage 0xF 0x5FFF8) u ∧
      (onPage 0xF 0x5FFF8).isV = false ∧ (onPage 0xF 0x5FFF8).isObj = false ∧ s.paUnreachable 0x5FFF8 = false ∧
      isRemote 0x5FFF8 = false ∧ s.toFallback s.cur 0 0x5FFF8 = false) ∧
    (hostPage.xReady [1, 2, 3] ∧ hostPage.hasPlace ∧ hostPage.restartable = false ∧ hostPage.me.det = false ∧
      hostPage.reaches (hostPage.cx.xr 2) 8 .store e v ∧ e.isV = false ∧ e.isObj = false ∧ hostPage.paUnreachable e.pa = false ∧
      isRemote e.pa = false ∧ e.isHa = false ∧ hostPage.toFallback hostPage.cur 1 e.pa = true ∧
      hostPage.toFallback hostPage.cur 0 e.pa = false ∧ hostPage.trapFree) ∧
    (otherPage.xReady [1, 2, 3] ∧ otherPage.hasPlace ∧ otherPage.restartable = false ∧ otherPage.me.det = false ∧
      otherPage.reaches (otherPage.cx.xr 2) 8 .store f w ∧ f.isV = false ∧ f.isObj = false ∧
      otherPage.paUnreachable f.pa = false ∧ isRemote f.pa = true ∧ otherPage.remoteAtomics (otherPage.remoteDev f.pa) < 8) :=
  ⟨pageTop, _, _, _, _, _,
    ⟨by decide, by unfold State.xReady; decide, by unfold State.hasPlace State.ungated; decide, by decide, by decide,
      (reaches_page _ _ _ _ _ _ (by decide) (by decide) (by decide) (by decide) (by decide) (by decide) (by decide) (by decide)),
      by decide, by decide, by decide, by decide, by decide⟩,
    ⟨by unfold State.xReady; decide, by unfold State.hasPlace State.ungated; decide, by decide, by decide,
      State.reaches_walk _ _ _ _ (farEnt 0x400000000000F) (by decide) (by decide) (by decide) (by decide) (by decide) (by decide),
      by decide, by decide, by decide, by decide, by decide, by decide, by decide, by unfold State.trapFree; decide⟩,
    ⟨by unfold State.xReady; decide, by unfold State.hasPlace State.ungated; decide, by decide, by decide,
      State.reaches_walk _ _ _ _ (farEnt 0x800000000000F) (by decide) (by decide) (by decide) (by decide) (by decide) (by decide),
      by decide, by decide, by decide, by decide, by decide⟩⟩
-- a set bit 56; a misaligned address; no table; a page without R; a restartable reaction; DET
theorem witness_GlobalFaultResults : ∃ s1 s2 s3 s4 s5 s6 : State, ∃ w f,
    (s1.guardPasses .always = true ∧ s1.xReady [1, 2, 3] ∧ s1.hasPlace ∧ s1.trapFree ∧ 2 ^ 56 ≤ (s1.cx.xr 2 +
      BitVec.ofInt 64 (0 * 8)).toNat) ∧
    (s2.hasPlace ∧ (s2.cx.xr 2 + BitVec.ofInt 64 (0 * 8)).toNat < 2 ^ 56 ∧
      (s2.cx.xr 2 + BitVec.ofInt 64 (0 * 8)).toNat % 8 ≠ 0) ∧
    (s3.hasPlace ∧ (s3.cx.xr 2 + BitVec.ofInt 64 (0 * 8)).toNat % 8 = 0 ∧ s3.tlbFind s3.cur 0x50000 = none ∧
      s3.walk s3.cur 0x50000 = .error w) ∧
    (s4.hasPlace ∧ s4.tlbFind s4.cur 0x50000 = none ∧ s4.walk s4.cur 0x50000 = .ok f ∧
      populated (s4.pageAddr f 0x50000) = true ∧ f.leaf.getLsbD 1 = false) ∧
    (s5.guardPasses .always = true ∧ s5.xReady [1, 2, 3] ∧ s5.trapFree ∧ s5.restartable = true) ∧
    (s6.guardPasses .always = true ∧ s6.xReady [1, 2, 3] ∧ s6.trapFree ∧ s6.restartable = false ∧ s6.me.det = true) :=
  ⟨regs 0x100000000000000 0, regs 0x50004 0, regs 0x50000 0, withTables (regs 0x50000 0) 0xD [],
    cxs fun x => { x with run := some (aRun true false) }, mes fun k => { k with det := true }, ⟨1, 1, none⟩, pageEnt 0xD,
    ⟨by decide, by unfold State.xReady; decide, by unfold State.hasPlace State.ungated; decide,
      by unfold State.trapFree; decide, by decide⟩,
    ⟨by unfold State.hasPlace State.ungated; decide, by decide, by decide⟩,
    ⟨by unfold State.hasPlace State.ungated; decide, by decide, by decide, by decide⟩,
    ⟨by unfold State.hasPlace State.ungated; decide, by decide, by decide, by decide, by decide⟩,
    ⟨by decide, by unfold State.xReady; decide, by unfold State.trapFree; decide, by decide⟩,
    ⟨by decide, by unfold State.xReady; decide, by unfold State.trapFree; decide, by decide, by decide⟩⟩
/-- A page with V of another module that is out of reach, whose region core 0 holds; a plain one. -/
def lostPageV : State :=
  { pageV with mem := tables 0x0F [(0x40029, 1)] ++ [(0x4002E, 8)], devCoord := 0x20000, unreach := BitVec.allOnes 64 }
def lostPage : State := { otherPage with unreach := BitVec.allOnes 64 }

-- a page with V and no capability; one without V; a page out of reach, without V and with it
theorem witness_PageChecksTrap : ∃ s p u v w x y z : State, ∃ e f : EA,
    (s.xReady [1, 2, 3] ∧ s.hasPlace ∧ s.noDeferred ∧ s.trapFree ∧ s.restartable = false ∧
      s.reaches (s.cx.xr 2) 8 .store (onPage 0x10F 0x50000) u ∧ s.reaches (s.cx.xr 2) 8 .load (onPage 0x10F 0x50000) v ∧
      (onPage 0x10F 0x50000).isV = true ∧ s.capHeld s.cur (regionOf (s.cx.xr 2)) = false) ∧
    (p.xReady [1, 2, 3] ∧ p.hasPlace ∧ p.noDeferred ∧ p.trapFree ∧ p.restartable = false ∧
      p.reaches (p.cx.xr 2) 8 .versioned (onPage 0xF 0x50000) w ∧ p.reaches (p.cx.xr 2) 8 .store (onPage 0xF 0x50000) x ∧
      (onPage 0xF 0x50000).isV = false) ∧
    (lostPage.xReady [1, 2, 3] ∧ lostPage.hasPlace ∧ lostPage.noDeferred ∧ lostPage.trapFree ∧ lostPage.restartable = false ∧
      lostPage.reaches (lostPage.cx.xr 2 + BitVec.ofInt 64 (0 * 8)) 8 .store e y ∧ e.isV = false ∧ e.isObj = false ∧
      lostPage.paUnreachable e.pa = true) ∧
    (lostPageV.xReady [1, 2, 3] ∧ lostPageV.hasPlace ∧ lostPageV.noDeferred ∧ lostPageV.trapFree ∧
      lostPageV.restartable = false ∧ lostPageV.reaches (lostPageV.cx.xr 2) 8 .store f z ∧ f.isV = true ∧
      lostPageV.capHeld lostPageV.cur (regionOf (lostPageV.cx.xr 2)) = true ∧ lostPageV.paUnreachable f.pa = true) :=
  ⟨withTables (regs 0x50000 0) 0x0F [(0x40029, 1)], withTables (regs 0x50000 0) 0xF [], _, _, _, _, _, _, _, _,
    ⟨by unfold State.xReady; decide, by unfold State.hasPlace State.ungated; decide, by unfold State.noDeferred; decide,
      by unfold State.trapFree; decide, by decide,
      reaches_page _ _ _ _ _ _ (by decide) (by decide) (by decide) (by decide) (by decide) (by decide) (by decide) (by decide),
      reaches_page _ _ _ _ _ _ (by decide) (by decide) (by decide) (by decide) (by decide) (by decide) (by decide) (by decide),
      by decide, by decide⟩,
    ⟨by unfold State.xReady; decide, by unfold State.hasPlace State.ungated; decide, by unfold State.noDeferred; decide,
      by unfold State.trapFree; decide, by decide,
      reaches_page _ _ _ _ _ _ (by decide) (by decide) (by decide) (by decide) (by decide) (by decide) (by decide) (by decide),
      reaches_page _ _ _ _ _ _ (by decide) (by decide) (by decide) (by decide) (by decide) (by decide) (by decide) (by decide),
      by decide⟩,
    ⟨by unfold State.xReady; decide, by unfold State.hasPlace State.ungated; decide, by unfold State.noDeferred; decide,
      by unfold State.trapFree; decide, by decide,
      State.reaches_walk _ _ _ _ (farEnt 0x800000000000F) (by decide) (by decide) (by decide) (by decide) (by decide) (by decide),
      by decide, by decide, by decide⟩,
    ⟨by unfold State.xReady; decide, by unfold State.hasPlace State.ungated; decide, by unfold State.noDeferred; decide,
      by unfold State.trapFree; decide, by decide,
      State.reaches_walk _ _ _ _ (farEnt 0x800000000010F) (by decide) (by decide) (by decide) (by decide) (by decide) (by decide),
      by decide, by decide, by decide⟩⟩
-- a mapped line; a region in the core's table for a core of the module; one held by default for another module; one not held
theorem witness_OrderingResults : ∃ s u h d n : State, ∃ p,
    (s.guardPasses .always = true ∧ s.xReady [2] ∧ s.quiet ∧ s.released ∧ s.unbound ∧
      s.reaches (s.cx.xr 2 + BitVec.ofInt 64 (0 * 128)) 1 .load (onPage 0xF 0x50001) u) ∧
    (h.guardPasses .always = true ∧ h.xReady [2, 3] ∧ h.quiet ∧ h.unbound ∧ h.isLocal (h.cx.xr 3) = true ∧
      h.capHeld h.cur (regionOf (h.cx.xr 2)) = true ∧ h.me.caps.find? (fun p => p.1 == regionOf (h.cx.xr 2)) = some p) ∧
    (d.guardPasses .always = true ∧ d.xReady [2, 3] ∧ d.quiet ∧ d.unbound ∧ d.isLocal (d.cx.xr 3) = false ∧
      (descDev (d.cx.xr 3)).toNat % 2 ^ 14 = d.devCoord.toNat % 2 ^ 14 ∧ d.capHeld d.cur (regionOf (d.cx.xr 2)) = true ∧
      d.me.caps.find? (fun p => p.1 == regionOf (d.cx.xr 2)) = none) ∧
    (n.xReady [2, 3] ∧ n.quiet ∧ n.unbound ∧ n.capHeld n.cur (regionOf (n.cx.xr 2)) = false ∧ n.trapFree) :=
  ⟨withTables (regs 0x50001 0) 0xF [], _, (regs 0x50000 0x80140000000).modMe fun k => { k with caps := [(5, 1)] },
    { regs 0x50000 0x2000000000000000 with launches := [(1, aLaunch)] }, regs 0x50000 0, (5, 1),
    ⟨by decide, by unfold State.xReady; decide, by unfold State.quiet; decide, by unfold State.released; decide,
      by unfold State.unbound; decide,
        (reaches_page _ _ _ _ _ _ (by decide) (by decide) (by decide) (by decide) (by decide) (by decide) (by decide) (by decide))⟩,
    ⟨by decide, by unfold State.xReady; decide, by unfold State.quiet; decide, by unfold State.unbound; decide, by decide,
      by decide,
      by decide⟩,
    ⟨by decide, by unfold State.xReady; decide, by unfold State.quiet; decide, by unfold State.unbound; decide, by decide,
      by decide,
      by decide, by decide⟩,
    ⟨by unfold State.xReady; decide, by unfold State.quiet; decide, by unfold State.unbound; decide, by decide,
      by unfold State.trapFree; decide⟩⟩

/-! ## Witnesses: the system group -/

theorem witness_IdleAndStopResults : ∃ s : State, s.guardPasses .always = true ∧ s.xReady [2] ∧ s.cx.stop = .no ∧
    s.trapFree := ⟨regs 0xFFFF 0, by decide, by unfold State.xReady; decide, by decide, by unfold State.trapFree; decide⟩
/-- Context 13 handles a deferred fault of helper 2: an atomic, to be sent once more or abandoned. -/
def deferredTrap (finfo : DWord) : State :=
  { (withTables State.reset 0xF []).modMe fun k =>
      { k with trap := { TrapRec.zero with ctx := 2, defd := true, finfo := finfo, req := some (aReq (.atomic 0) (some 1)) } }
    with curCtx := 13 }

-- context 13 returns from a trap of helper 2, without and with the skip bit, and from a deferred fault; a helper executes ERET
theorem witness_ReturnFromTrapResults : ∃ s u w : State,
    (s.guardPasses .always = true ∧ s.me.trap.ctx = (2 : CtxId).val ∧ s.me.trap.defd = false ∧ s.me.recs = [] ∧
      s.curCtx = 13 ∧ s.me.trap.finfo.getLsbD 31 = false) ∧
    (u.guardPasses .always = true ∧ u.me.trap.ctx = (2 : CtxId).val ∧ u.me.trap.defd = false ∧ u.me.recs = [] ∧
      u.curCtx = 13 ∧ u.me.trap.finfo.getLsbD 31 = true) ∧
    (w.guardPasses .always = true ∧ w.me.trap.ctx = (2 : CtxId).val ∧ w.me.trap.defd = false ∧ w.me.recs = [] ∧
      w.trapFree) ∧
    ∀ skip : Bool, ∃ d e : State, ∃ q, d.guardPasses .always = true ∧ d.me.trap.ctx = (2 : CtxId).val ∧ d.me.recs = [] ∧
      d.curCtx = 13 ∧ d.me.trap.defd = true ∧ d.me.trap.req = some q ∧ (∀ r ∈ (d.me.ctx 2).reqs, r.id ≠ q.id) ∧
      d.me.trap.finfo.getLsbD 31 = skip ∧ q.kind = .atomic 0 ∧ d.reaches q.va 8 .store (onPage 0xF 0x50000) e :=
  ⟨{ mes (fun k => { k with trap := { TrapRec.zero with ctx := 2 } }) with curCtx := 13 },
    { mes (fun k => { k with trap := { TrapRec.zero with ctx := 2, finfo := 0x80000000 } }) with curCtx := 13 },
    mes (fun k => { k with trap := { TrapRec.zero with ctx := 2, finfo := 7 } }),
    by decide, by decide, ⟨by decide, by decide, by decide, by decide, by unfold State.trapFree; decide⟩, fun skip =>
    ⟨deferredTrap (if skip then 0x80000000 else 0), _, aReq (.atomic 0) (some 1), by cases skip <;> decide,
      by cases skip <;> decide,
      by cases skip <;> decide, rfl, rfl, rfl, by cases skip <;> decide, by cases skip <;> decide, rfl,
      reaches_page _ _ _ _ _ _ (by decide) (by decide) (by decide) (by cases skip <;> decide) (by cases skip <;> decide) (by decide)
        (by cases skip <;> decide) (by cases skip <;> decide)⟩⟩
-- a context without a reaction; a helper; a helper whose END is the last of its launch; a handler of helper 2's fault
theorem witness_EndResults : ∃ s u v w : State, ∃ r, (s.guardPasses .always = true ∧ s.quiet ∧ s.unbound ∧ s.curCtx ≠ 13 ∧
      s.cx.run = none) ∧
    (u.guardPasses .always = true ∧ u.quiet ∧ u.unbound ∧ u.cx.run = some r ∧ 1 ≤ u.curCtx.val ∧ u.curCtx.val ≤ 10 ∧
      2 ≤ (u.counter r.lcnt).count.toNat ∧ ∀ e ∈ u.counters, e.2.canc = false) ∧
    (v.quiet ∧ v.unbound ∧ v.cx.run = some r ∧ 1 ≤ v.curCtx.val ∧ v.curCtx.val ≤ 10 ∧ (v.counter r.lcnt).count = 1 ∧
      (v.counter r.lcnt).parent = none ∧ r.lcnt < 4096 ∧ (∀ e ∈ v.counters, e.2.canc = false) ∧
      v.launches.find r.lcnt = some aLaunch) ∧
    (w.quiet ∧ w.unbound ∧ w.curCtx = 13 ∧ w.me.recs = [] ∧ w.me.trap.ctx = (2 : CtxId).val ∧ (w.me.ctx 2).run = some r ∧
      w.me.faultedReady = true ∧ 2 ≤ (w.counter r.lcnt).count.toNat ∧ ∀ e ∈ w.counters, e.2.canc = false) :=
  ⟨State.reset, { State.reset with curCtx := 10, counters := [(1, { Counter.reset with count := 2, live := true })] }.modCx
      fun x => { x with run := some (aRun false false) },
    { State.reset with curCtx := 10, launches := [(1, aLaunch)], counters := [(1, { Counter.reset with count := 1, live := true })]
      }.modCx fun x => { x with run := some (aRun false false) },
    { (mes fun k => { k with trap := { TrapRec.zero with ctx := 2 } }).modCtx 0 2 fun x => { x with run := some (aRun false false) }
      with curCtx := 13, counters := [(1, { Counter.reset with count := 2, live := true })] }, aRun false false,
    ⟨by decide, by unfold State.quiet; decide, by unfold State.unbound; decide, by decide, by decide⟩,
    ⟨by decide, by unfold State.quiet; decide, by unfold State.unbound; decide, by decide, by decide, by decide, by decide,
      by decide⟩,
    ⟨by unfold State.quiet; decide, by unfold State.unbound; decide, by decide⟩,
    ⟨by unfold State.quiet; decide, by unfold State.unbound; decide, by decide⟩⟩
theorem witness_SpecialRegisterResults : ∃ s w : State, (s.guardPasses .always = true ∧ s.xReady [1, 2] ∧ s.curCtx ≠ 12 ∧
    (s.cx.xr 2).toNat < 4 ∧ 3 ≤ (s.cx.xr 2).toNat) ∧
    (w.guardPasses .always = true ∧ w.xReady [1, 2] ∧ w.curCtx = 12 ∧ w.me.canPut ((w.cx.xr 1).toNat % 2 ^ 18) = true) :=
  ⟨regs 3 0, { State.reset with curCtx := 12 }, ⟨by decide, by unfold State.xReady; decide, by decide, by decide, by decide⟩,
    ⟨by decide, by unfold State.xReady; decide, by decide, by decide +kernel⟩⟩


/-! ## Witnesses: vectors -/

theorem witness_VectorIntegerResults : ∃ s : State, s.noStreams [1, 2, 3] :=
  ⟨State.reset, by unfold State.noStreams; decide⟩
theorem witness_VectorFloatResults : ∃ s : State, s.noStreams [1, 2, 3] := witness_VectorIntegerResults
theorem witness_VectorMoveResults : ∃ s : State, s.noStreams [1, 2, 3] ∧ s.xReady [1, 2, 3] :=
  ⟨State.reset, by unfold State.noStreams State.xReady; decide⟩

/-- The last sixteen words of the scratchpad. -/
def lastWords : List Nat := (List.range 16).map fun i => 0x7FF0 + i

-- the last 128 bytes of the scratchpad, its words full and empty; rows of stride 4 up to its end; indexes from its end down
theorem witness_VectorMemoryResults : ∃ s u w : State,
    (s.guardPasses .always = true ∧ s.xReady [2, 3] ∧ s.quiet ∧ s.unbound ∧ s.me.spad.wf = true ∧
      s.me.full.Pairwise (· < ·) ∧
      ((s.cx.xr 2 + BitVec.ofInt 64 (0 * 128)).toNat + 128 ≤ 0x40000 ∧
        (s.cx.xr 2 + BitVec.ofInt 64 (0 * 128)).toNat % 8 = 0) ∧
      (∀ w, 0x7FF0 ≤ w → w < 0x8000 → w ∈ s.me.full) ∧ s.me.spadLost = []) ∧
    (u.guardPasses .always = true ∧ u.xReady [2, 3] ∧ u.quiet ∧ u.unbound ∧ u.me.spad.wf = true ∧
      u.me.full.Pairwise (· < ·) ∧ (∀ w, 0x7FF0 ≤ w → w < 0x8000 → w ∉ u.me.full) ∧
      (∀ l, l < 32 → inSpad (u.cx.xr 2 + dw l * u.cx.xr 3) 4) ∧ u.me.spadLost = []) ∧
    (w.guardPasses .always = true ∧ w.xReady [2, 3] ∧ w.quiet ∧ w.unbound ∧ w.me.spad.wf = true ∧
      w.me.full.Pairwise (· < ·) ∧ w.me.spadLost = [] ∧
      ∀ l, l < 32 → inSpad (w.cx.xr 2 + dw (4 * (lane 32 l (w.cx.v.get 3)).toNat)) 4) :=
  ⟨(regs 0x3FF80 0).modMe fun k => { k with full := lastWords }, regs 0x3FF80 4, regs 0x3FFFC 0,
    by unfold State.xReady State.quiet State.unbound; decide,
    by unfold State.xReady State.quiet State.unbound inSpad; decide,
    by unfold State.xReady State.quiet State.unbound inSpad; decide +kernel⟩
theorem witness_VectorFoldResults : ∃ s : State, s.guardPasses .always = true ∧ s.noStreams [1, 2, 3] :=
  ⟨State.reset, by unfold State.noStreams; decide⟩
-- a scale of one, and one below FP32's smallest number
theorem witness_VectorConversionResults : ∃ s u : State, (s.noStreams [1, 2] ∧ scaleGood (s.cx.f.get 3) = true) ∧
    (u.noStreams [1, 2] ∧ scaleGood (u.cx.f.get 3) = false ∧ u.trapFree ∧ ∃ l, l < 32 ∧ u.lanePasses .always l = true) :=
  ⟨cxs fun x => { x with f := vput x.f 3 0x3FF0000000000000 }, cxs fun x => { x with f := vput x.f 3 1 },
    by unfold State.noStreams; decide +kernel, by unfold State.noStreams; decide, by decide +kernel,
    by unfold State.trapFree; decide, 31, by decide, by decide⟩

/-- The block of 64 codes of value 0 with scale 127 (R129 to R131): one exponent code a code. -/
def zeroBlock : List Byte := xfEncode (List.replicate 64 0) 127

theorem witness_XfBlockResults : ∃ s u w : State, ∃ q,
    (∃ (codes : List Nat) (scale : Nat), codes.length = 64 ∧ (∀ c ∈ codes, c < 256) ∧ scale < 256 ∧ 255 ≤ scale) ∧
    (s.guardPasses .always = true ∧ s.ungated ∧ s.released ∧ s.xReady [2, 3, 1] ∧ s.noStreams [2, 1] ∧ s.me.spad.wf = true ∧
      (s.cx.xr 3).toNat % 4 = 0 ∧ (s.cx.xr 3).toNat + 68 ≤ 0x40000) ∧
    (u.guardPasses .always = true ∧ u.ungated ∧ u.released ∧ u.me.spadLost = [] ∧ u.xReady [2, 3, 1] ∧ u.noStreams [2, 1] ∧
      u.me.spad.wf = true ∧
      (u.cx.xr 2).toNat % 4 = 0 ∧ (u.cx.xr 2).toNat + 36 ≤ 0x40000 ∧
      (u.cx.xr 2).toNat + (xfHeader (u.me.spad.readNat (u.cx.xr 2).toNat 4)).bytes ≤ 0x40000 ∧
      xfDecode (u.me.spad.readNat (u.cx.xr 2).toNat (xfHeader (u.me.spad.readNat (u.cx.xr 2).toNat 4)).bytes) = some q) ∧
    (w.trapFree ∧ w.me.spadLost = [] ∧ (w.cx.xr 2).toNat % 4 = 0 ∧ (w.cx.xr 2).toNat + 36 ≤ 0x40000 ∧
      (w.cx.xr 2).toNat + (xfHeader (w.me.spad.readNat (w.cx.xr 2).toNat 4)).bytes ≤ 0x40000 ∧
      xfDecode (w.me.spad.readNat (w.cx.xr 2).toNat (xfHeader (w.me.spad.readNat (w.cx.xr 2).toNat 4)).bytes) = none) :=
  ⟨regs 0 0x3FFBC, mes fun k => { k with spad := Memory.write [] 0 zeroBlock }, regs 0x3FFDC 0,
    { scale := 127, codes := List.replicate 64 0 },
    ⟨List.replicate 64 255, 255, by decide, by decide, by decide, by decide⟩,
    by unfold State.ungated State.released State.xReady State.noStreams; decide,
    ⟨by decide, by unfold State.ungated; decide, by unfold State.released; decide, rfl, by unfold State.xReady; decide,
      by unfold State.noStreams; decide,
      by decide +kernel, by decide, by decide, by decide +kernel, by decide +kernel⟩,
    by unfold State.trapFree; decide +kernel⟩

/-! ## Witnesses: layouts, streams, copies -/

theorem recordRead (x : Except Stop (List DWord × State))
    (h : (match x with | .ok p => (layoutOf p.1).isSome | .error _ => false) = true) :
    ∃ v ws r, x = .ok (ws, v) ∧ layoutOf ws = some r := by
  cases x with
  | error e => exact absurd h (by simp)
  | ok p => exact ⟨p.2, p.1, _, rfl, (Option.isSome_iff_exists.mp h).choose_spec⟩

-- a record of rank 1 with elements of four bytes at 0x5_0000
theorem witness_LayoutResults : ∃ s u v : State, ∃ ws r, s.guardPasses .always = true ∧ s.xReady [1, 2] ∧ s.ungated ∧
    s.reaches (s.cx.xr 2) 64 .load (onPage 0xF 0x50000) u ∧ u.readWaits (onPage 0xF 0x50000) 0 8 = .ok (ws, v) ∧
    layoutOf ws = some r := by
  have h := recordRead (((withData (regs 0x50000 0) [(0x50000, 1), (0x50001, 2)]).tlbFill 0 (pageEnt 0xF)).readWaits
    (onPage 0xF 0x50000) 0 8) (by decide +kernel)
  obtain ⟨v, ws, r, h1, h2⟩ := h
  exact ⟨_, _, v, ws, r, by decide, by unfold State.xReady; decide, by unfold State.ungated; decide,
    reaches_page _ _ _ _ _ _ (by decide) (by decide) (by decide) (by decide) (by decide) (by decide) (by decide) (by decide),
    h1, h2⟩

/-- A stream of 32 words at scratchpad byte 0, bound by context 0. -/
def desc (output : Bool) : StreamDesc := { base := 0x4000000000000000, es := 2, output := output, fe := false,
                                           n := [32, 1, 1], stride := [4, 0, 0] }


def withStream (t : Stream) : State := mes fun k => { k with streams := vput k.streams 0 t }
def newStream (output : Bool) : Stream :=
  { (Core.reset.streams.get 0) with bound := some (.memory 0 (desc output)) }
def descBytes : Memory := Memory.writeNat [] 0 64 (0x4000000000000000 + 2 * 2 ^ 64 + (32 + 2 ^ 32) * 2 ^ 128 + 2 ^ 192 +
  4 * 2 ^ 256)

theorem ok_of_match {α β : Type} [DecidableEq α] {x : Except β α} {a : α}
    (h : (match x with | .ok p => decide (p = a) | .error _ => false) = true) : x = .ok a := by
  cases x with
  | error e => exact absurd h (by simp)
  | ok p => exact congrArg Except.ok (of_decide_eq_true h)

theorem witness_StreamResults : ∃ s u v w : State,
    (s.guardPasses .always = true ∧ s.xReady [1, 2] ∧ s.quiet ∧ (∀ k, (s.me.xbar.estr.get k).getLsbD 4 = false) ∧
      (s.me.streams.get 0).bound = none ∧ (s.cx.xr 2).toNat + 64 ≤ 0x40000 ∧ (s.cx.xr 2).toNat % 64 = 0 ∧ s.me.spadLost = [] ∧
      streamDescOf (s.spadWords (s.cx.xr 2).toNat 8) = .ok (desc false)) ∧
    (u.guardPasses .always = true ∧ u.xReady [1, 2] ∧ u.quiet ∧ (∀ k, (u.me.xbar.estr.get k).getLsbD 4 = false) ∧
      (u.me.streams.get 0).bound = some (.memory u.curCtx (desc false)) ∧ (desc false).output = false ∧
      (u.me.streams.get 0).fault = none ∧ (u.me.streams.get 0).passed < (desc false).vectors ∧
      (u.me.streams.get 0).ready (desc false) ≠ 0 ∧ u.streamNamed 1 = none) ∧
    (v.guardPasses .always = true ∧ v.xReady [1, 2] ∧ v.quiet ∧ (∀ k, (v.me.xbar.estr.get k).getLsbD 4 = false) ∧
      (v.me.streams.get 0).bound = some (.memory v.curCtx (desc true)) ∧ (desc true).output = true ∧
      (v.me.streams.get 0).fault = none ∧ (v.me.streams.get 0).passed < (desc true).vectors ∧
      (v.me.streams.get 0).buf.length < 8 ∧ v.restartable = false ∧ v.streamNamed 2 = none) ∧
    (w.guardPasses .always = true ∧ w.xReady [1, 2] ∧ w.quiet ∧ (w.me.streams.get 0).bound = none ∧
      (w.cx.xr 2).toNat % 16 < 14 ∧ (w.cx.xr 2).toNat < 32 ∧ 29 ≤ (w.cx.xr 2).toNat) :=
  ⟨mes fun k => { k with spad := descBytes }, withStream { newStream false with engine := 32, buf := [1] },
    withStream (newStream true), regs 29 0,
    ⟨by decide, by unfold State.xReady; decide, by unfold State.quiet; decide, by decide, by decide, by decide, by decide,
      rfl, ok_of_match (by decide +kernel)⟩,
    by unfold State.xReady State.quiet; decide, by unfold State.xReady State.quiet; decide,
    by unfold State.xReady State.quiet; decide⟩

-- a copy of eight bytes within the scratchpad on channel 0; eight requests in the FIFO; a reserved bit; a channel in a fault
/-- The registers that a copy instruction with request register 8 reads. -/
def copyRegs (w0 : DWord) : Vector DWord 32 := vput (vput (vput (vput Ctx.reset.x 8 w0) 9 0x4000000000000000) 10
  0x4000000000000100) 11 0
def aCopy : CopyReq := { w0 := 0, w1 := 0x4000000000000000, w2 := 0x4000000000000100, w3 := 0, id := 1, layout := none,
                         released := false, seen := [] }
theorem witness_CopyResults : ∃ s u v w x : State,
    (s.guardPasses .always = true ∧ s.quiet ∧ s.unbound ∧ s.xReady [1, 8, 2, 9, 10, 11] ∧ s.restartable = false ∧
      requestFault s.me { aCopy with w0 := s.cx.xr 8, w1 := s.cx.xr 9, w2 := s.cx.xr 10, w3 := s.cx.xr 11, id := 0 } = none ∧
      s.me.fifo.length < 8 ∧ 7 ≤ s.me.fifo.length) ∧
    (u.guardPasses .always = true ∧ u.quiet ∧ u.unbound ∧ u.xReady [1, 8, 2, 9, 10, 11] ∧ u.restartable = false ∧
      requestFault u.me { aCopy with w0 := u.cx.xr 8, w1 := u.cx.xr 9, w2 := u.cx.xr 10, w3 := u.cx.xr 11, id := 0 } = none ∧
      8 ≤ u.me.fifo.length) ∧
    (v.guardPasses .always = true ∧ v.quiet ∧ v.unbound ∧ v.xReady [1, 8, 2, 9, 10, 11] ∧ v.restartable = false ∧ v.trapFree ∧
      requestFault v.me { aCopy with w0 := v.cx.xr 8, w1 := v.cx.xr 9, w2 := v.cx.xr 10, w3 := v.cx.xr 11, id := 0 } =
        some (0, 48)) ∧
    (w.guardPasses .always = true ∧ w.quiet ∧ w.unbound ∧ w.xReady [1, 2, 3] ∧ (w.cx.xr 2).toNat < 4 ∧ w.cx.xr 3 = 1 ∧
      (w.me.chans.get 0).done = 0 ∧ w.trapFree ∧ (w.me.chans.get 0).fault = some (0x08, 0x50000) ∧
      (w.me.chans.get 0).running = some { req := aCopy, done := [], idx := [] }) ∧
    (x.guardPasses .always = true ∧ x.quiet ∧ x.unbound ∧ x.xReady [1, 2, 3] ∧ (x.cx.xr 2).toNat < 4 ∧ x.cx.xr 3 = 0 ∧
      (x.me.chans.get 3).done = 0 ∧ (x.me.chans.get 3).fault = none) :=
  let q (n : Nat) : State := (cxs fun x => { x with x := copyRegs 0 }).modMe fun k => { k with fifo := List.replicate n aCopy }
  ⟨q 7, q 8, cxs fun x => { x with x := copyRegs 0x1000000000000 },
    (regs 0 1).modMe fun k => { k with chans := vmod k.chans 0 fun c =>
      { c with fault := some (0x08, 0x50000), running := some { req := aCopy, done := [], idx := [] } } }, regs 3 0,
    by unfold State.quiet State.unbound State.xReady; decide +kernel,
    by unfold State.quiet State.unbound State.xReady; decide +kernel,
    by unfold State.quiet State.unbound State.xReady State.trapFree; decide +kernel,
    by unfold State.quiet State.unbound State.xReady State.trapFree; decide,
    by unfold State.quiet State.unbound State.xReady; decide⟩

/-! ## Witnesses: the matrix slice and groups -/

-- A and B in the scratchpad; the last KiB for an extraction; gang sizes 1 and 16 and not 3; a recorded fault
theorem witness_MatrixResults : ∃ s u v w : State,
    (s.guardPasses .always = true ∧ s.quiet ∧ s.xReady [1, 2, 3] ∧ s.noStreams [1] ∧ s.me.accFault.get 3 = none ∧
      hasScales .bf16 = false ∧ (s.cx.xr 2).toNat % 32 = 0 ∧ (s.cx.xr 3).toNat % 32 = 0 ∧
      (s.cx.xr 2).toNat + sizeA .bf16 (2 ^ s.me.glog.toNat) ≤ 0x40000 ∧ (s.cx.xr 3).toNat + sizeB .bf16 ≤ 0x40000 ∧
      s.me.mq.length < 4 ∧ 3 ≤ s.me.mq.length ∧ s.pushesDone s.cur s.curCtx = true) ∧
    (u.guardPasses .always = true ∧ u.quiet ∧ u.xReady [1, 2, 3] ∧ u.noStreams [1] ∧ u.me.accFault.get 3 = none ∧
      u.me.mq = [] ∧ u.me.engW = [] ∧ u.me.mRun = none ∧ hasScales .f8 = true ∧ scaleGood (u.cx.f.get 0) = true ∧
      scaleGood (u.cx.f.get 1) = true ∧ (u.cx.xr 2).toNat % 8 = 0 ∧ (u.cx.xr 2).toNat + 1024 ≤ 0x40000 ∧ u.trapFree ∧
      u.pushesDone u.cur u.curCtx = true ∧ ∀ k, k ≤ 4 → (u.cx.xr 2).toNat ≠ 2 ^ k) ∧
    (v.guardPasses .always = true ∧ v.quiet ∧ v.xReady [1, 2, 3] ∧ v.noStreams [1] ∧ v.trapFree ∧
      v.me.accFault.get 3 = some { cause := 0x06, pc := 64, fidx := 1 }) ∧
    (w.guardPasses .always = true ∧ w.quiet ∧ w.xReady [1, 2, 3] ∧ w.me.mq = [] ∧ (w.cx.xr 2).toNat = 2 ^ 4) :=
  let m : MmaPost := { fmt := .bf16, n := 0, glog := 0, xa := 0, xb := 0, sA := 0, sB := 0, ctx := 0, pc := 0, snap := [],
                       seen := [] }
  ⟨(regs 0 0x3FC00).modMe fun k => { k with mq := [m, m, m] },
    (regs 0x3FC00 0).modCx fun x => { x with f := Vector.replicate 32 0x3FF0000000000000 },
    mes fun k => { k with accFault := vput k.accFault 3 (some { cause := 0x06, pc := 64, fidx := 1 }) }, regs 16 0,
    by unfold State.quiet State.noStreams State.xReady; decide +kernel,
    by unfold State.quiet State.noStreams State.xReady State.trapFree; decide +kernel,
    by unfold State.quiet State.noStreams State.xReady State.trapFree; decide,
    by unfold State.quiet State.xReady; decide⟩

/-- Core 0 in group 3 of 32 FP32 elements, descriptor at 0x5_0000; ALL-REDUCE. -/
def aMember : Member := { core := 0, joined := true, freed := false, inj := none, held := false, injRound := 1, outRound := 1,
                          outRes := true, data := List.replicate 32 0x3F800000, rounds := 1 }
def aGroup : Group := { gen := 1, live := true, desc := 0x50000, op := 0, ty := 0, kind := 0, count := 32, root := 0,
                        members := [aMember], aborted := false, aborting := [], abRound := 0, nres := 0, seen := [] }

-- the handle 0x1_0003; the vector block at the end of the scratchpad
theorem witness_GroupResults : ∃ s u v w : State,
    (s.guardPasses .always = true ∧ s.quiet ∧ s.unbound ∧ s.restartable = false ∧ s.xReady [1, 2, 3] ∧
      s.reaches (s.cx.xr 2) 64 .load (onPage 0xF 0x50000) u ∧
      u.groups.find? (fun p => p.2.live && p.2.desc == s.cx.xr 2) = some (3, aGroup) ∧ aGroup.rankOf s.cur = some 0) ∧
    (v.guardPasses .always = true ∧ v.quiet ∧ v.unbound ∧ v.restartable = false ∧ v.xReady [1, 2, 3] ∧
      v.groupOf (v.cx.xr 2) = .ok (3, aGroup, 0, aMember) ∧ aMember.injRound = aMember.outRound ∧ aMember.inj = none ∧
      aGroup.abortedAt 0 = false ∧ v.noStreams [3] ∧ v.noStreams [1] ∧ (v.cx.xr 3).toNat % 8 = 0 ∧
      (v.cx.xr 3).toNat + aGroup.count * aGroup.esize ≤ 0x40000 ∧ aMember.injRound ≠ 0 ∧ aMember.outRes = true ∧
      aGroup.receives 0 = true ∧ aGroup.count ≠ 0 ∧ aGroup.aborted = false ∧ v.cx.latch = none ∧ v.me.spadLost = []) ∧
    (w.guardPasses .always = true ∧ w.quiet ∧ w.unbound ∧ w.restartable = false ∧ w.xReady [1, 2, 3] ∧
      w.groupOf (w.cx.xr 2) = .ok (3, { aGroup with aborted := true }, 0, aMember)) :=
  let s := { withTables (regs 0x50000 0) 0xF [] with groups := [(3, aGroup)] }
  ⟨s, s.tlbFill s.cur (pageEnt 0xF), { regs 0x10003 0x3FF80 with groups := [(3, aGroup)] },
    { regs 0x10003 0 with groups := [(3, { aGroup with aborted := true })] },
    ⟨by decide, by unfold State.quiet; decide, by unfold State.unbound; decide, by decide, by unfold State.xReady; decide,
      reaches_page _ _ _ _ _ _ (by decide) (by decide) (by decide) (by decide) (by decide) (by decide) (by decide) (by decide),
      by decide, by decide⟩,
    ⟨by decide, by unfold State.quiet; decide, by unfold State.unbound; decide, by decide, by unfold State.xReady; decide,
      ok_of_match (by decide), by unfold State.noStreams; decide⟩,
    by decide, by unfold State.quiet; decide, by unfold State.unbound; decide, by decide, by unfold State.xReady; decide,
      ok_of_match (by decide)⟩

/-! ## Witnesses: sending, the routine table, counters -/

-- an event to core 8191 slot 63 of this module, with the longest block; host queue 15; a multicast group
-- a send with a full block; one of a restartable reaction on a core that logs, its 256th and its 257th; a host queue; a group
theorem witness_SendResults : ∃ s u v r x : State, ∃ q,
    (s.guardPasses .always = true ∧ s.quiet ∧ s.unbound ∧ s.restartable = false ∧ s.xReady [2, 3, 1, 1, 2, 3, 4] ∧
      (∀ r, s.cx.run = some r → r.seqBase = none) ∧ s.descFault (s.cx.xr 2) = none ∧ s.me.sendQ.length < 32 ∧
      s.noStreams [1] ∧ (s.cx.xr 1).toNat = (s.cx.xr 1).toNat % 2 ^ 18 + (s.cx.xr 1).toNat / 2 ^ 32 % 2 ^ 12 * 2 ^ 32 ∧
      (s.cx.xr 1).toNat / 2 ^ 32 % 2 ^ 12 = 2048 ∧ (s.cx.xr 1).toNat % 2 ^ 18 + 2048 = 0x40000 ∧
      s.me.blockBytes + 2048 ≤ 16384 ∧ s.cx.latch = none ∧ s.me.spadLost = []) ∧
    (u.guardPasses .always = true ∧ u.quiet ∧ u.unbound ∧ u.restartable = false ∧ u.xReady [2, 3, 1, 1, 2, 3, 4] ∧
      (u.cx.xr 2).toNat < 16 ∧ 15 ≤ (u.cx.xr 2).toNat ∧ (u.hostQ.get 15).credit = true) ∧
    (v.guardPasses .always = true ∧ v.quiet ∧ v.unbound ∧ v.restartable = false ∧ v.xReady [2, 3, 1, 1, 2, 3, 4] ∧
      v.groupOf (v.cx.xr 2) = .ok (3, { aGroup with kind := 5 }, 0, aMember) ∧
      (v.cx.xr 1).toNat = (v.cx.xr 1).toNat % 2 ^ 18 + (v.cx.xr 1).toNat / 2 ^ 32 % 2 ^ 12 * 2 ^ 32 ∧
      (v.cx.xr 1).toNat / 2 ^ 32 % 2 ^ 12 = 8 ∧ (v.cx.xr 3).toNat % 8 = 0 ∧ (v.cx.xr 3).toNat + 8 ≤ 0x40000 ∧
        v.cx.latch = none ∧ v.me.spadLost = []) ∧
    (r.quiet ∧ r.unbound ∧ r.xReady [2, 3, 1, 1, 2, 3, 4] ∧ r.restartable = true ∧ r.descFault (r.cx.xr 2) = none ∧
      r.sendsLeft = true ∧ r.me.sendQ.length < 32 ∧ r.cx.run = some q ∧ q.seqBase = some 0x100 ∧ q.sends = 255) ∧
    (x.quiet ∧ x.unbound ∧ x.xReady [2, 3, 1, 1, 2, 3, 4] ∧ x.sendsLeft = false ∧ x.trapFree) :=
  ⟨(regs 0xFFFFF000000 0).modCx fun x => { x with x := vput x.x 1 0x8000003F800 },
    { regs 15 0 with hostQ := vput State.reset.hostQ 15 { base := 0, cfg := 0x8000, head := 0xFFFFFFFF, tail := 0xFFFFFFFF } },
    { (regs 0x10003 0x3FFF8).modCx fun x => { x with x := vput x.x 1 0x800000000 } with
      groups := [(3, { aGroup with kind := 5 })] },
    (regs 0xFFFFF000000 0).modCx fun x => { x with run := some { aRun true false with seqBase := some 0x100, sends := 255 } },
    (regs 0xFFFFF000000 0).modCx fun x => { x with run := some { aRun true false with seqBase := some 0x100, sends := 256 } },
    { aRun true false with seqBase := some 0x100, sends := 255 },
    ⟨by decide, by unfold State.quiet; decide, by unfold State.unbound; decide, by decide, by unfold State.xReady; decide,
      by decide, by decide, by unfold State.noStreams; decide⟩,
    by unfold State.quiet State.unbound State.xReady; decide,
    ⟨by decide, by unfold State.quiet; decide, by unfold State.unbound; decide, by decide, by unfold State.xReady; decide,
      ok_of_match (by decide), by decide⟩,
    by unfold State.quiet State.unbound State.xReady; decide,
    by unfold State.quiet State.unbound State.xReady State.trapFree; decide⟩

/-- A slot that a change waits for. -/
def busySlot : State := (regs 63 1).modMe fun k => { k with slots := vmod k.slots 63 fun t => { t with pending := some (.unbind none) } }

theorem witness_SlotResults : ∃ s u v : State, ∃ r,
    (s.guardPasses .always = true ∧ s.restartable = false ∧ s.xReady [1, 2, 3] ∧ (s.cx.xr 2).toNat < 64 ∧
      63 ≤ (s.cx.xr 2).toNat ∧ (s.cx.xr 3).toNat % 8 = 0 ∧ (s.cx.xr 3).toNat + 32 ≤ 0x40000 ∧
      bindRec (BitVec.ofNat 64 (s.me.spad.readNat (s.cx.xr 3).toNat 8))
        (BitVec.ofNat 64 (s.me.spad.readNat ((s.cx.xr 3).toNat + 8) 8))
        (BitVec.ofNat 64 (s.me.spad.readNat ((s.cx.xr 3).toNat + 16) 8))
        (BitVec.ofNat 64 (s.me.spad.readNat ((s.cx.xr 3).toNat + 24) 8)) = some r ∧ r.code.getLsbD 0 = false ∧
      (s.me.slots.get 63).pending = none ∧ (s.me.slots.get 63).waiting = [] ∧ s.cx.latch = none ∧ s.me.spadLost = [] ∧
        s.hasPlace ∧ s.isLocal 0x80140000000 = true) ∧
    (u.guardPasses .always = true ∧ u.restartable = false ∧ u.xReady [1, 2, 3] ∧ (u.cx.xr 2).toNat < 64 ∧
      (u.me.slots.get 63).pending = none ∧ (u.me.slots.get 63).waiting = [] ∧ u.me.armGood (u.cx.xr 3) = true) ∧
    (v.guardPasses .always = true ∧ v.restartable = false ∧ v.xReady [1, 2, 3] ∧ (v.cx.xr 2).toNat < 64 ∧
      ¬((v.me.slots.get 63).pending = none ∧ (v.me.slots.get 63).waiting = []) ∧ v.me.armGood (v.cx.xr 3) = true) :=
  ⟨regs 63 0x3FFE0, regs 63 1, busySlot, _,
    ⟨by decide, by decide, by unfold State.xReady; decide, by decide, by decide, by decide, by decide, rfl, by decide, by decide,
      by decide, by decide, rfl, by unfold State.hasPlace State.ungated; decide, by decide⟩,
    by unfold State.xReady; decide, by unfold State.xReady; decide⟩

/-- Context 1 of core 0 in a reaction of that launch. -/
def inLaunch (pool : Bool) : State :=
  { State.reset with curCtx := 1, launches := [(1, aLaunch)], counters := [(1, { Counter.reset with count := 1, live := true })]
  }.modCx fun x => { x with run := some (aRun false pool) }

/-- A launch record at 0x5_0000 for core 0 with one routine record at 0x5_0040 (R335, R336). -/
def recordPage : State := withData (regs 0x50000 0) [(0x50010, 0x40), (0x50012, 5), (0x50021, 0x20), (0x50060, 1)]

theorem accepted (s : State) (die : Fin 4) (va : DWord) (tag : Tag) (m : KMap Nat) (hc : s.counters = []) (hl : s.launches = [])
    (h : (match s.readLaunch die va tag with | .ok _ => true | .error _ => false) = true) :
    ∃ w l, s.handleRecord die va tag m = (.ok l, w) := by
  unfold State.handleRecord
  split
  · rename_i heq; rw [heq] at h; exact absurd h (by simp)
  · have hf : s.freeCounter = (some ((s.draw 12).1.toNat % 4096), (s.draw 12).2) := by
      have hk (i : Nat) : (s.counter i).live = false := by unfold State.counter; rw [hc]; rfl
      have hn (i : Nat) : s.launches.find i = none := by rw [hl]; rfl
      simp [State.freeCounter, findFrom, hk, hn]
    rw [hf]
    have hb (a b : Nat) (n : Fin 64) : s.slotBusy a b n = false := by unfold State.slotBusy; rw [hl]; rfl
    simp [hb]

-- a record of zeros has no core
theorem refused (s : State) (die : Fin 4) (va : DWord) (tag : Tag) (m : KMap Nat)
    (h : (match s.readLaunch die va tag with | .ok _ => none | .error e => some e) = some 1) :
    s.handleRecord die va tag m = (.error 1, s) := by
  unfold State.handleRecord
  split
  · rename_i heq; rw [heq] at h; simp only [Option.some.injEq] at h; rw [h]
  · rename_i heq; rw [heq] at h; exact absurd h (by simp)

-- counters 0xFFF with two and with no completions missing; reactions with and without a pool, under DET; set-up code of a pooled
-- launch; a record the unit takes
theorem witness_CounterResults : ∃ s u v w x y z l d p : State, ∃ k,
    (s.guardPasses .always = true ∧ s.restartable = false ∧ s.quiet ∧ s.unbound ∧ s.xReady [1, 2] ∧
      counterOf (s.cx.xr 2) = some 0xFFF ∧ (s.counter 0xFFF).canc = false ∧ 2 ≤ (s.counter 0xFFF).count.toNat) ∧
    (u.guardPasses .always = true ∧ u.restartable = false ∧ u.quiet ∧ u.unbound ∧ u.xReady [1, 2] ∧
      counterOf (u.cx.xr 2) = some 0 ∧ (u.counter 0).canc = false ∧ (u.counter 0).count = 0 ∧ u.cx.run = none ∧
      u.me.det = false ∧ u.cx.setup = none ∧ (u.cx.xr 2).toNat < 4) ∧
    (v.guardPasses .always = true ∧ v.restartable = false ∧ v.quiet ∧ v.unbound ∧ v.xReady [1, 2] ∧
      counterOf (v.cx.xr 2) = none ∧ v.trapFree) ∧
    (w.guardPasses .always = true ∧ w.restartable = false ∧ w.quiet ∧ w.unbound ∧ w.xReady [1, 2] ∧
      w.cx.run = some (aRun false true) ∧ w.me.det = false ∧ w.pull w.cur 1 = (some k, x) ∧
      w.launches.find 1 = some aLaunch ∧ aLaunch.poolN ≠ 0 ∧ w.cx.xr 2 = 0) ∧
    (d.guardPasses .always = true ∧ d.restartable = false ∧ d.quiet ∧ d.unbound ∧ d.xReady [1, 2] ∧ d.me.det = true) ∧
    (p.guardPasses .always = true ∧ p.restartable = false ∧ p.quiet ∧ p.unbound ∧ p.xReady [1, 2] ∧ p.cx.run = none ∧
      p.cx.setup = some 1 ∧ p.launches.find 1 = some aLaunch ∧ p.cx.xr 2 = 0) ∧
    (recordPage.guardPasses .always = true ∧ recordPage.restartable = false ∧ recordPage.quiet ∧ recordPage.unbound ∧
      recordPage.xReady [1, 2] ∧ recordPage.reaches (recordPage.cx.xr 2) 64 .load (onPage 0xF 0x50000) y ∧
      recordPage.cx.tnow = ⟨0, 0⟩ ∧ ∃ z l, y.handleRecord (dieIx recordPage.cur.val) 0x50000 ⟨0, 1⟩ y.cx.seen = (.ok l, z)) ∧
    (z.guardPasses .always = true ∧ z.restartable = false ∧ z.quiet ∧ z.unbound ∧ z.xReady [1, 2] ∧
      z.reaches (z.cx.xr 2) 64 .load (onPage 0xF 0x50000) l ∧ z.cx.tnow = ⟨0, 0⟩ ∧
      l.handleRecord (dieIx z.cur.val) 0x50000 ⟨0, 1⟩ l.cx.seen = (.error 1, l)) :=
  let z := withTables (regs 0x50000 0) 0xF []
  ⟨{ regs 0xFFF 0 with counters := [(0xFFF, { Counter.reset with count := 2, live := true })] }, State.reset,
    regs 0x4000 0, inLaunch true, _, recordPage.tlbFill recordPage.cur (pageEnt 0xF), z, z.tlbFill z.cur (pageEnt 0xF),
    mes fun k => { k with det := true }, { cxs fun x => { x with setup := some 1 } with launches := [(1, aLaunch)] }, _,
    by unfold State.quiet State.unbound State.xReady; decide, by unfold State.quiet State.unbound State.xReady; decide,
    by unfold State.quiet State.unbound State.xReady State.trapFree; decide,
    ⟨by decide, by decide, by unfold State.quiet; decide, by unfold State.unbound; decide, by unfold State.xReady; decide,
      by decide, by decide, rfl, by decide, by decide, by decide⟩,
    by unfold State.quiet State.unbound State.xReady; decide, by unfold State.quiet State.unbound State.xReady; decide,
    ⟨by decide, by decide, by unfold State.quiet; decide, by unfold State.unbound; decide, by unfold State.xReady; decide,
      reaches_page _ _ _ _ _ _ (by decide) (by decide) (by decide) (by decide) (by decide) (by decide) (by decide) (by decide),
      by decide, accepted _ _ _ _ _ rfl rfl (by decide +kernel)⟩,
    by decide, by decide, by unfold State.quiet; decide, by unfold State.unbound; decide, by unfold State.xReady; decide,
      reaches_page _ _ _ _ _ _ (by decide) (by decide) (by decide) (by decide) (by decide) (by decide) (by decide) (by decide),
      by decide, refused _ _ _ _ _ (by decide +kernel)⟩

/-- A page with OBJ. -/
def objPage (a b : DWord) : State := withTables (regs a b) 0xF [(0x40029, 2)]

def pageObj0 : State := withTables (regs 0x50000 0) 0xF []

-- the last object of an OBJ page, an item and the sentinel, without and with DET; a page without OBJ; an address one byte beyond
theorem witness_ObjectResults : ∃ s t u v w x y z : State,
    (s.guardPasses .always = true ∧ s.restartable = false ∧ s.quiet ∧ s.unbound ∧ s.xReady [1, 2, 3] ∧
      (s.cx.xr 2).toNat % 64 = 0 ∧ s.reaches (s.cx.xr 2) 64 .store (onPage 0x20F 0x5FFC0) t ∧
      (onPage 0x20F 0x5FFC0).isV = false ∧ (onPage 0x20F 0x5FFC0).isObj = true ∧ isRemote 0x5FFC0 = false ∧
      s.paUnreachable 0x5FFC0 = false ∧ s.trapFree ∧ s.cx.xr 3 ≠ 0x8000000000000000 ∧ s.me.det = false) ∧
    (y.guardPasses .always = true ∧ y.restartable = false ∧ y.quiet ∧ y.unbound ∧ y.xReady [1, 2, 3] ∧
      y.reaches (y.cx.xr 2) 64 .store (onPage 0x20F 0x5FFC0) z ∧ y.paUnreachable 0x5FFC0 = false ∧
      y.cx.xr 3 ≠ 0x8000000000000000 ∧ y.me.det = true) ∧
    (u.guardPasses .always = true ∧ u.restartable = false ∧ u.quiet ∧ u.unbound ∧ u.xReady [1, 2, 3] ∧
      (u.cx.xr 2).toNat % 64 = 0 ∧ u.reaches (u.cx.xr 2) 64 .store (onPage 0x20F 0x5FFC0) v ∧ u.trapFree ∧
      u.cx.xr 3 = 0x8000000000000000) ∧
    (pageObj0.guardPasses .always = true ∧ pageObj0.restartable = false ∧ pageObj0.quiet ∧ pageObj0.unbound ∧
      pageObj0.xReady [1, 2, 3] ∧
      (pageObj0.cx.xr 2).toNat % 64 = 0 ∧
      pageObj0.reaches (pageObj0.cx.xr 2) 64 .store (onPage 0xF 0x50000) w ∧ (onPage 0xF 0x50000).isObj = false ∧
      pageObj0.trapFree) ∧
    (x.guardPasses .always = true ∧ x.restartable = false ∧ x.quiet ∧ x.unbound ∧ x.xReady [1, 2, 3] ∧
      (x.cx.xr 2).toNat % 64 = 1 ∧ x.trapFree) :=
  ⟨objPage 0x5FFC0 7, _, objPage 0x5FFC0 0x8000000000000000, _, _, regs 0x50041 0,
    (objPage 0x5FFC0 7).modMe fun k => { k with det := true }, _,
    ⟨by decide, by decide, by unfold State.quiet; decide, by unfold State.unbound; decide, by unfold State.xReady; decide,
      by decide,
      reaches_page _ _ _ _ _ _ (by decide) (by decide) (by decide) (by decide) (by decide) (by decide) (by decide) (by decide),
      by decide, by decide, by decide, by decide, by unfold State.trapFree; decide, by decide, by decide⟩,
    ⟨by decide, by decide, by unfold State.quiet; decide, by unfold State.unbound; decide, by unfold State.xReady; decide,
      reaches_page _ _ _ _ _ _ (by decide) (by decide) (by decide) (by decide) (by decide) (by decide) (by decide) (by decide),
      by decide, by decide, by decide⟩,
    ⟨by decide, by decide, by unfold State.quiet; decide, by unfold State.unbound; decide, by unfold State.xReady; decide,
      by decide,
      reaches_page _ _ _ _ _ _ (by decide) (by decide) (by decide) (by decide) (by decide) (by decide) (by decide) (by decide),
      by unfold State.trapFree; decide, by decide⟩,
    ⟨by decide, by decide, by unfold State.quiet; decide, by unfold State.unbound; decide, by unfold State.xReady; decide,
      by decide,
      reaches_page _ _ _ _ _ _ (by decide) (by decide) (by decide) (by decide) (by decide) (by decide) (by decide) (by decide),
      by decide, by unfold State.trapFree; decide⟩,
    by unfold State.quiet State.unbound State.xReady State.trapFree; decide⟩

-- register 18, the last; counter 3; performance counter 7; the mask of all counters; every TLB entry of the core
theorem witness_CrossbarResults : ∃ s u v w : State,
    (s.guardPasses .always = true ∧ s.restartable = false ∧ s.xReady [1, 2, 3] ∧ (s.cx.xr 2).toNat < 19 ∧
      18 ≤ (s.cx.xr 2).toNat ∧ xbarReserved (s.cx.xr 2).toNat (s.cx.xr 3) = false ∧
      ∀ k, (s.me.xbar.term.get k).en = false) ∧
    (u.guardPasses .always = true ∧ u.restartable = false ∧ u.xReady [1, 2, 3] ∧ (u.cx.xr 2).toNat < 4 ∧
      3 ≤ (u.cx.xr 2).toNat ∧ 1 ≤ (u.cx.xr 3).toNat / 2 ^ 32 ∧ (u.cx.xr 3).toNat / 2 ^ 32 ≤ 4 ∧
      (u.cx.xr 3).toNat % 2 ^ 32 = 0 ∧ (u.cx.xr 3).toNat / 2 ^ 35 = 0) ∧
    (v.guardPasses .always = true ∧ v.restartable = false ∧ v.xReady [1, 2, 3] ∧ (v.cx.xr 2).toNat < 8 ∧
      7 ≤ (v.cx.xr 2).toNat ∧ hiddenEvent v.cur (v.me.pcfg.get 7) = false) ∧
    (w.guardPasses .always = true ∧ w.restartable = false ∧ w.xReady [1, 2, 3] ∧ (w.cx.xr 2).toNat < 256 ∧
      255 ≤ (w.cx.xr 2).toNat) :=
  ⟨regs 18 5, regs 3 0x400000000, regs 7 3, regs 255 0, by unfold State.xReady; decide, by unfold State.xReady; decide,
    by unfold State.xReady; decide, by unfold State.xReady; decide⟩

/-! ## Witnesses for the clauses of particular cases -/

-- what else a line operation needs; a region that the core holds, for a module of another chassis
theorem witness_LineOperationUngated : ∃ s : State, s.guardPasses .always = true ∧ s.xReady [2] ∧ s.released ∧ s.ungated :=
  ⟨regs 0x50001 0, by unfold State.xReady State.released State.ungated; decide⟩
theorem witness_HandBeyondChassis : ∃ s : State, s.guardPasses .always = true ∧ s.xReady [2, 3] ∧ s.quiet ∧ s.unbound ∧
    s.capHeld s.cur (regionOf (s.cx.xr 2)) = true ∧ s.isLocal (s.cx.xr 3) = false ∧
    (descDev (s.cx.xr 3)).toNat % 2 ^ 14 ≠ s.devCoord.toNat % 2 ^ 14 ∧ s.trapFree :=
  ⟨(regs 0x50000 0x0000100000000000).modMe fun k => { k with caps := [(5, 1)] },
    by unfold State.xReady State.quiet State.unbound State.trapFree; decide⟩

-- the table's line is lost to an error of an L2
theorem witness_LostTableEntry : ∃ (s : State) (w : WalkErr), s.guardPasses .always = true ∧ s.xReady [1, 2] ∧ s.hasPlace ∧
    s.trapFree ∧ (s.cx.xr 2 + BitVec.ofInt 64 (0 * 8)).toNat < 2 ^ 56 ∧ (s.cx.xr 2 + BitVec.ofInt 64 (0 * 8)).toNat % 8 = 0 ∧
    s.tlbFind s.cur 0x50000 = none ∧ s.walk s.cur 0x50000 = .error w ∧ w.lost = some 2 :=
  ⟨{ withTables (regs 0x50000 0) 0xF [] with lost := [(0x40000, 2)] }, ⟨4, 0, some 2⟩,
    by decide, by unfold State.xReady; decide, by unfold State.hasPlace State.ungated; decide, by unfold State.trapFree; decide,
    by decide, by decide, by decide, by decide, by decide⟩

/-- Context 13 at the end of a handler that skips the instruction at 0x5_0000, a long one. -/
def skipping : State :=
  { (withData State.reset [(0x50001, 0xC0)]).modMe fun k =>
      { k with trap := { TrapRec.zero with ctx := 2, fpc := 0x50000, finfo := 0x80000000 } } with curCtx := 13 }

theorem witness_SkippedInstruction : skipping.guardPasses .always = true ∧ skipping.me.trap.ctx = (2 : CtxId).val ∧
    skipping.me.recs = [] ∧ skipping.curCtx = 13 ∧ skipping.me.trap.defd = false ∧
    skipping.me.trap.finfo.getLsbD 31 = true ∧ (skipping.fetchHalf skipping.cur skipping.me.trap.fpc).1 = .ok 0xC000 ∧
    0xC000 / 2 ^ 14 = 3 :=
  ⟨by decide, by decide, by decide, rfl, by decide, by decide, ok_of_match (by decide +kernel), by decide⟩

-- a unit of 1,000 ns before any event; blocks 4 to 7
theorem witness_SpecialWriteLimits : ∃ s u : State,
    (s.xReady [1] ∧ s.curCtx = 0 ∧ s.me.inbox = [] ∧ (∀ h : CtxId, 1 ≤ h.val → h.val ≤ 10 → (s.me.ctx h).live = false) ∧
      1 ≤ (s.cx.xr 1).toNat % 2 ^ 20 ∧ (s.cx.xr 1).toNat % 2 ^ 20 ≤ 1000000) ∧
    (u.xReady [1] ∧ (u.cx.xr 1).toNat % 8 + (u.cx.xr 1).toNat / 8 % 16 ≤ 8 ∧ u.me.blkUsed = [] ∧
      ∀ i, ∀ b ∈ (u.me.slots.get i).joinBufs,
        overlaps (0x3C000 + (u.cx.xr 1).toNat % 8 * 2048) ((u.cx.xr 1).toNat / 8 % 16 * 2048) b.1 b.2 = false) :=
  ⟨cxs fun x => { x with x := vput x.x 1 1000 }, cxs fun x => { x with x := vput x.x 1 36 },
    by unfold State.xReady; decide, by unfold State.xReady; decide⟩

-- the ring ends with the last doubleword of host memory
theorem witness_HostMessage : ∃ s : State, s.guardPasses .always = true ∧ s.quiet ∧ s.unbound ∧ s.restartable = false ∧
    s.xReady [2, 3, 1, 1, 2, 3, 4] ∧ (s.cx.xr 2).toNat < 16 ∧ (s.hostQ.get 15).credit = true ∧ s.mem.wf = true ∧
    (s.hostQ.get 15).base.toNat + 64 * 2 ^ ((s.hostQ.get 15).cfg.toNat % 16 + 4) + 8 ≤ 2 ^ 50 :=
  ⟨{ regs 15 0 with
      hostQ := vput State.reset.hostQ 15 { base := 0x3FFFFFFFFFBF8, cfg := 0x8000, head := 0xFFFFFFFF, tail := 0xFFFFFFFF } },
    by decide, by unfold State.quiet; decide, by unfold State.unbound; decide, by decide, by unfold State.xReady; decide,
    by decide, by decide, by decide, by decide⟩

/-- A group's descriptor at 0x5_0000, of 32 FP32 elements and one member; its list at 0x5_0040 names core 0 (R180). -/
def groupPage : State := withData (regs 0x50000 0) [(0x50001, 32), (0x50004, 1), (0x50008, 0x40), (0x5000A, 5)]

theorem groupRead (s : State) (e : EA) (f : Nat)
    (h : (match s.readWaits e 0 8 with
      | .ok (ws, v) => descGood ws && (ws.getD 0 0).toNat / 2 ^ 32 % 2 ^ 14 == 1 &&
          (match v.readList (ws.getD 1 0) 2 f with
          | .ok (ls, w) => ls == [0, 0] && w.freeGroup.1.isSome
          | .error _ => false)
      | .error _ => false) = true) :
    ∃ ws v w z j, s.readWaits e 0 8 = .ok (ws, v) ∧ descGood ws = true ∧ (ws.getD 0 0).toNat / 2 ^ 32 % 2 ^ 14 = 1 ∧
      v.readList (ws.getD 1 0) 2 f = .ok ([0, 0], w) ∧ w.freeGroup = (some j, z) := by
  split at h
  · rename_i ws v hr
    simp only [Bool.and_eq_true, beq_iff_eq] at h
    obtain ⟨⟨h1, h2⟩, h3⟩ := h
    split at h3
    · rename_i ls w hl
      simp only [Bool.and_eq_true, beq_iff_eq] at h3
      obtain ⟨h4, h5⟩ := h3
      obtain ⟨j, hj⟩ := Option.isSome_iff_exists.mp h5
      exact ⟨ws, v, w, w.freeGroup.2, j, hr, h1, h2, h4 ▸ hl, Prod.ext hj rfl⟩
    · exact absurd h3 (by simp)
  · exact absurd h (by simp)

theorem witness_GroupCreated : ∃ (u v w z : State) (ws : List DWord) (j : Nat),
    groupPage.guardPasses .always = true ∧ groupPage.quiet ∧ groupPage.unbound ∧ groupPage.restartable = false ∧
    groupPage.xReady [1, 2, 3] ∧ groupPage.reaches (groupPage.cx.xr 2) 64 .load (onPage 0xF 0x50000) u ∧
    (∀ p ∈ u.groups, p.2.live = true → p.2.desc ≠ groupPage.cx.xr 2) ∧
    u.readWaits (onPage 0xF 0x50000) 0 8 = .ok (ws, v) ∧ descGood ws = true ∧
    (ws.getD 0 0).toNat / 2 ^ 32 % 2 ^ 14 = 1 ∧ v.readList (ws.getD 1 0) 2 2 = .ok ([0, 0], w) ∧
    w.freeGroup = (some j, z) := by
  have h := groupRead (groupPage.tlbFill 0 (pageEnt 0xF)) (onPage 0xF 0x50000) 2 (by decide +kernel)
  obtain ⟨ws, v, w, z, j, h⟩ := h
  exact ⟨_, v, w, z, ws, j, by decide, by unfold State.quiet; decide, by unfold State.unbound; decide, by decide,
    by unfold State.xReady; decide,
    reaches_page _ _ _ _ _ _ (by decide) (by decide) (by decide) (by decide) (by decide) (by decide) (by decide) (by decide),
    by decide, h⟩

-- the last completion of a launch: without a parent, and with one whose count is 2
theorem witness_LastCompletion : ∃ s u : State, ∃ p,
    (s.guardPasses .always = true ∧ s.restartable = false ∧ s.quiet ∧ s.unbound ∧ s.xReady [1, 2] ∧
      counterOf (s.cx.xr 2) = some 1 ∧ (s.counter 1).canc = false ∧ (s.counter 1).count = 1 ∧ (s.counter 1).parent = none) ∧
    (u.guardPasses .always = true ∧ u.restartable = false ∧ u.quiet ∧ u.unbound ∧ u.xReady [1, 2] ∧
      counterOf (u.cx.xr 2) = some 1 ∧ (u.counter 1).canc = false ∧ (u.counter 1).count = 1 ∧ (u.counter 1).parent = some p ∧
      p ≠ 1 ∧ (u.counter p).canc = false ∧ 2 ≤ (u.counter p).count.toNat) :=
  let s (c : KMap Counter) : State := { regs 1 0 with launches := [(1, aLaunch)], counters := c }
  ⟨s [(1, { Counter.reset with count := 1, live := true })],
    s [(1, { Counter.reset with count := 1, live := true, parent := some 2 }), (2, { Counter.reset with count := 2, live := true })],
    2, by unfold State.quiet State.unbound State.xReady; decide, by unfold State.quiet State.unbound State.xReady; decide⟩

-- nothing keeps the launch unit from reading the record
theorem witness_RecordReadable : (recordPage.tlbFill recordPage.cur (pageEnt 0xF)).recordStalls 0 0x50000 = false := by
  decide +kernel

-- cores on which nothing waits for the next cycle; ECPULSE that counts for no launch; an event of the caches, read once; one page
theorem witness_CrossbarCases : ∃ s u v : State,
    (s.guardPasses .always = true ∧ s.restartable = false ∧ s.xReady [1, 2, 3] ∧ (∀ k ∈ s.cores, k.2.hasSoon = false) ∧
      s.me.xbar.pulseCounts = false) ∧
    (u.guardPasses .always = true ∧ u.restartable = false ∧ u.xReady [1, 2, 3] ∧ (u.cx.xr 2).toNat < 8 ∧
      hiddenEvent u.cur (u.me.pcfg.get 7) = true ∧ u.me.pcntAt.get 7 ≠ u.cycle ∧ (∀ k ∈ u.cores, k.2.hasSoon = false)) ∧
    (v.guardPasses .always = true ∧ v.restartable = false ∧ v.xReady [1, 2, 3] ∧ 1 ≤ (v.cx.xr 3).toNat / 2 ^ 32 ∧
      (v.cx.xr 3).toNat / 2 ^ 32 ≤ 4 ∧ (v.cx.xr 3).toNat % 2 ^ 32 ≠ 0) :=
  ⟨regs 0 0, (regs 7 0).modMe fun k => { k with pcfg := vput k.pcfg 7 0x20, pcntAt := vput k.pcntAt 7 5 }, regs 0x50000 0x100000001,
    by unfold State.xReady; decide, by unfold State.xReady; decide, by unfold State.xReady; decide⟩

/-! ## Witnesses: happenings of requests and cores -/

/-- Context 0 of core 0 has these requests. -/
def outstanding (qs : List Req) : State := cxs fun x => { x with reqs := qs }

/-- A store and an atomic of context 0 at home in the memory of their core. -/
def ofKind (k : ReqKind) (d : Option Reg) : Req := { aReq k d with data := 5 }

-- a reply; a load and a store at home; a store at an overflowed line; each atomic; an atomic to host memory, and one of a page
-- with HA while queue 16 has no credit; a versioned store, valid and below its mark; a raise of the mark; a capability query; a
-- capability message that core 0 takes, and one that it has no place for
theorem witness_RequestHappenings :
    (∃ s : State, ∃ q, s.reqAt 0 0 0 = some q ∧ q.fault = none ∧ s.mem.wf = true ∧ s.cowActive = false ∧ q.reply = some 9) ∧
    (∃ s : State, ∃ q, s.reqAt 0 0 0 = some q ∧ q.fault = none ∧ s.mem.wf = true ∧ s.cowActive = false ∧
      q.kind = .load true ∧ q.reply = none ∧ q.aux = 0 ∧ isRemote q.pa = false ∧ s.bankAway q.pa = false ∧
      s.lineHeld q.pa = false ∧ s.isLost q.pa = false ∧ s.objs = [] ∧ s.past = [] ∧
      (∀ r ∈ ((s.core 0).ctx 0).reqs.take 0, r.meets q = false) ∧ s.pushPending 0 0 q.va q.pa q.size q.id = false) ∧
    (∀ ov : Bool, ∃ s : State, ∃ q, s.reqAt 0 0 0 = some q ∧ q.fault = none ∧ s.mem.wf = true ∧ s.cowActive = false ∧
      q.kind = .store ∧ isRemote q.pa = false ∧ s.writeOpen 0 0 0 q = true ∧ s.overflowed q.pa = ov ∧
      s.lineHeld q.pa = false) ∧
    (∀ op, op < 15 → ∃ s : State, ∃ q, s.reqAt 0 0 0 = some q ∧ q.fault = none ∧ s.mem.wf = true ∧ s.cowActive = false ∧
      q.kind = .atomic op ∧ q.fb = none ∧ q.reply = none ∧ q.obj = false ∧ isRemote q.pa = false ∧ s.overflowed q.pa = false ∧
      s.writeOpen 0 0 0 q = true ∧ q.queue = false ∧ s.isLost q.pa = false) ∧
    (∀ ha : Bool, ∃ s : State, ∃ q, s.reqAt 0 0 0 = some q ∧ q.fault = none ∧ s.mem.wf = true ∧ s.cowActive = false ∧
      q.kind = .atomic 0 ∧ q.fb = none ∧ q.reply = none ∧ q.obj = false ∧ inHost q.pa = true ∧ s.writeOpen 0 0 0 q = true ∧
      q.queue = false ∧ q.ha = ha ∧ (s.hostQ.get 16).credit = false) ∧
    (∃ s : State, ∃ q, s.reqAt 0 0 0 = some q ∧ q.fault = none ∧ s.mem.wf = true ∧ s.cowActive = false ∧ q.kind = .stv ∧
      (((s.core 0).ctx 0).reqs.take 0).all (fun r => r.fault.isSome || r.reply.isSome) = true ∧ s.pushesDone 0 0 = true ∧
      s.bankAway q.pa = false ∧
      (s.verAt q.pa).vers.find? (fun p => p.1 == q.aux.toNat) = none ∧ s.mark q.pa q.va ≤ q.aux.toNat ∧
      (s.verAt q.pa).vers.length < 4 ∧ s.homeStoreFree q.pa = true) ∧
    (∃ s : State, ∃ q, s.reqAt 0 0 0 = some q ∧ q.fault = none ∧ s.mem.wf = true ∧ s.cowActive = false ∧ q.kind = .stv ∧
      (((s.core 0).ctx 0).reqs.take 0).all (fun r => r.fault.isSome || r.reply.isSome) = true ∧ s.pushesDone 0 0 = true ∧
      s.bankAway q.pa = false ∧
      (s.verAt q.pa).vers.find? (fun p => p.1 == q.aux.toNat) = none ∧ q.aux.toNat < s.mark q.pa q.va) ∧
    (∃ s : State, ∃ q, s.reqAt 0 0 0 = some q ∧ q.fault = none ∧ s.mem.wf = true ∧ s.cowActive = false ∧ q.kind = .recl ∧
      s.mark q.pa q.va < q.aux.toNat) ∧
    (∃ s : State, ∃ q, s.reqAt 0 0 0 = some q ∧ q.fault = none ∧ s.mem.wf = true ∧ s.cowActive = false ∧ q.kind = .capq ∧
      s.isLocal q.data = true) ∧
    (∃ s : State, ∃ q m, s.reqAt 0 0 0 = some q ∧ q.fault = none ∧ s.mem.wf = true ∧ s.cowActive = false ∧ s.capMsgs = [m] ∧
      (s.core m.dst).caps.length < 64 ∧ 63 ≤ (s.core m.dst).caps.length) ∧
    ∃ s : State, ∃ q m, s.reqAt 0 0 0 = some q ∧ q.fault = none ∧ s.mem.wf = true ∧ s.cowActive = false ∧ s.capMsgs = [m] ∧
      64 ≤ (s.core m.dst).caps.length ∧ m.refused = false := by
  let caps (n : Nat) : State := { (outstanding [aReq .capq none]).modMe fun k => { k with caps := List.replicate n (9, 1) } with
                                  capMsgs := [⟨5, 1, 1, 0, false, []⟩] }
  refine ⟨⟨outstanding [{ aReq .ldv (some 4) with reply := some 9 }], _, rfl, by decide⟩,
    ⟨outstanding [{ aReq (.load true) (some 4) with aux := 0 }], _, rfl, by decide⟩,
    fun ov => ⟨{ outstanding [aReq .store none] with dir := [(0x50000, ⟨[1, 2, 3, 4], ov, false, none⟩)] }, _, rfl, ?_⟩,
    fun op hop => ⟨outstanding [aReq (.atomic op) (some 4)], _, rfl, rfl, ?_⟩,
    fun ha => ⟨outstanding [{ aReq (.atomic 0) (some 4) with pa := 2 ^ 50, ha := ha }], _, rfl, ?_⟩,
    ⟨outstanding [{ aReq .stv none with aux := 7 }], _, rfl, by decide⟩,
    ⟨{ outstanding [{ aReq .stv none with aux := 7 }] with marks := [(markKey 0x50000 0x50000, 8, 1)] }, _, rfl, by decide⟩,
    ⟨outstanding [{ aReq .recl none with aux := 7 }], _, rfl, by decide⟩,
    ⟨outstanding [{ aReq .capq (some 4) with data := 0x80140000000 }], _, rfl, by decide⟩,
    ⟨caps 63, _, _, rfl, rfl, by decide, by decide, rfl, by decide⟩, caps 64, _, _, rfl, rfl, by decide, by decide, rfl,
      by decide⟩
  · cases ov <;> decide
  rotate_left
  · cases ha <;> decide
  have h : ∀ op, op < 15 → let s := outstanding [aReq (.atomic op) (some 4)]; let q := aReq (.atomic op) (some 4)
      s.mem.wf = true ∧ s.cowActive = false ∧ q.kind = .atomic op ∧ q.fb = none ∧ q.reply = none ∧ q.obj = false ∧
      isRemote q.pa = false ∧ s.overflowed q.pa = false ∧ s.writeOpen 0 0 0 q = true ∧ q.queue = false ∧
        s.isLost q.pa = false := by decide
  exact h op hop

/-- The first request of a context, with neither fault nor reply. -/
def firstReq (s : State) (q : Req) : Prop := s.reqAt 0 0 0 = some q ∧ q.fault = none ∧ q.reply = none
/-- It is of this module, and nothing keeps its place from it. -/
def placeOpen (s : State) (q : Req) : Prop := isRemote q.pa = false ∧ s.bankAway q.pa = false ∧ s.lineHeld q.pa = false ∧
  (q.aux.getLsbD 3 = true → s.shareOpen 0 q.pa = true)
/-- It is on a plain page and of no lost line. -/
def placePlain (s : State) (q : Req) : Prop := q.aux.getLsbD 0 = false ∧ q.aux.getLsbD 1 = false ∧
  s.objOpen q.pa q.va q.size = false ∧ s.isLost q.pa = false
/-- A versioned load of version `n`, of a word with versions 3 and 7 under watermark 2. -/
def versioned (k : ReqKind) (n : Nat) : State :=
  { outstanding [{ aReq k (some 4) with aux := dw n }] with
    vers := [(0x50000, { vers := [(3, 9), (7, 8)], lcnt := 1, seen := [] })], marks := [(markKey 0x50000 0x50000, 2, 1)] }
/-- A request for another module. -/
def farReq (k : ReqKind) : State := outstanding [{ aReq k (some 4) with pa := 2 ^ 51, sent := false }]

-- a load with a write in its past, one behind its own store, an LDC, a lost line; an LDV of a version, of one below the
-- watermark and of one to come, an LDVN of a version and of none; a load, a store and an atomic of another module; an atomic for
-- the fallback queue on a page without HA
theorem witness_LoadHappenings :
    (∃ s : State, ∃ q, firstReq s q ∧ placeOpen s q ∧ placePlain s q ∧ q.kind = .load true ∧ q.aux = 8 ∧
      s.openBefore 0 0 0 = [] ∧ s.pushPending 0 0 q.va q.pa q.size q.id = false ∧ s.past ≠ [] ∧
      ((s.core 0).ctx 0).seen.get 0 (q.pa / 8) < s.past.length) ∧
    (∃ s : State, ∃ q st, s.reqAt 0 0 1 = some q ∧ q.fault = none ∧ q.reply = none ∧ placeOpen s q ∧ placePlain s q ∧
      q.kind = .lda false ∧ s.openBefore 0 0 1 = [st] ∧ st.kind = .store ∧ st.meets q = true ∧ st.pa < q.pa ∧
      q.pa + q.size = st.pa + st.size) ∧
    (∃ s : State, ∃ q, firstReq s q ∧ placeOpen s q ∧ placePlain s q ∧ q.kind = .ldc true ∧ s.openBefore 0 0 0 = [] ∧
      KMap.find (s.constC.get [] (landingOf (0 : CoreId).val)) (lineOf q.pa) = none) ∧
    (∃ s : State, ∃ q, firstReq s q ∧ placeOpen s q ∧ q.kind = .load true ∧ s.isLost q.pa = true) ∧
    (∀ n ∈ [7, 1, 8], firstReq (versioned .ldv n) { aReq .ldv (some 4) with aux := dw n } ∧
      (versioned .ldv n).bankAway 0x50000 = false ∧
      (versioned .ldv n).stvBefore 0 0 0 { aReq .ldv (some 4) with aux := dw n } = false ∧
      (versioned .ldv n).isLost 0x50000 = false ∧ (versioned .ldv n).mark 0x50000 0x50000 = 2 ∧
      ((versioned .ldv n).verAt 0x50000).vers.find? (fun p => p.1 == n) = if n = 7 then some (7, 8) else none) ∧
    (∀ n ∈ [6, 2], firstReq (versioned .ldvn n) { aReq .ldvn (some 4) with aux := dw n } ∧
      ((versioned .ldvn n).verAt 0x50000).vers = [(3, 9), (7, 8)]) ∧
    (∀ k ∈ [ReqKind.load true, .store, .atomic 0], ∃ q, firstReq (farReq k) q ∧ q.kind = k ∧ isRemote q.pa = true ∧
      q.sent = false ∧ q.fb = none ∧ (farReq k).openBefore 0 0 0 = [] ∧ q.aux.getLsbD 0 = false ∧
      (farReq k).pushPending 0 0 q.va q.pa q.size q.id = false ∧ (farReq k).writeOpen 0 0 0 q = true) ∧
    (∃ s : State, ∃ q, firstReq s q ∧ q.kind = .load true ∧ s.loadStops 0 q = false ∧ q.aux.getLsbD 0 = true ∧
      s.isLost q.pa = false ∧ s.stvBefore 0 0 0 q = false) ∧
    ∃ s : State, ∃ q, firstReq s q ∧ q.kind = .atomic 1 ∧ q.fb = none ∧ isRemote q.pa = false ∧ s.writeOpen 0 0 0 q = true ∧
      q.ha = false ∧ q.queue = true := by
  refine ⟨⟨{ outstanding [{ aReq (.load true) (some 4) with aux := 8 }] with
        past := [{ pa := 0x50000, old := [7], src := none, unit := 6, scope := 7, rels := [] }] }, _, ⟨rfl, rfl, rfl⟩, ?_⟩,
    ⟨outstanding [{ aReq .store none with id := 0 }, { aReq (.lda false) (some 4) with pa := 0x50004, size := 4 }], _,
      { aReq .store none with id := 0 }, rfl, rfl, rfl, ?_⟩,
    ⟨outstanding [aReq (.ldc true) (some 4)], _, ⟨rfl, rfl, rfl⟩, ?_⟩,
    ⟨{ outstanding [aReq (.load true) (some 4)] with lost := [(0x50000, 3)] }, _, ⟨rfl, rfl, rfl⟩, ?_⟩, ?_, ?_, ?_,
    ⟨outstanding [{ aReq (.load true) (some 4) with aux := 1 }], _, ⟨rfl, rfl, rfl⟩, by decide⟩,
    ⟨outstanding [{ aReq (.atomic 1) (some 4) with pa := 2 ^ 50, queue := true }], _, ⟨rfl, rfl, rfl⟩, by decide⟩⟩
  · unfold placeOpen placePlain; decide
  · unfold placeOpen placePlain; decide
  · unfold placeOpen placePlain; decide
  · unfold placeOpen; decide
  · unfold firstReq; decide
  · unfold firstReq; decide
  · intro k hk
    exact ⟨{ aReq k (some 4) with pa := 2 ^ 51, sent := false }, ⟨rfl, rfl, rfl⟩, rfl, by fin_cases hk <;> decide, rfl, rfl,
      by fin_cases hk <;> rfl, by fin_cases hk <;> decide, by fin_cases hk <;> decide, by fin_cases hk <;> decide⟩

/-- A branch-target register in a prefetch. -/
def prefetching (tgt : BitVec 56) (nc : Bool) : BReg := { BReg.reset with tgt := tgt, v := true, busy := true, nonCanon := nc }

-- a fifth sharer of a line; an overflowed line; a page that is mapped and one that is not; prefetches of a good, an odd and a
-- non-canonical target; a waiter whose word is full; a waiting context; a waiting record; missed heartbeats
theorem witness_CoreHappenings :
    (∃ s : State, inHbm 0x50000 = true ∧ 0x50000 % 128 = 0 ∧ (s.dirAt 0x50000).sharers.length = 4 ∧
      s.isSharer 0 0x50000 = false ∧ s.lineHeld 0x50000 = false ∧
      (s.notices.get [] (homeLanding 0x50000)).length < 32 ∧ 31 ≤ (s.notices.get [] (homeLanding 0x50000)).length) ∧
    (∀ held : Bool, ∃ s : State, (s.dir.map Prod.fst).Nodup ∧ s.lineHeld 0x50000 = held) ∧
    (∃ s : State, ∃ e, s.walk 0 0x50000 = .ok e) ∧ (∃ s : State, ∃ w, s.walk 0 0xFFFFFFFFFFFFFF = .error w) ∧
    (∀ b ∈ [prefetching 64 false, prefetching 65 false, prefetching 64 true], ∃ s : State,
      ((s.core 0).ctx 0).b.get 7 = b ∧ b.busy = true ∧ s.prefetchWaits 0 b = false ∧
      s.codeAway 0 (b.tgt.setWidth 64) = false ∧ s.codeAway 0 (b.tgt.setWidth 64 + 14) = false) ∧
    (∃ s : State, ∃ w, (s.core 0).feWait.find? (fun w => (s.core 0).allFe w.addr w.full w.n && s.canRetry 0 w.ctx) = some w) ∧
    (∃ s : State, (s.core 0).feWait.find? (fun w => (s.core 0).allFe w.addr w.full w.n && s.canRetry 0 w.ctx) = none ∧
      (s.core 0).feWait ≠ []) ∧
    (∃ s : State, ((s.core 0).ctx 0).live = true ∧ ((s.core 0).ctx 0).stop = .waiting ∧ ∀ w ∈ (s.core 0).feWait, w.ctx ≠ 0) ∧
    (∃ s : State, ∃ r rest, ((s.core 0).ctx 13).live = false ∧ (s.core 0).recs = r :: rest) ∧
    (∃ s : State, ((s.core 0).ctx 1).beats 1 = true ∧ ((s.core 0).ctx 1).beatLeft = 0 ∧ (s.core 0).beatOf 1 ≠ 0) ∧
    ∃ s : State, ((s.core 0).ctx 13).beats 13 = true ∧ ((s.core 0).ctx 13).beatLeft = 0 ∧ (s.core 0).beatOf 13 ≠ 0 := by
  refine ⟨⟨{ State.reset with
        dir := [(0x50000, ⟨[1, 2, 3, 4], false, false, none⟩)]
        notices := [(homeLanding 0x50000, List.replicate 31 (0x60000, 9))] }, by decide⟩,
    fun held => ⟨{ State.reset with dir := [(0x50000, ⟨[1, 2, 3, 4], true, held, none⟩)] }, ?_⟩,
    ⟨withTables State.reset 0xF [], pageEnt 0xF, by decide⟩, ⟨State.reset, ⟨1, 1, none⟩, by decide⟩,
    fun b hb => ⟨cxs fun x => { x with b := vput x.b 7 b }, ?_⟩,
    ⟨(State.reset.modCtx 0 1 fun x => { x with live := true, stop := .waiting }).modMe fun k =>
      { k with full := [3], feWait := [⟨1, 24, 1, true⟩] }, ⟨1, 24, 1, true⟩, by decide⟩,
    ⟨mes fun k => { k with feWait := [⟨1, 24, 1, true⟩] }, by decide⟩,
    ⟨cxs fun x => { x with live := true, stop := .waiting }, by decide⟩,
    ⟨mes fun k => { k with recs := [TrapRec.zero] }, _, _, by decide, rfl⟩,
    ⟨State.reset.modCtx 0 1 fun x => { x with live := true, run := some (aRun false false) }, by decide⟩,
    State.reset.modCtx 0 13 fun x => { x with live := true }, by decide⟩
  · cases held <;> decide
  · fin_cases hb <;> decide

/-! ## Witnesses: happenings of reactions and events -/

/-- An event of core 0 slot 0 with two words at tag (0, 0). -/
def anEv : Ev := { dest := 0x80000000000, tag := ⟨0, 0⟩, origin := 0, seq := 0, sendTs := 0, payload := .words [7, 8],
                   sendLate := false, bex := false, restartable := false, replay := false, ctl := false }
def inEv (e : Ev) (pool : Option Nat) : InEv :=
  { ev := e, orig := none, cls := .die, arr := 0, block := none, late := none, pool := pool, rerun := false, base := none, units := [],
    spent := false, seen := [] }

/-- Slot 0 bound with these attributes, the timebase far ahead, these events in the inbox. -/
def bound (k : Nat) (pool : Bool) (es : List InEv) : State :=
  { (mes fun c => { c with slots := vmod c.slots 0 fun t => { t with bound := true, k := k, pool := pool, hold := 1, lcnt := 1 },
                           inbox := es }) with timebase := 2 ^ 40 }

/-- A deterministic launch of core 0 whose context 1 has used its quantum. -/
def roundOver : State :=
  { (mes fun k => { k with det := true, quantum := 1, ctxs := vmod k.ctxs 1 fun x => { x with live := true, retired := 1 } }) with
    launches := [(1, { aLaunch with det := true, poolN := 0 })] }

theorem witness_ReactionHappenings :
    (∃ s : State, ∃ j e n h, s.selects 0 = some (j, e, n, h) ∧ e.pool = none ∧ ((s.core 0).slots.get n).k ≤ 1) ∧
    (∃ s : State, ∃ j e n h, s.selects 0 = some (j, e, n, h) ∧ e.pool = none ∧ 1 < ((s.core 0).slots.get n).k ∧
      ((s.core 0).slots.get n).k ≤ ((s.core 0).group n e).length ∧ ((s.core 0).group n e).head? = some e) ∧
    (∃ s : State, ∃ j e n h, s.selects 0 = some (j, e, n, h) ∧ e.pool = none ∧ 1 < ((s.core 0).slots.get n).k ∧
      ((s.core 0).group n e).length < ((s.core 0).slots.get n).k ∧
      e.ev.tag.t.toNat + (s.core 0).horizon + ((s.core 0).slots.get n).g.toNat ≤ s.clock 0 ∧
      ((s.core 0).group n e).head? = some e) ∧
    (∃ s : State, ∃ j e n h ix w, s.selects 0 = some (j, e, n, h) ∧ e.pool = some 1 ∧ s.isDet 1 = false ∧
      s.pull 0 1 = (some ix, w) ∧ e.units = [] ∧ e.spent = false) ∧
    (∃ s : State, ∃ j e n h, s.selects 0 = some (j, e, n, h) ∧ e.pool = some 1 ∧ s.isDet 1 = false ∧ e.units = [(3, 9, 2)]) ∧
    (∃ s : State, ∃ j e, (s.core 0).head = some (j, e) ∧ (s.core 0).genOk e.ev = false) ∧
    (∃ s : State, ∃ j e, (s.core 0).head = some (j, e) ∧ (s.core 0).genOk e.ev = true ∧
      s.slotCancelled ((s.core 0).slots.get (descSlot e.ev.dest)) = true ∧ e.pool = none) ∧
    (∀ ch ∈ [SlotChange.bind ⟨64, 0, none, false, false, 1⟩ none, .unbind none, .arm 2 5 0x3C000 none], ∃ s : State,
      (s.core 0).runsSlot 63 = false ∧ ((s.core 0).slots.get 63).waiting = [] ∧
      ((s.core 0).slots.get 63).pending = some ch) ∧
    ∃ r, roundOver.launches.find 1 = some r ∧ r.det = true ∧ r.first + r.ncore ≤ 8192 ∧ 0 < r.ncore ∧
      (∀ d ∈ r.cores, (roundOver.core d).asks = false) ∧
      (∀ d ∈ r.cores, ∀ g ∈ helpers, roundOver.roundOf d 1 g = .ran ∨ roundOver.roundOf d 1 g = .free) ∧
      ∃ d ∈ r.cores, ∃ g ∈ helpers, roundOver.roundOf d 1 g = .ran := by
  refine ⟨⟨bound 1 false [inEv anEv none], 0, inEv anEv none, 0, 1, by decide⟩,
    ⟨bound 2 false [inEv anEv none, inEv { anEv with seq := 1 } none], 0, inEv anEv none, 0, 1, by decide⟩,
    ⟨bound 2 false [inEv anEv none], 0, inEv anEv none, 0, 1, by decide⟩,
    ⟨{ bound 1 true [inEv anEv (some 1)] with launches := [(1, aLaunch)] }, 0, inEv anEv (some 1), 0, 1, 0, _, by decide,
      by decide, by decide, rfl, rfl, rfl⟩,
    ⟨{ bound 1 true [{ inEv anEv (some 1) with units := [(3, 9, 2)] }] with launches := [(1, aLaunch)] }, 0,
      { inEv anEv (some 1) with units := [(3, 9, 2)] }, 0, 1, by decide⟩,
    ⟨bound 1 false [inEv { anEv with dest := 0x80000020000 } none], 0, inEv { anEv with dest := 0x80000020000 } none, by decide⟩,
    ⟨{ bound 1 false [inEv anEv none] with counters := [(1, { Counter.reset with count := 1, canc := true, live := true })] }, 0,
      inEv anEv none, by decide⟩,
    fun ch hc => ⟨mes fun k => { k with slots := vmod k.slots 63 fun t => { t with pending := some ch } }, ?_⟩,
    { aLaunch with det := true, poolN := 0 }, by decide, by decide, by decide, by decide, fun d hd => ?_, fun d hd => ?_, 0,
      by decide, 1,
    by decide, by decide⟩
  · fin_cases hc <;> decide
  all_goals
    have hd : d ∈ [(0 : CoreId)] := hd
    rw [List.mem_singleton.mp hd]; decide

/-- An event on its way. -/
def flying : Flight := { dest := 0, ev := anEv, cls := .package, pool := none, seen := [] }

-- with an empty inbox and with 63 events in it; held back; of the send queue, at and past its time; a full and an empty spill
theorem witness_EventHappenings :
    (∃ s : State, s.flight = [flying] ∧ s.capMsgs = [] ∧ (s.core 0).fenced = false ∧ (s.core 0).held = [] ∧
      (∀ q, (s.core 0).xbar.wait.get q = []) ∧
      s.canEnter 0 anEv = true ∧ anEv.replay = false ∧ (s.core 0).genOk anEv = true ∧
      Tag.less anEv.tag (s.core 0).last = false ∧ (s.core 0).tcfgInf11 = false ∧ (s.core 0).inbox.length = 63) ∧
    (∃ s : State, s.flight = [flying] ∧ s.capMsgs = [] ∧ (s.core 0).fenced = false ∧ (s.core 0).held ≠ []) ∧
    (∃ s : State, ∃ a r, (s.core 0).held = [a] ∧ a.replay = some r ∧ s.inboxRoom 0 a.ev = true ∧
      ∀ q, (s.core 0).xbar.wait.get q = []) ∧
    (∃ s : State, ∃ a, (s.core 0).held = [a] ∧ a.replay = none ∧ s.canEnter 0 a.ev = true ∧ (∀ q, (s.core 0).xbar.wait.get q = []) ∧
      a.ev.replay = false ∧ (s.core 0).genOk a.ev = true ∧ Tag.less a.ev.tag (s.core 0).last = false ∧
      (s.core 0).tcfgInf11 = false) ∧
    (∃ s u : State, ∃ e, (s.core 0).sendQ = [e] ∧ s.mayLeave 0 e = true ∧ s.isLocal e.ev.dest = true ∧
      ¬e.ev.tag.t.toNat < s.clock 0 ∧ (u.core 0).sendQ = [e] ∧ u.mayLeave 0 e = true ∧ u.isLocal e.ev.dest = true ∧
      e.ev.tag.t.toNat < u.clock 0) ∧
    (∀ room : Bool, ∃ s : State, ((s.core 0).ctx 12).live = true ∧ (s.core 0).inbox ≠ [] ∧
      s.heapTakes (s.core 0) (s.core 0).spillTake.1.length = room ∧
        s.cowFits (s.heapPlace 0 (s.core 0).spillTake.1.length) (s.core 0).spillTake.1.length = true) ∧
    (∃ s : State, ((s.core 0).ctx 12).live = true ∧ (s.core 0).heap ≠ [] ∧ ((s.core 0).fromHeap 0x100).canPut 0x100 = true) ∧
    (∃ s : State, ((s.core 0).ctx 12).live = true ∧ (s.core 0).heap = [] ∧ (s.core 0).canPut 0x100 = true) ∧
    (∃ s : State, ((s.core 0).xbar.cnt.get 3).cur = 0 ∧ ((s.core 0).xbar.cnt.get 3).reload ≠ 0 ∧
      ∀ q, ((s.core 0).xbar.term.get q).en = false) ∧
    ∃ s : State, ∃ w, (s.core 0).xbar.wait.get 1 = [w] ∧ (s.core 0).inbox.length < 64 := by
  let e : SendEntry := { ev := anEv, ctx := 0, upTo := 0, seen := [] }
  refine ⟨⟨{ (mes fun k => { k with inbox := List.replicate 63 (inEv anEv none) }) with flight := [flying] }, by decide⟩,
    ⟨{ (mes fun k => { k with held := [⟨anEv, .die, 0, none, [], none⟩] }) with flight := [flying] }, by decide⟩,
    ⟨mes fun k => { k with held := [(inEv anEv none).replayed] }, (inEv anEv none).replayed, inEv anEv none, by decide⟩,
    ⟨mes fun k => { k with held := [⟨anEv, .die, 0, none, [], none⟩] }, ⟨anEv, .die, 0, none, [], none⟩, by decide⟩,
    ⟨mes fun k => { k with sendQ := [e] }, { (mes fun k => { k with sendQ := [e] }) with timebase := 2000 }, e, by decide⟩,
    fun room => ⟨{ ((State.reset.modCtx 0 12 fun x => { x with live := true }).modMe fun k => { k with inbox := [inEv anEv none] })
      with spillLog := if room then 20 else 0 }, ?_⟩,
    ⟨(State.reset.modCtx 0 12 fun x => { x with live := true }).modMe fun k => { k with heap := [spillRecord (inEv anEv none)] },
      by decide⟩,
    ⟨State.reset.modCtx 0 12 fun x => { x with live := true }, by decide⟩,
    ⟨mes fun k => { k with xbar := { k.xbar with cnt := vmod k.xbar.cnt 3 fun c => { c with reload := 5 } } }, by decide⟩,
    mes fun k => { k with xbar := { k.xbar with wait := vput k.xbar.wait 1 [(7, [])] } }, (7, []), by decide⟩
  cases room <;> decide

/-! ## Witnesses: happenings of engines and groups -/

/-- A store of a constant (R159, kind 4) to scratchpad word 2, its full bit set. -/
def constCopy : CopyReq := { aCopy with w0 := 0x420000000000008, w1 := 0, w2 := 0x4000000000000010, w3 := 77 }
/-- A copy of one word within the scratchpad. -/
def wordCopy : CopyReq := { aCopy with w0 := 8 }
def runs (r : CopyReq) : State :=
  mes fun k => { k with chans := vmod k.chans 0 fun c => { c with running := some { req := r, done := [], idx := [] } } }

theorem copy_ok {α β : Type} {x : Except β α} (h : (match x with | .ok _ => true | .error _ => false) = true) :
    ∃ a, x = .ok a := by
  cases x with
  | error e => exact absurd h (by simp)
  | ok a => exact ⟨a, rfl⟩

/-- A stream of words at global address 0x5_0000, bound behind a store of its context that is not performed. -/
def globalDesc : StreamDesc := { desc false with base := 0x50000 }
def onGlobal : State :=
  withTables (cxs fun x => { x with reqs := [aReq .store none] }) 0xF [] |>.modMe fun k =>
    { k with streams := vput k.streams 0 { newStream false with bound := some (.memory 0 globalDesc), boundAt := 2 } }

-- a request at the head of its channel; a running one, and one with an element to read; a stream that waits; an input stream
-- of words; an output stream at the end of its vector
theorem witness_CopyHappenings :
    (∃ s : State, ∃ r, (∀ n, ((s.core 0).xbar.term.get n).en = false) ∧ (∀ n, ((s.core 0).xbar.estr.get n).getLsbD 4 = false) ∧
      (s.core 0).fifo.find? (fun r => r.chan == 0) = some r ∧ ((s.core 0).chans.get 0).running = none ∧
      ((s.core 0).chans.get 0).fault = none ∧ r.isHeld = false ∧ s.stopped = false) ∧
    (∃ s w : State, ∃ run v, (∀ n, ((s.core 0).xbar.term.get n).en = false) ∧
      (∀ n, ((s.core 0).xbar.estr.get n).getLsbD 4 = false) ∧ ((s.core 0).chans.get 0).running = some run ∧
      ((s.core 0).chans.get 0).fault = none ∧ s.copyAll 0 0 run (upto run.req.count) = .ok (w, v) ∧
      (∀ n, ((w.core 0).xbar.term.get n).en = false) ∧ run.done = [] ∧ (s.core 0).spad.wf = true ∧
      run.req.w0.toNat / 2 ^ 56 = 4 ∧ run.req.w0.toNat % 2 ^ 48 = 8 ∧ run.req.w2.toNat / 2 ^ 62 = 1 ∧
      run.req.w2.toNat % 2 ^ 18 % 8 = 0 ∧ run.req.w0.getLsbD 53 = true) ∧
    (∃ s : State, ∃ run, (∀ n, ((s.core 0).xbar.term.get n).en = false) ∧ (∀ n, ((s.core 0).xbar.estr.get n).getLsbD 4 = false) ∧
      ((s.core 0).chans.get 0).running = some run ∧ ((s.core 0).chans.get 0).fault = none ∧
      ∃ j, j < run.req.count ∧ run.mayPerform j = true ∧ s.elementAddr 0 run j ≠ none) ∧
    (∃ s : State, ∃ d : StreamDesc, (∀ n, ((s.core 0).xbar.term.get n).en = false) ∧
      (∀ n, ((s.core 0).xbar.estr.get n).getLsbD 4 = false) ∧ ((s.core 0).streams.get 0).bound = some (.memory 0 d) ∧
      s.elementWaits 0 0 ((s.core 0).streams.get 0) d (d.addr ((s.core 0).streams.get 0).engine) = true) ∧
    (∃ s w : State, ∃ v l, (∀ n, ((s.core 0).xbar.term.get n).en = false) ∧
      (∀ n, ((s.core 0).xbar.estr.get n).getLsbD 4 = false) ∧
      ((s.core 0).streams.get 0).bound = some (.memory 0 (desc false)) ∧ (desc false).output = false ∧
      ((s.core 0).streams.get 0).fault = none ∧ ((s.core 0).streams.get 0).engine < (desc false).total ∧ s.stopped = false ∧
      ((s.core 0).streams.get 0).buf.length < 8 ∧
      s.elementWaits 0 0 ((s.core 0).streams.get 0) (desc false) ((desc false).addr 0) = false ∧
      s.streamRead 0 0 (desc false) ((desc false).addr 0) 0 (desc false).pieces = .ok (v, l, w) ∧
      ((s.core 0).streams.get 0).engine = 0) ∧
    ∃ s w : State, ∃ m, (∀ n, ((s.core 0).xbar.term.get n).en = false) ∧
      (∀ n, ((s.core 0).xbar.estr.get n).getLsbD 4 = false) ∧
      ((s.core 0).streams.get 0).bound = some (.memory 0 (desc true)) ∧ (desc true).output = true ∧
      ((s.core 0).streams.get 0).fault = none ∧ ((s.core 0).streams.get 0).engine < (desc true).total ∧ s.stopped = false ∧
      ((s.core 0).streams.get 0).buf = [5] ∧ ((s.core 0).streams.get 0).engine = 31 ∧
        31 % (desc true).perVec + 1 = (desc true).perVec ∧
      s.elementWaits 0 0 ((s.core 0).streams.get 0) (desc true) ((desc true).addr 31) = false ∧
      s.streamWrite 0 0 (s.pushWriter 0 0 ((s.core 0).streams.get 0)) (desc true) ((desc true).addr 31) 0 0
        (desc true).pieces = .ok (m, w) ∧
      (5 : Vec).toNat / 2 ^ (8 * 2 ^ (desc true).es * (31 % (desc true).perVec)) % 2 ^ (8 * 2 ^ (desc true).es) = 0 ∧
      (∀ n, ((w.core 0).xbar.estr.get n).getLsbD 4 = false) ∧ (w.core 0).streams = (s.core 0).streams := by
  obtain ⟨⟨w1, v1⟩, h1⟩ := copy_ok (x := (runs constCopy).copyAll 0 0 { req := constCopy, done := [], idx := [] }
    (upto constCopy.count)) (by decide +kernel)
  have g1 : ∀ n, ((w1.core 0).xbar.term.get n).en = false := by
    have : (match (runs constCopy).copyAll 0 0 { req := constCopy, done := [], idx := [] } (upto constCopy.count) with
      | .ok p => decide (∀ n, ((p.1.core 0).xbar.term.get n).en = false) | .error _ => false) = true := by decide +kernel
    rw [h1] at this; exact of_decide_eq_true this
  obtain ⟨⟨v2, l2, w2⟩, h2⟩ := copy_ok (x := (withStream (newStream false)).streamRead 0 0 (desc false) ((desc false).addr 0) 0
    (desc false).pieces) (by decide +kernel)
  let o := withStream { newStream true with engine := 31, buf := [5] }
  obtain ⟨⟨m3, w3⟩, h3⟩ := copy_ok (x := o.streamWrite 0 0 (o.pushWriter 0 0 ((o.core 0).streams.get 0)) (desc true)
    ((desc true).addr 31) 0 0 (desc true).pieces) (by decide +kernel)
  have g3 : (∀ n, ((w3.core 0).xbar.estr.get n).getLsbD 4 = false) ∧ (w3.core 0).streams = (o.core 0).streams := by
    have : (match o.streamWrite 0 0 (o.pushWriter 0 0 ((o.core 0).streams.get 0)) (desc true) ((desc true).addr 31) 0 0 (desc true).pieces with
      | .ok p => decide ((∀ n, ((p.2.core 0).xbar.estr.get n).getLsbD 4 = false) ∧ (p.2.core 0).streams = (o.core 0).streams)
      | .error _ => false) = true := by decide +kernel
    rw [h3] at this; exact of_decide_eq_true this
  exact ⟨⟨mes fun k => { k with fifo := [aCopy] }, aCopy, by decide⟩,
    ⟨runs constCopy, w1, _, v1, by decide, by decide, rfl, by decide, h1, g1, by decide, by decide, by decide, by decide,
      by decide, by decide, by decide⟩,
    ⟨runs wordCopy, _, by decide, by decide, rfl, by decide, 0, by decide, by decide, by decide +kernel⟩,
    ⟨onGlobal, globalDesc, by decide, by decide, by decide, by decide +kernel⟩,
    ⟨withStream (newStream false), w2, v2, l2, by decide, by decide, by decide, by decide, by decide, by decide, by decide,
      by decide, by decide +kernel, h2, by decide⟩,
    o, w3, m3, by decide, by decide, by decide, by decide, by decide, by decide, by decide, by decide +kernel, by decide,
      by decide +kernel, by decide +kernel, h3,
      by decide +kernel, g3.1, g3.2⟩

/-- An INT8 operation on accumulator 3 of core 0. -/
def anMma : MmaPost :=
  { fmt := .i8, n := 3, glog := 0, xa := 0, xb := 0, sA := 0, sB := 0, ctx := 0, pc := 64, snap := [], seen := [] }
def matrixAt (r : Option MmaRun) : State :=
  mes fun k => { k with mq := [anMma], mHist := [(0, .i8, 3)], mRun := r }
def aStep : MmaRun := { step := 0, start := Vector.replicate 256 0, hist := [], latch := [], fault := none }

/-- The gang of core 0 has no term of a crossbar enabled. -/
def gangOff (s : State) : Prop := ∀ d ∈ s.gang 0, ∀ m, ((s.core d).xbar.term.get m).en = false

theorem gangOff_of {s : State} (hg : (s.core 0).glog = 0) (h : ∀ m, ((s.core 0).xbar.term.get m).en = false) : gangOff s := by
  intro d hd
  have he : s.gang 0 = [0] := by unfold State.gang; rw [hg]; rfl
  rw [he] at hd
  rw [List.mem_singleton.mp hd]
  exact h

-- before the barrier; before the step, with words that are sound and lost; after it; a recorded fault; the last word of a store
theorem witness_MatrixHappenings :
    (gangOff (matrixAt none) ∧ ((matrixAt none).core 0).mq = [anMma] ∧ (matrixAt none).barrierOpen 0 = true) ∧
    (gangOff (matrixAt (some aStep)) ∧
      ((matrixAt (some aStep)).core 0).mq = [anMma] ∧ ((matrixAt (some aStep)).core 0).mRun = some aStep ∧
      ((matrixAt (some aStep)).core 0).glog = 0 ∧ aStep.fault = none ∧ aStep.step = 0 ∧ anMma.fmt = .i8 ∧
      anMma.snap = ((matrixAt (some aStep)).core 0).spad ∧ ((matrixAt (some aStep)).core 0).spadLost = []) ∧
    (∃ s : State, ∃ q x, gangOff s ∧ (s.core 0).mRun = some aStep ∧ aStep.fault = none ∧ aStep.step < (s.gang 0).length ∧
      (s.runners 0 aStep.step).length = (s.gang 0).length ∧ (s.gang 0).length = 1 ∧ (s.runners 0 aStep.step)[0]? = some q ∧
      (s.core q.core).readStep q.post q.run 0 1 (s.freeCtr + 0 * wordCount) = .ok x) ∧
    (∃ s : State, ∃ q, gangOff s ∧ (s.core 0).mRun = some aStep ∧ aStep.fault = none ∧ aStep.step < (s.gang 0).length ∧
      (s.runners 0 aStep.step).length = (s.gang 0).length ∧ (s.gang 0).length = 1 ∧ (s.runners 0 aStep.step)[0]? = some q ∧
      (s.core q.core).readStep q.post q.run 0 1 (s.freeCtr + 0 * wordCount) = .error 0x18) ∧
    (∃ s : State, ∃ r, gangOff s ∧ (s.core 0).mq = [anMma] ∧ (s.core 0).mRun = some r ∧ r.fault = none ∧
      r.step = 2 ^ (s.core 0).glog.toNat) ∧
    (∃ s : State, ∃ r, gangOff s ∧ (s.core 0).mq = [anMma] ∧ (s.core 0).mRun = some r ∧ (s.core 0).glog = 0 ∧
      r.fault = some (0x0D, 0)) ∧
    ∃ s : State, ∃ w, gangOff s ∧ (s.core 0).engW = [w] ∧ w.acc = some 3 ∧ w.full = true ∧ w.bytes ≠ [] ∧
      (s.core 0).spad.wf = true := by
  let w : EngWrite := { addr := 0x3FFF8, bytes := List.replicate 8 1, full := true, acc := some 3, mcast := none, grp := none }
  let lost : State := (matrixAt (some aStep)).modMe fun k => { k with spadLost := [0] }
  obtain ⟨x, hx⟩ := copy_ok (x := ((matrixAt (some aStep)).core 0).readStep anMma aStep 0 1
    ((matrixAt (some aStep)).freeCtr + 0 * wordCount)) (by decide +kernel)
  exact ⟨⟨gangOff_of rfl (by decide), by decide, by decide +kernel⟩, ⟨gangOff_of rfl (by decide), by decide +kernel⟩,
    ⟨matrixAt (some aStep), ⟨0, anMma, aStep⟩, x, gangOff_of rfl (by decide), by decide +kernel, rfl, by decide, by decide +kernel,
      by decide, by decide +kernel, hx⟩,
    ⟨lost, ⟨0, anMma, aStep⟩, gangOff_of rfl (by decide), by decide +kernel, rfl, by decide, by decide +kernel, by decide,
      by decide +kernel, by decide +kernel⟩,
    ⟨matrixAt (some { aStep with step := 1 }), _, gangOff_of rfl (by decide), by decide, rfl, by decide, by decide⟩,
    ⟨matrixAt (some { aStep with fault := some (0x0D, 0) }), _, gangOff_of rfl (by decide), by decide, rfl, by decide, by decide⟩,
    mes fun k => { k with engW := [w] }, w, gangOff_of rfl (by decide), by decide⟩

/-- An object operation at its home or with landing 7 to pass, and its object. -/
def objOp (op : ReqKind) (path : List Nat) : ObjMsg :=
  { dev := none, enc := false, seen := [], core := 0, ctx := 0, req := 1, op := op, pa := 0x50000, va := 0x50000, value := 9, lcnt := 0, path := path,
    waited := false, left := 3 }
def anObj (count : Nat) : ObjHome :=
  { va := 0x50000, lcnt := 0, bad := false, w := 4, cap := 2, count := count, store := 0x50040, told := [7], seen := [] }
def objAt (m : ObjMsg) (n : Nat) : State :=
  { withTables State.reset 0xF [(0x40029, 2)] with objMsgs := [m], objs := [(0x50000, anObj n)] }

-- a round that every member has injected; an abort on its way; a multicast delivered; an operation that passes a landing, meets
-- its counterpart there, waits in vain; at its home with room, full, with an item and empty
theorem witness_NetworkHappenings :
    (∃ s : State, ∃ q m, (∀ n, (Core.reset.xbar.term.get n).en = false) ∧ s.cores = [] ∧ s.group 3 = some q ∧ q.live = true ∧
      (∀ x ∈ q.members, x.inj ≠ none ∧ x.held = false ∧ x.injRound ≠ x.outRound) ∧ q.members ≠ [] ∧
      q.members[0]? = some m) ∧
    (∃ s : State, ∃ q m, s.cores = [] ∧ s.group 3 = some q ∧ 0 ∈ q.aborting ∧ q.members[0]? = some m ∧
      m.injRound ≠ m.outRound) ∧
    (∃ s : State, ∃ q m, s.cores = [] ∧ s.group 3 = some q ∧ 0 ∈ q.aborting ∧ q.members[0]? = some m ∧
      m.injRound = m.outRound ∧ m.outRound < q.abRound) ∧
    (∃ s : State, ∃ x, s.cores = [] ∧ s.mcasts = [x] ∧ Core.reset.engW = [] ∧ Core.reset.spad.wf = true) ∧
    (∃ s : State, ∃ op, s.cores = [] ∧ s.objMsgs = [op] ∧ op.path = [7] ∧ s.objMayMove op = true ∧
      s.routerTurn 7 op = true ∧ s.objs.find op.pa = none) ∧
    (∃ s : State, ∃ op, s.cores = [] ∧ s.objMsgs = [op] ∧ op.path = [7] ∧ s.objMayMove op = true ∧
      s.routerTurn 7 op = true ∧ s.isDet op.lcnt = true) ∧
    (∃ s : State, ∃ op, s.cores = [] ∧ s.objMsgs = [op] ∧ op.path = [7] ∧ s.routerTurn 7 op = false) ∧
    (∃ s : State, ∃ o op other, s.cores = [] ∧ s.objMsgs = [op] ∧ op.path = [7] ∧ s.objMayMove op = true ∧
      s.routerTurn 7 op = true ∧ s.isDet op.lcnt = false ∧ s.objs.find op.pa = some o ∧ o.bad = false ∧ o.w ≠ 0 ∧ 7 ∈ o.told ∧
        s.windows.get [] 7 = [other] ∧ other.pa = op.pa ∧
      other.op = .opush ∧ op.op = .opop ∧ other.left ≠ 0 ∧ other.dev = none ∧ op.dev = none) ∧
    (∃ s : State, ∃ op, s.cores = [] ∧ s.windows.get [] 7 = [op] ∧ op.left = 0) ∧
    ∀ k ∈ [(ReqKind.opush, 1), (.opush, 2), (.opop, 1), (.opop, 0), (.ocnt, 2)], ∃ s : State, ∃ o op p, s.cores = [] ∧
      s.objMsgs = [op] ∧ op.path = [] ∧ s.objMayMove op = true ∧ op.dev = none ∧ isRemote op.pa = false ∧
      s.isLost op.pa = false ∧ s.objs.find op.pa = some o ∧ o.bad = false ∧ s.mem.wf = true ∧ s.cowActive = false ∧
      op.op = k.1 ∧ o.count = k.2 ∧ o.cap = 2 ∧ s.storeEntry op.pa o o.count = some p ∧
      (inWs p && s.wsLocked) = false ∧
      (o.count ≠ 0 → s.storeEntry op.pa o (o.count - 1) = some (p - 8)) ∧ s.isLost (p - 8) = false := by
  refine ⟨⟨{ State.reset with groups := [(3, { aGroup with members := [{ aMember with inj := some [], injRound := 2 }] })] }, _,
      _, by decide, rfl, rfl, by decide, by decide, by decide, rfl⟩,
    ⟨{ State.reset with groups := [(3, { aGroup with aborting := [0], members := [{ aMember with injRound := 2 }] })] }, _, _,
      rfl, rfl, by decide, rfl, by decide⟩,
    ⟨{ State.reset with groups := [(3, { aGroup with aborting := [0], abRound := 2 })] }, _, _,
      rfl, rfl, by decide, rfl, by decide, by decide⟩,
    ⟨{ State.reset with mcasts := [⟨1, [0, 1], 0, 64⟩] }, _, rfl, rfl, by decide, by decide⟩,
    ⟨{ State.reset with objMsgs := [objOp .opop [7]] }, _, rfl, rfl, rfl, by decide, by decide, rfl⟩,
    ⟨{ State.reset with objMsgs := [objOp .opop [7]], launches := [(0, { aLaunch with det := true })] }, _, rfl, rfl, rfl,
      by decide, by decide, by decide⟩,
    ⟨{ State.reset with objMsgs := [objOp .opop [7]], routerAt := [(7, 0, 1)] }, _, rfl, rfl, rfl, by decide⟩,
    ⟨{ objAt (objOp .opop [7]) 1 with windows := [(7, [objOp .opush [7]])] }, _, _, _, rfl, rfl, rfl, by decide, by decide,
      by decide, rfl, by decide, by decide, by decide, rfl, by decide, by decide, by decide, by decide, by decide, by decide⟩,
    ⟨{ State.reset with windows := [(7, [{ objOp .opush [7] with left := 0 }])] }, _, rfl, rfl, rfl⟩,
    fun k hk => ⟨objAt (objOp k.1 []) k.2, anObj k.2, objOp k.1 [], 0x50040 + 8 * k.2, ?_⟩⟩
  fin_cases hk <;> decide

/-! ## Witnesses: the host, the driver, management -/

/-- A window slot of a kind with two payload words or none; for an event, to core 0 slot 0. -/
def slotOf (kind : Nat) (w3 w4 w5 w6 : DWord) : WinSlot :=
  { w0 := if kind = 0 then 0x80000000000 else 0, w1 := 4, w2 := if kind = 0 then 0x200000000 else 0, w3 := w3, w4 := w4, w5 := w5,
    w6 := w6, w7 := dw (1 + 2 * kind) }
def commits (w : WinSlot) (kind : Nat) (s : State) : Prop :=
  w.valid = true ∧ w.kind = kind ∧ w.good = true ∧ s.stopped = false ∧ s.winCred ≠ 0

-- an event, a good and a bad descriptor; no credit; an empty slot; launches that the unit refuses and takes; a set-up; a set and a
-- cancelled counter; heads of a host queue within and beyond its tail; a fallback identifier in use and not
theorem witness_HostHappenings :
    (∃ s : State, ∃ w, commits w 0 s ∧ s.descFault w.w0 = none ∧ s.isLocal w.w0 = true) ∧
    (∃ s : State, ∃ w, commits w 0 s ∧ s.descFault w.w0 = none ∧ s.isLocal w.w0 = false ∧
      s.behindCap 0 w.w0 = false) ∧
    (∃ s : State, ∃ w, commits w 0 s ∧ s.descFault w.w0 ≠ none) ∧
    (∃ u : DWord, u.getLsbD 0 = true ∧ u.toNat / 2 % 8 = 0) ∧
    (∀ k, k < 4 → ∃ s : State, ∃ w : WinSlot, w.valid = true ∧ w.kind = k ∧
      (w.good = false ∨ s.stopped = true ∨ s.winCred = 0)) ∧
    (∃ w : WinSlot, w.valid = false) ∧
    (∃ s : State, ∃ w, commits w 1 s ∧ s.recordStalls (commitDie w) w.w3.toNat = true) ∧
    (∃ s : State, ∃ w why u, commits w 1 s ∧ s.recordStalls (commitDie w) w.w3.toNat = false ∧ w.w4 ≠ 0 ∧ s.mem.wf = true ∧
      s.cowActive = false ∧ s.setupQ.get 0 = [] ∧
      s.handleRecord 0 w.w3 ⟨4, 0⟩ s.hostKnows = (.error why, u)) ∧
    (∃ s : State, ∃ w l u, commits w 1 s ∧ s.recordStalls (commitDie w) w.w3.toNat = false ∧
      s.handleRecord 0 w.w3 ⟨4, 0⟩ s.hostKnows = (.ok l, u)) ∧
    (∃ s : State, ∃ r, s.setupQ.get 0 = [1] ∧ s.launches.find 1 = some r ∧ r.stage = 1 ∧ r.det = true ∧ r.ncore = 1 ∧
      r.first < 8192 ∧ r.bound = [] ∧ r.setup = false ∧ r.snap = false ∧ r.poolN = 0 ∧ r.init = [] ∧
      (s.core (mkCore r.first)).mq = [] ∧ (s.core (mkCore r.first)).changing 1 = false) ∧
    (∃ s : State, ∃ w, commits w 2 s ∧ 4096 ≤ w.w3.toNat ∧ w.w3.toNat < 4096 + 256 ∧ 4351 ≤ w.w3.toNat ∧
      w.w5 = BitVec.allOnes 64 ∧ (s.counter w.w3.toNat).live = false) ∧
    (∃ s : State, ∃ w, commits w 3 s ∧ w.w3.toNat < 4096 ∧ (s.counter w.w3.toNat).count ≠ 0) ∧
    (∃ s : State, ∃ v u : Word, (v - (s.hostQ.get 16).head).toNat ≤ ((s.hostQ.get 16).tail - (s.hostQ.get 16).head).toNat ∧
      ((s.hostQ.get 16).tail - (s.hostQ.get 16).head).toNat < (u - (s.hostQ.get 16).head).toNat) ∧
    (∃ s : State, s.fallback.find 0 = none) ∧
    ∃ s : State, ∃ q, s.fallback.find 255 = some (0, 0, 1) ∧ ((s.core 0).ctx 0).reqs.find? (fun q => q.id == 1) = some q ∧
      q.id = 1 := by
  refine ⟨⟨State.reset, slotOf 0 1 2 0 0, by unfold commits; decide⟩,
    ⟨State.reset, { slotOf 0 1 2 0 0 with w0 := 0x80100000000000 }, by unfold commits; decide⟩,
    ⟨State.reset, { slotOf 0 1 2 0 0 with w0 := 1 }, by unfold commits; decide⟩, ⟨1, by decide⟩,
    fun k hk => ⟨{ State.reset with winCred := 0 }, slotOf k 1 2 0 0, ?_⟩,
    ⟨{ slotOf 0 0 0 0 0 with w7 := 0 }, by decide⟩,
    ⟨{ State.reset with ptroot := vput State.reset.ptroot 0 1, wsAway := some 0,
                        mem := tables 0x3F [] |>.write 0x4002A [0, 0, 0, 1] }, slotOf 1 0x50000 0x1000 0 0,
      by unfold commits; decide, by decide +kernel⟩,
    ⟨State.reset, slotOf 1 0x50000 0x1000 0 0, 1, State.reset, by unfold commits; decide, by decide +kernel, by decide, by decide, by decide,
      by decide, refused _ _ _ _ _ (by decide +kernel)⟩, ?_,
    ⟨{ State.reset with setupQ := vput State.reset.setupQ 0 [1],
                        launches := [(1, { aLaunch with stage := 1, det := true, poolN := 0 })] }, _, rfl, rfl, by decide⟩,
    ⟨State.reset, slotOf 2 4351 1 (BitVec.allOnes 64) 0, by unfold commits; decide⟩,
    ⟨{ State.reset with counters := [(4095, { Counter.reset with count := 2, live := true })] }, slotOf 3 4095 0 0 0,
      by unfold commits; decide⟩,
    ⟨{ State.reset with hostQ := vput State.reset.hostQ 16 { base := 0, cfg := 0x8004, head := 0xFFFFFFFF, tail := 2 } }, 2, 3,
      by decide⟩,
    ⟨State.reset, by decide⟩,
    { outstanding [aReq (.atomic 0) (some 4)] with fallback := [(255, 0, 0, 1)] }, _, by decide, rfl, by decide⟩
  · have h : ∀ k, k < 4 → (slotOf k 1 2 0 0).valid = true ∧ (slotOf k 1 2 0 0).kind = k := by decide
    exact ⟨(h k hk).1, (h k hk).2, .inr (.inr rfl)⟩
  · obtain ⟨u, l, h⟩ := accepted recordPage 0 (slotOf 1 0x50000 0 0 0).w3 ⟨4, 0⟩ _ rfl rfl (by decide +kernel)
    exact ⟨recordPage, slotOf 1 0x50000 0 0 0, l, u, by unfold commits; decide, by decide +kernel, h⟩

-- an aperture store of eight bytes at the end of the window; a fenced core; a core with a snapshot ring and a spare; a live die
theorem witness_DriverHappenings :
    (∃ s : State, ∃ (off : Word) (size : Fin 9), size ≠ 0 ∧ off.toNat + size.val ≤ 2 ^ 32 ∧ 2 ^ 32 ≤ off.toNat + size.val ∧
      inHbm (s.apbase.toNat * 2 ^ 32 + off.toNat) = true ∧ s.overflowed (s.apbase.toNat * 2 ^ 32 + off.toNat) = false ∧
      s.cowActive = false ∧ s.mem.wf = true) ∧
    (∃ s : State, s.overflowed 0 = true ∧ s.lineHeld 0 = false ∧ s.cowActive = false ∧ s.apbase = 0) ∧
    (∃ s : State, ∃ (off : Word) (size : Fin 9), size ≠ 0 ∧ 2 ^ 32 ≤ off.toNat + size.val ∧ off.toNat + size.val ≤ 2 ^ 32 ∧
      (let a := s.apbase.toNat * 2 ^ 32 + off.toNat
       inHbm a = true ∧ s.bankAway a = false ∧ s.lineHeld a = false ∧ s.isLost a = false ∧ s.objs = [] ∧
        (s.verAt a).vers = [])) ∧
    (∃ s : State, ∃ off : Word, inWs (s.apbase.toNat * 2 ^ 32 + off.toNat) = true ∧ s.wsLocked = true) ∧
    (∃ s u v : State, s.ptmctl.getLsbD 0 = false ∧ u.ptmctl.getLsbD 0 = true ∧ u.reference ≠ .host ∧ v.ptmctl.getLsbD 0 = true ∧
      v.reference = .host) ∧
    (∃ s : State, ∃ v : DWord, v.getLsbD 0 = false ∧ v.getLsbD 1 = false ∧ s.pestat = 3) ∧
    (∃ s : State, ∃ (c : CoreId) (n m : Fin 128) (v : DWord), (s.core c).fenced = true ∧ c.val / 64 = n.val ∧
      v.getLsbD (c.val % 64) = true ∧ c.val / 64 ≠ m.val) ∧
    (∃ s u : State, (s.core 0).logging = false ∧ (u.core 0).logging = true ∧ u.spares.get (dieIx (0 : CoreId).val) = 0) ∧
    (∃ s : State, (s.core 0).logging = true ∧ 0 < s.spares.get (dieIx (0 : CoreId).val)) ∧
    (∃ s u : State, s.dieLive 0 = true ∧ u.dieLive 0 = false) ∧
    (∃ s : State, ∃ a b, s.powerCap < a ∧ b ≤ s.powerCap) ∧
    (∃ s : State, ∃ a b, a < s.rollback.val ∧ s.rollback.val ≤ b ∧ s.firmware = []) ∧
    ∃ s : State, s.firmware ≠ [] ∧ s.fwVersion < s.rollback.val :=
  ⟨⟨State.reset, 0xFFFFFFF8, 8, by decide⟩, ⟨{ State.reset with dir := [(0, ⟨[1, 2, 3, 4], true, false, none⟩)] }, by decide⟩,
    ⟨State.reset, 0xFFFFFFF8, 8, by decide⟩,
    ⟨{ State.reset with apbase := 256, launches := [(1, aLaunch)] }, 0, by decide⟩,
    ⟨State.reset, { State.reset with ptmctl := 1 }, { State.reset with ptmctl := 1, clkcfg := 3 }, by decide⟩,
    ⟨{ State.reset with pestat := 3 }, 4, by decide⟩,
    ⟨State.reset.modCore 8191 fun k => { k with fenced := true }, 8191, 127, 0, BitVec.allOnes 64, by decide⟩,
    ⟨State.reset, { (mes fun k => { k with logging := true }) with spares := Vector.replicate 4 0 }, by decide⟩,
    ⟨{ (mes fun k => { k with logging := true }) with spares := Vector.replicate 4 1 }, by decide⟩,
    ⟨{ State.reset with launches := [(1, aLaunch)] }, State.reset, by decide⟩,
    ⟨{ State.reset with powerCap := 5 }, 6, 5, by decide⟩, ⟨{ State.reset with rollback := 3 }, 2, 3, by decide⟩,
    { State.reset with rollback := 3, firmware := [1], fwVersion := 2 }, by decide⟩

/-- A cut at time 4 that saves to reserve pages. -/
def aCut : Cut := { tc := 4, save := 0, reserve := 0, pages := 0, form := 0, markers := [], after := [], cores := none, drainTo := none,
                    mem := [], copied := [] }

theorem witness_FreezeHappenings :
    (∃ s : State, s.stopped = false ∧ s.launches = []) ∧
    (∃ s d : State, s.stopped = false ∧ s.launches ≠ [] ∧ s.ckState ≠ 1 ∧ s.ckState ≠ 2 ∧
      d = { s with pectl := 1, pestat := 1, peSent := false }.drain ∧ d.drained = true ∧ d.pectl.getLsbD 2 = false ∧
      d.imageFits (d.pebase.toNat * 65536) = true) ∧
    (∃ s d : State, s.stopped = false ∧ s.launches ≠ [] ∧ s.ckState ≠ 1 ∧ s.ckState ≠ 2 ∧
      d = { s with pectl := 1, pestat := 1, peSent := false }.drain ∧ d.drained = false) ∧
    (∃ s : State, s.pestat ≠ 2 ∧ s.pestat ≠ 3) ∧
    (∃ s u w : State, ∃ v, s.pestat = 2 ∧ s.savedAt = some v ∧ u.pestat = 3 ∧ u.savedAt = some v ∧ w.pestat = 2 ∧
      w.savedAt = none) ∧
    (∃ s d : State, s.pectl = 5 ∧ s.pestat = 0 ∧ s.pefreeze.toNat ≤ s.timebase.toNat ∧ s.launches ≠ [] ∧ s.ckState ≠ 1 ∧
      s.ckState ≠ 2 ∧ d = { s with pestat := 1, peSent := false }.drain ∧ d.drained = true ∧ d.upPorts = [] ∧
      d.imageFits (d.pebase.toNat * 65536) = true) ∧
    (∃ s d : State, s.pectl = 5 ∧ s.pestat = 0 ∧ s.pefreeze.toNat ≤ s.timebase.toNat ∧ s.launches ≠ [] ∧ s.ckState ≠ 1 ∧
      s.ckState ≠ 2 ∧ d = { s with pestat := 1, peSent := false }.drain ∧ d.drained = false) ∧
    (∃ s : State, s.pectl = 5 ∧ s.pestat = 0 ∧ s.pefreeze.toNat ≤ s.timebase.toNat ∧ s.launches = []) ∧
    (∃ s : State, ∃ v, s.pectl = 6 ∧ s.pestat = 3 ∧ s.peresume.toNat ≤ s.timebase.toNat ∧
      s.savedAt = some v) ∧
    (∃ s : State, ∃ w, commits w 4 s ∧ s.ckState = 0 ∧ s.lateW = [] ∧ s.launches ≠ [] ∧
      ∀ e ∈ s.cores, e.2.last.t.toNat ≤ w.w1.toNat) ∧
    (∃ s : State, ∃ w, commits w 4 s ∧ s.ckState = 0 ∧ s.lateW = [] ∧ s.launches = []) ∧
    (∃ s : State, s.cut = some aCut ∧ s.ckState = 1 ∧ s.pastCut Core.reset aCut.tc = true ∧
      (∀ c, s.cutQuiet c aCut.tc = true) ∧ s.flight = [] ∧ (∀ p, (s.ports.get p).state ≠ 2) ∧ ∀ c, (s.core c).held = []) ∧
    (∃ s : State, s.cut = some aCut ∧ s.ckState = 1 ∧ s.pastCut Core.reset aCut.tc = true ∧
      (∀ c, s.cutQuiet c aCut.tc = true) ∧ s.flight = [] ∧ (∀ p, (s.ports.get p).state ≠ 2) ∧ ∃ c, (s.core c).held ≠ []) ∧
    (∃ s : State, (s.ports.get 7).state = 2 ∧ s.cut = none) ∧
    (∃ s : State, s.cut = some aCut ∧ s.ckState = 1 ∧ (s.ports.get 7).state = 2 ∧ s.pestat ≠ 1) ∧
    (∃ s : State, ∃ w, commits w 5 s ∧ s.cut = some aCut ∧ s.ckState = 3) ∧
    ∃ s : State, ∃ q base form, s.cut = some q ∧ s.ckState = 4 ∧ q.drainTo = some (base, form) ∧ form.toNat % 4 ≠ 3 ∧
      s.lateW = [] ∧ q.mem.wf = true ∧ s.mem.wf = true := by
  let v : Saved := { cores := [], counters := [], launches := [], groups := [], hostPages := State.reset.hostPages, joboff := 0 }
  let late : State := { State.reset with cut := some aCut, ckState := 1, timebase := 2 ^ 40 }
  have hq : ∀ c, late.cutQuiet c aCut.tc = true := by
    intro c
    have hc : late.core c = Core.reset := rfl
    have hr : late.ready? c = none := by
      unfold State.ready?; rw [hc]; rfl
    unfold State.cutQuiet
    rw [hr, hc]
    decide +kernel
  let held : State := late.modCore 0 fun k => { k with held := [⟨anEv, .die, 0, none, [], none⟩] }
  have hh : ∀ c, held.cutQuiet c aCut.tc = true := by
    intro c
    by_cases h0 : c = 0
    · subst h0; decide +kernel
    · have hc : held.core c = Core.reset := State.core_modCore_ne _ _ _ _ h0
      have hr : held.ready? c = none := by
        unfold State.ready?; rw [hc]; dsimp only; split <;> rfl
      unfold State.cutQuiet
      rw [hr, hc]
      decide +kernel
  -- a load whose reply is on its way from another module
  let far : State := { outstanding [{ aReq (.load true) (some 4) with pa := 2 ^ 51 }] with launches := [(1, aLaunch)] }
  exact ⟨⟨State.reset, by decide⟩,
    ⟨{ State.reset with launches := [(1, aLaunch)] }, _, by decide, by decide, by decide, by decide, rfl, by decide +kernel,
      by decide +kernel, by decide +kernel⟩,
    ⟨far, _, by decide, by decide, by decide, by decide, rfl, by decide +kernel⟩, ⟨State.reset, by decide⟩,
    ⟨{ State.reset with pestat := 2, saved := [(0, v)] }, { State.reset with pestat := 3, saved := [(0, v)] },
      { State.reset with pestat := 2 }, v, rfl, by decide +kernel, rfl, by decide +kernel, rfl, by decide +kernel⟩,
    ⟨{ State.reset with pectl := 5, launches := [(1, aLaunch)] }, _, by decide, by decide, by decide, by decide, by decide,
      by decide, rfl, by decide +kernel, by decide +kernel, by decide +kernel⟩,
    ⟨{ far with pectl := 5 }, _, by decide, by decide, by decide, by decide, by decide, by decide, rfl, by decide +kernel⟩,
    ⟨{ State.reset with pectl := 5 }, by decide⟩,
    ⟨{ State.reset with pectl := 6, pestat := 3, saved := [(0, v)] }, v, by decide, by decide, by decide, by decide +kernel⟩,
    ⟨{ (mes id) with launches := [(1, aLaunch)] }, slotOf 4 0 0 0 0, by unfold commits; decide⟩,
    ⟨State.reset, slotOf 4 0 0 0 0, by unfold commits; decide⟩,
    ⟨late, rfl, by decide, by decide +kernel, hq, rfl, by decide, fun _ => rfl⟩,
    ⟨held, rfl, by decide, by decide +kernel, hh, rfl, by decide, 0, by decide⟩,
    ⟨{ State.reset with ports := vmod State.reset.ports 7 fun p => { p with state := 2 } }, by decide⟩,
    ⟨{ State.reset with cut := some aCut, ckState := 1, ports := vmod State.reset.ports 7 fun p => { p with state := 2 } },
      by decide⟩,
    ⟨{ State.reset with cut := some aCut, ckState := 3 }, slotOf 5 0 0 0 0, by unfold commits; decide⟩,
    { State.reset with cut := some { aCut with drainTo := some (0x1000, 0) }, ckState := 4 }, _, _, _, rfl, by decide, rfl,
      by decide⟩

/-- Port 7 is up. -/
def linkUp : State := { State.reset with ports := vmod State.reset.ports 7 fun p => { p with state := 2 } }
/-- A store packet of type 4 to this module, from module 5. -/
def aPacket (type : Nat) (body : PBody) : Packet :=
  let h : DWord := dw (State.reset.devCoord.toNat + 5 * 2 ^ 20 + type * 2 ^ 44)
  { header := h, hchk := crc16 h, e2eseq := 9, body := body, echk := echkOf 9 body, tagGood := true,
    crossing := .whole, after := [] }

theorem witness_FabricHappenings :
    (∃ s u : State, ∃ p : Packet, ∀ t ∈ [s, u], (t.ports.get 7).state = 2 ∧ p.crossing = .whole ∧
      t.behindMarker 7 p.body = false ∧
      p.header.toNat / 2 ^ 44 % 16 = p.body.type ∧ p.header.getLsbD 50 = false ∧ p.hchk = crc16 p.header ∧
      p.header.toNat % 2 ^ 20 = t.devCoord.toNat ∧ p.echkGood = true ∧ p.body = .store 0x50000 [1, 2] ∧
      isRemote 0x50000 = false ∧ t.overflowed 0x50000 = false ∧ t.bankAway 0x50000 = false ∧
      (inWs 0x50000 && t.wsLocked) = false ∧ t.cowActive = false ∧ t.mem.wf = true ∧
      (t = s → p.e2eseq ∉ t.accepted.get [] 5) ∧ (t = u → p.e2eseq ∈ t.accepted.get [] 5)) ∧
    (∃ s : State, ∃ p : Packet, (s.ports.get 7).state = 2 ∧ p.crossing = .whole ∧ s.behindMarker 7 p.body = true ∧
      p.header.toNat / 2 ^ 44 % 16 = p.body.type ∧ p.header.getLsbD 50 = false ∧ p.hchk = crc16 p.header ∧
      p.header.toNat % 2 ^ 20 = s.devCoord.toNat ∧ p.echkGood = true ∧ p.body = .store 0x50000 [1, 2] ∧
      p.e2eseq ∉ s.accepted.get [] 5) ∧
    (∀ x : Crossing, ∃ s : State, ∃ p : Packet, (s.ports.get 7).state = 2 ∧ p.crossing = x ∧
      p.header.toNat / 2 ^ 44 % 16 = p.body.type) ∧
    (∃ s : State, ∃ p : Packet, (s.ports.get 7).state = 2 ∧ p.crossing = .whole ∧
      p.header.toNat / 2 ^ 44 % 16 = p.body.type ∧ p.header.getLsbD 50 = false ∧ p.hchk ≠ crc16 p.header) ∧
    (∃ s : State, ∃ p : Packet, (s.ports.get 7).state = 2 ∧ p.crossing = .whole ∧ p.header.toNat / 2 ^ 44 % 16 = p.body.type ∧
      p.header.getLsbD 50 = false ∧ p.hchk = crc16 p.header ∧ p.header.toNat % 2 ^ 20 ≠ s.devCoord.toNat) ∧
    (∃ s u : State, (s.ports.get 7).state = 2 ∧ 2 ^ 32 ≤ (s.ports.get 7).packets ∧ (u.ports.get 7).state = 2 ∧
      3600000000000 ≤ (u.timebase - (u.ports.get 7).keyAt).toNat) ∧
    (∃ s : State, ∃ e, s.kept = [e] ∧ s.e2eTimeout.toNat ≤ (s.timebase - e.sentAt).toNat ∧ e.tries < s.e2eRetries.toNat) ∧
    (∃ s : State, ∃ e, s.kept = [e] ∧ s.e2eTimeout.toNat ≤ (s.timebase - e.sentAt).toNat ∧ s.e2eRetries.toNat ≤ e.tries ∧
      e.req = some (0, 0, 1)) ∧
    (∃ s : State, ∃ e, s.kept = [e] ∧ s.e2eTimeout.toNat ≤ (s.timebase - e.sentAt).toNat ∧ s.e2eRetries.toNat ≤ e.tries ∧
      e.req = none ∧ e.eng = some 3) ∧
    ∃ s u : State, s.reference ≠ .port 0 ∧ u.reference = .port 0 ∧ s.capWait = [] := by
  let e : Kept := { dst := 5, packet := aPacket 4 (.store 0x50000 [1, 2]), sentAt := 0, tries := 0, req := some (0, 0, 1),
                    eng := none }
  refine ⟨⟨linkUp, { linkUp with accepted := [(5, [9])] }, aPacket 4 (.store 0x50000 [1, 2]), fun t ht => ?_⟩,
    ⟨{ linkUp with earlyMarks := [7] }, aPacket 4 (.store 0x50000 [1, 2]), by decide +kernel⟩,
    fun x => ⟨linkUp, { aPacket 4 (.store 0x50000 [1, 2]) with crossing := x }, by decide, rfl, by cases x <;> decide +kernel⟩,
    ⟨linkUp, { aPacket 4 (.store 0x50000 [1, 2]) with hchk := 0 }, by decide +kernel⟩,
    ⟨{ linkUp with devCoord := 77 }, aPacket 4 (.store 0x50000 [1, 2]), by decide +kernel⟩,
    ⟨{ State.reset with ports := vmod State.reset.ports 7 fun p => { p with state := 2, packets := 2 ^ 32 } },
      { linkUp with timebase := 3600000000000 }, by decide⟩,
    ⟨{ linkUp with kept := [e], e2eTimeout := 10, timebase := 10, e2eRetries := 1 }, e, by decide +kernel⟩,
    ⟨{ linkUp with kept := [e], e2eTimeout := 10, timebase := 10, e2eRetries := 0 }, e, by decide +kernel⟩,
    ⟨{ linkUp with kept := [{ e with req := none, eng := some 3 }], e2eTimeout := 10, timebase := 10, e2eRetries := 0 },
      { e with req := none, eng := some 3 }, by decide +kernel⟩, State.reset,
    { State.reset with ports := vmod State.reset.ports 0 fun p => { p with state := 2 } }, by decide⟩
  have hne : linkUp ≠ { linkUp with accepted := [(5, [9])] } := fun h => absurd (congrArg State.accepted h) (by decide)
  rcases List.mem_cons.mp ht with rfl | ht
  · exact ⟨by decide, by decide, by decide, by decide +kernel, by decide +kernel, by decide +kernel, by decide +kernel, by decide +kernel,
    by decide +kernel, by decide +kernel,
      by decide, by decide, by decide, by decide, by decide, fun _ => by decide, fun h => absurd h hne⟩
  · rw [List.mem_singleton.mp ht]
    exact ⟨by decide, by decide, by decide, by decide +kernel, by decide +kernel, by decide +kernel, by decide +kernel, by decide +kernel,
      by decide +kernel, by decide +kernel,
      by decide, by decide, by decide, by decide, by decide, fun h => absurd h.symm hne, fun _ => by decide⟩

/-! ## One step of one instruction: expected values from the spec's examples, or worked by hand from the rule named -/

/-- What a general register, the PC or anything else of the module is after an instruction that goes on. -/
def after {α : Type} (o : Host.Outcome State Fault Refusal) (f : State → α) : Option α :=
  match o with
  | .next t => some (f t)
  | _ => none
def x1 (t : State) : DWord := t.cx.xr 1

-- R232
theorem test_add_wraps : after (exec (.add .always 1 2 3) (regs 0xFFFFFFFFFFFFFFFF 2)) x1 = some 1 := by decide
theorem test_sub_source_is_destination : after (exec (.sub .always 2 3 2) (regs 5 3)) (fun t => t.cx.xr 2) =
    some 0xFFFFFFFFFFFFFFFE := by decide
theorem test_minu : after (exec (.minu .always 1 2 3) (regs 0xFFFFFFFFFFFFFFFF 2)) x1 = some 2 := by decide
theorem test_min : after (exec (.minS .always 1 2 3) (regs 0xFFFFFFFFFFFFFFFF 2)) x1 = some 0xFFFFFFFFFFFFFFFF := by decide
theorem test_shl_by_64 : after (exec (.shl .always 1 2 3) (regs 9 64)) x1 = some 9 := by decide
theorem test_sra : after (exec (.sra .always 1 2 3) (regs 0x8000000000000000 63)) x1 = some 0xFFFFFFFFFFFFFFFF := by decide
theorem test_rol : after (exec (.rol .always 1 2 3) (regs 0x8000000000000001 1)) x1 = some 3 := by decide
theorem test_mulhi_su : after (exec (.mulhiSu .always 1 2 3) (regs 0xFFFFFFFFFFFFFFFF 0xFFFFFFFFFFFFFFFF)) x1 =
    some 0xFFFFFFFFFFFFFFFF := by decide
theorem test_div_by_zero : after (exec (.div .always 1 2 3) (regs 7 0)) x1 = some 0xFFFFFFFFFFFFFFFF := by decide
theorem test_rem_sign : after (exec (.rem .always 1 2 3) (regs 0xFFFFFFFFFFFFFFF9 2)) x1 = some 0xFFFFFFFFFFFFFFFF := by decide
-- R233 to R237
theorem test_clz_zero : after (exec (.clz .always 1 2) (regs 0 0)) x1 = some 64 := by decide
theorem test_sext_b : after (exec (.sextB .always 1 2) (regs 0x180 0)) x1 = some 0xFFFFFFFFFFFFFF80 := by decide
theorem test_addw : after (exec (.addw .always 1 2 3) (regs 0x7FFFFFFF 1)) x1 = some 0xFFFFFFFF80000000 := by decide
theorem test_seth : after (exec (.seth 2 0xABCD 3) (regs 0x1111222233334444 0)) (fun t => t.cx.xr 2) =
    some 0xABCD222233334444 := by decide
-- R199: x0 stays zero and the PC advances
theorem test_x0 : after (exec (.addi .always 0 2 5) (regs 1 0)) (fun t => (t.cx.xr 0, t.cx.pc)) = some (0, 4) := by decide
-- R224: -1 is below 1 as a signed number and not as an unsigned one
theorem test_cmp_lt : after (exec (.cmp .always 1 2 3 .lt) (regs 0xFFFFFFFFFFFFFFFF 1)) (fun t => t.cx.p.get 1) =
    some 1 := by decide
theorem test_cmp_ltu : after (exec (.cmp .always 1 2 3 .ltu) (regs 0xFFFFFFFFFFFFFFFF 1)) (fun t => t.cx.p.get 1) =
    some 0 := by decide
-- R122, R125: 1.5 + 2.25 = 3.75; 1 / 0 is infinity with DZ
theorem test_fadd : after (exec (.fadd .always 1 2 3) (cxs fun x =>
    { x with f := vput (vput x.f 2 0x3FF8000000000000) 3 0x4002000000000000 })) (fun t => t.cx.f.get 1) =
    some 0x400E000000000000 := by decide +kernel
theorem test_fdiv_by_zero : after (exec (.fdiv .always 1 2 3) (cxs fun x => { x with f := vput x.f 2 0x3FF0000000000000 }))
    (fun t => (t.cx.f.get 1, t.cx.fflags)) = some (0x7FF0000000000000, 2) := by decide +kernel
-- R254: the last byte of the scratchpad, signed
theorem test_stb : after (exec (.stb .always 2 3 0) (regs 0x180 0x3FFFF)) (fun t => t.me.spad) = some [(0x3FFFF, 0x80)] := by
  decide
theorem test_ldb : after (exec (.ldb .always 1 3 0) ((regs 0 0x3FFFF).modMe fun k => { k with spad := [(0x3FFFF, 0x80)] })) x1 =
    some 0xFFFFFFFFFFFFFF80 := by decide
-- R59: a taking load empties its word
theorem test_ldf : after (exec (.ldf .always 1 3 0) ((regs 0 8).modMe fun k => { k with full := [1, 2], spad := [(8, 7)] }))
    (fun t => (x1 t, t.me.full)) = some (7, [2]) := by decide
-- R274: 100 + 100 clamps to 127
theorem test_vadds_b : after (exec (.vaddsB .always 1 2 3) (cxs fun x => { x with v := vput (vput x.v 2 100) 3 100 }))
    (fun t => (t.cx.v.get 1, t.me.iflags)) = some (127, 1) := by decide +kernel
-- R162, with the example below it: id 1 is after the done id 0xFFFF_FFFE, and 0xFFFF_FFF0 is not
def doneAt (v : Word) (n : DWord) : State := (regs 0 n).modMe fun k => { k with chans := vmod k.chans 0 fun c => { c with done := v } }
theorem test_xwait_after : after (exec (.xwait .always 2 3) (doneAt 0xFFFFFFFE 1)) (fun t => t.cx.stop) = some .waiting := by decide
theorem test_xwait_before : after (exec (.xwait .always 2 3) (doneAt 0xFFFFFFFE 0xFFFFFFF0)) (fun t => t.cx.pc) = some 4 := by
  decide
-- R129 to R133: the worked example of spec/04_number_formats.md
def exampleCodes : List Nat := [0x40, 0xC4, 0x30, 0x40] ++ List.replicate 60 0x38
theorem test_xf_encode : xfEncode exampleCodes 127 =
    [0x7F, 0x07, 0x45, 0x00, 0xC0] ++ List.replicate 31 0 ++ [0xB5] ++ List.replicate 11 0 := by decide +kernel
theorem test_xf_decode : xfDecode (leNat (xfEncode exampleCodes 127)) = some { scale := 127, codes := exampleCodes } := by
  decide +kernel
-- R200, with the example below it
theorem test_descriptor : descLocal 0x0000080142070000 = true ∧ descCore 0x0000080142070000 = 5 ∧
    descSlot 0x0000080142070000 = 2 ∧ descGen 0x0000080142070000 = 7 ∧ descNotify 0x0000080142070000 = false := by decide
-- R319, R360: TRAP is cause 0x19 with the PC in TRAP_PC
theorem test_trap : after (exec (.trap .always 5) (cxs fun x => { x with live := true, pc := 64 }))
    (fun t => (t.me.trap.cause, t.me.trap.fpc, (t.me.ctx 13).live, t.cx.stop)) = some (0x19, 64, true, .faulted) := by decide

/-! ## Witnesses: decoding and the machine as a whole -/

theorem witness_RoundTrip : (Instr.stgD .always 9 20 .normal (-16)).wf = true ∧ (Instr.reactionStart 0).wf = true := by decide
theorem witness_RefusedEncodings : ∀ m ∈ ([(0, 0), (0x17, 7), (0x3B, 4), (0x2E, 3), (0x3C, 5), (0x0E, 0), (0x36, 0),
      (0x2F, 3)] : List (Fin 64 × Fin 8)),
    ∃ f : W32, f.maj = m.1 ∧ f.fn = m.2 ∧ f.g = true ∧ f.a = 7 ∧ f.b = 7 := by
  intro m _
  exact ⟨{ g := true, x := 0, maj := m.1, d := 0, a := 7, b := 7, fn := m.2 }, rfl, rfl, rfl, rfl, rfl⟩

/-- Whether a fetch gives an instruction. -/
noncomputable def fetches (s : State) (c : CoreId) (h : CtxId) : Option (Except DecodeError (Instr × Nat)) :=
  match (s.fetchInstr c h).1 with
  | .ok b => some (decode b)
  | .error _ => none

/-- The module at reset with a word placed; then as a turn of core 0 on the agenda. -/
def placed (w : Nat) : State := State.reset.withFetchWord 32 w
def unmapped : State := { placed 0xC0052908 with ptroot := State.reset.ptroot }

-- ADD x9, x9, 1 issues; the halfword zero does not decode; without page tables the fetch faults
theorem witness_StepRunsDecoded :
    ((placed 0xC0052908).agenda = [] ∧ ((placed 0xC0052908).pass 1).issuer = some 0 ∧
      ((placed 0xC0052908).pass 1).canIssue 0 = true ∧ (((placed 0xC0052908).pass 1).core 0).pick = some 0 ∧
      fetches (((placed 0xC0052908).pass 1).select 0 0) 0 0 = some (.ok (.add .always 9 9 1, 4))) ∧
    (((placed 0).pass 1).issuer = some 0 ∧ ((placed 0).pass 1).canIssue 0 = true ∧
      (((placed 0).pass 1).core 0).pick = some 0 ∧
      fetches (((placed 0).pass 1).select 0 0) 0 0 = some (.error .illegal)) ∧
    ((unmapped.pass 1).issuer = some 0 ∧ (unmapped.pass 1).canIssue 0 = true ∧
      ((unmapped.pass 1).core 0).pick = some 0 ∧ fetches ((unmapped.pass 1).select 0 0) 0 0 = none) ∧
    (∃ s : State, s.agenda = [⟨5, .core 0⟩] ∧ ({ s with agenda := [] }.pass 5).canIssue 0 = true ∧
      (({ s with agenda := [] }.pass 5).core 0).pick = some 0) ∧
    ∃ s : State, s.agenda = [⟨0, .waiter 0 1⟩] ∧
      (let t := { s with agenda := [] }.pass 0
       ((t.core 0).ctx 1).live = true ∧ ((t.core 0).ctx 1).stop = .waiting ∧ t.stopped = false ∧ (t.core 0).halted = false) :=
  ⟨by decide +kernel, by decide +kernel, by decide +kernel,
    ⟨{ placed 0xC0052908 with agenda := [⟨5, .core 0⟩] }, by decide +kernel⟩,
    { State.reset.modCtx 0 1 fun x => { x with live := true, stop := .waiting } with agenda := [⟨0, .waiter 0 1⟩] },
    by decide +kernel⟩

-- a 32-bit and a 16-bit instruction
theorem witness_FetchReadsMemory :
    ∀ s ∈ [placed 0xC0052908, State.reset.withFetchWord 16 0x8908], ∃ e u, ((s.core 0).ctx 0).fq = [] ∧
      (s.core 0).code = [] ∧ s.globalCheck 0 ((s.core 0).ctx 0).pc 2 .fetch = (.ok e, u) ∧ s.paUnreachable e.pa = false ∧
      s.isLost e.pa = false ∧ e.pa % 16 < 14 ∧
      (s = placed 0xC0052908 → s.mem.readNat e.pa 2 / 2 ^ 14 = 3) ∧
      (s = State.reset.withFetchWord 16 0x8908 → s.mem.readNat e.pa 2 / 2 ^ 14 ≠ 3) := by
  have h (s : State) (hs : s.cur = 0 ∧ ((s.core 0).ctx 0).pc = 0x50000 ∧ ((s.core 0).ctx 0).fq = [] ∧ (s.core 0).code = [] ∧
      s.tlbFind 0 0x50000 = none ∧ s.walk 0 0x50000 = .ok (pageEnt 0xF) ∧ s.isLost 0x50000 = false ∧
      s.paUnreachable 0x50000 = false ∧ s.pageAddr (pageEnt 0xF) 0x50000 = 0x50000 ∧
      s.permission (pageEnt 0xF) 0x50000 .fetch = none) :
      ∃ u, ((s.core 0).ctx 0).fq = [] ∧ (s.core 0).code = [] ∧
        s.globalCheck 0 ((s.core 0).ctx 0).pc 2 .fetch = (.ok (onPage 0xF 0x50000), u) ∧ s.paUnreachable 0x50000 = false ∧
        s.isLost 0x50000 = false := by
    obtain ⟨h0, h1, h2, h3, h4, h5, h6, h7, h8, h9⟩ := hs
    have hp := reaches_page s ((s.core 0).ctx 0).pc 0x50000 2 .fetch 0xF h1 (by decide) (by decide) (by rw [h0]; exact h4)
      (by rw [h0]; exact h5) (by decide) h9 h8
    unfold State.reaches at hp
    rw [h0] at hp
    exact ⟨_, h2, h3, hp, h7, h6⟩
  have k1 : (placed 0xC0052908).mem.readNat 0x50000 2 / 2 ^ 14 = 3 := by decide
  have k2 : (State.reset.withFetchWord 16 0x8908).mem.readNat 0x50000 2 / 2 ^ 14 = 2 := by decide
  intro s hs
  rcases List.mem_cons.mp hs with rfl | hs
  · obtain ⟨u, g1, g2, g3, g4, g5⟩ := h (placed 0xC0052908) (by decide +kernel)
    refine ⟨_, u, g1, g2, g3, g4, g5, by decide, fun _ => k1, fun e => ?_⟩
    have := e ▸ k1; exact absurd (k2.symm.trans this) (by decide)
  · rw [List.mem_singleton.mp hs]
    obtain ⟨u, g1, g2, g3, g4, g5⟩ := h (State.reset.withFetchWord 16 0x8908) (by decide +kernel)
    refine ⟨_, u, g1, g2, g3, g4, g5, by decide, fun e => ?_, fun _ => by show _ / _ ≠ _; exact fun e => absurd (k2.symm.trans e) (by decide)⟩
    have := e ▸ k2; exact absurd (k1.symm.trans this) (by decide)

-- a fault of context 0 with context 13 free, in use, and entered in the same cycle for context 2; a fault of context 13
theorem witness_TrapEntryResults : (∃ s : State, s.trapFree) ∧
    (∃ s : State, s.curCtx ≠ 13 ∧ (s.me.ctx 13).live = true ∧ s.me.trap.at_ ≠ s.cycle) ∧
    (∃ s : State, s.curCtx ≠ 13 ∧ (s.me.ctx 13).live = true ∧ s.me.trap.at_ = s.cycle ∧ s.curCtx.val < s.me.trap.ctx ∧
      (s.me.ctx 13).pc = s.me.tvec.setWidth 64 ∧ (s.me.ctx 13).stop = .no) ∧
    ∃ s : State, s.curCtx = 13 :=
  ⟨⟨State.reset, by unfold State.trapFree; decide⟩,
    ⟨{ State.reset.modCtx 0 13 fun x => { x with live := true } with cycle := 5 }, by decide⟩,
    ⟨(State.reset.modCtx 0 13 fun x => { x with live := true }).modMe fun k => { k with trap := { k.trap with ctx := 2 } },
      by decide⟩,
    { State.reset with curCtx := 13 }, by decide⟩

-- scalar and vector forms under a guard that is clear in every lane, and one that is set in lane 0 only
theorem witness_FalseGuardResults :
    (∃ i f, ∃ s : State, Instr.wf i = true ∧ i.fields = some (.w32 f) ∧ f.g = true ∧ 0x32 ≤ f.maj ∧ f.maj ≤ 0x3A ∧
      ∀ l, l < 32 → s.lanePasses (guardOf f.x) l = false) ∧
    ∃ i f, ∃ s : State, Instr.wf i = true ∧ i.fields = some (.w32 f) ∧ f.g = true ∧ ¬(0x32 ≤ f.maj) ∧
      s.lanePasses (guardOf f.x) 0 = false ∧ s.lanePasses (guardOf f.x) 31 = true :=
  ⟨⟨.vaddW (.onSet 2) 1 2 3, _, State.reset, by decide, rfl, by decide, by decide, by decide, by decide⟩,
    .add (.onSet 2) 1 2 3, _, cxs fun x => { x with p := vput x.p 2 0x80000000 }, by decide, rfl, by decide, by decide, by decide,
    by decide⟩
theorem witness_StepKeepsCanonicalMemory : ∃ s t : State, s.memOk ∧ step s = .next t :=
  ⟨State.reset, _, by
    unfold State.memOk
    exact ⟨by decide, by decide, fun _ h => (by cases h), fun _ h => absurd h (List.not_mem_nil),
      fun _ h => absurd h (List.not_mem_nil)⟩, rfl⟩
end Sys2Proof.Tests
end

/-! PROOFS. What the host receives when it reads BAR0, and the refutation of O49. -/

section
namespace Sys2Proof.Machine

/-- A read of the host is answered by a module that runs; one that is shut down or held in reset answers none (R342, R388,
R389). -/
theorem State.turn_hostRead (s : State) (off : Nat) :
    s.turn (.hostRead off) = .next (if s.dead then s else s.hostGets (s.bar0Read off)) := by
  unfold State.turn
  cases hd : s.dead with
  | true => simp [Who.whileHeld]
  | false => simp [State.act]

/-- Where the module is shut down or held in reset, no value reaches the host. -/
theorem State.turn_hostRead_ne_of_dead (s : State) (off : Nat) (y : DWord) (hd : s.dead = true) :
    s.turn (.hostRead off) ≠ .next { s with hostData := y :: s.hostData } := by
  rw [s.turn_hostRead off, if_pos hd]
  intro h
  have hdata : s.hostData = y :: s.hostData := congrArg State.hostData (Host.Outcome.next.inj h)
  exact List.cons_ne_self y s.hostData hdata.symm

/-- The module that has just been reset shuts down at 115 degrees (R389). -/
theorem exec_thermalLimit_reset :
    exec (.thermalLimit 115) State.reset = .next { State.reset with shutdown := true, mgmtOut := [[115]] } := rfl

/-- Refutes O49: its clause on register reads speaks of every state, and a module that THERMAL_LIMIT has shut down
(`exec_thermalLimit_reset`) answers no read of the host. There the read of TIMEBASE at 0x10 adds nothing to what the host
has received. The clause lacks the premise that the module is neither shut down nor held in reset. -/
theorem not_driverHappenings : ¬ Obligations.DriverHappenings := by
  unfold Obligations.DriverHappenings
  intro h
  obtain ⟨-, -, -, -, ⟨htimebase, -⟩, -⟩ := h 0 0 0 0 0 0 0 0 0 [] { hostTime := 0, slew := 0 }
    { State.reset with shutdown := true, mgmtOut := [[115]] }
  exact State.turn_hostRead_ne_of_dead _ 0x10 _ rfl htimebase

end Sys2Proof.Machine
end

/-! PROOFS. What a step runs (O55) and what reset leaves (O60). -/

section
namespace Sys2Proof.Machine

/-! ## Steps (log 5) -/

theorem State.not_dead_of_not_stopped {s : State} (h : s.stopped = false) : s.dead = false :=
  (Bool.or_eq_false_iff.mp h).2

theorem State.canIssue_not_stopped {s : State} {c : CoreId} (h : s.canIssue c = true) : s.stopped = false := by
  unfold State.canIssue at h
  simp only [Bool.and_eq_true, Bool.not_eq_true'] at h
  exact h.1.1

theorem State.issue_eq_issueAt {s : State} {c : CoreId} {h : CtxId} (hi : s.canIssue c = true)
    (hp : (s.core c).pick = some h) : s.issue c = s.issueAt c h := by
  unfold State.issue
  rw [if_pos hi, hp]

theorem State.takeService_not_stopped {s t : State} {c : CoreId} {h : CtxId} (ht : s.takeService c h = some t) :
    s.stopped = false := by
  unfold State.takeService State.canRetry at ht
  cases hs : s.stopped with
  | false => rfl
  | true => simp [hs] at ht

theorem State.turn_of_not_dead {s : State} (hd : s.dead = false) (w : Who) : s.turn w = s.act w := by
  unfold State.turn
  rw [hd]
  rfl

/-- A core that can issue does so from the context it picks, whether the agenda is empty or names the core (log 5). -/
theorem step_of_issue {s t : State} {c : CoreId} {h : CtxId}
    (ht : s.agenda = [] ∧ t = s.onTime 1 ∧ t.issuer = some c ∨
      ∃ k rest, s.agenda = ⟨k, .core c⟩ :: rest ∧ t = { s with agenda := rest }.onTime k)
    (hi : t.canIssue c = true) (hp : (t.core c).pick = some h) : step s = Machine.settled (t.issueAt c h) := by
  unfold step
  rcases ht with ⟨ha, rfl, hc⟩ | ⟨k, rest, ha, rfl⟩
  · rw [ha]
    simp only [State.idle, hc, State.issue_eq_issueAt hi hp]
  · rw [ha]
    simp only [State.turn_of_not_dead (State.not_dead_of_not_stopped (State.canIssue_not_stopped hi)), State.act,
      State.issue_eq_issueAt hi hp]

/-- A waiting context that the agenda names and that is served issues (R60, R286). -/
theorem step_of_service {s t : State} {c : CoreId} {h : CtxId} {k : Nat} {rest : List Turn}
    (ha : s.agenda = ⟨k, .waiter c h⟩ :: rest) (ht : ({ s with agenda := rest }.onTime k).takeService c h = some t) :
    step s = Machine.settled (t.issueAt c h) := by
  unfold step
  rw [ha]
  simp only [State.turn_of_not_dead (State.not_dead_of_not_stopped (State.takeService_not_stopped ht)), State.act,
    State.serveWaiter, ht]

/-- Settles O55: the turn of a core and that of a served waiter both end in `State.issueAt`, which fetches, decodes and
executes. -/
theorem stepRunsDecoded : Obligations.StepRunsDecoded := by
  unfold Obligations.StepRunsDecoded
  intro c h bytes i n e q s t u hturn
  have hstep : step s = Machine.settled (t.issueAt c h) := by
    rcases hturn with ⟨ht, hi, hp⟩ | ⟨k, rest, ha, ht⟩
    · exact step_of_issue ht hi hp
    · exact step_of_service ha ht
  rw [hstep]
  unfold State.issueAt
  refine ⟨fun hf hd => ?_, fun hf hd => ?_, fun hf => ?_⟩
  · simp only [hf, hd]
  · simp only [hf, hd, Machine.settled]
  · simp only [hf, Machine.settled]

/-! ## Reset -/

theorem State.core_reset (c : CoreId) : State.reset.core c = Core.reset := rfl

theorem Core.ctx_reset (h : CtxId) : Core.reset.ctx h = Ctx.reset := Vector.getElem_replicate h.isLt

/-- No core differs from reset, so the canonical forms are those of empty lists (log 4). -/
theorem State.reset_memOk : State.reset.memOk :=
  ⟨rfl, List.Pairwise.nil, fun _ h => absurd h (by simp [State.reset]), fun _ h => absurd h (by simp [State.reset]),
    fun _ h => absurd h (by simp [State.reset])⟩

/-- Settles O60: a core that no list names is `Core.reset`, whose vectors are filled with one value each. -/
theorem resetState : Obligations.ResetState := by
  unfold Obligations.ResetState
  refine ⟨State.reset_memOk, rfl, rfl, rfl, rfl, rfl, rfl, rfl, fun _ => ⟨rfl, rfl⟩, fun c => ?_⟩
  simp only [State.core_reset, Core.ctx_reset]
  refine ⟨rfl, rfl, rfl, rfl, rfl, rfl, rfl, rfl, rfl, rfl, rfl, rfl, rfl, rfl, rfl, rfl, fun _ => ⟨rfl, rfl, rfl⟩,
    fun n => ?_, fun n => ?_, fun n => ?_, fun n => ?_⟩
  · have hslot : Core.reset.slots.get n = Slot.reset := Vector.getElem_replicate n.isLt
    rw [hslot]
    exact ⟨rfl, rfl, rfl⟩
  · have hchan : Core.reset.chans.get n = Core.reset.chans.get 0 :=
      (Vector.getElem_replicate n.isLt).trans (Vector.getElem_replicate (by decide)).symm
    rw [hchan]
    exact ⟨rfl, rfl⟩
  · have hlayout : Core.reset.layouts.get n = Core.reset.layouts.get 0 :=
      (Vector.getElem_replicate n.isLt).trans (Vector.getElem_replicate (by decide)).symm
    rw [hlayout]
    rfl
  · have hstream : Core.reset.streams.get n = Core.reset.streams.get 0 :=
      (Vector.getElem_replicate n.isLt).trans (Vector.getElem_replicate (by decide)).symm
    rw [hstream]
    rfl

end Sys2Proof.Machine
end

/-! PROOFS. The refutation of O37. -/

section
namespace Sys2Proof.Machine

/-- A launch of no cores that binds nothing. -/
def bareLaunch : Launch :=
  { lcnt := 0, die := 0, tag := ⟨0, 0⟩, det := false, setup := false, fmode := 0, quantum := 4096, first := 0, ncore := 0,
    args := 0, arglen := 0, state := 0, stk := 0, count := 1, parent := none, form := 0, poolN := 0, recs := [], init := [],
    stage := 8, ranges := [], given := [], todo := [], snap := false, seen := [], began := none }

/-- A module at reset but for launch counter 0, which stands at 1, and for a launch table that lists the counter's launch
twice. -/
def launchedTwice : State :=
  { State.reset with
    counters := [(0, { Counter.reset with count := 1, live := true })], launches := [(0, bareLaunch), (0, bareLaunch)] }

/-- CNTDN of launch counter 0 takes one of the two entries of its launch away: the other one is still found. -/
theorem exec_cntdn_launchedTwice :
    ∃ t, exec (.cntdn .always 0) launchedTwice = .next t ∧ t.launches.find 0 = some bareLaunch := ⟨_, rfl, rfl⟩

/-- Refutes O37: its clause on CNTDN of a count of 1 says of every state that the counter's launch is found no more. The end of
a launch drops one entry of the launch table (`KMap.drop`), and the table of `launchedTwice` has two of that counter. The
clause lacks the premise that the keys of the table are distinct. -/
theorem not_counterResults : ¬ Obligations.CounterResults := by
  unfold Obligations.CounterResults
  intro h
  have hclauses := h .always 0 0 0 ⟨0, 0, ⟨0, 0, 0, 0⟩⟩ launchedTwice launchedTwice launchedTwice rfl rfl
    ⟨rfl, by decide⟩ (by unfold State.unbound; decide) (by unfold State.xReady; decide)
  obtain ⟨-, -, hcompletes, -⟩ := hclauses
  obtain ⟨hends, -⟩ := hcompletes rfl rfl rfl
  obtain ⟨t, ht, -, -, -, -, -, hgone⟩ := hends rfl
  obtain ⟨t', ht', hfound⟩ := exec_cntdn_launchedTwice
  obtain rfl : t' = t := Host.Outcome.next.inj (ht'.symm.trans ht)
  rw [hgone (by decide)] at hfound
  exact Option.some_ne_none _ hfound.symm

end Sys2Proof.Machine
end

/-! PROOFS. The laws of issuing that several families need: what a quiet context passes, what retiring leaves, how bytes stay. -/

section
namespace Sys2Proof.Machine

/-! ## Finite maps -/

theorem KMap.put_put {α : Type} (m : KMap α) (i : Nat) (v w : α) : (m.put i v).put i w = m.put i w := by
  induction m with
  | nil => simp [KMap.put]
  | cons e r ih =>
    obtain ⟨k, u⟩ := e
    by_cases hlt : i < k
    · simp [KMap.put, hlt]
    · by_cases heq : i = k
      · simp [KMap.put, heq]
      · simp [KMap.put, hlt, heq, ih]

/-- Of a map none of whose entries pass, with one put that does, that one passes. -/
theorem KMap.filter_put {α : Type} (m : KMap α) (p : Nat × α → Bool) (i : Nat) (w : α) (hm : ∀ e ∈ m, p e = false)
    (hw : p (i, w) = true) : (m.put i w).filter p = [(i, w)] := by
  induction m with
  | nil => simp [KMap.put, hw]
  | cons e r ih =>
    obtain ⟨k, u⟩ := e
    have hhead : p (k, u) = false := hm _ List.mem_cons_self
    have hr : ∀ e ∈ r, p e = false := fun e he => hm e (List.mem_cons_of_mem _ he)
    have htail : r.filter p = [] := by simpa using hr
    by_cases hlt : i < k
    · simp [KMap.put, hlt, hw, hhead, htail]
    · by_cases heq : i = k
      · subst heq
        simp [KMap.put, hw, htail]
      · simp [KMap.put, hlt, heq, hhead, ih hr]

theorem State.setCore_setCore (s : State) (c : CoreId) (k q : Core) : (s.setCore c k).setCore c q = s.setCore c q := by
  unfold State.setCore
  rw [KMap.put_put]

theorem mkCore_val (c : CoreId) : mkCore c.val = c := Fin.ext (Nat.mod_eq_of_lt c.isLt)

/-! ## Bytes -/

theorem State.sameBytes_trans {s t u : State} (h : s.sameBytes t) (g : t.sameBytes u) : s.sameBytes u :=
  ⟨fun a => (g.1 a).trans (h.1 a), fun c a => (g.2 c a).trans (h.2 c a)⟩

theorem State.modCore_sameBytes (s : State) (c : CoreId) (f : Core → Core) (hf : ∀ k, (f k).spad = k.spad) :
    s.sameBytes (s.modCore c f) := by
  refine ⟨fun _ => rfl, fun d a => ?_⟩
  by_cases hd : d = c
  · subst hd
    rw [State.core_modCore_self, hf]
  · rw [State.core_modCore_ne _ _ _ _ hd]

theorem State.retire_sameBytes (s : State) (len : Nat) : s.sameBytes (s.retire len) :=
  State.sameBytes_trans (s.modCx_sameBytes _) (State.modCore_sameBytes _ _ _ fun _ => rfl)

/-! ## Retiring -/

theorem State.retire_setCore (s : State) (len : Nat) : s.retire len = s.setCore s.cur (s.retire len).me := by
  have h : ∀ k q : Core, ((s.setCore s.cur k).setCore s.cur q) = s.setCore s.cur ((s.setCore s.cur k).setCore s.cur q).me :=
    fun k q => by
      rw [State.setCore_setCore]
      exact congrArg (s.setCore s.cur) (State.core_setCore_self s s.cur q).symm
  exact h _ _

/-- A change of the issuing core that leaves its contexts and its scratchpad, then retiring: the PC advances, no general register
and no byte changes. -/
theorem State.retire_modMe (s : State) (f : Core → Core) (len : Nat) (hctx : ∀ k, (f k).ctxs = k.ctxs)
    (hspad : ∀ k, (f k).spad = k.spad) :
    ((s.modMe f).retire len).cx.pc = s.cx.pc + dw len ∧ ((s.modMe f).retire len).cx.x = s.cx.x ∧
      s.sameBytes ((s.modMe f).retire len) := by
  have hcx : (s.modMe f).cx = s.cx := by
    rw [State.cx_modMe]
    exact congrArg (fun v => Vector.get v s.curCtx) (hctx s.me)
  refine ⟨?_, ?_, State.sameBytes_trans (State.modCore_sameBytes _ _ _ hspad) (State.retire_sameBytes _ _)⟩
  · rw [State.cx_retire, hcx]
  · rw [State.cx_retire, hcx]

/-! ## What a quiet context passes (R253) -/

theorem State.notInRestartable_free {s : State} (h : s.restartable = false) (va : DWord) (kind : Nat) :
    s.notInRestartable va kind = .ok () := by
  unfold State.notInRestartable
  rw [h]
  rfl

theorem State.followed_of_behindDone {s : State} (h : ∀ b ∈ s.cx.behind, s.me.behindDone b = true) :
    s.me.followed s.curCtx = true := by
  unfold Core.followed
  rw [List.all_eq_true]
  intro b hb
  rw [Bool.or_eq_true]
  exact .inr (h b hb)

theorem State.memGate_quiet {s : State} (h : s.quiet) : s.memGate = .ok () := by
  obtain ⟨hreqs, hbehind⟩ := h
  unfold State.memGate
  rw [hreqs, State.followed_of_behindDone hbehind]
  rfl

theorem State.syncPoint_quiet {s : State} (h : s.quiet) : s.syncPoint = .ok () := by
  unfold State.syncPoint
  rw [h.1]
  rfl

theorem State.replyRoom_quiet {s : State} (h : s.quiet) : s.replyRoom = .ok () := by
  unfold State.replyRoom
  rw [h.1]
  rfl

theorem State.pushesDone_unbound {s : State} (h : s.unbound) : s.pushesDone s.cur s.curCtx = true := by
  unfold State.pushesDone
  rw [List.all_eq_true]
  intro i _
  have hi : ((s.core s.cur).streams.get i).bound = none := h i
  rw [hi]

theorem State.settled_quiet {s : State} (hq : s.quiet) (hu : s.unbound) : s.settled = .ok () := by
  unfold State.settled State.settledAt State.allPerformed
  rw [s.syncPoint_quiet hq, State.followed_of_behindDone hq.2, hq.1, State.pushesDone_unbound hu]
  rfl

end Sys2Proof.Machine
end

/-! PROOFS. The event crossbar: its registers, disabled terms, the beginning of a cycle, TLBI (O39). -/

section
namespace Sys2Proof.Machine

/-! ## Bits and fields as numbers -/

theorem b2n_bit {w : Nat} (v : BitVec w) (i : Nat) : b2n (bit v i) = v.toNat / 2 ^ i % 2 := by
  unfold b2n bit
  rw [BitVec.getLsbD, Nat.testBit_eq_decide_div_mod_eq]
  have := Nat.mod_two_eq_zero_or_one (v.toNat / 2 ^ i)
  split <;> simp_all

/-! ## Registers of the crossbar (R311, R312) -/

theorem EcCounter.image_write (v : DWord) (h : xbarReserved 0 v = false) :
    dw ((v.setWidth 4).toNat + ((v >>> 16).setWidth 16 : Half).toNat * 2 ^ 16) = v := by
  have hv := v.isLt
  obtain ⟨hsrc, hhigh⟩ := not_or.mp (of_decide_eq_false h)
  simp only [fld, Decidable.not_not] at hsrc hhigh
  apply BitVec.eq_of_toNat_eq
  simp only [dw, BitVec.toNat_ofNat, BitVec.toNat_setWidth, BitVec.toNat_ushiftRight, Nat.shiftRight_eq_div_pow]
  omega

theorem EcTerm.image_write (v : DWord) (h : xbarReserved 4 v = false) :
    dw ((v.setWidth 20).toNat + b2n (bit v 20) * 2 ^ 20 + b2n (bit v 21) * 2 ^ 21 + BitVec.toNat (0 : BitVec 20) * 2 ^ 24) =
      dw (v.toNat % 2 ^ 24) := by
  obtain ⟨hmid, -⟩ := not_or.mp (of_decide_eq_false h)
  simp only [fld, Decidable.not_not] at hmid
  rw [b2n_bit, b2n_bit]
  apply BitVec.eq_of_toNat_eq
  simp only [dw, BitVec.toNat_ofNat, BitVec.toNat_setWidth, BitVec.ofNat_eq_ofNat]
  omega

theorem setWidth_setWidth_of_lt {n : Nat} (v : DWord) (hv : v.toNat < 2 ^ n) : (v.setWidth n).setWidth 64 = v := by
  apply BitVec.eq_of_toNat_eq
  rw [BitVec.toNat_setWidth, BitVec.toNat_setWidth, Nat.mod_eq_of_lt hv, Nat.mod_eq_of_lt v.isLt]

/-- A crossbar register reads as written, a term's latches as 0 (R311, R312). -/
theorem Crossbar.read_write_self (x : Crossbar) (i : Nat) (v : DWord) (hi : i < 19) (hv : xbarReserved i v = false) :
    (x.write i v).read i = if 4 ≤ i ∧ i < 12 then dw (v.toNat % 2 ^ 24) else v := by
  unfold Crossbar.write Crossbar.read
  by_cases h4 : i < 4
  · rw [if_neg (by omega)]
    simp only [h4, dite_true, vget_vput_self]
    exact EcCounter.image_write v (by simpa [xbarReserved, h4] using hv)
  by_cases h12 : i < 12
  · rw [if_pos (by omega)]
    simp only [h4, h12, dite_true, dite_false, vmod, vget_vput_self]
    exact EcTerm.image_write v (by simpa [xbarReserved, h4, h12] using hv)
  rw [if_neg (by omega)]
  by_cases h18 : i < 18
  · simp only [h4, h12, h18, dite_true, dite_false, vget_vput_self]
    simp only [xbarReserved, h4, h12, h18, if_false, if_true, decide_eq_false_iff_not, Decidable.not_not] at hv
    exact setWidth_setWidth_of_lt v (by have := v.isLt; unfold fld at hv; omega)
  · simp only [h4, h12, h18, dite_false]
    simp only [xbarReserved, h4, h12, h18, if_false, decide_eq_false_iff_not, Decidable.not_not] at hv
    exact setWidth_setWidth_of_lt v (by have := v.isLt; unfold fld at hv; omega)

/-- A write of one crossbar register leaves the others. -/
theorem Crossbar.read_write_ne (x : Crossbar) (i k : Nat) (v : DWord) (hi : i < 19) (hk : k < 19) (hne : k ≠ i) :
    (x.write i v).read k = x.read k := by
  have fin_ne {n a b : Nat} (ha : a < n) (hb : b < n) (hab : a ≠ b) : (⟨a, ha⟩ : Fin n) ≠ ⟨b, hb⟩ :=
    fun e => hab (Fin.mk.inj e)
  unfold Crossbar.write
  by_cases h4 : i < 4
  · simp only [h4, dite_true, Crossbar.read]
    by_cases k4 : k < 4
    · simp only [k4, dite_true, vget_vput_ne _ _ _ _ (fin_ne k4 h4 hne)]
    · simp only [k4, dite_false]
  by_cases h12 : i < 12
  · simp only [h4, h12, dite_true, dite_false, Crossbar.read]
    by_cases k12 : 4 ≤ k ∧ k < 12
    · obtain ⟨k4, k12⟩ := k12
      simp only [Nat.not_lt.mpr k4, k12, dite_true, dite_false, vmod,
        vget_vput_ne _ _ _ _ (fin_ne (a := k - 4) (b := i - 4) (n := 8) (by omega) (by omega) (by omega))]
    · by_cases k4 : k < 4
      · simp only [k4, dite_true]
      · simp only [k4, dite_false, show ¬k < 12 by omega]
  by_cases h18 : i < 18
  · simp only [h4, h12, h18, dite_true, dite_false, Crossbar.read]
    by_cases k18 : 12 ≤ k ∧ k < 18
    · obtain ⟨k12, k18⟩ := k18
      simp only [show ¬k < 4 by omega, Nat.not_lt.mpr k12, k18, dite_true, dite_false,
        vget_vput_ne _ _ _ _ (fin_ne (a := k - 12) (b := i - 12) (n := 6) (by omega) (by omega) (by omega))]
    · by_cases k4 : k < 4
      · simp only [k4, dite_true]
      · by_cases k12 : k < 12
        · simp only [k4, k12, dite_true, dite_false]
        · simp only [k4, k12, dite_false, show ¬k < 18 by omega]
  · simp only [h4, h12, h18, dite_false, Crossbar.read]
    by_cases k4 : k < 4
    · simp only [k4, dite_true]
    · by_cases k12 : k < 12
      · simp only [k4, k12, dite_true, dite_false]
      · simp only [k4, k12, dite_false, show k < 18 by omega, dite_true]

/-- A counter register that is written is loaded from RELOAD (R312). -/
theorem Crossbar.cnt_write_loaded (x : Crossbar) (i : Nat) (v : DWord) (h : i < 4) :
    ((x.write i v).cnt.get ⟨i, h⟩).cur = ((x.write i v).cnt.get ⟨i, h⟩).reload := by
  unfold Crossbar.write
  simp only [h, dite_true, vget_vput_self]

/-! ## Terms that are disabled (R50) -/

/-- No term of a core's crossbar is enabled. -/
def Core.termsOff (k : Core) : Prop := ∀ i, (k.xbar.term.get i).en = false

theorem EcTerm.step_disabled {t : EcTerm} (h : t.en = false) (cycle : Nat) (inp : BitVec 20) : t.step cycle inp = (false, t) := by
  unfold EcTerm.step
  simp [h]

theorem EcTerm.gather_en (t : EcTerm) (inp : BitVec 20) (m : KMap Nat) : (t.gather inp m).en = t.en := by
  unfold EcTerm.gather
  split <;> rfl

theorem Core.termsOff_modTerm {k : Core} (h : k.termsOff) (i : Fin 8) (f : EcTerm → EcTerm)
    (hf : (f (k.xbar.term.get i)).en = false) : (k.modTerm i f).termsOff := by
  intro j
  show ((vmod k.xbar.term i f).get j).en = false
  unfold vmod
  by_cases hj : j = i
  · subst hj
    rw [vget_vput_self, hf]
  · rw [vget_vput_ne _ _ _ _ hj]
    exact h j

/-- A disabled term only gathers what its pulses come after. -/
theorem State.term_disabled {s : State} {c : CoreId} (h : (s.core c).termsOff) (cycle : Nat) (inp : BitVec 20) (m : KMap Nat)
    (i : Fin 8) : s.term c cycle inp m i = s.modCore c fun k => k.modTerm i fun _ => ((s.core c).xbar.term.get i).gather inp m := by
  unfold State.term
  simp only [EcTerm.step_disabled (h i), Bool.false_eq_true, if_false]

/-- With every term disabled, the inputs of a cycle change nothing of the core but what its terms have gathered. -/
theorem State.terms_disabled {s : State} {c : CoreId} (h : (s.core c).termsOff) (cycle : Nat) (inp : BitVec 20) (m : KMap Nat) :
    (s.terms c cycle inp m).cur = s.cur ∧
      ∃ ts, (s.terms c cycle inp m).core c = { s.core c with xbar := { (s.core c).xbar with term := ts } } := by
  suffices hall : ∀ (l : List (Fin 8)) (u : State), (u.core c).termsOff →
      (l.foldl (fun s i => s.term c cycle inp m i) u).cur = u.cur ∧
        ∃ ts, (l.foldl (fun s i => s.term c cycle inp m i) u).core c =
          { u.core c with xbar := { (u.core c).xbar with term := ts } } from hall _ s h
  intro l
  induction l with
  | nil => exact fun u _ => ⟨rfl, (u.core c).xbar.term, rfl⟩
  | cons i r ih =>
    intro u hu
    have hone := State.term_disabled hu cycle inp m i
    have hoff : ((u.term c cycle inp m i).core c).termsOff := by
      rw [hone, State.core_modCore_self]
      exact Core.termsOff_modTerm hu i _ ((EcTerm.gather_en _ inp m).trans (hu i))
    obtain ⟨hcur, ts, hts⟩ := ih _ hoff
    rw [List.foldl_cons]
    refine ⟨hcur.trans (by rw [hone, State.modCore_cur]), ts, ?_⟩
    rw [hts, hone, State.core_modCore_self]
    rfl

/-! ## The beginning of a cycle (R312) -/

/-- Nothing that a core has set up waits for the next cycle. -/
def State.calm (s : State) : Prop := ∀ k ∈ s.cores, k.2.hasSoon = false

theorem State.calm_me {s : State} (h : s.calm) :
    s.me.xbar.soon = [] ∧ s.me.xbar.pulse = none ∧ s.me.pcfgSoon = [] := by
  have hme : s.me.hasSoon = false := by
    rcases KMap.get_mem Core.reset s.cores s.cur.val with hmem | hreset
    · exact h _ hmem
    · exact (congrArg Core.hasSoon hreset).trans rfl
  simpa [Core.hasSoon, and_assoc] using hme

/-- In a calm module that one core has left, the next cycle begins on that core alone. -/
theorem State.nextCycle_of_calm {s : State} (h : s.calm) (c : CoreId) (k : Core) (hk : k.hasSoon = true) :
    (s.setCore c k).nextCycle = (s.setCore c k).coreCycle c := by
  have hone : (s.setCore c k).cores.filter (fun e => e.2.hasSoon) = [(c.val, k)] := KMap.filter_put _ _ _ _ h hk
  unfold State.nextCycle
  rw [hone, List.foldl_cons, List.foldl_nil, mkCore_val]

/-- The same after an instruction that has set something up and retired. -/
theorem State.nextCycle_retire_modMe {s : State} (h : s.calm) (f : Core → Core) (len : Nat) (hf : (f s.me).hasSoon = true) :
    ((s.modMe f).retire len).nextCycle = ((s.modMe f).retire len).coreCycle s.cur := by
  have ht : (s.modMe f).retire len = s.setCore s.cur ((s.modMe f).retire len).me :=
    ((s.modMe f).retire_setCore len).trans (s.setCore_setCore _ _ _)
  have hk : ((s.modMe f).retire len).me.hasSoon = true := by
    rw [State.me_retire, State.me_modMe]
    exact hf
  have hnext := State.nextCycle_of_calm h s.cur _ hk
  rwa [← ht] at hnext

/-- What ECW has written takes effect, where nothing else was set up (R312). -/
theorem State.coreCycle_writes {s : State} {c : CoreId} (hpulse : (s.core c).xbar.pulse = none)
    (hpcfg : (s.core c).pcfgSoon = []) :
    (s.coreCycle c).cur = s.cur ∧ ((s.coreCycle c).core c).xbar =
      { (s.core c).xbar.soon.foldl (fun x w => x.write w.1 w.2) (s.core c).xbar with soon := [], pulse := none } := by
  unfold State.coreCycle
  simp only [hpulse, hpcfg, List.foldl_nil, State.core_modCore_self, State.modCore_cur, and_self]

theorem State.settleCount_pcfg (s : State) (c : CoreId) (i : Fin 8) : ((s.settleCount c i).core c).pcfg = (s.core c).pcfg := by
  unfold State.settleCount
  simp only
  split
  · rw [State.core_modCore_self]
    rfl
  · rfl

theorem State.settleCount_cur (s : State) (c : CoreId) (i : Fin 8) : (s.settleCount c i).cur = s.cur := by
  unfold State.settleCount
  simp only
  split <;> rfl

theorem State.setPcfg_spec (s : State) (c : CoreId) (i : Fin 8) (code : Half) :
    (s.setPcfg c i code).cur = s.cur ∧ ((s.setPcfg c i code).core c).pcfg = vput (s.core c).pcfg i code := by
  unfold State.setPcfg
  rw [State.core_modCore_self]
  exact ⟨s.settleCount_cur c i, congrArg (fun v => vput v i code) (s.settleCount_pcfg c i)⟩

/-- What one PCFG has written takes effect (R312). -/
theorem State.coreCycle_pcfg {s : State} {c : CoreId} {i : Fin 8} {code : Half} (hpulse : (s.core c).xbar.pulse = none)
    (hpcfg : (s.core c).pcfgSoon = [(i, code)]) :
    (s.coreCycle c).cur = s.cur ∧ ((s.coreCycle c).core c).pcfg = vput (s.core c).pcfg i code := by
  unfold State.coreCycle
  simp only [hpulse, hpcfg, List.foldl_cons, List.foldl_nil]
  obtain ⟨hcur, hget⟩ := State.setPcfg_spec (s.modCore c fun k => { k with pcfgSoon := [], xbar := {
    k.xbar.soon.foldl (fun x w => x.write w.1 w.2) k.xbar with soon := [], pulse := none } }) c i code
  exact ⟨hcur, hget.trans (by rw [State.core_modCore_self])⟩

/-- A counter after a pulse of source 15 alone (R50, R312). -/
theorem EcCounter.step_source15 (q : EcCounter) (m : KMap Nat) : (q.step (BitVec.ofNat 16 (2 ^ 15)) m).2.cur =
    if q.src = 15 ∧ q.reload ≠ 0 ∧ q.cur ≠ 0 then (if q.cur = 1 then q.reload else q.cur - 1) else q.cur := by
  have hsrc : bit (BitVec.ofNat 16 (2 ^ 15)) q.src.toNat = decide (q.src = 15) := by
    have hall : ∀ b : BitVec 4, bit (BitVec.ofNat 16 (2 ^ 15)) b.toNat = decide (b = 15) := by decide
    exact hall q.src
  have hcond : (q.reload ≠ 0 ∧ bit (BitVec.ofNat 16 (2 ^ 15)) q.src.toNat = true ∧ q.cur ≠ 0) ↔
      (q.src = 15 ∧ q.reload ≠ 0 ∧ q.cur ≠ 0) := by
    rw [hsrc, decide_eq_true_eq]
    exact and_left_comm
  unfold EcCounter.step
  by_cases hgo : q.src = 15 ∧ q.reload ≠ 0 ∧ q.cur ≠ 0
  · rw [if_pos (hcond.mpr hgo), if_pos hgo]
    split <;> rfl
  · rw [if_neg (mt hcond.mp hgo), if_neg hgo]

/-- An ECPULSE pulses source 15 alone: each counter sees it, and with every term disabled nothing else comes of it (R312). -/
theorem State.coreCycle_pulse {s : State} {c : CoreId} {m : KMap Nat} (hsoon : (s.core c).xbar.soon = [])
    (hpulse : (s.core c).xbar.pulse = some m) (hpcfg : (s.core c).pcfgSoon = []) (hoff : (s.core c).termsOff) (i : Fin 4) :
    (s.coreCycle c).cur = s.cur ∧
      ((s.coreCycle c).core c).xbar.cnt.get i = (((s.core c).xbar.cnt.get i).step (BitVec.ofNat 16 (2 ^ 15)) m).2 := by
  unfold State.coreCycle
  simp only [hpulse, hpcfg, List.foldl_nil]
  unfold State.pulseOf State.pulse State.pulseAt
  set u := s.modCore c fun k => { k with pcfgSoon := [], xbar := {
    k.xbar.soon.foldl (fun x w => x.write w.1 w.2) k.xbar with soon := [], pulse := none } }
  have hu : (u.core c).xbar = { (s.core c).xbar with soon := [], pulse := none } := by
    simp only [u, State.core_modCore_self, hsoon, List.foldl_nil]
  set w := u.modCore c fun k => { k with xbar := { k.xbar with
    cnt := Vector.ofFn fun i => (((u.core c).xbar.cnt.get i).step (BitVec.ofNat 16 (2 ^ 15)) m).2 } }
  have hw : (w.core c).termsOff := by
    intro j
    simp only [w, State.core_modCore_self, hu]
    exact hoff j
  simp only
  obtain ⟨hcur, ts, hts⟩ := State.terms_disabled hw u.cycle _ _
  refine ⟨hcur, ?_⟩
  rw [hts]
  simp only [w, State.core_modCore_self, hu, vget_ofFn]

end Sys2Proof.Machine
end

section
namespace Sys2Proof.Machine

/-! ## The instructions of the crossbar and of the counters (R311, R312) -/

theorem indexIn_lt {v : DWord} {n : Nat} (h : v.toNat < n) : indexIn v n = .ok v.toNat := by
  unfold indexIn
  rw [decide_eq_true h]
  rfl

theorem perfIx_lt {i : Nat} (h : i < 8) : perfIx i = ⟨i, h⟩ := Fin.ext (Nat.mod_eq_of_lt h)

section
variable {g : Guard} {d a b : Reg} {s : State}

theorem exec_ecw (hg : s.guardPasses g = true) (hr : s.restartable = false) (ha : s.regFree a = true)
    (hb : s.regFree b = true) (hi : (s.cx.xr a).toNat < 19) (hv : xbarReserved (s.cx.xr a).toNat (s.cx.xr b) = false) :
    exec (.ecw g a b) s = .next ((s.modMe fun k =>
      { k with xbar := { k.xbar with soon := k.xbar.soon ++ [((s.cx.xr a).toNat, s.cx.xr b)] } }).retire 4) :=
  show execEcw g a b s = _ from instr_ok hg (by
    simp only [State.notInRestartable_free hr, s.rdX_free a ha, s.rdX_free b hb, ok_bind, indexIn_lt hi, hv, Bool.not_false,
      check_true]
    rfl)

theorem exec_ecr (hg : s.guardPasses g = true) (hd : s.regFree d = true) (ha : s.regFree a = true)
    (hi : (s.cx.xr a).toNat < 19) : exec (.ecr g d a) s = s.doneX d (s.me.xbar.read (s.cx.xr a).toNat) 4 :=
  show execEcr g d a s = _ from instr_ok hg (by simp only [s.rdX_free a ha, ok_bind, indexIn_lt hi, s.wrX_free d _ hd])

theorem exec_eccnt (hg : s.guardPasses g = true) (hd : s.regFree d = true) (ha : s.regFree a = true)
    (hi : (s.cx.xr a).toNat < 4) :
    exec (.eccnt g d a) s = s.doneX d ((s.me.xbar.cnt.get ⟨(s.cx.xr a).toNat, hi⟩).cur.setWidth 64) 4 := by
  have hix : (⟨(s.cx.xr a).toNat % 4, Nat.mod_lt _ (by decide)⟩ : Fin 4) = ⟨(s.cx.xr a).toNat, hi⟩ :=
    Fin.ext (Nat.mod_eq_of_lt hi)
  exact show execEccnt g d a s = _ from instr_ok hg (by simp only [s.rdX_free a ha, ok_bind, indexIn_lt hi, s.wrX_free d _ hd, hix])

theorem exec_ecpulse (hg : s.guardPasses g = true) (hr : s.restartable = false)
    (hq : s.me.xbar.pulseCounts = false ∨ s.quiet ∧ s.unbound) :
    exec (.ecpulse g) s = .next ((s.modMe fun k =>
      { k with xbar := { k.xbar with pulse := some (joinSeen (k.xbar.pulse.getD []) s.cx.seen) } }).retire 4) :=
  show execEcpulse g s = _ from instr_ok hg (by
    rcases hq with hq | ⟨hq, hu⟩
    · simp only [State.notInRestartable_free hr, hq, ok_bind]
      rfl
    · simp only [State.notInRestartable_free hr, State.settled_quiet hq hu, ok_bind]
      split <;> rfl)

theorem exec_pcfg (hg : s.guardPasses g = true) (ha : s.regFree a = true) (hb : s.regFree b = true)
    (hi : (s.cx.xr a).toNat < 8) : exec (.pcfg g a b) s = .next ((s.modMe fun k =>
      { k with pcfgSoon := k.pcfgSoon ++ [(⟨(s.cx.xr a).toNat, hi⟩, (s.cx.xr b).setWidth 16)] }).retire 4) :=
  show execPcfg g a b s = _ from instr_ok hg (by
    simp only [s.rdX_free a ha, s.rdX_free b hb, ok_bind, indexIn_lt hi, perfIx_lt hi]
    rfl)

theorem State.settleCount_cx (i : Fin 8) : (s.settleCount s.cur i).cx = s.cx := by
  unfold State.settleCount
  simp only
  split
  · exact State.cx_modMe (s.draw 64).2 _
  · rfl

theorem State.settleCount_hidden {c : CoreId} {i : Fin 8} (hh : hiddenEvent c ((s.core c).pcfg.get i) = true)
    (ht : (s.core c).pcntAt.get i ≠ s.cycle) :
    ((s.settleCount c i).core c).pcnt.get i = (s.core c).pcnt.get i + Config.free 64 s.freeCtr := by
  unfold State.settleCount
  rw [if_pos (by simp [hh, ht]), State.core_modCore_self]
  exact vget_vput_self _ _ _

theorem State.settleCount_shown {c : CoreId} {i : Fin 8}
    (h : hiddenEvent c ((s.core c).pcfg.get i) = false ∨ (s.core c).pcntAt.get i = s.cycle) : s.settleCount c i = s := by
  unfold State.settleCount
  rw [if_neg (by rcases h with h | h <;> simp [h])]

/-- PRD reads the counter once it is settled (log 25). -/
theorem exec_prd (hg : s.guardPasses g = true) (hd : s.regFree d = true) (ha : s.regFree a = true)
    (hi : (s.cx.xr a).toNat < 8) : exec (.prd g d a) s =
      (s.settleCount s.cur ⟨(s.cx.xr a).toNat, hi⟩).doneX d
        ((s.settleCount s.cur ⟨(s.cx.xr a).toNat, hi⟩).me.pcnt.get ⟨(s.cx.xr a).toNat, hi⟩) 4 := by
  have hd' : (s.settleCount s.cur ⟨(s.cx.xr a).toNat, hi⟩).regFree d = true := by
    unfold State.regFree
    rw [State.settleCount_cx]
    exact hd
  exact show execPrd g d a s = _ from instr_ok hg (by
    simp only [s.rdX_free a ha, ok_bind, indexIn_lt hi, perfIx_lt hi, State.wrX_free _ d _ hd'])

theorem exec_prst (hg : s.guardPasses g = true) (hr : s.restartable = false) (ha : s.regFree a = true)
    (hi : (s.cx.xr a).toNat < 256) : exec (.prst g a) s = .next ((s.modMe fun k =>
      { k with pcnt := Vector.ofFn fun i => if bit (s.cx.xr a) i.val then 0 else k.pcnt.get i
               pcntAt := Vector.ofFn fun i => if bit (s.cx.xr a) i.val then s.cycle else k.pcntAt.get i }).retire 4) :=
  show execPrst g a s = _ from instr_ok hg (by
    simp only [State.notInRestartable_free hr, s.rdX_free a ha, ok_bind, decide_eq_true hi, check_true]
    rfl)

/-- A counter that does not count retired instructions (event 2, R387) stays as an instruction retires. -/
theorem State.pcnt_retire (len : Nat) {k : Fin 8} (hk : s.me.pcfg.get k ≠ 2) :
    (s.retire len).me.pcnt.get k = s.me.pcnt.get k := by
  unfold State.retire
  rw [State.me_modMe, State.me_modCx]
  unfold Core.perf
  rw [vget_ofFn]
  exact if_neg fun h => hk (BitVec.eq_of_toNat_eq h)

/-! ## TLBI (R313) -/

theorem exec_tlbi (hg : s.guardPasses g = true) (hr : s.restartable = false) (ha : s.regFree a = true)
    (hb : s.regFree b = true) (h1 : 1 ≤ (s.cx.xr b).toNat / 2 ^ 32) (h4 : (s.cx.xr b).toNat / 2 ^ 32 ≤ 4) :
    exec (.tlbi g a b) s = .next ((s.tlbi ((s.cx.xr b).toNat / 2 ^ 32) ((s.cx.xr a).toNat % 2 ^ 56)
      ((s.cx.xr b).toNat % 2 ^ 32)).retire 4) := by
  have hscope : fld (s.cx.xr b) 34 32 = (s.cx.xr b).toNat / 2 ^ 32 := by unfold fld; omega
  have hhigh : fld (s.cx.xr b) 63 35 = 0 := by unfold fld; omega
  have hva : fld (s.cx.xr a) 55 0 = (s.cx.xr a).toNat % 2 ^ 56 := by unfold fld; simp
  have hn : fld (s.cx.xr b) 31 0 = (s.cx.xr b).toNat % 2 ^ 32 := by unfold fld; simp
  exact show execTlbi g a b s = _ from instr_ok hg (by
    simp only [State.notInRestartable_free hr, s.rdX_free a ha, s.rdX_free b hb, ok_bind, hscope, hhigh, hva, hn, h1, h4,
      and_self, decide_true, Bool.and_self, check_true]
    rfl)

end

/-- A map whose entries change by key reads so. -/
theorem KMap.get_map {α : Type} (d : α) (f : Nat → α → α) (m : KMap α) (i : Nat) (hd : f i d = d) :
    KMap.get d (m.map fun e => (e.1, f e.1 e.2)) i = f i (m.get d i) := by
  induction m with
  | nil => exact hd.symm
  | cons e r ih =>
    obtain ⟨k, v⟩ := e
    by_cases h : i = k
    · simp [KMap.get, h]
    · simp [KMap.get, h, ih]

theorem State.core_tlbi (s : State) (scope va n : Nat) (c : CoreId) : (s.tlbi scope va n).core c =
    if tlbiCore scope s.cur.val c then { s.core c with tlb := (s.core c).tlb.filter fun e => !e.inRange va n } else s.core c :=
  KMap.get_map Core.reset
    (fun c k => if tlbiCore scope s.cur.val c then { k with tlb := k.tlb.filter fun e => !e.inRange va n } else k)
    s.cores c.val (by split <;> rfl)

theorem State.ltlb_tlbi (s : State) (scope va n l : Nat) : (s.tlbi scope va n).ltlb.get [] l =
    if tlbiLanding scope s.cur.val l then (s.ltlb.get [] l).filter fun e => !e.inRange va n else s.ltlb.get [] l :=
  KMap.get_map []
    (fun l (es : List TlbEnt) => if tlbiLanding scope s.cur.val l then es.filter fun e => !e.inRange va n else es)
    s.ltlb l (by split <;> rfl)

/-- An entry stays where it overlaps none of the pages. -/
theorem TlbEnt.not_inRange (e : TlbEnt) (va n : Nat) : (!e.inRange va n) = true ↔
    n ≠ 0 ∧ (va / 65536 * 65536 + n * 65536 ≤ e.va ∨ e.va + 2 ^ e.log ≤ va / 65536 * 65536) := by
  unfold TlbEnt.inRange meets
  simp only [Bool.not_eq_true', Bool.or_eq_false_iff, beq_eq_false_iff_ne, Bool.and_eq_false_iff, decide_eq_false_iff_not,
    Nat.not_lt]

/-- The cores whose TLBs a scope names (R87, R313). -/
theorem tlbiCore_iff {scope : Nat} (h1 : 1 ≤ scope) (h4 : scope ≤ 4) (me c : CoreId) : tlbiCore scope me.val c.val = true ↔
    scope = 1 ∧ c.val = me.val ∨ scope = 2 ∧ c.val / 16 = me.val / 16 ∨ scope = 3 ∧ c.val / 2048 = me.val / 2048 ∨
      scope = 4 := by
  have hc := c.isLt
  have hme := me.isLt
  obtain rfl | rfl | rfl | rfl : scope = 1 ∨ scope = 2 ∨ scope = 3 ∨ scope = 4 := by omega
  · simp [tlbiCore]
  · simp [tlbiCore, landingOf]
  · have hdie : me.val / 2048 % 4 = me.val / 2048 ∧ c.val / 2048 % 4 = c.val / 2048 :=
      ⟨Nat.mod_eq_of_lt (by omega), Nat.mod_eq_of_lt (by omega)⟩
    simp [tlbiCore, dieOf, hdie]
  · simp [tlbiCore]

/-- The landings whose TLBs a scope names (R87, R313). -/
theorem tlbiLanding_iff {scope : Nat} (h1 : 1 ≤ scope) (h4 : scope ≤ 4) (me : CoreId) (l : Nat) :
    tlbiLanding scope me.val l = true ↔
      scope ≤ 2 ∧ l = me.val / 16 ∨ scope = 3 ∧ l / 128 = me.val / 2048 ∨ scope = 4 := by
  have hme := me.isLt
  obtain rfl | rfl | rfl | rfl : scope = 1 ∨ scope = 2 ∨ scope = 3 ∨ scope = 4 := by omega
  · simp [tlbiLanding, landingOf]
  · simp [tlbiLanding, landingOf]
  · have hdie : me.val / 2048 % 4 = me.val / 2048 := Nat.mod_eq_of_lt (by omega)
    simp [tlbiLanding, dieOf, hdie]
  · simp [tlbiLanding]

theorem State.core_retire_tlb (s : State) (len : Nat) (c : CoreId) : ((s.retire len).core c).tlb = (s.core c).tlb := by
  by_cases hc : c = s.cur
  · subst hc
    have hme : ((s.retire len).core s.cur) = (s.retire len).me := rfl
    rw [hme, s.me_retire len]
    rfl
  · exact congrArg Core.tlb ((s.retire_sameButCtx len).2.1 c hc)

end Sys2Proof.Machine
end

section
namespace Sys2Proof.Machine

/-! ## What they set up comes about with the next cycle (R312) -/

/-- After an ECW the register reads as written from the next cycle on; the others stay. -/
theorem State.nextCycle_ecw {s : State} (h : s.calm) (i : Nat) (v : DWord) (t : State)
    (ht : t = (s.modMe fun k => { k with xbar := { k.xbar with soon := k.xbar.soon ++ [(i, v)] } }).retire 4) :
    t.nextCycle.me.xbar = { ({ s.me.xbar with soon := [(i, v)] } : Crossbar).write i v with soon := [], pulse := none } := by
  obtain ⟨hsoon, hpulse, hpcfg⟩ := s.calm_me h
  have hxbar : (t.core s.cur).xbar = { s.me.xbar with soon := [(i, v)] } := by
    have hme : t.core s.cur = t.me := by rw [ht]; rfl
    rw [hme, ht, State.me_retire, State.me_modMe]
    simp only [hsoon, List.nil_append]
  have hsame : (t.core s.cur).pcfgSoon = [] := by
    have hme : t.core s.cur = t.me := by rw [ht]; rfl
    rw [hme, ht, State.me_retire, State.me_modMe]
    exact hpcfg
  have hnext : t.nextCycle = t.coreCycle s.cur := by
    rw [ht]
    exact State.nextCycle_retire_modMe h _ _ (by simp [Core.hasSoon])
  obtain ⟨hcur, hx⟩ := State.coreCycle_writes (s := t) (c := s.cur) (by rw [hxbar]; exact hpulse) hsame
  have hcur' : (t.coreCycle s.cur).cur = s.cur := hcur.trans (by rw [ht]; rfl)
  unfold State.me
  rw [hnext, hcur', hx, hxbar]
  rfl

/-- After an ECPULSE the counters of source 15 see a pulse with the next cycle; nothing else comes of it where no term is
enabled. -/
theorem State.nextCycle_ecpulse {s : State} (h : s.calm) (hoff : s.me.termsOff) (m : KMap Nat) (t : State)
    (ht : t = (s.modMe fun k => { k with xbar := { k.xbar with pulse := some m } }).retire 4) (i : Fin 4) :
    t.nextCycle.me.xbar.cnt.get i = ((s.me.xbar.cnt.get i).step (BitVec.ofNat 16 (2 ^ 15)) m).2 := by
  obtain ⟨hsoon, -, hpcfg⟩ := s.calm_me h
  have hme : t.core s.cur = { s.me with
      ctxs := t.me.ctxs, pcnt := t.me.pcnt, xbar := { s.me.xbar with pulse := some m } } := by
    have hme : t.core s.cur = t.me := by rw [ht]; rfl
    rw [hme, ht, State.me_retire, State.me_modMe]
  have hnext : t.nextCycle = t.coreCycle s.cur := by
    rw [ht]
    exact State.nextCycle_retire_modMe h _ _ (by simp [Core.hasSoon])
  have hxbar : (t.core s.cur).xbar = { s.me.xbar with pulse := some m } := by rw [hme]
  obtain ⟨hcur, hcnt⟩ := State.coreCycle_pulse (s := t) (c := s.cur) (m := m) (by rw [hxbar]; exact hsoon) (by rw [hxbar])
    (by rw [hme]; exact hpcfg) (fun j => by rw [hxbar]; exact hoff j) i
  have hcur' : (t.coreCycle s.cur).cur = s.cur := hcur.trans (by rw [ht]; rfl)
  unfold State.me
  rw [hnext, hcur', hcnt, hxbar]
  rfl

/-- After a PCFG the counter counts the event named from the next cycle on. -/
theorem State.nextCycle_pcfg {s : State} (h : s.calm) (i : Fin 8) (code : Half) (t : State)
    (ht : t = (s.modMe fun k => { k with pcfgSoon := k.pcfgSoon ++ [(i, code)] }).retire 4) :
    t.nextCycle.me.pcfg = vput s.me.pcfg i code := by
  obtain ⟨-, hpulse, hpcfg⟩ := s.calm_me h
  have hme : t.core s.cur = { s.me with ctxs := t.me.ctxs, pcnt := t.me.pcnt, pcfgSoon := [(i, code)] } := by
    have hme : t.core s.cur = t.me := by rw [ht]; rfl
    rw [hme, ht, State.me_retire, State.me_modMe]
    simp only [hpcfg, List.nil_append]
  have hnext : t.nextCycle = t.coreCycle s.cur := by
    rw [ht]
    exact State.nextCycle_retire_modMe h _ _ (by simp [Core.hasSoon])
  obtain ⟨hcur, hset⟩ := State.coreCycle_pcfg (s := t) (c := s.cur) (i := i) (code := code) (by rw [hme]; exact hpulse)
    (by rw [hme])
  have hcur' : (t.coreCycle s.cur).cur = s.cur := hcur.trans (by rw [ht]; rfl)
  unfold State.me
  rw [hnext, hcur', hset, hme]
  rfl

/-- Removing TLB entries leaves the context that issues and every byte. -/
theorem State.tlbi_frame (s : State) (scope va n : Nat) :
    (s.tlbi scope va n).cx = s.cx ∧ s.sameBytes (s.tlbi scope va n) := by
  have hcore (c : CoreId) : ((s.tlbi scope va n).core c).ctxs = (s.core c).ctxs ∧
      ((s.tlbi scope va n).core c).spad = (s.core c).spad := by
    rw [State.core_tlbi]
    split <;> exact ⟨rfl, rfl⟩
  refine ⟨?_, fun _ => rfl, fun c a => by rw [(hcore c).2]⟩
  unfold State.cx Core.ctx
  exact congrArg (fun v => Vector.get v s.curCtx) (hcore s.cur).1

/-- Settles O39: each instruction is one change of its core, and what ECW, ECPULSE and PCFG set up is carried out by
`State.coreCycle` of that core, the only one that a calm module has to begin. -/
theorem crossbarResults : Obligations.CrossbarResults := by
  unfold Obligations.CrossbarResults
  intro g d a b s hg hr hx
  have hd : s.regFree d = true := hx d (by simp)
  have ha : s.regFree a = true := hx a (by simp)
  have hb : s.regFree b = true := hx b (by simp)
  refine ⟨fun hi hv => ?_, exec_ecr hg hd ha, fun hi => exec_eccnt hg hd ha hi, fun hq => ?_, fun hi => ⟨?_, ?_, ?_⟩,
    fun hi => ?_, fun h1 h4 => ?_⟩
  · obtain ⟨hpc, hxs, hbytes⟩ := s.retire_modMe (fun k => { k with xbar := { k.xbar with
      soon := k.xbar.soon ++ [((s.cx.xr a).toNat, s.cx.xr b)] } }) 4 (fun _ => rfl) (fun _ => rfl)
    refine ⟨_, exec_ecw hg hr ha hb hi hv, hpc, hxs, hbytes, ?_, fun hcalm => ?_⟩
    · rw [State.me_retire, State.me_modMe]
    · have hz := State.nextCycle_ecw hcalm (s.cx.xr a).toNat (s.cx.xr b) _ rfl
      intro z
      have hread (k : Nat) : z.read k = (({ s.me.xbar with soon := [((s.cx.xr a).toNat, s.cx.xr b)] } : Crossbar).write
          (s.cx.xr a).toNat (s.cx.xr b)).read k := by
        rw [show z = _ from hz]
        rfl
      refine ⟨(hread _).trans (Crossbar.read_write_self _ _ _ hi hv),
        fun k hk hne => (hread k).trans (Crossbar.read_write_ne _ _ k _ hi hk hne), fun h => ?_⟩
      rw [show z = _ from hz]
      exact Crossbar.cnt_write_loaded _ _ _ h
  · obtain ⟨hpc, hxs, hbytes⟩ := s.retire_modMe (fun k => { k with xbar := { k.xbar with
      pulse := some (joinSeen (k.xbar.pulse.getD []) s.cx.seen) } }) 4 (fun _ => rfl) (fun _ => rfl)
    refine ⟨_, exec_ecpulse hg hr hq, hpc, hxs, hbytes, ?_, ?_, fun hcalm hoff k => ?_⟩
    · rw [State.me_retire, State.me_modMe]
      rfl
    · rw [State.me_retire, State.me_modMe]
    · have hpulse := (s.calm_me hcalm).2.1
      rw [State.nextCycle_ecpulse hcalm hoff (joinSeen [] s.cx.seen) _ (by
        unfold State.modMe State.modCore
        simp only [State.core_cur, hpulse, Option.getD_none])]
      exact EcCounter.step_source15 _ _
  · obtain ⟨hpc, hxs, hbytes⟩ := s.retire_modMe (fun k => { k with pcfgSoon :=
      k.pcfgSoon ++ [(⟨(s.cx.xr a).toNat, hi⟩, (s.cx.xr b).setWidth 16)] }) 4 (fun _ => rfl) (fun _ => rfl)
    refine ⟨_, exec_pcfg hg ha hb hi, hpc, hxs, hbytes, ?_, fun hcalm => ?_⟩
    · rw [State.me_retire, State.me_modMe]
    · rw [State.nextCycle_pcfg hcalm ⟨(s.cx.xr a).toNat, hi⟩ ((s.cx.xr b).setWidth 16) _ rfl]
      exact ⟨vget_vput_self _ _ _, fun k hk => vget_vput_ne _ _ _ _ hk⟩
  · intro hhidden hat
    rw [exec_prd hg hd ha hi]
    congr 1
    have hcur : (s.settleCount s.cur ⟨(s.cx.xr a).toNat, hi⟩).me =
        (s.settleCount s.cur ⟨(s.cx.xr a).toNat, hi⟩).core s.cur := by
      unfold State.me
      rw [State.settleCount_cur]
    rw [hcur]
    exact State.settleCount_hidden hhidden hat
  · intro hshown
    rw [exec_prd hg hd ha hi, State.settleCount_shown hshown]
  · obtain ⟨hpc, hxs, hbytes⟩ := s.retire_modMe (fun k => { k with
      pcnt := Vector.ofFn fun i => if bit (s.cx.xr a) i.val then 0 else k.pcnt.get i
      pcntAt := Vector.ofFn fun i => if bit (s.cx.xr a) i.val then s.cycle else k.pcntAt.get i }) 4 (fun _ => rfl)
      (fun _ => rfl)
    refine ⟨_, exec_prst hg hr ha hi, hpc, hxs, hbytes, fun k hk => ?_⟩
    rw [State.pcnt_retire _ (by rw [State.me_modMe]; exact hk), State.me_modMe]
    exact vget_ofFn _ _
  · obtain ⟨hcx, hbytes⟩ := s.tlbi_frame ((s.cx.xr b).toNat / 2 ^ 32) ((s.cx.xr a).toNat % 2 ^ 56) ((s.cx.xr b).toNat % 2 ^ 32)
    refine ⟨_, exec_tlbi hg hr ha hb h1 h4, ?_, ?_, State.sameBytes_trans hbytes (State.retire_sameBytes _ _),
      fun c => ?_, fun l => ?_⟩
    · rw [State.cx_retire, hcx]
      rfl
    · rw [State.cx_retire, hcx]
    · rw [State.core_retire_tlb, State.core_tlbi]
      refine ⟨fun hn => ?_, fun hn k => ?_⟩
      · rw [if_neg (mt (tlbiCore_iff h1 h4 s.cur c).mp hn)]
      · rw [if_pos ((tlbiCore_iff h1 h4 s.cur c).mpr hn), List.mem_filter, TlbEnt.not_inRange]
    · have hl := State.ltlb_tlbi s ((s.cx.xr b).toNat / 2 ^ 32) ((s.cx.xr a).toNat % 2 ^ 56) ((s.cx.xr b).toNat % 2 ^ 32) l
      refine ⟨fun hn => ?_, fun hn k => ?_⟩
      · exact hl.trans (if_neg (mt (tlbiLanding_iff h1 h4 s.cur l).mp hn))
      · have hl' := hl.trans (if_pos ((tlbiLanding_iff h1 h4 s.cur l).mpr hn))
        refine (iff_of_eq (congrArg (k ∈ ·) hl')).trans ?_
        rw [List.mem_filter, TlbEnt.not_inRange]

end Sys2Proof.Machine
end

/-! PROOFS. Sending (O35): precise traps, the send queue, blocks, host queues, multicast stores. -/

section
namespace Sys2Proof.Machine

theorem mem_upto (n i : Nat) : i ∈ upto n ↔ i < n := by
  induction n with
  | zero => simp [upto]
  | succ n ih => simp [upto, ih]; omega

/-! ## Precise traps (R360) -/

/-- With the trap context free, the record of a precise fault is taken at once. -/
theorem State.trapHere_eq {s : State} (h : s.trapFree) (q : TrapInfo) :
    s.trapHere q = (s.modCx fun x => { x with stop := .faulted }).modMe fun k => k.enterTrap
      { cause := q.cause, ctx := s.curCtx.val, defd := false, fpc := s.cx.pc, faddr := q.faddr, finfo := q.finfo,
        frpc := s.cx.pc, req := none, at_ := s.cycle } := by
  obtain ⟨hne, hdead⟩ := h
  have hval : s.curCtx.val ≠ 13 := fun e => hne (Fin.ext e)
  have hlive : (((s.modCx fun x => { x with stop := .faulted }).core s.cur).ctx 13).live = false := by
    refine Eq.trans (congrArg (fun k : Core => (k.ctx 13).live) (State.me_modCx s _)) ?_
    rw [Core.ctx_modCtx_ne _ _ _ _ (Ne.symm hne)]
    exact hdead
  unfold State.trapHere State.raise
  simp only [if_neg hval]
  unfold State.modMe State.modCore
  refine congrArg (State.setCore _ _) ?_
  unfold Core.takeRec
  exact if_pos (congrArg (fun b => !b) hlive)

/-- The context faults precisely, and nothing else of its core but the trap context and its record changes. -/
theorem State.trapHere_trapsTo {s : State} (h : s.trapFree) (q : TrapInfo) :
    s.trapsTo (s.trapHere q) q.cause q.faddr q.finfo ∧ (s.trapHere q).me.sendQ = s.me.sendQ := by
  have hne : s.curCtx ≠ 13 := h.1
  rw [State.trapHere_eq h]
  set u := s.modCx fun x => { x with stop := .faulted } with hu
  have hcx : u.me.ctx s.curCtx = { s.cx with stop := .faulted } := by
    rw [hu, State.me_modCx, Core.ctx_modCtx_self]
    rfl
  have htvec : u.me.tvec = s.me.tvec := by
    rw [hu, State.me_modCx]
    rfl
  have htstk : u.me.tstk = s.me.tstk := by
    rw [hu, State.me_modCx]
    rfl
  have hsendQ : u.me.sendQ = s.me.sendQ := by
    rw [hu, State.me_modCx]
    rfl
  unfold State.trapsTo
  rw [State.cx_modMe, State.me_modMe]
  unfold Core.enterTrap
  simp only [s.curCtx.isLt, dite_true, Core.ctx_setCtx_self, Core.setCtx_trap, Fin.eta, Ctx.clearB]
  rw [htvec, htstk, vget_vput_self, vget_vput_ne _ _ _ _ (by decide),
    vget_vput_ne _ _ _ _ (by decide), vget_vput_ne _ _ _ _ (by decide), vget_vput_self, vget_vput_ne _ _ _ _ (by decide),
    vget_vput_ne _ _ _ _ (by decide), vget_vput_self, vget_vput_ne _ _ _ _ (by decide), vget_vput_self, hcx]
  exact ⟨⟨trivial, trivial, rfl, rfl, rfl, rfl, rfl, (Core.ctx_setCtx_ne _ _ _ _ hne).trans hcx⟩, hsendQ⟩

/-! ## The send queue (R15, R21, R288) -/

/-- The next sequence number is the core's own, unless the reaction numbers its events itself (R15). -/
theorem State.sendSeq_core {s : State} (h : ∀ r, s.cx.run = some r → r.seqBase = none) :
    s.sendSeq = (s.me.seq, s.modMe fun k => { k with seq := k.seq + 1 }) := by
  unfold State.sendSeq
  cases hrun : s.cx.run with
  | none => rfl
  | some r => simp only [h r hrun]; rfl

theorem State.sendSeq_own {s : State} {r : Run} {n : Word} (hrun : s.cx.run = some r) (hbase : r.seqBase = some n) :
    s.sendSeq = (n + BitVec.ofNat 32 r.sends, s.modCx fun x => { x with run := some { r with sends := r.sends + 1 } }) := by
  unfold State.sendSeq
  simp only [hrun, hbase]

/-- Taking a sequence number leaves the rest of the context, the send queue and every byte. -/
theorem State.sendSeq_frame (s : State) : s.sameBytes s.sendSeq.2 ∧ s.sendSeq.2.cx.pc = s.cx.pc ∧
    s.sendSeq.2.cx.x = s.cx.x ∧ s.sendSeq.2.me.sendQ = s.me.sendQ := by
  by_cases h : ∀ r, s.cx.run = some r → r.seqBase = none
  · rw [State.sendSeq_core h]
    simp only [State.cx_modMe, State.me_modMe]
    exact ⟨State.modCore_sameBytes _ _ _ fun _ => rfl, rfl, rfl, trivial⟩
  · push Not at h
    obtain ⟨r, hrun, hbase⟩ := h
    obtain ⟨n, hn⟩ := Option.ne_none_iff_exists'.mp hbase
    rw [State.sendSeq_own hrun hn]
    simp only [State.cx_modCx, State.me_modCx]
    exact ⟨State.modCx_sameBytes _ _, trivial, trivial, rfl⟩

/-- The entry of the send queue that an event of the issuing context takes up. -/
def State.sendEntry (s : State) (dest : DWord) (tag : Tag) (p : Payload) : SendEntry :=
  { ev := { dest := dest, tag := tag, origin := s.originOf s.cur s.originCx.val, seq := s.sendSeq.1, sendTs := 0, payload := p,
            sendLate := false, bex := false, restartable := s.restartable,
            replay := match s.cx.run with
              | some r => r.replay
              | none => false, ctl := false }
    ctx := s.curCtx, upTo := s.reqCtr, seen := s.cx.seen }

theorem State.queueEvent_eq (s : State) (dest : DWord) (tag : Tag) (p : Payload) :
    s.queueEvent dest tag p = s.sendSeq.2.modMe fun k => { k with sendQ := k.sendQ ++ [s.sendEntry dest tag p] } := rfl

/-- What an instruction that queues an event and retires has done. -/
theorem State.queueEvent_retire (s : State) (dest : DWord) (tag : Tag) (p : Payload) (t : State)
    (ht : t = (s.queueEvent dest tag p).retire 4) : ∃ e, t.cx.pc = s.cx.pc + 4 ∧ s.sameBytes t ∧
      t.me.sendQ = s.me.sendQ ++ [e] ∧ e.ctx = s.curCtx ∧ e.ev.dest = dest ∧ e.ev.tag = tag ∧ e.ev.payload = p ∧
      ((∀ r, s.cx.run = some r → r.seqBase = none) → e.ev.seq = s.me.seq ∧ t.me.seq = s.me.seq + 1) ∧
      (∀ r n, s.cx.run = some r → r.seqBase = some n → e.ev.seq = n + BitVec.ofNat 32 r.sends ∧ t.me.seq = s.me.seq ∧
        t.cx.run = some { r with sends := r.sends + 1 }) ∧
      e.ev.restartable = s.restartable ∧ t.cx.x = s.cx.x := by
  obtain ⟨hbytes, hpc, hx, hq⟩ := s.sendSeq_frame
  rw [State.queueEvent_eq] at ht
  obtain ⟨hpc', hx', hbytes'⟩ := s.sendSeq.2.retire_modMe
    (fun k => { k with sendQ := k.sendQ ++ [s.sendEntry dest tag p] }) 4 (fun _ => rfl) (fun _ => rfl)
  rw [← ht] at hpc' hx' hbytes'
  have hsendQ : t.me.sendQ = s.me.sendQ ++ [s.sendEntry dest tag p] := by
    rw [ht, State.me_retire, State.me_modMe, hq]
  have hseq : t.me.seq = s.sendSeq.2.me.seq := by rw [ht, State.me_retire, State.me_modMe]
  have hrun' : t.cx.run = s.sendSeq.2.cx.run := by
    rw [ht, State.cx_retire, State.cx_modMe]
    rfl
  refine ⟨_, hpc'.trans (by rw [hpc]; rfl), State.sameBytes_trans hbytes hbytes', hsendQ, rfl, rfl, rfl, rfl, fun h => ?_,
    fun r n hrun hn => ?_, rfl, hx'.trans hx⟩
  · rw [hseq]
    unfold State.sendEntry
    rw [State.sendSeq_core h, State.me_modMe]
    exact ⟨rfl, rfl⟩
  · rw [hseq, hrun']
    unfold State.sendEntry
    rw [State.sendSeq_own hrun hn, State.me_modCx, State.cx_modCx]
    exact ⟨rfl, rfl, rfl⟩

/-! ## SEND and its kin (R285, R289) -/

/-- The tag of an event sent with a delta, the saturating sum written as a minimum (R21). -/
theorem sendTag_eq (now : Tag) (delta : DWord) : sendTag now delta =
    if delta = 0 then { t := now.t, m := if now.m = BitVec.allOnes 32 then now.m else now.m + 1 }
    else { t := BitVec.ofNat 64 (min (now.t.toNat + delta.toNat) (2 ^ 64 - 1)), m := 0 } := by
  unfold sendTag
  refine ite_congr rfl (fun _ => rfl) fun _ => ?_
  by_cases hsum : now.t.toNat + delta.toNat < 2 ^ 64
  · rw [if_pos hsum, Nat.min_eq_left (by omega), BitVec.ofNat_add, BitVec.ofNat_toNat, BitVec.ofNat_toNat, BitVec.setWidth_eq,
      BitVec.setWidth_eq]
  · rw [if_neg hsum, Nat.min_eq_right (by omega)]
    rfl

theorem keeping_ok (s : State) (p : Payload) : keeping s p (.ok ()) = .ok () := by
  cases p with
  | _ => rfl

/-- What a send queues when nothing stops it. -/
theorem send_ok {s : State} {payload : State → Except Stop (Payload × State)} {a b : Reg} {p : Payload} (hq : s.quiet)
    (ha : s.regFree a = true) (hb : s.regFree b = true) (hleft : s.sendsLeft = true) (hdesc : s.descFault (s.cx.xr a) = none)
    (hp : payload s = .ok (p, s)) (hroom : s.me.sendRoom p = true) :
    send payload a b s = .ok (s.queueEvent (s.cx.xr a) (sendTag s.cx.tnow (s.cx.xr b)) p) := by
  have hcheck : s.checkDesc (s.cx.xr a) = .ok () := by
    unfold State.checkDesc
    rw [hdesc]
  unfold send
  simp only [hleft, check_true, ok_bind, s.rdX_free a ha, s.rdX_free b hb, hcheck, s.memGate_quiet hq, s.syncPoint_quiet hq, hp,
    hroom, waitUntil_true, keeping_ok]
  rfl

/-- Without a number left of the reaction's own, every send is fault 0x08 (R15). -/
theorem send_exhausted {s : State} (payload : State → Except Stop (Payload × State)) (a b : Reg) (h : s.sendsLeft = false) :
    send payload a b s = .error (.trap ⟨0x08, 0, 0⟩) := by
  unfold send
  rw [h]
  rfl

/-- Registers that are free from one on are read in order. -/
theorem State.regWords_free (s : State) (d : Reg) (n : Nat) (h : ∀ i < n, s.regFree (regPlus d i) = true) :
    s.regWords d n = .ok ((upto n).map fun i => s.cx.xr (regPlus d i)) := by
  unfold State.regWords
  have hall : ∀ i ∈ upto n, s.rdX (regPlus d i) = .ok (s.cx.xr (regPlus d i)) :=
    fun i hi => s.rdX_free _ (h i ((mem_upto n i).mp hi))
  generalize upto n = l at hall
  induction l with
  | nil => rfl
  | cons i r ih =>
    rw [List.mapM_cons, hall i List.mem_cons_self, ok_bind, ih fun j hj => hall j (List.mem_cons_of_mem _ hj)]
    rfl

theorem wordPayload_free (s : State) (d : Reg) (n : Nat) (h : ∀ i < n, s.regFree (regPlus d i) = true) :
    wordPayload d n s = .ok (.words ((upto n).map fun i => s.cx.xr (regPlus d i)), s) := by
  unfold wordPayload
  rw [s.regWords_free d n h]
  rfl

/-- A register that names no stream is read as it stands. -/
theorem State.sources_single {s : State} {d : Reg} (h : s.noStreams [d]) : s.sources [d] = .ok ([(d, s.cx.v.get d)], s) := by
  have hd : s.streamNamed d = none := h d List.mem_cons_self
  have huse : s.streamUse d false = .ok () := by
    unfold State.streamUse
    rw [hd]
  have hread : s.readVecs [] [d] = .ok ([(d, s.cx.v.get d)], s) := by
    unfold State.readVecs
    rw [hd]
    rfl
  show ((s.streamUse d false >>= fun _ => pure PUnit.unit) >>= fun _ => s.readVecs [] [d]) = _
  rw [huse]
  exact hread

theorem valOf_single (d : Reg) (v : Vec) : valOf [(d, v)] d = v := by
  unfold valOf
  simp

/-- Words of a range of which none is lost. -/
theorem State.spadSound_ok {s : State} {a n : Nat} (h : s.sound a n) (ha : a % 8 = 0) (hn : n % 8 = 0) :
    s.spadSound a n = .ok () := by
  have hany : ((wordsOf a n).any fun w => s.me.spadLost.contains w) = false := by
    rw [List.any_eq_false]
    intro w hw
    unfold wordsOf at hw
    obtain ⟨i, hi, rfl⟩ := List.mem_map.mp hw
    have hlt : i < (a % 8 + n + 7) / 8 := (mem_upto _ i).mp hi
    have hnot := h (a / 8 + i) (by omega) (by omega)
    simpa using hnot
  unfold State.spadSound
  rw [hany]
  rfl

/-- A block word that describes `len` bytes at `at_` (R289). -/
theorem blockOf_ok {w : DWord} {at_ len : Nat} (hw : w.toNat = at_ + len * 2 ^ 32) (hmin : 8 ≤ len) (hmax : len ≤ 2048)
    (hlen : len % 8 = 0) (hat : at_ % 8 = 0) (hend : at_ + len ≤ 0x40000) : blockOf w = .ok (at_, len) := by
  have hlow : fld w 17 0 = at_ := by
    unfold fld
    omega
  have hcount : fld w 43 32 = len := by
    unfold fld
    omega
  have hmid : fld w 31 18 = 0 := by
    unfold fld
    omega
  have htop : fld w 63 44 = 0 := by
    unfold fld
    omega
  unfold blockOf
  simp only [hlow, hcount, hmid, htop, hmin, hmax, hlen, hat, hend, decide_true, Bool.and_self, check_true, ok_bind]
  rfl

end Sys2Proof.Machine
end

/-! PROOFS. Sending (O35), second part: host queues, multicast stores, and the obligation. -/

section
namespace Sys2Proof.Machine

/-! ## Doublewords one after another in memory -/

theorem Memory.write_append (m : Memory) (a : Nat) (b c : List Byte) :
    m.write a (b ++ c) = (m.write a b).write (a + b.length) c := by
  induction b generalizing m a with
  | nil => rfl
  | cons x r ih =>
    rw [List.cons_append, Memory.write, ih, Memory.write, List.length_cons, Nat.add_assoc, Nat.add_comm 1]

/-- Each doubleword of a row that was written reads as it was given. -/
theorem Memory.readNat_writeWords (m : Memory) (a k : Nat) (ws : List DWord) (hw : m.wf = true) (hk : k < ws.length) :
    (m.write a (ws.map fun w => leBytes 8 w.toNat).flatten).readNat (a + 8 * k) 8 = (ws.getD k 0).toNat := by
  induction ws generalizing m a k with
  | nil => exact absurd hk (Nat.not_lt_zero _)
  | cons w r ih =>
    rw [List.map_cons, List.flatten_cons, Memory.write_append, leBytes_length]
    cases k with
    | zero =>
      rw [Memory.readNat_write_out _ _ _ _ _ (.inl (by omega))]
      refine (Memory.readNat_writeNat m a 8 w.toNat hw).trans ?_
      exact Nat.mod_eq_of_lt w.isLt
    | succ k =>
      rw [show a + 8 * (k + 1) = a + 8 + 8 * k by omega, ih _ _ _ (Memory.write_wf _ _ _ hw) (Nat.lt_of_succ_lt_succ hk)]
      rfl

theorem length_words (ws : List DWord) : ((ws.map fun w => leBytes 8 w.toNat).flatten).length = 8 * ws.length := by
  induction ws with
  | nil => rfl
  | cons w r ih => rw [List.map_cons, List.flatten_cons, List.length_append, leBytes_length, ih, List.length_cons]; omega

/-! ## Host memory (R352) -/

theorem hostPa_ge (a : Nat) : 2 ^ 50 ≤ hostPa a := Nat.le_add_right _ _

theorem hostPa_of_lt {a : Nat} (h : a < 2 ^ 50) : hostPa a = 2 ^ 50 + a := by
  unfold hostPa
  rw [Nat.mod_eq_of_lt h]

/-- Host memory has no page in a cut. -/
theorem State.cowMark_host (s : State) {pa : Nat} (n : Nat) (h : 2 ^ 50 ≤ pa) : s.cowMark pa n = s := by
  have hnone : ∀ q : Cut, q.newPages pa n = [] := by
    intro q
    unfold Cut.newPages
    rw [List.filter_eq_nil_iff]
    intro p hp
    obtain ⟨i, _, rfl⟩ := List.mem_map.mp hp
    have hhbm : inHbm ((pageOf pa + i) * 65536) = false := by
      unfold inHbm pageOf
      rw [decide_eq_false_iff_not]
      omega
    rw [hhbm]
    exact Bool.false_ne_true
  unfold State.cowMark
  split
  · cases s.cut with
    | none => rfl
    | some q => exact congrArg (List.foldl State.cowPage s) (hnone q)
  · rfl

theorem State.memWrite_host (s : State) (w : Writer) {pa : Nat} (b : List Byte) (h : 2 ^ 50 ≤ pa) :
    s.memWrite w pa b = { s with
      mem := s.mem.write pa b
      past := { pa := pa, old := s.mem.read pa b.length, src := w.src, unit := w.unit, scope := w.scope, rels := w.rels } ::
        s.past
      lost := unlose pa b.length s.lost } := by
  unfold State.memWrite
  rw [s.cowMark_host b.length h]

/-- What an entry of a host queue leaves: the ring, the shadow, the tail and the vector. -/
theorem State.hostPush_fields (s : State) (i : Fin 17) (ws : List DWord) :
    (s.hostPush i ws).mem = (s.mem.write (hostPa ((s.hostQ.get i).base.toNat + 64 * ((s.hostQ.get i).tail.toNat % (s.hostQ.get i).size)))
        ((ws.map fun w => leBytes 8 w.toNat).flatten)).write (hostPa ((s.hostQ.get i).base.toNat + 64 * (s.hostQ.get i).size))
        (leBytes 8 ((s.hostQ.get i).tail + 1).toNat) ∧
      (s.hostPush i ws).cores = s.cores ∧ (s.hostPush i ws).cur = s.cur ∧ (s.hostPush i ws).curCtx = s.curCtx ∧
      (s.hostPush i ws).hostQ = vput s.hostQ i { s.hostQ.get i with tail := (s.hostQ.get i).tail + 1 } ∧
      (s.hostPush i ws).msix = fld (s.hostQ.get i).cfg 14 4 :: s.msix := by
  unfold State.hostPush
  simp only
  rw [State.memWrite_host _ _ _ (hostPa_ge _), State.memWrite_host _ _ _ (hostPa_ge _)]
  exact ⟨rfl, rfl, rfl, rfl, rfl, rfl⟩

/-- The ring's entry, the shadow behind the ring, and every other byte (R352). -/
theorem State.hostPush_bytes (s : State) (i : Fin 17) (ws : List DWord) (size base entry shadow : Nat) (hws : ws.length = 8)
    (hsize : size = (s.hostQ.get i).size) (hpos : 0 < size) (hbase : base = (s.hostQ.get i).base.toNat)
    (hentry : entry = 2 ^ 50 + base + 64 * ((s.hostQ.get i).tail.toNat % size)) (hshadow : shadow = 2 ^ 50 + base + 64 * size)
    (hwf : s.mem.wf = true) (hfits : base + 64 * size + 8 ≤ 2 ^ 50) :
    (∀ k, k < 8 → (s.hostPush i ws).mem.readNat (entry + 8 * k) 8 = (ws.getD k 0).toNat) ∧
      (s.hostPush i ws).mem.readNat shadow 8 = ((s.hostQ.get i).tail + 1).toNat ∧
      ∀ k, k < entry ∨ entry + 64 ≤ k → k < shadow ∨ shadow + 8 ≤ k → (s.hostPush i ws).mem.get k = s.mem.get k := by
  have hmod : (s.hostQ.get i).tail.toNat % size < size := Nat.mod_lt _ hpos
  have hlen := length_words ws
  rw [hws] at hlen
  obtain ⟨hmem, -⟩ := s.hostPush_fields i ws
  rw [← hbase, ← hsize, hostPa_of_lt (by omega), hostPa_of_lt (by omega), ← Nat.add_assoc, ← Nat.add_assoc, ← hentry,
    ← hshadow] at hmem
  have hwf' := Memory.write_wf s.mem entry ((ws.map fun w => leBytes 8 w.toNat).flatten) hwf
  rw [hmem]
  refine ⟨fun k hk => ?_, ?_, fun k h1 h2 => ?_⟩
  · rw [Memory.readNat_write_out _ _ _ _ _ (.inl (by omega)), Memory.readNat_writeWords _ _ _ _ hwf (by omega)]
  · refine (Memory.readNat_writeNat _ _ 8 _ hwf').trans ?_
    exact Nat.mod_eq_of_lt (Nat.lt_trans (BitVec.isLt _) (by decide))
  · rw [Memory.get_write_out _ _ _ _ (by rw [leBytes_length]; exact h2),
      Memory.get_write_out _ _ _ _ (by rw [hlen]; exact h1)]

/-- The eight words of the message that SENDH sends (R291). -/
def State.hostMessage (s : State) (d a : Reg) : List DWord :=
  [s.originOf s.cur s.curCtx.val, s.cx.tnow.t, dw (s.cx.tnow.m.toNat + (s.cx.xr a).toNat * 2 ^ 32), 0] ++
    (upto 4).map fun i => s.cx.xr (regPlus d i)

/-- What SENDH leaves: the message in its queue, and what its sender had seen (R291). -/
def State.sentToHost (s : State) (i : Fin 17) (ws : List DWord) : State :=
  { s.hostPush i ws with hostSeen := joinSeen (s.hostPush i ws).hostSeen s.cx.seen }

theorem State.sentToHost_frame (s : State) (i : Fin 17) (ws : List DWord) :
    (s.sentToHost i ws).cx = s.cx ∧ (∀ c, (s.sentToHost i ws).core c = s.core c) ∧
      (s.sentToHost i ws).hostQ = vput s.hostQ i { s.hostQ.get i with tail := (s.hostQ.get i).tail + 1 } ∧
      (s.sentToHost i ws).msix = fld (s.hostQ.get i).cfg 14 4 :: s.msix := by
  obtain ⟨-, hcores, hcur, hctx, hqueue, hmsix⟩ := s.hostPush_fields i ws
  have hcore : ∀ c, (s.hostPush i ws).core c = s.core c := by
    intro c
    unfold State.core
    rw [hcores]
  refine ⟨?_, hcore, hqueue, hmsix⟩
  show ((s.hostPush i ws).core (s.hostPush i ws).cur).ctx (s.hostPush i ws).curCtx = s.cx
  rw [hcore, hcur, hctx]
  rfl

/-- SENDH when nothing stops it. -/
theorem exec_sendh {g : Guard} {d a : Reg} {s : State} {i : Fin 17} (hg : s.guardPasses g = true) (hq : s.quiet)
    (hu : s.unbound) (ha : s.regFree a = true) (hd : ∀ i < 4, s.regFree (regPlus d i) = true) (hres : s.restartable = false)
    (hx : (s.cx.xr a).toNat < 16) (hi : i.val = (s.cx.xr a).toNat) (hcredit : (s.hostQ.get i).credit = true) :
    exec (.sendh g d a) s = .next ((s.sentToHost i (s.hostMessage d a)).retire 4) := by
  have hfld : fld (s.cx.xr a) 63 4 = 0 := by
    unfold fld
    omega
  have hqueue : (⟨(s.cx.xr a).toNat % 16, Nat.lt_trans (Nat.mod_lt _ (by decide)) (by decide)⟩ : Fin 17) = i :=
    Fin.ext ((Nat.mod_eq_of_lt hx).trans hi.symm)
  show execSendh g d a s = _
  refine instr_ok hg ?_
  simp only [State.notInRestartable_free hres, s.rdX_free a ha, s.regWords_free d 4 hd, hfld, decide_true, check_true, ok_bind,
    s.memGate_quiet hq, s.settled_quiet hq hu, hqueue, hcredit, waitUntil_true]
  rw [Nat.mod_eq_of_lt hx]
  rfl

/-! ## Multicast stores (R188, R290) -/

/-- Words put into the engine queues of some cores: no context, no byte and nothing else of the module changes. -/
theorem State.foldl_engW (ms : List Nat) (ws : List EngWrite) (s : State) :
    ms.foldl (fun s m => s.modCore (mkCore m) fun k => { k with engW := k.engW ++ ws }) s =
        { s with cores := (ms.foldl (fun s m => s.modCore (mkCore m) fun k => { k with engW := k.engW ++ ws }) s).cores } ∧
      ∀ c, ((ms.foldl (fun s m => s.modCore (mkCore m) fun k => { k with engW := k.engW ++ ws }) s).core c).ctxs =
          (s.core c).ctxs ∧
        ((ms.foldl (fun s m => s.modCore (mkCore m) fun k => { k with engW := k.engW ++ ws }) s).core c).spad =
          (s.core c).spad := by
  induction ms generalizing s with
  | nil => exact ⟨rfl, fun _ => ⟨rfl, rfl⟩⟩
  | cons m r ih =>
    obtain ⟨heq, hcores⟩ := ih (s.modCore (mkCore m) fun k => { k with engW := k.engW ++ ws })
    refine ⟨heq, fun c => ?_⟩
    obtain ⟨hctxs, hspad⟩ := hcores c
    rw [List.foldl_cons, hctxs, hspad]
    by_cases hc : c = mkCore m
    · subst hc
      rw [State.core_modCore_self]
      exact ⟨rfl, rfl⟩
    · rw [State.core_modCore_ne _ _ _ _ hc]
      exact ⟨rfl, rfl⟩

/-- What MCAST leaves: the words with each member's pier, and the store that is under way. -/
def State.multicast (s : State) (at_ : Nat) (bytes : List Byte) (ms : List Nat) (record : Nat) : State :=
  let u := ms.foldl (fun t m => t.modCore (mkCore m) fun k => { k with engW := k.engW ++ mcastWords s.reqCtr at_ bytes }) s
  { u with reqCtr := u.reqCtr + 1, mcasts := u.mcasts ++ [{ id := s.reqCtr, members := ms, core := u.cur, record := record }] }

theorem State.multicast_frame (s : State) (at_ : Nat) (bytes : List Byte) (ms : List Nat) (record : Nat) :
    (s.multicast at_ bytes ms record).mem = s.mem ∧ (s.multicast at_ bytes ms record).cx = s.cx ∧
      s.sameBytes (s.multicast at_ bytes ms record) ∧ (s.multicast at_ bytes ms record).mcasts =
        s.mcasts ++ [{ id := s.reqCtr, members := ms, core := s.cur, record := record }] := by
  obtain ⟨heq, hcores⟩ := s.foldl_engW ms (mcastWords s.reqCtr at_ bytes)
  unfold State.multicast
  generalize ms.foldl (fun t m => t.modCore (mkCore m) fun k => { k with engW := k.engW ++ mcastWords s.reqCtr at_ bytes }) s
    = u at heq hcores
  have hmem : u.mem = s.mem := by rw [heq]
  have hcur : u.cur = s.cur := by rw [heq]
  have hctx : u.curCtx = s.curCtx := by rw [heq]
  have hmcasts : u.mcasts = s.mcasts := by rw [heq]
  refine ⟨hmem, ?_, ⟨fun a => by rw [show _ = u.mem from rfl, hmem], fun c a => ?_⟩, by rw [← hcur, ← hmcasts]⟩
  · show (u.core u.cur).ctxs.get u.curCtx = (s.core s.cur).ctxs.get s.curCtx
    rw [hcur, hctx, (hcores s.cur).1]
  · exact congrArg (fun m => Memory.get m a) (hcores c).2

/-- MCAST when nothing stops it. -/
theorem exec_mcast {g : Guard} {d a b : Reg} {s : State} {i r : Nat} {q : Group} {m : Member} {at_ len : Nat}
    (hg : s.guardPasses g = true) (hq : s.quiet) (hu : s.unbound) (ha : s.regFree a = true) (hb : s.regFree b = true)
    (hd : s.regFree d = true) (hres : s.restartable = false) (hgroup : s.groupOf (s.cx.xr a) = .ok (i, q, r, m))
    (hkind : q.kind = 5) (hblock : blockOf (s.cx.xr d) = .ok (at_, len)) (hsound : s.spadSound at_ len = .ok ())
    (hlatch : s.cx.latch = none) (halign : (s.cx.xr b).toNat % 8 = 0)
    (hrecord : (s.cx.xr b).toNat + (q.members.length + 63) / 64 * 8 ≤ 0x40000) :
    exec (.mcast g d a b) s =
      .next ((s.multicast at_ (s.me.spad.read at_ len) (q.members.map Member.core) (s.cx.xr b).toNat).retire 4) := by
  have hspad : spadCheck (s.cx.xr b) ((q.members.length + 63) / 64 * 8) 8 = .ok (s.cx.xr b).toNat := by
    unfold spadCheck
    simp only [show (s.cx.xr b).toNat + (q.members.length + 63) / 64 * 8 - 1 ≤ 0x3FFFF by omega, halign, decide_true, check_true,
      ok_bind]
    rfl
  have hlatched : s.latched (s.me.spad.read at_ len) = s.me.spad.read at_ len := by
    unfold State.latched
    rw [hlatch]
    rfl
  show execMcast g d a b s = _
  refine instr_ok hg ?_
  simp only [State.notInRestartable_free hres, s.rdX_free a ha, s.rdX_free b hb, s.rdX_free d hd, hgroup, hkind, hblock, hspad,
    hsound, hlatched, decide_true, check_true, ok_bind, s.memGate_quiet hq, s.settled_quiet hq hu, holding]
  rfl

end Sys2Proof.Machine
end

/-! PROOFS. Sending (O35), third part: the obligation. -/

section
namespace Sys2Proof.Machine

/-- A send that nothing stops has queued its event and gone on. -/
theorem instr_send {g : Guard} {payload : State → Except Stop (Payload × State)} {a b : Reg} {s : State} {p : Payload}
    (hg : s.guardPasses g = true) (hq : s.quiet) (ha : s.regFree a = true) (hb : s.regFree b = true)
    (hleft : s.sendsLeft = true) (hdesc : s.descFault (s.cx.xr a) = none) (hp : payload s = .ok (p, s))
    (hroom : s.me.sendRoom p = true) :
    ∃ t e, instr g (send payload a b) s = .next t ∧ t.cx.pc = s.cx.pc + 4 ∧ s.sameBytes t ∧
      t.me.sendQ = s.me.sendQ ++ [e] ∧ e.ctx = s.curCtx ∧ e.ev.dest = s.cx.xr a ∧ e.ev.tag = sendTag s.cx.tnow (s.cx.xr b) ∧
      e.ev.payload = p ∧
      ((∀ r, s.cx.run = some r → r.seqBase = none) → e.ev.seq = s.me.seq ∧ t.me.seq = s.me.seq + 1) ∧
      (∀ r n, s.cx.run = some r → r.seqBase = some n → e.ev.seq = n + BitVec.ofNat 32 r.sends ∧ t.me.seq = s.me.seq ∧
        t.cx.run = some { r with sends := r.sends + 1 }) ∧
      e.ev.restartable = s.restartable ∧ t.cx.x = s.cx.x := by
  obtain ⟨e, he⟩ := s.queueEvent_retire (s.cx.xr a) (sendTag s.cx.tnow (s.cx.xr b)) p _ rfl
  exact ⟨_, e, instr_ok hg (send_ok hq ha hb hleft hdesc hp hroom), he⟩

/-- A send without a number left of the reaction's own is a precise trap, and the send queue stays (R15). -/
theorem instr_send_exhausted {g : Guard} (payload : State → Except Stop (Payload × State)) (a b : Reg) {s : State}
    (hg : s.guardPasses g = true) (hleft : s.sendsLeft = false) (hfree : s.trapFree) :
    ∃ t, instr g (send payload a b) s = .next t ∧ s.trapsTo t 0x08 0 0 ∧ t.me.sendQ = s.me.sendQ :=
  ⟨_, instr_stop hg (send_exhausted payload a b hleft), State.trapHere_trapsTo hfree _⟩

/-- The send queue has room for an event without a block. -/
theorem Core.sendRoom_noBlock {k : Core} {p : Payload} (h : k.sendQ.length < 32) (hp : p.isBlock = false) :
    k.sendRoom p = true := by
  unfold Core.sendRoom
  simp [h, hp]

theorem Core.sendRoom_block {k : Core} {b : List Byte} (h : k.sendQ.length < 32) (hb : k.blockBytes + b.length ≤ 16384) :
    k.sendRoom (.block b) = true := by
  unfold Core.sendRoom
  simp [h, Payload.bytes, hb]

theorem Memory.read_length (m : Memory) (a n : Nat) : (m.read a n).length = n := by
  induction n generalizing a with
  | zero => rfl
  | succ n ih => rw [Memory.read, List.length_cons, ih]

/-- Settles O35: SEND and its kin by what `send` queues, SENDH by what `hostPush` writes, MCAST by what `multicast` leaves. -/
theorem sendResults : Obligations.SendResults := by
  intro g d a b s hg hq hu hready dest delta now tag sends w blk at_ len block
  have ha : s.regFree a = true := hready a (by simp)
  have hb : s.regFree b = true := hready b (by simp)
  have hd : s.regFree d = true := hready d (by simp)
  have hw : ∀ i < 4, s.regFree (regPlus d i) = true := by
    intro i hi
    refine hready _ ?_
    interval_cases i <;> simp
  refine ⟨fun hleft hfree i hi => ?_, fun hdesc hleft hroom => ?_, ?_,
    fun i q r m hres hgroup hkind hblock hlatch hsound halign hne hrecord => ?_⟩
  · simp only [List.mem_cons, List.not_mem_nil, or_false] at hi
    obtain rfl | rfl | rfl | rfl | rfl := hi <;> exact instr_send_exhausted _ a b hg hleft hfree
  · have htag : sendTag s.cx.tnow (s.cx.xr b) = tag := sendTag_eq _ _
    have hsend : ∀ (i : Instr) (payload : State → Except Stop (Payload × State)) (p : Payload),
        exec i s = instr g (send payload a b) s → payload s = .ok (p, s) → s.me.sendRoom p = true → sends i p := by
      intro i payload p hexec hp hroom'
      obtain ⟨t, e, ht, hpc, hbytes, hqueue, hctx, hdest, hevtag, hrest⟩ := instr_send hg hq ha hb hleft hdesc hp hroom'
      exact ⟨t, e, hexec.trans ht, hpc, hbytes, hqueue, hctx, hdest, hevtag.trans htag, hrest⟩
    have hwords : ∀ n, n ≤ 4 → wordPayload d n s = .ok (.words ((upto n).map fun i => s.cx.xr (regPlus d i)), s) :=
      fun n hn => wordPayload_free s d n fun i hi => hw i (by omega)
    refine ⟨hsend _ _ _ rfl (hwords 1 (by decide)) (Core.sendRoom_noBlock hroom rfl),
      hsend _ _ _ rfl (hwords 2 (by decide)) (Core.sendRoom_noBlock hroom rfl),
      hsend _ _ _ rfl (hwords 4 (by decide)) (Core.sendRoom_noBlock hroom rfl), fun hstream => ?_,
      fun hblock hlatch hsound hbytes => ?_⟩
    · refine hsend _ _ _ rfl ?_ (Core.sendRoom_noBlock hroom rfl)
      rw [State.sources_single hstream, ok_bind]
      exact congrArg (fun v => Except.ok (Payload.vector v, s)) (valOf_single d _)
    · obtain ⟨hblk, hmin, hmax, hlen, hat, hend⟩ := hblock
      refine hsend _ _ _ rfl ?_ (Core.sendRoom_block hroom (by rw [Memory.read_length]; exact hbytes))
      have hof : blockOf (s.cx.xr d) = .ok (at_, len) := blockOf_ok hblk hmin hmax hlen hat hend
      simp only [s.rdX_free d hd, ok_bind, hof, State.spadSound_ok hsound hat hlen]
      unfold State.latched
      rw [hlatch]
      rfl
  · intro hres hx i hcredit
    have hexec := exec_sendh (d := d) (a := a) (i := i) hg hq hu ha hw hres hx rfl hcredit
    have hi : (s.hostQ.get i).cfg.toNat / 16 % 2 ^ 11 = fld (s.hostQ.get i).cfg 14 4 := rfl
    have hsize : 2 ^ ((s.hostQ.get i).cfg.toNat % 16 + 4) = (s.hostQ.get i).size := by
      unfold HostQ.size fld
      simp
    obtain ⟨hcx, hcore, hqueue, hmsix⟩ := s.sentToHost_frame i (s.hostMessage d a)
    refine ⟨_, hexec, ?_, ?_, ?_, hmsix.trans (by rw [hi]), fun c k => ?_, fun hwf hfits => ?_⟩
    · rw [State.cx_retire, hcx]
      rfl
    · rw [State.cx_retire, hcx]
    · show ((s.sentToHost i (s.hostMessage d a)).hostQ.get i).tail = _
      rw [hqueue, vget_vput_self]
    · rw [(State.retire_sameBytes _ _).2 c k, hcore]
    · exact s.hostPush_bytes i (s.hostMessage d a) _ _ _ _ rfl hsize (Nat.two_pow_pos _) rfl rfl rfl hwf hfits
  · obtain ⟨hblk, hmin, hmax, hlen, hat, hend⟩ := hblock
    obtain ⟨-, hcx, hbytes, hmcasts⟩ := s.multicast_frame at_ (s.me.spad.read at_ len) (q.members.map Member.core)
      (s.cx.xr b).toNat
    refine ⟨_, exec_mcast hg hq hu ha hb hd hres hgroup hkind (blockOf_ok hblk hmin hmax hlen hat hend)
      (State.spadSound_ok hsound hat hlen) hlatch halign hrecord, ?_, ?_,
      State.sameBytes_trans hbytes (State.retire_sameBytes _ _), hmcasts⟩
    · rw [State.cx_retire, hcx]
      rfl
    · rw [State.cx_retire, hcx]

end Sys2Proof.Machine
end

/-! PROOFS. Reactions (O43), first part: what a helper's entry leaves. -/

section
namespace Sys2Proof.Machine

/-! ## What bookkeeping leaves of a core -/

theorem State.begin_core (s : State) (l : Nat) (c : CoreId) : (s.begin l).core c = s.core c := by
  unfold State.begin
  cases s.launches.find l with
  | none => rfl
  | some r => exact (apply_ite (fun u : State => u.core c) _ _ _).trans (ite_self _)

theorem Core.loadLate_eq (k : Core) (evs : List InEv) : k.loadLate evs = { k with late := (k.loadLate evs).late } := by
  unfold Core.loadLate
  cases evs.find? fun e => e.late.isSome with
  | none => rfl
  | some e => rfl

theorem Core.loadLate_frame (k : Core) (evs : List InEv) :
    (k.loadLate evs).ctxs = k.ctxs ∧ (k.loadLate evs).last = k.last ∧ (k.loadLate evs).inbox = k.inbox := by
  rw [Core.loadLate_eq]
  exact ⟨rfl, rfl, rfl⟩

theorem Core.dropBlock_eq (k : Core) (b : Option Nat) : k.dropBlock b = { k with blkUsed := (k.dropBlock b).blkUsed } := by
  unfold Core.dropBlock
  cases b with
  | none => rfl
  | some i => rfl

theorem Core.setFulls_eq (k : Core) (a : Nat) (b : Bool) (n : Nat) :
    k.setFulls a b n = { k with full := (k.setFulls a b n).full } := by
  induction n generalizing k a with
  | zero => rfl
  | succ n ih =>
    unfold Core.setFulls
    rw [ih (k.setFull a b) (a + 8)]
    rfl

/-- A delivery changes bytes and full/empty bits, with what is noted of them. -/
theorem Core.deliver_eq (k : Core) (a : Nat) (b : List Byte) (m : KMap Nat) :
    k.deliver a b m = { k with
      spad := (k.deliver a b m).spad, spadRel := (k.deliver a b m).spadRel, spadLost := (k.deliver a b m).spadLost,
      feSeen := (k.deliver a b m).feSeen, full := (k.deliver a b m).full } := by
  unfold Core.deliver
  simp only
  rw [Core.setFulls_eq]
  rfl

theorem Core.writeJoin_eq (k : Core) (a free : Nat) (evs : List InEv) :
    k.writeJoin a free evs = { k with
      spad := (k.writeJoin a free evs).spad, spadRel := (k.writeJoin a free evs).spadRel,
      spadLost := (k.writeJoin a free evs).spadLost, feSeen := (k.writeJoin a free evs).feSeen,
      full := (k.writeJoin a free evs).full } := by
  induction evs generalizing k a free with
  | nil => rfl
  | cons e r ih =>
    unfold Core.writeJoin
    simp only
    rw [ih, Core.deliver_eq]

theorem Core.dropBlocks_eq (k : Core) (evs : List InEv) :
    evs.foldl (fun k f => k.dropBlock f.block) k =
      { k with blkUsed := (evs.foldl (fun (k : Core) f => k.dropBlock f.block) k).blkUsed } := by
  induction evs generalizing k with
  | nil => rfl
  | cons e r ih =>
    rw [List.foldl_cons, ih, Core.dropBlock_eq]

/-- The join buffer is written and the block slots of its events free: no context, LAST and the inbox stay. -/
theorem Core.joined_frame (k : Core) (a free : Nat) (evs out : List InEv) :
    (out.foldl (fun k f => k.dropBlock f.block) (k.writeJoin a free evs)).ctxs = k.ctxs ∧
      (out.foldl (fun k f => k.dropBlock f.block) (k.writeJoin a free evs)).last = k.last ∧
      (out.foldl (fun k f => k.dropBlock f.block) (k.writeJoin a free evs)).inbox = k.inbox := by
  rw [Core.dropBlocks_eq, Core.writeJoin_eq]
  exact ⟨rfl, rfl, rfl⟩

/-! ## Entry (R28) -/

/-- Of core `q`, context `h` has entered a reaction of slot record `t` at event `e`, as one of `m` events and with `x7`; what else
has changed of core `k` is no context, and LAST is the tag. -/
def Core.EnteredAs (k q : Core) (h : CtxId) (t : Slot) (e : InEv) (m : Nat) (x7 : DWord) (r : Run) : Prop :=
  ∃ (k2 : Core) (x6 : DWord) (free : Nat) (seen : KMap Nat), k2.ctxs = k.ctxs ∧ k2.last = e.ev.tag ∧
    q = (k2.setCtx h { (k.ctx h).enter k h t e x6 x7 r m free with seen := seen }).perf 0x10 1

section
variable {k q : Core} {h : CtxId} {t : Slot} {e : InEv} {m : Nat} {x7 : DWord} {r : Run}

theorem Core.EnteredAs.intro {k2 : Core} {x6 : DWord} {free : Nat} {seen : KMap Nat} (hctxs : k2.ctxs = k.ctxs)
    (hlast : k2.last = e.ev.tag) : k.EnteredAs ((k2.modCtx h fun x =>
      { x.enter k h t e x6 x7 r m free with seen := joinSeen x.seen seen }).perf 0x10 1) h t e m x7 r := by
  have hctx : k2.ctx h = k.ctx h := congrArg (fun v => Vector.get v h) hctxs
  refine ⟨k2, x6, free, joinSeen (k.ctx h).seen seen, hctxs, hlast, ?_⟩
  rw [← hctx]
  rfl

theorem Core.EnteredAs.ctx_self (H : k.EnteredAs q h t e m x7 r) : ∃ (x6 : DWord) (free : Nat) (seen : KMap Nat),
    q.ctx h = { (k.ctx h).enter k h t e x6 x7 r m free with seen := seen } := by
  obtain ⟨k2, x6, free, seen, -, -, rfl⟩ := H
  exact ⟨x6, free, seen, Core.ctx_setCtx_self _ _ _⟩

theorem Core.EnteredAs.ctx_ne (H : k.EnteredAs q h t e m x7 r) {g : CtxId} (hg : g ≠ h) : q.ctx g = k.ctx g := by
  obtain ⟨k2, x6, free, seen, hctxs, -, rfl⟩ := H
  rw [Core.ctx_perf, Core.ctx_setCtx_ne _ _ _ _ hg]
  exact congrArg (fun v => Vector.get v g) hctxs

theorem Core.EnteredAs.last_eq (H : k.EnteredAs q h t e m x7 r) : q.last = e.ev.tag := by
  obtain ⟨k2, x6, free, seen, -, hlast, rfl⟩ := H
  exact hlast

theorem Core.EnteredAs.run_eq (H : k.EnteredAs q h t e m x7 r) : (q.ctx h).run = some r := by
  obtain ⟨x6, free, seen, hx⟩ := H.ctx_self
  rw [hx]
  rfl

/-- The registers of R28 at entry. -/
theorem Core.EnteredAs.regs (H : k.EnteredAs q h t e m x7 r) :
    (q.ctx h).x.get 5 = e.ev.origin ∧ (q.ctx h).x.get 28 = k.lx28 ∧ (q.ctx h).x.get 29 = k.lx29 ∧
      (q.ctx h).x.get 31 = dw (k.lstk.toNat + 2048 * h.val) ∧ (q.ctx h).x.get 7 = x7 ∧
      (q.ctx h).x.get 1 = payloadWord e.ev.payload 0 ∧ (q.ctx h).x.get 2 = payloadWord e.ev.payload 1 ∧
      (q.ctx h).x.get 3 = payloadWord e.ev.payload 2 ∧ (q.ctx h).x.get 4 = payloadWord e.ev.payload 3 := by
  obtain ⟨x6, free, seen, hx⟩ := H.ctx_self
  rw [hx]
  unfold Ctx.enter
  simp only [vget_ofFn]
  exact ⟨rfl, rfl, rfl, rfl, rfl, rfl, rfl, rfl, rfl⟩

theorem Core.EnteredAs.state (H : k.EnteredAs q h t e m x7 r) :
    (q.ctx h).live = true ∧ (q.ctx h).stop = .no ∧ (q.ctx h).pc = t.code ∧ (q.ctx h).tnow = e.ev.tag ∧
      (q.ctx h).beatLeft = k.beatIv ∧ (q.ctx h).slot = BitVec.ofNat 6 r.slot.val ∧ (q.ctx h).joinN = BitVec.ofNat 5 m ∧
      ∀ i, ((q.ctx h).b.get i).v = false := by
  obtain ⟨x6, free, seen, hx⟩ := H.ctx_self
  rw [hx]
  refine ⟨rfl, rfl, rfl, rfl, rfl, rfl, rfl, fun i => ?_⟩
  unfold Ctx.enter Ctx.clearB
  simp only [vget_ofFn]
  rfl

end

/-! ## A reaction starts (R28, R31) -/

/-- The event that enters, with its payload as it stands, has the tag, the origin and the words of the event that arrived. -/
theorem Core.current_ev (k : Core) (e : InEv) : (k.current e).ev.tag = e.ev.tag ∧ (k.current e).ev.origin = e.ev.origin ∧
    ∀ ws, e.ev.payload = .words ws → (k.current e).ev.payload = .words ws := by
  unfold Core.current
  split
  · next hp => exact ⟨rfl, rfl, fun ws hws => by rw [hws] at hp; exact absurd hp (by simp)⟩
  · exact ⟨rfl, rfl, fun ws hws => hws⟩

/-- What the start of a reaction leaves of its core. -/
theorem State.startReaction_spec (s : State) (c : CoreId) (h : CtxId) (n : Fin 64) (e : InEv) (l : List InEv) :
    ∃ x7 r, (s.core c).EnteredAs ((s.startReaction c h n (e :: l)).core c) h ((s.core c).slots.get n) ((s.core c).current e)
        (l.length + 1) x7 r ∧
      ((s.startReaction c h n (e :: l)).core c).inbox = (s.core c).inbox.filter (fun f => !(e :: l).contains f) ∧
      r.slot = n ∧ r.lcnt = ((s.core c).slots.get n).lcnt ∧ r.pool = false ∧
      (1 < ((s.core c).slots.get n).k → x7 = ((s.core c).slots.get n).jbuf.setWidth 64) := by
  unfold State.startReaction
  simp only [List.map_cons]
  rw [State.begin_core, State.core_setCore_self]
  by_cases hjoin : 1 < ((s.core c).slots.get n).k
  · simp only [hjoin, decide_true, if_true]
    refine ⟨_, _, Core.EnteredAs.intro ((Core.joined_frame _ _ _ _ _).1.trans (Core.loadLate_frame _ _).1)
      ((Core.joined_frame _ _ _ _ _).2.1.trans (Core.loadLate_frame _ _).2.1), ?_⟩
    exact ⟨(Core.joined_frame _ _ _ _ _).2.2.trans (Core.loadLate_frame _ _).2.2, rfl, rfl, rfl, fun _ => rfl⟩
  · simp only [hjoin, decide_false]
    refine ⟨_, _, Core.EnteredAs.intro (Core.loadLate_frame _ _).1 (Core.loadLate_frame _ _).2.1, ?_⟩
    exact ⟨(Core.loadLate_frame _ _).2.2, rfl, rfl, rfl, fun hk => absurd hk id⟩

/-- What the start of a pooled unit leaves of its core (R41). -/
theorem State.startUnit_spec (s : State) (c : CoreId) (h : CtxId) (n : Fin 64) (e : InEv) (ix : Nat)
    (again : Option (Word × CtxId)) :
    ∃ r, (s.core c).EnteredAs ((s.startUnit c h n e ix again).core c) h ((s.core c).slots.get n)
        { e with rerun := again.isSome } 1 (dw ix) r ∧
      r.slot = n ∧ r.lcnt = ((s.core c).slots.get n).lcnt ∧ r.pool = true ∧ r.replay = again.isSome ∧
      r.asCtx = (again.getD ((s.core c).seq, h)).2 := by
  unfold State.startUnit
  simp only
  rw [State.begin_core, State.core_setCore_self]
  refine ⟨_, Core.EnteredAs.intro (Core.loadLate_frame _ _).1 (Core.loadLate_frame _ _).2.1, ?_⟩
  exact ⟨rfl, rfl, rfl, rfl, rfl⟩

end Sys2Proof.Machine
end

/-! PROOFS. Reactions (O43), second part: the selector's happenings, discards and slot changes. -/

section
namespace Sys2Proof.Machine

theorem happen_some (s : State) {r : Option State} {t : State} (h : r = some t) : happen s r = .next t := by
  rw [h]
  rfl

/-! ## The selector (R27, R31, R41) -/

section
variable {s : State} {c : CoreId} {j : Nat} {e : InEv} {n : Fin 64} {h : CtxId}

theorem State.ready?_of_selects (hsel : s.selects c = some (j, e, n, h)) : s.ready? c = some (j, e, n, h) := by
  unfold State.selects at hsel
  split at hsel
  · exact absurd hsel (by simp)
  · exact hsel

theorem State.tryStart_single (hsel : s.selects c = some (j, e, n, h)) (hpool : e.pool = none)
    (hk : ((s.core c).slots.get n).k ≤ 1) : s.tryStart c = some (s.startReaction c h n [e]) := by
  unfold State.tryStart
  simp only [hsel, hpool, Option.isSome_none, hk, if_true]
  rfl

theorem State.tryStart_join (hsel : s.selects c = some (j, e, n, h)) (hpool : e.pool = none)
    (hk : 1 < ((s.core c).slots.get n).k) (hall : ((s.core c).slots.get n).k ≤ ((s.core c).group n e).length) :
    s.tryStart c = some (s.startReaction c h n (((s.core c).group n e).take ((s.core c).slots.get n).k)) := by
  unfold State.tryStart
  simp only [hsel, hpool, Option.isSome_none, Nat.not_le.mpr hk, if_false, hall, if_true]
  rfl

theorem State.tryGrace_join (hsel : s.selects c = some (j, e, n, h)) (hpool : e.pool = none)
    (hk : 1 < ((s.core c).slots.get n).k) (hpart : ((s.core c).group n e).length < ((s.core c).slots.get n).k)
    (hgrace : e.ev.tag.t.toNat + (s.core c).horizon + ((s.core c).slots.get n).g.toNat ≤ s.clock c) :
    s.tryGrace c = some (s.startReaction c h n ((s.core c).group n e)) := by
  unfold State.tryGrace
  simp only [hsel, hpool, Option.isNone_none, hk, hpart, hgrace, decide_true, Bool.and_self, if_true]

theorem State.pull_core {l : Nat} {o : Option Nat} {w : State} (hpull : s.pull c l = (o, w)) (d : CoreId) :
    w.core d = s.core d := by
  unfold State.pull at hpull
  cases hfind : s.launches.find l with
  | none =>
    simp only [hfind] at hpull
    rw [← (Prod.mk.inj hpull).2]
  | some r =>
    simp only [hfind] at hpull
    cases hfrom : pullFrom (dieOf c.val) r.ranges 4 with
    | none =>
      simp only [hfrom] at hpull
      rw [← (Prod.mk.inj hpull).2]
    | some p =>
      simp only [hfrom] at hpull
      rw [← (Prod.mk.inj hpull).2]
      rfl

theorem State.tryUnit_pull {l ix : Nat} {w : State} (hsel : s.selects c = some (j, e, n, h)) (hpool : e.pool = some l)
    (hdet : s.isDet l = false) (hunits : e.units = []) (hspent : e.spent = false) (hpull : s.pull c l = (some ix, w)) :
    s.tryUnit c = some (w.startUnit c h n e ix none) := by
  unfold State.tryUnit State.pullUnit
  simp only [hsel, hpool, hdet, State.ready?_of_selects hsel, hunits, hspent, hpull]
  rfl

theorem State.tryUnit_again {l ix : Nat} {b : Word × CtxId} {rest : List (Nat × Word × CtxId)}
    (hsel : s.selects c = some (j, e, n, h)) (hpool : e.pool = some l) (hdet : s.isDet l = false)
    (hunits : e.units = (ix, b) :: rest) : s.tryUnit c =
      some ((s.modCore c fun k => { k with inbox := listPut k.inbox j { e with units := rest } }).startUnit c h n e ix
        (some b)) := by
  unfold State.tryUnit State.pullUnit
  simp only [hsel, hpool, hdet, State.ready?_of_selects hsel, hunits]
  rfl

end

/-- An event that starts alone is in the inbox no more. -/
theorem not_mem_filter_self (e : InEv) (l : List InEv) : e ∉ l.filter fun f => !([e] : List InEv).contains f := by
  intro hmem
  have hnot := (List.mem_filter.mp hmem).2
  simp at hnot

/-! ## Discards (R37, R45) -/

theorem State.emit_cores (s : State) (dst : BitVec 20) (enc : Bool) (req : Option (CoreId × CtxId × Nat)) (body : PBody)
    (seen : KMap Nat) (eng : Option Nat) : (s.emit dst enc req body seen eng).cores = s.cores := rfl

theorem State.foldl_cores {α : Type} (l : List α) (f : State → α → State) (hf : ∀ t a, (f t a).cores = t.cores) (s : State) :
    (l.foldl f s).cores = s.cores := by
  induction l generalizing s with
  | nil => rfl
  | cons a r ih => rw [List.foldl_cons, ih, hf]

/-- An event that leaves changes no core. -/
theorem State.launchEvent_cores (s : State) (c : CoreId) (e : Ev) (seen : KMap Nat) :
    (s.launchEvent c e seen).cores = s.cores := by
  unfold State.launchEvent
  split
  · rfl
  · split
    · rfl
    · unfold State.emitEvent
      exact (State.emit_cores _ _ _ _ _ _ _).trans (State.foldl_cores _ _ (fun _ _ => State.emit_cores _ _ _ _ _ _ _) s)

theorem State.core_congr {s t : State} (h : s.cores = t.cores) (c : CoreId) : s.core c = t.core c := by
  unfold State.core
  rw [h]

theorem State.makeEvent_state (s : State) (c : CoreId) (dest : DWord) (tag : Tag) (p : Payload) (ctl : Bool) :
    (s.makeEvent c dest tag p ctl).2 = s.modCore c fun k => { k with seq := k.seq + 1 } := rfl

/-- A bounce takes a sequence number and changes nothing else of its core. -/
theorem State.bounce_core (s : State) (c : CoreId) (e : Ev) (orig : Option Ev) :
    (s.bounce c e orig).core c = { s.core c with seq := (s.core c).seq + 1 } := by
  unfold State.bounce
  simp only
  rw [State.core_congr (State.launchEvent_cores _ _ _ _) c, State.makeEvent_state, State.core_modCore_self]

/-- A record without a context reaches a core: its inbox and its count of stale events stay. -/
theorem State.trapNoCtx_frame (s : State) (c : CoreId) (cause : Byte) (faddr finfo : DWord) :
    ((s.trapNoCtx c cause faddr finfo).core c).inbox = (s.core c).inbox ∧
      ((s.trapNoCtx c cause faddr finfo).core c).staleCnt = (s.core c).staleCnt := by
  unfold State.trapNoCtx State.raise
  rw [if_neg (show ¬(15 : Nat) = 13 by decide), State.core_modCore_self]
  unfold Core.takeRec
  split
  · exact ⟨rfl, rfl⟩
  · split <;> exact ⟨rfl, rfl⟩

/-- A stale event is counted; the inbox stays (R37). -/
theorem State.discardStale_frame (s : State) (c : CoreId) (e : Ev) (orig : Option Ev) :
    ((s.discardStale c e orig).core c).inbox = (s.core c).inbox ∧
      ((s.discardStale c e orig).core c).staleCnt = satInc (s.core c).staleCnt := by
  have hcount : ∀ u : State, (u.core c).inbox = (s.core c).inbox ∧ (u.core c).staleCnt = satInc (s.core c).staleCnt →
      ((u.bounce c e orig).core c).inbox = (s.core c).inbox ∧ ((u.bounce c e orig).core c).staleCnt = satInc (s.core c).staleCnt := by
    intro u hu
    rw [State.bounce_core]
    exact hu
  have hself : ((s.modCore c fun k => { k with staleCnt := satInc k.staleCnt }.perf 0x14 1).core c).inbox = (s.core c).inbox ∧
      ((s.modCore c fun k => { k with staleCnt := satInc k.staleCnt }.perf 0x14 1).core c).staleCnt =
        satInc (s.core c).staleCnt := by
    rw [State.core_modCore_self]
    exact ⟨rfl, rfl⟩
  unfold State.discardStale
  simp only
  generalize (s.modCore c fun k => { k with staleCnt := satInc k.staleCnt }.perf 0x14 1) = u at hself
  have hbounced : ((if (descNotify e.dest && !e.anyGen) = true then u.bounce c e orig else u).core c).inbox = (s.core c).inbox ∧
      ((if (descNotify e.dest && !e.anyGen) = true then u.bounce c e orig else u).core c).staleCnt =
        satInc (s.core c).staleCnt := by
    split
    · exact hcount u hself
    · exact hself
  split
  · obtain ⟨hinbox, hstale⟩ := State.trapNoCtx_frame (if (descNotify e.dest && !e.anyGen) = true then u.bounce c e orig else u) c
      0x14 e.tag.t (dw (descSlot e.dest).val)
    exact ⟨hinbox.trans hbounced.1, hstale.trans hbounced.2⟩
  · exact hbounced

theorem Core.unlog_eq (k : Core) (evs : List (Ev × RouteClass)) : k.unlog evs = { k with ring := (k.unlog evs).ring } := by
  unfold Core.unlog
  split <;> rfl

/-- An entry leaves the inbox, with its block slot and its record. -/
theorem Core.discard_frame (k : Core) (j : Nat) (b : Option Nat) (evs : List (Ev × RouteClass)) :
    (((k.removeIn j).dropBlock b).unlog evs).inbox = listDrop k.inbox j ∧
      (((k.removeIn j).dropBlock b).unlog evs).staleCnt = k.staleCnt := by
  rw [Core.unlog_eq, Core.dropBlock_eq]
  exact ⟨rfl, rfl⟩

theorem exec_headStaleDiscard {s : State} {c : CoreId} {j : Nat} {e : InEv} (hhead : (s.core c).head = some (j, e))
    (hgen : (s.core c).genOk e.ev = false) : ∃ t, exec (.headStaleDiscard c) s = .next t ∧
      (t.core c).inbox = listDrop (s.core c).inbox j ∧ (t.core c).staleCnt = satInc (s.core c).staleCnt := by
  have htry : s.tryStale c = some ((s.modCore c fun k => ((k.removeIn j).dropBlock e.block).unlog [(e.ev, e.cls)]).discardStale c
      e.ev e.orig) := by
    unfold State.tryStale
    simp only [hhead, hgen]
    rfl
  obtain ⟨hinbox, hstale⟩ := (s.modCore c fun k => ((k.removeIn j).dropBlock e.block).unlog [(e.ev, e.cls)]).discardStale_frame c
    e.ev e.orig
  rw [State.core_modCore_self] at hinbox hstale
  obtain ⟨hdrop, hcount⟩ := (s.core c).discard_frame j e.block [(e.ev, e.cls)]
  exact ⟨_, happen_some s htry, hinbox.trans hdrop, hstale.trans (congrArg satInc hcount)⟩

theorem exec_cancelledEventDiscard {s : State} {c : CoreId} {j : Nat} {e : InEv} (hhead : (s.core c).head = some (j, e))
    (hgen : (s.core c).genOk e.ev = true)
    (hcanc : s.slotCancelled ((s.core c).slots.get (descSlot e.ev.dest)) = true) (hpool : e.pool = none) :
    ∃ t, exec (.cancelledEventDiscard c) s = .next t ∧ (t.core c).inbox = listDrop (s.core c).inbox j := by
  have htry : s.tryCancelled c =
      some (s.modCore c fun k => ((k.removeIn j).dropBlock e.block).unlog [(e.ev, e.cls)]) := by
    unfold State.tryCancelled
    simp only [hhead, hgen, hcanc, hpool]
    rfl
  refine ⟨_, happen_some s htry, ?_⟩
  rw [State.core_modCore_self]
  exact ((s.core c).discard_frame j e.block [(e.ev, e.cls)]).1

/-! ## Slot changes (R25) -/

theorem Core.relog_slots (k : Core) : k.relog.slots = k.slots := by
  unfold Core.relog
  split <;> rfl

theorem Slot.advance_single {t : Slot} {ch : SlotChange} (n : Fin 64) (hpend : t.pending = some ch) (hwait : t.waiting = []) :
    t.advance n = { t.change n ch with pending := none } := by
  unfold Slot.advance
  rw [hpend, hwait]

/-- The pending change of a slot takes effect, with none behind it. -/
theorem exec_slotChangeEffect {s : State} {c : CoreId} {n : Fin 64} {ch : SlotChange} (hrun : (s.core c).runsSlot n = false)
    (hwait : ((s.core c).slots.get n).waiting = []) (hpend : ((s.core c).slots.get n).pending = some ch) :
    ∃ t, exec (.slotChangeEffect c n) s = .next t ∧
      (t.core c).slots.get n = { ((s.core c).slots.get n).change n ch with pending := none } := by
  have htry : s.trySlot c n =
      some (s.modCore c fun k => { k with slots := vmod k.slots n fun t => t.advance n }.relog) := by
    unfold State.trySlot
    simp only [hpend, hrun]
    rfl
  refine ⟨_, happen_some s htry, ?_⟩
  rw [State.core_modCore_self, Core.relog_slots]
  exact (vget_vput_self _ _ _).trans (Slot.advance_single n hpend hwait)

end Sys2Proof.Machine
end

/-! PROOFS. Reactions (O43), third part: the close of a round (R110), and the obligation. -/

section
namespace Sys2Proof.Machine

/-! ## States that differ in counts of retired instructions only -/

/-- A context that is another but for its count of retired instructions, which stays or is back at zero. -/
def Ctx.Rested (x y : Ctx) : Prop := ∃ n, y = { x with retired := n } ∧ (n = x.retired ∨ n = 0)

theorem Ctx.Rested.refl (x : Ctx) : x.Rested x := ⟨x.retired, rfl, .inl rfl⟩

theorem Ctx.Rested.trans {x y z : Ctx} (hxy : x.Rested y) (hyz : y.Rested z) : x.Rested z := by
  obtain ⟨n, rfl, hn⟩ := hxy
  obtain ⟨m, rfl, hm⟩ := hyz
  refine ⟨m, rfl, ?_⟩
  obtain rfl | rfl := hm
  · exact hn
  · exact .inr rfl

/-- A state that is another but for such counts. -/
def State.Rested (s t : State) : Prop := t = { s with cores := t.cores } ∧
  ∀ c, t.core c = { s.core c with ctxs := (t.core c).ctxs } ∧ ∀ h, ((s.core c).ctx h).Rested ((t.core c).ctx h)

theorem State.Rested.refl (s : State) : s.Rested s := ⟨rfl, fun _ => ⟨rfl, fun _ => .refl _⟩⟩

theorem State.Rested.trans {s t u : State} (hst : s.Rested t) (htu : t.Rested u) : s.Rested u := by
  obtain ⟨hs, hcs⟩ := hst
  obtain ⟨ht, hct⟩ := htu
  refine ⟨ht.trans (congrArg (fun v : State => { v with cores := u.cores }) hs), fun c => ⟨?_, fun h => ?_⟩⟩
  · exact (hct c).1.trans (congrArg (fun k : Core => { k with ctxs := (u.core c).ctxs }) (hcs c).1)
  · exact ((hcs c).2 h).trans ((hct c).2 h)

section
variable {s t : State}

theorem State.Rested.live (H : s.Rested t) (c : CoreId) (h : CtxId) : ((t.core c).ctx h).live = ((s.core c).ctx h).live := by
  obtain ⟨n, hx, -⟩ := (H.2 c).2 h
  rw [hx]

theorem State.Rested.stop (H : s.Rested t) (c : CoreId) (h : CtxId) : ((t.core c).ctx h).stop = ((s.core c).ctx h).stop := by
  obtain ⟨n, hx, -⟩ := (H.2 c).2 h
  rw [hx]

theorem State.Rested.run (H : s.Rested t) (c : CoreId) (h : CtxId) : ((t.core c).ctx h).run = ((s.core c).ctx h).run := by
  obtain ⟨n, hx, -⟩ := (H.2 c).2 h
  rw [hx]

theorem State.Rested.orderedReq (H : s.Rested t) (c : CoreId) (h : CtxId) :
    ((t.core c).ctx h).orderedReq = ((s.core c).ctx h).orderedReq := by
  obtain ⟨n, hx, -⟩ := (H.2 c).2 h
  rw [hx]
  rfl

/-- What of a core is not in its contexts stays. -/
theorem State.Rested.core_field (H : s.Rested t) (c : CoreId) {α : Type} (f : Core → α)
    (hf : ∀ (k : Core) v, f { k with ctxs := v } = f k) : f (t.core c) = f (s.core c) :=
  (congrArg f (H.2 c).1).trans (hf _ _)

/-- What of the module is not in its cores stays. -/
theorem State.Rested.field (H : s.Rested t) {α : Type} (f : State → α) (hf : ∀ (u : State) v, f { u with cores := v } = f u) :
    f t = f s :=
  (congrArg f H.1).trans (hf _ _)

theorem State.Rested.retired_zero (H : s.Rested t) {c : CoreId} {h : CtxId} (hz : ((s.core c).ctx h).retired = 0) :
    ((t.core c).ctx h).retired = 0 := by
  obtain ⟨n, hx, hn⟩ := (H.2 c).2 h
  rw [hx]
  obtain rfl | rfl := hn
  · exact hz
  · rfl

theorem State.Rested.freeHelper (H : s.Rested t) (c : CoreId) : (t.core c).freeHelper = (s.core c).freeHelper := by
  unfold Core.freeHelper
  simp only [H.live c]

theorem State.Rested.held (H : s.Rested t) (c : CoreId) (i : Fin 64) (u : Bool) :
    (t.core c).held? i u = (s.core c).held? i u := by
  have hslots : (t.core c).slots = (s.core c).slots := H.core_field c Core.slots fun _ _ => rfl
  unfold Core.held?
  simp only [H.live c, H.run c, hslots]

/-- The selector does not look at those counts. -/
theorem State.Rested.selects (H : s.Rested t) (c : CoreId) : t.selects c = s.selects c := by
  have hsel : (t.core c).selAt = (s.core c).selAt := H.core_field c Core.selAt fun _ _ => rfl
  have hhead : (t.core c).head = (s.core c).head := H.core_field c Core.head fun _ _ => rfl
  have hslots : (t.core c).slots = (s.core c).slots := H.core_field c Core.slots fun _ _ => rfl
  have hcycle : t.cycle = s.cycle := H.field State.cycle fun _ _ => rfl
  have hgen : ∀ e, (t.core c).genOk e = (s.core c).genOk e := fun e => H.core_field c (fun k => k.genOk e) fun _ _ => rfl
  have hcanc : ∀ x, t.slotCancelled x = s.slotCancelled x := fun x => H.field (fun u => u.slotCancelled x) fun _ _ => rfl
  have hcut : ∀ x, t.cutHolds x = s.cutHolds x := fun x => H.field (fun u => u.cutHolds x) fun _ _ => rfl
  have hfenced : (t.core c).fenced = (s.core c).fenced := H.core_field c Core.fenced fun _ _ => rfl
  have hhalted : (t.core c).halted = (s.core c).halted := H.core_field c Core.halted fun _ _ => rfl
  have hstopped : t.stopped = s.stopped := H.field State.stopped fun _ _ => rfl
  have hnoStarts : t.noStarts c = s.noStarts c := by
    unfold State.noStarts
    rw [hfenced, hhalted, hstopped]
  have hsafe : ∀ e, t.safe c e = s.safe c e := by
    intro e
    have hhorizon : (t.core c).horizon = (s.core c).horizon := H.core_field c Core.horizon fun _ _ => rfl
    have htagunit : (t.core c).tagunit = (s.core c).tagunit := H.core_field c Core.tagunit fun _ _ => rfl
    have hjob : t.jobTime = s.jobTime := H.field State.jobTime fun _ _ => rfl
    have hclock : t.clock c = s.clock c := by
      unfold State.clock
      rw [hjob, htagunit]
    unfold State.safe
    rw [hhorizon, hclock]
  unfold State.selects State.ready?
  simp only [hsel, hhead, hslots, hcycle, hgen, hcanc, hcut, hnoStarts, hsafe, H.freeHelper c, H.held c]

theorem State.Rested.pullWaits (H : s.Rested t) (c : CoreId) (l : Nat) : t.pullWaits c l = s.pullWaits c l := by
  unfold State.pullWaits
  rw [H.selects c]

end

/-! ## One context of a round is served (R110) -/

/-- The count of a context that has run its quantum goes back to zero. -/
def Ctx.restart (q : Nat) (x : Ctx) : Ctx := { x with retired := if q ≤ x.retired then 0 else x.retired }

theorem Ctx.restart_rested (q : Nat) (x : Ctx) : x.Rested (x.restart q) := by
  refine ⟨_, rfl, ?_⟩
  by_cases hq : q ≤ x.retired
  · exact .inr (if_pos hq)
  · exact .inl (if_neg hq)

theorem State.rested_restart (s : State) (c : CoreId) (h : CtxId) (q : Nat) : s.Rested (s.modCtx c h (Ctx.restart q)) := by
  refine ⟨rfl, fun d => ?_⟩
  unfold State.modCtx
  by_cases hd : d = c
  · subst hd
    rw [State.core_modCore_self]
    refine ⟨rfl, fun g => ?_⟩
    by_cases hg : g = h
    · subst hg
      rw [Core.ctx_modCtx_self]
      exact Ctx.restart_rested _ _
    · rw [Core.ctx_modCtx_ne _ _ _ _ hg]
      exact .refl _
  · rw [State.core_modCore_ne _ _ _ _ hd]
    exact ⟨rfl, fun _ => .refl _⟩

/-- A context has run its quantum: neither free nor waiting on an ordered request. -/
def State.hasRun (s : State) (c : CoreId) (h : CtxId) : Prop :=
  ((s.core c).ctx h).live = true ∧ ((s.core c).ctx h).stop ≠ .ordered ∧
    (s.core c).quantum.toNat ≤ ((s.core c).ctx h).retired

/-- Nothing of a context waits for the close of a round but its count: no ordered request, no pull of its selector. -/
def State.noService (s : State) (l : Nat) (c : CoreId) (h : CtxId) : Prop :=
  ((s.core c).ctx h).orderedReq = none ∧
    (((s.core c).ctx h).live = false → helpers.contains h = true → s.pullWaits c l = false)

/-- Serving such a context only sets back the count of one that has run its quantum. -/
theorem State.serveRound_rested {s t : State} {l : Nat} {c : CoreId} {h : CtxId} (H : s.Rested t) (hno : s.noService l c h) :
    ∃ u, t.serveRound l c h = some u ∧ t.Rested u ∧ (s.hasRun c h → ((u.core c).ctx h).retired = 0) := by
  obtain ⟨hreq, hpull⟩ := hno
  unfold State.serveRound
  by_cases hlive : ((s.core c).ctx h).live = true
  · simp only [H.live c h, hlive, if_true, H.stop c h]
    by_cases hstop : ((s.core c).ctx h).stop = .ordered
    · refine ⟨t, ?_, .refl _, fun hrun => absurd hstop hrun.2.1⟩
      rw [if_pos hstop]
      unfold State.serveOrdered
      rw [H.orderedReq c h, hreq]
    · rw [if_neg hstop]
      refine ⟨_, rfl, t.rested_restart c h (t.core c).quantum.toNat, fun hrun => ?_⟩
      have hquantum : (t.core c).quantum = (s.core c).quantum := H.core_field c Core.quantum fun _ _ => rfl
      obtain ⟨n, hx, hn⟩ := (H.2 c).2 h
      unfold State.modCtx
      rw [State.core_modCore_self, Core.ctx_modCtx_self, hquantum, hx]
      obtain rfl | rfl := hn
      · exact if_pos hrun.2.2
      · exact ite_self _
  · rw [Bool.not_eq_true] at hlive
    simp only [H.live c h, hlive, Bool.false_eq_true, if_false]
    refine ⟨t, ?_, .refl _, fun hrun => absurd hrun.1 (by rw [hlive]; exact Bool.false_ne_true)⟩
    by_cases hhelper : helpers.contains h = true
    · rw [H.pullWaits c l, hpull hlive hhelper, Bool.and_false, if_neg Bool.false_ne_true]
    · rw [Bool.not_eq_true] at hhelper
      rw [hhelper, Bool.false_and, if_neg Bool.false_ne_true]

/-- Steps each of which succeeds from every state that is rested from a first one, and leaves something that resting keeps:
all succeed, and leave all of it. -/
theorem foldlM_rested {α : Type} {step : State → α → Option State} {Q : α → State → Prop} {s : State}
    (hkeep : ∀ a t u, Q a t → t.Rested u → Q a u) (l : List α)
    (hstep : ∀ a ∈ l, ∀ t, s.Rested t → ∃ u, step t a = some u ∧ t.Rested u ∧ Q a u) (t : State) (ht : s.Rested t) :
    ∃ u, l.foldlM step t = some u ∧ t.Rested u ∧ ∀ a ∈ l, Q a u := by
  induction l generalizing t with
  | nil => exact ⟨t, rfl, .refl _, fun a ha => absurd ha List.not_mem_nil⟩
  | cons a r ih =>
    obtain ⟨u, hu, htu, hqa⟩ := hstep a List.mem_cons_self t ht
    obtain ⟨v, hv, huv, hqr⟩ := ih (fun b hb => hstep b (List.mem_cons_of_mem _ hb)) u (ht.trans htu)
    refine ⟨v, ?_, htu.trans huv, fun b hb => ?_⟩
    · rw [List.foldlM_cons, hu]
      exact hv
    · obtain rfl | hb := List.mem_cons.mp hb
      · exact hkeep _ _ _ hqa huv
      · exact hqr b hb

/-- A round of cores that wait for nothing: the counts of those that have run their quantum are back at zero. -/
theorem State.serveCores_rested {s : State} {l : Nat} (cores : List CoreId)
    (hno : ∀ c ∈ cores, ∀ h, s.noService l c h) :
    ∃ u, cores.foldlM (fun (s : State) c => ctxIds.foldlM (fun (s : State) h => s.serveRound l c h) s) s = some u ∧
      s.Rested u ∧ ∀ c ∈ cores, ∀ h ∈ ctxIds, s.hasRun c h → ((u.core c).ctx h).retired = 0 := by
  refine foldlM_rested (Q := fun c u => ∀ h ∈ ctxIds, s.hasRun c h → ((u.core c).ctx h).retired = 0)
    (fun c t u hq H h hh hrun => H.retired_zero (hq h hh hrun)) cores (fun c hc t H => ?_) s (.refl _)
  exact foldlM_rested (Q := fun h u => s.hasRun c h → ((u.core c).ctx h).retired = 0)
    (fun h t u hq H hrun => H.retired_zero (hq hrun)) ctxIds (fun h _ t H => State.serveRound_rested H (hno c hc h)) t H

/-! ## The count of rounds -/

/-- Each core of a list without repetitions counts the round once; nothing else of a core changes. -/
theorem State.countRound_core (s : State) (cores : List CoreId) (hnodup : cores.Nodup) (d : CoreId) (hd : d ∈ cores) :
    (cores.foldl (fun s c => s.modCore c fun k => { k with detRounds := k.detRounds + 1 }) s).core d =
      { s.core d with detRounds := (s.core d).detRounds + 1 } := by
  have hout : ∀ (l : List CoreId) (t : State), d ∉ l →
      (l.foldl (fun s c => s.modCore c fun k => { k with detRounds := k.detRounds + 1 }) t).core d = t.core d := by
    intro l
    induction l with
    | nil => exact fun _ _ => rfl
    | cons c r ih =>
      intro t hmem
      obtain ⟨hne, hr⟩ := not_or.mp (mt List.mem_cons.mpr hmem)
      rw [List.foldl_cons, ih _ hr, State.core_modCore_ne _ _ _ _ hne]
  induction cores generalizing s with
  | nil => exact absurd hd List.not_mem_nil
  | cons c r ih =>
    obtain ⟨hc, hr⟩ := List.nodup_cons.mp hnodup
    rw [List.foldl_cons]
    obtain rfl | hd := List.mem_cons.mp hd
    · rw [hout r _ hc, State.core_modCore_self]
    · have hne : d ≠ c := fun he => hc (he ▸ hd)
      rw [ih _ hr hd, State.core_modCore_ne _ _ _ _ hne]

theorem upto_nodup (n : Nat) : (upto n).Nodup := by
  induction n with
  | zero => exact List.nodup_nil
  | succ n ih =>
    rw [upto, List.nodup_append]
    exact ⟨ih, List.nodup_singleton n, fun a ha b hb => by
      have hlt := (mem_upto n a).mp ha
      have heq := List.mem_singleton.mp hb
      omega⟩

theorem Launch.cores_nodup (r : Launch) (h : r.first + r.ncore ≤ 8192) : r.cores.Nodup := by
  unfold Launch.cores
  refine List.Nodup.map_on (fun i hi j hj heq => ?_) (upto_nodup _)
  have hi' := (mem_upto _ _).mp hi
  have hj' := (mem_upto _ _).mp hj
  have hval := congrArg Fin.val heq
  unfold mkCore at hval
  simp only at hval
  omega

theorem mem_ctxIds (h : CtxId) : h ∈ ctxIds := by
  revert h
  decide

/-! ## The close of a round (R110) -/

theorem State.hasRun_of_roundOf {s : State} {c : CoreId} {l : Nat} {h : CtxId} (hran : s.roundOf c l h = .ran) :
    s.hasRun c h := by
  unfold State.roundOf at hran
  simp only at hran
  split at hran
  · next hlive =>
    split at hran
    · split at hran <;> exact absurd hran (by decide)
    · next hstop =>
      split at hran
      · next hq => exact ⟨hlive, hstop, hq⟩
      · exact absurd hran (by decide)
  · split at hran
    · exact absurd hran (by decide)
    · split at hran <;> exact absurd hran (by decide)

/-- A free helper for which a pull waits is neither free nor has it run. -/
theorem State.roundOf_pullWaits {s : State} {c : CoreId} {l : Nat} {h : CtxId} (hlive : ((s.core c).ctx h).live = false)
    (hpull : s.pullWaits c l = true) : s.roundOf c l h = .selector := by
  unfold State.roundOf
  simp only [hlive, hpull, if_true]
  rfl

theorem State.noService_of {s : State} {c : CoreId} {l : Nat} (hasks : (s.core c).asks = false)
    (hround : ∀ g ∈ helpers, s.roundOf c l g = .ran ∨ s.roundOf c l g = .free) (h : CtxId) : s.noService l c h := by
  refine ⟨?_, fun hlive hhelper => ?_⟩
  · unfold Core.asks at hasks
    rw [List.any_eq_false] at hasks
    simpa using hasks h (mem_ctxIds h)
  · rw [← Bool.not_eq_true]
    intro hpull
    have hsel := State.roundOf_pullWaits hlive hpull
    obtain hran | hfree := hround h (List.contains_iff_mem.mp hhelper)
    · exact absurd (hsel.symm.trans hran) (by decide)
    · exact absurd (hsel.symm.trans hfree) (by decide)

/-- A round in which no request and no pull waits closes: every core counts it, and the helpers that have run start anew. -/
theorem exec_detRoundClose {s : State} {l : Nat} {r : Launch} (hfind : s.launches.find l = some r) (hdet : r.det = true)
    (hrange : r.first + r.ncore ≤ 8192) (hasks : ∀ d ∈ r.cores, (s.core d).asks = false)
    (hround : ∀ d ∈ r.cores, ∀ g ∈ helpers, s.roundOf d l g = .ran ∨ s.roundOf d l g = .free) :
    ∃ t, exec (.detRoundClose l) s = .next t ∧ ∀ d ∈ r.cores, (t.core d).detRounds = (s.core d).detRounds + 1 ∧
      ∀ g ∈ helpers, s.roundOf d l g = .ran → ((t.core d).ctx g).retired = 0 := by
  have hopen : (s.roundStates r l).contains .none = false := by
    rw [← Bool.not_eq_true, List.contains_iff_mem]
    intro hmem
    unfold State.roundStates at hmem
    obtain ⟨row, hrow, hin⟩ := List.mem_flatten.mp hmem
    obtain ⟨d, hd, rfl⟩ := List.mem_map.mp hrow
    obtain ⟨g, hg, heq⟩ := List.mem_map.mp hin
    obtain hran | hfree := hround d hd g hg
    · exact absurd (hran.symm.trans heq) (by decide)
    · exact absurd (hfree.symm.trans heq) (by decide)
  obtain ⟨u, hu, hrest, hzero⟩ := State.serveCores_rested (l := l) r.cores fun d hd h =>
    State.noService_of (hasks d hd) (hround d hd) h
  have htry : s.tryRoundClose l =
      some (r.cores.foldl (fun s c => s.modCore c fun k => { k with detRounds := k.detRounds + 1 }) u) := by
    unfold State.tryRoundClose
    simp only [hfind, hdet, hopen, hu]
    rfl
  refine ⟨_, happen_some s htry, fun d hd => ?_⟩
  rw [State.countRound_core u r.cores (r.cores_nodup hrange) d hd]
  have hrounds : (u.core d).detRounds = (s.core d).detRounds := hrest.core_field d Core.detRounds fun _ _ => rfl
  exact ⟨congrArg (· + 1) hrounds, fun g _ hran => hzero d hd g (mem_ctxIds g) (State.hasRun_of_roundOf hran)⟩

/-- Settles O43: starts by what `startReaction` and `startUnit` leave of their core, discards and slot changes by their frames, the
close of a round by the fold over contexts that wait for nothing. -/
theorem reactionHappenings : Obligations.ReactionHappenings := by
  intro c j e n h l s k slot group entered
  have hentered : ∀ (t : State) (e' : InEv) (evs : List InEv) (pool : Bool) (x7 : DWord) (r : Run),
      k.EnteredAs (t.core c) h slot e' evs.length x7 r → e'.ev.tag = e.ev.tag → e'.ev.origin = e.ev.origin → r.slot = n →
      r.lcnt = slot.lcnt → r.pool = pool → entered t evs pool := by
    intro t e' evs pool x7 r H htag horigin hslot hlcnt hpool
    obtain ⟨hlive, hstop, hpc, htnow, hbeat, hnum, hjoin, hb⟩ := H.state
    obtain ⟨h5, h28, h29, h31, -⟩ := H.regs
    refine ⟨hlive, hstop, hpc, htnow.trans htag, H.last_eq.trans htag, h5.trans horigin, h28, h29, h31, hbeat,
      hnum.trans (by rw [hslot]), hjoin, hb, ⟨r, H.run_eq, hslot, hlcnt, hpool⟩, fun g hg => H.ctx_ne hg⟩
  obtain ⟨hcurTag, hcurOrigin, hcurWords⟩ := k.current_ev e
  refine ⟨fun hsel hpool => ⟨fun hk => ?_, fun hk hall hhead => ?_, fun hk hpart hgrace hhead => ?_⟩,
    fun hsel hpool hdet => ⟨fun ix w hunits hspent hpull => ?_, fun ix b rest hunits => ?_⟩,
    fun hhead hgen => exec_headStaleDiscard hhead hgen,
    fun hhead hgen hcanc hpool => exec_cancelledEventDiscard hhead hgen hcanc hpool,
    fun hrun hwait => ⟨fun r hpend => ?_, fun hpend => ?_, fun m g b hpend => ?_⟩,
    fun r hfind hdet hrange _ hasks hround _ => exec_detRoundClose hfind hdet hrange hasks hround⟩
  case refine_1 =>
    obtain ⟨x7, r, H, hinbox, hslot, hlcnt, hrpool, -⟩ := s.startReaction_spec c h n e []
    refine ⟨_, happen_some s (State.tryStart_single hsel hpool hk),
      hentered _ _ [e] false _ _ H hcurTag hcurOrigin hslot hlcnt hrpool, ?_, fun ws hws => ?_⟩
    · rw [hinbox]
      exact not_mem_filter_self e _
    · obtain ⟨-, -, -, -, -, h1, h2, h3, h4⟩ := H.regs
      rw [hcurWords ws hws] at h1 h2 h3 h4
      exact ⟨h1, h2, h3, h4⟩
  case refine_2 =>
    obtain ⟨rest, hgroup⟩ : ∃ rest, group.take slot.k = e :: rest := by
      obtain ⟨tail, htail⟩ := List.head?_eq_some_iff.mp hhead
      exact ⟨tail.take (slot.k - 1), by rw [htail, List.take_cons (by omega)]⟩
    obtain ⟨x7, r, H, -, hslot, hlcnt, hrpool, hx7⟩ := s.startReaction_spec c h n e rest
    have hstart := State.tryStart_join hsel hpool hk hall
    rw [show ((s.core c).group n e).take ((s.core c).slots.get n).k = e :: rest from hgroup] at hstart
    refine ⟨_, happen_some s hstart, ?_, ?_⟩
    · rw [hgroup]
      exact hentered _ _ (e :: rest) false _ _ H hcurTag hcurOrigin hslot hlcnt hrpool
    · obtain ⟨-, -, -, -, h7, -⟩ := H.regs
      exact h7.trans (hx7 hk)
  case refine_3 =>
    obtain ⟨rest, hgroup⟩ := List.head?_eq_some_iff.mp hhead
    obtain ⟨x7, r, H, -, hslot, hlcnt, hrpool, -⟩ := s.startReaction_spec c h n e rest
    have hstart := State.tryGrace_join hsel hpool hk hpart hgrace
    rw [show (s.core c).group n e = e :: rest from hgroup] at hstart
    refine ⟨_, happen_some s hstart, ?_⟩
    rw [hgroup]
    exact hentered _ _ (e :: rest) false _ _ H hcurTag hcurOrigin hslot hlcnt hrpool
  case refine_4 =>
    obtain ⟨r, H, hslot, hlcnt, hrpool, -⟩ := w.startUnit_spec c h n e ix none
    rw [State.pull_core hpull c] at H hlcnt
    refine ⟨_, happen_some s (State.tryUnit_pull hsel hpool hdet hunits hspent hpull),
      hentered _ _ [e] true _ _ H rfl rfl hslot hlcnt hrpool, ?_⟩
    obtain ⟨-, -, -, -, h7, -⟩ := H.regs
    exact h7
  case refine_5 =>
    obtain ⟨r, H, hslot, hlcnt, hrpool, hreplay, hasCx⟩ :=
      (s.modCore c fun k => { k with inbox := listPut k.inbox j { e with units := rest } }).startUnit_spec c h n e ix (some b)
    rw [State.core_modCore_self] at H hlcnt
    refine ⟨_, r, happen_some s (State.tryUnit_again hsel hpool hdet hunits),
      hentered _ _ [e] true _ _ H rfl rfl hslot hlcnt hrpool, ?_, H.run_eq, hreplay, hasCx⟩
    obtain ⟨-, -, -, -, h7, -⟩ := H.regs
    exact h7
  case refine_6 =>
    obtain ⟨t, ht, hz⟩ := exec_slotChangeEffect hrun hwait hpend
    refine ⟨t, ht, ?_⟩
    simp only
    rw [hz]
    exact ⟨rfl, rfl, rfl, rfl, rfl, rfl, rfl, rfl, rfl⟩
  case refine_7 => exact exec_slotChangeEffect hrun hwait hpend
  case refine_8 => exact exec_slotChangeEffect hrun hwait hpend

end Sys2Proof.Machine
end

/-! PROOFS. Canonical memory (O59), first part: rising lists, what the results of functions hold, the rules of the cores. -/

section
namespace Sys2Proof.Machine

/-! ## Rising lists and canonical memories -/

theorem forall_mem_insertNat {p : Nat → Prop} {l : List Nat} {i : Nat} (h : ∀ x ∈ l, p x) (hi : p i) :
    ∀ x ∈ insertNat l i, p x := by
  induction l with
  | nil => simpa [insertNat] using hi
  | cons k r ih =>
    have hr := ih fun x hx => h x (List.mem_cons_of_mem _ hx)
    unfold insertNat
    split
    · exact List.forall_mem_cons.2 ⟨hi, h⟩
    · split
      · exact h
      · exact List.forall_mem_cons.2 ⟨h k List.mem_cons_self, hr⟩

theorem insertNat_rising {l : List Nat} (h : l.Pairwise (· < ·)) (i : Nat) : (insertNat l i).Pairwise (· < ·) := by
  induction l with
  | nil => exact List.pairwise_singleton _ i
  | cons k r ih =>
    obtain ⟨hk, hr⟩ := List.pairwise_cons.1 h
    unfold insertNat
    split
    · next hlt => exact List.pairwise_cons.2 ⟨List.forall_mem_cons.2 ⟨hlt, fun x hx => hlt.trans (hk x hx)⟩, h⟩
    · split
      · exact h
      · next hge hne => exact List.pairwise_cons.2 ⟨forall_mem_insertNat hk (by omega), ih hr⟩

theorem removeNat_sublist (l : List Nat) (i : Nat) : (removeNat l i).Sublist l := by
  induction l with
  | nil => exact List.Sublist.slnil
  | cons k r ih =>
    unfold removeNat
    split
    · exact List.sublist_cons_self k r
    · exact ih.cons_cons k

theorem upto_rising (n : Nat) : (upto n).Pairwise (· < ·) := by
  have hlt : ∀ n, ∀ x ∈ upto n, x < n := fun n => by
    induction n with
    | zero => simp [upto]
    | succ n ih =>
      intro x hx
      rcases List.mem_append.1 hx with h | h
      · exact (ih x h).trans (Nat.lt_succ_self n)
      · exact List.mem_singleton.1 h ▸ Nat.lt_succ_self n
  induction n with
  | zero => exact List.Pairwise.nil
  | succ n ih =>
    refine List.pairwise_append.2 ⟨ih, List.pairwise_singleton _ n, fun x hx y hy => ?_⟩
    exact List.mem_singleton.1 hy ▸ hlt n x hx

theorem filter_upto_rising (n : Nat) (p : Nat → Bool) : ((upto n).filter p).Pairwise (· < ·) := (upto_rising n).filter p

/-- The keys of a finite map rise. -/
def KMap.rises {α : Type} (m : KMap α) : Prop := (m.map Prod.fst).Pairwise (· < ·)

theorem KMap.put_rises {α : Type} {m : KMap α} (h : m.rises) (i : Nat) (w : α) : (m.put i w).rises := by
  induction m with
  | nil => exact List.pairwise_singleton _ i
  | cons e r ih =>
    obtain ⟨hk, hr⟩ := List.pairwise_cons.1 h
    unfold KMap.put
    split
    · next hlt => exact List.pairwise_cons.2 ⟨List.forall_mem_cons.2 ⟨hlt, fun x hx => lt_trans hlt (hk x hx)⟩, h⟩
    · split
      · next heq => exact List.pairwise_cons.2 ⟨fun x hx => heq ▸ hk x hx, hr⟩
      · refine List.pairwise_cons.2 ⟨fun x hx => ?_, ih hr⟩
        obtain ⟨f, hf, rfl⟩ := List.mem_map.1 hx
        rcases KMap.mem_put r i w f hf with hm | rfl
        · exact hk _ (List.mem_map_of_mem hm)
        · dsimp only at *
          omega

theorem KMap.drop_sublist {α : Type} (m : KMap α) (i : Nat) : (m.drop i).Sublist m := by
  induction m with
  | nil => exact List.Sublist.slnil
  | cons e r ih =>
    unfold KMap.drop
    split
    · exact List.sublist_cons_self e r
    · exact ih.cons_cons e

theorem KMap.drop_rises {α : Type} {m : KMap α} (h : m.rises) (i : Nat) : (m.drop i).rises :=
  List.Pairwise.sublist ((KMap.drop_sublist m i).map Prod.fst) h

theorem KMap.mem_of_find {α : Type} {m : KMap α} {i : Nat} {v : α} (h : m.find i = some v) : (i, v) ∈ m := by
  induction m with
  | nil => cases h
  | cons e r ih =>
    unfold KMap.find at h
    split at h
    · next heq =>
      cases h
      exact heq ▸ List.mem_cons_self
    · exact List.mem_cons_of_mem _ (ih h)

theorem Memory.wfFrom_iff (m : Memory) (lo : Nat) :
    m.wfFrom lo = true ↔ (∀ e ∈ m, lo ≤ e.1 ∧ e.2 ≠ 0) ∧ m.Pairwise fun e f => e.1 < f.1 := by
  induction m generalizing lo with
  | nil => simp [Memory.wfFrom]
  | cons e r ih =>
    simp only [Memory.wfFrom, Bool.and_eq_true, decide_eq_true_eq, ih, List.forall_mem_cons, List.pairwise_cons]
    constructor
    · rintro ⟨⟨hlo, hne⟩, hr, hp⟩
      exact ⟨⟨⟨hlo, hne⟩, fun x hx => ⟨by have := (hr x hx).1; omega, (hr x hx).2⟩⟩, fun x hx => (hr x hx).1, hp⟩
    · rintro ⟨⟨⟨hlo, hne⟩, hr⟩, hk, hp⟩
      exact ⟨⟨hlo, hne⟩, fun x hx => ⟨hk x hx, (hr x hx).2⟩, hp⟩

/-- The canonical form: no entry is 0, and the addresses rise. -/
theorem Memory.wf_iff (m : Memory) : m.wf = true ↔ (∀ e ∈ m, e.2 ≠ 0) ∧ m.Pairwise fun e f => e.1 < f.1 := by
  simp [Memory.wf, Memory.wfFrom_iff]

/-- A stretch of a memory, moved down to 0, is in canonical form. -/
theorem Memory.window_wf {m : Memory} {a n : Nat} (h : m.wf = true) : (m.window a n).wf = true := by
  obtain ⟨hne, hp⟩ := (Memory.wf_iff m).1 h
  refine (Memory.wf_iff _).2 ⟨fun e he => ?_, List.pairwise_map.2 ?_⟩
  · obtain ⟨f, hf, rfl⟩ := List.mem_map.1 he
    exact hne f (List.mem_of_mem_filter hf)
  · refine List.Pairwise.imp_of_mem (fun {e f} he _ hlt => ?_) (hp.filter _)
    have hge := (List.mem_filter.1 he).2
    simp only [Bool.and_eq_true, decide_eq_true_eq] at hge
    dsimp only
    omega

/-- A memory with the HBM of another copied to an address is in canonical form (R358). -/
theorem Memory.copyHbm_wf {m m' : Memory} {base : Nat} (h : m.wf = true) (h' : m'.wf = true) :
    (m.copyHbm m' base).wf = true := by
  obtain ⟨hne, hp⟩ := (Memory.wf_iff m).1 h
  obtain ⟨hne', hp'⟩ := (Memory.wf_iff m').1 h'
  refine (Memory.wf_iff _).2 ⟨fun e he => ?_, ?_⟩
  · unfold Memory.copyHbm at he
    simp only [List.mem_append, List.mem_map, List.mem_filter] at he
    rcases he with (⟨hm, -⟩ | ⟨f, ⟨hm, -⟩, rfl⟩) | ⟨hm, -⟩
    · exact hne e hm
    · exact hne' f hm
    · exact hne e hm
  · unfold Memory.copyHbm
    refine List.pairwise_append.2 ⟨List.pairwise_append.2 ⟨hp.filter _, List.pairwise_map.2 ?_, ?_⟩, hp.filter _, ?_⟩
    · exact (hp'.filter _).imp fun hlt => Nat.add_lt_add_left hlt base
    · intro e he f hf
      obtain ⟨d, -, rfl⟩ := List.mem_map.1 hf
      have hlt := (List.mem_filter.1 he).2
      simp only [decide_eq_true_eq] at hlt
      dsimp only
      omega
    · intro e he f hf
      have hge := (List.mem_filter.1 hf).2
      rcases List.mem_append.1 he with he | he
      · have hlt := (List.mem_filter.1 he).2
        simp only [decide_eq_true_eq] at hlt hge
        omega
      · obtain ⟨d, hd, rfl⟩ := List.mem_map.1 he
        have hlt := (List.mem_filter.1 hd).2
        simp only [decide_eq_true_eq] at hlt hge
        dsimp only
        omega

/-! ## What a result holds -/

/-- What an option holds, if it holds something, passes `P`. -/
inductive Holds {α : Type} (P : α → Prop) : Option α → Prop
  | none : Holds P none
  | some {a : α} (h : P a) : Holds P (some a)

/-- What an effect gives passes `P`, and why it stops passes `E`. -/
inductive Yields {ε α : Type} (E : ε → Prop) (P : α → Prop) : Except ε α → Prop
  | ok {a : α} (h : P a) : Yields E P (.ok a)
  | error {e : ε} (h : E e) : Yields E P (.error e)

section
variable {α β ε : Type} {P : α → Prop} {Q : β → Prop} {E : ε → Prop}

theorem Holds.of_eq {o : Option α} {a : α} (e : o = Option.some a) {P : α → Prop} (h : Holds P o) : P a := by
  subst e
  cases h with
  | some h => exact h

theorem Holds.of_forall {o : Option α} (h : ∀ a, o = Option.some a → P a) : Holds P o := by
  cases o with
  | none => exact .none
  | some a => exact .some (h a rfl)

theorem Holds.getD {o : Option α} {a : α} (h : Holds P o) (ha : P a) : P (o.getD a) := by
  cases h with
  | none => exact ha
  | some h => exact h

theorem Holds.map {o : Option α} {f : α → β} (h : ∀ a, o = Option.some a → Q (f a)) : Holds Q (o.map f) := by
  cases o with
  | none => exact .none
  | some a => exact .some (h a rfl)

theorem Holds.bind {o : Option α} {f : α → Option β} (h : ∀ a, o = Option.some a → Holds Q (f a)) :
    Holds Q (o.bind f) := by
  cases o with
  | none => exact .none
  | some a => exact h a rfl

theorem Yields.bind {x : Except ε α} {f : α → Except ε β} (hx : Yields E P x) (hf : ∀ a, P a → Yields E Q (f a)) :
    Yields E Q (x >>= f) := by
  cases hx with
  | error h => exact .error h
  | ok h => exact hf _ h

theorem Yields.map {x : Except ε α} {f : α → β} (hx : Yields E P x) (hf : ∀ a, P a → Q (f a)) : Yields E Q (x.map f) := by
  cases hx with
  | error h => exact .error h
  | ok h => exact .ok (hf _ h)

theorem Yields.ok_of_eq {x : Except ε α} {a : α} (e : x = .ok a) {P : α → Prop} (h : Yields E P x) : P a := by
  subst e
  cases h with
  | ok h => exact h

theorem Yields.error_of_eq {x : Except ε α} {r : ε} (e : x = .error r) {E : ε → Prop} (h : Yields E P x) : E r := by
  subst e
  cases h with
  | error h => exact h

theorem Holds.foldlM {f : α → β → Option α} {l : List β} {a : α} (ha : P a) (hf : ∀ a, P a → ∀ b, Holds P (f a b)) :
    Holds P (l.foldlM f a) := by
  induction l generalizing a with
  | nil => exact .some ha
  | cons b r ih =>
    rw [List.foldlM_cons]
    exact Holds.bind fun a' e => ih (Holds.of_eq e (hf a ha b))

theorem Holds.findSome? {f : β → Option α} {l : List β} (hf : ∀ b, Holds P (f b)) : Holds P (l.findSome? f) := by
  refine .of_forall fun a e => ?_
  obtain ⟨b, -, hb⟩ := List.exists_of_findSome?_eq_some e
  exact Holds.of_eq hb (hf b)

theorem Yields.any {x : Except ε α} : Yields (fun _ => True) (fun _ => True) x := by
  cases x with
  | error e => exact .error trivial
  | ok a => exact .ok trivial

theorem Yields.forM {f : β → Except ε PUnit} {l : List β} (hf : ∀ b, Yields E (fun _ => True) (f b)) :
    Yields E (fun _ => True) (l.forM f) := by
  induction l with
  | nil => exact .ok trivial
  | cons b r ih => exact .bind (hf b) fun _ _ => ih

theorem Yields.mapM {f : β → Except ε α} {l : List β} (hf : ∀ b, Yields E (fun _ => True) (f b)) :
    Yields E (fun _ => True) (l.mapM f) := by
  induction l with
  | nil => exact .ok trivial
  | cons b r ih =>
    rw [List.mapM_cons]
    exact .bind (hf b) fun _ _ => .bind ih fun _ _ => .ok trivial

/-- A check that is made in some cases only, and what follows it in all. -/
theorem Yields.check_then {p : Prop} [Decidable p] {x : Except ε PUnit}
    {rest : PUnit → Except ε α} (hx : Yields E (fun _ => True) x) (hrest : ∀ u, Yields E P (rest u)) :
    Yields E P (if p then x >>= rest else rest ⟨⟩) := by
  split
  · exact .bind hx fun u _ => hrest u
  · exact hrest ⟨⟩

theorem snd_of_eq {x : α × β} {a : α} {b : β} (e : x = (a, b)) {Q : β → Prop} (h : Q x.2) : Q b := by
  rw [e] at h
  exact h

theorem foldl_keeps {f : α → β → α} {l : List β} {a : α} (ha : P a) (hf : ∀ a, P a → ∀ b, P (f a b)) :
    P (l.foldl f a) :=
  List.foldlRecOn l f ha fun a h b _ => hf a h b

end

/-- A state that an instruction stops in has canonical memory. -/
def Stop.memOk : Stop → Prop
  | .trapIn _ s => s.memOk
  | .waitIn s => s.memOk
  | _ => True

/-- The state that a step ends in has canonical memory. -/
def Out.memOk : Out → Prop
  | .next s => s.memOk
  | _ => True

/-- The memory that a cut keeps is canonical. -/
def Cut.memOk (q : Cut) : Prop := q.mem.wf = true

/-- Every core listed has a canonical scratchpad. -/
def coresOk (m : KMap Core) : Prop := ∀ e ∈ m, e.2.spadOk

/-- The scratchpads of the cores that a pre-emption saves are canonical. -/
def Saved.memOk (v : Saved) : Prop := coresOk v.cores

/-! ## The rules of the cores -/

section
variable {s t : State} {k : Core}

/-- Only the store of a state matters to its canonical form. -/
theorem State.mk_memOk {agenda cur curCtx freeCtr reqCtr cores mem past fulls hostSeen cycle lateW lost timebase phase mhz
    powerCap shutdown inReset rollback firmware fwVersion mgmtOut devCoord wsCal wsPeriod wsWindow wsAway ltlb constC dir
    notices ovfTab prefetches vers marks capMsgs counters launches setupQ launchWait groups mcasts objs objMsgs windows
    routerAt flight waitFrag frags winCred winDrop hostSeq hostOff ptmctl ptroot spillBase spillLog ovfBase ovfLog apbase
    hostQ fbDup fallback hostPages fbValue winSlots msixTab hostData msix ckState ckRsv cut earlyMarks earlyAfter pectl
    pebase pestat pefreeze peresume joboff peMarks peSent saved mcKind mcCore mcCause mcAddr mcCount mcVec snapEn snapBase
    snapLog spares ports e2eTimeout e2eRetries e2eNext kept accepted replies outbox sentSeen capWait engReqs clkcfg clkoff
    slewAt masterAt unreach farunr} (hmem : Memory.wf mem = true) (hdir : KMap.rises dir) (hcut : Holds Cut.memOk cut)
    (hcores : coresOk cores) (hsaved : ∀ v ∈ saved, coresOk v.2.cores) :
    (State.mk agenda cur curCtx freeCtr reqCtr cores mem past fulls hostSeen cycle lateW lost timebase phase mhz powerCap
      shutdown inReset rollback firmware fwVersion mgmtOut devCoord wsCal wsPeriod wsWindow wsAway ltlb constC dir notices
      ovfTab prefetches vers marks capMsgs counters launches setupQ launchWait groups mcasts objs objMsgs windows routerAt
      flight waitFrag frags winCred winDrop hostSeq hostOff ptmctl ptroot spillBase spillLog ovfBase ovfLog apbase hostQ
      fbDup fallback hostPages fbValue winSlots msixTab hostData msix ckState ckRsv cut earlyMarks earlyAfter pectl pebase
      pestat pefreeze peresume joboff peMarks peSent saved mcKind mcCore mcCause mcAddr mcCount mcVec snapEn snapBase
      snapLog spares ports e2eTimeout e2eRetries e2eNext kept accepted replies outbox sentSeen capWait engReqs clkcfg
      clkoff slewAt masterAt unreach farunr).memOk :=
  ⟨hmem, hdir, fun _ e => Holds.of_eq e hcut, hcores, hsaved⟩

/-- A state with the store of another is canonical with it. -/
theorem State.others_memOk {agenda cur curCtx freeCtr reqCtr past fulls hostSeen cycle lateW lost timebase phase mhz
    powerCap shutdown inReset rollback firmware fwVersion mgmtOut devCoord wsCal wsPeriod wsWindow wsAway ltlb constC
    notices ovfTab prefetches vers marks capMsgs counters launches setupQ launchWait groups mcasts objs objMsgs windows
    routerAt flight waitFrag frags winCred winDrop hostSeq hostOff ptmctl ptroot spillBase spillLog ovfBase ovfLog apbase
    hostQ fbDup fallback hostPages fbValue winSlots msixTab hostData msix ckState ckRsv earlyMarks earlyAfter pectl pebase
    pestat pefreeze peresume joboff peMarks peSent mcKind mcCore mcCause mcAddr mcCount mcVec snapEn snapBase snapLog
    spares ports e2eTimeout e2eRetries e2eNext kept accepted replies outbox sentSeen capWait engReqs clkcfg clkoff slewAt
    masterAt unreach farunr} (hs : s.memOk) :
    (State.mk agenda cur curCtx freeCtr reqCtr s.cores s.mem past fulls hostSeen cycle lateW lost timebase phase mhz
      powerCap shutdown inReset rollback firmware fwVersion mgmtOut devCoord wsCal wsPeriod wsWindow wsAway ltlb constC
      s.dir notices ovfTab prefetches vers marks capMsgs counters launches setupQ launchWait groups mcasts objs objMsgs
      windows routerAt flight waitFrag frags winCred winDrop hostSeq hostOff ptmctl ptroot spillBase spillLog ovfBase
      ovfLog apbase hostQ fbDup fallback hostPages fbValue winSlots msixTab hostData msix ckState ckRsv s.cut earlyMarks
      earlyAfter pectl pebase pestat pefreeze peresume joboff peMarks peSent s.saved mcKind mcCore mcCause mcAddr mcCount
      mcVec snapEn snapBase snapLog spares ports e2eTimeout e2eRetries e2eNext kept accepted replies outbox sentSeen
      capWait engReqs clkcfg clkoff slewAt masterAt unreach farunr).memOk :=
  hs

/-- Only the bytes of a core's scratchpad and its full words matter to their canonical form. -/
theorem Core.mk_spadOk {ctxs rr spad full feSeen endSeen spadRel spadLost feWait last tagunit dbDie dbPkg dbChas dbFar
    eboundCh eboundFar inclass iflags staleCnt spillN spillPut spillBuf bexCnt blkFirst blkN blkUsed beatIv late trap tvec
    tcfgBudget tcfgInf11 tcfgInf14 tstk recs det detRounds quantum glog slots inbox held sendQ seq floor heap spilled
    replayKeys ring logging ringTab lx28 lx29 lstk fifo chans layouts streams accs accSeen mq mHist mRun accFault mCause
    mFidx engW extx heldInj lastGroup selAt xbar pcfg pcfgSoon pcnt pcntAt caps capSeen tlb code fenced halted} (hspad :
    Memory.wf spad = true) (hfull : List.Pairwise (· < ·) full) :
    (Core.mk ctxs rr spad full feSeen endSeen spadRel spadLost feWait last tagunit dbDie dbPkg dbChas dbFar eboundCh
      eboundFar inclass iflags staleCnt spillN spillPut spillBuf bexCnt blkFirst blkN blkUsed beatIv late trap tvec
      tcfgBudget tcfgInf11 tcfgInf14 tstk recs det detRounds quantum glog slots inbox held sendQ seq floor heap spilled
      replayKeys ring logging ringTab lx28 lx29 lstk fifo chans layouts streams accs accSeen mq mHist mRun accFault mCause
      mFidx engW extx heldInj lastGroup selAt xbar pcfg pcfgSoon pcnt pcntAt caps capSeen tlb code fenced halted).spadOk
      :=
  ⟨hspad, hfull⟩

/-- A core with the scratchpad of another is canonical with it. -/
theorem Core.others_spadOk {ctxs rr feSeen endSeen spadRel spadLost feWait last tagunit dbDie dbPkg dbChas
    dbFar eboundCh eboundFar inclass iflags staleCnt spillN spillPut spillBuf bexCnt blkFirst blkN blkUsed beatIv late
    trap tvec tcfgBudget tcfgInf11 tcfgInf14 tstk recs det detRounds quantum glog slots inbox held sendQ seq floor heap
    spilled replayKeys ring logging ringTab lx28 lx29 lstk fifo chans layouts streams accs accSeen mq mHist mRun accFault
    mCause mFidx engW extx heldInj lastGroup selAt xbar pcfg pcfgSoon pcnt pcntAt caps capSeen tlb code fenced halted}
    (hk : k.spadOk) :
    (Core.mk ctxs rr k.spad k.full feSeen endSeen spadRel spadLost feWait last tagunit dbDie dbPkg dbChas dbFar eboundCh
      eboundFar inclass iflags staleCnt spillN spillPut spillBuf bexCnt blkFirst blkN blkUsed beatIv late trap tvec
      tcfgBudget tcfgInf11 tcfgInf14 tstk recs det detRounds quantum glog slots inbox held sendQ seq floor heap spilled
      replayKeys ring logging ringTab lx28 lx29 lstk fifo chans layouts streams accs accSeen mq mHist mRun accFault mCause
      mFidx engW extx heldInj lastGroup selAt xbar pcfg pcfgSoon pcnt pcntAt caps capSeen tlb code fenced halted).spadOk
      :=
  hk

theorem Core.reset_spadOk : Core.reset.spadOk := ⟨rfl, List.Pairwise.nil⟩

theorem State.core_spadOk (hs : s.memOk) (c : CoreId) : (s.core c).spadOk := by
  obtain ⟨-, -, -, hcores, -⟩ := hs
  rcases KMap.get_mem Core.reset s.cores c.val with h | h
  · exact hcores _ h
  · have hreset : s.core c = Core.reset := h
    rw [hreset]
    exact Core.reset_spadOk

theorem State.setCore_memOk {c : CoreId} (hs : s.memOk) (hk : k.spadOk) : (s.setCore c k).memOk := by
  obtain ⟨hmem, hdir, hcut, hcores, hsaved⟩ := hs
  refine ⟨hmem, hdir, hcut, fun e he => ?_, hsaved⟩
  rcases KMap.mem_put _ _ _ _ he with h | rfl
  · exact hcores e h
  · exact hk

theorem State.modCore_memOk {c : CoreId} {f : Core → Core} (hs : s.memOk) (hf : ∀ k, k.spadOk → (f k).spadOk) :
    (s.modCore c f).memOk :=
  State.setCore_memOk hs (hf _ (State.core_spadOk hs c))

theorem State.withMem_memOk {m : Memory} (hs : s.memOk) (hm : m.wf = true) : State.memOk { s with mem := m } := by
  obtain ⟨-, hdir, hcut, hcores, hsaved⟩ := hs
  exact ⟨hm, hdir, hcut, hcores, hsaved⟩

theorem State.withDir_memOk {d : KMap DirEnt} (hs : s.memOk) (hd : d.rises) : State.memOk { s with dir := d } := by
  obtain ⟨hmem, -, hcut, hcores, hsaved⟩ := hs
  exact ⟨hmem, hd, hcut, hcores, hsaved⟩

theorem State.withCut_memOk {o : Option Cut} (hs : s.memOk) (ho : Holds Cut.memOk o) :
    State.memOk { s with cut := o } := by
  obtain ⟨hmem, hdir, -, hcores, hsaved⟩ := hs
  exact ⟨hmem, hdir, fun q e => Holds.of_eq e ho, hcores, hsaved⟩

theorem State.saved_coresOk (hs : s.memOk) : ∀ v ∈ s.saved, coresOk v.2.cores := hs.2.2.2.2

theorem State.mem_wf (hs : s.memOk) : s.mem.wf = true := hs.1

theorem State.dir_rises (hs : s.memOk) : s.dir.rises := hs.2.1

theorem State.cut_holds (hs : s.memOk) : Holds Cut.memOk s.cut := by
  obtain ⟨-, -, hcut, -, -⟩ := hs
  exact .of_forall hcut

theorem State.cut_memOk (hs : s.memOk) {q : Cut} (e : s.cut = some q) : q.memOk := Holds.of_eq e (State.cut_holds hs)

theorem State.putDir_memOk {i : Nat} {e : DirEnt} (hs : s.memOk) : State.memOk { s with dir := s.dir.put i e } :=
  State.withDir_memOk hs (KMap.put_rises (State.dir_rises hs) i e)

theorem State.mapCores_memOk {m : KMap Core} (hs : s.memOk) (hm : coresOk m) : State.memOk { s with cores := m } := by
  obtain ⟨hmem, hdir, hcut, -, hsaved⟩ := hs
  exact ⟨hmem, hdir, hcut, hm, hsaved⟩

theorem State.cores_ok (hs : s.memOk) : coresOk s.cores := hs.2.2.2.1

theorem coresOk_map {m : KMap Core} {f : Nat × Core → Nat × Core} (hm : coresOk m)
    (hf : ∀ e, e.2.spadOk → (f e).2.spadOk) : coresOk (m.map f) := by
  intro e he
  obtain ⟨d, hd, rfl⟩ := List.mem_map.1 he
  exact hf d (hm d hd)

theorem Core.setFull_spadOk {a : Nat} {b : Bool} (hk : k.spadOk) : (k.setFull a b).spadOk := by
  obtain ⟨hspad, hfull⟩ := hk
  refine ⟨hspad, ?_⟩
  cases b with
  | true => exact insertNat_rising hfull _
  | false => exact hfull.sublist (removeNat_sublist _ _)

theorem Core.setFulls_spadOk {a : Nat} {b : Bool} {n : Nat} (hk : k.spadOk) : (k.setFulls a b n).spadOk := by
  induction n generalizing k a with
  | zero => exact hk
  | succ n ih => exact ih (Core.setFull_spadOk hk)

theorem Core.spadWrite_spadOk {a : Nat} {b : List Byte} (hk : k.spadOk) : (k.spadWrite a b).spadOk :=
  ⟨Memory.write_wf _ _ _ hk.1, hk.2⟩

end

end Sys2Proof.Machine
end

/-! PROOFS. Canonical memory (O59), second part: operations, scalar instructions, events, reactions and global memory.
One lemma for each function of the model that a step goes through, in the order of the model's files: `f_memOk` when `f`
gives a state (or an outcome), `f_spadOk` when it gives a core, `f_holds` when it gives an option, `f_yields` when it is an
effect that may stop. A function that touches neither the memory, the cores' scratchpads, the directory, the cut nor the
saved cores needs only its argument's proof. -/

section
namespace Sys2Proof.Machine

section
variable {s t : State} {k : Core} {c : CoreId} {h : CtxId} {g : Guard}

/-! ### The memory of bytes -/

theorem KMap.put_savedOk {m : KMap Saved} {i : Nat} {v : Saved} (hm : ∀ w ∈ m, coresOk w.2.cores) (hv : coresOk v.cores) :
    ∀ w ∈ m.put i v, coresOk w.2.cores := by
  intro w hw
  rcases KMap.mem_put _ _ _ _ hw with h | rfl
  · exact hm w h
  · exact hv

/-! ### Shared operations -/

theorem Core.setCtx_spadOk {x : Ctx} (hk : k.spadOk) : (k.setCtx h x).spadOk := hk
theorem Core.modCtx_spadOk {f : Ctx → Ctx} (hk : k.spadOk) : (k.modCtx h f).spadOk := Core.setCtx_spadOk hk

theorem State.modCtx_memOk {f : Ctx → Ctx} (hs : s.memOk) : (s.modCtx c h f).memOk :=
  State.modCore_memOk hs (fun _ hk => Core.modCtx_spadOk hk)

theorem State.me_spadOk (hs : s.memOk) : s.me.spadOk := State.core_spadOk hs s.cur

theorem State.modMe_memOk {f : Core → Core} (hs : s.memOk) (hf : ∀ (a : Core), a.spadOk → (f a).spadOk) :
    (s.modMe f).memOk :=
  State.modCore_memOk hs (fun k hk => hf k hk)

theorem State.modCx_memOk {f : Ctx → Ctx} (hs : s.memOk) : (s.modCx f).memOk := State.modCtx_memOk hs
theorem State.draw_memOk (w : Nat) (hs : s.memOk) : (s.draw w).2.memOk := hs
theorem State.syncWith_memOk {m : KMap Nat} (hs : s.memOk) : (s.syncWith c h m).memOk := State.modCtx_memOk hs
theorem State.wsRefresh_memOk (hs : s.memOk) : s.wsRefresh.memOk := hs
theorem Core.perf_spadOk {code n : Nat} (hk : k.spadOk) : (k.perf code n).spadOk := hk

theorem Core.tick_spadOk {n : Nat} (hk : k.spadOk) : (Core.tick n k).spadOk := by
  unfold Core.tick
  split
  · exact hk
  · exact Core.others_spadOk (Core.perf_spadOk hk)

theorem State.advance_memOk {n : Nat} (hs : s.memOk) : (State.advance n s).memOk := by
  unfold State.advance
  dsimp only
  split
  · exact State.wsRefresh_memOk hs
  · exact State.mapCores_memOk (State.wsRefresh_memOk hs) (coresOk_map (State.cores_ok hs) (fun _ he => Core.tick_spadOk
      he))

theorem State.machineCheck_memOk {kind : BitVec 4} {cause : Byte} {pa : Nat} (hs : s.memOk) :
    (s.machineCheck kind c cause pa).memOk :=
  hs

theorem State.haltCore_memOk (hs : s.memOk) : (s.haltCore c).memOk := State.modCore_memOk hs (fun _ hk => hk)
theorem Core.enterTrap_spadOk {r : TrapRec} (hk : k.spadOk) : (k.enterTrap r).spadOk := Core.setCtx_spadOk hk

theorem Core.takeRec_spadOk {r : TrapRec} (hk : k.spadOk) : (k.takeRec r).spadOk := by
  unfold Core.takeRec
  split
  · exact Core.enterTrap_spadOk hk
  · split
    · exact Core.enterTrap_spadOk hk
    · exact hk

theorem State.raise_memOk {r : TrapRec} (hs : s.memOk) : (s.raise c r).memOk := by
  unfold State.raise
  split
  · exact State.machineCheck_memOk (State.modCore_memOk (State.haltCore_memOk hs) (fun _ hk => hk))
  · exact State.modCore_memOk hs (fun _ hk => Core.takeRec_spadOk hk)

theorem State.trapHere_memOk {t : TrapInfo} (hs : s.memOk) : (s.trapHere t).memOk :=
  State.raise_memOk (State.modCx_memOk hs)

theorem State.trapDeferred_memOk {q : Req} {t : TrapInfo} (hs : s.memOk) : (s.trapDeferred q t).memOk :=
  State.raise_memOk (State.modCx_memOk hs)

theorem State.trapNoCtx_memOk {cause : Byte} {faddr finfo : DWord} (hs : s.memOk) :
    (s.trapNoCtx c cause faddr finfo).memOk :=
  State.raise_memOk hs

theorem Core.serveRec_spadOk (hk : k.spadOk) : k.serveRec.spadOk := by
  unfold Core.serveRec
  split
  · exact hk
  · split
    · exact hk
    · exact Core.enterTrap_spadOk hk

theorem Core.leaveTrap_spadOk (hk : k.spadOk) : k.leaveTrap.spadOk := Core.serveRec_spadOk (Core.modCtx_spadOk hk)

theorem fault_yields {α : Type} {cause : Byte} {faddr finfo : DWord} {P : α → Prop} :
    Yields Stop.memOk P (fault (α := α) cause faddr finfo) := .error trivial

theorem waitUntil_yields {c : Bool} : Yields Stop.memOk (fun _ => True) (waitUntil c) := by
  unfold waitUntil
  split
  · exact Yields.ok trivial
  · exact Yields.error trivial

theorem check_yields {c : Bool} {cause : Byte} {faddr finfo : DWord} :
    Yields Stop.memOk (fun _ => True) (check c cause faddr finfo) := by
  unfold check
  split
  · exact Yields.ok trivial
  · exact fault_yields

theorem State.retire_memOk {len : Nat} (hs : s.memOk) : (State.retire len s).memOk :=
  State.modMe_memOk (State.modCx_memOk hs) (fun _ ha => Core.perf_spadOk ha)

theorem State.retireJump_memOk (hs : s.memOk) : s.retireJump.memOk := State.retire_memOk hs
theorem State.block_memOk (hs : s.memOk) : s.block.memOk := State.modCx_memOk hs

theorem holding_yields {b : List Byte} {r : Except Stop Unit} (hs : s.memOk) (hr : Yields Stop.memOk (fun _ => True) r) :
    Yields Stop.memOk (fun _ => True) (holding s b r) := by
  unfold holding
  split
  · exact .error (State.modCx_memOk hs)
  · exact hr

theorem State.addFeWaiter_memOk {addr n : Nat} {full : Bool} (hs : s.memOk) : (s.addFeWaiter addr n full).memOk :=
  State.modMe_memOk hs (fun _ ha => by
    split <;> exact ha)

theorem State.stopWith_memOk {e : Stop} (hs : s.memOk) (he : e.memOk) : (s.stopWith e).memOk := by
  cases e with
  | trap t => exact State.trapHere_memOk hs
  | trapIn t u => exact State.trapHere_memOk he
  | deferred q t => exact State.trapDeferred_memOk hs
  | wait => exact State.block_memOk hs
  | waitIn u => exact State.block_memOk he
  | waitFe a n full => exact State.block_memOk (State.addFeWaiter_memOk hs)

theorem State.finish_memOk {len : Nat} {r : Act} (hs : s.memOk) (hr : Yields Stop.memOk State.memOk r) :
    (s.finish len r).memOk := by
  cases hr with
  | ok ht => exact State.retire_memOk ht
  | error he => exact State.stopWith_memOk hs he

theorem instr_memOk {body : State → Act} (hbody : ∀ (a : State), a.memOk → Yields Stop.memOk State.memOk (body a))
    (hs : s.memOk) : (instr g body s).memOk := by
  unfold instr
  split
  · exact State.finish_memOk hs (hbody s hs)
  · exact State.retire_memOk hs

theorem instrC_memOk {body : State → Act} (hbody : ∀ (a : State), a.memOk → Yields Stop.memOk State.memOk (body a))
    (hs : s.memOk) : (instrC body s).memOk :=
  State.finish_memOk hs (hbody s hs)

theorem instrJump_memOk {body : State → Act} (hs : s.memOk)
    (hbody : ∀ s, s.memOk → Yields Stop.memOk State.memOk (body s)) : (instrJump body s).memOk := by
  have hr := hbody s hs
  unfold instrJump
  split
  · next heq => exact State.retireJump_memOk (Yields.ok_of_eq heq hr)
  · next heq => exact State.stopWith_memOk hs (Yields.error_of_eq heq hr)

theorem State.regReady_yields {r : Reg} : Yields Stop.memOk (fun _ => True) (s.regReady r) := by
  unfold State.regReady
  split
  · exact Yields.ok trivial
  · split <;> exact Yields.error trivial

theorem State.rdX_yields {r : Reg} : Yields Stop.memOk (fun _ => True) (s.rdX r) :=
  .bind State.regReady_yields fun _ _ => Yields.ok trivial

theorem State.putX_memOk {r : Reg} {v : DWord} (hs : s.memOk) : (s.putX r v).memOk := State.modCx_memOk hs

theorem State.wrX_yields {r : Reg} {v : DWord} (hs : s.memOk) : Yields Stop.memOk State.memOk (s.wrX r v) :=
  .bind State.regReady_yields fun _ _ => Yields.ok (State.putX_memOk hs)

theorem State.putP_memOk {p : PReg} {v : Word} (hs : s.memOk) : (s.putP p v).memOk := State.modCx_memOk hs
theorem State.putF_memOk {r : Reg} {v : DWord} (hs : s.memOk) : (s.putF r v).memOk := State.modCx_memOk hs
theorem State.putV_memOk {r : Reg} {v : Vec} (hs : s.memOk) : (s.putV r v).memOk := State.modCx_memOk hs
theorem State.orFlags_memOk {fl : BitVec 5} (hs : s.memOk) : (s.orFlags fl).memOk := State.modCx_memOk hs

theorem State.setSat_memOk {b : Bool} (hs : s.memOk) : (s.setSat b).memOk := by
  unfold State.setSat
  split
  · exact State.modMe_memOk hs (fun _ ha => ha)
  · exact hs

theorem State.memGate_yields : Yields Stop.memOk (fun _ => True) s.memGate := by
  unfold State.memGate
  split
  · split <;> exact Yields.error trivial
  · exact waitUntil_yields

theorem State.syncPoint_yields : Yields Stop.memOk (fun _ => True) s.syncPoint := by
  unfold State.syncPoint
  split
  · split
    · exact Yields.error trivial
    · exact Yields.ok trivial
  · exact Yields.ok trivial

theorem State.allPerformed_yields {scope : Nat} : Yields Stop.memOk (fun _ => True) (s.allPerformed scope) :=
  .bind State.syncPoint_yields fun _ _ => waitUntil_yields

theorem State.relWait_yields : Yields Stop.memOk (fun _ => True) s.relWait := waitUntil_yields
theorem State.replyRoom_yields : Yields Stop.memOk (fun _ => True) s.replyRoom := waitUntil_yields
theorem State.post_memOk {q : Req} (hs : s.memOk) : (s.post q).memOk := State.modCx_memOk hs
theorem Core.noteFull_spadOk {a n : Nat} {m : KMap Nat} (hk : k.spadOk) : (k.noteFull a n m).spadOk := hk

theorem spadCheck_yields {a : DWord} {n align : Nat} : Yields Stop.memOk (fun _ => True) (spadCheck a n align) :=
  .bind check_yields fun _ _ => .bind check_yields fun _ _ => Yields.ok trivial

theorem spadEA_yields {a : DWord} {n : Nat} : Yields Stop.memOk (fun _ => True) (spadEA a n) := spadCheck_yields
theorem State.spadSound_yields {a n : Nat} : Yields Stop.memOk (fun _ => True) (s.spadSound a n) := check_yields

theorem State.spadSeen_memOk {a n : Nat} (hs : s.memOk) : (s.spadSeen a n).memOk := by
  unfold State.spadSeen
  dsimp only
  split
  · exact hs
  · exact State.modCx_memOk hs

theorem State.spadPutBytes_memOk {a : Nat} {b : List Byte} (hs : s.memOk) : (s.spadPutBytes a b).memOk :=
  State.modMe_memOk hs (fun _ ha => by
    split
    · exact Core.others_spadOk (Core.spadWrite_spadOk ha)
    · exact Core.spadWrite_spadOk ha)

theorem State.spadPut_memOk {a n v : Nat} (hs : s.memOk) : (s.spadPut a n v).memOk := State.spadPutBytes_memOk hs

theorem State.outside_memOk {pa : Nat} {bytes : List Byte} (hs : s.memOk) : (s.outside pa bytes).memOk := by
  unfold State.outside
  split
  · exact State.others_memOk (State.withMem_memOk hs (Memory.write_wf s.mem pa bytes (State.mem_wf hs)))
  · exact hs

/-! ### Scalar instructions -/

theorem op2_yields {f : DWord → DWord → DWord} {d a b : Reg} (hs : s.memOk) :
    Yields Stop.memOk State.memOk (op2 f d a b s) :=
  .bind State.rdX_yields fun _ _ => .bind State.rdX_yields fun _ _ => State.wrX_yields hs

theorem instr_op2_memOk {f : DWord → DWord → DWord} {d a b : Reg} (hs : s.memOk) : (instr g (op2 f d a b) s).memOk :=
  instr_memOk (fun _ ha => op2_yields ha) hs

theorem op1_yields {f : DWord → DWord} {d a : Reg} (hs : s.memOk) : Yields Stop.memOk State.memOk (op1 f d a s) :=
  .bind State.rdX_yields fun _ _ => State.wrX_yields hs

theorem instr_op1_memOk {f : DWord → DWord} {d a : Reg} (hs : s.memOk) : (instr g (op1 f d a) s).memOk :=
  instr_memOk (fun _ ha => op1_yields ha) hs

theorem execAdd_memOk {d a b : Reg} (hs : s.memOk) : (execAdd g d a b s).memOk := instr_op2_memOk hs
theorem execSub_memOk {d a b : Reg} (hs : s.memOk) : (execSub g d a b s).memOk := instr_op2_memOk hs
theorem execAndR_memOk {d a b : Reg} (hs : s.memOk) : (execAndR g d a b s).memOk := instr_op2_memOk hs
theorem execOrR_memOk {d a b : Reg} (hs : s.memOk) : (execOrR g d a b s).memOk := instr_op2_memOk hs
theorem execXor_memOk {d a b : Reg} (hs : s.memOk) : (execXor g d a b s).memOk := instr_op2_memOk hs
theorem execAndn_memOk {d a b : Reg} (hs : s.memOk) : (execAndn g d a b s).memOk := instr_op2_memOk hs
theorem execMinS_memOk {d a b : Reg} (hs : s.memOk) : (execMinS g d a b s).memOk := instr_op2_memOk hs
theorem execMaxS_memOk {d a b : Reg} (hs : s.memOk) : (execMaxS g d a b s).memOk := instr_op2_memOk hs
theorem execMinu_memOk {d a b : Reg} (hs : s.memOk) : (execMinu g d a b s).memOk := instr_op2_memOk hs
theorem execMaxu_memOk {d a b : Reg} (hs : s.memOk) : (execMaxu g d a b s).memOk := instr_op2_memOk hs
theorem execShl_memOk {d a b : Reg} (hs : s.memOk) : (execShl g d a b s).memOk := instr_op2_memOk hs
theorem execShr_memOk {d a b : Reg} (hs : s.memOk) : (execShr g d a b s).memOk := instr_op2_memOk hs
theorem execSra_memOk {d a b : Reg} (hs : s.memOk) : (execSra g d a b s).memOk := instr_op2_memOk hs
theorem execRol_memOk {d a b : Reg} (hs : s.memOk) : (execRol g d a b s).memOk := instr_op2_memOk hs
theorem execRor_memOk {d a b : Reg} (hs : s.memOk) : (execRor g d a b s).memOk := instr_op2_memOk hs
theorem execMul_memOk {d a b : Reg} (hs : s.memOk) : (execMul g d a b s).memOk := instr_op2_memOk hs
theorem execMulhiS_memOk {d a b : Reg} (hs : s.memOk) : (execMulhiS g d a b s).memOk := instr_op2_memOk hs
theorem execMulhiU_memOk {d a b : Reg} (hs : s.memOk) : (execMulhiU g d a b s).memOk := instr_op2_memOk hs
theorem execMulhiSu_memOk {d a b : Reg} (hs : s.memOk) : (execMulhiSu g d a b s).memOk := instr_op2_memOk hs
theorem execDiv_memOk {d a b : Reg} (hs : s.memOk) : (execDiv g d a b s).memOk := instr_op2_memOk hs
theorem execDivu_memOk {d a b : Reg} (hs : s.memOk) : (execDivu g d a b s).memOk := instr_op2_memOk hs
theorem execRem_memOk {d a b : Reg} (hs : s.memOk) : (execRem g d a b s).memOk := instr_op2_memOk hs
theorem execRemu_memOk {d a b : Reg} (hs : s.memOk) : (execRemu g d a b s).memOk := instr_op2_memOk hs
theorem execAddw_memOk {d a b : Reg} (hs : s.memOk) : (execAddw g d a b s).memOk := instr_op2_memOk hs
theorem execSubw_memOk {d a b : Reg} (hs : s.memOk) : (execSubw g d a b s).memOk := instr_op2_memOk hs
theorem execMulw_memOk {d a b : Reg} (hs : s.memOk) : (execMulw g d a b s).memOk := instr_op2_memOk hs
theorem execShlw_memOk {d a b : Reg} (hs : s.memOk) : (execShlw g d a b s).memOk := instr_op2_memOk hs
theorem execShrw_memOk {d a b : Reg} (hs : s.memOk) : (execShrw g d a b s).memOk := instr_op2_memOk hs
theorem execSraw_memOk {d a b : Reg} (hs : s.memOk) : (execSraw g d a b s).memOk := instr_op2_memOk hs
theorem execDivw_memOk {d a b : Reg} (hs : s.memOk) : (execDivw g d a b s).memOk := instr_op2_memOk hs
theorem execRemw_memOk {d a b : Reg} (hs : s.memOk) : (execRemw g d a b s).memOk := instr_op2_memOk hs
theorem execMov_memOk {d a : Reg} (hs : s.memOk) : (execMov g d a s).memOk := instr_op1_memOk hs
theorem execClz_memOk {d a : Reg} (hs : s.memOk) : (execClz g d a s).memOk := instr_op1_memOk hs
theorem execCtz_memOk {d a : Reg} (hs : s.memOk) : (execCtz g d a s).memOk := instr_op1_memOk hs
theorem execPopc_memOk {d a : Reg} (hs : s.memOk) : (execPopc g d a s).memOk := instr_op1_memOk hs
theorem execSextB_memOk {d a : Reg} (hs : s.memOk) : (execSextB g d a s).memOk := instr_op1_memOk hs
theorem execSextH_memOk {d a : Reg} (hs : s.memOk) : (execSextH g d a s).memOk := instr_op1_memOk hs
theorem execSextW_memOk {d a : Reg} (hs : s.memOk) : (execSextW g d a s).memOk := instr_op1_memOk hs
theorem execZextH_memOk {d a : Reg} (hs : s.memOk) : (execZextH g d a s).memOk := instr_op1_memOk hs
theorem execZextW_memOk {d a : Reg} (hs : s.memOk) : (execZextW g d a s).memOk := instr_op1_memOk hs
theorem execLea_memOk {d a b : Reg} {c : Fin 8} (hs : s.memOk) : (execLea g d a b c s).memOk := instr_op2_memOk hs
theorem execAddi_memOk {d a : Reg} {imm : Int} (hs : s.memOk) : (execAddi g d a imm s).memOk := instr_op1_memOk hs
theorem execAndi_memOk {d a : Reg} {imm : Int} (hs : s.memOk) : (execAndi g d a imm s).memOk := instr_op1_memOk hs
theorem execOri_memOk {d a : Reg} {imm : Int} (hs : s.memOk) : (execOri g d a imm s).memOk := instr_op1_memOk hs
theorem execXori_memOk {d a : Reg} {imm : Int} (hs : s.memOk) : (execXori g d a imm s).memOk := instr_op1_memOk hs
theorem execShli_memOk {d a : Reg} {imm : Nat} (hs : s.memOk) : (execShli g d a imm s).memOk := instr_op1_memOk hs
theorem execShri_memOk {d a : Reg} {imm : Nat} (hs : s.memOk) : (execShri g d a imm s).memOk := instr_op1_memOk hs
theorem execSrai_memOk {d a : Reg} {imm : Nat} (hs : s.memOk) : (execSrai g d a imm s).memOk := instr_op1_memOk hs
theorem execRoli_memOk {d a : Reg} {imm : Nat} (hs : s.memOk) : (execRoli g d a imm s).memOk := instr_op1_memOk hs

theorem execLdi_memOk {d : Reg} {imm : Int} (hs : s.memOk) : (execLdi d imm s).memOk :=
  instr_memOk (fun _ ha => State.wrX_yields ha) hs

theorem execSeth_memOk {d : Reg} {imm16 : Half} {pos : Fin 4} (hs : s.memOk) : (execSeth d imm16 pos s).memOk :=
  instr_memOk (fun _ ha => op1_yields ha) hs

theorem execAddC_memOk {d a : Reg} (hs : s.memOk) : (execAddC d a s).memOk :=
  instrC_memOk (fun _ ha => op2_yields ha) hs

theorem execSubC_memOk {d a : Reg} (hs : s.memOk) : (execSubC d a s).memOk :=
  instrC_memOk (fun _ ha => op2_yields ha) hs

theorem execAndC_memOk {d a : Reg} (hs : s.memOk) : (execAndC d a s).memOk :=
  instrC_memOk (fun _ ha => op2_yields ha) hs

theorem execOrC_memOk {d a : Reg} (hs : s.memOk) : (execOrC d a s).memOk := instrC_memOk (fun _ ha => op2_yields ha) hs

theorem execXorC_memOk {d a : Reg} (hs : s.memOk) : (execXorC d a s).memOk :=
  instrC_memOk (fun _ ha => op2_yields ha) hs

theorem execMovC_memOk {d a : Reg} (hs : s.memOk) : (execMovC d a s).memOk :=
  instrC_memOk (fun _ ha => op1_yields ha) hs

theorem execAddiC_memOk {d : Reg} {imm : Int} (hs : s.memOk) : (execAddiC d imm s).memOk :=
  instrC_memOk (fun _ ha => op1_yields ha) hs

theorem execLdiC_memOk {d : Reg} {imm : Int} (hs : s.memOk) : (execLdiC d imm s).memOk :=
  instrC_memOk (fun _ ha => State.wrX_yields ha) hs

theorem execShliC_memOk {d : Reg} {imm : Nat} (hs : s.memOk) : (execShliC d imm s).memOk :=
  instrC_memOk (fun _ ha => op1_yields ha) hs

theorem execShriC_memOk {d : Reg} {imm : Nat} (hs : s.memOk) : (execShriC d imm s).memOk :=
  instrC_memOk (fun _ ha => op1_yields ha) hs

theorem execSraiC_memOk {d : Reg} {imm : Nat} (hs : s.memOk) : (execSraiC d imm s).memOk :=
  instrC_memOk (fun _ ha => op1_yields ha) hs

theorem execAndiC_memOk {d : Reg} {imm : Int} (hs : s.memOk) : (execAndiC d imm s).memOk :=
  instrC_memOk (fun _ ha => op1_yields ha) hs

/-! ### Floating point -/

theorem fop2_yields {op : RM → Nat → Nat → FRes} {d a b : Reg} (hs : s.memOk) :
    Yields Stop.memOk State.memOk (fop2 op d a b s) :=
  Yields.ok (State.orFlags_memOk (State.putF_memOk hs))

theorem instr_fop2_memOk {op : RM → Nat → Nat → FRes} {d a b : Reg} (hs : s.memOk) : (instr g (fop2 op d a b) s).memOk :=
  instr_memOk (fun _ ha => fop2_yields ha) hs

theorem execFadd_memOk {d a b : Reg} (hs : s.memOk) : (execFadd g d a b s).memOk := instr_fop2_memOk hs
theorem execFsub_memOk {d a b : Reg} (hs : s.memOk) : (execFsub g d a b s).memOk := instr_fop2_memOk hs
theorem execFmul_memOk {d a b : Reg} (hs : s.memOk) : (execFmul g d a b s).memOk := instr_fop2_memOk hs
theorem execFdiv_memOk {d a b : Reg} (hs : s.memOk) : (execFdiv g d a b s).memOk := instr_fop2_memOk hs
theorem execFmin_memOk {d a b : Reg} (hs : s.memOk) : (execFmin g d a b s).memOk := instr_fop2_memOk hs
theorem execFmax_memOk {d a b : Reg} (hs : s.memOk) : (execFmax g d a b s).memOk := instr_fop2_memOk hs
theorem execFsqrt_memOk {d a : Reg} (hs : s.memOk) : (execFsqrt g d a s).memOk := instr_fop2_memOk hs

theorem execFsgn_memOk {d a b : Reg} (hs : s.memOk) : (execFsgn g d a b s).memOk :=
  instr_memOk (fun _ ha => Yields.ok (State.putF_memOk ha)) hs

theorem execFma_memOk {d a b : Reg} (hs : s.memOk) : (execFma g d a b s).memOk :=
  instr_memOk (fun _ ha => fop2_yields ha) hs

theorem execFms_memOk {d a b : Reg} (hs : s.memOk) : (execFms g d a b s).memOk :=
  instr_memOk (fun _ ha => fop2_yields ha) hs

theorem execFabs_memOk {d a : Reg} (hs : s.memOk) : (execFabs g d a s).memOk :=
  instr_memOk (fun _ ha => Yields.ok (State.putF_memOk ha)) hs

theorem execFneg_memOk {d a : Reg} (hs : s.memOk) : (execFneg g d a s).memOk :=
  instr_memOk (fun _ ha => Yields.ok (State.putF_memOk ha)) hs

theorem fromInt_yields {mode : FcvtMode} {f : DWord → Int} {d a : Reg} (hs : s.memOk) :
    Yields Stop.memOk State.memOk (fromInt mode f d a s) :=
  .bind State.rdX_yields fun _ _ => Yields.ok (State.orFlags_memOk (State.putF_memOk hs))

theorem toInteger_yields {mode : FcvtMode} {lo hi : Int} {d a : Reg} (hs : s.memOk) :
    Yields Stop.memOk State.memOk (toInteger mode lo hi d a s) :=
  .bind (State.wrX_yields hs) fun _ ht => Yields.ok (State.orFlags_memOk ht)

theorem execFcvtXf_memOk {d a : Reg} {mode : FcvtMode} (hs : s.memOk) : (execFcvtXf g d a mode s).memOk :=
  instr_memOk (fun _ ha => fromInt_yields ha) hs

theorem execFcvtUf_memOk {d a : Reg} {mode : FcvtMode} (hs : s.memOk) : (execFcvtUf g d a mode s).memOk :=
  instr_memOk (fun _ ha => fromInt_yields ha) hs

theorem execFcvtFx_memOk {d a : Reg} {mode : FcvtMode} (hs : s.memOk) : (execFcvtFx g d a mode s).memOk :=
  instr_memOk (fun _ ha => toInteger_yields ha) hs

theorem execFcvtFu_memOk {d a : Reg} {mode : FcvtMode} (hs : s.memOk) : (execFcvtFu g d a mode s).memOk :=
  instr_memOk (fun _ ha => toInteger_yields ha) hs

theorem execFmvxf_memOk {d a : Reg} (hs : s.memOk) : (execFmvxf g d a s).memOk :=
  instr_memOk (fun _ ha => State.wrX_yields ha) hs

theorem execFmvfx_memOk {d a : Reg} (hs : s.memOk) : (execFmvfx g d a s).memOk :=
  instr_memOk (fun _ ha => .bind State.rdX_yields fun _ _ => Yields.ok (State.putF_memOk ha)) hs

theorem execFkind_memOk {d a : Reg} (hs : s.memOk) : (execFkind g d a s).memOk :=
  instr_memOk (fun _ ha => State.wrX_yields ha) hs

/-! ### Translation -/

theorem State.tlbFill_memOk {e : TlbEnt} (hs : s.memOk) : (s.tlbFill c e).memOk :=
  State.modCore_memOk hs (fun _ hk => hk)

theorem State.xlate_memOk {va : Nat} (hs : s.memOk) : (s.xlate c va).2.memOk := by
  unfold State.xlate
  split
  · exact State.tlbFill_memOk hs
  · exact hs
  · split
    · exact hs
    · split
      · exact State.draw_memOk 1 hs
      · exact State.tlbFill_memOk (State.draw_memOk 1 hs)
  · split <;> exact State.draw_memOk 1 hs

theorem State.pageCheck_memOk {va : DWord} {k : Access} (hs : s.memOk) : (s.pageCheck c va k).2.memOk := by
  unfold State.pageCheck
  dsimp only
  split
  · next heq =>
    exact snd_of_eq heq (State.xlate_memOk hs)
  · next heq =>
    split
    · exact snd_of_eq heq (State.xlate_memOk hs)
    · split <;> exact snd_of_eq heq (State.xlate_memOk hs)

theorem State.globalCheck_memOk {va : DWord} {align : Nat} {k : Access} (hs : s.memOk) :
    (s.globalCheck c va align k).2.memOk := by
  unfold State.globalCheck
  split
  · exact hs
  · split
    · exact hs
    · exact State.pageCheck_memOk hs

theorem State.globalEA_yields {va : DWord} {align : Nat} {k : Access} (hs : s.memOk) :
    Yields Stop.memOk (fun r => r.2.memOk) (s.globalEA va align k) := by
  unfold State.globalEA
  split
  · next heq =>
    exact Yields.ok (snd_of_eq heq (State.globalCheck_memOk hs))
  · next heq =>
    exact Yields.error (snd_of_eq heq (State.globalCheck_memOk hs))

/-! ### Writers -/

theorem State.cowPage_memOk {p : Nat} (hs : s.memOk) : (s.cowPage p).memOk := by
  unfold State.cowPage
  split
  · next q hq =>
    exact State.mk_memOk (Memory.write_wf _ _ _ (State.mem_wf hs)) (State.dir_rises hs)
      (.some (State.cut_memOk hs hq : q.memOk)) (State.cores_ok hs) (State.saved_coresOk hs)
  · exact hs

theorem State.cowMark_memOk {pa n : Nat} (hs : s.memOk) : (s.cowMark pa n).memOk := by
  unfold State.cowMark
  split
  · split
    · exact foldl_keeps hs (fun _ ht _ => State.cowPage_memOk ht)
    · exact hs
  · exact hs

theorem State.memWrite_memOk {w : Writer} {pa : Nat} {b : List Byte} (hs : s.memOk) : (s.memWrite w pa b).memOk :=
  have hmark : (s.cowMark pa b.length).memOk := State.cowMark_memOk hs
  State.others_memOk (State.withMem_memOk hmark (Memory.write_wf _ pa b (State.mem_wf hmark)))

theorem State.acquireFrom_memOk {scope : Nat} {r : Option (Nat × Write)} (hs : s.memOk) :
    (s.acquireFrom c h scope r).memOk :=
    by
  unfold State.acquireFrom
  split
  · exact hs
  · exact State.syncWith_memOk hs

theorem State.hasRead_memOk {pa : Nat} {r : Option (Nat × Write)} (hs : s.memOk) : (s.hasRead c h pa r).memOk := by
  unfold State.hasRead
  split
  · exact hs
  · exact State.modCtx_memOk hs

theorem State.observe_memOk {pa n : Nat} (hs : s.memOk) : (s.observe c h pa n).2.2.memOk := by
  unfold State.observe
  dsimp only
  split
  · exact State.hasRead_memOk (State.draw_memOk 64 hs)
  · exact State.hasRead_memOk hs

theorem State.sawNow_memOk {pa : Nat} (hs : s.memOk) : (s.sawNow c h pa).memOk := State.modCtx_memOk hs
theorem State.acquireObs_memOk {scope : Nat} (hs : s.memOk) : (s.acquireObs c h scope).memOk := State.syncWith_memOk hs

/-! ### Fetching -/

theorem State.codeFill_memOk {line : Nat} (hs : s.memOk) : (s.codeFill c line).memOk := by
  unfold State.codeFill
  dsimp only
  split
  · exact State.modCore_memOk hs (fun _ hk => hk)
  · exact State.modCore_memOk (State.draw_memOk 12 hs) (fun _ hk => hk)

theorem State.codeHalf_memOk {pa : Nat} (hs : s.memOk) : (s.codeHalf c pa).2.memOk := by
  unfold State.codeHalf
  dsimp only
  split
  · exact State.codeFill_memOk hs
  · split
    · exact hs
    · split
      · exact State.draw_memOk 1 hs
      · exact State.codeFill_memOk (State.draw_memOk 1 hs)

theorem State.fetchHalf_memOk {va : DWord} (hs : s.memOk) : (s.fetchHalf c va).2.memOk := by
  unfold State.fetchHalf
  split
  · next heq =>
    exact snd_of_eq heq (State.globalCheck_memOk hs)
  · next heq =>
    split
    · exact snd_of_eq heq (State.globalCheck_memOk hs)
    · split
      · exact snd_of_eq heq (State.globalCheck_memOk hs)
      · exact State.codeHalf_memOk (snd_of_eq heq (State.globalCheck_memOk hs))

theorem State.fetchHalves_memOk {va : DWord} {n : Nat} (hs : s.memOk) : (s.fetchHalves c va n).2.2.memOk := by
  induction n generalizing s va with
  | zero => exact hs
  | succ n ih =>
    unfold State.fetchHalves
    split
    · next heq => exact snd_of_eq heq (State.fetchHalf_memOk hs)
    · next heq => exact ih (snd_of_eq heq (State.fetchHalf_memOk hs))

theorem State.prefetch_memOk {b : BReg} (hs : s.memOk) : (s.prefetch c b).2.memOk := by
  unfold State.prefetch
  split
  · exact hs
  · split
    · exact hs
    · exact State.fetchHalves_memOk hs

theorem State.finishPrefetch_memOk {n : Fin 8} (hs : s.memOk) : (s.finishPrefetch c h n).memOk :=
  State.modCtx_memOk (State.prefetch_memOk hs)

theorem State.nextHalf_memOk {va : DWord} (hs : s.memOk) : (s.nextHalf c h va).2.memOk := by
  unfold State.nextHalf
  split
  · exact State.fetchHalf_memOk hs
  · split
    · exact hs
    · split
      · next heq1 =>
        split
        · exact snd_of_eq heq1 (State.fetchHalf_memOk hs)
        · split <;> exact State.draw_memOk 1 (snd_of_eq heq1 (State.fetchHalf_memOk hs))
      · next heq1 =>
        split <;> exact State.draw_memOk 1 (snd_of_eq heq1 (State.fetchHalf_memOk hs))

theorem State.fetchInstr_memOk (hs : s.memOk) : (s.fetchInstr c h).2.memOk := by
  unfold State.fetchInstr
  dsimp only
  split
  · next heq =>
    exact snd_of_eq heq (State.nextHalf_memOk hs)
  · next heq =>
    split
    · split
      all_goals
        next heq2 =>
        exact snd_of_eq heq2 (State.nextHalf_memOk (snd_of_eq heq (State.nextHalf_memOk hs)))
    · exact snd_of_eq heq (State.nextHalf_memOk hs)

theorem State.fillQueue_memOk (hs : s.memOk) : (s.fillQueue c h).memOk := by
  unfold State.fillQueue
  dsimp only
  split
  · exact hs
  · split
    · exact hs
    · split
      · exact hs
      · exact State.modCtx_memOk hs

theorem State.select_memOk (hs : s.memOk) : (s.select c h).memOk := State.modCore_memOk hs (fun _ hk => hk)

/-! ### Events -/

theorem State.transmit_memOk {came : Option (Fin 8)} {dst : BitVec 20} {p : Packet} (hs : s.memOk) :
    (s.transmit came dst p).memOk :=
  hs

theorem State.emit_memOk {dst : BitVec 20} {enc : Bool} {req : Option (CoreId × CtxId × Nat)} {body : PBody}
    {seen : KMap Nat} {eng : Option Nat} (hs : s.memOk) : (s.emit dst enc req body seen eng).memOk :=
  State.others_memOk (State.transmit_memOk hs)

theorem State.emitEvent_memOk {e : Ev} {seen : KMap Nat} (hs : s.memOk) : (s.emitEvent e seen).memOk :=
  State.emit_memOk (foldl_keeps hs (fun _ ht _ => State.emit_memOk ht))

theorem State.launchEvent_memOk {e : Ev} {seen : KMap Nat} (hs : s.memOk) : (s.launchEvent c e seen).memOk := by
  unfold State.launchEvent
  split
  · exact hs
  · split
    · exact hs
    · exact State.emitEvent_memOk hs

theorem State.releaseHeld_memOk (hs : s.memOk) : s.releaseHeld.memOk :=
  foldl_keeps hs (fun _ ht _ => State.launchEvent_memOk ht)

theorem State.takeSeq_memOk (hs : s.memOk) : (s.takeSeq c).2.memOk := State.modCore_memOk hs (fun _ hk => hk)

theorem State.makeEvent_memOk {dest : DWord} {tag : Tag} {payload : Payload} {ctl : Bool} (hs : s.memOk) :
    (s.makeEvent c dest tag payload ctl).2.memOk :=
  State.takeSeq_memOk hs

theorem State.bounce_memOk {e : Ev} {orig : Option Ev} (hs : s.memOk) : (s.bounce c e orig).memOk :=
  State.launchEvent_memOk (State.makeEvent_memOk hs)

theorem State.faultEvent_memOk {dest : CoreId} {cause : Byte} (hs : s.memOk) : (s.faultEvent c dest cause h).memOk :=
  State.launchEvent_memOk (State.makeEvent_memOk hs)

theorem Core.dropBlock_spadOk {b : Option Nat} (hk : k.spadOk) : (k.dropBlock b).spadOk := by
  unfold Core.dropBlock
  split <;> exact hk

theorem Core.deliver_spadOk {a : Nat} {bytes : List Byte} {seen : KMap Nat} (hk : k.spadOk) :
    (k.deliver a bytes seen).spadOk :=
  Core.setFulls_spadOk (Core.noteFull_spadOk (Core.spadWrite_spadOk hk))

theorem State.ringWrite_memOk {b : List Byte} (hs : s.memOk) : (s.ringWrite c b).memOk :=
  State.memWrite_memOk (State.draw_memOk 64 hs)

theorem State.discardStale_memOk {e : Ev} {orig : Option Ev} (hs : s.memOk) : (s.discardStale c e orig).memOk := by
  unfold State.discardStale
  dsimp only
  split
  · exact State.trapNoCtx_memOk (by
      split
      · exact State.bounce_memOk (State.modCore_memOk hs (fun _ hk => Core.perf_spadOk hk))
      · exact State.modCore_memOk hs (fun _ hk => Core.perf_spadOk hk))
  · split
    · exact State.bounce_memOk (State.modCore_memOk hs (fun _ hk => Core.perf_spadOk hk))
    · exact State.modCore_memOk hs (fun _ hk => Core.perf_spadOk hk)

theorem Core.spillLive_spadOk (hk : k.spadOk) : k.spillLive.spadOk := by
  unfold Core.spillLive
  split
  · exact Core.modCtx_spadOk hk
  · exact hk

/-- A core whose inbox an event has entered. -/
theorem Core.enterInbox_spadOk {e : InEv} (hk : k.spadOk) :
    Core.spadOk (match e.ev.payload with
      | .block b => match k.freeBlock with
        | some i => { k with blkUsed := insertNat k.blkUsed i, inbox := k.inbox ++ [{ e with block := some i }] }.deliver
            (k.blockAddr i) b
        | none => { k with inbox := k.inbox ++ [e] }
      | _ => { k with inbox := k.inbox ++ [e] }) := by
  split
  · split
    · exact Core.deliver_spadOk hk
    · exact hk
  · exact hk

theorem State.place_memOk {e : InEv} {key : Tag × DWord × Word} {accepted : Bool} (hs : s.memOk) :
    (s.place c e key accepted).memOk := by
  unfold State.place
  extract_lets k k1 k2 log k3 s1
  have h1 : k1.spadOk := Core.enterInbox_spadOk (State.core_spadOk hs c)
  have h2 : k2.spadOk := by
    unfold k2
    split <;> exact h1
  have h3 : k3.spadOk := by
    unfold k3
    split <;> exact h2
  have hs1 : s1.memOk := by
    refine State.setCore_memOk hs (Core.spillLive_spadOk ?_)
    split
    · exact Core.perf_spadOk h3
    · exact h3
  split
  · exact State.ringWrite_memOk hs1
  · exact hs1

theorem State.enter_memOk {a : Arrival} (hs : s.memOk) : (s.enter c a).memOk := by
  unfold State.enter
  extract_lets k bex s1 s2 ev e s3 rec_ slot
  have h1 : s1.memOk := by
    unfold s1
    split
    · exact State.modCore_memOk hs (fun _ hk => Core.perf_spadOk hk)
    · exact hs
  have h2 : s2.memOk := by
    unfold s2
    split
    · exact State.trapNoCtx_memOk h1
    · exact h1
  have h3 : s3.memOk := State.modCore_memOk h2 (fun _ hk => Core.perf_spadOk hk)
  split
  · exact State.place_memOk hs
  · split
    · exact hs
    · split
      · exact State.discardStale_memOk hs
      · split
        · split
          · exact State.place_memOk h3
          · exact State.trapNoCtx_memOk (State.modCore_memOk h3 (fun _ hk => hk))
        · exact State.place_memOk h2

theorem State.arrive_memOk {e : Ev} {cls : RouteClass} {pool : Option Nat} {seen : KMap Nat} (hs : s.memOk) :
    (s.arrive c e cls pool seen).memOk := by
  unfold State.arrive
  dsimp only
  split
  · exact State.bounce_memOk hs
  · split
    · exact State.enter_memOk hs
    · exact State.modCore_memOk hs (fun _ hk => hk)

theorem Core.removeIn_spadOk {i : Nat} (hk : k.spadOk) : (k.removeIn i).spadOk := hk
theorem State.modCounter_memOk {n : Nat} {f : Counter → Counter} (hs : s.memOk) : (s.modCounter n f).memOk := hs

theorem State.deliverForm_memOk {form : DWord} {ident : Nat} {die : Fin 4} {seen : KMap Nat} (hs : s.memOk) :
    (s.deliverForm form ident die seen).memOk := by
  unfold State.deliverForm
  split
  · exact State.launchEvent_memOk (State.makeEvent_memOk hs)
  · exact hs
  · exact State.others_memOk (State.memWrite_memOk hs)
  · exact hs

theorem Core.purgeHeap_spadOk {l : Nat} (hk : k.spadOk) : (k.purgeHeap l).spadOk := hk

theorem Core.endLaunch_spadOk {l : Nat} (hk : k.spadOk) : (k.endLaunch l).spadOk :=
  foldl_keeps (Core.others_spadOk (Core.purgeHeap_spadOk hk)) (fun _ hk1 _ => Core.dropBlock_spadOk hk1)

theorem State.writeResult_memOk {r : Nat × DWord} (hs : s.memOk) : (s.writeResult r).memOk := by
  unfold State.writeResult
  split
  · exact State.memWrite_memOk hs
  · exact hs

theorem State.endLaunch_memOk {l : Nat} (hs : s.memOk) : (s.endLaunch l).memOk := by
  unfold State.endLaunch
  dsimp only
  split
  · exact hs
  · exact State.mapCores_memOk (foldl_keeps (foldl_keeps hs (fun _ ht _ => by
      split
      · exact ht
      · exact State.modCore_memOk ht (fun _ hk1 => Core.endLaunch_spadOk hk1))) (fun _ ht _ => State.writeResult_memOk
          ht)) (coresOk_map (State.cores_ok (foldl_keeps (foldl_keeps hs (fun _ ht _ => by
      split
      · exact ht
      · exact State.modCore_memOk ht (fun _ hk1 => Core.endLaunch_spadOk hk1))) (fun _ ht _ => State.writeResult_memOk
          ht))) (fun _ he => Core.others_spadOk he))

theorem State.deliver_memOk {n f : Nat} (hs : s.memOk) : (s.deliver n f).memOk := by
  induction f generalizing s n with
  | zero => exact hs
  | succ f ih =>
    unfold State.deliver
    extract_lets c s1 s2 s3
    have h2 : s2.memOk := State.deliverForm_memOk (State.modCounter_memOk hs)
    have h3 : s3.memOk := by
      unfold s3
      split
      · exact State.endLaunch_memOk h2
      · exact h2
    split
    · exact h3
    · extract_lets s4 q s5
      have h4 : s4.memOk := State.modCounter_memOk h3
      have h5 : s5.memOk := State.modCounter_memOk h4
      split
      · split
        · exact h4
        · exact h5
      · split
        · exact State.modCounter_memOk h4
        · split
          · exact ih h5
          · exact h5

theorem State.decCounter_memOk {n : Nat} {seen : KMap Nat} (hs : s.memOk) : (s.decCounter n seen).memOk := by
  unfold State.decCounter
  dsimp only
  split
  · split
    · exact State.modCounter_memOk hs
    · exact State.modCounter_memOk (State.modCounter_memOk hs)
  · split
    · exact State.modCounter_memOk (State.modCounter_memOk hs)
    · split
      · exact State.deliver_memOk (State.modCounter_memOk (State.modCounter_memOk hs))
      · exact State.modCounter_memOk (State.modCounter_memOk hs)

theorem State.cancelled_memOk (hs : s.memOk) : s.cancelled.memOk := by
  unfold State.cancelled
  dsimp only
  exact foldl_keeps hs (fun _ ht _ => by
    split
    · exact State.deliver_memOk ht
    · exact ht)

theorem State.cancelCounter_memOk {n : Nat} (hs : s.memOk) : (s.cancelCounter n).memOk := by
  unfold State.cancelCounter
  split
  · exact hs
  · exact State.cancelled_memOk hs

theorem Core.unlog_spadOk {evs : List (Ev × RouteClass)} (hk : k.spadOk) : (k.unlog evs).spadOk := by
  unfold Core.unlog
  split <;> exact hk

theorem Core.unlogUnit_spadOk {r : Run} (hk : k.spadOk) : (k.unlogUnit r).spadOk := hk
theorem Core.unlogPool_spadOk {e : InEv} (hk : k.spadOk) : (k.unlogPool e).spadOk := hk
theorem Core.dropExtx_spadOk (hk : k.spadOk) : (k.dropExtx h).spadOk := hk

theorem State.endReaction_memOk (hs : s.memOk) : (s.endReaction c h).memOk := by
  unfold State.endReaction
  dsimp only
  split
  · exact State.modCore_memOk (State.modCtx_memOk hs) (fun _ hk => Core.others_spadOk (Core.dropExtx_spadOk hk))
  · exact State.cancelled_memOk (State.decCounter_memOk (State.modCore_memOk (State.modCore_memOk (State.modCtx_memOk hs)
      (fun _ hk => Core.others_spadOk (Core.dropExtx_spadOk hk))) (fun _ hk => by
      split
      · exact Core.unlogUnit_spadOk hk
      · exact Core.unlog_spadOk (Core.dropBlock_spadOk hk))))

/-! ### Reactions -/

theorem Core.writeJoin_spadOk {a free : Nat} {l : List InEv} (hk : k.spadOk) : (k.writeJoin a free l).spadOk := by
  induction l generalizing k a free with
  | nil => exact hk
  | cons e r ih => exact ih (Core.deliver_spadOk hk)

theorem Core.loadLate_spadOk {evs : List InEv} (hk : k.spadOk) : (k.loadLate evs).spadOk := by
  unfold Core.loadLate
  split <;> exact hk

theorem State.begin_memOk {l : Nat} (hs : s.memOk) : (s.begin l).memOk := by
  unfold State.begin
  split
  · split <;> exact hs
  · exact hs

theorem State.startReaction_memOk {n : Fin 64} {evs : List InEv} (hs : s.memOk) : (s.startReaction c h n evs).memOk := by
  unfold State.startReaction
  dsimp only
  split
  · exact hs
  · exact State.begin_memOk (State.setCore_memOk hs (Core.perf_spadOk (Core.modCtx_spadOk (by
      split
      · exact foldl_keeps (Core.writeJoin_spadOk (Core.loadLate_spadOk (Core.others_spadOk (State.core_spadOk hs c))))
          (fun _ hk _ => Core.dropBlock_spadOk hk)
      · exact Core.loadLate_spadOk (Core.others_spadOk (State.core_spadOk hs c))))))

theorem State.tryStart_holds (hs : s.memOk) : Holds State.memOk (s.tryStart c) := by
  unfold State.tryStart
  dsimp only
  split
  · exact Holds.none
  · split
    · exact Holds.none
    · split
      · exact Holds.some (State.startReaction_memOk hs)
      · split
        · exact Holds.some (State.startReaction_memOk hs)
        · exact Holds.none

theorem State.tryGrace_holds (hs : s.memOk) : Holds State.memOk (s.tryGrace c) := by
  unfold State.tryGrace
  dsimp only
  split
  · exact Holds.none
  · split
    · exact Holds.some (State.startReaction_memOk hs)
    · exact Holds.none

theorem State.pull_memOk {l : Nat} (hs : s.memOk) : (s.pull c l).2.memOk := by
  unfold State.pull
  split
  · exact hs
  · split <;> exact hs

theorem Core.dropPool_spadOk {i : Nat} {e : InEv} (hk : k.spadOk) : (k.dropPool i e).spadOk := by
  unfold Core.dropPool
  split
  · exact Core.removeIn_spadOk hk
  · exact hk

theorem State.retirePool_memOk {i : Nat} {e : InEv} {l : Nat} (hs : s.memOk) : (s.retirePool c i e l).memOk := by
  unfold State.retirePool
  split
  · exact State.modCore_memOk hs (fun _ hk => Core.dropPool_spadOk hk)
  · exact State.cancelled_memOk (State.decCounter_memOk (State.modCore_memOk hs (fun _ hk => Core.unlogPool_spadOk
      (Core.dropPool_spadOk hk))))

theorem State.startUnit_memOk {n : Fin 64} {e : InEv} {ix : Nat} {again : Option (Word × CtxId)} (hs : s.memOk) :
    (s.startUnit c h n e ix again).memOk :=
  State.begin_memOk (State.setCore_memOk hs (Core.perf_spadOk (Core.modCtx_spadOk (Core.loadLate_spadOk
      (Core.others_spadOk (State.core_spadOk hs c))))))

theorem State.pullUnit_holds (hs : s.memOk) : Holds State.memOk (s.pullUnit c) := by
  unfold State.pullUnit
  split
  · exact Holds.none
  · split
    · exact Holds.none
    · split
      · exact Holds.some (State.startUnit_memOk (State.modCore_memOk hs (fun _ hk => hk)))
      · split
        · exact Holds.some (State.retirePool_memOk hs)
        · split
          · next heq3 =>
            exact Holds.some (State.retirePool_memOk (snd_of_eq heq3 (State.pull_memOk hs)))
          · next heq3 =>
            exact Holds.some (State.startUnit_memOk (snd_of_eq heq3 (State.pull_memOk hs)))

theorem State.tryUnit_holds (hs : s.memOk) : Holds State.memOk (s.tryUnit c) := by
  unfold State.tryUnit
  split
  · split
    · split
      · exact Holds.none
      · exact State.pullUnit_holds hs
    · exact Holds.none
  · exact Holds.none

theorem State.tryStale_holds (hs : s.memOk) : Holds State.memOk (s.tryStale c) := by
  unfold State.tryStale
  dsimp only
  split
  · split
    · exact Holds.none
    · exact Holds.some (State.discardStale_memOk (State.modCore_memOk hs (fun _ hk => Core.unlog_spadOk
        (Core.dropBlock_spadOk (Core.removeIn_spadOk hk)))))
  · exact Holds.none

theorem State.tryCancelled_holds (hs : s.memOk) : Holds State.memOk (s.tryCancelled c) := by
  unfold State.tryCancelled
  dsimp only
  split
  · split
    · split
      · exact Holds.some (State.retirePool_memOk hs)
      · exact Holds.some (State.modCore_memOk hs (fun _ hk => Core.unlog_spadOk (Core.dropBlock_spadOk
          (Core.removeIn_spadOk hk))))
    · exact Holds.none
  · exact Holds.none

theorem Core.relog_spadOk (hk : k.spadOk) : k.relog.spadOk := by
  unfold Core.relog
  split <;> exact hk

theorem State.trySlot_holds {i : Fin 64} (hs : s.memOk) : Holds State.memOk (s.trySlot c i) := by
  unfold State.trySlot
  dsimp only
  split
  · exact Holds.some (State.modCore_memOk hs (fun _ hk => Core.relog_spadOk hk))
  · exact Holds.none

theorem State.missEvents_memOk {ls : List Nat} (hs : s.memOk) : (s.missEvents c h ls).memOk :=
  foldl_keeps (State.takeSeq_memOk hs) (fun _ ht _ => by
    split
    · exact State.faultEvent_memOk ht
    · exact ht)

theorem State.fence_memOk (hs : s.memOk) : (s.fence c h).memOk :=
  State.missEvents_memOk (State.modCore_memOk hs (fun _ hk => hk))

theorem State.tryMiss_holds (hs : s.memOk) : Holds State.memOk (s.tryMiss c h) := by
  unfold State.tryMiss
  dsimp only
  split
  · exact Holds.some (State.fence_memOk hs)
  · exact Holds.none

theorem State.pass_memOk {n : Nat} (hs : s.memOk) : (State.pass n s).memOk :=
  foldl_keeps (State.advance_memOk hs) (fun _ ht _ => Holds.getD (State.tryMiss_holds ht) ht)

/-! ### Global memory -/

theorem Core.wakeHome_spadOk (hk : k.spadOk) : k.wakeHome.spadOk := by
  unfold Core.wakeHome
  split
  · exact hk
  · exact Core.modCtx_spadOk hk

theorem State.wakeHome_memOk {pa : Nat} (hs : s.memOk) : (s.wakeHome pa).memOk :=
  State.modCore_memOk hs (fun _ hk => Core.wakeHome_spadOk hk)

theorem State.holdLine_memOk {pa : Nat} {w : Option HeldWrite} (hs : s.memOk) : (s.holdLine pa w).memOk :=
  State.wakeHome_memOk (State.putDir_memOk hs)

theorem State.overflowLine_memOk {line : Nat} (hs : s.memOk) : (s.overflowLine line c).memOk :=
  State.modCore_memOk (State.wakeHome_memOk (State.others_memOk (State.putDir_memOk hs))) fun _ hk => Core.perf_spadOk hk

theorem State.shareLine_memOk {pa : Nat} (hs : s.memOk) : (s.shareLine c pa).memOk := by
  unfold State.shareLine
  split
  · exact hs
  · split
    · exact State.putDir_memOk hs
    · exact State.overflowLine_memOk hs

theorem State.ownLine_memOk {pa : Nat} (hs : s.memOk) : (s.ownLine c pa).memOk := by
  unfold State.ownLine
  split
  · exact hs
  · exact State.putDir_memOk hs

theorem State.unshare_memOk {pa : Nat} (hs : s.memOk) : (s.unshare pa).memOk :=
  State.withDir_memOk hs (KMap.drop_rises (State.dir_rises hs) _)

theorem State.homeRest_memOk {landing : Nat} (hs : s.memOk) : (s.homeRest landing).memOk := by
  unfold State.homeRest
  split
  · exact State.modCore_memOk hs (fun _ hk => Core.modCtx_spadOk hk)
  · exact hs

theorem State.invalidate_memOk {line : Nat} (hs : s.memOk) : (s.invalidate line).memOk :=
  State.modCore_memOk (State.unshare_memOk hs) (fun _ hk => Core.perf_spadOk hk)

theorem State.ovfRecord_memOk {landing : Nat} {e : Nat × Nat} (hs : s.memOk) : (s.ovfRecord landing e).memOk :=
  State.others_memOk (State.memWrite_memOk (State.draw_memOk 64 hs))

theorem State.snoop_memOk {va : DWord} {pa n : Nat} (hs : s.memOk) : (s.snoop c va pa n).memOk :=
  State.modCore_memOk hs (fun _ hk => hk)

theorem State.notInRestartable_yields {va : DWord} {kind : Nat} :
    Yields Stop.memOk (fun _ => True) (s.notInRestartable va kind) :=
  check_yields

theorem checkIn_yields {c : Bool} {cause : Byte} {faddr finfo : DWord} (hs : s.memOk) :
    Yields Stop.memOk (fun _ => True) (checkIn s c cause faddr finfo) := by
  unfold checkIn
  split
  · exact Yields.ok trivial
  · exact Yields.error hs

theorem State.issueLoad_memOk {kind : ReqKind} {e : EA} {n : Nat} {d : Reg} {aux : DWord} {gate : Bool} {scope : Nat}
    (hs : s.memOk) : (s.issueLoad kind e n d aux gate scope).memOk :=
  State.post_memOk hs

theorem State.splitReady_yields {d : Reg} : Yields Stop.memOk (fun _ => True) (s.splitReady d) :=
  .bind State.regReady_yields fun _ _ => .bind State.memGate_yields fun _ _ => State.replyRoom_yields

theorem State.issueStore_memOk {e : EA} {n : Nat} {v : DWord} {pol : Policy} {scope : Nat} (hs : s.memOk) :
    (s.issueStore e n v pol scope).memOk :=
  State.post_memOk (State.snoop_memOk hs)

theorem State.issueAtomic_yields {op : Nat} {va : DWord} {d : Reg} {operand expected : DWord} (hs : s.memOk) :
    Yields Stop.memOk State.memOk (State.issueAtomic op va d operand expected s) :=
  .bind (State.globalEA_yields hs) fun ⟨_, _⟩ ht => .bind (checkIn_yields ht) fun _ _ => .bind (checkIn_yields ht) fun _ _
      => .bind waitUntil_yields fun _ _ => Yields.ok (State.post_memOk (State.snoop_memOk ht))

theorem State.settledAt_yields {scope : Nat} : Yields Stop.memOk (fun _ => True) (s.settledAt scope) :=
  .bind State.allPerformed_yields fun _ _ => waitUntil_yields

theorem State.settled_yields : Yields Stop.memOk (fun _ => True) s.settled := State.settledAt_yields

end

end Sys2Proof.Machine
end

/-! PROOFS. Canonical memory (O59), third part: the crossbar, the copy engines, requests and their homes. -/

section
namespace Sys2Proof.Machine

section
variable {s t : State} {k : Core} {c : CoreId} {h : CtxId} {g : Guard}

/-! ### The crossbar -/

theorem Core.modChan_spadOk {i : Fin 4} {f : Chan → Chan} (hk : k.spadOk) : (k.modChan i f).spadOk := hk
theorem Core.modTerm_spadOk {i : Fin 8} {f : EcTerm → EcTerm} (hk : k.spadOk) : (k.modTerm i f).spadOk := hk

theorem Core.keepSeen_spadOk {i : Fin 4} {m : KMap Nat} (hk : k.spadOk) : (k.keepSeen i m).spadOk :=
  Core.modTerm_spadOk hk

theorem Core.fireCopy_spadOk {i : Fin 4} {m : KMap Nat} (hk : k.spadOk) : (k.fireCopy i m).spadOk := by
  unfold Core.fireCopy
  dsimp only
  split
  · exact hk
  · exact Core.keepSeen_spadOk (Core.modChan_spadOk hk)

theorem State.localEvent_memOk {o : Fin 2} {clock : DWord} {m : KMap Nat} (hs : s.memOk) :
    (s.localEvent c o clock m).memOk :=
  State.place_memOk (State.modCore_memOk (State.makeEvent_memOk hs) (fun _ hk => hk))

theorem State.fireEvent_memOk {o : Fin 2} {m : KMap Nat} (hs : s.memOk) : (s.fireEvent c o m).memOk := by
  unfold State.fireEvent
  dsimp only
  split
  · exact State.localEvent_memOk hs
  · split
    · exact State.modCore_memOk hs (fun _ hk => hk)
    · exact hs

theorem State.fireInj_memOk (hs : s.memOk) : (s.fireInj c).memOk := by
  unfold State.fireInj
  dsimp only
  split
  · exact hs
  · split
    · exact State.modCore_memOk hs (fun _ hk => hk)
    · exact State.others_memOk (State.modCore_memOk hs (fun _ hk => hk))

theorem State.fire_memOk {o : Fin 8} {m : KMap Nat} (hs : s.memOk) : (s.fire c o m).memOk := by
  unfold State.fire
  split
  · exact State.modCore_memOk hs (fun _ hk => Core.fireCopy_spadOk hk)
  · exact State.modCore_memOk hs (fun _ hk => Core.fireCopy_spadOk hk)
  · exact State.modCore_memOk hs (fun _ hk => Core.fireCopy_spadOk hk)
  · exact State.modCore_memOk hs (fun _ hk => Core.fireCopy_spadOk hk)
  · exact State.fireEvent_memOk hs
  · exact State.fireEvent_memOk hs
  · exact State.fireInj_memOk hs
  · exact State.cancelled_memOk (State.decCounter_memOk hs)

theorem State.term_memOk {cycle : Nat} {inp : BitVec 20} {m : KMap Nat} {i : Fin 8} (hs : s.memOk) :
    (s.term c cycle inp m i).memOk := by
  unfold State.term
  dsimp only
  split
  · exact State.fire_memOk (State.modCore_memOk hs (fun _ hk => Core.modTerm_spadOk hk))
  · exact State.modCore_memOk hs (fun _ hk => Core.modTerm_spadOk hk)

theorem State.terms_memOk {cycle : Nat} {inp : BitVec 20} {m : KMap Nat} (hs : s.memOk) :
    (s.terms c cycle inp m).memOk :=
  foldl_keeps hs (fun _ ht _ => State.term_memOk ht)

theorem State.pulseAt_memOk {cycle : Nat} {src : BitVec 16} {m : KMap Nat} (hs : s.memOk) :
    (s.pulseAt c cycle src m).memOk :=
  State.terms_memOk (State.modCore_memOk hs (fun _ hk => hk))

theorem State.pulse_memOk {src : BitVec 16} {m : KMap Nat} (hs : s.memOk) : (s.pulse c src m).memOk :=
  State.pulseAt_memOk hs

theorem State.pulseOf_memOk {i : Nat} {m : KMap Nat} (hs : s.memOk) : (s.pulseOf c i m).memOk := State.pulse_memOk hs

theorem State.tryCounterZero_holds {i : Fin 4} (hs : s.memOk) : Holds State.memOk (s.tryCounterZero c i) := by
  unfold State.tryCounterZero
  dsimp only
  split
  · exact Holds.some (State.terms_memOk (State.modCore_memOk hs (fun _ hk => hk)))
  · exact Holds.none

theorem execCrossbarCounterZero_memOk {i : Fin 4} (hs : s.memOk) : (execCrossbarCounterZero c i s).memOk :=
  Holds.getD (State.tryCounterZero_holds hs) hs

theorem State.tryLocal_holds {o : Fin 2} (hs : s.memOk) : Holds State.memOk (s.tryLocal c o) := by
  unfold State.tryLocal
  dsimp only
  split
  · exact Holds.none
  · split
    · exact Holds.some (State.localEvent_memOk (State.modCore_memOk hs (fun _ hk => hk)))
    · exact Holds.none

theorem execCrossbarLocalEventEntry_memOk {out : Fin 2} (hs : s.memOk) : (execCrossbarLocalEventEntry c out s).memOk :=
  Holds.getD (State.tryLocal_holds hs) hs

theorem indexIn_yields {v : DWord} {n : Nat} : Yields Stop.memOk (fun _ => True) (indexIn v n) :=
  .bind check_yields fun _ _ => Yields.ok trivial

theorem execEcw_memOk {a b : Reg} (hs : s.memOk) : (execEcw g a b s).memOk :=
  instr_memOk (fun _ ha => .bind State.notInRestartable_yields fun _ _ => .bind State.rdX_yields fun _ _ => .bind
      State.rdX_yields fun _ _ => .bind indexIn_yields fun _ _ => .bind check_yields fun _ _ => Yields.ok
      (State.modMe_memOk ha (fun _ hk => hk))) hs

theorem execEcr_memOk {d a : Reg} (hs : s.memOk) : (execEcr g d a s).memOk :=
  instr_memOk (fun _ ha => .bind State.rdX_yields fun _ _ => .bind indexIn_yields fun _ _ => State.wrX_yields ha) hs

theorem execEcpulse_memOk (hs : s.memOk) : (execEcpulse g s).memOk :=
  instr_memOk (fun _ ha => .bind State.notInRestartable_yields fun _ _ => by
    split
    · exact .bind State.settled_yields fun _ _ => Yields.ok (State.modMe_memOk ha (fun _ hk => hk))
    · exact Yields.ok (State.modMe_memOk ha (fun _ hk => hk))) hs

theorem execEccnt_memOk {d a : Reg} (hs : s.memOk) : (execEccnt g d a s).memOk :=
  instr_memOk (fun _ ha => .bind State.rdX_yields fun _ _ => .bind indexIn_yields fun _ _ => State.wrX_yields ha) hs

theorem State.settleCount_memOk {i : Fin 8} (hs : s.memOk) : (s.settleCount c i).memOk := by
  unfold State.settleCount
  dsimp only
  split
  · exact State.modCore_memOk (State.draw_memOk 64 hs) (fun _ hk => hk)
  · exact hs

theorem State.setPcfg_memOk {i : Fin 8} {code : Half} (hs : s.memOk) : (s.setPcfg c i code).memOk :=
  State.modCore_memOk (State.settleCount_memOk hs) (fun _ hk => hk)

theorem execPcfg_memOk {a b : Reg} (hs : s.memOk) : (execPcfg g a b s).memOk :=
  instr_memOk (fun _ ha => .bind State.rdX_yields fun _ _ => .bind State.rdX_yields fun _ _ => .bind indexIn_yields fun _
      _ => Yields.ok (State.modMe_memOk ha (fun _ hk => hk))) hs

theorem State.coreCycle_memOk (hs : s.memOk) : (s.coreCycle c).memOk := by
  unfold State.coreCycle
  dsimp only
  split
  · exact State.pulseOf_memOk (foldl_keeps (State.modCore_memOk hs (fun _ hk => hk)) (fun _ ht _ => State.setPcfg_memOk
      ht))
  · exact foldl_keeps (State.modCore_memOk hs (fun _ hk => hk)) (fun _ ht _ => State.setPcfg_memOk ht)

theorem State.nextCycle_memOk (hs : s.memOk) : s.nextCycle.memOk :=
  foldl_keeps hs (fun _ ht _ => State.coreCycle_memOk ht)

theorem execPrd_memOk {d a : Reg} (hs : s.memOk) : (execPrd g d a s).memOk :=
  instr_memOk (fun _ ha => .bind State.rdX_yields fun _ _ => .bind indexIn_yields fun _ _ => State.wrX_yields
      (State.settleCount_memOk ha)) hs

theorem execPrst_memOk {a : Reg} (hs : s.memOk) : (execPrst g a s).memOk :=
  instr_memOk (fun _ ha => .bind State.notInRestartable_yields fun _ _ => .bind State.rdX_yields fun _ _ => .bind
      check_yields fun _ _ => Yields.ok (State.modMe_memOk ha (fun _ hk => hk))) hs

theorem State.tlbi_memOk {scope va n : Nat} (hs : s.memOk) : (s.tlbi scope va n).memOk := by
  unfold State.tlbi
  dsimp only
  exact State.mapCores_memOk hs (coresOk_map (State.cores_ok hs) (fun _ he => by
    split
    · exact Core.others_spadOk he
    · exact he))

theorem execTlbi_memOk {a b : Reg} (hs : s.memOk) : (execTlbi g a b s).memOk :=
  instr_memOk (fun _ ha => .bind State.notInRestartable_yields fun _ _ => .bind State.rdX_yields fun _ _ => .bind
      State.rdX_yields fun _ _ => .bind check_yields fun _ _ => Yields.ok (State.tlbi_memOk ha)) hs

/-! ### Copy engines -/

theorem State.engFar_yields {q : EngReq} (hs : s.memOk) : Yields (fun _ => True) (fun r => r.2.memOk) (s.engFar q) := by
  unfold State.engFar
  split
  · exact Yields.error trivial
  · split
    · exact Yields.error trivial
    · split
      · exact Yields.ok hs
      · exact Yields.error trivial

theorem State.sendEng_memOk {q : EngReq} (hs : s.memOk) : (s.sendEng q).memOk :=
  State.others_memOk (State.emit_memOk hs)

theorem State.engForget_memOk {unit : Nat} (hs : s.memOk) : (s.engForget c unit).memOk := hs

theorem State.engPage_yields {unit : Nat} {va : DWord} {n : Nat} (hs : s.memOk) :
    Yields (fun _ => True) (fun r => r.2.2.memOk) (s.engPage c unit va n) := by
  unfold State.engPage
  split
  · exact Yields.error trivial
  · next heq =>
    split
    · exact Yields.error trivial
    · split
      · exact Yields.error trivial
      · split
        · exact Yields.error trivial
        · split
          · exact Yields.ok (snd_of_eq heq (State.globalCheck_memOk hs))
          · split
            · exact .map (State.engFar_yields (snd_of_eq heq (State.globalCheck_memOk hs))) (fun ⟨_, _⟩ ht1 => ht1)
            · split
              · exact Yields.ok (State.draw_memOk 64 (snd_of_eq heq (State.globalCheck_memOk hs)))
              · refine Yields.ok ?_
                split
                · exact State.shareLine_memOk (snd_of_eq heq (State.globalCheck_memOk hs))
                · exact snd_of_eq heq (State.globalCheck_memOk hs)

theorem State.engRead_yields {unit : Nat} {va : DWord} {n : Nat} (hs : s.memOk) :
    Yields (fun _ => True) (fun r => r.2.2.memOk) (s.engRead c unit va n) := by
  unfold State.engRead
  dsimp only
  exact .bind (State.engPage_yields hs) fun ⟨_, _, _⟩ ht => by
    split
    · exact Yields.ok ht
    · exact .bind (State.engPage_yields ht) fun ⟨_, _, _⟩ ht1 => Yields.ok ht1

theorem State.engPut_yields {unit : Nat} {w : Writer} {va : DWord} {n v : Nat} (hs : s.memOk) :
    Yields (fun _ => True) (fun r => r.2.memOk) (s.engPut c unit w va n v) := by
  unfold State.engPut
  split
  · exact Yields.error trivial
  · next heq =>
    split
    · exact Yields.error trivial
    · split
      · exact Yields.error trivial
      · split
        · exact .map (State.engFar_yields (State.snoop_memOk (snd_of_eq heq (State.globalCheck_memOk hs)))) (fun ⟨_, _⟩
            ht1 => ht1)
        · split
          · exact Yields.error trivial
          · split
            · exact Yields.error trivial
            · refine Yields.ok ?_
              split
              · exact State.ownLine_memOk (State.memWrite_memOk (State.snoop_memOk (snd_of_eq heq (State.globalCheck_memOk
                  hs))))
              · exact State.unshare_memOk (State.memWrite_memOk (State.snoop_memOk (snd_of_eq heq (State.globalCheck_memOk
                  hs))))

theorem State.engWrite_yields {unit : Nat} {w : Writer} {va : DWord} {n v : Nat} (hs : s.memOk) :
    Yields (fun _ => True) (fun r => r.2.memOk) (s.engWrite c unit w va n v) := by
  unfold State.engWrite
  dsimp only
  exact .bind (State.engPut_yields hs) fun ⟨_, _⟩ ht => by
    split
    · exact Yields.ok ht
    · exact .bind (State.engPut_yields ht) fun ⟨_, _⟩ ht1 => Yields.ok ht1

theorem State.holdFor_holds {e : EngStop} (hs : s.memOk) : Holds State.memOk (s.holdFor e) := by
  unfold State.holdFor
  split
  · split
    · exact Holds.none
    · exact Holds.some (State.holdLine_memOk hs)
  · exact Holds.some (State.sendEng_memOk hs)
  · exact Holds.none

theorem State.engSpadPut_yields {a : DWord} {n v : Nat} {full : Bool} {m : KMap Nat} (hs : s.memOk) :
    Yields (fun _ => True) State.memOk (s.engSpadPut c a n v full m) := by
  unfold State.engSpadPut
  split
  · exact Yields.ok (State.modCore_memOk hs (fun _ hk => by
      split
      · exact Core.setFull_spadOk (Core.noteFull_spadOk (Core.spadWrite_spadOk hk))
      · exact Core.spadWrite_spadOk hk))
  · exact Yields.error trivial

theorem State.copyRead_yields {ch : Fin 4} {w : DWord} {off n : Nat} (hs : s.memOk) :
    Yields (fun _ => True) (fun r => r.2.memOk) (s.copyRead c ch w off n) := by
  unfold State.copyRead
  split
  · exact .map (State.engRead_yields hs) (fun ⟨_, _, _⟩ ht => ht)
  · exact .bind Yields.any fun _ _ => Yields.ok hs

theorem State.copyPut_yields {ch : Fin 4} {a : DWord} {n v : Nat} (hs : s.memOk) :
    Yields (fun _ => True) State.memOk (s.copyPut c ch a n v) :=
  .map (State.engWrite_yields hs) (fun ⟨_, _⟩ ht => ht)

theorem State.copyWrite_yields {r : CopyReq} {off n v : Nat} (hs : s.memOk) :
    Yields (fun _ => True) State.memOk (s.copyWrite c r off n v) := by
  unfold State.copyWrite
  dsimp only
  split
  · exact State.copyPut_yields hs
  · exact State.engSpadPut_yields hs
  · split
    · exact Yields.error trivial
    · exact State.engSpadPut_yields hs

theorem State.linearElement_yields {r : CopyReq} {k : Nat} (hs : s.memOk) :
    Yields (fun _ => True) State.memOk (s.linearElement c r k) := by
  unfold State.linearElement
  split
  · exact State.copyWrite_yields hs
  · split
    · exact .bind Yields.any fun _ _ => .bind Yields.any fun _ _ => .bind (State.copyRead_yields hs) fun ⟨_, _⟩ ht =>
        State.copyWrite_yields ht
    · exact .bind (State.copyRead_yields hs) fun ⟨_, _⟩ ht => State.copyWrite_yields ht

theorem State.layoutElement_yields {q : CopyRun} {y : LayoutReg} {k : Nat} (hs : s.memOk) :
    Yields (fun _ => True) State.memOk (s.layoutElement c q y k) := by
  unfold State.layoutElement
  dsimp only
  split
  · split
    all_goals
      split
      · exact Yields.error trivial
      · split
        · exact Yields.ok hs
        · split
          · exact Yields.error trivial
          · exact .bind Yields.any fun _ _ => State.copyPut_yields hs
  · split
    all_goals
      split
      · exact Yields.error trivial
      · split
        · exact State.engSpadPut_yields hs
        · split
          · exact Yields.error trivial
          · exact .bind (State.engRead_yields hs) fun ⟨_, _, _⟩ ht => State.engSpadPut_yields ht

theorem State.setRange_memOk {ch : Fin 4} (hs : s.memOk) : (s.setRange c ch).memOk :=
  State.modCore_memOk hs (fun _ hk => Core.modChan_spadOk hk)

theorem State.rowElement_yields {ch : Fin 4} {q : CopyRun} {k : Nat} (hs : s.memOk) :
    Yields (fun _ => True) (fun r => r.1.memOk) (s.rowElement c ch q k) := by
  unfold State.rowElement
  dsimp only
  exact .bind Yields.any fun ⟨_, _⟩ _ => by
    split
    · split
      · exact Yields.error trivial
      · split
        · split
          · exact Yields.error trivial
          · exact .bind (State.engRead_yields hs) fun ⟨_, _, _⟩ ht => .bind (State.engSpadPut_yields ht) fun _ ht1 =>
              Yields.ok ht1
        · split
          · split
            · exact Yields.ok (State.modCore_memOk hs (fun _ hk1 => Core.setFull_spadOk (Core.noteFull_spadOk hk1)))
            · exact Yields.error trivial
          · exact .bind (State.engSpadPut_yields hs) fun _ ht => Yields.ok (State.setRange_memOk ht)
    · split
      · exact Yields.error trivial
      · split
        · split
          · exact Yields.error trivial
          · exact .bind Yields.any fun _ _ => .bind (State.copyPut_yields hs) fun _ ht => Yields.ok ht
        · split
          · exact Yields.ok hs
          · exact Yields.ok (State.setRange_memOk hs)

theorem State.codeElement_yields {r : CopyReq} {k : Nat} (hs : s.memOk) :
    Yields (fun _ => True) State.memOk (s.codeElement c r k) := by
  unfold State.codeElement
  dsimp only
  split
  · exact Yields.error trivial
  · split
    · next heq =>
      exact Yields.ok (snd_of_eq heq (State.fetchHalf_memOk hs))
    · next heq =>
      split
      · exact Yields.ok (snd_of_eq heq (State.fetchHalf_memOk hs))
      · exact Yields.error trivial

theorem State.element_yields {ch : Fin 4} {q : CopyRun} {k : Nat} (hs : s.memOk) :
    Yields (fun _ => True) (fun r => r.1.memOk) (s.element c ch q k) := by
  unfold State.element
  split
  · exact .bind (State.linearElement_yields hs) fun _ ht => Yields.ok ht
  · exact .bind (State.linearElement_yields hs) fun _ ht => Yields.ok ht
  · exact .bind (State.linearElement_yields hs) fun _ ht => Yields.ok ht
  · split
    · exact .bind (State.layoutElement_yields hs) fun _ ht => Yields.ok ht
    · exact Yields.ok hs
  · exact .bind (State.rowElement_yields hs) fun ⟨_, _⟩ ht => Yields.ok ht
  · exact .bind (State.rowElement_yields hs) fun ⟨_, _⟩ ht => Yields.ok ht
  · exact .bind (State.codeElement_yields hs) fun _ ht => Yields.ok ht

theorem State.tryCopyStart_holds {ch : Fin 4} (hs : s.memOk) : Holds State.memOk (s.tryCopyStart c ch) := by
  unfold State.tryCopyStart
  dsimp only
  split
  · exact Holds.none
  · split
    · exact Holds.none
    · exact Holds.some (State.modCore_memOk hs (fun _ hk => Core.modChan_spadOk hk))

theorem State.channelStop_memOk {ch : Fin 4} {cause : Byte} {addr : DWord} (hs : s.memOk) :
    (s.channelStop c ch cause addr).memOk :=
  State.engForget_memOk (State.modCore_memOk hs (fun _ hk => Core.modChan_spadOk hk))

theorem State.setRunning_memOk {ch : Fin 4} {r : Option CopyRun} (hs : s.memOk) : (s.setRunning c ch r).memOk :=
  State.modCore_memOk hs (fun _ hk => Core.modChan_spadOk hk)

theorem State.copyElement_holds {ch : Fin 4} {k : Nat} (hs : s.memOk) : Holds State.memOk (s.copyElement c ch k) := by
  unfold State.copyElement
  split
  · exact Holds.none
  · split
    · exact Holds.none
    · split
      · next heq1 =>
        exact Holds.some (State.setRunning_memOk (Yields.ok_of_eq heq1 (State.element_yields hs)))
      · exact Holds.some (State.channelStop_memOk hs)
      · exact State.holdFor_holds hs

theorem State.copyAll_yields {ch : Fin 4} {q : CopyRun} {l : List Nat} (hs : s.memOk) :
    Yields (fun _ => True) (fun r => r.1.memOk) (s.copyAll c ch q l) := by
  induction l generalizing s q with
  | nil => exact .ok hs
  | cons i r ih =>
    unfold State.copyAll
    split
    · exact ih hs
    · split
      · next heq => exact ih (Yields.ok_of_eq heq (State.element_yields hs))
      · exact .error trivial

theorem State.copyDone_memOk {ch : Fin 4} {r : CopyReq} (hs : s.memOk) : (s.copyDone c ch r).memOk :=
  State.pulseOf_memOk (State.engForget_memOk (State.modCore_memOk hs (fun _ hk => Core.modChan_spadOk hk)))

theorem State.tryCopyDone_holds {ch : Fin 4} (hs : s.memOk) : Holds State.memOk (s.tryCopyDone c ch) := by
  unfold State.tryCopyDone
  split
  · exact Holds.none
  · split
    · next heq1 =>
      exact Holds.some (State.copyDone_memOk (Yields.ok_of_eq heq1 (State.copyAll_yields hs)))
    · exact State.holdFor_holds hs

theorem State.copyToFault_holds {ch : Fin 4} {q : CopyRun} {l : List Nat} (hs : s.memOk) :
    Holds State.memOk (s.copyToFault c ch q l) := by
  induction l generalizing s q with
  | nil => exact .none
  | cons i r ih =>
    unfold State.copyToFault
    split
    · exact ih hs
    · split
      · next heq => exact ih (State.setRunning_memOk (Yields.ok_of_eq heq (State.element_yields hs)))
      · exact .some (State.channelStop_memOk hs)
      · exact .none

theorem State.tryChannelFault_holds {ch : Fin 4} {uncorrectable : Bool} (hs : s.memOk) :
    Holds State.memOk (s.tryChannelFault c ch uncorrectable) := by
  unfold State.tryChannelFault
  split
  · exact Holds.none
  · split
    · exact Holds.map (fun _ _ => State.channelStop_memOk (State.draw_memOk 64 hs))
    · exact State.copyToFault_holds hs

theorem execCopyRequestStart_memOk {ch : Fin 4} (hs : s.memOk) : (execCopyRequestStart c ch s).memOk :=
  Holds.getD (State.tryCopyStart_holds hs) hs

theorem execCopyRequestComplete_memOk {ch : Fin 4} (hs : s.memOk) : (execCopyRequestComplete c ch s).memOk :=
  Holds.getD (State.tryCopyDone_holds hs) hs

theorem execChannelFault_memOk {ch : Fin 4} {uncorrectable : Bool} (hs : s.memOk) :
    (execChannelFault c ch uncorrectable s).memOk :=
  Holds.getD (State.tryChannelFault_holds hs) hs

theorem chanOf_yields {v : DWord} : Yields Stop.memOk (fun _ => True) (chanOf v) :=
  .bind check_yields fun _ _ => Yields.ok trivial

theorem Core.queueCopy_spadOk {r : CopyReq} (hk : k.spadOk) : (k.queueCopy r).spadOk := by
  unfold Core.queueCopy
  dsimp only
  split
  · exact Core.keepSeen_spadOk (Core.modChan_spadOk hk)
  · exact Core.modChan_spadOk hk

/-- What a request of the copy engines posts, once the checks before it have passed. -/
theorem xqPost_yields {waits : Bool} {d : Reg} {r : CopyReq} (hs : s.memOk) :
    Yields Stop.memOk State.memOk (do
      s.regReady d
      s.memGate
      s.settled
      if 8 ≤ s.me.fifo.length then (if waits then .error .wait else return s.putX d (BitVec.allOnes 64))
      else return (s.modMe fun k => k.queueCopy r).putX d ((s.me.chans.get r.chan).next.setWidth 64)) := by
  refine .bind State.regReady_yields fun _ _ => .bind State.memGate_yields fun _ _ =>
    .bind State.settled_yields fun _ _ => ?_
  split
  · split
    · exact .error trivial
    · exact .ok (State.putX_memOk hs)
  · exact .ok (State.putX_memOk (State.modMe_memOk hs (fun _ hk => Core.queueCopy_spadOk hk)))

theorem xq_yields {waits : Bool} {d a : Reg} (hs : s.memOk) : Yields Stop.memOk State.memOk (xq waits d a s) := by
  refine .bind check_yields fun _ _ => .bind State.rdX_yields fun _ _ => .bind State.rdX_yields fun _ _ =>
    .bind State.rdX_yields fun _ _ => .bind State.rdX_yields fun _ _ => ?_
  extract_lets y r rest
  have hrest : ∀ u, Yields Stop.memOk State.memOk (rest u) := fun _ => by
    unfold rest
    split
    · exact fault_yields
    · exact xqPost_yields hs
  exact .check_then State.notInRestartable_yields hrest

theorem execXqW_memOk {d a : Reg} (hs : s.memOk) : (execXqW g d a s).memOk := instr_memOk (fun _ ha => xq_yields ha) hs
theorem execXqT_memOk {d a : Reg} (hs : s.memOk) : (execXqT g d a s).memOk := instr_memOk (fun _ ha => xq_yields ha) hs

theorem execXdone_memOk {d a : Reg} (hs : s.memOk) : (execXdone g d a s).memOk :=
  instr_memOk (fun _ ha => .bind State.syncPoint_yields fun _ _ => .bind State.rdX_yields fun _ _ => .bind
      State.regReady_yields fun _ _ => .bind chanOf_yields fun _ _ => Yields.ok (State.syncWith_memOk (State.putX_memOk
      ha))) hs

theorem execXwait_memOk {a b : Reg} (hs : s.memOk) : (execXwait g a b s).memOk := by
  unfold execXwait
  dsimp only
  exact instr_memOk (fun _ ha => .bind State.syncPoint_yields fun _ _ => .bind State.rdX_yields fun _ _ => .bind
      State.rdX_yields fun _ _ => .bind chanOf_yields fun _ _ => by
    split
    · split
      · exact fault_yields
      · exact Yields.error trivial
    · exact Yields.ok (State.syncWith_memOk ha)) hs

theorem execXstat_memOk {d a b : Reg} (hs : s.memOk) : (execXstat g d a b s).memOk :=
  instr_memOk (fun _ ha => .bind State.rdX_yields fun _ _ => .bind State.rdX_yields fun _ _ => .bind chanOf_yields fun _
      _ => .bind check_yields fun _ _ => State.wrX_yields ha) hs

theorem Core.clearChan_spadOk {c : Fin 4} {retry range : Bool} {m : KMap Nat} (hk : k.spadOk) :
    (k.clearChan c retry range m).spadOk :=
  Core.modChan_spadOk hk

theorem execXclr_memOk {a : Reg} (hs : s.memOk) : (execXclr g a s).memOk :=
  instr_memOk (fun _ ha => .bind State.rdX_yields fun _ _ => .bind check_yields fun _ _ => Yields.ok (State.modMe_memOk
      ha (fun _ hk => Core.clearChan_spadOk hk))) hs

/-! ### Requests -/

theorem State.addrOff_yields {a : Reg} {off : Int} {n : Nat} :
    Yields Stop.memOk (fun _ => True) (State.addrOff a off n s) :=
  .bind State.rdX_yields fun _ _ => Yields.ok trivial

theorem State.addrIx_yields {a b : Reg} {n : Nat} : Yields Stop.memOk (fun _ => True) (State.addrIx a b n s) :=
  .bind State.rdX_yields fun _ _ => .bind State.rdX_yields fun _ _ => Yields.ok trivial

theorem spadLoad_yields {n : Nat} {signed : Bool} {d : Reg} {addr : State → Except Stop DWord}
    (haddr : ∀ (a : State), a.memOk → Yields Stop.memOk (fun _ => True) (addr a)) (hs : s.memOk) : Yields Stop.memOk
    State.memOk (spadLoad n signed d addr s) :=
  .bind State.memGate_yields fun _ _ => .bind (haddr s hs) fun _ _ => .bind State.regReady_yields fun _ _ => .bind
      spadEA_yields fun _ _ => .bind State.spadSound_yields fun _ _ => Yields.ok (State.spadSeen_memOk (State.putX_memOk
      hs))

theorem spadStore_yields {n : Nat} {d : Reg} {addr : State → Except Stop DWord}
    (haddr : ∀ (a : State), a.memOk → Yields Stop.memOk (fun _ => True) (addr a)) (hs : s.memOk) : Yields Stop.memOk
    State.memOk (spadStore n d addr s) :=
  .bind State.memGate_yields fun _ _ => .bind State.relWait_yields fun _ _ => .bind (haddr s hs) fun _ _ => .bind
      State.rdX_yields fun _ _ => .bind spadEA_yields fun _ _ => Yields.ok (State.spadPut_memOk hs)

theorem execLdb_memOk {d a : Reg} {off : Int} (hs : s.memOk) : (execLdb g d a off s).memOk :=
  instr_memOk (fun _ ha => spadLoad_yields (fun _ _ => State.addrOff_yields) ha) hs

theorem execLdh_memOk {d a : Reg} {off : Int} (hs : s.memOk) : (execLdh g d a off s).memOk :=
  instr_memOk (fun _ ha => spadLoad_yields (fun _ _ => State.addrOff_yields) ha) hs

theorem execLdw_memOk {d a : Reg} {off : Int} (hs : s.memOk) : (execLdw g d a off s).memOk :=
  instr_memOk (fun _ ha => spadLoad_yields (fun _ _ => State.addrOff_yields) ha) hs

theorem execLdd_memOk {d a : Reg} {off : Int} (hs : s.memOk) : (execLdd g d a off s).memOk :=
  instr_memOk (fun _ ha => spadLoad_yields (fun _ _ => State.addrOff_yields) ha) hs

theorem execLdbu_memOk {d a : Reg} {off : Int} (hs : s.memOk) : (execLdbu g d a off s).memOk :=
  instr_memOk (fun _ ha => spadLoad_yields (fun _ _ => State.addrOff_yields) ha) hs

theorem execLdhu_memOk {d a : Reg} {off : Int} (hs : s.memOk) : (execLdhu g d a off s).memOk :=
  instr_memOk (fun _ ha => spadLoad_yields (fun _ _ => State.addrOff_yields) ha) hs

theorem execLdwu_memOk {d a : Reg} {off : Int} (hs : s.memOk) : (execLdwu g d a off s).memOk :=
  instr_memOk (fun _ ha => spadLoad_yields (fun _ _ => State.addrOff_yields) ha) hs

theorem execStb_memOk {d a : Reg} {off : Int} (hs : s.memOk) : (execStb g d a off s).memOk :=
  instr_memOk (fun _ ha => spadStore_yields (fun _ _ => State.addrOff_yields) ha) hs

theorem execSth_memOk {d a : Reg} {off : Int} (hs : s.memOk) : (execSth g d a off s).memOk :=
  instr_memOk (fun _ ha => spadStore_yields (fun _ _ => State.addrOff_yields) ha) hs

theorem execStw_memOk {d a : Reg} {off : Int} (hs : s.memOk) : (execStw g d a off s).memOk :=
  instr_memOk (fun _ ha => spadStore_yields (fun _ _ => State.addrOff_yields) ha) hs

theorem execStd_memOk {d a : Reg} {off : Int} (hs : s.memOk) : (execStd g d a off s).memOk :=
  instr_memOk (fun _ ha => spadStore_yields (fun _ _ => State.addrOff_yields) ha) hs

theorem execLdxb_memOk {d a b : Reg} (hs : s.memOk) : (execLdxb g d a b s).memOk :=
  instr_memOk (fun _ ha => spadLoad_yields (fun _ _ => State.addrIx_yields) ha) hs

theorem execLdxh_memOk {d a b : Reg} (hs : s.memOk) : (execLdxh g d a b s).memOk :=
  instr_memOk (fun _ ha => spadLoad_yields (fun _ _ => State.addrIx_yields) ha) hs

theorem execLdxw_memOk {d a b : Reg} (hs : s.memOk) : (execLdxw g d a b s).memOk :=
  instr_memOk (fun _ ha => spadLoad_yields (fun _ _ => State.addrIx_yields) ha) hs

theorem execLdxd_memOk {d a b : Reg} (hs : s.memOk) : (execLdxd g d a b s).memOk :=
  instr_memOk (fun _ ha => spadLoad_yields (fun _ _ => State.addrIx_yields) ha) hs

theorem execLdxbu_memOk {d a b : Reg} (hs : s.memOk) : (execLdxbu g d a b s).memOk :=
  instr_memOk (fun _ ha => spadLoad_yields (fun _ _ => State.addrIx_yields) ha) hs

theorem execLdxhu_memOk {d a b : Reg} (hs : s.memOk) : (execLdxhu g d a b s).memOk :=
  instr_memOk (fun _ ha => spadLoad_yields (fun _ _ => State.addrIx_yields) ha) hs

theorem execLdxwu_memOk {d a b : Reg} (hs : s.memOk) : (execLdxwu g d a b s).memOk :=
  instr_memOk (fun _ ha => spadLoad_yields (fun _ _ => State.addrIx_yields) ha) hs

theorem execStxb_memOk {d a b : Reg} (hs : s.memOk) : (execStxb g d a b s).memOk :=
  instr_memOk (fun _ ha => spadStore_yields (fun _ _ => State.addrIx_yields) ha) hs

theorem execStxh_memOk {d a b : Reg} (hs : s.memOk) : (execStxh g d a b s).memOk :=
  instr_memOk (fun _ ha => spadStore_yields (fun _ _ => State.addrIx_yields) ha) hs

theorem execStxw_memOk {d a b : Reg} (hs : s.memOk) : (execStxw g d a b s).memOk :=
  instr_memOk (fun _ ha => spadStore_yields (fun _ _ => State.addrIx_yields) ha) hs

theorem execStxd_memOk {d a b : Reg} (hs : s.memOk) : (execStxd g d a b s).memOk :=
  instr_memOk (fun _ ha => spadStore_yields (fun _ _ => State.addrIx_yields) ha) hs

theorem execLddC_memOk {d a : Reg} (hs : s.memOk) : (execLddC d a s).memOk :=
  instrC_memOk (fun _ ha => spadLoad_yields (fun _ _ => State.addrOff_yields) ha) hs

theorem execStdC_memOk {d a : Reg} (hs : s.memOk) : (execStdC d a s).memOk :=
  instrC_memOk (fun _ ha => spadStore_yields (fun _ _ => State.addrOff_yields) ha) hs

theorem execLdsC_memOk {d : Reg} {imm : Nat} (hs : s.memOk) : (execLdsC d imm s).memOk :=
  instrC_memOk (fun _ ha => spadLoad_yields (fun _ _ => State.addrOff_yields) ha) hs

theorem execStsC_memOk {d : Reg} {imm : Nat} (hs : s.memOk) : (execStsC d imm s).memOk :=
  instrC_memOk (fun _ ha => spadStore_yields (fun _ _ => State.addrOff_yields) ha) hs

theorem State.feWait_yields {a n : Nat} {full : Bool} : Yields Stop.memOk (fun _ => True) (s.feWait a n full) := by
  unfold State.feWait
  split
  · exact Yields.ok trivial
  · exact Yields.error trivial

theorem State.feSet_memOk {a n : Nat} {full : Bool} (hs : s.memOk) : (s.feSet a n full).memOk :=
  State.modMe_memOk hs (fun _ ha => Core.setFulls_spadOk ha)

theorem State.feRelease_memOk {a n : Nat} (hs : s.memOk) : (s.feRelease a n).memOk :=
  State.modMe_memOk (State.feSet_memOk hs) (fun _ ha => Core.noteFull_spadOk ha)

theorem State.feAcquire_memOk {a n : Nat} (hs : s.memOk) : (s.feAcquire a n).memOk := State.syncWith_memOk hs

theorem feLoad_yields {keep : Bool} {d a : Reg} {off : Int} (hs : s.memOk) :
    Yields Stop.memOk State.memOk (feLoad keep d a off s) :=
  .bind State.memGate_yields fun _ _ => .bind State.syncPoint_yields fun _ _ => .bind State.addrOff_yields fun _ _ =>
      .bind State.regReady_yields fun _ _ => .bind spadEA_yields fun _ _ => .bind State.feWait_yields fun _ _ => .bind
      State.spadSound_yields fun _ _ => Yields.ok (State.feAcquire_memOk (State.feSet_memOk (State.putX_memOk hs)))

theorem feStore_yields {waits : Bool} {d a : Reg} {off : Int} (hs : s.memOk) :
    Yields Stop.memOk State.memOk (feStore waits d a off s) :=
  .bind State.memGate_yields fun _ _ => .bind State.settled_yields fun _ _ => .bind State.addrOff_yields fun _ _ => .bind
      State.rdX_yields fun _ _ => .bind spadEA_yields fun _ _ => by
    split
    · exact .bind State.feWait_yields fun _ _ => Yields.ok (State.feRelease_memOk (State.spadPut_memOk hs))
    · exact Yields.ok (State.feRelease_memOk (State.spadPut_memOk hs))

theorem execLdf_memOk {d a : Reg} {off : Int} (hs : s.memOk) : (execLdf g d a off s).memOk :=
  instr_memOk (fun _ ha => feLoad_yields ha) hs

theorem execLdk_memOk {d a : Reg} {off : Int} (hs : s.memOk) : (execLdk g d a off s).memOk :=
  instr_memOk (fun _ ha => feLoad_yields ha) hs

theorem execSte_memOk {d a : Reg} {off : Int} (hs : s.memOk) : (execSte g d a off s).memOk :=
  instr_memOk (fun _ ha => feStore_yields ha) hs

theorem execStf_memOk {d a : Reg} {off : Int} (hs : s.memOk) : (execStf g d a off s).memOk :=
  instr_memOk (fun _ ha => feStore_yields ha) hs

theorem execSete_memOk {a : Reg} {off : Int} (hs : s.memOk) : (execSete g a off s).memOk :=
  instr_memOk (fun _ ha => .bind State.memGate_yields fun _ _ => .bind State.addrOff_yields fun _ _ => .bind
      spadEA_yields fun _ _ => Yields.ok (State.feSet_memOk ha)) hs

theorem execSetf_memOk {a : Reg} {off : Int} (hs : s.memOk) : (execSetf g a off s).memOk :=
  instr_memOk (fun _ ha => .bind State.memGate_yields fun _ _ => .bind State.settled_yields fun _ _ => .bind
      State.addrOff_yields fun _ _ => .bind spadEA_yields fun _ _ => Yields.ok (State.feRelease_memOk ha)) hs

theorem execTfe_memOk {d : PReg} {a : Reg} {off : Int} (hs : s.memOk) : (execTfe g d a off s).memOk :=
  instr_memOk (fun _ ha => .bind State.memGate_yields fun _ _ => .bind State.addrOff_yields fun _ _ => .bind
      spadEA_yields fun _ _ => Yields.ok (State.putP_memOk ha)) hs

theorem ldg_yields {n : Nat} {signed : Bool} {d a : Reg} {pol : Policy} {off : Int} (hs : s.memOk) :
    Yields Stop.memOk State.memOk (ldg n signed d a pol off s) :=
  .bind State.splitReady_yields fun _ _ => .bind State.addrOff_yields fun _ _ => .bind (State.globalEA_yields hs) fun ⟨_,
      _⟩ ht => Yields.ok (State.issueLoad_memOk ht)

theorem stg_yields {n : Nat} {d a : Reg} {pol : Policy} {off : Int} (hs : s.memOk) :
    Yields Stop.memOk State.memOk (stg n d a pol off s) :=
  .bind State.addrOff_yields fun _ _ => .bind State.notInRestartable_yields fun _ _ => .bind State.memGate_yields fun _ _
      => .bind State.rdX_yields fun _ _ => .bind (State.globalEA_yields hs) fun ⟨_, _⟩ ht => .bind (checkIn_yields ht) fun
      _ _ => .bind (checkIn_yields ht) fun _ _ => Yields.ok (State.issueStore_memOk ht)

theorem execLdgB_memOk {d a : Reg} {pol : Policy} {off : Int} (hs : s.memOk) : (execLdgB g d a pol off s).memOk :=
  instr_memOk (fun _ ha => ldg_yields ha) hs

theorem execLdgH_memOk {d a : Reg} {pol : Policy} {off : Int} (hs : s.memOk) : (execLdgH g d a pol off s).memOk :=
  instr_memOk (fun _ ha => ldg_yields ha) hs

theorem execLdgW_memOk {d a : Reg} {pol : Policy} {off : Int} (hs : s.memOk) : (execLdgW g d a pol off s).memOk :=
  instr_memOk (fun _ ha => ldg_yields ha) hs

theorem execLdgD_memOk {d a : Reg} {pol : Policy} {off : Int} (hs : s.memOk) : (execLdgD g d a pol off s).memOk :=
  instr_memOk (fun _ ha => ldg_yields ha) hs

theorem execLdgBu_memOk {d a : Reg} {pol : Policy} {off : Int} (hs : s.memOk) : (execLdgBu g d a pol off s).memOk :=
  instr_memOk (fun _ ha => ldg_yields ha) hs

theorem execLdgHu_memOk {d a : Reg} {pol : Policy} {off : Int} (hs : s.memOk) : (execLdgHu g d a pol off s).memOk :=
  instr_memOk (fun _ ha => ldg_yields ha) hs

theorem execLdgWu_memOk {d a : Reg} {pol : Policy} {off : Int} (hs : s.memOk) : (execLdgWu g d a pol off s).memOk :=
  instr_memOk (fun _ ha => ldg_yields ha) hs

theorem execStgB_memOk {d a : Reg} {pol : Policy} {off : Int} (hs : s.memOk) : (execStgB g d a pol off s).memOk :=
  instr_memOk (fun _ ha => stg_yields ha) hs

theorem execStgH_memOk {d a : Reg} {pol : Policy} {off : Int} (hs : s.memOk) : (execStgH g d a pol off s).memOk :=
  instr_memOk (fun _ ha => stg_yields ha) hs

theorem execStgW_memOk {d a : Reg} {pol : Policy} {off : Int} (hs : s.memOk) : (execStgW g d a pol off s).memOk :=
  instr_memOk (fun _ ha => stg_yields ha) hs

theorem execStgD_memOk {d a : Reg} {pol : Policy} {off : Int} (hs : s.memOk) : (execStgD g d a pol off s).memOk :=
  instr_memOk (fun _ ha => stg_yields ha) hs

theorem ldc_yields {n : Nat} {signed : Bool} {d a : Reg} {off : Int} (hs : s.memOk) :
    Yields Stop.memOk State.memOk (ldc n signed d a off s) :=
  .bind State.splitReady_yields fun _ _ => .bind State.addrOff_yields fun _ _ => .bind (State.globalEA_yields hs) fun ⟨_,
      _⟩ ht => .bind (checkIn_yields ht) fun _ _ => Yields.ok (State.issueLoad_memOk ht)

theorem execLdcW_memOk {d a : Reg} {off : Int} (hs : s.memOk) : (execLdcW g d a off s).memOk :=
  instr_memOk (fun _ ha => ldc_yields ha) hs

theorem execLdcD_memOk {d a : Reg} {off : Int} (hs : s.memOk) : (execLdcD g d a off s).memOk :=
  instr_memOk (fun _ ha => ldc_yields ha) hs

theorem execLdcWu_memOk {d a : Reg} {off : Int} (hs : s.memOk) : (execLdcWu g d a off s).memOk :=
  instr_memOk (fun _ ha => ldc_yields ha) hs

theorem State.clearConst_memOk {landing : Nat} (hs : s.memOk) : (s.clearConst landing).memOk := hs

theorem execCinvC_memOk (hs : s.memOk) : (execCinvC g s).memOk :=
  instr_memOk (fun _ ha => .bind State.memGate_yields fun _ _ => .bind State.relWait_yields fun _ _ => Yields.ok
      (State.clearConst_memOk ha)) hs

theorem lineCheck_yields {a : Reg} {off : Int} (hs : s.memOk) : Yields Stop.memOk State.memOk (lineCheck a off s) :=
  .bind State.addrOff_yields fun _ _ => .bind (State.globalEA_yields hs) fun ⟨_, _⟩ ht => Yields.ok ht

theorem execCfl_memOk {a : Reg} {off : Int} (hs : s.memOk) : (execCfl g a off s).memOk :=
  instr_memOk (fun _ ha => lineCheck_yields ha) hs

theorem execCinvl_memOk {a : Reg} {off : Int} (hs : s.memOk) : (execCinvl g a off s).memOk :=
  instr_memOk (fun _ ha => lineCheck_yields ha) hs

theorem State.fillLine_memOk {pa : Nat} (hs : s.memOk) : (s.fillLine c pa).memOk := by
  unfold State.fillLine
  split
  · exact hs
  · exact State.shareLine_memOk hs

theorem execCpf_memOk {a : Reg} {off : Int} (hs : s.memOk) : (execCpf g a off s).memOk :=
  instr_memOk (fun _ ha => .bind State.addrOff_yields fun _ _ => by
    split
    · next heq =>
      refine Yields.ok ?_
      split
      · exact State.fillLine_memOk (snd_of_eq heq (State.globalCheck_memOk ha))
      · exact snd_of_eq heq (State.globalCheck_memOk ha)
    · next heq =>
      exact Yields.ok (snd_of_eq heq (State.globalCheck_memOk ha))) hs

theorem lda_yields {n : Nat} {d a : Reg} {scope : Scope} (hs : s.memOk) :
    Yields Stop.memOk State.memOk (lda n d a scope s) :=
  .bind State.syncPoint_yields fun _ _ => .bind State.splitReady_yields fun _ _ => .bind State.rdX_yields fun _ _ => .bind
      (State.globalEA_yields hs) fun ⟨_, _⟩ ht => .bind (checkIn_yields ht) fun _ _ => Yields.ok (State.issueLoad_memOk
      ht)

theorem stl_yields {n : Nat} {d a : Reg} {scope : Scope} (hs : s.memOk) :
    Yields Stop.memOk State.memOk (stl n d a scope s) :=
  .bind State.rdX_yields fun _ _ => .bind State.notInRestartable_yields fun _ _ => .bind State.memGate_yields fun _ _ =>
      .bind State.rdX_yields fun _ _ => .bind (State.globalEA_yields hs) fun ⟨_, _⟩ ht => .bind (checkIn_yields ht) fun _
      _ => .bind (checkIn_yields ht) fun _ _ => .bind State.settledAt_yields fun _ _ => Yields.ok (State.issueStore_memOk
      ht)

theorem execLdaD_memOk {d a : Reg} {scope : Scope} (hs : s.memOk) : (execLdaD g d a scope s).memOk :=
  instr_memOk (fun _ ha => lda_yields ha) hs

theorem execLdaW_memOk {d a : Reg} {scope : Scope} (hs : s.memOk) : (execLdaW g d a scope s).memOk :=
  instr_memOk (fun _ ha => lda_yields ha) hs

theorem execStlD_memOk {d a : Reg} {scope : Scope} (hs : s.memOk) : (execStlD g d a scope s).memOk :=
  instr_memOk (fun _ ha => stl_yields ha) hs

theorem execStlW_memOk {d a : Reg} {scope : Scope} (hs : s.memOk) : (execStlW g d a scope s).memOk :=
  instr_memOk (fun _ ha => stl_yields ha) hs

theorem acquireFence_yields {scope : Scope} (hs : s.memOk) : Yields Stop.memOk State.memOk (acquireFence scope s) :=
  .bind State.syncPoint_yields fun _ _ => .bind waitUntil_yields fun _ _ => Yields.ok (State.acquireObs_memOk hs)

theorem execFenceAcq_memOk {scope : Scope} (hs : s.memOk) : (execFenceAcq g scope s).memOk :=
  instr_memOk (fun _ ha => acquireFence_yields ha) hs

theorem execFenceRel_memOk {scope : Scope} (hs : s.memOk) : (execFenceRel g scope s).memOk :=
  instr_memOk (fun _ ha => .bind State.syncPoint_yields fun _ _ => by
    split
    · exact .bind waitUntil_yields fun _ _ => Yields.ok ha
    · exact .bind waitUntil_yields fun _ _ => Yields.ok (State.modCx_memOk ha)) hs

theorem State.fenceFull_memOk {scope : Scope} (hs : s.memOk) : (s.fenceFull scope).memOk :=
  State.modCx_memOk (State.others_memOk (State.syncWith_memOk (State.acquireObs_memOk hs)))

theorem execFenceFull_memOk {scope : Scope} (hs : s.memOk) : (execFenceFull g scope s).memOk :=
  instr_memOk (fun _ ha => .bind State.settledAt_yields fun _ _ => Yields.ok (by
    split
    · exact State.acquireObs_memOk ha
    · exact State.fenceFull_memOk ha)) hs

theorem atomic_yields {op : Nat} {d a b : Reg} (hs : s.memOk) : Yields Stop.memOk State.memOk (atomic op d a b s) :=
  .bind State.rdX_yields fun _ _ => .bind State.notInRestartable_yields fun _ _ => .bind check_yields fun _ _ => .bind
      State.splitReady_yields fun _ _ => .bind State.rdX_yields fun _ _ => State.issueAtomic_yields hs

theorem reduction_yields {op : Nat} {a b : Reg} (hs : s.memOk) : Yields Stop.memOk State.memOk (reduction op a b s) :=
  .bind State.rdX_yields fun _ _ => .bind State.notInRestartable_yields fun _ _ => .bind State.memGate_yields fun _ _ =>
      .bind State.rdX_yields fun _ _ => State.issueAtomic_yields hs

theorem execAadd_memOk {d a b : Reg} (hs : s.memOk) : (execAadd g d a b s).memOk :=
  instr_memOk (fun _ ha => atomic_yields ha) hs

theorem execAand_memOk {d a b : Reg} (hs : s.memOk) : (execAand g d a b s).memOk :=
  instr_memOk (fun _ ha => atomic_yields ha) hs

theorem execAor_memOk {d a b : Reg} (hs : s.memOk) : (execAor g d a b s).memOk :=
  instr_memOk (fun _ ha => atomic_yields ha) hs

theorem execAxor_memOk {d a b : Reg} (hs : s.memOk) : (execAxor g d a b s).memOk :=
  instr_memOk (fun _ ha => atomic_yields ha) hs

theorem execAmin_memOk {d a b : Reg} (hs : s.memOk) : (execAmin g d a b s).memOk :=
  instr_memOk (fun _ ha => atomic_yields ha) hs

theorem execAmax_memOk {d a b : Reg} (hs : s.memOk) : (execAmax g d a b s).memOk :=
  instr_memOk (fun _ ha => atomic_yields ha) hs

theorem execAminu_memOk {d a b : Reg} (hs : s.memOk) : (execAminu g d a b s).memOk :=
  instr_memOk (fun _ ha => atomic_yields ha) hs

theorem execAswap_memOk {d a b : Reg} (hs : s.memOk) : (execAswap g d a b s).memOk :=
  instr_memOk (fun _ ha => atomic_yields ha) hs

theorem execAcas_memOk {d a b : Reg} (hs : s.memOk) : (execAcas g d a b s).memOk :=
  instr_memOk (fun _ ha => .bind State.rdX_yields fun _ _ => .bind State.notInRestartable_yields fun _ _ => .bind
      check_yields fun _ _ => .bind State.splitReady_yields fun _ _ => .bind State.rdX_yields fun _ _ => .bind
      State.rdX_yields fun _ _ => State.issueAtomic_yields ha) hs

theorem execRedadd_memOk {a b : Reg} (hs : s.memOk) : (execRedadd g a b s).memOk :=
  instr_memOk (fun _ ha => reduction_yields ha) hs

theorem execRedand_memOk {a b : Reg} (hs : s.memOk) : (execRedand g a b s).memOk :=
  instr_memOk (fun _ ha => reduction_yields ha) hs

theorem execRedor_memOk {a b : Reg} (hs : s.memOk) : (execRedor g a b s).memOk :=
  instr_memOk (fun _ ha => reduction_yields ha) hs

theorem execRedxor_memOk {a b : Reg} (hs : s.memOk) : (execRedxor g a b s).memOk :=
  instr_memOk (fun _ ha => reduction_yields ha) hs

theorem execRedmin_memOk {a b : Reg} (hs : s.memOk) : (execRedmin g a b s).memOk :=
  instr_memOk (fun _ ha => reduction_yields ha) hs

theorem execRedmax_memOk {a b : Reg} (hs : s.memOk) : (execRedmax g a b s).memOk :=
  instr_memOk (fun _ ha => reduction_yields ha) hs

theorem loadVersion_yields {kind : ReqKind} {d a b : Reg} (hs : s.memOk) :
    Yields Stop.memOk State.memOk (loadVersion kind d a b s) :=
  .bind State.syncPoint_yields fun _ _ => .bind State.splitReady_yields fun _ _ => .bind State.rdX_yields fun _ _ => .bind
      State.rdX_yields fun _ _ => .bind (State.globalEA_yields hs) fun ⟨_, _⟩ ht => .bind (checkIn_yields ht) fun _ _ =>
      Yields.ok (State.issueLoad_memOk ht)

theorem execLdv_memOk {d a b : Reg} (hs : s.memOk) : (execLdv g d a b s).memOk :=
  instr_memOk (fun _ ha => loadVersion_yields ha) hs

theorem execLdvn_memOk {d a b : Reg} (hs : s.memOk) : (execLdvn g d a b s).memOk :=
  instr_memOk (fun _ ha => loadVersion_yields ha) hs

theorem State.versionsDone_yields : Yields Stop.memOk (fun _ => True) s.versionsDone := waitUntil_yields

theorem State.versionSync_yields : Yields Stop.memOk (fun _ => True) s.versionSync := by
  unfold State.versionSync
  split
  · split
    · exact Yields.error trivial
    · exact Yields.ok trivial
  · exact Yields.ok trivial

theorem versionEA_yields {va : DWord} (hs : s.memOk) : Yields Stop.memOk (fun r => r.2.memOk) (versionEA va s) :=
  .bind (State.globalEA_yields hs) fun ⟨_, _⟩ ht => .bind (checkIn_yields ht) fun _ _ => .bind (checkIn_yields ht) fun _ _
      => .bind (checkIn_yields ht) fun _ _ => .bind State.versionsDone_yields fun _ _ => Yields.ok (State.syncWith_memOk
      ht)

theorem execStv_memOk {d a b : Reg} (hs : s.memOk) : (execStv g d a b s).memOk :=
  instr_memOk (fun _ ha => .bind State.memGate_yields fun _ _ => .bind State.syncPoint_yields fun _ _ => .bind
      State.rdX_yields fun _ _ => .bind State.rdX_yields fun _ _ => .bind State.rdX_yields fun _ _ => .bind
      (versionEA_yields ha) fun ⟨_, _⟩ ht => Yields.ok (State.post_memOk (State.snoop_memOk ht))) hs

theorem execRecl_memOk {a b : Reg} (hs : s.memOk) : (execRecl g a b s).memOk :=
  instr_memOk (fun _ ha => .bind State.memGate_yields fun _ _ => .bind State.versionSync_yields fun _ _ => .bind
      State.rdX_yields fun _ _ => .bind State.rdX_yields fun _ _ => .bind (versionEA_yields ha) fun ⟨_, _⟩ ht =>
      Yields.ok (State.post_memOk ht)) hs

theorem State.giveCap_memOk {region : Nat} (hs : s.memOk) : (s.giveCap c region).2.memOk := by
  unfold State.giveCap
  split
  · exact State.modCore_memOk hs (fun _ hk => hk)
  · split <;> exact hs

theorem execHand_memOk {a b : Reg} (hs : s.memOk) : (execHand g a b s).memOk :=
  instr_memOk (fun _ ha => .bind State.memGate_yields fun _ _ => .bind State.syncPoint_yields fun _ _ => .bind
      State.rdX_yields fun _ _ => .bind State.rdX_yields fun _ _ => .bind check_yields fun _ _ => .bind check_yields fun _
      _ => .bind State.versionsDone_yields fun _ _ => .bind State.settled_yields fun _ _ => Yields.ok (by
    split
    · exact State.others_memOk (State.giveCap_memOk ha)
    · exact State.emit_memOk (State.giveCap_memOk ha))) hs

/-! ### The home of a line -/

theorem State.modReq_memOk {id : Nat} {f : Req → Req} (hs : s.memOk) : (s.modReq c h id f).memOk :=
  State.modCtx_memOk hs

theorem State.tellAfter_memOk {id : Nat} {n : KMap Nat} (hs : s.memOk) : (s.tellAfter c h id n).memOk := by
  unfold State.tellAfter
  split
  · exact hs
  · exact State.modCore_memOk hs (fun _ hk => hk)

theorem State.tellLater_memOk {q : Req} (hs : s.memOk) : (s.tellLater c h q).memOk := State.tellAfter_memOk hs

theorem State.replied_memOk {q : Req} {v : DWord} (hs : s.memOk) : (s.replied c h q v).memOk :=
  State.modReq_memOk (State.tellLater_memOk hs)

theorem State.answer_memOk {q : Req} {v : DWord} (hs : s.memOk) : (s.answer c h q v).memOk :=
  State.modCtx_memOk (State.tellLater_memOk hs)

theorem State.deferFault_memOk {q : Req} {cause : Byte} {finfo : DWord} (hs : s.memOk) :
    (s.deferFault c h q cause finfo).memOk :=
  State.modReq_memOk hs

theorem State.loadValue_holds {k : Nat} {q : Req} (hs : s.memOk) :
    Holds (fun r => r.2.2.memOk) (s.loadValue c h k q) := by
  unfold State.loadValue
  split
  · split
    · exact Holds.none
    · exact Holds.some hs
  · split
    · exact Holds.some (State.draw_memOk 64 hs)
    · split
      · exact Holds.none
      · exact Holds.some hs
      · split
        · exact Holds.none
        · exact Holds.some (State.observe_memOk hs)

theorem State.constFill_memOk {landing line : Nat} (hs : s.memOk) : (s.constFill landing line).memOk := hs
theorem State.constRead_memOk {t : Nat} {q : Req} (hs : s.memOk) : (s.constRead c h t q).memOk := State.hasRead_memOk hs

theorem State.constValue_holds {k : Nat} {q : Req} (hs : s.memOk) :
    Holds (fun r => r.2.memOk) (s.constValue c h k q) := by
  unfold State.constValue
  dsimp only
  split
  · exact Holds.none
  · split
    · exact Holds.some (State.draw_memOk 64 hs)
    · split
      · refine Holds.some ?_
        split
        · exact State.constRead_memOk hs
        · exact State.constRead_memOk (State.constFill_memOk hs)
      · split
        · exact Holds.some (State.constRead_memOk (State.constFill_memOk hs))
        · split
          · exact Holds.some (State.constRead_memOk hs)
          · split
            · exact Holds.some (State.constRead_memOk (State.draw_memOk 1 hs))
            · exact Holds.some (State.constRead_memOk (State.constFill_memOk (State.draw_memOk 1 hs)))

theorem State.loadShares_memOk {q : Req} (hs : s.memOk) : (s.loadShares c q).memOk := by
  unfold State.loadShares
  split
  · exact State.shareLine_memOk hs
  · exact hs

theorem State.readVersion_memOk {q : Req} {p : Nat × DWord} (hs : s.memOk) : (s.readVersion c h q p).memOk :=
  State.answer_memOk (State.syncWith_memOk hs)

theorem State.sendLoad_memOk {q : Req} (hs : s.memOk) : (s.sendLoad c h q).memOk :=
  State.modReq_memOk (State.emit_memOk hs)

theorem State.farLoad_holds {k : Nat} {q : Req} {sg : Bool} (hs : s.memOk) :
    Holds State.memOk (s.farLoad c h k q sg) := by
  unfold State.farLoad
  split
  · exact Holds.none
  · split
    · split
      · exact Holds.none
      · exact Holds.some (State.sendLoad_memOk hs)
    · exact Holds.some (State.answer_memOk hs)
    · exact Holds.none

theorem State.nearReply_holds {k : Nat} {q : Req} (hs : s.memOk) : Holds State.memOk (s.nearReply c h k q) := by
  unfold State.nearReply
  split
  · exact Holds.none
  · split
    · exact Holds.some (State.deferFault_memOk hs)
    · split
      · exact Holds.map (fun _ e => State.answer_memOk (State.loadShares_memOk (Holds.of_eq e (State.loadValue_holds
          hs))))
      · exact Holds.map (fun _ e => State.answer_memOk (Holds.of_eq e (State.constValue_holds hs)))
      · exact Holds.map (fun _ e => State.answer_memOk (State.acquireFrom_memOk (State.loadShares_memOk (Holds.of_eq e
          (State.loadValue_holds hs)))))
      · exact Holds.none

theorem State.versionReply_holds {k : Nat} {q : Req} (hs : s.memOk) : Holds State.memOk (s.versionReply c h k q) := by
  unfold State.versionReply
  split
  · exact Holds.none
  · split
    · exact Holds.some (State.deferFault_memOk hs)
    · split
      · split
        · exact Holds.some (State.readVersion_memOk hs)
        · split
          · exact Holds.some (State.deferFault_memOk hs)
          · exact Holds.none
      · split
        · exact Holds.some (State.readVersion_memOk hs)
        · exact Holds.some (State.answer_memOk hs)

theorem State.loadReply_holds {k : Nat} {q : Req} (hs : s.memOk) : Holds State.memOk (s.loadReply c h k q) := by
  unfold State.loadReply
  split
  · exact State.versionReply_holds hs
  · exact State.versionReply_holds hs
  · split
    · exact State.farLoad_holds hs
    · exact State.nearReply_holds hs
  · split
    · exact State.farLoad_holds hs
    · exact State.nearReply_holds hs
  · split
    · exact State.farLoad_holds hs
    · exact State.nearReply_holds hs
  · exact Holds.none

theorem State.tryReply_holds {k : Nat} (hs : s.memOk) : Holds State.memOk (s.tryReply c h k) := by
  unfold State.tryReply
  split
  · exact Holds.none
  · split
    · exact Holds.none
    · split
      · exact Holds.some (State.answer_memOk hs)
      · exact State.loadReply_holds hs

theorem State.heldOr_holds {pa : Nat} {perform : Option State} (hs : s.memOk) (hperform : Holds State.memOk perform) :
    Holds State.memOk (s.heldOr pa perform) := by
  unfold State.heldOr
  split
  · split
    · exact Holds.none
    · exact Holds.some (State.holdLine_memOk hs)
  · exact hperform

theorem State.granted_memOk {q : Req} (hs : s.memOk) : (s.granted c q).memOk := by
  unfold State.granted
  split
  · exact State.ownLine_memOk hs
  · exact State.unshare_memOk hs

theorem State.performStore_memOk {q : Req} (hs : s.memOk) : (s.performStore c h q).memOk :=
  State.answer_memOk (State.sawNow_memOk (State.granted_memOk (State.memWrite_memOk hs)))

theorem State.sendStore_memOk {q : Req} (hs : s.memOk) : (s.sendStore c h q).memOk :=
  State.modReq_memOk (State.emit_memOk hs)

theorem State.tryGrant_holds {k : Nat} (hs : s.memOk) : Holds State.memOk (s.tryGrant c h k) := by
  unfold State.tryGrant
  split
  · exact Holds.none
  · split
    · exact Holds.none
    · split
      · split
        · exact Holds.none
        · exact Holds.some (State.sendStore_memOk hs)
      · exact State.heldOr_holds hs (Holds.some (State.performStore_memOk hs))

theorem State.hostPush_memOk {i : Fin 17} {ws : List DWord} (hs : s.memOk) : (s.hostPush i ws).memOk :=
  State.others_memOk (State.memWrite_memOk (State.memWrite_memOk hs))

theorem State.toQueue_holds {q : Req} {op : Nat} {unsupported : Bool} (hs : s.memOk) :
    Holds State.memOk (s.toQueue c h q op unsupported) := by
  unfold State.toQueue
  split
  · exact .none
  · split
    · exact .none
    · exact .some (State.modReq_memOk (State.others_memOk (State.hostPush_memOk hs)))

theorem State.performAtomic_memOk {q : Req} {op : Nat} {old : DWord} (hs : s.memOk) :
    (s.performAtomic c h q op old).memOk :=
  State.sawNow_memOk (State.unshare_memOk (State.memWrite_memOk (State.hasRead_memOk hs)))

theorem State.sendAtomic_memOk {q : Req} {op : Nat} (hs : s.memOk) : (s.sendAtomic c h q op).memOk :=
  State.modReq_memOk (State.emit_memOk hs)

theorem State.tryAtomic_holds {k : Nat} (hs : s.memOk) : Holds State.memOk (s.tryAtomic c h k) := by
  unfold State.tryAtomic
  split
  · exact Holds.none
  · split
    · split
      · exact Holds.none
      · split
        · split
          · exact Holds.none
          · exact Holds.some (State.sendAtomic_memOk hs)
        · split
          · split
            · exact State.toQueue_holds hs
            · exact Holds.some (State.deferFault_memOk hs)
          · split
            · exact Holds.some (State.deferFault_memOk hs)
            · exact State.heldOr_holds hs (Holds.some (State.answer_memOk (State.performAtomic_memOk hs)))
    · exact Holds.none

theorem State.hostPageAdd_memOk {pa : Nat} (hs : s.memOk) : (s.hostPageAdd c pa).memOk := hs

theorem State.tryUnsupported_holds {k : Nat} (hs : s.memOk) : Holds State.memOk (s.tryUnsupported c h k) := by
  unfold State.tryUnsupported
  split
  · exact Holds.none
  · split
    · split
      · exact Holds.none
      · refine Holds.some ?_
        split
        · exact Holds.getD (State.toQueue_holds (State.modReq_memOk (State.hostPageAdd_memOk hs))) (State.modReq_memOk
            (State.hostPageAdd_memOk hs))
        · exact State.deferFault_memOk (State.modReq_memOk (State.hostPageAdd_memOk hs))
    · exact Holds.none

theorem State.tryStv_holds {k : Nat} (hs : s.memOk) : Holds State.memOk (s.tryStv c h k) := by
  unfold State.tryStv
  dsimp only
  split
  · exact Holds.none
  · split
    · exact Holds.none
    · split
      · split
        · exact Holds.some (State.answer_memOk hs)
        · exact Holds.some (State.deferFault_memOk hs)
      · split
        · exact Holds.some (State.deferFault_memOk hs)
        · split
          · exact Holds.none
          · exact Holds.some (State.answer_memOk hs)

theorem State.tryRecl_holds {k : Nat} (hs : s.memOk) : Holds State.memOk (s.tryRecl c h k) := by
  unfold State.tryRecl
  split
  · exact Holds.none
  · split
    · exact Holds.none
    · split <;> exact Holds.some (State.answer_memOk hs)

theorem Core.gainCap_holds {region lcnt : Nat} {seen : KMap Nat} (hk : k.spadOk) :
    Holds Core.spadOk (k.gainCap region lcnt seen) := by
  unfold Core.gainCap
  split
  · exact Holds.some hk
  · exact Holds.none

theorem State.tryCap_holds {k : Nat} (hs : s.memOk) : Holds State.memOk (s.tryCap k) := by
  unfold State.tryCap
  dsimp only
  split
  · exact Holds.none
  · next a1 _ =>
    split
    · exact Holds.none
    · split
      · next heq1 =>
        exact Holds.some (State.setCore_memOk hs (Holds.of_eq heq1 (Core.gainCap_holds (State.core_spadOk hs a1.dst))))
      · split
        · split
          · exact Holds.some (State.others_memOk hs)
          · exact Holds.some hs
        · exact Holds.some (State.others_memOk hs)

theorem State.tryCapq_holds {k : Nat} (hs : s.memOk) : Holds State.memOk (s.tryCapq c h k) := by
  unfold State.tryCapq
  split
  · exact Holds.none
  · split
    · exact Holds.none
    · split
      · exact Holds.some (State.answer_memOk hs)
      · exact Holds.some (State.answer_memOk (State.draw_memOk 1 hs))

theorem happen_memOk {r : Option State} (hs : s.memOk) (hr : Holds State.memOk r) : (happen s r).memOk :=
  Holds.getD hr hs

theorem execSplitPhaseReply_memOk {k : Nat} (hs : s.memOk) : (execSplitPhaseReply c h k s).memOk :=
  happen_memOk hs (State.tryReply_holds hs)

theorem execStoreGrant_memOk {k : Nat} (hs : s.memOk) : (execStoreGrant c h k s).memOk :=
  happen_memOk hs (State.tryGrant_holds hs)

theorem execAtomicAtHome_memOk {k : Nat} (hs : s.memOk) : (execAtomicAtHome c h k s).memOk :=
  happen_memOk hs (State.tryAtomic_holds hs)

theorem execAtomicopUnsupported_memOk {k : Nat} (hs : s.memOk) : (execAtomicopUnsupported c h k s).memOk :=
  happen_memOk hs (State.tryUnsupported_holds hs)

theorem execStvApply_memOk {k : Nat} (hs : s.memOk) : (execStvApply c h k s).memOk :=
  happen_memOk hs (State.tryStv_holds hs)

theorem execReclApply_memOk {k : Nat} (hs : s.memOk) : (execReclApply c h k s).memOk :=
  happen_memOk hs (State.tryRecl_holds hs)

theorem execCapabilityArrival_memOk {k : Nat} (hs : s.memOk) : (execCapabilityArrival k s).memOk :=
  happen_memOk hs (State.tryCap_holds hs)

theorem execCapqAnswer_memOk {k : Nat} (hs : s.memOk) : (execCapqAnswer c h k s).memOk :=
  happen_memOk hs (State.tryCapq_holds hs)

theorem execDirectoryOverflowNotice_memOk {line : Nat} (hs : s.memOk) : (execDirectoryOverflowNotice line c s).memOk :=
  happen_memOk hs (by
    split
    · exact Holds.some (State.overflowLine_memOk hs)
    · exact Holds.none)

theorem execTlbWalkComplete_memOk {va : DWord} (hs : s.memOk) : (execTlbWalkComplete c va s).memOk :=
  happen_memOk hs (by
    split
    · exact Holds.none
    · split
      · exact Holds.some (State.tlbFill_memOk hs)
      · exact Holds.none)

theorem State.tryPrefetch_holds {n : Fin 8} (hs : s.memOk) : Holds State.memOk (s.tryPrefetch c h n) := by
  unfold State.tryPrefetch
  dsimp only
  split
  · exact Holds.some (State.finishPrefetch_memOk hs)
  · exact Holds.none

theorem execPrefetchComplete_memOk {n : Fin 8} (hs : s.memOk) : (execPrefetchComplete c h n s).memOk :=
  happen_memOk hs (State.tryPrefetch_holds hs)

theorem execWsRefreshWindow_memOk (hs : s.memOk) : (execWsRefreshWindow s).memOk := State.wsRefresh_memOk hs
theorem State.runNext_memOk (hs : s.memOk) : (s.runNext c h).memOk := hs

theorem State.tryServe_holds (hs : s.memOk) : Holds State.memOk (s.tryServe c) :=
  Holds.map (fun _ _ => State.runNext_memOk hs)

theorem State.takeService_holds (hs : s.memOk) : Holds State.memOk (s.takeService c h) := by
  unfold State.takeService
  split
  · exact Holds.none
  · split
    · split
      · exact Holds.some (State.modCore_memOk hs (fun _ hk => hk))
      · exact Holds.none
    · exact Holds.some hs

theorem execFeWaiterService_memOk (hs : s.memOk) : (execFeWaiterService c s).memOk :=
  happen_memOk hs (State.tryServe_holds hs)

theorem State.tryWait_holds (hs : s.memOk) : Holds State.memOk (s.tryWait c h) := by
  unfold State.tryWait
  dsimp only
  split
  · exact Holds.some (State.runNext_memOk hs)
  · exact Holds.none

theorem execWaitSatisfied_memOk (hs : s.memOk) : (execWaitSatisfied c h s).memOk :=
  happen_memOk hs (State.tryWait_holds hs)

theorem execTrapEntry_memOk (hs : s.memOk) : (execTrapEntry c s).memOk :=
  State.modCore_memOk hs (fun _ hk => Core.serveRec_spadOk hk)

theorem execHeartbeatMissed_memOk (hs : s.memOk) : (execHeartbeatMissed c h s).memOk :=
  happen_memOk hs (State.tryMiss_holds hs)

theorem execTrapBudgetExpired_memOk (hs : s.memOk) : (execTrapBudgetExpired c s).memOk :=
  happen_memOk hs (State.tryMiss_holds hs)

theorem execReactionStart_memOk (hs : s.memOk) : (execReactionStart c s).memOk :=
  happen_memOk hs (State.tryStart_holds hs)

theorem execJoinGraceExpired_memOk (hs : s.memOk) : (execJoinGraceExpired c s).memOk :=
  happen_memOk hs (State.tryGrace_holds hs)

theorem execPoolUnitStart_memOk (hs : s.memOk) : (execPoolUnitStart c s).memOk :=
  happen_memOk hs (State.tryUnit_holds hs)

theorem execHeadStaleDiscard_memOk (hs : s.memOk) : (execHeadStaleDiscard c s).memOk :=
  happen_memOk hs (State.tryStale_holds hs)

theorem execCancelledEventDiscard_memOk (hs : s.memOk) : (execCancelledEventDiscard c s).memOk :=
  happen_memOk hs (State.tryCancelled_holds hs)

theorem execSlotChangeEffect_memOk {slot : Fin 64} (hs : s.memOk) : (execSlotChangeEffect c slot s).memOk :=
  happen_memOk hs (State.trySlot_holds hs)

theorem State.tryArrival_holds {k : Nat} (hs : s.memOk) : Holds State.memOk (s.tryArrival k) := by
  unfold State.tryArrival
  dsimp only
  split
  · exact Holds.none
  · split
    · exact Holds.none
    · split
      · exact Holds.none
      · exact Holds.some (State.arrive_memOk hs)

theorem execEventArrival_memOk {k : Nat} (hs : s.memOk) : (execEventArrival k s).memOk :=
  happen_memOk hs (State.tryArrival_holds hs)

theorem State.tryEntry_holds (hs : s.memOk) : Holds State.memOk (s.tryEntry c) := by
  unfold State.tryEntry
  dsimp only
  split
  · exact Holds.none
  · split
    · exact Holds.some (State.enter_memOk (State.modCore_memOk hs (fun _ hk => hk)))
    · exact Holds.none

theorem execHoldBackEntry_memOk (hs : s.memOk) : (execHoldBackEntry c s).memOk :=
  happen_memOk hs (State.tryEntry_holds hs)

theorem State.tryDepart_holds (hs : s.memOk) : Holds State.memOk (s.tryDepart c) := by
  unfold State.tryDepart
  split
  · exact Holds.none
  · split
    · exact Holds.some (State.launchEvent_memOk (State.modCore_memOk hs (fun _ hk => by
        split
        · exact Core.perf_spadOk (Core.others_spadOk hk)
        · exact hk)))
    · exact Holds.none

theorem execSendDeparture_memOk (hs : s.memOk) : (execSendDeparture c s).memOk :=
  happen_memOk hs (State.tryDepart_holds hs)

end

end Sys2Proof.Machine
end

/-! PROOFS. Canonical memory (O59), fourth part: streams, vectors, the matrix unit, groups, objects and sends. -/

section
namespace Sys2Proof.Machine

section
variable {s t : State} {k : Core} {c : CoreId} {h : CtxId} {g : Guard}

/-! ### Streams -/

theorem State.readPart_yields {e : EA} {off n : Nat} (hs : s.memOk) :
    Yields Stop.memOk (fun r => r.2.memOk) (s.readPart e off n) :=
  .bind waitUntil_yields fun _ _ => .bind (checkIn_yields hs) fun _ _ => .bind (checkIn_yields hs) fun _ _ => by
    split
    · exact Yields.ok hs
    · split
      · exact Yields.ok (State.draw_memOk 64 hs)
      · refine Yields.ok ?_
        split
        · exact State.shareLine_memOk (State.observe_memOk hs)
        · exact State.observe_memOk hs

theorem State.readWait_yields {e : EA} {i : Nat} (hs : s.memOk) :
    Yields Stop.memOk (fun r => r.2.memOk) (s.readWait e i) :=
  .bind (State.readPart_yields hs) fun ⟨_, _⟩ ht => Yields.ok ht

theorem State.readWaits_yields {e : EA} {i n : Nat} (hs : s.memOk) :
    Yields Stop.memOk (fun r => r.2.memOk) (s.readWaits e i n) := by
  induction n generalizing s i with
  | zero => exact .ok hs
  | succ n ih => exact .bind (State.readWait_yields hs) fun ⟨_, _⟩ ht => .bind (ih ht) fun ⟨_, _⟩ hu => .ok hu

theorem State.modLayout_memOk {y : Fin 4} {f : LayoutReg → LayoutReg} (hs : s.memOk) : (s.modLayout y f).memOk :=
  State.modMe_memOk hs (fun _ ha => ha)

theorem execYld_memOk {d : Fin 4} {a : Reg} (hs : s.memOk) : (execYld g d a s).memOk := by
  unfold execYld
  dsimp only
  exact instr_memOk (fun _ ha => .bind State.rdX_yields fun _ _ => .bind State.memGate_yields fun _ _ => .bind
      (State.globalEA_yields ha) fun ⟨_, _⟩ ht => .bind (State.readWaits_yields ht) fun ⟨_, _⟩ ht1 => by
    split
    · exact Yields.ok (State.modLayout_memOk ht1)
    · exact Yields.error ht1) hs

theorem execYbase_memOk {d : Fin 4} {a : Reg} (hs : s.memOk) : (execYbase g d a s).memOk :=
  instr_memOk (fun _ ha => .bind State.rdX_yields fun _ _ => Yields.ok (State.modLayout_memOk ha)) hs

theorem execYext_memOk {d : Fin 4} {a : Reg} {n : Fin 4} (hs : s.memOk) : (execYext g d a n s).memOk :=
  instr_memOk (fun _ ha => .bind State.rdX_yields fun _ _ => Yields.ok (State.modLayout_memOk ha)) hs

theorem execYrd_memOk {d : Reg} {a : Fin 4} {n : Fin 5} (hs : s.memOk) : (execYrd g d a n s).memOk :=
  instr_memOk (fun _ ha => State.wrX_yields ha) hs

theorem State.modStream_memOk {st : Fin 8} {f : Stream → Stream} (hs : s.memOk) : (s.modStream c st f).memOk := by
  unfold State.modStream
  dsimp only
  split
  · exact State.modCore_memOk hs (fun _ hk => hk)
  · exact State.pulse_memOk (State.modCore_memOk hs (fun _ hk => hk))

theorem State.streamRead_yields {st : Fin 8} {d : StreamDesc} {a : DWord} {i f : Nat} (hs : s.memOk) :
    Yields (fun _ => True) (fun r => r.2.2.memOk) (s.streamRead c st d a i f) := by
  induction f generalizing s i with
  | zero => exact .ok hs
  | succ f ih =>
    refine .bind (P := fun r => r.2.2.memOk) ?_ fun ⟨_, _, _⟩ ht => .bind (ih ht) fun ⟨_, _, _⟩ hu => .ok hu
    split
    · exact State.engRead_yields hs
    · refine .bind (P := fun _ => True) ?_ fun _ _ => ?_
      · exact .any
      · split
        · exact .error trivial
        · exact .ok hs

theorem State.streamWrite_yields {st : Fin 8} {w : Writer} {d : StreamDesc} {a : DWord} {v i f : Nat} (hs : s.memOk) :
    Yields (fun _ => True) (fun r => r.2.memOk) (s.streamWrite c st w d a v i f) := by
  induction f generalizing s i with
  | zero => exact .ok hs
  | succ f ih =>
    refine .bind (P := fun r => r.2.memOk) ?_ fun ⟨_, _⟩ ht => .bind (ih ht) fun ⟨_, _⟩ hu => .ok hu
    split
    · exact State.engWrite_yields hs
    · exact .map (State.engSpadPut_yields hs) fun _ ht => ht

theorem State.tryStream_holds {st : Fin 8} (hs : s.memOk) : Holds State.memOk (s.tryStream c st) := by
  unfold State.tryStream
  dsimp only
  split
  · split
    · exact Holds.none
    · split
      · split
        · exact Holds.none
        · split
          · next heq3 =>
            exact Holds.some (State.modStream_memOk (State.tellAfter_memOk (State.syncWith_memOk (Yields.ok_of_eq heq3
                (State.streamWrite_yields hs)))))
          · exact Holds.some (State.engForget_memOk (State.modStream_memOk hs))
          · exact State.holdFor_holds hs
      · split
        · exact Holds.none
        · split
          · next heq1 =>
            exact Holds.some (State.modStream_memOk (Yields.ok_of_eq heq1 (State.streamRead_yields hs)))
          · exact Holds.some (State.engForget_memOk (State.modStream_memOk hs))
          · exact State.holdFor_holds hs
  · exact Holds.none

theorem execStreamElementAccess_memOk {st : Fin 8} (hs : s.memOk) : (execStreamElementAccess c st s).memOk :=
  Holds.getD (State.tryStream_holds hs) hs

theorem streamFault_yields {α : Type} {st : Fin 8} {f : Byte × DWord} {P : α → Prop} :
    Yields Stop.memOk P (streamFault (α := α) st f) := fault_yields

theorem outputFault_yields {st : Fin 8} {t : Stream} : Yields Stop.memOk (fun _ => True) (outputFault st t) := by
  unfold outputFault
  split
  · split
    · exact streamFault_yields
    · exact Yields.ok trivial
  · exact Yields.ok trivial

theorem State.sawReads_memOk {l : List (Nat × Nat × Nat)} (hs : s.memOk) : (s.sawReads l).memOk :=
  foldl_keeps hs (fun _ ht _ => State.hasRead_memOk ht)

theorem State.popped_yields {v : Vec} (hs : s.memOk) :
    Yields Stop.memOk (fun r : Vec × State => r.2.memOk) (.ok (v, s)) := .ok hs

theorem State.popStream_yields {st : Fin 8} (hs : s.memOk) : Yields Stop.memOk (fun r => r.2.memOk) (s.popStream st) := by
  unfold State.popStream
  extract_lets t
  clear_value t
  split
  · exact State.popped_yields hs
  · split
    · refine State.popped_yields ?_
      exact State.modStream_memOk hs
    · split
      · split
        · exact streamFault_yields
        · exact .error trivial
      · refine State.popped_yields ?_
        exact State.sawReads_memOk (State.modStream_memOk hs)
  · split
    · split
      · exact .error trivial
      · refine State.popped_yields ?_
        exact (State.syncWith_memOk (State.modStream_memOk hs))
    · split
      · refine State.popped_yields ?_
        exact State.modStream_memOk hs
      · exact .error trivial

theorem State.pushStream_yields {st : Fin 8} {v : Vec} (hs : s.memOk) :
    Yields Stop.memOk State.memOk (s.pushStream st v) := by
  unfold State.pushStream
  dsimp only
  split
  · exact Yields.ok hs
  · exact .bind State.relWait_yields fun _ _ => by
      split
      · exact Yields.ok (State.modStream_memOk hs)
      · split
        · exact Yields.error trivial
        · exact Yields.ok (State.modStream_memOk hs)
  · split
    · exact Yields.ok (State.modStream_memOk hs)
    · split
      · exact Yields.error trivial
      · exact Yields.ok (State.modStream_memOk hs)

theorem State.streamUse_yields {r : Reg} {push : Bool} : Yields Stop.memOk (fun _ => True) (s.streamUse r push) := by
  unfold State.streamUse
  dsimp only
  split
  · exact Yields.ok trivial
  · split
    · exact .bind check_yields fun _ _ => by
        split
        · split
          · exact .bind State.notInRestartable_yields fun _ _ => outputFault_yields
          · exact outputFault_yields
        · exact .bind (P := fun x => True) (Yields.ok trivial) fun _ _ => outputFault_yields
    · exact .bind (P := fun x => True) (Yields.ok trivial) fun _ _ => by
        split
        · split
          · exact .bind State.notInRestartable_yields fun _ _ => outputFault_yields
          · exact outputFault_yields
        · exact .bind (P := fun x => True) (Yields.ok trivial) fun _ _ => outputFault_yields

theorem State.readVecs_yields {seen : List (Reg × Vec)} {l : List Reg} (hs : s.memOk) :
    Yields Stop.memOk (fun r => r.2.memOk) (s.readVecs seen l) := by
  induction l generalizing s seen with
  | nil => exact .ok hs
  | cons r rest ih =>
    unfold State.readVecs
    split
    · exact ih hs
    · split
      · exact ih hs
      · exact .bind (State.popStream_yields hs) fun ⟨_, _⟩ ht => ih ht

theorem State.writeVec_yields {d : Reg} {v : Vec} (hs : s.memOk) : Yields Stop.memOk State.memOk (s.writeVec d v) := by
  unfold State.writeVec
  split
  · exact State.pushStream_yields hs
  · exact Yields.ok (State.putV_memOk hs)

theorem streamDescOf_yields {ws : List DWord} : Yields Stop.memOk (fun _ => True) (streamDescOf ws) :=
  .bind check_yields fun _ _ => .bind check_yields fun _ _ => Yields.ok trivial

theorem Stream.settled_yields {t : Stream} {st : Fin 8} : Yields Stop.memOk (fun _ => True) (t.settled st) := by
  unfold Stream.settled
  split
  · split
    · exact .bind outputFault_yields fun _ _ => waitUntil_yields
    · exact Yields.ok trivial
  · exact Yields.ok trivial

theorem State.unbindReady_yields {st : Fin 8} : Yields Stop.memOk (fun _ => True) (s.unbindReady st) := by
  unfold State.unbindReady
  dsimp only
  split
  · split
    · exact Stream.settled_yields
    · exact Yields.ok trivial
  · exact Yields.ok trivial

theorem State.rebindReady_yields {st : Fin 8} (hs : s.memOk) : Yields Stop.memOk (fun _ => True) (s.rebindReady st) := by
  unfold State.rebindReady
  dsimp only
  exact .bind Stream.settled_yields fun _ _ => by
    split
    · exact Yields.error (State.modMe_memOk hs (fun _ ha => ha))
    · exact Yields.ok trivial

theorem Core.dropStreams_spadOk (hk : k.spadOk) : (k.dropStreams h).spadOk := hk

theorem State.dropStreams_memOk (hs : s.memOk) : (s.dropStreams h).memOk :=
  foldl_keeps (State.modMe_memOk hs (fun _ ha => Core.dropStreams_spadOk ha)) (fun _ ht _ => State.engForget_memOk ht)

theorem State.endStreams_yields : Yields Stop.memOk (fun _ => True) s.endStreams :=
  .forM (fun _ => State.unbindReady_yields)

theorem execSbind_memOk {d : Fin 8} {a : Reg} (hs : s.memOk) : (execSbind g d a s).memOk :=
  instr_memOk (fun _ ha => .bind State.rdX_yields fun _ _ => .bind State.memGate_yields fun _ _ => .bind spadCheck_yields
      fun _ _ => .bind State.spadSound_yields fun _ _ => .bind streamDescOf_yields fun _ _ => .bind
      (State.rebindReady_yields ha) fun _ _ => Yields.ok (State.engForget_memOk (State.modMe_memOk ha (fun _ hk =>
      hk)))) hs

theorem execSunb_memOk {d : Fin 8} (hs : s.memOk) : (execSunb g d s).memOk :=
  instr_memOk (fun _ ha => .bind State.unbindReady_yields fun _ _ => by
    split
    · exact Yields.ok (State.putV_memOk (State.engForget_memOk (State.modMe_memOk (State.draw_memOk 1024 ha) (fun _ hk =>
        hk))))
    · exact Yields.ok ha) hs

theorem execSlink_memOk {d : Fin 8} {a : Reg} (hs : s.memOk) : (execSlink g d a s).memOk :=
  instr_memOk (fun _ ha => .bind State.rdX_yields fun _ _ => .bind check_yields fun _ _ => by
    split
    · split
      · exact .bind (State.rebindReady_yields ha) fun _ _ => Yields.ok (State.engForget_memOk (State.modMe_memOk ha (fun
          _ hk => hk)))
      · exact Yields.ok (State.engForget_memOk (State.modMe_memOk ha (fun _ hk => hk)))
    · exact fault_yields) hs

theorem execSstat_memOk {d : Reg} {a : Fin 8} (hs : s.memOk) : (execSstat g d a s).memOk :=
  instr_memOk (fun _ ha => State.wrX_yields ha) hs

/-! ### Vectors -/

theorem instrLanes_memOk {body : State → Act} (hbody : ∀ (a : State), a.memOk → Yields Stop.memOk State.memOk (body a))
    (hs : s.memOk) : (instrLanes g body s).memOk := by
  unfold instrLanes
  split
  · exact State.finish_memOk hs (hbody s hs)
  · exact State.retire_memOk hs

theorem State.noStream_yields {d : Reg} : Yields Stop.memOk (fun _ => True) (s.noStream d) := check_yields

theorem State.sources_yields {rs : List Reg} (hs : s.memOk) : Yields Stop.memOk (fun r => r.2.memOk) (s.sources rs) :=
  .bind (.forM (fun _ => State.streamUse_yields)) fun _ _ => State.readVecs_yields hs

theorem State.laneFlags_memOk {rs : List (BitVec 5 × Bool)} (hs : s.memOk) : (s.laneFlags rs).memOk :=
  State.setSat_memOk (State.orFlags_memOk hs)

theorem State.writeLanes_yields {w n : Nat} {pl : Nat → Nat} {d : Reg} {f : Nat → LaneRes w} (hs : s.memOk) :
    Yields Stop.memOk State.memOk (s.writeLanes g w n pl d f) :=
  .bind (State.writeVec_yields hs) fun _ ht => Yields.ok (State.laneFlags_memOk ht)

theorem laneOp_yields {w : Nat} {readsD : Bool} {d a b : Reg} {f : BitVec w → BitVec w → BitVec w → LaneRes w}
    (hs : s.memOk) : Yields Stop.memOk State.memOk (laneOp w readsD g d a b f s) := by
  unfold laneOp
  split
  · exact .bind State.noStream_yields fun _ _ => .bind (State.sources_yields hs) fun ⟨_, _⟩ ht => State.writeLanes_yields
      ht
  · exact .bind State.streamUse_yields fun _ _ => .bind (State.sources_yields hs) fun ⟨_, _⟩ ht => State.writeLanes_yields
      ht

theorem vop2_memOk {w : Nat} {d a b : Reg} {f : BitVec w → BitVec w → LaneRes w} (hs : s.memOk) :
    (vop2 w g d a b f s).memOk :=
  instrLanes_memOk (fun _ ha => laneOp_yields ha) hs

theorem vop1_memOk {w : Nat} {d a : Reg} {f : BitVec w → LaneRes w} (hs : s.memOk) : (vop1 w g d a f s).memOk :=
  instrLanes_memOk (fun _ ha => laneOp_yields ha) hs

theorem vop3_memOk {w : Nat} {d a b : Reg} {f : BitVec w → BitVec w → BitVec w → LaneRes w} (hs : s.memOk) :
    (vop3 w g d a b f s).memOk :=
  instrLanes_memOk (fun _ ha => laneOp_yields ha) hs

theorem execVaddW_memOk {d a b : Reg} (hs : s.memOk) : (execVaddW g d a b s).memOk := vop2_memOk hs
theorem execVsubW_memOk {d a b : Reg} (hs : s.memOk) : (execVsubW g d a b s).memOk := vop2_memOk hs
theorem execVmulW_memOk {d a b : Reg} (hs : s.memOk) : (execVmulW g d a b s).memOk := vop2_memOk hs
theorem execVmulhW_memOk {d a b : Reg} (hs : s.memOk) : (execVmulhW g d a b s).memOk := vop2_memOk hs
theorem execVminW_memOk {d a b : Reg} (hs : s.memOk) : (execVminW g d a b s).memOk := vop2_memOk hs
theorem execVmaxW_memOk {d a b : Reg} (hs : s.memOk) : (execVmaxW g d a b s).memOk := vop2_memOk hs
theorem execVminuW_memOk {d a b : Reg} (hs : s.memOk) : (execVminuW g d a b s).memOk := vop2_memOk hs
theorem execVmaxuW_memOk {d a b : Reg} (hs : s.memOk) : (execVmaxuW g d a b s).memOk := vop2_memOk hs
theorem execVaddH_memOk {d a b : Reg} (hs : s.memOk) : (execVaddH g d a b s).memOk := vop2_memOk hs
theorem execVsubH_memOk {d a b : Reg} (hs : s.memOk) : (execVsubH g d a b s).memOk := vop2_memOk hs
theorem execVmulH_memOk {d a b : Reg} (hs : s.memOk) : (execVmulH g d a b s).memOk := vop2_memOk hs
theorem execVmulhH_memOk {d a b : Reg} (hs : s.memOk) : (execVmulhH g d a b s).memOk := vop2_memOk hs
theorem execVminH_memOk {d a b : Reg} (hs : s.memOk) : (execVminH g d a b s).memOk := vop2_memOk hs
theorem execVmaxH_memOk {d a b : Reg} (hs : s.memOk) : (execVmaxH g d a b s).memOk := vop2_memOk hs
theorem execVminuH_memOk {d a b : Reg} (hs : s.memOk) : (execVminuH g d a b s).memOk := vop2_memOk hs
theorem execVmaxuH_memOk {d a b : Reg} (hs : s.memOk) : (execVmaxuH g d a b s).memOk := vop2_memOk hs
theorem execVaddB_memOk {d a b : Reg} (hs : s.memOk) : (execVaddB g d a b s).memOk := vop2_memOk hs
theorem execVsubB_memOk {d a b : Reg} (hs : s.memOk) : (execVsubB g d a b s).memOk := vop2_memOk hs
theorem execVaddsB_memOk {d a b : Reg} (hs : s.memOk) : (execVaddsB g d a b s).memOk := vop2_memOk hs
theorem execVsubsB_memOk {d a b : Reg} (hs : s.memOk) : (execVsubsB g d a b s).memOk := vop2_memOk hs
theorem execVminB_memOk {d a b : Reg} (hs : s.memOk) : (execVminB g d a b s).memOk := vop2_memOk hs
theorem execVmaxB_memOk {d a b : Reg} (hs : s.memOk) : (execVmaxB g d a b s).memOk := vop2_memOk hs
theorem execVminuB_memOk {d a b : Reg} (hs : s.memOk) : (execVminuB g d a b s).memOk := vop2_memOk hs
theorem execVmaxuB_memOk {d a b : Reg} (hs : s.memOk) : (execVmaxuB g d a b s).memOk := vop2_memOk hs
theorem execVand_memOk {d a b : Reg} (hs : s.memOk) : (execVand g d a b s).memOk := vop2_memOk hs
theorem execVor_memOk {d a b : Reg} (hs : s.memOk) : (execVor g d a b s).memOk := vop2_memOk hs
theorem execVxor_memOk {d a b : Reg} (hs : s.memOk) : (execVxor g d a b s).memOk := vop2_memOk hs
theorem execVandn_memOk {d a b : Reg} (hs : s.memOk) : (execVandn g d a b s).memOk := vop2_memOk hs
theorem execVshlW_memOk {d a b : Reg} (hs : s.memOk) : (execVshlW g d a b s).memOk := vop2_memOk hs
theorem execVshrW_memOk {d a b : Reg} (hs : s.memOk) : (execVshrW g d a b s).memOk := vop2_memOk hs
theorem execVsraW_memOk {d a b : Reg} (hs : s.memOk) : (execVsraW g d a b s).memOk := vop2_memOk hs
theorem execVnot_memOk {d a : Reg} (hs : s.memOk) : (execVnot g d a s).memOk := vop1_memOk hs
theorem execVfaddS_memOk {d a b : Reg} (hs : s.memOk) : (execVfaddS g d a b s).memOk := vop2_memOk hs
theorem execVfsubS_memOk {d a b : Reg} (hs : s.memOk) : (execVfsubS g d a b s).memOk := vop2_memOk hs
theorem execVfmulS_memOk {d a b : Reg} (hs : s.memOk) : (execVfmulS g d a b s).memOk := vop2_memOk hs
theorem execVfminS_memOk {d a b : Reg} (hs : s.memOk) : (execVfminS g d a b s).memOk := vop2_memOk hs
theorem execVfmaxS_memOk {d a b : Reg} (hs : s.memOk) : (execVfmaxS g d a b s).memOk := vop2_memOk hs
theorem execVfmaS_memOk {d a b : Reg} (hs : s.memOk) : (execVfmaS g d a b s).memOk := vop3_memOk hs
theorem execVfabsS_memOk {d a : Reg} (hs : s.memOk) : (execVfabsS g d a s).memOk := vop1_memOk hs
theorem execVfnegS_memOk {d a : Reg} (hs : s.memOk) : (execVfnegS g d a s).memOk := vop1_memOk hs
theorem execVfaddBf_memOk {d a b : Reg} (hs : s.memOk) : (execVfaddBf g d a b s).memOk := vop2_memOk hs
theorem execVfsubBf_memOk {d a b : Reg} (hs : s.memOk) : (execVfsubBf g d a b s).memOk := vop2_memOk hs
theorem execVfmulBf_memOk {d a b : Reg} (hs : s.memOk) : (execVfmulBf g d a b s).memOk := vop2_memOk hs
theorem execVfminBf_memOk {d a b : Reg} (hs : s.memOk) : (execVfminBf g d a b s).memOk := vop2_memOk hs
theorem execVfmaxBf_memOk {d a b : Reg} (hs : s.memOk) : (execVfmaxBf g d a b s).memOk := vop2_memOk hs
theorem execVfmaBf_memOk {d a b : Reg} (hs : s.memOk) : (execVfmaBf g d a b s).memOk := vop3_memOk hs
theorem execVfdotBf_memOk {d a b : Reg} (hs : s.memOk) : (execVfdotBf g d a b s).memOk := vop3_memOk hs
theorem execVrcpS_memOk {d a : Reg} (hs : s.memOk) : (execVrcpS g d a s).memOk := vop1_memOk hs
theorem execVrsqS_memOk {d a : Reg} (hs : s.memOk) : (execVrsqS g d a s).memOk := vop1_memOk hs
theorem execVexp2S_memOk {d a : Reg} (hs : s.memOk) : (execVexp2S g d a s).memOk := vop1_memOk hs
theorem execVlog2S_memOk {d a : Reg} (hs : s.memOk) : (execVlog2S g d a s).memOk := vop1_memOk hs
theorem execVsqrtS_memOk {d a : Reg} (hs : s.memOk) : (execVsqrtS g d a s).memOk := vop1_memOk hs
theorem execVfloorS_memOk {d a : Reg} (hs : s.memOk) : (execVfloorS g d a s).memOk := vop1_memOk hs
theorem execVtanhS_memOk {d a : Reg} (hs : s.memOk) : (execVtanhS g d a s).memOk := vop1_memOk hs
theorem execVdivS_memOk {d a b : Reg} (hs : s.memOk) : (execVdivS g d a b s).memOk := vop2_memOk hs

theorem State.writeCmp_memOk {p : PReg} {f : Nat → Bool × Bool} (hs : s.memOk) : (s.writeCmp g p f).memOk :=
  State.orFlags_memOk (State.putP_memOk hs)

theorem execVcmp_memOk {p : PReg} {a b : Reg} {cc : ICond} (hs : s.memOk) : (execVcmp g p a b cc s).memOk :=
  instrLanes_memOk (fun _ ha => .bind (State.sources_yields ha) fun ⟨_, _⟩ ht => Yields.ok (State.writeCmp_memOk ht)) hs

theorem execVcmpF_memOk {p : PReg} {a b : Reg} {cc : FCond} (hs : s.memOk) : (execVcmpF g p a b cc s).memOk :=
  instrLanes_memOk (fun _ ha => .bind (State.sources_yields ha) fun ⟨_, _⟩ ht => Yields.ok (State.writeCmp_memOk ht)) hs

theorem moveLanes_yields {d : Reg} {f : Nat → Word} (hs : s.memOk) :
    Yields Stop.memOk State.memOk (moveLanes g d f s) :=
  State.writeLanes_yields hs

theorem execVbcast_memOk {d a : Reg} (hs : s.memOk) : (execVbcast g d a s).memOk :=
  instrLanes_memOk (fun _ ha => .bind State.streamUse_yields fun _ _ => .bind State.rdX_yields fun _ _ =>
      moveLanes_yields ha) hs

theorem execVbcastf_memOk {d a : Reg} (hs : s.memOk) : (execVbcastf g d a s).memOk :=
  instrLanes_memOk (fun _ ha => .bind State.streamUse_yields fun _ _ => .bind (moveLanes_yields ha) fun _ ht =>
      Yields.ok (State.orFlags_memOk ht)) hs

theorem onLane_memOk {b : Reg} {body : Nat → State → Act}
    (hbody : ∀ n (a : State), a.memOk → Yields Stop.memOk State.memOk (body n a)) (hs : s.memOk) :
    (onLane g b body s).memOk :=
  instrLanes_memOk (fun a ha => .bind State.rdX_yields fun a1 _ => by
    split
    · exact hbody (a1.toNat % 32) a ha
    · exact Yields.ok ha) hs

theorem execVext_memOk {d a b : Reg} (hs : s.memOk) : (execVext g d a b s).memOk :=
  onLane_memOk (fun _ _ ha => .bind State.regReady_yields fun _ _ => .bind (State.sources_yields ha) fun ⟨_, _⟩ ht =>
      State.wrX_yields ht) hs

theorem execVins_memOk {d a b : Reg} (hs : s.memOk) : (execVins g d a b s).memOk :=
  onLane_memOk (fun _ _ ha => .bind State.noStream_yields fun _ _ => .bind State.rdX_yields fun _ _ =>
      State.writeVec_yields ha) hs

theorem execVperm_memOk {d a b : Reg} (hs : s.memOk) : (execVperm g d a b s).memOk :=
  instrLanes_memOk (fun _ ha => .bind State.streamUse_yields fun _ _ => .bind (State.sources_yields ha) fun ⟨_, _⟩ ht =>
      moveLanes_yields ht) hs

theorem execViota_memOk {d : Reg} (hs : s.memOk) : (execViota g d s).memOk :=
  instrLanes_memOk (fun _ ha => .bind State.streamUse_yields fun _ _ => moveLanes_yields ha) hs

theorem execVmov_memOk {d a : Reg} (hs : s.memOk) : (execVmov g d a s).memOk :=
  instrLanes_memOk (fun _ ha => .bind State.streamUse_yields fun _ _ => .bind (State.sources_yields ha) fun ⟨_, _⟩ ht =>
      moveLanes_yields ht) hs

theorem execVslide_memOk {d a b : Reg} (hs : s.memOk) : (execVslide g d a b s).memOk :=
  instrLanes_memOk (fun _ ha => .bind State.streamUse_yields fun _ _ => .bind State.rdX_yields fun _ _ => .bind
      (State.sources_yields ha) fun ⟨_, _⟩ ht => moveLanes_yields ht) hs

theorem vecAddr_yields {a : Reg} {off : Int} : Yields Stop.memOk (fun _ => True) (vecAddr a off s) :=
  .bind State.addrOff_yields fun _ _ => spadEA_yields

theorem State.storeVec_yields {d : Reg} (hs : s.memOk) : Yields Stop.memOk (fun r => r.2.memOk) (s.storeVec d) :=
  .bind (State.sources_yields hs) fun ⟨_, _⟩ ht => Yields.ok ht

theorem execVld_memOk {d a : Reg} {off : Int} (hs : s.memOk) : (execVld g d a off s).memOk :=
  instr_memOk (fun _ ha => .bind State.memGate_yields fun _ _ => .bind State.streamUse_yields fun _ _ => .bind
      vecAddr_yields fun _ _ => .bind State.spadSound_yields fun _ _ => .bind (State.writeVec_yields ha) fun _ ht =>
      Yields.ok (State.spadSeen_memOk ht)) hs

theorem execVst_memOk {d a : Reg} {off : Int} (hs : s.memOk) : (execVst g d a off s).memOk :=
  instr_memOk (fun _ ha => .bind State.memGate_yields fun _ _ => .bind State.relWait_yields fun _ _ => .bind
      State.streamUse_yields fun _ _ => .bind vecAddr_yields fun _ _ => .bind (State.storeVec_yields ha) fun ⟨_, _⟩ ht =>
      Yields.ok (State.spadPut_memOk ht)) hs

theorem execVldf_memOk {d a : Reg} {off : Int} (hs : s.memOk) : (execVldf g d a off s).memOk :=
  instr_memOk (fun _ ha => .bind State.memGate_yields fun _ _ => .bind State.syncPoint_yields fun _ _ => .bind
      State.streamUse_yields fun _ _ => .bind vecAddr_yields fun _ _ => .bind State.feWait_yields fun _ _ => .bind
      State.spadSound_yields fun _ _ => .bind (State.writeVec_yields ha) fun _ ht => Yields.ok (State.feAcquire_memOk
      (State.feSet_memOk ht))) hs

theorem execVste_memOk {d a : Reg} {off : Int} (hs : s.memOk) : (execVste g d a off s).memOk :=
  instr_memOk (fun _ ha => .bind State.memGate_yields fun _ _ => .bind State.settled_yields fun _ _ => .bind
      State.streamUse_yields fun _ _ => .bind vecAddr_yields fun _ _ => .bind State.feWait_yields fun _ _ => .bind
      (State.storeVec_yields ha) fun ⟨_, _⟩ ht => Yields.ok (State.feRelease_memOk (State.spadPut_memOk ht))) hs

theorem elementAddrs_yields {f : Nat → DWord} : Yields Stop.memOk (fun _ => True) (elementAddrs f) :=
  .mapM (fun _ => spadEA_yields)

theorem State.elementsSound_yields {ps : List Nat} : Yields Stop.memOk (fun _ => True) (s.elementsSound ps) :=
  .forM (fun _ => State.spadSound_yields)

theorem State.elementsSeen_memOk {ps : List Nat} (hs : s.memOk) : (s.elementsSeen ps).memOk :=
  foldl_keeps hs (fun _ ht _ => State.spadSeen_memOk ht)

theorem storeElements_memOk {v : Vec} {ps : List Nat} {l : Nat} (hs : s.memOk) : (storeElements v ps l s).memOk := by
  induction ps generalizing s l with
  | nil => exact hs
  | cons p r ih => exact ih (State.spadPut_memOk hs)

theorem execVlds_memOk {d a b : Reg} (hs : s.memOk) : (execVlds g d a b s).memOk :=
  instr_memOk (fun _ ha => .bind State.memGate_yields fun _ _ => .bind State.streamUse_yields fun _ _ => .bind
      State.rdX_yields fun _ _ => .bind State.rdX_yields fun _ _ => .bind elementAddrs_yields fun _ _ => .bind
      State.elementsSound_yields fun _ _ => .bind (State.writeVec_yields ha) fun _ ht => Yields.ok
      (State.elementsSeen_memOk ht)) hs

theorem execVsts_memOk {d a b : Reg} (hs : s.memOk) : (execVsts g d a b s).memOk :=
  instr_memOk (fun _ ha => .bind State.memGate_yields fun _ _ => .bind State.relWait_yields fun _ _ => .bind
      State.streamUse_yields fun _ _ => .bind State.rdX_yields fun _ _ => .bind State.rdX_yields fun _ _ => .bind
      elementAddrs_yields fun _ _ => .bind (State.storeVec_yields ha) fun ⟨_, _⟩ ht => Yields.ok (storeElements_memOk
      ht)) hs

theorem execVgath_memOk {d a b : Reg} (hs : s.memOk) : (execVgath g d a b s).memOk :=
  instr_memOk (fun _ ha => .bind State.memGate_yields fun _ _ => .bind State.streamUse_yields fun _ _ => .bind
      State.rdX_yields fun _ _ => .bind (State.sources_yields ha) fun ⟨_, _⟩ ht => .bind elementAddrs_yields fun _ _ =>
      .bind State.elementsSound_yields fun _ _ => .bind (State.writeVec_yields ht) fun _ ht1 => Yields.ok
      (State.elementsSeen_memOk ht1)) hs

theorem execVscat_memOk {d a b : Reg} (hs : s.memOk) : (execVscat g d a b s).memOk :=
  instr_memOk (fun _ ha => .bind State.memGate_yields fun _ _ => .bind State.relWait_yields fun _ _ => .bind
      State.rdX_yields fun _ _ => .bind (State.sources_yields ha) fun ⟨_, _⟩ ht => .bind elementAddrs_yields fun _ _ =>
      Yields.ok (storeElements_memOk ht)) hs

theorem execVstf_memOk {d a : Reg} (hs : s.memOk) : (execVstf g d a s).memOk :=
  instr_memOk (fun _ ha => .bind State.memGate_yields fun _ _ => .bind State.settled_yields fun _ _ => .bind
      State.streamUse_yields fun _ _ => .bind vecAddr_yields fun _ _ => .bind (State.storeVec_yields ha) fun ⟨_, _⟩ ht =>
      Yields.ok (State.feRelease_memOk (State.spadPut_memOk ht))) hs

theorem foldVec_memOk {d a : Reg} {f : List Fold → List Fold} (hs : s.memOk) : (foldVec g d a f s).memOk :=
  instr_memOk (fun _ ha => .bind State.streamUse_yields fun _ _ => .bind (State.sources_yields ha) fun ⟨_, _⟩ ht =>
      .bind (State.writeVec_yields ht) fun _ ht1 => Yields.ok (State.orFlags_memOk ht1)) hs

theorem execVrsumS_memOk {d a : Reg} (hs : s.memOk) : (execVrsumS g d a s).memOk := foldVec_memOk hs
theorem execVrmaxS_memOk {d a : Reg} (hs : s.memOk) : (execVrmaxS g d a s).memOk := foldVec_memOk hs
theorem execVrminS_memOk {d a : Reg} (hs : s.memOk) : (execVrminS g d a s).memOk := foldVec_memOk hs
theorem execVrsumW_memOk {d a : Reg} (hs : s.memOk) : (execVrsumW g d a s).memOk := foldVec_memOk hs
theorem execVscanS_memOk {d a : Reg} (hs : s.memOk) : (execVscanS g d a s).memOk := foldVec_memOk hs
theorem execVcavS_memOk {d a : Reg} (hs : s.memOk) : (execVcavS g d a s).memOk := foldVec_memOk hs
theorem execVcavmS_memOk {d a : Reg} (hs : s.memOk) : (execVcavmS g d a s).memOk := foldVec_memOk hs

theorem execVdot4B_memOk {d a b : Reg} (hs : s.memOk) : (execVdot4B g d a b s).memOk :=
  instr_memOk (fun _ ha => laneOp_yields ha) hs

theorem vcvt_yields {sw dwid : Nat} {d a : Reg} {f : BitVec sw → LaneRes dwid} (hs : s.memOk) :
    Yields Stop.memOk State.memOk (vcvt sw dwid g d a f s) := by
  unfold vcvt
  split
  · exact .bind State.noStream_yields fun _ _ => .bind (State.sources_yields hs) fun ⟨_, _⟩ ht => State.writeLanes_yields
      ht
  · exact .bind State.streamUse_yields fun _ _ => .bind (State.sources_yields hs) fun ⟨_, _⟩ ht => State.writeLanes_yields
      ht

theorem execVcvtSBf_memOk {d a : Reg} (hs : s.memOk) : (execVcvtSBf g d a s).memOk :=
  instrLanes_memOk (fun _ ha => vcvt_yields ha) hs

theorem execVcvtBfS_memOk {d a : Reg} (hs : s.memOk) : (execVcvtBfS g d a s).memOk :=
  instrLanes_memOk (fun _ ha => vcvt_yields ha) hs

theorem execVcvtSW_memOk {d a : Reg} (hs : s.memOk) : (execVcvtSW g d a s).memOk :=
  instrLanes_memOk (fun _ ha => vcvt_yields ha) hs

theorem execVcvtWS_memOk {d a : Reg} (hs : s.memOk) : (execVcvtWS g d a s).memOk :=
  instrLanes_memOk (fun _ ha => vcvt_yields ha) hs

theorem vcvtScaled_memOk {sw dwid : Nat} {d a b : Reg} {f : RM → DWord → BitVec sw → FRes} (hs : s.memOk) :
    (vcvtScaled sw dwid g d a b f s).memOk :=
  instrLanes_memOk (fun _ ha => .bind check_yields fun _ _ => vcvt_yields ha) hs

theorem execVcvtE4S_memOk {d a b : Reg} (hs : s.memOk) : (execVcvtE4S g d a b s).memOk := vcvtScaled_memOk hs
theorem execVcvtSE4_memOk {d a b : Reg} (hs : s.memOk) : (execVcvtSE4 g d a b s).memOk := vcvtScaled_memOk hs
theorem execVcvtE5S_memOk {d a b : Reg} (hs : s.memOk) : (execVcvtE5S g d a b s).memOk := vcvtScaled_memOk hs
theorem execVcvtSE5_memOk {d a b : Reg} (hs : s.memOk) : (execVcvtSE5 g d a b s).memOk := vcvtScaled_memOk hs

/-! ### The exchange format -/

theorem xfAddr_yields {a : DWord} {n : Nat} : Yields Stop.memOk (fun _ => True) (xfAddr a n) := spadCheck_yields

theorem execXenc_memOk {d a b : Reg} (hs : s.memOk) : (execXenc g d a b s).memOk :=
  instr_memOk (fun _ ha => .bind State.memGate_yields fun _ _ => .bind State.relWait_yields fun _ _ => .bind
      State.rdX_yields fun _ _ => .bind State.regReady_yields fun _ _ => .bind (State.sources_yields ha) fun ⟨_, _⟩ ht =>
      .bind xfAddr_yields fun _ _ => Yields.ok (State.putX_memOk (State.spadPutBytes_memOk ht))) hs

theorem execXdec_memOk {d a : Reg} (hs : s.memOk) : (execXdec g d a s).memOk :=
  instr_memOk (fun _ ha => .bind State.memGate_yields fun _ _ => .bind State.streamUse_yields fun _ _ => .bind
      State.rdX_yields fun _ _ => .bind xfAddr_yields fun _ _ => .bind State.spadSound_yields fun _ _ => .bind
      check_yields fun _ _ => .bind State.spadSound_yields fun _ _ => by
    split
    · exact fault_yields
    · exact .bind (State.writeVec_yields ha) fun _ ht => Yields.ok (State.spadSeen_memOk ht)) hs

/-! ### The matrix unit -/

theorem State.tryBarrier_holds (hs : s.memOk) : Holds State.memOk (s.tryBarrier c) := by
  unfold State.tryBarrier
  split
  · exact Holds.some (foldl_keeps hs (fun _ ht _ => State.modCore_memOk ht (fun _ hk => hk)))
  · exact Holds.none

theorem execGangBarrierComplete_memOk (hs : s.memOk) : (execGangBarrierComplete c s).memOk :=
  happen_memOk hs (State.tryBarrier_holds hs)

theorem State.recordFault_memOk {cause : Byte} {i : Nat} (hs : s.memOk) : (s.recordFault c cause i).memOk :=
  State.modCore_memOk hs (fun _ hk => hk)

theorem State.takeStep_memOk {q : Runner} {res : Vector (LaneRes 32) 256} {latch : List (Nat × Nat)} (hs : s.memOk) :
    (s.takeStep q res latch).memOk :=
  State.modCore_memOk hs (fun _ hk => Core.others_spadOk (Core.modCtx_spadOk hk))

theorem State.tryMma_holds (hs : s.memOk) : Holds State.memOk (s.tryMma c) := by
  unfold State.tryMma
  dsimp only
  split
  · exact Holds.none
  · split
    · exact Holds.none
    · split
      · exact Holds.some (foldl_keeps hs (fun _ ht _ => by
          split
          · exact State.recordFault_memOk ht
          · exact ht))
      · exact Holds.some (foldl_keeps hs (fun _ ht _ => by
          split
          · exact State.takeStep_memOk ht
          · exact ht))

theorem execMmaStep_memOk (hs : s.memOk) : (execMmaStep c s).memOk := happen_memOk hs (State.tryMma_holds hs)
theorem Core.leaveQueue_spadOk (hk : k.spadOk) : k.leaveQueue.spadOk := hk
theorem Core.noteAcc_spadOk {p : MmaPost} (hk : k.spadOk) : (k.noteAcc p).spadOk := hk

theorem State.leaveOp_memOk (hs : s.memOk) : (s.leaveOp c).memOk := by
  unfold State.leaveOp
  split
  · exact State.pulseOf_memOk (State.modCore_memOk hs (fun _ hk => Core.leaveQueue_spadOk (Core.noteAcc_spadOk hk)))
  · exact hs

theorem State.tryLeave_holds (hs : s.memOk) : Holds State.memOk (s.tryLeave c) := by
  unfold State.tryLeave
  split
  · exact Holds.some (foldl_keeps hs (fun _ ht _ => State.leaveOp_memOk ht))
  · exact Holds.none

theorem execAccumulatorLeavesOwnership_memOk (hs : s.memOk) : (execAccumulatorLeavesOwnership c s).memOk :=
  happen_memOk hs (State.tryLeave_holds hs)

theorem Core.endFault_spadOk (hk : k.spadOk) : k.endFault.spadOk := by
  unfold Core.endFault
  split
  · split
    · exact Core.others_spadOk (Core.leaveQueue_spadOk (Core.noteAcc_spadOk hk))
    · exact hk
  · exact hk

theorem State.tryMmaFault_holds (hs : s.memOk) : Holds State.memOk (s.tryMmaFault c) := by
  unfold State.tryMmaFault
  split
  · split
    · exact Holds.some (foldl_keeps hs (fun _ ht _ => State.modCore_memOk ht (fun _ hk => Core.endFault_spadOk hk)))
    · exact Holds.none
  · exact Holds.none

theorem execMmaOperationFault_memOk (hs : s.memOk) : (execMmaOperationFault c s).memOk :=
  happen_memOk hs (State.tryMmaFault_holds hs)

theorem State.raiseOp_yields {n : Fin 4} (hs : s.memOk) : Yields Stop.memOk (fun _ => True) (s.raiseOp n) := by
  unfold State.raiseOp
  split
  · exact Yields.ok trivial
  · exact Yields.error (State.modMe_memOk hs (fun _ hk => hk))

theorem State.accWait_yields {n : Fin 4} (hs : s.memOk) : Yields Stop.memOk (fun _ => True) (s.accWait n) :=
  .bind (State.raiseOp_yields hs) fun _ _ => waitUntil_yields

theorem scaleCheck_yields {fmt : MmaFmt} {v : DWord} : Yields Stop.memOk (fun _ => True) (scaleCheck fmt v) :=
  check_yields

theorem execMma_memOk {c : Fin 8} {n : Fin 4} {a b : Reg} {fmt : MmaFmt} (hs : s.memOk) :
    (execMma c n a b fmt s).memOk :=
  instr_memOk (fun _ ha => .bind check_yields fun _ _ => .bind State.syncPoint_yields fun _ _ => .bind
      State.memGate_yields fun _ _ => .bind State.rdX_yields fun _ _ => .bind State.rdX_yields fun _ _ => .bind
      check_yields fun _ _ => .bind check_yields fun _ _ => .bind check_yields fun _ _ => .bind check_yields fun _ _ =>
      .bind scaleCheck_yields fun _ _ => .bind scaleCheck_yields fun _ _ => .bind (State.raiseOp_yields ha) fun _ _ =>
      .bind State.settled_yields fun _ _ => .bind waitUntil_yields fun _ _ => Yields.ok (State.modMe_memOk ha (fun _ hk
      => hk))) hs

theorem execMwait_memOk {n : Fin 4} (hs : s.memOk) : (execMwait g n s).memOk :=
  instr_memOk (fun _ ha => .bind State.syncPoint_yields fun _ _ => .bind (State.accWait_yields ha) fun _ _ => Yields.ok
      (State.syncWith_memOk ha)) hs

theorem execMzero_memOk {n : Fin 4} (hs : s.memOk) : (execMzero g n s).memOk :=
  instr_memOk (fun _ ha => .bind (State.accWait_yields ha) fun _ _ => Yields.ok (State.modMe_memOk ha (fun _ hk => hk)))
      hs

theorem execMrd_memOk {d : Reg} {a : Fin 4} {b : Reg} (hs : s.memOk) : (execMrd g d a b s).memOk :=
  instr_memOk (fun _ ha => .bind State.streamUse_yields fun _ _ => .bind State.rdX_yields fun _ _ => .bind
      (State.raiseOp_yields ha) fun _ _ => State.writeVec_yields ha) hs

theorem msto_yields {w : Nat} {n : Fin 4} {a : Reg} {f : Word → FRes} (hs : s.memOk) :
    Yields Stop.memOk State.memOk (msto w n a f s) :=
  .bind State.memGate_yields fun _ _ => .bind State.rdX_yields fun _ _ => .bind spadEA_yields fun _ _ => .bind
      (State.raiseOp_yields hs) fun _ _ => .bind waitUntil_yields fun _ _ => Yields.ok (State.modMe_memOk
      (State.orFlags_memOk hs) (fun _ hk => hk))

theorem execMstoS_memOk {n : Fin 4} {a : Reg} (hs : s.memOk) : (execMstoS g n a s).memOk :=
  instr_memOk (fun _ ha => msto_yields ha) hs

theorem execMstoBf_memOk {n : Fin 4} {a : Reg} (hs : s.memOk) : (execMstoBf g n a s).memOk :=
  instr_memOk (fun _ ha => msto_yields ha) hs

theorem Core.engineStore_spadOk {w : EngWrite} (hk : k.spadOk) : (k.engineStore w).spadOk := by
  unfold Core.engineStore
  split
  · exact Core.deliver_spadOk hk
  · exact Core.spadWrite_spadOk hk

theorem State.engineWrite_holds {i : Nat} (hs : s.memOk) : Holds State.memOk (s.engineWrite c i) := by
  unfold State.engineWrite
  dsimp only
  split
  · exact Holds.none
  · split
    · exact Holds.none
    · exact Holds.some (State.setCore_memOk hs (Core.engineStore_spadOk (Core.others_spadOk (State.core_spadOk hs c))))

theorem State.tryMsto_holds {n : Fin 4} (hs : s.memOk) : Holds State.memOk (s.tryMsto c n) := by
  unfold State.tryMsto
  dsimp only
  split
  · exact Holds.some (State.setCore_memOk hs (foldl_keeps (Core.others_spadOk (State.core_spadOk hs c)) (fun _ hk _ =>
      Core.engineStore_spadOk hk)))
  · exact Holds.none

theorem execMstoComplete_memOk {n : Fin 4} (hs : s.memOk) : (execMstoComplete c n s).memOk :=
  happen_memOk hs (State.tryMsto_holds hs)

theorem Core.setGang_spadOk {g : BitVec 3} (hk : k.spadOk) : (k.setGang g).spadOk := hk

theorem execGang_memOk {a : Reg} (hs : s.memOk) : (execGang g a s).memOk :=
  instr_memOk (fun _ ha => .bind State.rdX_yields fun _ _ => by
    split
    · exact fault_yields
    · exact .bind waitUntil_yields fun _ _ => Yields.ok (State.modMe_memOk ha (fun _ hk => Core.setGang_spadOk hk))) hs

theorem execMstat_memOk {d : Reg} (hs : s.memOk) : (execMstat g d s).memOk :=
  instr_memOk (fun _ ha => State.wrX_yields ha) hs

/-! ### Groups -/

theorem State.setGroup_memOk {i : Nat} {g : Group} (hs : s.memOk) : (s.setGroup i g).memOk := hs

theorem State.fixOutcome_memOk {i rank : Nat} {res : Option (List Word)} (hs : s.memOk) :
    (s.fixOutcome i rank res).memOk := by
  unfold State.fixOutcome
  split
  · exact hs
  · split
    · exact hs
    · extract_lets m2 core mine posted seen s1 s2
      have h1 : s1.memOk := State.modCore_memOk (State.setGroup_memOk hs) (fun _ hk => hk)
      have h2 : s2.memOk := foldl_keeps h1 fun _ ht _ => by
        split
        · exact State.syncWith_memOk ht
        · exact ht
      split
      · exact State.pulseOf_memOk h2
      · exact h2

theorem State.tryRound_holds {i : Nat} (hs : s.memOk) : Holds State.memOk (s.tryRound i) := by
  unfold State.tryRound
  dsimp only
  split
  · exact Holds.none
  · split
    · split
      · exact Holds.some (foldl_keeps hs (fun _ ht _ => State.fixOutcome_memOk ht))
      · exact Holds.some (State.setGroup_memOk (foldl_keeps hs (fun _ ht _ => State.fixOutcome_memOk ht)))
    · exact Holds.none

theorem execCollectiveRoundComplete_memOk {grp : Nat} (hs : s.memOk) : (execCollectiveRoundComplete grp s).memOk :=
  happen_memOk hs (State.tryRound_holds hs)

theorem State.abortAt_memOk {i rank : Nat} (hs : s.memOk) : (s.abortAt i rank).memOk := by
  unfold State.abortAt
  dsimp only
  split
  · exact hs
  · split
    · split
      · split
        · split
          · exact State.fixOutcome_memOk (State.setGroup_memOk hs)
          · exact State.setGroup_memOk (State.fixOutcome_memOk (State.setGroup_memOk hs))
        · exact State.fixOutcome_memOk (State.setGroup_memOk hs)
      · split
        · exact State.setGroup_memOk (State.setGroup_memOk hs)
        · exact State.setGroup_memOk hs
    · exact State.setGroup_memOk hs

theorem State.tryAbort_holds {i rank : Nat} (hs : s.memOk) : Holds State.memOk (s.tryAbort i rank) := by
  unfold State.tryAbort
  split
  · exact Holds.none
  · split
    · exact Holds.some (State.abortAt_memOk hs)
    · exact Holds.none

theorem execCollectiveAbortArrival_memOk {grp rank : Nat} (hs : s.memOk) :
    (execCollectiveAbortArrival grp rank s).memOk :=
  happen_memOk hs (State.tryAbort_holds hs)

theorem grpFault_yields {α : Type} {why : Nat} {P : α → Prop} : Yields Stop.memOk P (grpFault (α := α) why) :=
  fault_yields

theorem State.readList_yields {va : DWord} {n f : Nat} (hs : s.memOk) :
    Yields Stop.memOk (fun r => r.2.memOk) (s.readList va n f) := by
  induction f generalizing s va n with
  | zero => exact .ok hs
  | succ f ih =>
    unfold State.readList
    dsimp only
    split
    · exact .ok hs
    · exact .bind (State.globalEA_yields hs) fun ⟨_, _⟩ ht => .bind (State.readPart_yields ht) fun ⟨_, _⟩ hu =>
        .bind (ih hu) fun ⟨_, _⟩ hv => .ok hv

theorem State.freeGroup_memOk (hs : s.memOk) : s.freeGroup.2.memOk := by
  unfold State.freeGroup
  dsimp only
  exact State.draw_memOk 10 hs

theorem execCgrp_memOk {d a : Reg} (hs : s.memOk) : (execCgrp g d a s).memOk := by
  refine instr_memOk (fun s hs => .bind State.rdX_yields fun x _ => .bind State.regReady_yields fun _ _ =>
    .bind State.memGate_yields fun _ _ => .bind (State.globalEA_yields hs) fun ⟨e, s⟩ hs => ?_) hs
  dsimp only
  split
  · split
    · exact grpFault_yields
    · exact .ok (State.putX_memOk (State.setGroup_memOk hs))
  · refine .bind (State.readWaits_yields hs) fun ⟨ws, s⟩ hs => .bind (checkIn_yields hs) fun _ _ =>
      .bind (State.readList_yields hs) fun ⟨ls, s⟩ hs => .bind (checkIn_yields hs) fun _ _ =>
      .bind (checkIn_yields hs) fun _ _ => ?_
    split
    · exact .error trivial
    · next heq => exact .ok (State.putX_memOk (State.setGroup_memOk (snd_of_eq heq (State.freeGroup_memOk hs))))

theorem State.groupOf_yields {v : DWord} : Yields Stop.memOk (fun _ => True) (s.groupOf v) := by
  unfold State.groupOf
  split
  · exact grpFault_yields
  · split
    · exact grpFault_yields
    · split
      · exact grpFault_yields
      · split
        · exact grpFault_yields
        · split
          · exact grpFault_yields
          · exact Yields.ok trivial

theorem State.injectAborted_memOk {i rank : Nat} {g : Group} {m : Member} (hs : s.memOk) :
    (s.injectAborted i rank g m).memOk := by
  unfold State.injectAborted
  dsimp only
  split
  · exact State.setGroup_memOk (State.fixOutcome_memOk (State.modMe_memOk (State.setGroup_memOk hs) (fun _ hk => hk)))
  · exact State.fixOutcome_memOk (State.modMe_memOk (State.setGroup_memOk hs) (fun _ ha => ha))

theorem State.inject_memOk {i rank : Nat} {g : Group} {m : Member} {held : Bool} {xs : List Word} (hs : s.memOk) :
    (s.inject i rank g m held xs).memOk := by
  unfold State.inject
  split
  · exact State.injectAborted_memOk hs
  · exact State.modMe_memOk (State.setGroup_memOk hs) (fun _ ha => ha)

theorem State.injectWait_yields {g : Group} {rank : Nat} {m : Member} :
    Yields Stop.memOk (fun _ => True) (s.injectWait g rank m) :=
  .bind waitUntil_yields fun _ _ => State.settled_yields

theorem cinj_yields {held : Bool} {a b : Reg} (hs : s.memOk) : Yields Stop.memOk State.memOk (cinj held a b s) :=
  .bind State.notInRestartable_yields fun _ _ => .bind State.memGate_yields fun _ _ => .bind State.rdX_yields fun _ _ =>
      .bind State.groupOf_yields fun ⟨_, _, _⟩ _ => .bind State.injectWait_yields fun _ _ => .bind (State.sources_yields
      hs) fun ⟨_, _⟩ ht => Yields.ok (State.inject_memOk ht)

theorem Group.range_yields {g : Group} {x : DWord} : Yields Stop.memOk (fun _ => True) (g.range x) := by
  unfold Group.range
  split
  · exact .bind check_yields fun _ _ => Yields.ok trivial
  · exact spadCheck_yields

theorem State.injectBytes_yields {p n : Nat} : Yields Stop.memOk (fun _ => True) (s.injectBytes p n) :=
  .bind waitUntil_yields fun _ _ => .bind State.spadSound_yields fun _ _ => Yields.ok trivial

theorem cinjx_yields {held : Bool} {a b : Reg} (hs : s.memOk) : Yields Stop.memOk State.memOk (cinjx held a b s) :=
  .bind State.notInRestartable_yields fun _ _ => .bind State.memGate_yields fun _ _ => .bind State.rdX_yields fun _ _ =>
      .bind State.rdX_yields fun _ _ => .bind State.groupOf_yields fun ⟨_, _, _⟩ _ => .bind Group.range_yields fun _ _ =>
      .bind State.injectBytes_yields fun _ _ => .bind (holding_yields hs State.injectWait_yields) fun _ _ => Yields.ok
      (State.inject_memOk hs)

theorem execCinj_memOk {a b : Reg} (hs : s.memOk) : (execCinj g a b s).memOk :=
  instr_memOk (fun _ ha => cinj_yields ha) hs

theorem execCinjHld_memOk {a b : Reg} (hs : s.memOk) : (execCinjHld g a b s).memOk :=
  instr_memOk (fun _ ha => cinj_yields ha) hs

theorem execCinjx_memOk {a b : Reg} (hs : s.memOk) : (execCinjx g a b s).memOk :=
  instr_memOk (fun _ ha => cinjx_yields ha) hs

theorem execCinjxHld_memOk {a b : Reg} (hs : s.memOk) : (execCinjxHld g a b s).memOk :=
  instr_memOk (fun _ ha => cinjx_yields ha) hs

theorem extractable_yields {g : Group} {rank : Nat} {m : Member} :
    Yields Stop.memOk (fun _ => True) (extractable g rank m) := by
  unfold extractable
  split
  · exact grpFault_yields
  · exact Yields.ok trivial

theorem execCext_memOk {d a : Reg} (hs : s.memOk) : (execCext g d a s).memOk := by
  unfold execCext
  dsimp only
  exact instr_memOk (fun _ ha => .bind State.syncPoint_yields fun _ _ => .bind State.streamUse_yields fun _ _ => .bind
      State.rdX_yields fun _ _ => .bind State.groupOf_yields fun ⟨_, _, _⟩ _ => .bind extractable_yields fun _ _ => .bind
      waitUntil_yields fun _ _ => by
    split
    · refine Yields.ok ?_
      split
      · exact State.syncWith_memOk ha
      · exact ha
    · exact State.writeVec_yields (by
        split
        · exact State.syncWith_memOk ha
        · exact ha)) hs

theorem execCextx_memOk {a b : Reg} (hs : s.memOk) : (execCextx g a b s).memOk :=
  instr_memOk (fun _ ha => .bind State.memGate_yields fun _ _ => .bind State.rdX_yields fun _ _ => .bind State.rdX_yields
      fun _ _ => .bind State.groupOf_yields fun ⟨_, _, _⟩ _ => .bind extractable_yields fun _ _ => .bind
      Group.range_yields fun _ _ => .bind waitUntil_yields fun _ _ => by
    split
    · refine Yields.ok ?_
      split
      · exact State.syncWith_memOk (State.modMe_memOk ha (fun _ hk => hk))
      · exact State.modMe_memOk ha (fun _ hk => hk)
    · exact Yields.ok (State.modMe_memOk ha (fun _ hk => hk))) hs

theorem Core.landGroup_spadOk {i : Nat} (hk : k.spadOk) : (k.landGroup i).spadOk :=
  foldl_keeps hk (fun _ hk1 _ => Core.engineStore_spadOk hk1)

theorem execCstat_memOk {d a : Reg} (hs : s.memOk) : (execCstat g d a s).memOk :=
  instr_memOk (fun _ ha => .bind State.rdX_yields fun _ _ => .bind State.groupOf_yields fun ⟨_, _, _⟩ _ =>
      State.wrX_yields (State.modMe_memOk ha (fun _ hk => Core.landGroup_spadOk hk))) hs

theorem execCabort_memOk {a : Reg} (hs : s.memOk) : (execCabort g a s).memOk := by
  unfold execCabort
  dsimp only
  exact instr_memOk (fun _ ha => .bind State.notInRestartable_yields fun _ _ => .bind State.rdX_yields fun _ _ => .bind
      State.groupOf_yields fun ⟨_, _, _⟩ _ => by
    split
    · exact Yields.ok ha
    · exact Yields.ok (State.abortAt_memOk (State.setGroup_memOk ha))) hs

theorem execCfree_memOk {a : Reg} (hs : s.memOk) : (execCfree g a s).memOk :=
  instr_memOk (fun _ ha => .bind State.rdX_yields fun _ _ => .bind State.groupOf_yields fun ⟨_, _, _⟩ _ => Yields.ok
      (State.setGroup_memOk ha)) hs

/-! ### Objects -/

theorem State.objAt_memOk {pa : Nat} {va : DWord} {lcnt : Nat} (hs : s.memOk) : (s.objAt pa va lcnt).2.memOk := by
  unfold State.objAt
  split <;> exact hs

theorem State.setCount_memOk {pa : Nat} {o : ObjHome} {n : Nat} (hs : s.memOk) : (s.setCount pa o n).memOk := hs

theorem State.serveObj_holds {op : ReqKind} {pa lcnt : Nat} {va value : DWord} {m : KMap Nat} (hs : s.memOk) :
    Holds (fun r => r.2.2.memOk) (s.serveObj op pa va value lcnt m) := by
  unfold State.serveObj
  split
  · exact .some hs
  · split
    next o s1 heq =>
    have h1 : s1.memOk := snd_of_eq heq (State.objAt_memOk hs)
    split
    · exact .some h1
    · split
      · split
        · exact .some h1
        · split
          · exact .some h1
          · split
            · exact .some h1
            · split
              · exact .none
              · exact .some (State.setCount_memOk (State.memWrite_memOk h1))
      · split
        · exact .some h1
        · split
          · exact .some h1
          · split
            · exact .some h1
            · exact .some (State.setCount_memOk h1)
      · exact .some h1

theorem State.replyObj_memOk {m : ObjMsg} {r : ObjReply} {seen : KMap Nat} (hs : s.memOk) :
    (s.replyObj m r seen).memOk :=
    by
  unfold State.replyObj
  dsimp only
  split
  · exact State.emit_memOk hs
  · split
    · split
      · exact State.replied_memOk (State.syncWith_memOk hs)
      · exact State.syncWith_memOk hs
    · exact State.modReq_memOk hs

theorem State.knownW_memOk {pa landing : Nat} (hs : s.memOk) : (s.knownW pa landing).2.memOk := by
  unfold State.knownW
  split
  · exact hs
  · split
    · exact hs
    · split
      · exact hs
      · split
        · exact State.others_memOk (State.draw_memOk 1 hs)
        · exact State.draw_memOk 1 hs

theorem State.pairObj_memOk {a b : ObjMsg} (hs : s.memOk) : (s.pairObj a b).memOk := by
  unfold State.pairObj
  exact State.replyObj_memOk (State.replyObj_memOk hs)

theorem State.tryRouter_holds {k : Nat} (hs : s.memOk) : Holds State.memOk (s.tryRouter k) := by
  unfold State.tryRouter
  split
  · exact .none
  · split
    · exact .none
    · split
      · exact .none
      · next m _ _ l _ _ _ =>
        extract_lets s0
        have hs0 : s0.memOk := State.others_memOk hs
        clear_value s0
        have h1 : State.memOk (if s.isDet m.lcnt then (0, s0) else s0.knownW m.pa l).2 := by
          split
          · exact hs0
          · exact State.knownW_memOk hs0
        generalize (if s.isDet m.lcnt then (0, s0) else s0.knownW m.pa l) = p at h1 ⊢
        split
        extract_lets win go
        split
        · exact .some (State.others_memOk h1)
        · split
          · exact .some (State.modCore_memOk (State.pairObj_memOk (State.others_memOk h1)) fun _ hk => Core.perf_spadOk hk)
          · split <;> exact .some (State.others_memOk h1)

theorem State.tryExpire_holds {landing k : Nat} (hs : s.memOk) : Holds State.memOk (s.tryExpire landing k) := by
  unfold State.tryExpire
  dsimp only
  split
  · exact Holds.none
  · split
    · exact Holds.some (State.modCore_memOk hs (fun _ hk1 => Core.perf_spadOk hk1))
    · exact Holds.none

theorem State.sendObj_memOk {m : ObjMsg} (hs : s.memOk) : (s.sendObj m).memOk := State.emit_memOk hs

theorem State.tryHome_holds {k : Nat} (hs : s.memOk) : Holds State.memOk (s.tryHome k) := by
  unfold State.tryHome
  split
  · exact Holds.none
  · split
    · exact Holds.none
    · split
      · exact Holds.some (State.sendObj_memOk hs)
      · exact Holds.map (fun _ e => State.replyObj_memOk (Holds.of_eq e (State.serveObj_holds hs)))

theorem execObjectOpAtRouter_memOk {k : Nat} (hs : s.memOk) : (execObjectOpAtRouter k s).memOk :=
  happen_memOk hs (State.tryRouter_holds hs)

theorem execWindowWaitExpired_memOk {landing k : Nat} (hs : s.memOk) : (execWindowWaitExpired landing k s).memOk :=
  happen_memOk hs (State.tryExpire_holds hs)

theorem execObjectOpAtHome_memOk {k : Nat} (hs : s.memOk) : (execObjectOpAtHome k s).memOk :=
  happen_memOk hs (State.tryHome_holds hs)

theorem State.postOrdered_memOk {q : Req} (hs : s.memOk) : (s.postOrdered q).memOk :=
  State.modCx_memOk (State.post_memOk hs)

theorem State.sendOp_memOk {q : Req} (hs : s.memOk) : (s.sendOp c h q).memOk := hs

theorem State.issueObj_memOk {q : Req} (hs : s.memOk) : (s.issueObj q).memOk := by
  unfold State.issueObj
  split
  · exact State.post_memOk hs
  · exact State.sendOp_memOk (State.post_memOk hs)

theorem objectOp_yields {kind : ReqKind} {d a : Reg} {value : State → Except Stop DWord}
    (hvalue : ∀ (a : State), a.memOk → Yields Stop.memOk (fun _ => True) (value a)) (hs : s.memOk) :
    Yields Stop.memOk State.memOk (objectOp kind d a value s) := by
  refine .bind State.rdX_yields fun _ _ => ?_
  extract_lets issue sync
  have hissue : ∀ u, Yields Stop.memOk State.memOk (issue u) := fun _ =>
    .bind State.splitReady_yields fun _ _ => .bind (hvalue s hs) fun _ _ => .bind check_yields fun _ _ =>
      .bind (State.globalEA_yields hs) fun ⟨_, _⟩ ht => .bind (checkIn_yields ht) fun _ _ =>
      .bind (checkIn_yields ht) fun _ _ => .check_then (checkIn_yields ht) fun _ => by
        dsimp only
        split
        · exact .check_then State.settled_yields fun _ => .ok (State.postOrdered_memOk ht)
        · exact .ok (State.issueObj_memOk ht)
  exact .check_then State.notInRestartable_yields fun _ => .check_then State.syncPoint_yields hissue

theorem execOpush_memOk {d a b : Reg} (hs : s.memOk) : (execOpush g d a b s).memOk :=
  instr_memOk (fun _ ha => objectOp_yields (fun _ _ => State.rdX_yields) ha) hs

theorem execOpop_memOk {d a : Reg} (hs : s.memOk) : (execOpop g d a s).memOk :=
  instr_memOk (fun _ ha => objectOp_yields (fun _ _ => Yields.ok trivial) ha) hs

theorem execOcnt_memOk {d a : Reg} (hs : s.memOk) : (execOcnt g d a s).memOk :=
  instr_memOk (fun _ ha => objectOp_yields (fun _ _ => Yields.ok trivial) ha) hs

/-! ### Sends -/

theorem slotOf_yields {v : DWord} : Yields Stop.memOk (fun _ => True) (slotOf v) :=
  .bind check_yields fun _ _ => Yields.ok trivial

theorem State.checkDesc_yields {v : DWord} : Yields Stop.memOk (fun _ => True) (s.checkDesc v) := by
  unfold State.checkDesc
  split
  · exact Yields.error trivial
  · exact Yields.ok trivial

theorem State.sendSeq_memOk (hs : s.memOk) : s.sendSeq.2.memOk := by
  unfold State.sendSeq
  split
  · split
    · exact State.modCx_memOk hs
    · exact State.takeSeq_memOk hs
  · exact State.takeSeq_memOk hs

theorem State.queueEvent_memOk {dest : DWord} {tag : Tag} {p : Payload} (hs : s.memOk) :
    (s.queueEvent dest tag p).memOk :=
  State.modMe_memOk (State.sendSeq_memOk hs) (fun _ ha => ha)

theorem keeping_yields {p : Payload} {r : Except Stop Unit} (hs : s.memOk) (hr : Yields Stop.memOk (fun _ => True) r) :
    Yields Stop.memOk (fun _ => True) (keeping s p r) := by
  unfold keeping
  split
  · exact holding_yields hs hr
  · exact hr

theorem send_yields {payload : State → Except Stop (Payload × State)} {a b : Reg}
    (hpayload : ∀ (a : State), a.memOk → Yields Stop.memOk (fun r => r.2.memOk) (payload a)) (hs : s.memOk) : Yields
    Stop.memOk State.memOk (send payload a b s) :=
  .bind check_yields fun _ _ => .bind State.rdX_yields fun _ _ => .bind State.rdX_yields fun _ _ => .bind
      State.checkDesc_yields fun _ _ => .bind State.memGate_yields fun _ _ => .bind State.syncPoint_yields fun _ _ =>
      .bind (hpayload s hs) fun ⟨_, _⟩ ht => .bind (keeping_yields ht waitUntil_yields) fun _ _ => Yields.ok
      (State.queueEvent_memOk ht)

theorem State.regWords_yields {d : Reg} {n : Nat} : Yields Stop.memOk (fun _ => True) (s.regWords d n) :=
  .mapM (fun _ => State.rdX_yields)

theorem wordPayload_yields {d : Reg} {n : Nat} (hs : s.memOk) :
    Yields Stop.memOk (fun r => r.2.memOk) (wordPayload d n s) :=
  .bind State.regWords_yields fun _ _ => Yields.ok hs

theorem execSend_memOk {d a b : Reg} (hs : s.memOk) : (execSend g d a b s).memOk :=
  instr_memOk (fun _ ha => send_yields (fun _ hk => wordPayload_yields hk) ha) hs

theorem execSend2_memOk {d a b : Reg} (hs : s.memOk) : (execSend2 g d a b s).memOk :=
  instr_memOk (fun _ ha => send_yields (fun _ hk => wordPayload_yields hk) ha) hs

theorem execSend4_memOk {d a b : Reg} (hs : s.memOk) : (execSend4 g d a b s).memOk :=
  instr_memOk (fun _ ha => send_yields (fun _ hk => wordPayload_yields hk) ha) hs

theorem execSendv_memOk {d a b : Reg} (hs : s.memOk) : (execSendv g d a b s).memOk :=
  instr_memOk (fun _ ha => send_yields (fun _ hk => .bind (State.sources_yields hk) fun ⟨_, _⟩ ht => Yields.ok ht) ha)
      hs

theorem blockOf_yields {w : DWord} : Yields Stop.memOk (fun _ => True) (blockOf w) :=
  .bind check_yields fun _ _ => .bind check_yields fun _ _ => .bind check_yields fun _ _ => Yields.ok trivial

theorem execSendb_memOk {d a b : Reg} (hs : s.memOk) : (execSendb g d a b s).memOk :=
  instr_memOk (fun _ ha => send_yields (fun _ hk => .bind State.rdX_yields fun _ _ => .bind blockOf_yields fun ⟨_, _⟩ _
      => .bind State.spadSound_yields fun _ _ => Yields.ok hk) ha) hs

theorem execMcast_memOk {d a b : Reg} (hs : s.memOk) : (execMcast g d a b s).memOk :=
  instr_memOk (fun _ ha => .bind State.notInRestartable_yields fun _ _ => .bind State.memGate_yields fun _ _ => .bind
      State.rdX_yields fun _ _ => .bind State.rdX_yields fun _ _ => .bind State.rdX_yields fun _ _ => .bind
      State.groupOf_yields fun ⟨_, _, _⟩ _ => .bind check_yields fun _ _ => .bind blockOf_yields fun ⟨_, _⟩ _ => .bind
      spadCheck_yields fun _ _ => .bind State.spadSound_yields fun _ _ => .bind (holding_yields ha State.settled_yields)
      fun _ _ => Yields.ok (State.others_memOk (foldl_keeps ha (fun _ ht _ => State.modCore_memOk ht (fun _ hk => hk)))))
      hs

theorem State.mcastBranch_memOk {id m : Nat} {err : Bool} (hs : s.memOk) : (s.mcastBranch id m err).2.memOk :=
  State.setCore_memOk hs (by
    split
    · exact Core.others_spadOk (State.core_spadOk hs (mkCore m))
    · exact foldl_keeps (Core.others_spadOk (State.core_spadOk hs (mkCore m))) (fun _ hk _ => Core.engineStore_spadOk hk))

theorem State.mcastBranches_memOk {id r : Nat} {errs l : List Nat} (hs : s.memOk) :
    (s.mcastBranches id errs r l).2.memOk := by
  induction l generalizing s r with
  | nil => exact hs
  | cons m rest ih => exact ih (State.mcastBranch_memOk hs)

theorem State.tryMcast_holds {k : Nat} {errs : List Nat} (hs : s.memOk) : Holds State.memOk (s.tryMcast k errs) := by
  unfold State.tryMcast
  split
  · exact Holds.none
  · exact Holds.some (State.modCore_memOk (State.mcastBranches_memOk hs) (fun _ hk1 => Core.deliver_spadOk hk1))

theorem execMcastCompletionRecord_memOk {k : Nat} {pierErrors : List Nat} (hs : s.memOk) :
    (execMcastCompletionRecord k pierErrors s).memOk :=
  happen_memOk hs (State.tryMcast_holds hs)

theorem execSendh_memOk {d a : Reg} (hs : s.memOk) : (execSendh g d a s).memOk :=
  instr_memOk (fun _ ha => .bind State.notInRestartable_yields fun _ _ => .bind State.rdX_yields fun _ _ => .bind
      check_yields fun _ _ => .bind State.regWords_yields fun _ _ => .bind State.memGate_yields fun _ _ => .bind
      State.settled_yields fun _ _ => .bind waitUntil_yields fun _ _ => Yields.ok (State.others_memOk
      (State.hostPush_memOk ha))) hs

theorem State.slotFree_yields {i : Fin 64} : Yields Stop.memOk (fun _ => True) (s.slotFree i) := waitUntil_yields

theorem State.changeSlot_yields {i : Fin 64} {ch : SlotChange} (hs : s.memOk) :
    Yields Stop.memOk State.memOk (s.changeSlot i ch) :=
  .bind State.slotFree_yields fun _ _ => Yields.ok (State.modMe_memOk hs (fun _ ha => ha))

theorem execBindS_memOk {d a b : Reg} (hs : s.memOk) : (execBindS g d a b s).memOk := by
  unfold execBindS
  dsimp only
  exact instr_memOk (fun _ ha => .bind State.notInRestartable_yields fun _ _ => .bind State.rdX_yields fun _ _ => .bind
      State.rdX_yields fun _ _ => .bind slotOf_yields fun _ _ => .bind spadEA_yields fun _ _ => .bind
      State.spadSound_yields fun _ _ => by
    split
    · exact fault_yields
    · exact .bind check_yields fun _ _ => .bind (holding_yields ha State.regReady_yields) fun _ _ => .bind
        (holding_yields ha State.slotFree_yields) fun _ _ => .bind (State.changeSlot_yields ha) fun _ ht => Yields.ok
        (State.putX_memOk ht)) hs

theorem execUnbind_memOk {a : Reg} (hs : s.memOk) : (execUnbind g a s).memOk :=
  instr_memOk (fun _ ha => .bind State.notInRestartable_yields fun _ _ => .bind State.rdX_yields fun _ _ => .bind
      slotOf_yields fun _ _ => State.changeSlot_yields ha) hs

theorem execArm_memOk {a b : Reg} (hs : s.memOk) : (execArm g a b s).memOk :=
  instr_memOk (fun _ ha => .bind State.notInRestartable_yields fun _ _ => .bind State.rdX_yields fun _ _ => .bind
      State.rdX_yields fun _ _ => .bind slotOf_yields fun _ _ => .bind check_yields fun _ _ => State.changeSlot_yields
      ha) hs

theorem execHold_memOk {a b : Reg} (hs : s.memOk) : (execHold g a b s).memOk :=
  instr_memOk (fun _ ha => .bind State.notInRestartable_yields fun _ _ => .bind State.rdX_yields fun _ _ => .bind
      State.rdX_yields fun _ _ => .bind slotOf_yields fun _ _ => Yields.ok (State.modMe_memOk ha (fun _ hk => hk))) hs

theorem execRlse_memOk {a b : Reg} (hs : s.memOk) : (execRlse g a b s).memOk :=
  instr_memOk (fun _ ha => .bind State.notInRestartable_yields fun _ _ => .bind State.rdX_yields fun _ _ => .bind
      State.rdX_yields fun _ _ => .bind slotOf_yields fun _ _ => Yields.ok (State.modMe_memOk ha (fun _ hk => hk))) hs

theorem execGenrd_memOk {d a : Reg} (hs : s.memOk) : (execGenrd g d a s).memOk :=
  instr_memOk (fun _ ha => .bind State.rdX_yields fun _ _ => .bind slotOf_yields fun _ _ => State.wrX_yields ha) hs

theorem execCapq_memOk {d a b : Reg} (hs : s.memOk) : (execCapq g d a b s).memOk :=
  instr_memOk (fun _ ha => .bind State.rdX_yields fun _ _ => .bind State.rdX_yields fun _ _ => .bind
      State.regReady_yields fun _ _ => .bind State.replyRoom_yields fun _ _ => .bind check_yields fun _ _ => Yields.ok
      (State.post_memOk ha)) hs

theorem State.retireOpen_memOk {l : Nat} (hs : s.memOk) : (s.retireOpen c l).memOk := by
  unfold State.retireOpen
  split
  · split
    · exact State.retirePool_memOk hs
    · exact hs
  · exact hs

theorem State.ticket_memOk (hs : s.memOk) : (s.ticket c h).2.memOk := by
  unfold State.ticket
  split
  · exact hs
  · split
    · exact hs
    · split
      · next heq1 =>
        exact snd_of_eq heq1 (State.pull_memOk hs)
      · next heq1 =>
        exact State.retireOpen_memOk (snd_of_eq heq1 (State.pull_memOk hs))

theorem execTicket_memOk {d : Reg} (hs : s.memOk) : (execTicket g d s).memOk :=
  instr_memOk (fun _ ha => .bind State.regReady_yields fun _ _ => .bind State.replyRoom_yields fun _ _ => by
    split
    · exact Yields.ok (State.postOrdered_memOk ha)
    · exact Yields.ok (State.post_memOk (State.ticket_memOk ha))) hs

theorem execPoolcfg_memOk {d a : Reg} (hs : s.memOk) : (execPoolcfg g d a s).memOk :=
  instr_memOk (fun _ ha => .bind State.rdX_yields fun _ _ => .bind check_yields fun _ _ => State.wrX_yields ha) hs

theorem counterIn_yields {v : DWord} : Yields Stop.memOk (fun _ => True) (counterIn v) := by
  unfold counterIn
  split
  · exact Yields.ok trivial
  · exact fault_yields

theorem execCntdn_memOk {a : Reg} (hs : s.memOk) : (execCntdn g a s).memOk :=
  instr_memOk (fun _ ha => .bind State.notInRestartable_yields fun _ _ => .bind State.rdX_yields fun _ _ => .bind
      counterIn_yields fun _ _ => .bind State.settled_yields fun _ _ => Yields.ok (State.decCounter_memOk ha)) hs

theorem execCancel_memOk {a : Reg} (hs : s.memOk) : (execCancel g a s).memOk :=
  instr_memOk (fun _ ha => .bind State.notInRestartable_yields fun _ _ => .bind State.rdX_yields fun _ _ => .bind
      counterIn_yields fun _ _ => Yields.ok (State.cancelCounter_memOk ha)) hs

theorem execCntrd_memOk {d a : Reg} (hs : s.memOk) : (execCntrd g d a s).memOk :=
  instr_memOk (fun _ ha => .bind State.rdX_yields fun _ _ => .bind counterIn_yields fun _ _ => State.wrX_yields ha) hs

theorem State.goOrdered_memOk (hs : s.memOk) : (s.goOrdered c h).memOk := State.modCtx_memOk hs

theorem State.serveOrderedObj_holds {q : Req} (hs : s.memOk) : Holds State.memOk (s.serveOrderedObj c h q) := by
  unfold State.serveOrderedObj
  split
  · exact Holds.some (State.sendObj_memOk hs)
  · exact Holds.map (fun _ e => State.goOrdered_memOk (by
      split
      · exact State.answer_memOk (State.syncWith_memOk (Holds.of_eq e (State.serveObj_holds hs)))
      · exact State.deferFault_memOk (Holds.of_eq e (State.serveObj_holds hs))))

theorem State.serveOrdered_holds (hs : s.memOk) : Holds State.memOk (s.serveOrdered c h) := by
  unfold State.serveOrdered
  split
  · exact Holds.some hs
  · split
    · exact Holds.some (State.goOrdered_memOk (State.answer_memOk (State.ticket_memOk (State.modReq_memOk hs))))
    · split
      · exact Holds.none
      · exact State.serveOrderedObj_holds (State.modReq_memOk hs)

theorem State.serveRound_holds {l : Nat} (hs : s.memOk) : Holds State.memOk (s.serveRound l c h) := by
  unfold State.serveRound
  dsimp only
  split
  · split
    · exact State.serveOrdered_holds hs
    · exact Holds.some (State.modCtx_memOk hs)
  · split
    · exact Holds.some (Holds.getD (State.pullUnit_holds hs) hs)
    · exact Holds.some hs

theorem State.tryRoundClose_holds {l : Nat} (hs : s.memOk) : Holds State.memOk (s.tryRoundClose l) := by
  unfold State.tryRoundClose
  split
  · exact .none
  · split
    · exact .none
    · refine Holds.map fun t e => foldl_keeps (Holds.of_eq e ?_) fun _ ht _ => State.modCore_memOk ht fun _ hk => hk
      exact Holds.foldlM hs fun _ ht _ => Holds.foldlM ht fun _ ht _ => State.serveRound_holds ht

theorem execDetRoundClose_memOk {lcnt : Nat} (hs : s.memOk) : (execDetRoundClose lcnt s).memOk :=
  happen_memOk hs (State.tryRoundClose_holds hs)

end

end Sys2Proof.Machine
end

/-! PROOFS. Canonical memory (O59), fifth part: launches, the system, images, freezing, the fabric and management. -/

section
namespace Sys2Proof.Machine

section
variable {s t : State} {k : Core} {c : CoreId} {h : CtxId} {g : Guard}

/-! ### Launches -/

theorem State.windowDrop_memOk (hs : s.memOk) : s.windowDrop.memOk := hs

theorem State.commit_memOk {kind : Nat} {w : WinSlot} {body : State → State} (hs : s.memOk)
    (hbody : ∀ (a : State), a.memOk → (body a).memOk) : (s.commit kind w body).memOk := by
  unfold State.commit
  split
  · exact hs
  · split
    · exact State.windowDrop_memOk hs
    · exact hbody s hs

theorem State.hostEvent_memOk {w : WinSlot} {seen : KMap Nat} (hs : s.memOk) : (s.hostEvent w seen).memOk := by
  unfold State.hostEvent
  split
  · exact State.windowDrop_memOk hs
  · split
    · exact State.others_memOk hs
    · exact State.launchEvent_memOk hs

theorem execHostEventCommit_memOk {w : WinSlot} (hs : s.memOk) : (execHostEventCommit w s).memOk := by
  unfold execHostEventCommit
  split
  · exact State.windowDrop_memOk hs
  · exact State.commit_memOk hs (fun _ ha => State.hostEvent_memOk ha)

theorem State.freeCounter_memOk (hs : s.memOk) : s.freeCounter.2.memOk := State.draw_memOk 12 hs
theorem State.accept_memOk {r : Launch} {l : Nat} {seen : KMap Nat} (hs : s.memOk) : (s.accept r l seen).memOk := hs

theorem State.onCores_memOk {r : Launch} {f : Nat → Core → Core} (hs : s.memOk)
    (hf : ∀ n (k : Core), k.spadOk → (f n k).spadOk) : (s.onCores r f).memOk :=
  foldl_keeps hs (fun _ ht b => State.modCore_memOk ht (fun k hk => hf b k hk))

theorem State.setupCaches_memOk {r : Launch} (hs : s.memOk) : (s.setupCaches r).memOk := by
  unfold State.setupCaches
  extract_lets s1
  have h1 : s1.memOk := by
    unfold s1
    split
    · exact State.onCores_memOk hs (fun _ _ hk => hk)
    · exact hs
  refine State.mapCores_memOk (s := s1) h1 (coresOk_map (State.cores_ok h1) fun _ he => ?_)
  split
  · exact Core.others_spadOk he
  · exact he

theorem Core.clearFaults_spadOk (hk : k.spadOk) : k.clearFaults.spadOk := hk

theorem Core.setupSlice_spadOk {r : Launch} {shared : Bool} (hk : k.spadOk) : (k.setupSlice r shared).spadOk :=
  Core.others_spadOk (Core.clearFaults_spadOk (Core.setGang_spadOk hk))

theorem Core.setupBinds_spadOk {r : Launch} {l : Nat} (hk : k.spadOk) : (k.setupBinds r l).spadOk :=
  foldl_keeps hk (fun _ hk1 _ => hk1)

theorem Core.setupLog_spadOk {r : Launch} (hk : k.spadOk) : (k.setupLog r).spadOk := by
  unfold Core.setupLog
  split <;> exact hk

theorem State.setupRings_holds {r : Launch} (hs : s.memOk) : Holds State.memOk (s.setupRings r) :=
  Holds.foldlM hs (fun _ ht _ => by
    split
    · exact Holds.some ht
    · split
      · exact Holds.none
      · exact Holds.some (State.modCore_memOk (State.others_memOk (State.ringWrite_memOk ht)) (fun _ hk =>
          Core.setupLog_spadOk hk)))

theorem Core.setupStart_spadOk {r : Launch} {l free : Nat} (hk : k.spadOk) : (k.setupStart r l free).spadOk :=
  Core.modCtx_spadOk hk

theorem State.poolEvent_memOk {r : Launch} {l : Nat} (hs : s.memOk) : (s.poolEvent r l c).memOk :=
  State.others_memOk (State.makeEvent_memOk hs)

theorem State.setupPool_memOk {r : Launch} {l : Nat} (hs : s.memOk) : (s.setupPool r l).memOk := by
  unfold State.setupPool
  split
  · exact hs
  · exact foldl_keeps (State.others_memOk (State.draw_memOk 64 hs)) (fun _ ht _ => State.poolEvent_memOk ht)

theorem State.setupInit_memOk {r : Launch} (hs : s.memOk) : (s.setupInit r).memOk :=
  foldl_keeps hs (fun _ ht _ => by
    split
    · exact State.windowDrop_memOk ht
    · exact State.commit_memOk ht (fun _ ha => State.hostEvent_memOk ha))

theorem State.setupClean_memOk {r : Launch} (hs : s.memOk) : (s.setupClean r).memOk :=
  State.onCores_memOk hs (fun _ _ ha => Core.clearFaults_spadOk ha)

theorem State.setStage_memOk {l : Nat} {r : Launch} {n : Nat} (hs : s.memOk) : (s.setStage l r n).memOk := hs

theorem State.setupOne_holds {die : Fin 4} {l : Nat} (hs : s.memOk) : Holds State.memOk (s.setupOne die l) := by
  unfold State.setupOne
  dsimp only
  split
  · exact Holds.some hs
  · split
    · exact Holds.some (State.setStage_memOk (State.setupCaches_memOk hs))
    · split
      · exact Holds.none
      · exact Holds.some (State.setStage_memOk (foldl_keeps hs (fun _ ht _ => State.modCore_memOk ht (fun _ hk =>
          Core.setupSlice_spadOk hk))))
    · exact Holds.some (State.setStage_memOk (State.onCores_memOk hs (fun _ _ ha => Core.setupBinds_spadOk ha)))
    · split
      · exact Holds.none
      · split
        · split
          · exact Holds.none
          · exact Holds.map (fun _ e => State.setStage_memOk (State.others_memOk (State.onCores_memOk (Holds.of_eq e
              (State.setupRings_holds hs)) (fun _ _ ha => Core.setupStart_spadOk ha))))
        · exact Holds.map (fun _ e => State.setStage_memOk (Holds.of_eq e (State.setupRings_holds hs)))
    · split
      · exact Holds.none
      · exact Holds.some (State.others_memOk (State.setupInit_memOk (State.setupPool_memOk (State.setStage_memOk
          (State.setupClean_memOk hs)))))
    · exact Holds.some hs

theorem State.setupStep_holds {die : Fin 4} (hs : s.memOk) : Holds State.memOk (s.setupStep die) :=
  Holds.findSome? (fun _ => State.setupOne_holds hs)

theorem State.setupGo_memOk {die : Fin 4} {f : Nat} (hs : s.memOk) : (s.setupGo die f).memOk := by
  induction f generalizing s with
  | zero => exact hs
  | succ f ih =>
    unfold State.setupGo
    split
    · exact hs
    · next heq => exact ih (Holds.of_eq heq (State.setupStep_holds hs))

theorem State.handleRecord_memOk {die : Fin 4} {va : DWord} {tag : Tag} {seen : KMap Nat} (hs : s.memOk) :
    (s.handleRecord die va tag seen).2.memOk := by
  unfold State.handleRecord
  split
  · exact hs
  · split
    · next heq1 =>
      exact snd_of_eq heq1 (State.freeCounter_memOk hs)
    · next heq1 =>
      split
      · exact hs
      · exact State.accept_memOk (snd_of_eq heq1 (State.freeCounter_memOk hs))

theorem State.launchRecord_memOk {w : WinSlot} (hs : s.memOk) : (s.launchRecord w).memOk :=
  State.setupGo_memOk (by
    split
    · exact State.handleRecord_memOk hs
    · exact State.memWrite_memOk (State.handleRecord_memOk hs))

theorem State.hostLaunch_memOk {w : WinSlot} (hs : s.memOk) : (s.hostLaunch w).memOk := by
  unfold State.hostLaunch
  split
  · exact hs
  · exact State.launchRecord_memOk hs

theorem State.launchRetry_holds {die : Fin 4} (hs : s.memOk) : Holds State.memOk (s.launchRetry die) := by
  unfold State.launchRetry
  split
  · exact Holds.none
  · exact Holds.map (fun _ _ => State.launchRecord_memOk hs)

theorem State.unitResume_holds {die : Fin 4} (hs : s.memOk) : Holds State.memOk (s.unitResume die) := by
  unfold State.unitResume
  split
  · next heq =>
    exact Holds.some (State.setupGo_memOk (Holds.of_eq heq (State.setupStep_holds hs)))
  · exact State.launchRetry_holds hs

theorem execLaunchCommit_memOk {w : WinSlot} (hs : s.memOk) : (execLaunchCommit w s).memOk :=
  State.commit_memOk hs (fun _ ha => State.hostLaunch_memOk ha)

theorem execLaunchSetupResume_memOk {die : Fin 4} (hs : s.memOk) : (execLaunchSetupResume die s).memOk :=
  happen_memOk hs (State.unitResume_holds hs)

theorem execStartL_memOk {d a : Reg} (hs : s.memOk) : (execStartL g d a s).memOk :=
  instr_memOk (fun _ ha => .bind State.notInRestartable_yields fun _ _ => .bind State.rdX_yields fun _ _ => .bind
      State.splitReady_yields fun _ _ => .bind (State.globalEA_yields ha) fun ⟨_, _⟩ ht => .bind State.settled_yields fun
      _ _ => .bind waitUntil_yields fun _ _ => Yields.ok (State.setupGo_memOk (State.post_memOk (State.handleRecord_memOk
      ht)))) hs

theorem State.hostCounter_memOk {w : WinSlot} (hs : s.memOk) : (s.hostCounter w).memOk := by
  unfold State.hostCounter
  dsimp only
  split
  · exact State.windowDrop_memOk hs
  · split
    · split
      · exact hs
      · split
        · exact State.windowDrop_memOk hs
        · exact State.modCounter_memOk hs
    · exact hs

theorem execSetCounterCommit_memOk {w : WinSlot} (hs : s.memOk) : (execSetCounterCommit w s).memOk :=
  State.commit_memOk hs (fun _ ha => State.hostCounter_memOk ha)

theorem execCancelCommit_memOk {w : WinSlot} (hs : s.memOk) : (execCancelCommit w s).memOk :=
  State.commit_memOk hs (fun _ ha => by
    split
    · exact State.windowDrop_memOk ha
    · split
      · exact State.cancelCounter_memOk ha
      · exact ha)

/-! ### Control -/

theorem State.modB_memOk {n : Fin 8} {f : BReg → BReg} (hs : s.memOk) : (s.modB n f).memOk := State.modCx_memOk hs

theorem execPrep_memOk {n : Fin 8} {off : Int} (hs : s.memOk) : (execPrep n off s).memOk :=
  instr_memOk (fun _ ha => Yields.ok (State.modB_memOk ha)) hs

theorem execPrepx_memOk {n : Fin 8} {a : Reg} (hs : s.memOk) : (execPrepx g n a s).memOk :=
  instr_memOk (fun _ ha => .bind State.rdX_yields fun _ _ => Yields.ok (State.modB_memOk ha)) hs

theorem State.target_yields {n : Fin 8} (hs : s.memOk) : Yields Stop.memOk (fun _ => True) (s.target n) := by
  unfold State.target
  dsimp only
  split
  · exact fault_yields
  · split
    · exact Yields.error trivial
    · split
      · split <;> exact Yields.error (State.modB_memOk hs)
      · exact Yields.ok trivial

theorem State.jump_memOk {b : BReg} (hs : s.memOk) : (s.jump b).memOk := State.modCx_memOk hs

theorem goBody_yields {n : Fin 8} (hs : s.memOk) : Yields Stop.memOk State.memOk (goBody n s) :=
  .bind (State.target_yields hs) fun _ _ => Yields.ok (State.jump_memOk (State.modB_memOk hs))

theorem callBody_yields {n : Fin 8} (hs : s.memOk) : Yields Stop.memOk State.memOk (callBody n s) :=
  .bind (State.target_yields hs) fun _ _ => Yields.ok (State.jump_memOk (State.modB_memOk (State.modB_memOk hs)))

theorem guardedJump_yields {sense : Bool} {p : PReg} {body : State → Act}
    (hbody : ∀ (a : State), a.memOk → Yields Stop.memOk State.memOk (body a)) (hs : s.memOk) : Yields Stop.memOk
    State.memOk (guardedJump sense p body s) := by
  unfold guardedJump
  split
  · exact Yields.ok (State.modCx_memOk hs)
  · exact hbody s hs

theorem execGo_memOk {n : Fin 8} (hs : s.memOk) : (execGo n s).memOk :=
  instrJump_memOk hs (fun _ hs1 => goBody_yields hs1)

theorem execGoGuarded_memOk {n : Fin 8} {sense : Bool} {p : PReg} (hs : s.memOk) : (execGoGuarded n sense p s).memOk :=
  instrJump_memOk hs (fun _ hs1 => guardedJump_yields (fun _ ha => goBody_yields ha) hs1)

theorem execCall_memOk {n : Fin 8} (hs : s.memOk) : (execCall n s).memOk :=
  instrJump_memOk hs (fun _ hs1 => callBody_yields hs1)

theorem execCallGuarded_memOk {n : Fin 8} {sense : Bool} {p : PReg} (hs : s.memOk) :
    (execCallGuarded n sense p s).memOk :=
  instrJump_memOk hs (fun _ hs1 => guardedJump_yields (fun _ ha => callBody_yields ha) hs1)

theorem execMfb_memOk {d : Reg} {n : Fin 8} (hs : s.memOk) : (execMfb g d n s).memOk :=
  instr_memOk (fun _ ha => State.wrX_yields ha) hs

theorem execMtb_memOk {n : Fin 8} {a : Reg} (hs : s.memOk) : (execMtb g n a s).memOk :=
  instr_memOk (fun _ ha => .bind State.rdX_yields fun _ _ => Yields.ok (State.modB_memOk ha)) hs

theorem execClrb_memOk {n : Fin 8} (hs : s.memOk) : (execClrb g n s).memOk :=
  instr_memOk (fun _ ha => Yields.ok (State.modB_memOk ha)) hs

theorem execTstb_memOk {d : PReg} {n : Fin 8} (hs : s.memOk) : (execTstb g d n s).memOk :=
  instr_memOk (fun _ ha => Yields.ok (State.putP_memOk ha)) hs

theorem syncCode_yields (hs : s.memOk) : Yields Stop.memOk State.memOk (syncCode s) :=
  .bind waitUntil_yields fun _ _ => Yields.ok (State.modCx_memOk (State.modMe_memOk hs (fun _ ha => ha)))

theorem execSyncCL_memOk (hs : s.memOk) : (execSyncCL g s).memOk := instr_memOk (fun _ ha => syncCode_yields ha) hs
theorem execSyncC_memOk (hs : s.memOk) : (execSyncC s).memOk := instrC_memOk (fun _ ha => syncCode_yields ha) hs

/-! ### System instructions -/

theorem State.endReady_yields : Yields Stop.memOk (fun _ => True) s.endReady :=
  .bind State.syncPoint_yields fun _ _ => waitUntil_yields

theorem State.endOther_memOk (hs : s.memOk) : (s.endOther c h).memOk :=
  State.modCore_memOk (State.modCtx_memOk hs) (fun _ hk => Core.others_spadOk (Core.dropExtx_spadOk hk))

theorem State.endContext_memOk (hs : s.memOk) : (s.endContext c h).memOk := by
  unfold State.endContext
  split
  · exact State.endOther_memOk hs
  · exact State.endReaction_memOk hs

theorem State.endFaulted_memOk (hs : s.memOk) : s.endFaulted.memOk := by
  unfold State.endFaulted
  dsimp only
  split
  · exact State.endContext_memOk (State.syncWith_memOk (State.dropStreams_memOk hs))
  · exact hs

theorem endBody_yields (hs : s.memOk) : Yields Stop.memOk State.memOk (endBody s) := by
  unfold endBody
  dsimp only
  exact .bind State.endReady_yields fun _ _ => .bind State.endStreams_yields fun _ _ => by
    split
    · exact .bind waitUntil_yields fun _ _ => Yields.ok (State.modMe_memOk (State.modCx_memOk (State.endFaulted_memOk
        (State.modMe_memOk (State.dropStreams_memOk hs) (fun _ hk => Core.perf_spadOk hk)))) (fun _ hk =>
        Core.leaveTrap_spadOk hk))
    · exact Yields.ok (State.endContext_memOk (State.modMe_memOk (State.dropStreams_memOk hs) (fun _ hk =>
        Core.perf_spadOk hk)))

theorem runEnd_memOk {body : State → Except Stop State} (hs : s.memOk)
    (hbody : ∀ s, s.memOk → Yields Stop.memOk State.memOk (body s)) : (runEnd body s).memOk := by
  have hr := hbody s hs
  unfold runEnd
  split
  · next heq => exact Yields.ok_of_eq heq hr
  · next heq => exact State.stopWith_memOk hs (Yields.error_of_eq heq hr)

theorem execEndL_memOk (hs : s.memOk) : (execEndL g s).memOk := by
  unfold execEndL
  split
  · exact runEnd_memOk hs (fun _ hs1 => endBody_yields hs1)
  · exact State.retire_memOk hs

theorem execEndC_memOk (hs : s.memOk) : (execEndC s).memOk := runEnd_memOk hs (fun _ hs1 => endBody_yields hs1)
theorem execNop_memOk (hs : s.memOk) : (execNop g s).memOk := instr_memOk (fun _ ha => Yields.ok ha) hs
theorem execNopC_memOk (hs : s.memOk) : (execNopC s).memOk := instrC_memOk (fun _ ha => Yields.ok ha) hs

theorem execHalt_memOk (hs : s.memOk) : (execHalt g s).memOk := by
  unfold execHalt
  split
  · exact State.machineCheck_memOk (State.haltCore_memOk (State.retire_memOk hs))
  · exact State.retire_memOk hs

theorem execBrk_memOk (hs : s.memOk) : (execBrk g s).memOk := instr_memOk (fun _ _ => fault_yields) hs
theorem execBrkC_memOk (hs : s.memOk) : (execBrkC s).memOk := instrC_memOk (fun _ _ => fault_yields) hs
theorem execTrap_memOk {imm : Int} (hs : s.memOk) : (execTrap g imm s).memOk := instr_memOk (fun _ _ => fault_yields) hs
theorem beatBody_yields (hs : s.memOk) : Yields Stop.memOk State.memOk (beatBody s) := Yields.ok (State.modCx_memOk hs)
theorem execBeatL_memOk (hs : s.memOk) : (execBeatL g s).memOk := instr_memOk (fun _ ha => beatBody_yields ha) hs
theorem execBeatC_memOk (hs : s.memOk) : (execBeatC s).memOk := instrC_memOk (fun _ ha => beatBody_yields ha) hs

theorem execIdle_memOk {a : Reg} (hs : s.memOk) : (execIdle g a s).memOk :=
  instr_memOk (fun _ ha => .bind State.rdX_yields fun _ _ => Yields.ok (by
    split
    · exact ha
    · exact State.modCx_memOk ha)) hs

theorem State.lengthAt_memOk {va : DWord} (hs : s.memOk) : (s.lengthAt c va).2.memOk := by
  unfold State.lengthAt
  split
  · next heq =>
    dsimp only
    split
    · exact hs
    · exact snd_of_eq heq (State.fetchHalf_memOk hs)
  · next heq => exact State.draw_memOk 1 (snd_of_eq heq (State.fetchHalf_memOk hs))

theorem State.retranslate_memOk {q : Req} (hs : s.memOk) : (s.retranslate c q).2.memOk := by
  unfold State.retranslate
  split
  · split
    all_goals
      next heq1 =>
      exact snd_of_eq heq1 (State.globalCheck_memOk hs)
  · exact hs

theorem State.resend_memOk {q : Req} (hs : s.memOk) : (s.resend c h q).memOk := by
  unfold State.resend
  dsimp only
  split
  · exact State.sendOp_memOk (State.modCtx_memOk (State.retranslate_memOk hs))
  · exact State.modCtx_memOk (State.retranslate_memOk hs)

theorem State.eret_memOk (hs : s.memOk) : s.eret.memOk := by
  unfold State.eret
  dsimp only
  split
  · exact State.modMe_memOk (by
      split
      · split
        · exact State.resend_memOk (State.modMe_memOk hs (fun _ hk => Core.modCtx_spadOk hk))
        · exact State.modMe_memOk hs (fun _ ha => Core.modCtx_spadOk ha)
      · split
        · exact State.modMe_memOk (State.lengthAt_memOk hs) (fun _ ha => Core.modCtx_spadOk ha)
        · exact State.modMe_memOk hs (fun _ ha => Core.modCtx_spadOk ha)) (fun _ ha => Core.leaveTrap_spadOk ha)
  · exact State.modMe_memOk hs (fun _ ha => Core.leaveTrap_spadOk ha)

theorem execEret_memOk (hs : s.memOk) : (execEret g s).memOk := by
  unfold execEret
  split
  · split
    · exact State.eret_memOk (State.modMe_memOk hs (fun _ ha => Core.perf_spadOk ha))
    · exact State.trapHere_memOk hs
  · exact State.retire_memOk hs

theorem Core.spill_spadOk {a : Nat} {b : List Byte} (hk : k.spadOk) : (k.spill a b).spadOk := Core.spadWrite_spadOk hk

theorem Core.spillTake_spadOk (hk : k.spadOk) : k.spillTake.2.spadOk := by
  unfold Core.spillTake
  split
  · exact hk
  · exact Core.others_spadOk (Core.spill_spadOk (Core.dropBlock_spadOk (Core.removeIn_spadOk hk)))

theorem State.spillPutAt_memOk {a : Nat} (hs : s.memOk) : (s.spillPutAt c a).memOk :=
  State.place_memOk (State.modCore_memOk hs (fun _ hk => hk))

theorem Core.setSpillN_spadOk {v : Word} (hk : k.spadOk) : (k.setSpillN v).spadOk := hk

theorem execMfs_memOk {d : Reg} {r : SpecialReg} (hs : s.memOk) : (execMfs d r s).memOk :=
  instr_memOk (fun _ ha => .bind State.regReady_yields fun _ _ => by
    split
    · exact Yields.ok (State.putX_memOk (State.modMe_memOk ha (fun _ _ => Core.spillTake_spadOk (State.me_spadOk ha))))
    · exact Yields.ok (State.putX_memOk ha)) hs

theorem Core.writeSpecial_spadOk {r : SpecialReg} {v : DWord} (hk : k.spadOk) : (k.writeSpecial h r v).spadOk := by
  unfold Core.writeSpecial
  split
  case h_9 | h_10 => exact Core.modCtx_spadOk hk
  case h_18 => exact Core.setSpillN_spadOk hk
  case h_1 | h_16 | h_17 | h_20 | h_21 => split <;> exact hk
  all_goals exact hk

theorem execMts_memOk {r : SpecialReg} {d : Reg} (hs : s.memOk) : (execMts r d s).memOk :=
  instr_memOk (fun _ ha => .bind State.rdX_yields fun _ _ => by
    split
    · exact .bind waitUntil_yields fun _ _ => Yields.ok (State.spillPutAt_memOk (State.modMe_memOk ha (fun _ hk =>
        Core.writeSpecial_spadOk hk)))
    · exact Yields.ok (State.modMe_memOk ha (fun _ hk => Core.writeSpecial_spadOk hk))) hs

theorem readInto_yields {r : SpecialReg} {d : Reg} (hs : s.memOk) : Yields Stop.memOk State.memOk (readInto r d s) :=
  State.wrX_yields hs

theorem execTagt_memOk {d : Reg} (hs : s.memOk) : (execTagt g d s).memOk :=
  instr_memOk (fun _ ha => readInto_yields ha) hs

theorem execTagm_memOk {d : Reg} (hs : s.memOk) : (execTagm g d s).memOk :=
  instr_memOk (fun _ ha => readInto_yields ha) hs

theorem execClk_memOk {d : Reg} (hs : s.memOk) : (execClk g d s).memOk :=
  instr_memOk (fun _ ha => readInto_yields ha) hs

theorem execHorz_memOk {d : Reg} (hs : s.memOk) : (execHorz g d s).memOk :=
  instr_memOk (fun _ ha => readInto_yields ha) hs

theorem execLastt_memOk {d : Reg} (hs : s.memOk) : (execLastt g d s).memOk :=
  instr_memOk (fun _ ha => readInto_yields ha) hs

theorem execLastm_memOk {d : Reg} (hs : s.memOk) : (execLastm g d s).memOk :=
  instr_memOk (fun _ ha => readInto_yields ha) hs

theorem classRead_yields {f : Core → RouteClass → Nat} {d a : Reg} (hs : s.memOk) :
    Yields Stop.memOk State.memOk (classRead f d a s) :=
  .bind State.rdX_yields fun _ _ => .bind check_yields fun _ _ => State.wrX_yields hs

theorem execBound_memOk {d a : Reg} (hs : s.memOk) : (execBound g d a s).memOk :=
  instr_memOk (fun _ ha => classRead_yields ha) hs

theorem execEbnd_memOk {d a : Reg} (hs : s.memOk) : (execEbnd g d a s).memOk :=
  instr_memOk (fun _ ha => classRead_yields ha) hs

theorem State.heapStore_memOk {b : List Byte} (hs : s.memOk) : (s.heapStore c b).memOk :=
  State.modCore_memOk (State.memWrite_memOk (State.draw_memOk 64 hs)) (fun _ hk => hk)

theorem State.trySpill_holds {d : Reg} (hs : s.memOk) : Holds State.memOk (s.trySpill c d) := by
  unfold State.trySpill
  dsimp only
  split
  · exact Holds.none
  · split
    · exact Holds.some (State.modCtx_memOk hs)
    · split
      · exact Holds.none
      · exact Holds.some (State.heapStore_memOk (State.modCtx_memOk (State.modCore_memOk hs (fun _ _ =>
          Core.spillTake_spadOk (State.core_spadOk hs c)))))

theorem Core.fromHeap_spadOk {a : Nat} (hk : k.spadOk) : (k.fromHeap a).spadOk := by
  unfold Core.fromHeap
  split
  · exact Core.others_spadOk (Core.spill_spadOk hk)
  · exact hk

theorem State.tryPut_holds {a : BitVec 18} (hs : s.memOk) : Holds State.memOk (s.tryPut c a) := by
  unfold State.tryPut
  dsimp only
  split
  · refine Holds.some ?_
    split
    · exact State.spillPutAt_memOk (State.setCore_memOk hs (Core.others_spadOk (Core.fromHeap_spadOk (State.core_spadOk hs
        c))))
    · exact State.modCore_memOk (State.spillPutAt_memOk (State.setCore_memOk hs (Core.others_spadOk (Core.fromHeap_spadOk
        (State.core_spadOk hs c))))) (fun _ hk => Core.setSpillN_spadOk hk)
  · exact Holds.none

theorem execSpillTakeRead_memOk {d : Reg} (hs : s.memOk) : (execSpillTakeRead c d s).memOk :=
  happen_memOk hs (State.trySpill_holds hs)

theorem execSpillPutWrite_memOk {addr : BitVec 18} (hs : s.memOk) : (execSpillPutWrite c addr s).memOk :=
  happen_memOk hs (State.tryPut_holds hs)

theorem execSpillNWrite_memOk {v : Word} (hs : s.memOk) : (execSpillNWrite c v s).memOk :=
  State.modCore_memOk hs (fun _ hk => Core.setSpillN_spadOk hk)

theorem State.autoSpill_holds (hs : s.memOk) : Holds State.memOk (State.autoSpill c s) := by
  unfold State.autoSpill
  dsimp only
  split
  · exact Holds.none
  · split
    · exact State.trySpill_holds hs
    · split
      · exact State.tryPut_holds hs
      · exact Holds.none

/-! ### Images -/

theorem State.writeImages_memOk {base : Nat} {cores : KMap Core} {keep : InEv → Bool} (hs : s.memOk) :
    (s.writeImages base cores keep).memOk :=
  foldl_keeps (State.memWrite_memOk hs) (fun _ ht _ => State.memWrite_memOk ht)

theorem Core.fromImage_spadOk {m : Memory} {a : Nat} (hm : m.wf = true) : (k.fromImage m a).spadOk :=
  Core.mk_spadOk (Memory.window_wf hm) (filter_upto_rising _ _)

/-! ### Freezing, cutting and resuming -/

theorem repeatStep_memOk {step : State → Option State} {f : Nat} (hstep : ∀ s, s.memOk → Holds State.memOk (step s))
    (hs : s.memOk) : (repeatStep step f s).memOk := by
  induction f generalizing s with
  | zero => exact hs
  | succ f ih =>
    unfold repeatStep
    split
    · exact hs
    · next heq => exact ih (Holds.of_eq heq (hstep s hs))

theorem orElse_holds {a b : State → Option State} (ha : ∀ s, s.memOk → Holds State.memOk (a s))
    (hb : ∀ s, s.memOk → Holds State.memOk (b s)) (hs : s.memOk) : Holds State.memOk (orElse a b s) := by
  unfold orElse
  split
  · next heq => exact .some (Holds.of_eq heq (ha s hs))
  · exact hb s hs

theorem firstIndex_holds {step : State → Nat → Option State} {n : Nat}
    (hstep : ∀ s, s.memOk → ∀ i, Holds State.memOk (step s i)) (hs : s.memOk) :
    Holds State.memOk (firstIndex step s n) := by
  induction n generalizing s with
  | zero => exact .none
  | succ n ih => exact orElse_holds (fun _ ht => ih ht) (fun t ht => hstep t ht n) hs

theorem State.drainSlice_memOk (hs : s.memOk) : (s.drainSlice c).memOk :=
  repeatStep_memOk (fun _ hs1 => firstIndex_holds (fun _ hs2 _ => State.engineWrite_holds hs2) hs1) (repeatStep_memOk (fun
      _ hs1 => orElse_holds (fun _ hs2 => State.tryMma_holds hs2) (fun _ hs2 => orElse_holds (fun _ hs3 =>
      State.tryMmaFault_holds hs3) (fun _ hs3 => State.tryLeave_holds hs3) hs2) hs1) hs)

theorem State.drainCopies_memOk (hs : s.memOk) : (s.drainCopies c).memOk :=
  foldl_keeps hs (fun _ ht _ => Holds.getD (orElse_holds (fun _ hs1 => State.tryCopyDone_holds hs1) (fun _ hs1 =>
      State.tryChannelFault_holds hs1) ht) ht)

theorem State.reqStep_holds (hs : s.memOk) : Holds State.memOk (State.reqStep c h s) :=
  firstIndex_holds (fun _ hs1 _ => orElse_holds (fun _ hs2 => State.tryReply_holds hs2) (fun _ hs2 => orElse_holds (fun _
      hs3 => State.tryGrant_holds hs3) (fun _ hs3 => orElse_holds (fun _ hs4 => State.tryAtomic_holds hs4) (fun _ hs4 =>
      orElse_holds (fun _ hs5 => State.tryStv_holds hs5) (fun _ hs5 => orElse_holds (fun _ hs6 => State.tryRecl_holds hs6)
      (fun _ hs6 => State.tryCapq_holds hs6) hs5) hs4) hs3) hs2) hs1) hs

theorem State.drainReqs_memOk (hs : s.memOk) : (s.drainReqs c).memOk :=
  foldl_keeps hs (fun _ ht _ => repeatStep_memOk (fun _ hs1 => State.reqStep_holds hs1) ht)

theorem State.drainObjects_memOk (hs : s.memOk) : s.drainObjects.memOk :=
  repeatStep_memOk (fun _ hs1 => firstIndex_holds (fun _ hs2 _ => State.tryHome_holds hs2) hs1) hs

theorem State.drainMcasts_memOk (hs : s.memOk) : s.drainMcasts.memOk :=
  repeatStep_memOk (fun _ hs1 => firstIndex_holds (fun _ hs2 _ => State.tryMcast_holds hs2) hs1) hs

theorem State.drainEvents_memOk (hs : s.memOk) : s.drainEvents.memOk :=
  repeatStep_memOk (fun _ hs1 => firstIndex_holds (fun _ hs2 _ => State.tryArrival_holds hs2) hs1) (repeatStep_memOk (fun
      _ hs1 => firstIndex_holds (fun _ hs2 _ => State.tryCap_holds hs2) hs1) (foldl_keeps hs (fun _ ht _ =>
      repeatStep_memOk (fun _ hs1 => State.tryDepart_holds hs1) ht)))

theorem State.drain_memOk (hs : s.memOk) : s.drain.memOk :=
  State.drainEvents_memOk (State.drainObjects_memOk (foldl_keeps (State.drainMcasts_memOk (foldl_keeps (foldl_keeps
      (State.drainObjects_memOk (foldl_keeps hs (fun _ ht _ => State.drainCopies_memOk (State.drainSlice_memOk ht)))) (fun
      _ ht _ => State.drainReqs_memOk ht)) (fun _ ht _ => Holds.getD (State.tryRound_holds ht) ht))) (fun _ ht _ =>
      State.drainReqs_memOk (State.drainSlice_memOk ht))))

theorem State.saveModule_memOk (hs : s.memOk) : s.saveModule.memOk := by
  unfold State.saveModule
  extract_lets base t
  have ht : t.memOk := State.writeImages_memOk hs
  clear_value t
  exact State.mk_memOk (State.mem_wf ht) (State.dir_rises ht) (State.cut_holds ht) (State.cores_ok ht)
    (KMap.put_savedOk (State.saved_coresOk ht) (State.cores_ok hs))

theorem State.sendMarkers_memOk {freezeMarker : Bool} (hs : s.memOk) : (s.sendMarkers freezeMarker).memOk :=
  foldl_keeps hs (fun _ ht _ => State.emit_memOk ht)

theorem State.freezeGo_memOk (hs : s.memOk) : s.freezeGo.memOk := by
  unfold State.freezeGo
  dsimp only
  split
  · exact State.drain_memOk hs
  · split
    · split
      · exact State.saveModule_memOk (State.others_memOk (State.sendMarkers_memOk (State.drain_memOk hs)))
      · exact State.others_memOk (State.sendMarkers_memOk (State.drain_memOk hs))
    · split
      · exact State.saveModule_memOk (State.drain_memOk hs)
      · exact State.drain_memOk hs

theorem State.freezeWrite_memOk {coord : Bool} (hs : s.memOk) : (s.freezeWrite coord).memOk := by
  unfold State.freezeWrite
  split
  · exact hs
  · split
    · exact hs
    · split
      · exact hs
      · exact State.freezeGo_memOk hs

theorem execFreeze_memOk {coord : Bool} (hs : s.memOk) : (execFreeze coord s).memOk := State.freezeWrite_memOk hs
theorem Core.restore_spadOk (hk : k.spadOk) : k.restore.spadOk := hk
theorem Core.resent_spadOk {kept : List Kept} (hk : k.spadOk) : (Core.resent kept c k).spadOk := hk

theorem State.savedAt_holds (hs : s.memOk) : Holds Saved.memOk s.savedAt := by
  have hsaved := State.saved_coresOk hs
  unfold State.savedAt
  extract_lets base image
  split
  · next v hv => exact .some (hsaved _ (KMap.mem_of_find hv))
  · exact Holds.map fun e he => hsaved e (List.mem_of_find?_eq_some he)

theorem State.imageCores_coresOk {v : Saved} (hs : s.memOk) (hv : v.memOk) : coresOk (s.imageCores v) :=
  coresOk_map hv (fun _ _ => Core.resent_spadOk (Core.restore_spadOk (Core.fromImage_spadOk (State.mem_wf hs))))

theorem State.restoreModule_memOk {v : Saved} {dt : DWord} (hs : s.memOk) (hv : v.memOk) :
    (s.restoreModule v dt).memOk :=
  State.wsRefresh_memOk (State.mapCores_memOk hs (State.imageCores_coresOk hs hv))

theorem State.resumeWrite_memOk {coord : Bool} (hs : s.memOk) : (s.resumeWrite coord).memOk := by
  unfold State.resumeWrite
  split
  · exact hs
  · split
    · exact hs
    · next heq =>
      split
      · exact hs
      · exact State.restoreModule_memOk hs (Holds.of_eq heq (State.savedAt_holds hs))

theorem execResume_memOk {coord : Bool} (hs : s.memOk) : (execResume coord s).memOk := State.resumeWrite_memOk hs

theorem State.tryFreezeInstant_holds (hs : s.memOk) : Holds State.memOk s.tryFreezeInstant := by
  unfold State.tryFreezeInstant
  split
  · split
    · exact Holds.some hs
    · exact Holds.some (State.freezeGo_memOk hs)
  · exact Holds.none

theorem execCoordinatedFreezeInstant_memOk (hs : s.memOk) : (execCoordinatedFreezeInstant s).memOk :=
  happen_memOk hs (State.tryFreezeInstant_holds hs)

theorem State.tryResumeInstant_holds (hs : s.memOk) : Holds State.memOk s.tryResumeInstant := by
  unfold State.tryResumeInstant
  split
  · exact Holds.map (fun _ e => State.restoreModule_memOk hs (Holds.of_eq e (State.savedAt_holds hs)))
  · exact Holds.none

theorem execCoordinatedResumeInstant_memOk (hs : s.memOk) : (execCoordinatedResumeInstant s).memOk :=
  happen_memOk hs (State.tryResumeInstant_holds hs)

theorem State.instants_memOk (hs : s.memOk) : s.instants.memOk := by
  unfold State.instants
  split
  · exact hs
  · exact Holds.getD (State.tryResumeInstant_holds (Holds.getD (State.tryFreezeInstant_holds hs) hs)) (Holds.getD
      (State.tryFreezeInstant_holds hs) hs)

theorem State.writeLate_memOk (hs : s.memOk) : s.writeLate.memOk :=
  foldl_keeps hs (fun _ ht _ => State.writeResult_memOk ht)

theorem State.cutCommit_memOk {w : WinSlot} (hs : s.memOk) : (s.cutCommit w).memOk := by
  unfold State.cutCommit
  split
  · exact hs
  · split
    · exact State.writeLate_memOk hs
    · exact State.writeLate_memOk (State.mk_memOk (State.mem_wf hs) (State.dir_rises hs) (.some (rfl : Memory.wf [] = true))
        (State.cores_ok hs) (State.saved_coresOk hs))

theorem execCheckpointCutCommit_memOk {w : WinSlot} (hs : s.memOk) : (execCheckpointCutCommit w s).memOk :=
  State.commit_memOk hs (fun _ ha => State.cutCommit_memOk ha)

theorem State.cutFail_memOk (hs : s.memOk) : s.cutFail.memOk := by
  unfold State.cutFail
  split
  · exact State.others_memOk (State.withCut_memOk (o := none) hs .none)
  · exact hs

/-- The cut is taken in a state whose images are written. -/
theorem State.cutTaken_memOk {q : Cut} {n : Nat} (ht : t.memOk) :
    (State.deliverForm (State.draw { t with ckState := 3, cut := some { q with mem := t.mem } } 64).2 q.form n 0 []).memOk :=
  State.deliverForm_memOk (State.draw_memOk 64 (State.mk_memOk (State.mem_wf ht) (State.dir_rises ht)
    (.some (State.mem_wf ht)) (State.cores_ok ht) (State.saved_coresOk ht)))

theorem State.cutFinish_memOk (hs : s.memOk) : s.cutFinish.memOk := by
  unfold State.cutFinish
  split
  · exact hs
  · split
    · exact State.cutTaken_memOk (State.writeImages_memOk hs)
    · exact hs

theorem State.tryCutSave_holds (hs : s.memOk) : Holds State.memOk s.tryCutSave := by
  unfold State.tryCutSave
  split
  · exact .none
  · next q hq =>
    split
    · exact .some (State.cutFinish_memOk (State.sendMarkers_memOk (State.mk_memOk (State.mem_wf hs) (State.dir_rises hs)
        (.some (State.cut_memOk hs hq : q.memOk)) (State.cores_ok hs) (State.saved_coresOk hs))))
    · exact .none

theorem execCutSave_memOk (hs : s.memOk) : (execCutSave s).memOk := happen_memOk hs (State.tryCutSave_holds hs)

theorem State.marker_memOk {port : Fin 8} {b : Bool} (hs : s.memOk) : (s.marker port b).memOk := by
  unfold State.marker
  dsimp only
  split
  · split
    · exact State.freezeGo_memOk (State.others_memOk hs)
    · exact State.others_memOk hs
  · split
    · next q hq =>
      split
      · exact State.cutFinish_memOk (State.withCut_memOk hs (.some (State.cut_memOk hs hq : q.memOk)))
      · exact State.others_memOk hs
    · exact State.others_memOk hs

theorem execCutMarkerArrival_memOk {port : Fin 8} {freezeMarker : Bool} (hs : s.memOk) :
    (execCutMarkerArrival port freezeMarker s).memOk := by
  unfold execCutMarkerArrival
  split
  · exact State.marker_memOk hs
  · exact hs

theorem State.drainCommit_memOk {w : WinSlot} (hs : s.memOk) : (s.drainCommit w).memOk := by
  unfold State.drainCommit
  split
  · next q hq =>
    split
    · obtain ⟨hmem, hdir, hcut, hcores, hsaved⟩ := hs
      exact ⟨hmem, hdir, fun r hr => Option.some.inj hr ▸ hcut q hq, hcores, hsaved⟩
    · exact hs
  · exact hs

theorem execCheckpointDrainCommit_memOk {w : WinSlot} (hs : s.memOk) : (execCheckpointDrainCommit w s).memOk :=
  State.commit_memOk hs (fun _ ha => State.drainCommit_memOk ha)

theorem State.tryDrained_holds (hs : s.memOk) : Holds State.memOk s.tryDrained := by
  unfold State.tryDrained
  split
  · next q hq =>
    split
    · split
      · exact .some (State.deliverForm_memOk (State.draw_memOk 64 (State.writeLate_memOk (State.mk_memOk
          (Memory.copyHbm_wf (State.mem_wf hs) (State.cut_memOk hs hq)) (State.dir_rises hs) .none (State.cores_ok hs)
          (State.saved_coresOk hs)))))
      · exact .none
    · exact .none
  · exact .none

theorem execDrainComplete_memOk (hs : s.memOk) : (execDrainComplete s).memOk :=
  happen_memOk hs (State.tryDrained_holds hs)

/-! ### The fabric -/

theorem State.modPort_memOk {p : Fin 8} {f : Port → Port} (hs : s.memOk) : (s.modPort p f).memOk := hs

theorem State.count0_memOk {code : Nat} (hs : s.memOk) : (s.count0 code).memOk :=
  State.modCore_memOk hs (fun _ hk => Core.perf_spadOk hk)

theorem State.portDown_memOk {p : Fin 8} (hs : s.memOk) : (s.portDown p).memOk := by
  unfold State.portDown
  dsimp only
  split
  · exact State.others_memOk (State.cutFail_memOk (State.modPort_memOk hs))
  · exact State.cutFail_memOk (State.modPort_memOk hs)

theorem execLinkDown_memOk {port : Fin 8} (hs : s.memOk) : (execLinkDown port s).memOk := by
  unfold execLinkDown
  split
  · exact State.portDown_memOk hs
  · exact hs

theorem execLinkBringUp_memOk {port : Fin 8} (hs : s.memOk) : (execLinkBringUp port s).memOk := State.modPort_memOk hs

theorem execLinkKeyRenewal_memOk {port : Fin 8} (hs : s.memOk) : (execLinkKeyRenewal port s).memOk := by
  unfold execLinkKeyRenewal
  dsimp only
  split
  · exact State.modPort_memOk hs
  · exact hs

theorem State.wakeOrdered_memOk (hs : s.memOk) : (s.wakeOrdered c h).memOk := by
  unfold State.wakeOrdered
  dsimp only
  split
  · exact State.goOrdered_memOk hs
  · exact hs

theorem State.creditBack_memOk {e : Kept} (hs : s.memOk) : (s.creditBack e).memOk := by
  unfold State.creditBack
  split
  · split <;> exact hs
  · exact hs

theorem State.engReply_memOk {id : Nat} {cause : Byte} {v : DWord} (hs : s.memOk) : (s.engReply id cause v).memOk := hs

theorem State.giveUp_memOk {e : Kept} (hs : s.memOk) : (s.giveUp e).memOk := by
  unfold State.giveUp
  split
  · exact State.wakeOrdered_memOk (State.modReq_memOk hs)
  · exact State.engReply_memOk hs
  · exact State.releaseHeld_memOk (State.creditBack_memOk hs)

theorem State.tryRetry_holds {k : Nat} (hs : s.memOk) : Holds State.memOk (s.tryRetry k) := by
  unfold State.tryRetry
  split
  · exact Holds.none
  · split
    · exact Holds.none
    · split
      · exact Holds.some (State.count0_memOk (State.others_memOk (State.transmit_memOk hs)))
      · refine Holds.some ?_
        split
        · exact State.count0_memOk (State.giveUp_memOk hs)
        · exact State.giveUp_memOk hs

theorem execE2eRetryTimeout_memOk {k : Nat} (hs : s.memOk) : (execE2eRetryTimeout k s).memOk :=
  happen_memOk hs (State.tryRetry_holds hs)

theorem State.storeDone_memOk {id : Nat} (hs : s.memOk) : (s.storeDone c h id).memOk := by
  unfold State.storeDone
  split
  · exact hs
  · split
    · exact hs
    · exact State.answer_memOk (State.sawNow_memOk (State.memWrite_memOk hs))

theorem State.engStored_memOk {id : Nat} (hs : s.memOk) : (s.engStored id).memOk := by
  unfold State.engStored
  split
  · split
    · exact State.engReply_memOk (State.memWrite_memOk hs)
    · exact hs
  · exact hs

theorem State.delivered_memOk {e : Kept} (hs : s.memOk) : (s.delivered e).memOk := by
  unfold State.delivered
  split
  · exact State.storeDone_memOk hs
  · exact State.engStored_memOk hs
  · exact State.creditBack_memOk hs

theorem State.acked_memOk {src : BitVec 20} {seq : Word} (hs : s.memOk) : (s.acked src seq).memOk :=
  State.releaseHeld_memOk (foldl_keeps hs (fun _ ht _ => State.delivered_memOk ht))

theorem execE2eAckArrival_memOk {src : BitVec 20} {seq : Word} (hs : s.memOk) : (execE2eAckArrival src seq s).memOk :=
  State.acked_memOk hs

theorem State.clockTrap_memOk {off : Int} {far : Bool} (hs : s.memOk) : (s.clockTrap off far).memOk := by
  unfold State.clockTrap
  dsimp only
  split
  all_goals
    split
    · exact foldl_keeps hs (fun _ ht _ => State.trapNoCtx_memOk ht)
    · exact hs

theorem State.slewBy_memOk {ns : Int} (hs : s.memOk) : (s.slewBy ns).memOk := hs

theorem State.discipline_memOk {off slew : Int} (hs : s.memOk) : (s.discipline off slew).memOk := by
  unfold State.discipline
  dsimp only
  split
  · exact State.slewBy_memOk hs
  · exact hs

theorem State.exchange_memOk {t1 t2 t3 t4 : DWord} {port : Fin 8} {slew : Int} (hs : s.memOk) :
    (s.exchange t1 t2 t3 t4 port slew).memOk := by
  unfold State.exchange
  split
  · exact State.clockTrap_memOk (State.discipline_memOk hs)
  · exact hs

theorem execTimestampExchange_memOk {t1 t2 t3 t4 : DWord} {port : Fin 8} {slew : Int} (hs : s.memOk) :
    (execTimestampExchange t1 t2 t3 t4 port slew s).memOk :=
  State.exchange_memOk hs

theorem State.farInstant_memOk {lo pa n v : Nat} (hs : s.memOk) : (s.farInstant lo pa n v).2.memOk := by
  unfold State.farInstant
  dsimp only
  split
  · exact hs
  · exact State.memWrite_memOk hs

theorem State.farHeard_memOk {m : KMap Nat} (hs : s.memOk) : (s.farHeard c h m).memOk := State.modCtx_memOk hs

theorem State.farSaw_memOk {q : Req} {v : Nat} {m : KMap Nat} (hs : s.memOk) : (s.farSaw c h q v m).2.memOk :=
  State.farHeard_memOk (State.hasRead_memOk (State.farInstant_memOk hs))

theorem State.farEffect_memOk {q : Req} {v : DWord} {m : KMap Nat} (hs : s.memOk) : (s.farEffect c h q v m).memOk := by
  unfold State.farEffect
  split
  · exact State.farSaw_memOk hs
  · exact State.farSaw_memOk hs
  · exact State.syncWith_memOk (State.acquireFrom_memOk (State.farSaw_memOk hs))
  · exact State.farHeard_memOk (State.performAtomic_memOk (State.farInstant_memOk hs))
  · split
    · exact hs
    · exact State.syncWith_memOk hs
  · exact hs

theorem State.engLoaded_memOk {id : Nat} {v : DWord} {cause : Byte} (hs : s.memOk) : (s.engLoaded id v cause).memOk := by
  unfold State.engLoaded
  split
  · exact hs
  · split
    · exact State.engReply_memOk (State.farInstant_memOk hs)
    · exact State.engReply_memOk hs

theorem State.remoteReply_memOk {id : Nat} {v : DWord} {cause : Byte} {m : KMap Nat} (hs : s.memOk) :
    (s.remoteReply id v cause m).memOk := by
  unfold State.remoteReply
  split
  · exact State.engLoaded_memOk hs
  · split
    · exact hs
    · split
      · exact State.wakeOrdered_memOk (State.deferFault_memOk hs)
      · exact State.wakeOrdered_memOk (State.replied_memOk (State.farEffect_memOk hs))

theorem State.letIn_memOk {f : Flight} (hs : s.memOk) : (s.letIn f).memOk := by
  unfold State.letIn
  split <;> exact hs

theorem State.letInWaiting_memOk (hs : s.memOk) : s.letInWaiting.memOk :=
  foldl_keeps hs (fun _ ht _ => State.letIn_memOk ht)

theorem State.farWrite_holds {a n : Nat} {perform : State} (hperform : perform.memOk) :
    Holds State.memOk (s.farWrite a n perform) := by
  unfold State.farWrite
  split
  · exact Holds.none
  · exact Holds.some hperform

theorem State.serveLoad_holds {src : BitVec 20} {enc : Bool} {tag pa n : Nat} {versioned : Bool} (hs : s.memOk) :
    Holds State.memOk (s.serveLoad src enc tag pa n versioned) := by
  unfold State.serveLoad
  dsimp only
  split
  · exact Holds.none
  · split
    · exact Holds.some (State.emit_memOk hs)
    · split
      · exact Holds.some (State.emit_memOk hs)
      · split
        · exact Holds.some (State.emit_memOk (State.draw_memOk 64 hs))
        · exact Holds.some (State.emit_memOk hs)

theorem State.serveStore_holds {pa : Nat} {b : List Byte} {m : KMap Nat} (hs : s.memOk) :
    Holds State.memOk (s.serveStore pa b m) := by
  unfold State.serveStore
  dsimp only
  split
  · exact Holds.some hs
  · exact State.farWrite_holds (foldl_keeps (State.memWrite_memOk hs) (fun _ ht _ => by
      split
      · exact State.unshare_memOk ht
      · exact ht))

theorem State.serveAtomic_holds {src : BitVec 20} {enc : Bool} {core tag op pa : Nat} {x expected : DWord} {seq : Word}
    {m : KMap Nat} (hs : s.memOk) : Holds State.memOk (s.serveAtomic src enc core tag op pa x expected seq m) := by
  unfold State.serveAtomic
  dsimp only
  split
  · exact Holds.some (State.emit_memOk hs)
  · split
    · exact Holds.some (State.emit_memOk hs)
    · split
      · exact Holds.some (State.emit_memOk hs)
      · exact State.farWrite_holds (State.emit_memOk (State.others_memOk (State.unshare_memOk (State.memWrite_memOk hs))))

theorem State.serveCap_memOk {src : BitVec 20} {region sender core : Nat} {refused : Bool} {m : KMap Nat} (hs : s.memOk)
    : (s.serveCap src region sender core refused m).memOk := by
  unfold State.serveCap
  dsimp only
  split
  · next heq =>
    exact State.setCore_memOk hs (Holds.of_eq heq (Core.gainCap_holds (State.core_spadOk hs (mkCore core))))
  · split
    · split <;> exact hs
    · exact State.emit_memOk hs

theorem State.serveObject_memOk {src : BitVec 20} {enc : Bool} {core tag op pa : Nat} {v : DWord} {m : KMap Nat}
    (hs : s.memOk) : (s.serveObject src enc core tag op pa v m).memOk :=
  State.others_memOk (State.draw_memOk 9 hs)

theorem State.serve_holds {src : BitVec 20} {enc : Bool} {seq : Word} {m : KMap Nat} {b : PBody} (hs : s.memOk) :
    Holds State.memOk (s.serve src enc seq m b) := by
  unfold State.serve
  split
  · exact .some (State.letIn_memOk hs)
  · exact .some (State.letInWaiting_memOk hs)
  · exact State.serveLoad_holds hs
  · exact .some (State.remoteReply_memOk hs)
  · exact State.serveStore_holds hs
  · exact State.serveAtomic_holds hs
  · exact .some (State.remoteReply_memOk hs)
  · exact .some (State.serveObject_memOk hs)
  · exact .some (State.remoteReply_memOk hs)
  · exact .some (State.serveCap_memOk hs)
  all_goals exact .none

theorem State.duplicate_memOk {src : BitVec 20} {enc : Bool} {seq : Word} {b : PBody} (hs : s.memOk) :
    (s.duplicate src enc seq b).memOk := by
  unfold State.duplicate
  dsimp only
  split
  · split
    · exact State.emit_memOk (State.emit_memOk (State.count0_memOk hs))
    · exact State.emit_memOk (State.count0_memOk hs)
  · exact State.emit_memOk (State.count0_memOk hs)

theorem State.noteAfter_memOk {port : Fin 8} {b : PBody} (hs : s.memOk) : (s.noteAfter port b).memOk := by
  unfold State.noteAfter
  split
  · split
    · split
      · exact State.withCut_memOk hs (Holds.map fun q e => (State.cut_memOk hs e : q.memOk))
      · exact hs
    · exact hs
  · exact hs

theorem State.noteAccepted_memOk {src : BitVec 20} {seq : Word} (hs : s.memOk) : (s.noteAccepted src seq).memOk := hs

theorem State.receive_holds {port : Fin 8} {src : BitVec 20} {p : Packet} (hs : s.memOk) :
    Holds State.memOk (s.receive port src p) := by
  unfold State.receive
  split
  · exact Holds.some (State.acked_memOk hs)
  · exact Holds.some hs
  · exact Holds.some (State.marker_memOk hs)
  · exact Holds.some (State.count0_memOk hs)
  · split
    · exact Holds.some (State.duplicate_memOk hs)
    · split
      · exact Holds.none
      · split
        · exact Holds.map (fun _ _ => State.holdLine_memOk hs)
        · next heq =>
          exact Holds.some (State.emit_memOk (State.noteAccepted_memOk (State.noteAfter_memOk (Holds.of_eq heq
              (State.serve_holds hs)))))

theorem State.linkError_memOk {port : Fin 8} (hs : s.memOk) : (s.linkError port).memOk :=
  State.count0_memOk (State.modPort_memOk hs)

theorem State.tagFailure_memOk {port : Fin 8} (hs : s.memOk) : (s.tagFailure port).memOk := by
  unfold State.tagFailure
  dsimp only
  split
  · exact State.portDown_memOk (State.linkError_memOk (State.count0_memOk (State.modPort_memOk hs)))
  · exact State.linkError_memOk (State.count0_memOk (State.modPort_memOk hs))

theorem State.wholePacket_holds {port : Fin 8} {p : Packet} (hs : s.memOk) :
    Holds State.memOk (s.wholePacket port p) :=
    by
  unfold State.wholePacket
  dsimp only
  split
  · exact Holds.some (State.tagFailure_memOk hs)
  · split
    · exact Holds.some (State.count0_memOk (by
        split
        · exact State.modPort_memOk hs
        · exact hs))
    · split
      · exact Holds.some (State.transmit_memOk (by
          split
          · exact State.modPort_memOk hs
          · exact hs))
      · split
        · exact Holds.some (State.count0_memOk (by
            split
            · exact State.modPort_memOk hs
            · exact hs))
        · exact State.receive_holds (by
            split
            · exact State.modPort_memOk hs
            · exact hs)

theorem State.brokenPacket_memOk {port : Fin 8} {p : Packet} (hs : s.memOk) : (s.brokenPacket port p).memOk :=
  State.portDown_memOk (by
    split
    · exact State.transmit_memOk hs
    · exact hs)

theorem State.tryPacket_holds {port : Fin 8} {p : Packet} (hs : s.memOk) : Holds State.memOk (s.tryPacket port p) := by
  unfold State.tryPacket
  split
  · exact Holds.none
  · split
    · exact State.wholePacket_holds hs
    · exact Holds.some (State.linkError_memOk hs)
    · exact Holds.some (State.brokenPacket_memOk hs)
    · exact Holds.some hs

theorem State.linkReplay_memOk {port : Fin 8} {k : Nat} (hs : s.memOk) : (s.linkReplay port k).memOk := by
  unfold State.linkReplay
  dsimp only
  split <;> exact hs

theorem execPacketArrival_memOk {port : Fin 8} {p : Packet} (hs : s.memOk) : (execPacketArrival port p s).memOk :=
  happen_memOk hs (State.tryPacket_holds hs)

/-! ### Management -/

theorem State.headWrite_memOk {i : Fin 17} {v : Word} (hs : s.memOk) : (s.headWrite i v).memOk := by
  unfold State.headWrite
  dsimp only
  split <;> exact hs

theorem execHqheadWrite_memOk {q : Fin 17} {v : Word} (hs : s.memOk) : (execHqheadWrite q v s).memOk :=
  State.headWrite_memOk hs

theorem State.sawHost_memOk {pa v : Nat} (hs : s.memOk) : (s.sawHost c h pa v).memOk := by
  unfold State.sawHost
  dsimp only
  split
  · exact State.modCtx_memOk hs
  · exact hs

theorem State.fallbackReply_memOk {id : Byte} {v : DWord} (hs : s.memOk) : (s.fallbackReply id v).memOk := by
  unfold State.fallbackReply
  dsimp only
  split
  · exact hs
  · split
    · exact State.answer_memOk (State.sawHost_memOk hs)
    · exact hs

theorem execFallbackReplyCommit_memOk {id : Byte} {v : DWord} (hs : s.memOk) :
    (execFallbackReplyCommit id v s).memOk :=
  State.fallbackReply_memOk hs

theorem State.replyWrite_memOk {off : Nat} {v : DWord} (hs : s.memOk) : (s.replyWrite off v).memOk := by
  unfold State.replyWrite
  dsimp only
  split
  · exact hs
  · split
    · exact State.fallbackReply_memOk hs
    · exact hs

theorem execPtmExchange_memOk {answer : PtmAnswer} (hs : s.memOk) : (execPtmExchange answer s).memOk := by
  unfold execPtmExchange
  dsimp only
  split
  · split
    · exact State.clockTrap_memOk (State.discipline_memOk hs)
    · exact hs
  · exact hs

theorem State.apertureStore_holds {pa n : Nat} {v : DWord} (hs : s.memOk) :
    Holds State.memOk (s.apertureStore pa n v) := by
  unfold State.apertureStore
  split
  · exact Holds.some hs
  · split
    · exact Holds.none
    · split
      · split
        · exact Holds.none
        · exact Holds.some (State.holdLine_memOk hs)
      · exact Holds.some (State.unshare_memOk (State.memWrite_memOk hs))

theorem State.hostGets_memOk {v : DWord} (hs : s.memOk) : (s.hostGets v).memOk := hs

theorem State.apertureLoad_holds {pa n : Nat} (hs : s.memOk) : Holds State.memOk (s.apertureLoad pa n) := by
  unfold State.apertureLoad
  split
  · exact Holds.none
  · split
    · exact Holds.some (State.hostGets_memOk (State.draw_memOk 64 hs))
    · split <;> exact Holds.some (State.hostGets_memOk hs)

theorem State.tryAperture_holds {store : Bool} {off : Word} {size : Fin 9} {v : DWord} (hs : s.memOk) :
    Holds State.memOk (s.tryAperture store off size v) := by
  unfold State.tryAperture
  dsimp only
  split
  · exact Holds.none
  · split
    · exact State.apertureLoad_holds hs
    · split
      · exact Holds.some (State.memWrite_memOk (State.emit_memOk hs))
      · exact State.apertureStore_holds hs

theorem execHostApertureAccess_memOk {store : Bool} {off : Word} {size : Fin 9} {v : DWord} (hs : s.memOk) :
    (execHostApertureAccess store off size v s).memOk :=
  happen_memOk hs (State.tryAperture_holds hs)

theorem Core.release_spadOk (hk : k.spadOk) : k.release.spadOk := by
  unfold Core.release
  split <;> exact hk

theorem State.fenceRelease_memOk {n : Fin 128} {mask : DWord} (hs : s.memOk) : (s.fenceRelease n mask).memOk :=
  State.mapCores_memOk hs (coresOk_map (State.cores_ok hs) (fun _ he => by
    split
    · exact Core.release_spadOk he
    · exact he))

theorem execFenceRelease_memOk {n : Fin 128} {mask : DWord} (hs : s.memOk) : (execFenceRelease n mask s).memOk :=
  State.fenceRelease_memOk hs

theorem Core.spareFrom_spadOk : k.spareFrom.spadOk := Core.others_spadOk Core.reset_spadOk

theorem State.rerun_memOk (hs : s.memOk) : (s.rerun c).memOk :=
  State.machineCheck_memOk (State.setCore_memOk hs Core.spareFrom_spadOk)

theorem State.rerunLost_memOk (hs : s.memOk) : (s.rerunLost c).memOk := by
  unfold State.rerunLost
  split
  · split
    · exact State.rerun_memOk hs
    · exact State.machineCheck_memOk (State.haltCore_memOk hs)
  · exact hs

theorem State.lose_memOk {pa part : Nat} (hs : s.memOk) : (s.lose pa part).memOk := hs

theorem State.check_memOk {kind : McKind} {pa : Nat} (hs : s.memOk) : (s.check kind c pa).memOk := by
  unfold State.check
  split
  · exact State.machineCheck_memOk (State.lose_memOk hs)
  · exact State.machineCheck_memOk hs
  · split
    · exact State.rerun_memOk hs
    · exact State.machineCheck_memOk (State.haltCore_memOk hs)

theorem execMachineCheck_memOk {kind : McKind} {pa : Nat} (hs : s.memOk) : (execMachineCheck kind c pa s).memOk :=
  State.check_memOk hs

theorem State.hostqWrite_memOk {q : Fin 17} {reg : Nat} {v : DWord} (hs : s.memOk) : (s.hostqWrite q reg v).memOk := by
  unfold State.hostqWrite
  split
  · exact hs
  · exact hs
  · exact State.headWrite_memOk hs
  · exact hs

theorem State.bar0Low_memOk {off : Nat} {v : DWord} (hs : s.memOk) : (s.bar0Low off v).memOk := by
  unfold State.bar0Low
  split
  · split <;> exact hs
  · exact hs
  · split <;> exact hs
  · split <;> exact hs
  · split <;> exact hs
  · split <;> exact hs
  · exact hs
  · exact hs
  · exact hs
  · exact hs

theorem State.pectlWrite_memOk {v : DWord} (hs : s.memOk) : (s.pectlWrite v).memOk := by
  unfold State.pectlWrite
  dsimp only
  split
  · exact State.freezeWrite_memOk hs
  · split
    · exact State.resumeWrite_memOk hs
    · exact hs

theorem State.bar0High_memOk {off : Nat} {v : DWord} (hs : s.memOk) : (s.bar0High off v).memOk := by
  unfold State.bar0High
  split
  · exact State.pectlWrite_memOk hs
  · exact hs
  · exact hs
  · exact hs
  · split <;> exact hs
  · exact hs
  · exact hs
  · exact hs
  · exact hs
  · exact hs
  · exact hs

theorem State.firmwareWrite_memOk {reg : Nat} {v : DWord} (hs : s.memOk) : (s.firmwareWrite reg v).memOk := by
  unfold State.firmwareWrite
  split
  · exact hs
  · exact hs
  · exact State.wsRefresh_memOk hs
  · exact State.wsRefresh_memOk hs
  · exact State.wsRefresh_memOk hs
  · exact hs

theorem State.registerWrite_memOk {off : Nat} {v : DWord} (hs : s.memOk) : (s.registerWrite off v).memOk := by
  unfold State.registerWrite
  split
  · exact State.firmwareWrite_memOk hs
  · split
    · exact State.bar0Low_memOk hs
    · split
      · exact State.hostqWrite_memOk hs
      · split
        · split <;> exact hs
        · split
          · exact State.replyWrite_memOk hs
          · split
            · exact State.fenceRelease_memOk hs
            · split
              · exact hs
              · split
                · exact hs
                · exact State.bar0High_memOk hs

theorem execRegisterWrite_memOk {off : Nat} {v : DWord} (hs : s.memOk) : (execRegisterWrite off v s).memOk :=
  State.registerWrite_memOk hs

theorem State.commitSlot_memOk {w : WinSlot} (hs : s.memOk) : (s.commitSlot w).memOk := by
  unfold State.commitSlot
  split
  · exact execLaunchCommit_memOk hs
  · exact execSetCounterCommit_memOk hs
  · exact execCancelCommit_memOk hs
  · exact execCheckpointCutCommit_memOk hs
  · exact execCheckpointDrainCommit_memOk hs
  · exact execHostEventCommit_memOk hs

theorem State.slotWrite_memOk {slot : Fin 4096} {word : Fin 8} {v : DWord} (hs : s.memOk) :
    (s.slotWrite slot word v).memOk := by
  unfold State.slotWrite
  split
  · exact State.commitSlot_memOk hs
  · exact hs

theorem writesLine_holds {line : Nat} {step : State → Option State}
    (hstep : ∀ (a : State), a.memOk → Holds State.memOk (step a)) (hs : s.memOk) : Holds State.memOk
    (writesLine line step s) := by
  unfold writesLine
  split
  · next heq =>
    split
    · exact Holds.some (Holds.of_eq heq (hstep s hs))
    · exact Holds.none
  · exact Holds.none

theorem State.grantOn_holds {line : Nat} (hs : s.memOk) : Holds State.memOk (State.grantOn line c s) := by
  unfold State.grantOn
  dsimp only
  exact orElse_holds (fun _ hs1 => Holds.findSome? (fun _ => firstIndex_holds (fun _ hs2 _ => writesLine_holds (fun _ ha
      => orElse_holds (fun _ hs3 => State.tryGrant_holds hs3) (fun _ hs3 => State.tryAtomic_holds hs3) ha) hs2) hs1))
      (fun _ hs1 => orElse_holds (fun _ hs2 => Holds.findSome? (fun _ => by
    split
    · exact firstIndex_holds (fun _ hs3 _ => writesLine_holds (fun _ hk => State.copyElement_holds hk) hs3) hs2
    · exact Holds.none)) (fun _ hs2 => Holds.findSome? (fun _ => writesLine_holds (fun _ ha => State.tryStream_holds ha)
        hs2)) hs1) hs

theorem State.grantHeld_memOk {line : Nat} {w : Option HeldWrite} (hs : s.memOk) : (State.grantHeld line w s).memOk := by
  unfold State.grantHeld
  split
  · exact Holds.getD (State.apertureStore_holds hs) hs
  · exact Holds.getD (State.receive_holds hs) hs
  · exact Holds.getD (Holds.findSome? (fun _ => State.grantOn_holds hs)) hs

theorem State.invalidateLine_memOk {line : Nat} (hs : s.memOk) : (s.invalidateLine line).memOk := by
  unfold State.invalidateLine
  split
  · exact State.grantHeld_memOk (State.invalidate_memOk hs)
  · exact State.invalidate_memOk hs

theorem State.tryInvalidate_holds {line : Nat} (hs : s.memOk) : Holds State.memOk (s.tryInvalidate line) := by
  unfold State.tryInvalidate
  dsimp only
  split
  · exact Holds.none
  · exact Holds.some (State.homeRest_memOk (State.invalidateLine_memOk hs))

theorem State.serveNotice_holds {landing : Nat} (hs : s.memOk) : Holds State.memOk (s.serveNotice landing) := by
  unfold State.serveNotice
  split
  · exact .none
  · extract_lets s1 s2
    have h1 : s1.memOk := State.others_memOk hs
    clear_value s1
    have h2 : s2.memOk := by
      unfold s2
      split
      · split
        · exact State.invalidateLine_memOk h1
        · exact h1
      · exact h1
    clear_value s2
    split
    · exact .none
    · refine .some (State.homeRest_memOk ?_)
      split
      · exact State.ovfRecord_memOk h2
      · exact State.shareLine_memOk h2

theorem State.settleFills_memOk (hs : s.memOk) : s.settleFills.memOk :=
  foldl_keeps hs (fun _ ht _ => State.fillLine_memOk ht)

theorem execOverflowInvalidation_memOk {line : Nat} (hs : s.memOk) : (execOverflowInvalidation line s).memOk :=
  happen_memOk hs (State.tryInvalidate_holds hs)

theorem State.slowDown_memOk (hs : s.memOk) : s.slowDown.memOk := hs

theorem execPowerCapThrottle_memOk {milliwatts : Nat} (hs : s.memOk) : (execPowerCapThrottle milliwatts s).memOk := by
  unfold execPowerCapThrottle
  split
  · exact State.slowDown_memOk hs
  · exact hs

theorem execThermalLimit_memOk {celsius : Nat} (hs : s.memOk) : (execThermalLimit celsius s).memOk := by
  unfold execThermalLimit
  split
  · exact hs
  · split
    · exact State.slowDown_memOk hs
    · exact hs

theorem execPowerCapSet_memOk {milliwatts : Nat} (hs : s.memOk) : (execPowerCapSet milliwatts s).memOk := by
  unfold execPowerCapSet
  split <;> exact hs

theorem execPldmFirmwareUpdate_memOk {image : List Byte} {version : Nat} (hs : s.memOk) :
    (execPldmFirmwareUpdate image version s).memOk := by
  unfold execPldmFirmwareUpdate
  split <;> exact hs

theorem execPldmMonitor_memOk (hs : s.memOk) : (execPldmMonitor s).memOk := State.others_memOk (State.draw_memOk 256 hs)
theorem execSpdmAttestation_memOk {request : List Byte} (hs : s.memOk) : (execSpdmAttestation request s).memOk := hs

theorem State.powerUp_memOk (hs : s.memOk) : s.powerUp.memOk :=
  State.others_memOk (State.withMem_memOk State.reset_memOk
    (Memory.filter_wf s.mem (fun e => decide (2 ^ 50 ≤ e.1)) (State.mem_wf hs)))

theorem execFirmwareBootVerify_memOk {service device : List Byte} {version : Nat} (hs : s.memOk) :
    (execFirmwareBootVerify service device version s).memOk :=
  State.others_memOk (State.powerUp_memOk hs)

end

end Sys2Proof.Machine
end

/-! PROOFS. Canonical memory (O59), sixth part: what happens by itself, all instructions, the step. -/

section
namespace Sys2Proof.Machine

section
variable {s t : State} {k : Core} {c : CoreId} {h : CtxId} {g : Guard}

/-! ### What happens by itself -/

theorem firstOf_holds {l : List (State → Option State)} (hl : ∀ a ∈ l, ∀ s, s.memOk → Holds State.memOk (a s))
    (hs : s.memOk) : Holds State.memOk (firstOf l s) := by
  induction l generalizing s with
  | nil => exact .none
  | cons a r ih =>
    obtain ⟨ha, hr⟩ := List.forall_mem_cons.1 hl
    exact orElse_holds ha (fun _ ht => ih hr ht) hs

theorem firstOf_map_holds {β : Type} {l : List β} {f : β → State → Option State}
    (hf : ∀ b s, s.memOk → Holds State.memOk (f b s)) (hs : s.memOk) : Holds State.memOk (firstOf (l.map f) s) :=
  firstOf_holds (fun a ha t ht => by
    obtain ⟨b, -, rfl⟩ := List.mem_map.1 ha
    exact hf b t ht) hs

theorem State.autoCopy_holds {i : Fin 4} (hs : s.memOk) :
    Holds State.memOk (firstOf [(·.tryCopyDone c i), (·.tryChannelFault c i false), (·.tryCopyStart c i)] s) := by
  refine firstOf_holds ?_ hs
  simp only [List.forall_mem_cons]
  exact ⟨fun _ ht => State.tryCopyDone_holds ht, fun _ ht => State.tryChannelFault_holds ht,
    fun _ ht => State.tryCopyStart_holds ht, fun _ h => nomatch h⟩

theorem State.autoCore_holds (hs : s.memOk) : Holds State.memOk (State.autoCore c s) := by
  refine firstOf_holds ?_ hs
  simp only [List.forall_mem_cons]
  exact ⟨fun _ ht => firstOf_map_holds (fun _ _ hu => State.reqStep_holds hu) ht, fun _ ht => State.tryDepart_holds ht,
    fun _ ht => State.tryEntry_holds ht, fun _ ht => State.autoSpill_holds ht,
    fun _ ht => firstOf_map_holds (fun _ _ hu => State.trySlot_holds hu) ht, fun _ ht => State.tryStale_holds ht,
    fun _ ht => State.tryCancelled_holds ht, fun _ ht => State.tryStart_holds ht, fun _ ht => State.tryGrace_holds ht,
    fun _ ht => State.tryUnit_holds ht, fun _ ht => firstOf_map_holds (fun _ _ hu => State.autoCopy_holds hu) ht,
    fun _ ht => State.tryMma_holds ht, fun _ ht => State.tryMmaFault_holds ht, fun _ ht => State.tryLeave_holds ht,
    fun _ ht => State.tryBarrier_holds ht,
    fun _ ht => firstIndex_holds (fun _ hu _ => State.engineWrite_holds hu) ht,
    fun _ ht => firstOf_map_holds (fun _ _ hu => State.tryStream_holds hu) ht,
    fun _ ht => firstOf_map_holds (fun _ _ hu => firstOf_map_holds (fun _ _ hv => State.tryPrefetch_holds hv) hu) ht,
    fun _ ht => firstOf_map_holds (fun _ _ hu => State.tryLocal_holds hu) ht, fun _ h => nomatch h⟩

theorem State.autoWait_holds (hs : s.memOk) : Holds State.memOk (State.autoWait c s) :=
  firstOf_map_holds (fun _ _ ht => State.tryWait_holds ht) hs

theorem State.auto_holds (hs : s.memOk) : Holds State.memOk s.auto := by
  refine firstOf_holds ?_ hs
  simp only [List.forall_mem_cons]
  exact ⟨fun _ ht => firstOf_map_holds (fun _ _ hu => State.autoCore_holds hu) ht,
    fun _ ht => firstIndex_holds (fun _ hu _ => State.tryArrival_holds hu) ht,
    fun _ ht => firstIndex_holds (fun _ hu _ => State.tryCap_holds hu) ht,
    fun _ ht => firstIndex_holds (fun _ hu _ => State.tryHome_holds hu) ht,
    fun _ ht => firstIndex_holds (fun _ hu _ => State.tryRouter_holds hu) ht,
    fun _ ht => firstOf_map_holds (fun _ _ hu => firstIndex_holds (fun _ hv _ => State.tryExpire_holds hv) hu) ht,
    fun _ ht => firstOf_map_holds (fun _ _ hu => firstOf_map_holds (fun _ _ hv => State.tryAbort_holds hv) hu) ht,
    fun _ ht => firstOf_map_holds (fun _ _ hu => State.tryRound_holds hu) ht,
    fun _ ht => firstIndex_holds (fun _ hu _ => State.tryMcast_holds hu) ht,
    fun _ ht => firstOf_map_holds (fun _ _ hu => State.unitResume_holds hu) ht,
    fun _ ht => firstOf_map_holds (fun _ _ hu => State.tryRoundClose_holds hu) ht,
    fun _ ht => firstOf_map_holds (fun _ _ hu => State.serveNotice_holds hu) ht,
    fun _ ht => firstOf_map_holds (fun _ _ hu => State.tryInvalidate_holds hu) ht,
    fun _ ht => firstIndex_holds (fun _ hu _ => State.tryRetry_holds hu) ht,
    fun _ ht => State.tryCutSave_holds ht, fun _ ht => State.tryDrained_holds ht,
    fun _ ht => State.tryFreezeInstant_holds ht, fun _ ht => State.tryResumeInstant_holds ht,
    fun _ ht => firstOf_map_holds (fun _ _ hu => State.autoWait_holds hu) ht, fun _ h => nomatch h⟩

theorem State.passCycles_memOk {n : Nat} (hs : s.memOk) : (s.passCycles n).memOk := by
  match n with
  | 0 => exact State.pass_memOk hs
  | 1 => exact State.nextCycle_memOk (State.pass_memOk hs)
  | n + 2 => exact State.pass_memOk (State.nextCycle_memOk (State.pass_memOk hs))

theorem State.settleLocal_memOk {o : Fin 2} {f : Nat} (hs : s.memOk) : (s.settleLocal c o f).memOk := by
  induction f generalizing s with
  | zero => exact hs
  | succ f ih =>
    unfold State.settleLocal
    split
    · next heq => exact ih (Holds.of_eq heq (State.tryLocal_holds hs))
    · exact hs

theorem State.settleCore_memOk (hs : s.memOk) : (s.settleCore c).memOk :=
  foldl_keeps (foldl_keeps hs (fun _ ht _ => Holds.getD (State.trySlot_holds ht) ht)) (fun _ ht _ =>
      State.settleLocal_memOk ht)

theorem State.settleRounds_memOk (hs : s.memOk) : s.settleRounds.memOk :=
  foldl_keeps hs (fun _ ht _ => by
    split
    · exact Holds.getD (State.tryRoundClose_holds ht) ht
    · exact ht)

theorem State.settleWaiters_memOk (hs : s.memOk) : s.settleWaiters.memOk := by
  unfold State.settleWaiters
  split
  · exact hs
  · split <;> exact hs

theorem State.settle_memOk (hs : s.memOk) : s.settle.memOk := by
  unfold State.settle
  split
  · exact hs
  · split
    · exact State.freezeGo_memOk hs
    · split
      · exact hs
      · exact State.settleWaiters_memOk (State.cutFinish_memOk (State.settleFills_memOk (State.settleRounds_memOk
          (foldl_keeps (State.rerunLost_memOk hs) (fun _ ht _ => State.settleCore_memOk ht)))))

/-! ### Predicates -/

theorem pop1_yields {f : Word → Word} {d a : PReg} (hs : s.memOk) : Yields Stop.memOk State.memOk (pop1 f d a s) :=
  Yields.ok (State.putP_memOk hs)

theorem pop2_yields {f : Word → Word → Word} {d a b : PReg} (hs : s.memOk) :
    Yields Stop.memOk State.memOk (pop2 f d a b s) :=
  Yields.ok (State.putP_memOk hs)

theorem execCmp_memOk {d : PReg} {a b : Reg} {cc : ICond} (hs : s.memOk) : (execCmp g d a b cc s).memOk :=
  instr_memOk (fun _ ha => .bind State.rdX_yields fun _ _ => .bind State.rdX_yields fun _ _ => Yields.ok
      (State.putP_memOk ha)) hs

theorem execCmpi_memOk {d : PReg} {a : Reg} {imm : Int} {cc : ICond} (hs : s.memOk) :
    (execCmpi g d a imm cc s).memOk :=
  instr_memOk (fun _ ha => .bind State.rdX_yields fun _ _ => Yields.ok (State.putP_memOk ha)) hs

theorem execFcmp_memOk {d : PReg} {a b : Reg} {cc : FCond} (hs : s.memOk) : (execFcmp g d a b cc s).memOk :=
  instr_memOk (fun _ ha => Yields.ok (State.orFlags_memOk (State.putP_memOk ha))) hs

theorem execPand_memOk {d a b : PReg} (hs : s.memOk) : (execPand g d a b s).memOk :=
  instr_memOk (fun _ ha => pop2_yields ha) hs

theorem execPor_memOk {d a b : PReg} (hs : s.memOk) : (execPor g d a b s).memOk :=
  instr_memOk (fun _ ha => pop2_yields ha) hs

theorem execPxor_memOk {d a b : PReg} (hs : s.memOk) : (execPxor g d a b s).memOk :=
  instr_memOk (fun _ ha => pop2_yields ha) hs

theorem execPandn_memOk {d a b : PReg} (hs : s.memOk) : (execPandn g d a b s).memOk :=
  instr_memOk (fun _ ha => pop2_yields ha) hs

theorem execPnot_memOk {d a : PReg} (hs : s.memOk) : (execPnot g d a s).memOk :=
  instr_memOk (fun _ ha => pop1_yields ha) hs

theorem execPmov_memOk {d a : PReg} (hs : s.memOk) : (execPmov g d a s).memOk :=
  instr_memOk (fun _ ha => pop1_yields ha) hs

theorem execPall_memOk {d a : PReg} (hs : s.memOk) : (execPall g d a s).memOk :=
  instr_memOk (fun _ ha => pop1_yields ha) hs

theorem execPnone_memOk {d a : PReg} (hs : s.memOk) : (execPnone g d a s).memOk :=
  instr_memOk (fun _ ha => pop1_yields ha) hs

theorem execPfirst_memOk {d a : PReg} (hs : s.memOk) : (execPfirst g d a s).memOk :=
  instr_memOk (fun _ ha => pop1_yields ha) hs

theorem execPcnt_memOk {d : Reg} {a : PReg} (hs : s.memOk) : (execPcnt g d a s).memOk :=
  instr_memOk (fun _ ha => State.wrX_yields ha) hs

theorem execPtox_memOk {d : Reg} {a : PReg} (hs : s.memOk) : (execPtox g d a s).memOk :=
  instr_memOk (fun _ ha => State.wrX_yields ha) hs

theorem execPffs_memOk {d : Reg} {a : PReg} (hs : s.memOk) : (execPffs g d a s).memOk :=
  instr_memOk (fun _ ha => State.wrX_yields ha) hs

theorem execXtop_memOk {d : PReg} {a : Reg} (hs : s.memOk) : (execXtop g d a s).memOk :=
  instr_memOk (fun _ ha => .bind State.rdX_yields fun _ _ => Yields.ok (State.putP_memOk ha)) hs

/-! ### All instructions -/

theorem exec_memOk {i : Instr} (hs : s.memOk) : Out.memOk (exec i s) := by
  unfold exec
  split
  exacts [execEventArrival_memOk hs, execHoldBackEntry_memOk hs, execReactionStart_memOk hs,
    execHeadStaleDiscard_memOk hs, execCancelledEventDiscard_memOk hs, execJoinGraceExpired_memOk hs,
    execPoolUnitStart_memOk hs, execHeartbeatMissed_memOk hs, execSendDeparture_memOk hs, execSlotChangeEffect_memOk hs,
    execCrossbarCounterZero_memOk hs, execCrossbarLocalEventEntry_memOk hs, execCopyRequestStart_memOk hs,
    execCopyRequestComplete_memOk hs, execChannelFault_memOk hs, execGangBarrierComplete_memOk hs, execMmaStep_memOk hs,
    execAccumulatorLeavesOwnership_memOk hs, execMmaOperationFault_memOk hs, execMstoComplete_memOk hs,
    execCollectiveRoundComplete_memOk hs, execCollectiveAbortArrival_memOk hs, execMcastCompletionRecord_memOk hs,
    execObjectOpAtRouter_memOk hs, execWindowWaitExpired_memOk hs, execObjectOpAtHome_memOk hs,
    execSplitPhaseReply_memOk hs, execStvApply_memOk hs, execReclApply_memOk hs, execCapabilityArrival_memOk hs,
    execCapqAnswer_memOk hs, execAtomicAtHome_memOk hs, execStoreGrant_memOk hs, execDirectoryOverflowNotice_memOk hs,
    execOverflowInvalidation_memOk hs, execTlbWalkComplete_memOk hs, execPrefetchComplete_memOk hs,
    execWsRefreshWindow_memOk hs, execStreamElementAccess_memOk hs, execFeWaiterService_memOk hs,
    execWaitSatisfied_memOk hs, execDetRoundClose_memOk hs, execTrapEntry_memOk hs, execTrapBudgetExpired_memOk hs,
    execMachineCheck_memOk hs, execFenceRelease_memOk hs, execHostEventCommit_memOk hs, execLaunchCommit_memOk hs,
    execLaunchSetupResume_memOk hs, execSetCounterCommit_memOk hs, execCancelCommit_memOk hs,
    execCheckpointCutCommit_memOk hs, execCutSave_memOk hs, execCutMarkerArrival_memOk hs,
    execCheckpointDrainCommit_memOk hs, execDrainComplete_memOk hs, execHqheadWrite_memOk hs,
    execFallbackReplyCommit_memOk hs, execAtomicopUnsupported_memOk hs, execPtmExchange_memOk hs,
    execTimestampExchange_memOk hs, execFreeze_memOk hs, execResume_memOk hs, execCoordinatedFreezeInstant_memOk hs,
    execCoordinatedResumeInstant_memOk hs, execPacketArrival_memOk hs, execLinkDown_memOk hs,
    execE2eRetryTimeout_memOk hs, execE2eAckArrival_memOk hs, execLinkKeyRenewal_memOk hs, execPowerCapThrottle_memOk hs,
    execThermalLimit_memOk hs, execPowerCapSet_memOk hs, execPldmFirmwareUpdate_memOk hs, execPldmMonitor_memOk hs,
    execSpdmAttestation_memOk hs, execFirmwareBootVerify_memOk hs, execHostApertureAccess_memOk hs,
    execSpillTakeRead_memOk hs, execSpillPutWrite_memOk hs, execSpillNWrite_memOk hs, execRegisterWrite_memOk hs,
    execLinkBringUp_memOk hs, execAdd_memOk hs, execSub_memOk hs, execAndR_memOk hs, execOrR_memOk hs, execXor_memOk hs,
    execAndn_memOk hs, execMinS_memOk hs, execMaxS_memOk hs, execMinu_memOk hs, execMaxu_memOk hs, execShl_memOk hs,
    execShr_memOk hs, execSra_memOk hs, execRol_memOk hs, execRor_memOk hs, execMov_memOk hs, execMul_memOk hs,
    execMulhiS_memOk hs, execMulhiU_memOk hs, execMulhiSu_memOk hs, execDiv_memOk hs, execDivu_memOk hs, execRem_memOk hs,
    execRemu_memOk hs, execClz_memOk hs, execCtz_memOk hs, execPopc_memOk hs, execSextB_memOk hs, execSextH_memOk hs,
    execSextW_memOk hs, execZextH_memOk hs, execZextW_memOk hs, execLea_memOk hs, execYld_memOk hs, execYbase_memOk hs,
    execYext_memOk hs, execYrd_memOk hs, execSbind_memOk hs, execSunb_memOk hs, execSlink_memOk hs, execSstat_memOk hs,
    execAddw_memOk hs, execSubw_memOk hs, execMulw_memOk hs, execShlw_memOk hs, execShrw_memOk hs, execSraw_memOk hs,
    execDivw_memOk hs, execRemw_memOk hs, execAddi_memOk hs, execAndi_memOk hs, execOri_memOk hs, execXori_memOk hs,
    execShli_memOk hs, execShri_memOk hs, execSrai_memOk hs, execRoli_memOk hs, execLdi_memOk hs, execSeth_memOk hs,
    execCmpi_memOk hs, execCmp_memOk hs, execFcmp_memOk hs, execPand_memOk hs, execPor_memOk hs, execPxor_memOk hs,
    execPandn_memOk hs, execPnot_memOk hs, execPmov_memOk hs, execPall_memOk hs, execPnone_memOk hs, execPfirst_memOk hs,
    execPcnt_memOk hs, execPtox_memOk hs, execXtop_memOk hs, execPffs_memOk hs, execFmvxf_memOk hs, execFmvfx_memOk hs,
    execFkind_memOk hs, execFadd_memOk hs, execFsub_memOk hs, execFmul_memOk hs, execFdiv_memOk hs, execFmin_memOk hs,
    execFmax_memOk hs, execFsqrt_memOk hs, execFsgn_memOk hs, execFma_memOk hs, execFms_memOk hs, execFabs_memOk hs,
    execFneg_memOk hs, execFcvtXf_memOk hs, execFcvtFx_memOk hs, execFcvtUf_memOk hs, execFcvtFu_memOk hs,
    execCgrp_memOk hs, execCinj_memOk hs, execCinjHld_memOk hs, execCext_memOk hs, execCstat_memOk hs,
    execCabort_memOk hs, execCfree_memOk hs, execCinjx_memOk hs, execCinjxHld_memOk hs, execCextx_memOk hs,
    execMma_memOk hs, execPrep_memOk hs, execPrepx_memOk hs, execMfb_memOk hs, execMtb_memOk hs, execClrb_memOk hs,
    execTstb_memOk hs, execNop_memOk hs, execEndL_memOk hs, execHalt_memOk hs, execBrk_memOk hs, execEret_memOk hs,
    execSyncCL_memOk hs, execBeatL_memOk hs, execIdle_memOk hs, execTrap_memOk hs, execMfs_memOk hs, execMts_memOk hs,
    execTagt_memOk hs, execTagm_memOk hs, execClk_memOk hs, execHorz_memOk hs, execLastt_memOk hs, execLastm_memOk hs,
    execBound_memOk hs, execEbnd_memOk hs, execMwait_memOk hs, execMzero_memOk hs, execMrd_memOk hs, execMstoS_memOk hs,
    execMstoBf_memOk hs, execGang_memOk hs, execMstat_memOk hs, execSend_memOk hs, execSend2_memOk hs, execSend4_memOk hs,
    execSendv_memOk hs, execSendb_memOk hs, execMcast_memOk hs, execSendh_memOk hs, execBindS_memOk hs,
    execUnbind_memOk hs, execArm_memOk hs, execHold_memOk hs, execRlse_memOk hs, execStartL_memOk hs, execGenrd_memOk hs,
    execCapq_memOk hs, execTicket_memOk hs, execPoolcfg_memOk hs, execCntdn_memOk hs, execCancel_memOk hs,
    execCntrd_memOk hs, execEcw_memOk hs, execEcr_memOk hs, execEcpulse_memOk hs, execEccnt_memOk hs, execPcfg_memOk hs,
    execPrd_memOk hs, execPrst_memOk hs, execTlbi_memOk hs, execLdb_memOk hs, execLdh_memOk hs, execLdw_memOk hs,
    execLdd_memOk hs, execLdbu_memOk hs, execLdhu_memOk hs, execLdwu_memOk hs, execStb_memOk hs, execSth_memOk hs,
    execStw_memOk hs, execStd_memOk hs, execLdxb_memOk hs, execLdxh_memOk hs, execLdxw_memOk hs, execLdxd_memOk hs,
    execLdxbu_memOk hs, execLdxhu_memOk hs, execLdxwu_memOk hs, execStxb_memOk hs, execStxh_memOk hs, execStxw_memOk hs,
    execStxd_memOk hs, execLdf_memOk hs, execLdk_memOk hs, execSte_memOk hs, execStf_memOk hs, execSete_memOk hs,
    execSetf_memOk hs, execTfe_memOk hs, execLdgB_memOk hs, execLdgH_memOk hs, execLdgW_memOk hs, execLdgD_memOk hs,
    execLdgBu_memOk hs, execLdgHu_memOk hs, execLdgWu_memOk hs, execStgB_memOk hs, execStgH_memOk hs, execStgW_memOk hs,
    execStgD_memOk hs, execLdcW_memOk hs, execLdcD_memOk hs, execLdcWu_memOk hs, execCinvC_memOk hs, execCfl_memOk hs,
    execCinvl_memOk hs, execCpf_memOk hs, execAadd_memOk hs, execAand_memOk hs, execAor_memOk hs, execAxor_memOk hs,
    execAmin_memOk hs, execAmax_memOk hs, execAminu_memOk hs, execAswap_memOk hs, execAcas_memOk hs, execRedadd_memOk hs,
    execRedand_memOk hs, execRedor_memOk hs, execRedxor_memOk hs, execRedmin_memOk hs, execRedmax_memOk hs,
    execFenceAcq_memOk hs, execFenceRel_memOk hs, execFenceFull_memOk hs, execLdaD_memOk hs, execStlD_memOk hs,
    execLdaW_memOk hs, execStlW_memOk hs, execLdv_memOk hs, execLdvn_memOk hs, execStv_memOk hs, execRecl_memOk hs,
    execHand_memOk hs, execOpush_memOk hs, execOpop_memOk hs, execOcnt_memOk hs, execVaddW_memOk hs, execVsubW_memOk hs,
    execVmulW_memOk hs, execVmulhW_memOk hs, execVminW_memOk hs, execVmaxW_memOk hs, execVminuW_memOk hs,
    execVmaxuW_memOk hs, execVaddH_memOk hs, execVsubH_memOk hs, execVmulH_memOk hs, execVmulhH_memOk hs,
    execVminH_memOk hs, execVmaxH_memOk hs, execVminuH_memOk hs, execVmaxuH_memOk hs, execVaddB_memOk hs,
    execVsubB_memOk hs, execVaddsB_memOk hs, execVsubsB_memOk hs, execVminB_memOk hs, execVmaxB_memOk hs,
    execVminuB_memOk hs, execVmaxuB_memOk hs, execVand_memOk hs, execVor_memOk hs, execVxor_memOk hs, execVandn_memOk hs,
    execVshlW_memOk hs, execVshrW_memOk hs, execVsraW_memOk hs, execVnot_memOk hs, execVfaddS_memOk hs,
    execVfsubS_memOk hs, execVfmulS_memOk hs, execVfmaS_memOk hs, execVfminS_memOk hs, execVfmaxS_memOk hs,
    execVfabsS_memOk hs, execVfnegS_memOk hs, execVfaddBf_memOk hs, execVfsubBf_memOk hs, execVfmulBf_memOk hs,
    execVfmaBf_memOk hs, execVfminBf_memOk hs, execVfmaxBf_memOk hs, execVfdotBf_memOk hs, execVrcpS_memOk hs,
    execVrsqS_memOk hs, execVexp2S_memOk hs, execVlog2S_memOk hs, execVsqrtS_memOk hs, execVdivS_memOk hs,
    execVfloorS_memOk hs, execVtanhS_memOk hs, execVcmp_memOk hs, execVcmpF_memOk hs, execVbcast_memOk hs,
    execVbcastf_memOk hs, execVext_memOk hs, execVins_memOk hs, execVperm_memOk hs, execViota_memOk hs, execVmov_memOk hs,
    execVslide_memOk hs, execVld_memOk hs, execVst_memOk hs, execVldf_memOk hs, execVste_memOk hs, execVlds_memOk hs,
    execVsts_memOk hs, execVgath_memOk hs, execVscat_memOk hs, execVstf_memOk hs, execVrsumS_memOk hs,
    execVrmaxS_memOk hs, execVrminS_memOk hs, execVrsumW_memOk hs, execVscanS_memOk hs, execVcavS_memOk hs,
    execVcavmS_memOk hs, execVdot4B_memOk hs, execVcvtSBf_memOk hs, execVcvtBfS_memOk hs, execVcvtSW_memOk hs,
    execVcvtWS_memOk hs, execVcvtE4S_memOk hs, execVcvtSE4_memOk hs, execVcvtE5S_memOk hs, execVcvtSE5_memOk hs,
    execXqW_memOk hs, execXqT_memOk hs, execXdone_memOk hs, execXwait_memOk hs, execXstat_memOk hs, execXclr_memOk hs,
    execXenc_memOk hs, execXdec_memOk hs, execMovC_memOk hs, execAddC_memOk hs, execSubC_memOk hs, execAndC_memOk hs,
    execOrC_memOk hs, execXorC_memOk hs, execLddC_memOk hs, execStdC_memOk hs, execAddiC_memOk hs, execLdiC_memOk hs,
    execShliC_memOk hs, execShriC_memOk hs, execSraiC_memOk hs, execAndiC_memOk hs, execLdsC_memOk hs, execStsC_memOk hs,
    execGo_memOk hs, execGoGuarded_memOk hs, execCall_memOk hs, execCallGuarded_memOk hs, execNopC_memOk hs,
    execEndC_memOk hs, execBeatC_memOk hs, execSyncC_memOk hs, execBrkC_memOk hs]

/-! ### The step -/

theorem State.issueAt_memOk (hs : s.memOk) : (s.issueAt c h).memOk := by
  unfold State.issueAt
  split
  · next heq =>
    exact State.trapHere_memOk (snd_of_eq heq (State.fetchInstr_memOk (State.select_memOk hs)))
  · next heq =>
    split
    · exact State.trapHere_memOk (snd_of_eq heq (State.fetchInstr_memOk (State.select_memOk hs)))
    · exact exec_memOk (State.fillQueue_memOk (snd_of_eq heq (State.fetchInstr_memOk (State.select_memOk hs))))

theorem State.issue_memOk (hs : s.memOk) : (s.issue c).memOk := by
  unfold State.issue
  split
  · split
    · exact hs
    · exact State.issueAt_memOk hs
  · exact hs

theorem State.serveWaiter_memOk (hs : s.memOk) : (s.serveWaiter c h).memOk := by
  unfold State.serveWaiter
  split
  · next heq =>
    exact State.issueAt_memOk (Holds.of_eq heq (State.takeService_holds hs))
  · exact hs

theorem State.loseWord_memOk {word : Nat} (hs : s.memOk) : (s.loseWord c word).memOk := by
  unfold State.loseWord
  split
  · exact State.modCore_memOk hs (fun _ hk => hk)
  · exact hs

theorem State.idle_memOk (hs : s.memOk) : s.idle.memOk := by
  unfold State.idle
  split
  · exact State.issue_memOk hs
  · split
    · exact hs
    · exact Holds.getD (State.auto_holds hs) hs

theorem settled_memOk {o : Out} (ho : o.memOk) : (settled o).memOk := by
  cases o with
  | next s => exact State.settle_memOk ho
  | fault f => trivial
  | refused r => trivial

theorem State.onTime_memOk {n : Nat} (hs : s.memOk) : (s.onTime n).memOk :=
  State.instants_memOk (State.passCycles_memOk hs)

theorem State.act_memOk {w : Who} (hs : s.memOk) : (s.act w).memOk := by
  cases w with
  | core c => exact State.issue_memOk hs
  | waiter c h => exact State.serveWaiter_memOk hs
  | happening i =>
    change Out.memOk (if i.isHappening then exec i s else .next s)
    split
    · exact exec_memOk hs
    · exact hs
  | copyElement c ch k => exact Holds.getD (State.copyElement_holds hs) hs
  | engineWrite c k => exact Holds.getD (State.engineWrite_holds hs) hs
  | homeRoutine landing => exact Holds.getD (State.serveNotice_holds hs) hs
  | hostRead off => exact State.hostGets_memOk hs
  | slotWrite slot word v => exact State.slotWrite_memOk hs
  | slotRead slot word => exact State.hostGets_memOk hs
  | upset pa part =>
    change State.memOk (if populated pa ∧ part < 8 then s.lose pa part else s)
    split
    · exact State.lose_memOk hs
    · exact hs
  | upsetSpad c word => exact State.loseWord_memOk hs
  | linkReplay port k => exact State.linkReplay_memOk hs
  | outsideWrite pa bytes => exact State.outside_memOk hs

theorem State.turn_memOk {w : Who} (hs : s.memOk) : (s.turn w).memOk := by
  unfold State.turn
  split
  · exact hs
  · exact State.act_memOk hs

/-- Every step from canonical memory ends in canonical memory. -/
theorem step_memOk (hs : s.memOk) : Out.memOk (step s) := by
  refine settled_memOk ?_
  split
  · exact State.idle_memOk (State.onTime_memOk hs)
  · exact State.turn_memOk (State.onTime_memOk (State.others_memOk hs))

end

/-- Settles O59: what a step does to the store, it does by operations that keep the canonical forms. -/
theorem stepKeepsCanonicalMemory : Obligations.StepKeepsCanonicalMemory := by
  intro s t hs ht
  have hout : Out.memOk (step s) := step_memOk hs
  rw [ht] at hout
  exact hout

end Sys2Proof.Machine
end

/-! PROOFS. The happenings of cores (O42): the directory, walks, prefetches, the calendar, waiters, trap records,
heartbeats. -/

section
namespace Sys2Proof.Machine

section
variable {s : State} {c : CoreId} {h : CtxId}

theorem happen_none (s : State) {r : Option State} (h : r = none) : happen s r = .next s := by rw [h]; rfl

/-! ## The directory (R65, R66) -/

theorem lineOf_of_aligned {line : Nat} (h : line % 128 = 0) : lineOf line = line := by
  unfold lineOf
  omega

theorem Core.wakeHome_live (k : Core) : (k.wakeHome.ctx 11).live = true := by
  unfold Core.wakeHome
  split
  · assumption
  · rw [Core.ctx_modCtx_self]

theorem State.overflowLine_dirAt (s : State) (line : Nat) :
    (s.overflowLine line c).dirAt line = { s.dirAt line with overflow := true } := by
  have hput : (s.overflowLine line c).dirAt line =
      (s.dir.put (lineOf line) { s.dirAt line with overflow := true }).get .empty (lineOf line) := rfl
  rw [hput, KMap.get_put_self]

theorem State.overflowLine_notices (s : State) {line : Nat} (hl : lineOf line = line) :
    (s.overflowLine line c).notices.get [] (homeLanding line) =
      s.notices.get [] (homeLanding line) ++ [(line, c.val)] := by
  have hput : (s.overflowLine line c).notices.get [] (homeLanding line) =
      (s.notices.put (homeLanding line) (s.notices.get [] (homeLanding line) ++ [(lineOf line, c.val)])).get []
        (homeLanding line) := rfl
  rw [hput, KMap.get_put_self, hl]

/-- The routine of the line's home runs once a notice is there. -/
theorem State.overflowLine_home_live (s : State) (line : Nat) :
    (((s.overflowLine line c).core (homeCore (homeLanding line))).ctx 11).live = true := by
  unfold State.overflowLine State.wakeHome
  simp only [State.core_modCore_self]
  exact Core.wakeHome_live _

theorem State.isSharer_of_notice {line : Nat} (hl : lineOf line = line)
    (hn : (line, c.val) ∈ s.notices.get [] (homeLanding line)) : s.isSharer c line = true := by
  unfold State.isSharer
  simp only [hl, List.contains_iff_mem.2 hn, Bool.or_true]

/-- A fifth sharer overflows a line that has its four pointers in use, and its home is told (R65). -/
theorem exec_directoryOverflowNotice {line : Nat} (hline : line % 128 = 0) (hhbm : inHbm line = true)
    (hfull : (s.dirAt line).sharers.length = 4) (hnew : s.isSharer c line = false) (hheld : s.lineHeld line = false)
    (hroom : (s.notices.get [] (homeLanding line)).length < 32) :
    exec (.directoryOverflowNotice line c) s = .next (s.overflowLine line c) := by
  have hfree : s.pointerFree line = false := by simp [State.pointerFree, hfull]
  have hopen : s.shareOpen c line = true := by simp [State.shareOpen, hroom]
  change happen s _ = _
  refine happen_some s ?_
  rw [lineOf_of_aligned hline]
  simp [hhbm, hnew, hheld, hfree, hopen]

theorem KMap.get_drop_self {α : Type} (d : α) {m : KMap α} {i : Nat} (h : (m.map Prod.fst).Nodup) :
    (m.drop i).get d i = d := by
  induction m with
  | nil => rfl
  | cons e r ih =>
    obtain ⟨hk, hr⟩ := List.nodup_cons.1 h
    unfold KMap.drop
    split
    · next heq =>
      rcases KMap.get_mem d r i with hm | hm
      · exact absurd (List.mem_map_of_mem (f := Prod.fst) hm) (heq ▸ hk)
      · exact hm
    · next hne => exact (if_neg hne).trans (ih hr)

theorem State.invalidate_dirAt {line : Nat} (hdir : (s.dir.map Prod.fst).Nodup) :
    (s.invalidate line).dirAt line = .empty := by
  have hdrop : (s.invalidate line).dirAt line = (s.dir.drop (lineOf line)).get .empty (lineOf line) := rfl
  rw [hdrop, KMap.get_drop_self _ hdir]

theorem State.invalidate_ovfTab (s : State) (line : Nat) : (s.invalidate line).ovfTab.get [] (homeLanding line) =
    (s.ovfTab.get [] (homeLanding line)).filter fun e => !(e.1 == line) :=
  KMap.get_put_self _ _ _ _

theorem State.invalidate_notices (s : State) (line : Nat) : (s.invalidate line).notices.get [] (homeLanding line) =
    (s.notices.get [] (homeLanding line)).filter fun e => !(e.1 == line) :=
  KMap.get_put_self _ _ _ _

/-- No core shares an invalidated line (R66). -/
theorem State.invalidate_isSharer {line : Nat} (hl : lineOf line = line) (hdir : (s.dir.map Prod.fst).Nodup)
    (d : CoreId) : (s.invalidate line).isSharer d line = false := by
  unfold State.isSharer
  dsimp only
  rw [State.invalidate_dirAt hdir, State.invalidate_ovfTab, State.invalidate_notices, hl]
  simp [DirEnt.empty]

theorem exec_overflowInvalidation_of_held {line : Nat} (hl : lineOf line = line) (hheld : s.lineHeld line = true) :
    exec (.overflowInvalidation line) s =
      .next ((State.grantHeld line (s.dirAt line).write (s.invalidate line)).homeRest (homeLanding line)) := by
  refine happen_some s ?_
  unfold State.tryInvalidate State.invalidateLine
  simp [hl, hheld]

theorem exec_overflowInvalidation_of_free {line : Nat} (hl : lineOf line = line) (hheld : s.lineHeld line = false) :
    exec (.overflowInvalidation line) s = .next s := by
  refine happen_none s ?_
  unfold State.tryInvalidate
  simp [hl, hheld]

/-! ## Walks (R81, R82) -/

theorem mem_tlbAdd (cap : Nat) (l : List TlbEnt) (e : TlbEnt) : e ∈ tlbAdd cap l e := by
  unfold tlbAdd
  split
  · next hmem => exact List.contains_iff_mem.1 hmem
  · split <;> exact List.mem_append_right _ List.mem_cons_self

theorem State.mem_tlbFill_tlb (s : State) (c : CoreId) (e : TlbEnt) : e ∈ ((s.tlbFill c e).core c).tlb := by
  unfold State.tlbFill
  rw [State.core_modCore_self]
  exact mem_tlbAdd _ _ _

theorem State.mem_tlbFill_ltlb (s : State) (c : CoreId) (e : TlbEnt) :
    e ∈ (s.tlbFill c e).ltlb.get [] (landingOf c.val) := by
  have hput : (s.tlbFill c e).ltlb.get [] (landingOf c.val) =
    (s.ltlb.put (landingOf c.val) (tlbAdd 2048 (s.ltlb.get [] (landingOf c.val)) e)).get [] (landingOf c.val) := rfl
  rw [hput, KMap.get_put_self]
  exact mem_tlbAdd _ _ _

theorem fld_eq_zero_of_canonical {va : DWord} (h : va.toNat < 2 ^ 56) : fld va 63 56 = 0 := by
  unfold fld
  rw [Nat.div_eq_of_lt h, Nat.zero_mod]

theorem exec_tlbWalkComplete_of_ok {va : DWord} {e : TlbEnt} (hva : va.toNat < 2 ^ 56) (hw : s.walk c va.toNat = .ok e) :
    exec (.tlbWalkComplete c va) s = .next (s.tlbFill c e) := by
  refine happen_some s ?_
  rw [if_neg (not_not.2 (fld_eq_zero_of_canonical hva)), hw]

theorem exec_tlbWalkComplete_of_error {va : DWord} {w : WalkErr} (hva : va.toNat < 2 ^ 56)
    (hw : s.walk c va.toNat = .error w) : exec (.tlbWalkComplete c va) s = .next s := by
  refine happen_none s ?_
  rw [if_neg (not_not.2 (fld_eq_zero_of_canonical hva)), hw]

/-! ## Prefetches (R212) -/

/-- The contexts of every core are as they were. -/
def State.SameCtxs (s t : State) : Prop := ∀ d, (t.core d).ctxs = (s.core d).ctxs

theorem State.SameCtxs.refl (s : State) : s.SameCtxs s := fun _ => rfl

theorem State.SameCtxs.trans {s t u : State} (h : s.SameCtxs t) (g : t.SameCtxs u) : s.SameCtxs u :=
  fun d => (g d).trans (h d)

theorem State.SameCtxs.of_modCore {f : Core → Core} (hf : ∀ k, (f k).ctxs = k.ctxs) : s.SameCtxs (s.modCore c f) := by
  intro d
  by_cases hd : d = c
  · subst hd
    rw [State.core_modCore_self, hf]
  · rw [State.core_modCore_ne _ _ _ _ hd]

theorem State.SameCtxs.of_sameButTlbs {s t : State} (h : s.sameButTlbs t) : s.SameCtxs t := by
  obtain ⟨-, -, -, -, hc⟩ := h
  exact fun d => (congrArg Core.ctxs (hc d)).trans rfl

theorem State.codeFill_sameCtxs (s : State) (c : CoreId) (line : Nat) : s.SameCtxs (s.codeFill c line) := by
  unfold State.codeFill
  dsimp only
  split
  · exact .of_modCore fun _ => rfl
  · exact State.SameCtxs.of_modCore (s := (s.draw 12).2) fun _ => rfl

theorem State.codeHalf_sameCtxs (s : State) (c : CoreId) (pa : Nat) : s.SameCtxs (s.codeHalf c pa).2 := by
  unfold State.codeHalf
  dsimp only
  split
  · exact s.codeFill_sameCtxs c _
  · split
    · exact .refl s
    · split
      · exact .refl s
      · exact State.codeFill_sameCtxs (s.draw 1).2 c _

theorem State.fetchHalf_sameCtxs (s : State) (c : CoreId) (va : DWord) : s.SameCtxs (s.fetchHalf c va).2 := by
  have hcheck : s.SameCtxs (s.globalCheck c va 2 .fetch).2 := .of_sameButTlbs (s.globalCheck_sameButTlbs c va 2 .fetch)
  unfold State.fetchHalf
  split
  · next heq =>
    rw [heq] at hcheck
    exact hcheck
  · next heq =>
    rw [heq] at hcheck
    split
    · exact hcheck
    · split
      · exact hcheck
      · exact hcheck.trans (State.codeHalf_sameCtxs _ c _)

theorem State.fetchHalves_sameCtxs (s : State) (c : CoreId) (va : DWord) (n : Nat) :
    s.SameCtxs (s.fetchHalves c va n).2.2 := by
  induction n generalizing s va with
  | zero => exact .refl s
  | succ n ih =>
    have hhalf := s.fetchHalf_sameCtxs c va
    unfold State.fetchHalves
    split
    · next heq =>
      rw [heq] at hhalf
      exact hhalf
    · next heq =>
      rw [heq] at hhalf
      exact hhalf.trans (ih _ _)

theorem State.prefetch_sameCtxs (s : State) (c : CoreId) (b : BReg) : s.SameCtxs (s.prefetch c b).2 := by
  unfold State.prefetch
  dsimp only
  split
  · exact .refl s
  · split
    · exact .refl s
    · exact s.fetchHalves_sameCtxs c _ 8

/-- A prefetch that is done keeps the target and leaves the register ready; a bad target is its fault (R212). -/
theorem State.prefetch_done (s : State) (c : CoreId) (b : BReg) :
    (s.prefetch c b).1.ready = true ∧ (s.prefetch c b).1.busy = false ∧ (s.prefetch c b).1.v = b.v ∧
      (s.prefetch c b).1.tgt = b.tgt ∧ (b.nonCanon = true → (s.prefetch c b).1.f = 0x07) ∧
      (b.nonCanon = false → b.tgt.getLsbD 0 = true → (s.prefetch c b).1.f = 0x05) := by
  unfold State.prefetch
  dsimp only
  split
  · next hc => exact ⟨rfl, rfl, rfl, rfl, fun _ => rfl, fun hn => absurd (hc.symm.trans hn) Bool.noConfusion⟩
  · next hc =>
    split
    · exact ⟨rfl, rfl, rfl, rfl, fun hn => absurd hn hc, fun _ _ => rfl⟩
    · next hodd => exact ⟨rfl, rfl, rfl, rfl, fun hn => absurd hn hc, fun _ ho => absurd ho hodd⟩

/-- The branch registers of the context after a prefetch that is done. -/
theorem State.finishPrefetch_b (s : State) (c : CoreId) (h : CtxId) (n : Fin 8) :
    (((s.finishPrefetch c h n).core c).ctx h).b = vput ((s.core c).ctx h).b n
      { (s.prefetch c (((s.core c).ctx h).b.get n)).1 with retry := (((s.core c).ctx h).b.get n).retry } := by
  have hsame := s.prefetch_sameCtxs c (((s.core c).ctx h).b.get n) c
  unfold State.finishPrefetch State.modCtx
  dsimp only
  rw [State.core_modCore_self, Core.ctx_modCtx_self]
  unfold Core.ctx at hsame ⊢
  rw [hsame]

theorem exec_prefetchComplete {n : Fin 8} (hbusy : (((s.core c).ctx h).b.get n).busy = true)
    (hwait : s.prefetchWaits c (((s.core c).ctx h).b.get n) = false)
    (haway : s.codeAway c ((((s.core c).ctx h).b.get n).tgt.setWidth 64) = false)
    (haway2 : s.codeAway c ((((s.core c).ctx h).b.get n).tgt.setWidth 64 + 14) = false) :
    exec (.prefetchComplete c h n) s = .next (s.finishPrefetch c h n) := by
  refine happen_some s ?_
  unfold State.tryPrefetch
  simp only [hbusy, hwait, haway, haway2, Bool.not_false, Bool.and_self, if_true]

/-! ## The calendar of the weight store (R70) -/

theorem wsBank_eq_some_iff (cal : Int) (period window now : Nat) (j : Fin 16) :
    wsBank cal period window now = some j ↔ period ≠ 0 ∧
      j.val = (((now : Int) - cal) % period).toNat / (period / 16) ∧
      (((now : Int) - cal) % period).toNat - j.val * (period / 16) < window := by
  have hbank (r : Nat) : (if period / 16 = 0 then 0 else r / (period / 16)) = r / (period / 16) := by
    split
    · next hp => rw [hp, Nat.div_zero]
    · rfl
  unfold wsBank
  split
  · next hper => exact ⟨nofun, fun hj => absurd hper hj.1⟩
  · next hper =>
    dsimp only
    rw [hbank]
    split
    · split
      · next hwin =>
        refine ⟨fun hj => ?_, fun ⟨_, hj, _⟩ => congrArg some (Fin.ext hj.symm)⟩
        obtain rfl := Option.some.inj hj
        exact ⟨hper, rfl, hwin⟩
      · next hwin => exact ⟨nofun, fun ⟨_, hj, hin⟩ => absurd (hj ▸ hin) hwin⟩
    · next hbound => exact ⟨nofun, fun ⟨_, hj, _⟩ => absurd (hj ▸ j.isLt) hbound⟩

/-! ## Waiters (R60, R286) -/

theorem exec_feWaiterService (c : CoreId) (s : State) : exec (.feWaiterService c) s =
    happen s ((((s.core c).feWait.find? fun w => (s.core c).allFe w.addr w.full w.n && s.canRetry c w.ctx)).map
      fun w => s.runNext c w.ctx) := rfl

theorem exec_waitSatisfied (hlive : ((s.core c).ctx h).live = true) (hstop : ((s.core c).ctx h).stop = .waiting)
    (hfe : ∀ w ∈ (s.core c).feWait, w.ctx ≠ h) :
    exec (.waitSatisfied c h) s = .next { s with agenda := ⟨0, .waiter c h⟩ :: s.agenda } := by
  have hnone : ((s.core c).feWait.any fun w => w.ctx == h) = false := by simpa using hfe
  refine happen_some s ?_
  unfold State.tryWait
  simp [hlive, hstop, hnone, State.runNext]

/-! ## Waiting trap records (R360) -/

theorem Core.enterTrap_ctx (k : Core) (r : TrapRec) : ((k.enterTrap r).ctx 13).live = true ∧
    ((k.enterTrap r).ctx 13).pc = k.tvec.setWidth 64 ∧ ((k.enterTrap r).ctx 13).beatLeft = k.beatOf 13 := by
  unfold Core.enterTrap
  dsimp only
  rw [Core.ctx_setCtx_self]
  exact ⟨rfl, rfl, rfl⟩

theorem Core.serveRec_cons {k : Core} {r : TrapRec} {rest : List TrapRec} (hlive : (k.ctx 13).live = false)
    (hrecs : k.recs = r :: rest) : k.serveRec = { k with recs := rest }.enterTrap r := by
  unfold Core.serveRec
  simp [hlive, hrecs]

/-! ## Missed heartbeats (R46, R364) -/

theorem State.emitEvent_mem (s : State) (e : Ev) (seen : KMap Nat) : (s.emitEvent e seen).mem = s.mem :=
  List.foldlRecOn (motive := fun t => State.mem t = s.mem) _ _ rfl fun _ ht _ _ => ht

/-- An event that leaves changes no byte of memory. -/
theorem State.launchEvent_mem (s : State) (c : CoreId) (e : Ev) (seen : KMap Nat) :
    (s.launchEvent c e seen).mem = s.mem := by
  unfold State.launchEvent
  split
  · rfl
  · split
    · rfl
    · exact s.emitEvent_mem e seen

/-- Between two states no byte of memory changes, and a core that was fenced is fenced. -/
def State.KeepsFence (c : CoreId) (s t : State) : Prop :=
  t.mem = s.mem ∧ ((s.core c).fenced = true → (t.core c).fenced = true)

theorem State.KeepsFence.trans {s t u : State} (h : s.KeepsFence c t) (g : t.KeepsFence c u) : s.KeepsFence c u :=
  ⟨g.1.trans h.1, fun hf => g.2 (h.2 hf)⟩

theorem State.takeSeq_keepsFence (s : State) (c : CoreId) : State.KeepsFence c s (s.takeSeq c).2 := by
  refine ⟨rfl, fun hf => ?_⟩
  unfold State.takeSeq
  rw [State.core_modCore_self]
  exact hf

theorem State.launchEvent_keepsFence (s : State) (c d : CoreId) (e : Ev) (seen : KMap Nat) :
    State.KeepsFence c s (s.launchEvent d e seen) :=
  ⟨s.launchEvent_mem d e seen, fun hf => (State.core_congr (s.launchEvent_cores d e seen) c) ▸ hf⟩

theorem State.faultEvent_keepsFence (s : State) (c dest : CoreId) (cause : Byte) (h : CtxId) :
    State.KeepsFence c s (s.faultEvent c dest cause h) :=
  (s.takeSeq_keepsFence c).trans (State.launchEvent_keepsFence _ c c _ _)

theorem State.missEvents_keepsFence (s : State) (c : CoreId) (h : CtxId) (ls : List Nat) :
    State.KeepsFence c s (s.missEvents c h ls) := by
  unfold State.missEvents
  refine List.foldlRecOn (motive := State.KeepsFence c s) _ _ (s.takeSeq_keepsFence c) fun t ht l _ => ?_
  split
  · exact ht.trans (t.faultEvent_keepsFence c _ _ h)
  · exact ht

/-- A core whose context missed its heartbeat is fenced, and memory is as it was (R46). -/
theorem State.fence_fenced (s : State) (c : CoreId) (h : CtxId) :
    ((s.fence c h).core c).fenced = true ∧ (s.fence c h).mem = s.mem := by
  obtain ⟨hmem, hfence⟩ := State.missEvents_keepsFence (s.modCore c fun k => { k with fenced := true }) c h
    (s.missLaunches c h)
  refine ⟨hfence ?_, hmem⟩
  rw [State.core_modCore_self]

theorem exec_miss (hbeats : ((s.core c).ctx h).beats h = true) (hleft : ((s.core c).ctx h).beatLeft = 0)
    (hiv : (s.core c).beatOf h ≠ 0) : happen s (s.tryMiss c h) = .next (s.fence c h) := by
  refine happen_some s ?_
  unfold State.tryMiss
  simp only [hbeats, hleft, hiv, ne_eq, not_false_eq_true, decide_true, Bool.and_self, if_true]

end

/-- Settles O42: each happening gives the state that the lemmas above name; its clauses are facts about that state. -/
theorem coreHappenings : Obligations.CoreHappenings := by
  intro c h s k x
  refine ⟨fun line hline hhbm hfull hnew hheld hroom => ?_, fun line hline hdir => ?_,
    fun va hva => ⟨fun e hw => ?_, fun w hw => ?_⟩, fun n hbusy hwait haway haway2 => ?_, ?_,
    fun w hw => ?_, fun hw => ?_, fun hlive hstop hfe => ?_, fun r rest hlive hrecs => ?_, fun hbeats hleft hiv => ?_, fun hbeats hleft hiv => ?_⟩
  · have hl := lineOf_of_aligned hline
    have hnotices := s.overflowLine_notices (c := c) hl
    refine ⟨_, exec_directoryOverflowNotice hline hhbm hfull hnew hheld hroom, ?_, ?_, hnotices,
      s.overflowLine_home_live line⟩
    · exact congrArg DirEnt.overflow (s.overflowLine_dirAt line)
    · exact State.isSharer_of_notice hl (hnotices ▸ List.mem_append_right _ List.mem_cons_self)
  · have hl := lineOf_of_aligned hline
    refine ⟨congrArg DirEnt.overflow (State.invalidate_dirAt hdir), State.invalidate_isSharer hl hdir, rfl,
      fun hheld => ⟨exec_overflowInvalidation_of_held hl hheld, fun _ => rfl⟩, exec_overflowInvalidation_of_free hl⟩
  · exact ⟨_, exec_tlbWalkComplete_of_ok hva hw, s.mem_tlbFill_tlb c e, s.mem_tlbFill_ltlb c e, rfl⟩
  · exact exec_tlbWalkComplete_of_error hva hw
  · obtain ⟨hready, hidle, hv, htgt, hcanon, hodd⟩ := s.prefetch_done c (x.b.get n)
    refine ⟨_, exec_prefetchComplete hbusy hwait haway haway2, ?_⟩
    rw [s.finishPrefetch_b c h n]
    refine ⟨?_, ?_, ?_, ?_, ?_, ?_, fun m hm => vget_vput_ne _ _ _ _ hm⟩
    all_goals rw [vget_vput_self]
    · exact hready
    · exact hidle
    · exact hv
    · exact htgt
    · exact hcanon
    · exact hodd
  · exact ⟨_, rfl, rfl, rfl, fun j => wsBank_eq_some_iff _ _ _ _ j⟩
  · rw [exec_feWaiterService, hw]
    rfl
  · rw [exec_feWaiterService, hw]
    rfl
  · exact exec_waitSatisfied hlive hstop hfe
  · obtain ⟨hlive13, hpc, hbeat⟩ := Core.enterTrap_ctx { k with recs := rest } r
    refine ⟨_, rfl, ?_⟩
    rw [State.core_modCore_self, Core.serveRec_cons hlive hrecs]
    exact ⟨rfl, rfl, hlive13, hpc, hbeat⟩
  · exact ⟨_, exec_miss hbeats hleft hiv, s.fence_fenced c h⟩
  · exact ⟨_, exec_miss hbeats hleft hiv, s.fence_fenced c 13⟩

end Sys2Proof.Machine
end

/-! PROOFS. Frames of the instructions whose one destination is a predicate or a floating-point register (O6). -/

section
namespace Sys2Proof.Machine

/-! ## Changes of the issuing context, one after another -/

theorem Core.setCtx_setCtx (k : Core) (h : CtxId) (x y : Ctx) : (k.setCtx h x).setCtx h y = k.setCtx h y := by
  unfold Core.setCtx vput
  rw [Vector.set_set]

theorem State.modCx_modCx (s : State) (f g : Ctx → Ctx) : (s.modCx f).modCx g = s.modCx fun x => g (f x) := by
  have hcore : (s.modCx f).core s.cur = s.me.modCtx s.curCtx f := s.me_modCx f
  show (s.modCx f).setCore s.cur (((s.modCx f).core s.cur).modCtx s.curCtx g) = _
  rw [hcore]
  unfold Core.modCtx
  rw [Core.ctx_setCtx_self, Core.setCtx_setCtx]
  exact s.setCore_setCore _ _ _

theorem State.sameButCtx_trans {s t u : State} (h : s.sameButCtx t) (g : t.sameButCtx u) : s.sameButCtx u := by
  obtain ⟨hst, hcores, hme, hctx⟩ := h
  obtain ⟨htu, hcores', hme', hctx'⟩ := g
  have hcur : t.cur = s.cur := by rw [hst]
  have hcurCtx : t.curCtx = s.curCtx := by rw [hst]
  refine ⟨?_, fun c hc => ?_, ?_, fun h hh => ?_⟩
  · rw [htu, hst]
  · rw [hcores' c (hcur ▸ hc), hcores c hc]
  · rw [hme', hme]
  · rw [hctx' h (hcurCtx ▸ hh), hctx h hh]

/-! ## Instructions that change the issuing context alone -/

/-- An effect that waits, or that changes the issuing context alone, to one of which `P` holds. -/
def State.movesCtx (s : State) (P : Ctx → Prop) (r : Act) : Prop :=
  r = .error .wait ∨ ∃ f, r = .ok (s.modCx f) ∧ P (f s.cx)

/-- The outcome of a guarded instruction with such an effect. -/
def State.movesBy (s : State) (P : Ctx → Prop) (o : Out) : Prop := ∃ g body, o = instr g body s ∧ s.movesCtx P (body s)

section
variable {s t : State} {P Q : Ctx → Prop} {o : Out}

theorem State.movesCtx_of_modCx {f : Ctx → Ctx} (hf : P (f s.cx)) : s.movesCtx P (.ok (s.modCx f)) := .inr ⟨f, rfl, hf⟩

/-- Without deferred faults an effect that first reads a general register waits, or goes on with its value. -/
theorem State.movesCtx_rdX (hs : s.noDeferred) (r : Reg) {e : DWord → Act} (he : ∀ v, s.movesCtx P (e v)) :
    s.movesCtx P (s.rdX r >>= e) := by
  unfold State.rdX
  rcases s.regReady_noDeferred r hs with h | h
  · rw [h]
    exact he _
  · rw [h]
    exact .inl rfl

theorem State.movesBy.mono (h : s.movesBy P o) (hPQ : ∀ x, P x → Q x) : s.movesBy Q o := by
  obtain ⟨g, body, ho, hwait | ⟨f, hf, hP⟩⟩ := h
  · exact ⟨g, body, ho, .inl hwait⟩
  · exact ⟨g, body, ho, .inr ⟨f, hf, hPQ _ hP⟩⟩

/-- What such an instruction leaves: nothing but the issuing context has changed, and of that, beside the PC, the count, the latch
and the reason, only what `P` lets change. -/
theorem State.movesBy.frame (h : s.movesBy P o) (hP : P s.cx) (ht : o = .next t) : s.sameBytes t ∧ s.sameButCtx t ∧
    ∃ u, P u ∧
      t.cx = { u with pc := t.cx.pc, retired := t.cx.retired, latch := t.cx.latch, stop := t.cx.stop } := by
  obtain ⟨g, body, rfl, hmoves⟩ := h
  obtain ⟨-, rfl⟩ | ⟨-, w, hw, rfl⟩ | ⟨-, e, he, rfl⟩ := instr_cases ht
  · exact ⟨s.retire_sameBytes 4, s.retire_sameButCtx 4, s.cx, hP, by rw [State.cx_retire]⟩
  · obtain hwait | ⟨f, hf, hPf⟩ := hmoves
    · exact absurd (hw.symm.trans hwait) (by simp)
    · obtain rfl : w = s.modCx f := Except.ok.inj (hw.symm.trans hf)
      refine ⟨State.sameBytes_trans (s.modCx_sameBytes f) (State.retire_sameBytes _ 4),
        State.sameButCtx_trans (s.modCx_sameButCtx f) (State.retire_sameButCtx _ 4), f s.cx, hPf, ?_⟩
      rw [State.cx_retire, State.cx_modCx]
  · obtain hwait | ⟨f, hf, -⟩ := hmoves
    · obtain rfl : e = .wait := Except.error.inj (he.symm.trans hwait)
      refine ⟨s.modCx_sameBytes _, s.modCx_sameButCtx _, s.cx, hP, ?_⟩
      have hcx : (s.stopWith .wait).cx = { s.cx with stop := .waiting } := s.cx_modCx _
      rw [hcx]
    · exact absurd (he.symm.trans hf) (by simp)

end

/-! ## One destination, and flags (R125) -/

/-- A context that is another but for predicate register `d`. -/
def Ctx.onlyP (x : Ctx) (d : PReg) (u : Ctx) : Prop := ∃ p, u = { x with p := p } ∧ ∀ r, r ≠ d → p.get r = x.p.get r

/-- A context that is another but for scalar FP register `d`. -/
def Ctx.onlyF (x : Ctx) (d : Reg) (u : Ctx) : Prop := ∃ f, u = { x with f := f } ∧ ∀ r, r ≠ d → f.get r = x.f.get r

/-- A context that is another but for general register `d`. -/
def Ctx.onlyX (x : Ctx) (d : Reg) (u : Ctx) : Prop := ∃ v, u = { x with x := v } ∧ ∀ r, r ≠ d → v.get r = x.x.get r

/-- A context to which flags have been added, of which `P` held before. -/
def Ctx.flagged (P : Ctx → Prop) (u : Ctx) : Prop := ∃ w fl, P w ∧ u = { w with fflags := w.fflags ||| fl }

theorem Ctx.onlyP_refl (x : Ctx) (d : PReg) : x.onlyP d x := ⟨x.p, rfl, fun _ _ => rfl⟩
theorem Ctx.onlyF_refl (x : Ctx) (d : Reg) : x.onlyF d x := ⟨x.f, rfl, fun _ _ => rfl⟩
theorem Ctx.onlyX_refl (x : Ctx) (d : Reg) : x.onlyX d x := ⟨x.x, rfl, fun _ _ => rfl⟩

theorem Ctx.onlyP_put (x : Ctx) (d : PReg) (v : Word) : x.onlyP d { x with p := vput x.p d v } :=
  ⟨_, rfl, fun _ hr => vget_vput_ne _ _ _ _ hr⟩

theorem Ctx.onlyF_put (x : Ctx) (d : Reg) (v : DWord) : x.onlyF d { x with f := vput x.f d v } :=
  ⟨_, rfl, fun _ hr => vget_vput_ne _ _ _ _ hr⟩

theorem Ctx.onlyX_setX (x : Ctx) (d : Reg) (v : DWord) : x.onlyX d (x.setX d v) := by
  unfold Ctx.setX
  split
  · exact x.onlyX_refl d
  · exact ⟨_, rfl, fun _ hr => vget_vput_ne _ _ _ _ hr⟩

theorem Ctx.flagged_of {P : Ctx → Prop} {u : Ctx} (h : P u) : Ctx.flagged P u := ⟨u, 0, h, by simp⟩

theorem flags_kept (a b : BitVec 5) : a &&& (a ||| b) = a := by
  ext i hi
  simpa using Or.inl

section
variable {s t : State} {d p q : PReg} {e a b : Reg} {g : Guard} {i : Instr} {o : Out}

theorem State.movesCtx_putP (v : Word) : s.movesCtx (s.cx.onlyP d) (.ok (s.putP d v)) :=
  State.movesCtx_of_modCx (s.cx.onlyP_put d v)

theorem State.movesCtx_putF (v : DWord) : s.movesCtx (s.cx.onlyF e) (.ok (s.putF e v)) :=
  State.movesCtx_of_modCx (s.cx.onlyF_put e v)

/-- A change of the context with flags added after it. -/
theorem State.movesCtx_orFlags {P : Ctx → Prop} {f : Ctx → Ctx} (fl : BitVec 5) (hf : P (f s.cx)) :
    s.movesCtx (Ctx.flagged P) (.ok ((s.modCx f).orFlags fl)) :=
  .inr ⟨_, congrArg Except.ok (s.modCx_modCx f _), f s.cx, fl, hf, rfl⟩

theorem State.movesCtx_fop2 (op : RM → Nat → Nat → FRes) : s.movesCtx (Ctx.flagged (s.cx.onlyF e)) (fop2 op e a b s) :=
  State.movesCtx_orFlags _ (s.cx.onlyF_put e _)

theorem State.movesCtx_fromInt (hs : s.noDeferred) (mode : FcvtMode) (f : DWord → Int) :
    s.movesCtx (Ctx.flagged (s.cx.onlyF e)) (fromInt mode f e a s) :=
  State.movesCtx_rdX hs a fun _ => State.movesCtx_orFlags _ (s.cx.onlyF_put e _)

theorem State.movesCtx_toInteger (hs : s.noDeferred) (mode : FcvtMode) (lo hi : Int) :
    s.movesCtx (Ctx.flagged (s.cx.onlyX e)) (toInteger mode lo hi e a s) := by
  unfold toInteger State.wrX
  rcases s.regReady_noDeferred e hs with h | h
  · simp only [h, ok_bind]
    exact State.movesCtx_orFlags _ (s.cx.onlyX_setX e _)
  · simp only [h, error_bind]
    exact .inl rfl

/-! ## The instructions -/

/-- The instructions that set a predicate register and no flag. -/
def predicateInstrs (g : Guard) (d p q : PReg) (a b : Reg) (n : Fin 8) (imm : Int) (cc : ICond) : List Instr :=
  [.cmp g d a b cc, .cmpi g d a imm cc, .pand g d p q, .por g d p q, .pxor g d p q, .pandn g d p q, .pnot g d p, .pmov g d p,
    .pall g d p, .pnone g d p, .pfirst g d p, .xtop g d a, .tstb g d n]

/-- The instructions that set a scalar FP register and no flag. -/
def floatBitInstrs (g : Guard) (d a b : Reg) : List Instr := [.fsgn g d a b, .fabs g d a, .fneg g d a, .fmvfx g d a]

/-- The instructions that set a scalar FP register and add flags. -/
def floatInstrs (g : Guard) (d a b : Reg) (m : FcvtMode) : List Instr :=
  [.fadd g d a b, .fsub g d a b, .fmul g d a b, .fdiv g d a b, .fmin g d a b, .fmax g d a b, .fsqrt g d a, .fma g d a b,
    .fms g d a b, .fcvtXf g d a m, .fcvtUf g d a m]

theorem State.movesBy_pop1 (f : Word → Word) : s.movesBy (s.cx.onlyP d) (instr g (pop1 f d p) s) :=
  ⟨g, _, rfl, State.movesCtx_putP _⟩

theorem State.movesBy_pop2 (f : Word → Word → Word) : s.movesBy (s.cx.onlyP d) (instr g (pop2 f d p q) s) :=
  ⟨g, _, rfl, State.movesCtx_putP _⟩

theorem State.movesBy_execCmp (hs : s.noDeferred) (cc : ICond) : s.movesBy (s.cx.onlyP d) (execCmp g d a b cc s) :=
  ⟨g, _, rfl, State.movesCtx_rdX hs a fun _ => State.movesCtx_rdX hs b fun _ => State.movesCtx_putP _⟩

theorem State.movesBy_execCmpi (hs : s.noDeferred) (imm : Int) (cc : ICond) :
    s.movesBy (s.cx.onlyP d) (execCmpi g d a imm cc s) :=
  ⟨g, _, rfl, State.movesCtx_rdX hs a fun _ => State.movesCtx_putP _⟩

theorem State.movesBy_execXtop (hs : s.noDeferred) : s.movesBy (s.cx.onlyP d) (execXtop g d a s) :=
  ⟨g, _, rfl, State.movesCtx_rdX hs a fun _ => State.movesCtx_putP _⟩

theorem State.movesBy_execTstb (n : Fin 8) : s.movesBy (s.cx.onlyP d) (execTstb g d n s) :=
  ⟨g, _, rfl, State.movesCtx_putP _⟩

theorem State.movesBy_execFcmp (cc : FCond) : s.movesBy (Ctx.flagged (s.cx.onlyP d)) (execFcmp g d a b cc s) :=
  ⟨g, _, rfl, State.movesCtx_orFlags _ (s.cx.onlyP_put d _)⟩

theorem State.movesBy_predicate (hs : s.noDeferred) (n : Fin 8) (imm : Int) (cc : ICond) :
    ∀ i ∈ predicateInstrs g d p q a b n imm cc, s.movesBy (s.cx.onlyP d) (exec i s) := by
  unfold predicateInstrs
  simp only [List.forall_mem_cons]
  exact ⟨State.movesBy_execCmp hs cc, State.movesBy_execCmpi hs imm cc, State.movesBy_pop2 _, State.movesBy_pop2 _,
    State.movesBy_pop2 _, State.movesBy_pop2 _, State.movesBy_pop1 _, State.movesBy_pop1 _, State.movesBy_pop1 _,
    State.movesBy_pop1 _, State.movesBy_pop1 _, State.movesBy_execXtop hs, State.movesBy_execTstb n,
    fun _ h => absurd h List.not_mem_nil⟩

theorem State.movesBy_execFsgn : s.movesBy (s.cx.onlyF e) (execFsgn g e a b s) := ⟨g, _, rfl, State.movesCtx_putF _⟩

theorem State.movesBy_execFabs : s.movesBy (s.cx.onlyF e) (execFabs g e a s) := ⟨g, _, rfl, State.movesCtx_putF _⟩

theorem State.movesBy_execFneg : s.movesBy (s.cx.onlyF e) (execFneg g e a s) := ⟨g, _, rfl, State.movesCtx_putF _⟩

theorem State.movesBy_execFmvfx (hs : s.noDeferred) : s.movesBy (s.cx.onlyF e) (execFmvfx g e a s) :=
  ⟨g, _, rfl, State.movesCtx_rdX hs a fun _ => State.movesCtx_putF _⟩

theorem State.movesBy_floatBits (hs : s.noDeferred) :
    ∀ i ∈ floatBitInstrs g e a b, s.movesBy (s.cx.onlyF e) (exec i s) := by
  unfold floatBitInstrs
  simp only [List.forall_mem_cons]
  exact ⟨State.movesBy_execFsgn, State.movesBy_execFabs, State.movesBy_execFneg, State.movesBy_execFmvfx hs,
    fun _ h => absurd h List.not_mem_nil⟩

theorem State.movesBy_fop2 (op : RM → Nat → Nat → FRes) :
    s.movesBy (Ctx.flagged (s.cx.onlyF e)) (instr g (fop2 op e a b) s) := ⟨g, _, rfl, State.movesCtx_fop2 op⟩

theorem State.movesBy_execFma : s.movesBy (Ctx.flagged (s.cx.onlyF e)) (execFma g e a b s) :=
  ⟨g, _, rfl, State.movesCtx_fop2 _⟩

theorem State.movesBy_execFms : s.movesBy (Ctx.flagged (s.cx.onlyF e)) (execFms g e a b s) :=
  ⟨g, _, rfl, State.movesCtx_fop2 _⟩

theorem State.movesBy_fromInt (hs : s.noDeferred) (mode : FcvtMode) (f : DWord → Int) :
    s.movesBy (Ctx.flagged (s.cx.onlyF e)) (instr g (fromInt mode f e a) s) := ⟨g, _, rfl, State.movesCtx_fromInt hs mode f⟩

theorem State.movesBy_float (hs : s.noDeferred) (m : FcvtMode) :
    ∀ i ∈ floatInstrs g e a b m, s.movesBy (Ctx.flagged (s.cx.onlyF e)) (exec i s) := by
  unfold floatInstrs
  simp only [List.forall_mem_cons]
  exact ⟨State.movesBy_fop2 _, State.movesBy_fop2 _, State.movesBy_fop2 _, State.movesBy_fop2 _, State.movesBy_fop2 _,
    State.movesBy_fop2 _, State.movesBy_fop2 _, State.movesBy_execFma, State.movesBy_execFms, State.movesBy_fromInt hs m _,
    State.movesBy_fromInt hs m _, fun _ h => absurd h List.not_mem_nil⟩

theorem State.movesBy_toInteger (hs : s.noDeferred) (mode : FcvtMode) (lo hi : Int) :
    s.movesBy (Ctx.flagged (s.cx.onlyX e)) (instr g (toInteger mode lo hi e a) s) :=
  ⟨g, _, rfl, State.movesCtx_toInteger hs mode lo hi⟩

theorem State.movesBy_fcvtToInteger (hs : s.noDeferred) (m : FcvtMode) :
    ∀ i ∈ [Instr.fcvtFx g e a m, .fcvtFu g e a m], s.movesBy (Ctx.flagged (s.cx.onlyX e)) (exec i s) := by
  simp only [List.forall_mem_cons]
  exact ⟨State.movesBy_toInteger hs m _ _, State.movesBy_toInteger hs m _ _, fun _ h => absurd h List.not_mem_nil⟩

/-! ## Their frames -/

theorem Ctx.onlyP_fflags {x u : Ctx} (h : x.onlyP d u) : u.fflags = x.fflags := by
  obtain ⟨_, rfl, -⟩ := h
  rfl

theorem Ctx.onlyF_fflags {x u : Ctx} (h : x.onlyF e u) : u.fflags = x.fflags := by
  obtain ⟨_, rfl, -⟩ := h
  rfl

theorem Ctx.onlyX_fflags {x u : Ctx} (h : x.onlyX e u) : u.fflags = x.fflags := by
  obtain ⟨_, rfl, -⟩ := h
  rfl

theorem State.movesBy.fflags {P : Ctx → Prop} (h : s.movesBy P o) (hP : P s.cx) (hkeep : ∀ u, P u → u.fflags = s.cx.fflags)
    (ht : o = .next t) : t.cx.fflags = s.cx.fflags := by
  obtain ⟨-, -, u, hu, hcx⟩ := h.frame hP ht
  rw [hcx]
  exact hkeep u hu

/-- The frame of an instruction that adds flags after a change that keeps them (R125). -/
theorem State.movesBy.flaggedFrame {P : Ctx → Prop} (h : s.movesBy (Ctx.flagged P) o) (hP : P s.cx)
    (hkeep : ∀ u, P u → u.fflags = s.cx.fflags) (ht : o = .next t) : s.sameBytes t ∧ s.sameButCtx t ∧
      s.cx.fflags &&& t.cx.fflags = s.cx.fflags ∧ ∃ w, P w ∧ t.cx = { w with
        fflags := t.cx.fflags, pc := t.cx.pc, retired := t.cx.retired, latch := t.cx.latch, stop := t.cx.stop } := by
  obtain ⟨hbytes, hrest, u, ⟨w, fl, hw, rfl⟩, hcx⟩ := h.frame (Ctx.flagged_of hP) ht
  have hflags : t.cx.fflags = s.cx.fflags ||| fl := by rw [hcx, ← hkeep w hw]
  refine ⟨hbytes, hrest, by rw [hflags, flags_kept], w, hw, ?_⟩
  rw [hcx]

theorem State.movesBy.frameP (h : s.movesBy (Ctx.flagged (s.cx.onlyP d)) o) (ht : o = .next t) : s.frameP t d := by
  obtain ⟨hbytes, hrest, hflags, w, ⟨v, rfl, hv⟩, hcx⟩ := h.flaggedFrame (s.cx.onlyP_refl d) (fun _ => Ctx.onlyP_fflags) ht
  exact ⟨hbytes, hrest, by rw [hcx], fun r hr => by rw [hcx]; exact hv r hr, hflags⟩

theorem State.movesBy.frameF (h : s.movesBy (Ctx.flagged (s.cx.onlyF e)) o) (ht : o = .next t) : s.frameF t e := by
  obtain ⟨hbytes, hrest, hflags, w, ⟨v, rfl, hv⟩, hcx⟩ := h.flaggedFrame (s.cx.onlyF_refl e) (fun _ => Ctx.onlyF_fflags) ht
  exact ⟨hbytes, hrest, by rw [hcx], fun r hr => by rw [hcx]; exact hv r hr, hflags⟩

theorem State.movesBy.frameXFlags (h : s.movesBy (Ctx.flagged (s.cx.onlyX e)) o) (ht : o = .next t) :
    s.sameBytes t ∧ s.sameButCtx t ∧
      t.cx = { s.cx with x := t.cx.x, fflags := t.cx.fflags, pc := t.cx.pc, retired := t.cx.retired, latch := t.cx.latch,
                         stop := t.cx.stop } ∧
      (∀ r, r ≠ e → t.cx.x.get r = s.cx.x.get r) ∧ s.cx.fflags &&& t.cx.fflags = s.cx.fflags := by
  obtain ⟨hbytes, hrest, hflags, w, ⟨v, rfl, hv⟩, hcx⟩ := h.flaggedFrame (s.cx.onlyX_refl e) (fun _ => Ctx.onlyX_fflags) ht
  exact ⟨hbytes, hrest, by rw [hcx], fun r hr => by rw [hcx]; exact hv r hr, hflags⟩

end

/-- Settles O6: each of the instructions waits or changes the issuing context alone (`State.movesBy`), by one register and by
flags that are added. -/
theorem predicateFloatFrames : Obligations.PredicateFloatFrames := by
  unfold Obligations.PredicateFloatFrames
  refine ⟨fun g d p q a b n imm cc fc s t hs => ?_, fun g d a b m s t hs => ?_⟩
  · have hpred := State.movesBy_predicate (g := g) (d := d) (p := p) (q := q) (a := a) (b := b) hs n imm cc
    refine ⟨fun i hi ht => State.movesBy.frameP ?_ ht,
      fun i hi ht => (hpred i hi).fflags (s.cx.onlyP_refl d) (fun _ => Ctx.onlyP_fflags) ht⟩
    have hsplit : i = .fcmp g d a b fc ∨ i ∈ predicateInstrs g d p q a b n imm cc := by
      simp only [predicateInstrs, List.mem_cons] at hi ⊢
      tauto
    obtain rfl | hmem := hsplit
    · exact State.movesBy_execFcmp fc
    · exact (hpred i hmem).mono fun _ => Ctx.flagged_of
  · have hbits := State.movesBy_floatBits (g := g) (e := d) (a := a) (b := b) hs
    refine ⟨fun i hi ht => State.movesBy.frameF ?_ ht,
      fun i hi ht => (hbits i hi).fflags (s.cx.onlyF_refl d) (fun _ => Ctx.onlyF_fflags) ht,
      fun i hi ht => (State.movesBy_fcvtToInteger hs m i hi).frameXFlags ht⟩
    have hsplit : i ∈ floatBitInstrs g d a b ∨ i ∈ floatInstrs g d a b m := by
      simp only [floatBitInstrs, floatInstrs, List.mem_cons] at hi ⊢
      tauto
    obtain hmem | hmem := hsplit
    · exact (hbits i hmem).mono fun _ => Ctx.flagged_of
    · exact State.movesBy_float hs m i hmem

end Sys2Proof.Machine
end

/-! PROOFS. The coding of XF8 blocks (O29): what the encoder writes, the decoder reads back. -/

section
namespace Sys2Proof.Machine

theorem upto_eq_range (n : Nat) : upto n = List.range n := by
  induction n with
  | zero => rfl
  | succ n ih => rw [upto, ih, List.range_succ]

/-! ## Numbers of bits and of nibbles -/

theorem bitsNat_lt {l : List Nat} (h : ∀ b ∈ l, b < 2) : bitsNat l < 2 ^ l.length := by
  induction l with
  | nil => exact Nat.one_pos
  | cons b r ih =>
    have hb := h b List.mem_cons_self
    have hr := ih fun x hx => h x (List.mem_cons_of_mem _ hx)
    rw [bitsNat, List.length_cons, Nat.pow_succ]
    omega

theorem nibblesNat_lt (codes : List Nat) : nibblesNat codes < 16 ^ codes.length := by
  induction codes with
  | nil => exact Nat.one_pos
  | cons c r ih =>
    rw [nibblesNat, List.length_cons, Nat.pow_succ]
    omega

/-- Nibble `i` holds the sign and the mantissa of code `i` (R131). -/
theorem nibblesNat_nibble (codes : List Nat) (i : Nat) :
    nibblesNat codes / 16 ^ i % 16 = codes.getD i 0 / 128 % 2 * 8 + codes.getD i 0 % 8 := by
  induction codes generalizing i with
  | nil => simp [nibblesNat]
  | cons c r ih =>
    cases i with
    | zero =>
      rw [List.getD_cons_zero, nibblesNat]
      omega
    | succ i =>
      rw [List.getD_cons_succ, ← ih i, nibblesNat, Nat.pow_succ', ← Nat.div_div_eq_div_mul]
      congr 2
      omega

/-- From bit `j` on, a plane holds the bits listed. -/
def planeReads (plane j : Nat) : List Nat → Prop
  | [] => True
  | b :: r => planeBit plane j = b ∧ planeReads plane (j + 1) r

theorem planeReads_append {plane j : Nat} {l r : List Nat} :
    planeReads plane j (l ++ r) ↔ planeReads plane j l ∧ planeReads plane (j + l.length) r := by
  induction l generalizing j with
  | nil => simp [planeReads]
  | cons b l ih => simp only [List.cons_append, planeReads, ih, List.length_cons, and_assoc, Nat.add_assoc, Nat.add_comm 1]

theorem planeBit_succ (plane j : Nat) : planeBit plane (j + 1) = planeBit (plane / 2) j := by
  unfold planeBit
  rw [Nat.pow_succ', Nat.div_div_eq_div_mul]

theorem planeReads_succ {plane j : Nat} {l : List Nat} : planeReads plane (j + 1) l ↔ planeReads (plane / 2) j l := by
  induction l generalizing j with
  | nil => rfl
  | cons b r ih => simp only [planeReads, planeBit_succ, ih]

theorem planeReads_bitsNat {l : List Nat} (h : ∀ b ∈ l, b < 2) : planeReads (bitsNat l) 0 l := by
  induction l with
  | nil => trivial
  | cons b r ih =>
    have hb := h b List.mem_cons_self
    have hhalf : bitsNat (b :: r) / 2 = bitsNat r := by
      rw [bitsNat]
      omega
    refine ⟨?_, planeReads_succ.mpr ?_⟩
    · rw [planeBit, bitsNat]
      omega
    · rw [hhalf]
      exact ih fun x hx => h x (List.mem_cons_of_mem _ hx)

/-! ## Exponents (R130) -/

theorem e4exp_lt (c : Nat) : e4exp c < 16 := Nat.mod_lt _ (by decide)

/-- The four bits of an exponent, most significant first. -/
def fieldBits (e : Nat) : List Nat := [e / 8 % 2, e / 4 % 2, e / 2 % 2, e % 2]

theorem fieldBits_lt (e : Nat) : ∀ b ∈ fieldBits e, b < 2 := by
  simp only [fieldBits, List.forall_mem_cons, List.not_mem_nil, false_imp_iff, implies_true, and_true]
  omega

theorem planeField_of_reads {plane j e : Nat} (he : e < 16) (h : planeReads plane j (fieldBits e)) : planeField plane j = e := by
  obtain ⟨h0, h1, h2, h3, -⟩ := h
  unfold planeField
  rw [h0, h1, h2, h3]
  omega

theorem xfBits_zero (e0 e : Nat) : xfBits 0 e0 e =
    if e = e0 then [0] else if e = e0 + 1 then [1, 0] else if e + 1 = e0 then [1, 1, 0] else [1, 1, 1] ++ fieldBits e := rfl

theorem xfBits_one (e0 e : Nat) : xfBits 1 e0 e =
    if e = e0 then [0, 0] else if e = e0 + 1 then [0, 1] else if e + 1 = e0 then [1, 0] else [1, 1] ++ fieldBits e := rfl

theorem xfBits_two (e0 e : Nat) : xfBits 2 e0 e = fieldBits e := rfl

theorem xfBits_lt {t : Nat} (ht : t < 3) (e0 e : Nat) : ∀ b ∈ xfBits t e0 e, b < 2 := by
  have happend (l : List Nat) (hl : ∀ b ∈ l, b < 2) : ∀ b ∈ l ++ fieldBits e, b < 2 :=
    fun b hb => (List.mem_append.mp hb).elim (hl b) (fieldBits_lt e b)
  obtain rfl | rfl | rfl : t = 0 ∨ t = 1 ∨ t = 2 := by omega
  · rw [xfBits_zero]
    split_ifs
    · decide
    · decide
    · decide
    · exact happend _ (by decide)
  · rw [xfBits_one]
    split_ifs
    · decide
    · decide
    · decide
    · exact happend _ (by decide)
  · exact fieldBits_lt e

section
variable {t e0 e plane j : Nat}

theorem xfExp_zero (he0 : e0 < 16) (he : e < 16) (h : planeReads plane j (xfBits 0 e0 e)) :
    xfExp 0 e0 plane j = some (e, (xfBits 0 e0 e).length) := by
  rw [xfBits_zero] at h ⊢
  by_cases hsame : e = e0
  · simp only [hsame, if_true, planeReads] at h ⊢
    simp [xfExp, h]
  by_cases hup : e = e0 + 1
  · have htop : e0 ≠ 15 := by omega
    rw [if_neg hsame, if_pos hup] at h ⊢
    obtain ⟨h0, h1, -⟩ := h
    simp [xfExp, h0, h1, hup, htop]
  by_cases hdown : e + 1 = e0
  · subst hdown
    simp only [hsame, hup, if_true, if_false, planeReads] at h ⊢
    simp [xfExp, h]
  · simp only [hsame, hup, hdown, if_false, planeReads_append, planeReads, List.length_cons, List.length_nil] at h ⊢
    obtain ⟨⟨h0, h1, h2, -⟩, hfield⟩ := h
    simp [xfExp, h0, h1, h2, planeField_of_reads he hfield, fieldBits]

theorem xfExp_one (he0 : e0 < 16) (he : e < 16) (h : planeReads plane j (xfBits 1 e0 e)) :
    xfExp 1 e0 plane j = some (e, (xfBits 1 e0 e).length) := by
  rw [xfBits_one] at h ⊢
  by_cases hsame : e = e0
  · simp only [hsame, if_true, planeReads] at h ⊢
    simp [xfExp, h]
  by_cases hup : e = e0 + 1
  · have htop : e0 ≠ 15 := by omega
    rw [if_neg hsame, if_pos hup] at h ⊢
    obtain ⟨h0, h1, -⟩ := h
    simp [xfExp, h0, h1, hup, htop]
  by_cases hdown : e + 1 = e0
  · subst hdown
    simp only [hsame, hup, if_true, if_false, planeReads] at h ⊢
    simp [xfExp, h]
  · simp only [hsame, hup, hdown, if_false, planeReads_append, planeReads, List.length_cons, List.length_nil] at h ⊢
    obtain ⟨⟨h0, h1, -⟩, hfield⟩ := h
    simp [xfExp, h0, h1, planeField_of_reads he hfield, fieldBits]

/-- The code that the encoder writes for an exponent is read as that exponent (R130, R133). -/
theorem xfExp_xfBits (ht : t < 3) (he0 : e0 < 16) (he : e < 16) (h : planeReads plane j (xfBits t e0 e)) :
    xfExp t e0 plane j = some (e, (xfBits t e0 e).length) := by
  obtain rfl | rfl | rfl : t = 0 ∨ t = 1 ∨ t = 2 := by omega
  · exact xfExp_zero he0 he h
  · exact xfExp_one he0 he h
  · rw [xfBits_two] at h
    exact congrArg (fun e => some (e, 4)) (planeField_of_reads he h)

end

theorem xfPlane_cons (t e0 c : Nat) (r : List Nat) : xfPlane t e0 (c :: r) = xfBits t e0 (e4exp c) ++ xfPlane t e0 r := rfl

theorem xfPlane_lt {t : Nat} (ht : t < 3) (e0 : Nat) (codes : List Nat) : ∀ b ∈ xfPlane t e0 codes, b < 2 := by
  intro b hb
  obtain ⟨l, hl, hbl⟩ := List.mem_flatten.mp hb
  obtain ⟨c, -, rfl⟩ := List.mem_map.mp hl
  exact xfBits_lt ht e0 _ b hbl

/-- A plane is read as the exponents of the codes it was made of. -/
theorem xfExps_xfPlane {t e0 plane j : Nat} {codes : List Nat} (ht : t < 3) (he0 : e0 < 16)
    (h : planeReads plane j (xfPlane t e0 codes)) :
    xfExps t e0 plane j codes.length = some (codes.map e4exp, j + (xfPlane t e0 codes).length) := by
  induction codes generalizing j with
  | nil => rfl
  | cons c r ih =>
    rw [xfPlane_cons] at h ⊢
    obtain ⟨hc, hr⟩ := planeReads_append.mp h
    rw [List.length_cons, xfExps, xfExp_xfBits ht he0 (e4exp_lt c) hc]
    simp only [ih hr, Option.map_some, List.map_cons, List.length_append, Nat.add_assoc]

/-! ## The choices of the encoder (R133) -/

theorem modeExp_lt (codes : List Nat) : modeExp codes < 16 := by
  unfold modeExp
  refine List.foldlRecOn (motive := (· < 16)) _ _ (by decide) fun b hb f hf => ?_
  split
  · exact (mem_upto 16 f).mp hf
  · exact hb

theorem xfTable_lt (e0 : Nat) (codes : List Nat) : xfTable e0 codes < 3 := by
  unfold xfTable
  simp only
  split_ifs
  · decide
  · decide
  · decide

theorem xfPlane_two_length (e0 : Nat) (codes : List Nat) : (xfPlane 2 e0 codes).length = 4 * codes.length := by
  induction codes with
  | nil => rfl
  | cons c r ih =>
    rw [xfPlane_cons, List.length_append, ih, xfBits_two, List.length_cons]
    simp only [fieldBits, List.length_cons, List.length_nil]
    omega

/-- The table chosen gives no longer a block than table 2. -/
theorem blockBytes_xfTable_le (e0 : Nat) (codes : List Nat) :
    blockBytes (xfPlane (xfTable e0 codes) e0 codes).length ≤ blockBytes (xfPlane 2 e0 codes).length := by
  unfold xfTable
  simp only
  split_ifs with h0 h1
  · exact h0.2
  · exact h1
  · exact le_rfl

theorem xfPlane_length_le {codes : List Nat} (h : codes.length = 64) (e0 : Nat) :
    (xfPlane (xfTable e0 codes) e0 codes).length ≤ 256 := by
  have hle := blockBytes_xfTable_le e0 codes
  rw [xfPlane_two_length, h] at hle
  unfold blockBytes at hle
  omega

/-! ## Blocks (R129, R131) -/

/-- The number of a block: its header, its nibbles, its plane. -/
def xfNumber (scale e0 t len nib plane : Nat) : Nat :=
  scale + e0 * 2 ^ 8 + t * 2 ^ 12 + len * 2 ^ 16 + nib * 2 ^ 32 + plane * 2 ^ 288

section
variable {scale e0 t len nib plane : Nat}

theorem xfHeader_xfNumber (hs : scale < 256) (he : e0 < 16) (ht : t < 3) (hl : len < 512) :
    xfHeader (xfNumber scale e0 t len nib plane % 2 ^ 32) = { scale := scale, e0 := e0, t := t, len := len, res := false } := by
  have hw : xfNumber scale e0 t len nib plane % 2 ^ 32 = scale + e0 * 2 ^ 8 + t * 2 ^ 12 + len * 2 ^ 16 := by
    unfold xfNumber
    omega
  have h14 : (scale + e0 * 2 ^ 8 + t * 2 ^ 12 + len * 2 ^ 16) / 2 ^ 14 % 4 = 0 := by omega
  have h25 : (scale + e0 * 2 ^ 8 + t * 2 ^ 12 + len * 2 ^ 16) / 2 ^ 25 = 0 := by omega
  unfold xfHeader
  rw [hw, h14, h25, XfHeader.mk.injEq]
  exact ⟨by omega, by omega, by omega, by omega, rfl⟩

theorem xfNumber_nibbles (hs : scale < 256) (he : e0 < 16) (ht : t < 3) (hl : len < 512) (hn : nib < 2 ^ 256) :
    xfNumber scale e0 t len nib plane / 2 ^ 32 % 2 ^ 256 = nib := by
  unfold xfNumber
  omega

theorem xfNumber_plane (hs : scale < 256) (he : e0 < 16) (ht : t < 3) (hl : len < 512) (hn : nib < 2 ^ 256) :
    xfNumber scale e0 t len nib plane / 2 ^ 288 = plane := by
  unfold xfNumber
  omega

end

/-- The sign, the exponent and the mantissa of a code, put together again. -/
theorem xfCode_of_nibble {nib i c : Nat} (hc : c < 256) (hn : nib / 16 ^ i % 16 = c / 128 % 2 * 8 + c % 8) :
    xfCode nib i (e4exp c) = c := by
  unfold xfCode e4exp
  simp only [hn]
  omega

section
variable {codes : List Nat} {scale : Nat}

theorem xfEncode_eq : xfEncode codes scale =
    leBytes (blockBytes (xfPlane (xfTable (modeExp codes) codes) (modeExp codes) codes).length)
      (xfNumber scale (modeExp codes) (xfTable (modeExp codes) codes)
        (xfPlane (xfTable (modeExp codes) codes) (modeExp codes) codes).length (nibblesNat codes)
        (bitsNat (xfPlane (xfTable (modeExp codes) codes) (modeExp codes) codes))) := rfl

/-- A number of a header, 64 nibbles and a plane fits the bytes of its block. -/
theorem xfNumber_lt {e0 t len nib plane : Nat} (hs : scale < 256) (he : e0 < 16) (ht : t < 3) (hl : len < 512)
    (hn : nib < 2 ^ 256) (hp : plane < 2 ^ len) : xfNumber scale e0 t len nib plane < 256 ^ blockBytes len := by
  have hpow : 256 ^ blockBytes len = 2 ^ 288 * 2 ^ (32 * ((len + 31) / 32)) := by
    rw [show (256 : Nat) = 2 ^ 8 from rfl, ← Nat.pow_mul, ← Nat.pow_add]
    congr 1
    unfold blockBytes
    omega
  have hplane : plane < 2 ^ (32 * ((len + 31) / 32)) :=
    hp.trans_le (Nat.pow_le_pow_right (by decide) (by omega))
  rw [hpow]
  generalize 2 ^ (32 * ((len + 31) / 32)) = k at hplane ⊢
  unfold xfNumber
  omega

/-- What a header, nibbles and the plane of 64 codes decode to (R129 to R132). -/
theorem xfDecode_xfNumber {e0 t : Nat} (h64 : codes.length = 64) (hcodes : ∀ c ∈ codes, c < 256) (hs : scale < 256)
    (he : e0 < 16) (ht : t < 3) (hl : (xfPlane t e0 codes).length ≤ 256) :
    xfDecode (xfNumber scale e0 t (xfPlane t e0 codes).length (nibblesNat codes) (bitsNat (xfPlane t e0 codes))) =
      some { scale := scale, codes := codes } := by
  have hbits := xfPlane_lt ht e0 codes
  have hn : nibblesNat codes < 2 ^ 256 := (nibblesNat_lt codes).trans_eq (by rw [h64]; norm_num)
  have hp := bitsNat_lt hbits
  have hexps := xfExps_xfPlane (j := 0) ht he (planeReads_bitsNat hbits)
  rw [h64] at hexps
  have hlen : (xfPlane t e0 codes).length < 512 := by omega
  have hmod : bitsNat (xfPlane t e0 codes) % 2 ^ (32 * (((xfPlane t e0 codes).length + 31) / 32)) =
      bitsNat (xfPlane t e0 codes) :=
    Nat.mod_eq_of_lt (hp.trans_le (Nat.pow_le_pow_right (by decide) (by omega)))
  have htop : bitsNat (xfPlane t e0 codes) / 2 ^ (xfPlane t e0 codes).length = 0 := Nat.div_eq_of_lt hp
  unfold xfDecode
  simp only [xfHeader_xfNumber hs he ht hlen, xfNumber_nibbles hs he ht hlen hn, xfNumber_plane hs he ht hlen hn, hmod, htop,
    hexps, Nat.zero_add, if_true]
  have h448 : ¬448 < (xfPlane t e0 codes).length := by omega
  have ht3 : t ≠ 3 := by omega
  rw [if_neg (by simp [h448, ht3])]
  have hlist : (upto 64).map (fun i => xfCode (nibblesNat codes) i ((codes.map e4exp).getD i 0)) = codes := by
    refine List.ext_getElem (by rw [List.length_map, upto_eq_range, List.length_range, h64]) fun i _ hi => ?_
    simp only [upto_eq_range, List.getElem_map, List.getElem_range]
    rw [List.getD_eq_getElem _ _ (by simpa using hi), List.getElem_map]
    refine xfCode_of_nibble (hcodes _ (List.getElem_mem hi)) ?_
    rw [nibblesNat_nibble, List.getD_eq_getElem _ _ hi]
  rw [hlist]

/-- The block of 64 codes and a scale, as a number: its header gives its length, and it decodes to them (R129 to R133). -/
theorem xfEncode_decode (h64 : codes.length = 64) (hcodes : ∀ c ∈ codes, c < 256) (hs : scale < 256) :
    (xfHeader (leNat (xfEncode codes scale) % 2 ^ 32)).bytes = (xfEncode codes scale).length ∧
      xfDecode (leNat (xfEncode codes scale)) = some { scale := scale, codes := codes } := by
  have he := modeExp_lt codes
  have ht := xfTable_lt (modeExp codes) codes
  have hl := xfPlane_length_le h64 (modeExp codes)
  have hp := bitsNat_lt (xfPlane_lt ht (modeExp codes) codes)
  have hn : nibblesNat codes < 2 ^ 256 := (nibblesNat_lt codes).trans_eq (by rw [h64]; norm_num)
  rw [xfEncode_eq, leBytes_length, leNat_leBytes, Nat.mod_eq_of_lt (xfNumber_lt hs he ht (by omega) hn hp),
    xfHeader_xfNumber hs he ht (by omega)]
  exact ⟨rfl, xfDecode_xfNumber h64 hcodes hs he ht hl⟩

end

end Sys2Proof.Machine
end

/-! PROOFS. XF8 blocks (O29), second part: XENC, XDEC and the obligation. -/

section
namespace Sys2Proof.Machine

/-! ## What a memory access of the scratchpad passes (R252, R261, R98) -/

theorem State.memGate_ungated {s : State} (h : s.ungated) : s.memGate = .ok () := by
  have hnone : (s.cx.reqs.find? fun q => q.gate) = none :=
    List.find?_eq_none.mpr fun q hq => by simp [h.1 q hq]
  unfold State.memGate
  rw [hnone, State.followed_of_behindDone h.2]
  rfl

theorem State.relWait_released {s : State} (h : s.released) : s.relWait = .ok () := by
  have hall : (s.cx.reqs.all fun q => decide (s.cx.epoch ≤ q.epoch) || q.performed 6) = true := by
    rw [List.all_eq_true]
    intro q hq
    rw [Bool.or_eq_true, decide_eq_true_eq]
    exact h q hq
  unfold State.relWait
  rw [hall]
  rfl

theorem State.streamUse_noStream {s : State} {r : Reg} (h : s.streamNamed r = none) (push : Bool) :
    s.streamUse r push = .ok () := by
  unfold State.streamUse
  rw [h]

theorem xfAddr_ok {a : DWord} {n : Nat} (halign : a.toNat % 4 = 0) (hfits : a.toNat + n ≤ 0x40000) :
    xfAddr a n = .ok a.toNat := by
  have hbound : decide (a.toNat + n - 1 ≤ 0x3FFFF) = true := decide_eq_true (by omega)
  unfold xfAddr spadCheck
  rw [hbound, decide_eq_true halign]
  rfl

/-- Of words that no byte of a range has lost, none is found lost. -/
theorem State.spadSound_of_sound {s : State} {a n : Nat} (h : s.sound a n) : s.spadSound a n = .ok () := by
  have hany : ((wordsOf a n).any fun w => s.me.spadLost.contains w) = false := by
    rw [List.any_eq_false]
    intro w hw
    unfold wordsOf at hw
    obtain ⟨i, hi, rfl⟩ := List.mem_map.mp hw
    have hlt := (mem_upto _ i).mp hi
    simpa using h (a / 8 + i) (by omega) (by omega)
  unfold State.spadSound
  rw [hany]
  rfl

theorem State.sound_mono {s : State} {a n m : Nat} (h : s.sound a n) (hm : m ≤ n) : s.sound a m :=
  fun w hlow hhigh => h w hlow (by omega)

/-! ## What it leaves -/

/-- A store of the issuing context changes bytes of its scratchpad and what is noted of their words. -/
theorem State.spadPutBytes_frame (s : State) (a : Nat) (b : List Byte) : (s.spadPutBytes a b).cx = s.cx ∧
    (s.spadPutBytes a b).me.spad = s.me.spad.write a b ∧ (s.spadPutBytes a b).me.full = s.me.full ∧
    (s.spadPutBytes a b).mem = s.mem := by
  unfold State.spadPutBytes
  simp only [State.cx_modMe, State.me_modMe]
  split
  · exact ⟨rfl, rfl, rfl, rfl⟩
  · exact ⟨rfl, rfl, rfl, rfl⟩

theorem State.putX_retire_me (s : State) (d : Reg) (v : DWord) (len : Nat) :
    ((s.putX d v).retire len).me.spad = s.me.spad ∧ ((s.putX d v).retire len).me.full = s.me.full := by
  rw [State.me_retire]
  unfold State.putX
  rw [State.me_modCx]
  exact ⟨rfl, rfl⟩

/-- A vector written and a scratchpad range read change the context's vector registers and its observations alone. -/
theorem State.putV_spadSeen (s : State) (d : Reg) (w : Vec) (a n : Nat) :
    ∃ o : List Rel → List Rel,
      (s.putV d w).spadSeen a n = s.modCx fun x => { x with v := vput x.v d w, obs := o x.obs } := by
  unfold State.spadSeen
  simp only
  generalize List.filterMap _ (wordsOf a n) = rels
  split
  · exact ⟨id, rfl⟩
  · exact ⟨fun l => l ++ rels.filter fun r => !l.contains r, s.modCx_modCx _ _⟩

theorem State.onlyCtx_modCx_retire (s : State) (f : Ctx → Ctx) (len : Nat) :
    s.onlyCtx ((s.modCx f).retire len) (f s.cx) := by
  obtain ⟨hmod, hcores, hme, hctx⟩ := State.sameButCtx_trans (s.modCx_sameButCtx f) (State.retire_sameButCtx _ len)
  refine ⟨State.sameBytes_trans (s.modCx_sameBytes f) (State.retire_sameBytes _ len), hmod, hcores, ?_, hctx, ?_⟩
  · rw [hme]
  · rw [State.cx_retire, State.cx_modCx]

theorem State.trapHere_sameBytes {s : State} (h : s.trapFree) (q : TrapInfo) : s.sameBytes (s.trapHere q) := by
  rw [State.trapHere_eq h]
  exact State.sameBytes_trans (s.modCx_sameBytes _) (State.modCore_sameBytes _ _ _ fun _ => rfl)

/-! ## Lanes -/

theorem ofLanes_getLsbD {w : Nat} (hw : 0 < w) (f : Nat → BitVec w) (n j : Nat) :
    (ofLanes w f n).getLsbD j = (decide (j < 1024) && decide (j < w * n) && (f (j / w)).getLsbD (j % w)) := by
  induction n with
  | zero => simp [ofLanes]
  | succ n ih =>
    have hsucc : w * (n + 1) = w * n + w := Nat.mul_succ w n
    rw [ofLanes, BitVec.getLsbD_or, ih, BitVec.getLsbD_shiftLeft, BitVec.getLsbD_setWidth]
    by_cases hlow : j < w * n
    · have hlt : j < w * (n + 1) := by omega
      simp [hlow, hlt]
    · by_cases hin : j < w * (n + 1)
      · have hdiv : j / w = n := by
          refine Nat.div_eq_of_lt_le ?_ ?_
          · rw [Nat.mul_comm]
            omega
          · rw [Nat.mul_comm]
            omega
        have hmod : j % w = j - w * n := by
          rw [Nat.mod_def, hdiv]
        have hsmall : j < 1024 → j - w * n < 1024 := fun h => by omega
        rw [hdiv, hmod]
        by_cases h1024 : j < 1024
        · simp [hlow, hin, h1024, hsmall h1024]
        · simp [h1024]
      · have hout : (f n).getLsbD (j - w * n) = false := BitVec.getLsbD_of_ge _ _ (by omega)
        simp [hlow, hin, hout]

theorem lane_ofLanes {w : Nat} (hw : 0 < w) (f : Nat → BitVec w) {n l : Nat} (hl : l < n) (hn : w * n ≤ 1024) :
    lane w l (ofLanes w f n) = f l := by
  have hsucc : w * (l + 1) ≤ w * n := Nat.mul_le_mul_left w hl
  rw [Nat.mul_succ] at hsucc
  apply BitVec.eq_of_getLsbD_eq
  intro i hi
  unfold lane
  rw [BitVec.getLsbD_setWidth, BitVec.getLsbD_ushiftRight, ofLanes_getLsbD hw, Nat.mul_add_div hw, Nat.div_eq_of_lt hi,
    Nat.mul_add_mod, Nat.mod_eq_of_lt hi]
  simp [hi, show w * l + i < 1024 by omega, show w * l + i < w * n by omega]

theorem ofLanes_getLsbD_of_ge {w : Nat} (hw : 0 < w) (f : Nat → BitVec w) {n j : Nat} (hj : w * n ≤ j) :
    (ofLanes w f n).getLsbD j = false := by
  rw [ofLanes_getLsbD hw, decide_eq_false (Nat.not_lt.mpr hj), Bool.and_false, Bool.false_and]

/-! ## XENC and XDEC (R306, R307) -/

/-- The block that XENC makes of a vector: the codes of lanes 0 to 63, with the scale in lane 64. -/
def blockOfVec (v : Vec) : List Byte := xfEncode ((List.range 64).map fun l => (lane 8 l v).toNat) (lane 8 64 v).toNat

/-- The vector that XDEC makes of a decoded block. -/
def vecOfBlock (q : XfBlock) : Vec := ofLanes 8 (fun i => BitVec.ofNat 8 (if i < 64 then q.codes.getD i 0 else q.scale)) 65

theorem vecOfBlock_code (q : XfBlock) {l : Nat} (hl : l < 64) : (lane 8 l (vecOfBlock q)).toNat = q.codes.getD l 0 % 256 := by
  unfold vecOfBlock
  rw [lane_ofLanes (by decide) _ (by omega) (by decide), if_pos hl]
  exact BitVec.toNat_ofNat _ 8

theorem vecOfBlock_scale (q : XfBlock) : (lane 8 64 (vecOfBlock q)).toNat = q.scale % 256 := by
  unfold vecOfBlock
  rw [lane_ofLanes (by decide) _ (by decide) (by decide), if_neg (by decide)]
  exact BitVec.toNat_ofNat _ 8

theorem vecOfBlock_zero (q : XfBlock) {j : Nat} (hj : 520 ≤ j) : (vecOfBlock q).getLsbD j = false :=
  ofLanes_getLsbD_of_ge (by decide) _ hj

section
variable {g : Guard} {d a b : Reg} {s : State}

theorem exec_xenc (hg : s.guardPasses g = true) (hgate : s.ungated) (hrel : s.released) (hb : s.regFree b = true)
    (hd : s.regFree d = true) (ha : s.noStreams [a]) (halign : (s.cx.xr b).toNat % 4 = 0)
    (hfits : (s.cx.xr b).toNat + 68 ≤ 0x40000) : exec (.xenc g d a b) s =
      .next (((s.spadPutBytes (s.cx.xr b).toNat (blockOfVec (s.cx.v.get a))).putX d
        (dw (blockOfVec (s.cx.v.get a)).length)).retire 4) := by
  show execXenc g d a b s = _
  unfold execXenc
  refine instr_ok hg ?_
  simp only [State.memGate_ungated hgate, State.relWait_released hrel, s.rdX_free b hb, s.regReady_free d hd,
    State.sources_single ha, xfAddr_ok halign hfits, ok_bind, valOf_single, upto_eq_range]
  rfl

/-- What XDEC does with what the `n` bytes at an address decode to. -/
def State.takeBlock (s : State) (d : Reg) (x : DWord) (n : Nat) : Option XfBlock → Act
  | none => fault 0x0E x 128
  | some q => .ok ((s.putV d (vecOfBlock q)).spadSeen x.toNat n)

theorem exec_xdec {n : Nat} (hg : s.guardPasses g = true) (hgate : s.ungated) (ha : s.regFree a = true)
    (hd : s.streamNamed d = none) (halign : (s.cx.xr a).toNat % 4 = 0) (hfits : (s.cx.xr a).toNat + 36 ≤ 0x40000)
    (hn : (xfHeader (s.me.spad.readNat (s.cx.xr a).toNat 4)).bytes = n) (hend : (s.cx.xr a).toNat + n ≤ 0x40000)
    (hsound : s.sound (s.cx.xr a).toNat n) : exec (.xdec g d a) s =
      s.finish 4 (s.takeBlock d (s.cx.xr a) n (xfDecode (s.me.spad.readNat (s.cx.xr a).toNat n))) := by
  have hn4 : 4 ≤ n := by
    rw [← hn]
    unfold XfHeader.bytes
    omega
  show execXdec g d a s = _
  unfold execXdec instr
  rw [if_pos hg]
  refine congrArg (s.finish 4) ?_
  simp only [State.memGate_ungated hgate, State.streamUse_noStream hd, s.rdX_free a ha, xfAddr_ok halign hfits, ok_bind,
    State.spadNat, hn, State.spadSound_of_sound (State.sound_mono hsound hn4), State.spadSound_of_sound hsound,
    decide_eq_true hend, check_true]
  cases xfDecode (s.me.spad.readNat (s.cx.xr a).toNat n) with
  | none => rfl
  | some q =>
    unfold State.takeBlock State.writeVec
    rw [hd]
    rfl

end

/-- Settles O29: what the encoder writes the decoder reads back (`xfEncode_decode`), and the two instructions store the one and
read the other. -/
theorem xfBlockResults : Obligations.XfBlockResults := by
  unfold Obligations.XfBlockResults
  refine ⟨fun codes scale h64 hcodes hs => xfEncode_decode h64 hcodes hs, fun g d a b s hg hgate hrel hready hstreams hwf => ?_⟩
  have ha : s.regFree a = true := hready a (by simp)
  have hb : s.regFree b = true := hready b (by simp)
  have hd : s.regFree d = true := hready d (by simp)
  have hda : s.streamNamed d = none := hstreams d (by simp)
  have haa : s.noStreams [a] := fun r hr => hstreams r (by simpa using Or.inl (List.mem_singleton.mp hr))
  refine ⟨fun halign hfits => ?_, fun q halign hfits hend hsound hdec => ?_, fun htrap halign hfits hend hsound hdec => ?_⟩
  · obtain ⟨hcx, hspad, hfull, hmem⟩ := s.spadPutBytes_frame (s.cx.xr b).toNat (blockOfVec (s.cx.v.get a))
    obtain ⟨hspad', hfull'⟩ := (s.spadPutBytes (s.cx.xr b).toNat (blockOfVec (s.cx.v.get a))).putX_retire_me d
      (dw (blockOfVec (s.cx.v.get a)).length) 4
    refine ⟨_, exec_xenc hg hgate hrel hb hd haa halign hfits, ?_, ?_, ?_, hfull'.trans hfull, hmem, fun i hi => ?_,
      fun m hm => ?_⟩
    · rw [State.cx_retire, State.cx_putX, hcx, Ctx.setX_pc]
      rfl
    · rw [State.cx_retire, State.cx_putX, hcx]
      rfl
    · rw [State.cx_retire, State.cx_putX, hcx, Ctx.setX_v]
    · rw [hspad', hspad]
      exact Memory.get_write_in _ _ _ _ hwf hi
    · rw [hspad', hspad]
      exact Memory.get_write_out _ _ _ _ hm
  · obtain ⟨o, ho⟩ := s.putV_spadSeen d (vecOfBlock q) (s.cx.xr a).toNat
      (xfHeader (s.me.spad.readNat (s.cx.xr a).toNat 4)).bytes
    have hexec := exec_xdec hg hgate ha hda halign hfits rfl hend hsound
    rw [hdec] at hexec
    unfold State.takeBlock at hexec
    simp only [ho, State.finish] at hexec
    set f : Ctx → Ctx := fun x => { x with v := vput x.v d (vecOfBlock q), obs := o x.obs }
    have hcx := ((s.modCx f).cx_retire 4).trans (by rw [State.cx_modCx])
    have hv : ((s.modCx f).retire 4).cx.v.get d = vecOfBlock q := by
      rw [hcx]
      exact vget_vput_self _ _ _
    refine ⟨_, hexec, by rw [hcx]; rfl, ?_, fun l hl => ?_, ?_, fun j hj => ?_, fun r hr => ?_⟩
    · have honly := s.onlyCtx_modCx_retire f 4
      rw [hcx]
      exact honly
    · rw [hv]
      exact vecOfBlock_code q hl
    · rw [hv]
      exact vecOfBlock_scale q
    · rw [hv]
      exact vecOfBlock_zero q hj
    · rw [hcx]
      exact vget_vput_ne _ _ _ _ hr
  · have hexec := exec_xdec hg hgate ha hda halign hfits rfl hend hsound
    rw [hdec] at hexec
    obtain ⟨htraps, -⟩ := State.trapHere_trapsTo htrap ⟨0x0E, s.cx.xr a, 128⟩
    refine ⟨_, hexec, htraps, State.trapHere_sameBytes htrap _, ?_⟩
    obtain ⟨-, -, -, -, -, -, -, hcx⟩ := htraps
    have hv := congrArg Ctx.v hcx
    exact hv

end Sys2Proof.Machine
end

/-! PROOFS. The matrix slices (O46), first part: gangs, one step of a gang, its reads and its faults. -/

section
namespace Sys2Proof.Machine

/-! ## The cores of a gang (R140) -/

section
variable {s : State} {c : CoreId}

theorem gangSize_dvd (v : BitVec 3) : 2 ^ v.toNat ∣ 8192 :=
  (Nat.pow_dvd_pow 2 (show v.toNat ≤ 13 by have := v.isLt; omega)).trans (by decide)

theorem mkCore_inj {a b : Nat} (ha : a < 8192) (hb : b < 8192) (h : mkCore a = mkCore b) : a = b := by
  have hval : a % 8192 = b % 8192 := congrArg Fin.val h
  rwa [Nat.mod_eq_of_lt ha, Nat.mod_eq_of_lt hb] at hval

theorem State.gang_nodup (s : State) (c : CoreId) : (s.gang c).Nodup := by
  have hbound : ∀ i < 2 ^ (s.core c).glog.toNat,
      c.val / 2 ^ (s.core c).glog.toNat * 2 ^ (s.core c).glog.toNat + i < 8192 := by
    intro i hi
    obtain ⟨m, hm⟩ := gangSize_dvd (s.core c).glog
    have hc : c.val / 2 ^ (s.core c).glog.toNat < m :=
      Nat.div_lt_of_lt_mul (by rw [← hm]; exact c.isLt)
    calc c.val / 2 ^ (s.core c).glog.toNat * 2 ^ (s.core c).glog.toNat + i
        < (c.val / 2 ^ (s.core c).glog.toNat + 1) * 2 ^ (s.core c).glog.toNat := by rw [Nat.succ_mul]; omega
      _ ≤ m * 2 ^ (s.core c).glog.toNat := Nat.mul_le_mul_right _ hc
      _ = 8192 := by rw [hm, Nat.mul_comm]
  unfold State.gang
  refine List.Nodup.map_on (fun i hi j hj heq => ?_) (upto_nodup _)
  have := mkCore_inj (hbound i ((mem_upto _ _).mp hi)) (hbound j ((mem_upto _ _).mp hj)) heq
  omega

theorem State.mem_gang_self (s : State) (c : CoreId) : c ∈ s.gang c := by
  unfold State.gang
  refine List.mem_map.mpr ⟨c.val % 2 ^ (s.core c).glog.toNat, (mem_upto _ _).mpr (Nat.mod_lt _ (Nat.two_pow_pos _)), ?_⟩
  rw [Nat.div_add_mod', mkCore_val]

/-- A gang of one core is that core. -/
theorem State.gang_single (h : (s.core c).glog = 0) : s.gang c = [c] := by
  unfold State.gang
  rw [h]
  show [mkCore (c.val / 1 * 1 + 0)] = [c]
  rw [Nat.div_one, Nat.mul_one, Nat.add_zero, mkCore_val]

end

/-- What comes of each core, where every step of a fold changes one core of its own. -/
theorem foldl_ownCores {α : Type} {key : α → CoreId} {f : State → α → State} {s : State} {R : α → Core → Prop} {l : List α}
    (hnodup : (l.map key).Nodup)
    (hf : ∀ a ∈ l, ∀ t : State, t.core (key a) = s.core (key a) →
      R a ((f t a).core (key a)) ∧ ∀ d, d ≠ key a → (f t a).core d = t.core d) :
    ∀ a ∈ l, R a ((l.foldl f s).core (key a)) := by
  suffices hall : ∀ u : State, (∀ a ∈ l, u.core (key a) = s.core (key a)) →
      (∀ a ∈ l, R a ((l.foldl f u).core (key a))) ∧ ∀ d, d ∉ l.map key → (l.foldl f u).core d = u.core d from
    (hall s fun _ _ => rfl).1
  induction l with
  | nil => exact fun u _ => ⟨fun a ha => absurd ha List.not_mem_nil, fun _ _ => rfl⟩
  | cons a r ih =>
    intro u hu
    obtain ⟨hout, hr⟩ := List.nodup_cons.mp hnodup
    obtain ⟨hR, hrest⟩ := hf a List.mem_cons_self u (hu a List.mem_cons_self)
    have hne : ∀ b ∈ r, key b ≠ key a := fun b hb he => hout (he ▸ List.mem_map_of_mem hb)
    obtain ⟨hin, hothers⟩ := ih hr (fun b hb => hf b (List.mem_cons_of_mem _ hb)) (f u a) fun b hb => by
      rw [hrest _ (hne b hb), hu b (List.mem_cons_of_mem _ hb)]
    rw [List.foldl_cons]
    refine ⟨fun b hb => ?_, fun d hd => ?_⟩
    · obtain rfl | hb := List.mem_cons.mp hb
      · rw [hothers _ hout]
        exact hR
      · exact hin b hb
    · obtain ⟨hda, hdr⟩ := not_or.mp (mt List.mem_cons.mpr hd)
      rw [hothers d hdr, hrest d hda]

/-! ## The barrier (R146) -/

/-- The run of an operation that has passed its barrier, with the mismatch that its core has found. -/
def State.barrierRun (s : State) (c : CoreId) (p : MmaPost) : MmaRun :=
  { step := 0, start := (s.core c).accs.get p.n, hist := [], latch := [], fault := (s.mismatch c).map fun i => (0x0D, i) }

theorem State.passBarrier_mRun {s : State} {c : CoreId} {p : MmaPost} {rest : List MmaPost} (hmq : (s.core c).mq = p :: rest) :
    ((s.passBarrier c).core c).mRun = some (s.barrierRun c p) := by
  unfold State.passBarrier
  rw [hmq]
  exact congrArg Core.mRun (State.core_modCore_self s c _)

/-- A barrier that completes leaves of the core all but its run (R146). -/
theorem exec_gangBarrierComplete {s : State} {c : CoreId} (hopen : s.barrierOpen c = true) :
    ∃ t, exec (.gangBarrierComplete c) s = .next t ∧
      t.core c = { s.core c with mRun := ((s.passBarrier c).core c).mRun } := by
  have htry : s.tryBarrier c = some (((s.gang c).filter fun d => s.barrierOpen d).foldl (fun t d =>
      t.modCore d fun k => { k with mRun := ((s.passBarrier d).core d).mRun }) s) := by
    unfold State.tryBarrier
    rw [if_pos hopen]
  refine ⟨_, happen_some s htry, ?_⟩
  refine foldl_ownCores (key := id) (R := fun d k => k = { s.core d with mRun := ((s.passBarrier d).core d).mRun })
    (by rw [List.map_id]; exact (s.gang_nodup c).filter _) (fun d _ t ht => ⟨?_, fun e he => ?_⟩) c
    (List.mem_filter.mpr ⟨s.mem_gang_self c, hopen⟩)
  · rw [id_eq, State.core_modCore_self]
    exact congrArg (fun k : Core => { k with mRun := ((s.passBarrier d).core d).mRun }) ht
  · exact State.core_modCore_ne _ _ _ _ he

/-! ## The runners of a step (R147) -/

section
variable {s : State} {c : CoreId} {r : MmaRun}

theorem State.runner?_some {pos step : Nat} {d : CoreId} {q : Runner} (h : s.runner? pos step d = some q) :
    q.core = d ∧ (s.core d).mRun = some q.run ∧ q.run.step = step := by
  unfold State.runner? at h
  split at h
  · next hrun =>
    split at h
    · next hcond =>
      obtain ⟨-, hstep, -⟩ := hcond
      obtain rfl := Option.some.inj h
      exact ⟨rfl, hrun, hstep⟩
    · exact absurd h (by simp)
  · exact absurd h (by simp)

theorem State.mem_runners {step : Nat} {q : Runner} (h : q ∈ s.runners c step) :
    (s.core q.core).mRun = some q.run ∧ q.run.step = step := by
  obtain ⟨d, -, hd⟩ := List.mem_filterMap.mp h
  obtain ⟨rfl, hrun, hstep⟩ := State.runner?_some hd
  exact ⟨hrun, hstep⟩

theorem State.runners_nodup (s : State) (c : CoreId) (step : Nat) : ((s.runners c step).map Runner.core).Nodup := by
  unfold State.runners
  rw [List.map_filterMap]
  refine (s.gang_nodup c).filterMap fun d e x hd he => ?_
  obtain ⟨q, hq, rfl⟩ := Option.map_eq_some_iff.mp hd
  obtain ⟨o, ho, heq⟩ := Option.map_eq_some_iff.mp he
  rw [← (State.runner?_some hq).1, ← (State.runner?_some ho).1, heq]

/-- What the core of gang index `j` reads in a step (R152). -/
def State.stepRead (s : State) (c : CoreId) (r : MmaRun) (j : Nat) : Except Byte (List (Nat × Nat) × List (Nat × Nat)) :=
  match (s.runners c r.step)[j]? with
  | some q => (s.core q.core).readStep q.post q.run j (s.gang c).length (s.freeCtr + j * wordCount)
  | none => .error 0x0E

/-- The reads of all cores of a gang in a step. -/
def State.stepReads (s : State) (c : CoreId) (r : MmaRun) : List (Except Byte (List (Nat × Nat) × List (Nat × Nat))) :=
  (upto (s.gang c).length).map (s.stepRead c r)

theorem State.stepReads_getElem? {j : Nat} (hj : j < (s.gang c).length) : (s.stepReads c r)[j]? = some (s.stepRead c r j) := by
  unfold State.stepReads
  rw [upto_eq_range, List.getElem?_map, List.getElem?_range hj, Option.map_some]

/-- The core of a gang index in a step. -/
def State.stepCore (s : State) (c : CoreId) (step j : Nat) : CoreId := ((s.runners c step)[j]?.map Runner.core).getD c

theorem State.stepCore_nodup {step : Nat} (hlen : (s.runners c step).length = (s.gang c).length) :
    ((upto (s.gang c).length).map (s.stepCore c step)).Nodup := by
  have hlist : (upto (s.gang c).length).map (s.stepCore c step) = (s.runners c step).map Runner.core := by
    refine List.ext_getElem (by simp [upto_eq_range, hlen]) fun i h1 h2 => ?_
    have hi : i < (s.runners c step).length := by simpa using h2
    simp [upto_eq_range, State.stepCore, List.getElem?_eq_getElem hi]
  rw [hlist]
  exact s.runners_nodup c step

/-! ## The lowest index with a fault (R153) -/

theorem firstError_none {α : Type} {l : List (Except Byte α)} (h : ∀ i < l.length, ∃ x, l[i]? = some (.ok x)) :
    firstError l = none := by
  unfold firstError
  rw [List.findSome?_eq_none_iff]
  intro i hi
  obtain ⟨x, hx⟩ := h i ((mem_upto _ _).mp hi)
  rw [hx]

/-- Of the numbers from 0 on, the first at which a function gives a value. -/
theorem findSome?_upto {β : Type} {f : Nat → Option β} {b n : Nat} {y : β} (hlt : b < n) (hb : f b = some y)
    (hbelow : ∀ i < b, f i = none) : (upto n).findSome? f = some y := by
  induction n with
  | zero => exact absurd hlt (Nat.not_lt_zero b)
  | succ n ih =>
    rw [upto, List.findSome?_append]
    by_cases hbn : b < n
    · rw [ih hbn, Option.some_or]
    · obtain rfl : b = n := by omega
      have hnone : (upto b).findSome? f = none :=
        List.findSome?_eq_none_iff.mpr fun i hi => hbelow i ((mem_upto _ _).mp hi)
      rw [hnone, Option.none_or, List.findSome?_singleton, hb]

theorem firstError_some {α : Type} {l : List (Except Byte α)} {b : Nat} {cause : Byte} (hb : l[b]? = some (.error cause))
    (h : ∀ i < b, ∃ x, l[i]? = some (.ok x)) : firstError l = some (b, cause) := by
  obtain ⟨hlt, -⟩ := List.getElem?_eq_some_iff.mp hb
  unfold firstError
  refine findSome?_upto hlt ?_ fun i hi => ?_
  · simp only [hb]
  · obtain ⟨x, hx⟩ := h i hi
    simp only [hx]

end

end Sys2Proof.Machine
end

/-! PROOFS. The matrix slices (O46), second part: the outcome of a step. -/

section
namespace Sys2Proof.Machine

/-! ## A step on every core of a gang (R147, R153) -/

section
variable {s : State} {c : CoreId} {r : MmaRun}

/-- A step that records a fault on the core of a gang index. -/
def State.faultAt (s : State) (c : CoreId) (r : MmaRun) (b : Nat) (cause : Byte) (t : State) (i : Nat) : State :=
  match (s.runners c r.step)[i]? with
  | some q => t.recordFault q.core (if i = b then cause else 0x0D) b
  | none => t

/-- The gang index whose latched B the core of index `j` takes. -/
def State.peer (s : State) (c : CoreId) (r : MmaRun) (j : Nat) : Nat := (j + r.step) % (s.gang c).length

/-- A step taken on the core of a gang index. -/
def State.stepAt (s : State) (c : CoreId) (r : MmaRun) (t : State) (i : Nat) : State :=
  match (s.runners c r.step)[i]?, (s.stepReads c r).getD i (.error 0x0E) with
  | some q, .ok (a, own) =>
    let b := match (s.stepReads c r).getD (s.peer c r i) (.error 0x0E) with
      | .ok p => p.2
      | .error _ => []
    let sB := match (s.runners c r.step)[s.peer c r i]? with
      | some p => p.post.sB
      | none => 0
    t.takeStep q (accStep q.post.fmt (scaleOf q.post.fmt q.post.sA) (scaleOf q.post.fmt sB) a b
      ((s.core q.core).accs.get q.post.n)) own
  | _, _ => t

/-- The state in which a step's free values are drawn. -/
def State.stepDrawn (s : State) (c : CoreId) : State := { s with freeCtr := s.freeCtr + (s.gang c).length * wordCount }

/-- A step of a gang whose cores all stand at it. -/
structure State.StepReady (s : State) (c : CoreId) (r : MmaRun) : Prop where
  run   : (s.core c).mRun = some r
  fault : r.fault = none
  step  : r.step < (s.gang c).length
  all   : (s.runners c r.step).length = (s.gang c).length

theorem State.tryMma_ready (h : s.StepReady c r) : s.tryMma c = match firstError (s.stepReads c r) with
    | some (b, cause) => some ((upto (s.gang c).length).foldl (s.faultAt c r b cause) (s.stepDrawn c))
    | none => some ((upto (s.gang c).length).foldl (s.stepAt c r) (s.stepDrawn c)) := by
  obtain ⟨hrun, hfault, hstep, hall⟩ := h
  have hcond : ¬(r.fault.isSome || decide ((s.gang c).length ≤ r.step) ||
      decide ((s.runners c r.step).length ≠ (s.gang c).length)) = true := by
    simp [hfault, hstep, hall]
  unfold State.tryMma
  rw [hrun]
  exact if_neg hcond

theorem State.stepReads_length : (s.stepReads c r).length = (s.gang c).length := by
  unfold State.stepReads
  rw [List.length_map, upto_eq_range, List.length_range]

theorem State.stepReads_getD {j : Nat} {x : Except Byte (List (Nat × Nat) × List (Nat × Nat))} (hj : j < (s.gang c).length)
    (hx : s.stepRead c r j = x) : (s.stepReads c r).getD j (.error 0x0E) = x := by
  rw [List.getD_eq_getElem?_getD, State.stepReads_getElem? hj, hx, Option.getD_some]

theorem State.stepCore_of_runner {step j : Nat} {q : Runner} (hq : (s.runners c step)[j]? = some q) :
    s.stepCore c step j = q.core := by
  unfold State.stepCore
  rw [hq]
  rfl

theorem State.StepReady.runner (h : s.StepReady c r) {j : Nat} (hj : j < (s.gang c).length) :
    ∃ q, (s.runners c r.step)[j]? = some q :=
  ⟨_, List.getElem?_eq_getElem (by rw [h.all]; exact hj)⟩

theorem State.StepReady.lt_gang (h : s.StepReady c r) {j : Nat} {q : Runner} (hq : (s.runners c r.step)[j]? = some q) :
    j < (s.gang c).length := by
  obtain ⟨hlt, -⟩ := List.getElem?_eq_some_iff.mp hq
  rw [← h.all]
  exact hlt

theorem State.StepReady.peer_lt (h : s.StepReady c r) (j : Nat) : s.peer c r j < (s.gang c).length :=
  Nat.mod_lt _ (Nat.zero_lt_of_lt h.step)

/-- The elements of a core's accumulator after a step: those of R138 for its chunk of A and its peer's B. -/
def State.stepElems (s : State) (q o : Runner) (x y : List (Nat × Nat) × List (Nat × Nat)) : Vector (LaneRes 32) 256 :=
  accStep q.post.fmt (scaleOf q.post.fmt q.post.sA) (scaleOf q.post.fmt o.post.sB) x.1 y.2 ((s.core q.core).accs.get q.post.n)

theorem State.stepAt_eq (h : s.StepReady c r) (t : State) {j : Nat} {q o : Runner} {x y : List (Nat × Nat) × List (Nat × Nat)}
    (hq : (s.runners c r.step)[j]? = some q) (ho : (s.runners c r.step)[s.peer c r j]? = some o)
    (hx : s.stepRead c r j = .ok x) (hy : s.stepRead c r (s.peer c r j) = .ok y) :
    s.stepAt c r t j = t.takeStep q (s.stepElems q o x y) x.2 := by
  unfold State.stepAt
  simp only [hq, ho, State.stepReads_getD (h.lt_gang hq) hx, State.stepReads_getD (h.peer_lt j) hy]
  rfl

theorem State.takeStep_core (t : State) (q : Runner) (res : Vector (LaneRes 32) 256) (latch : List (Nat × Nat)) :
    (∃ v, ((t.takeStep q res latch).core q.core).mRun = some v ∧ v.step = q.run.step + 1) ∧
      ((t.takeStep q res latch).core q.core).accs.get q.post.n = Vector.ofFn (fun e => (res.get e).1) ∧
      ∀ d, d ≠ q.core → (t.takeStep q res latch).core d = t.core d := by
  unfold State.takeStep
  rw [State.core_modCore_self]
  exact ⟨⟨_, rfl, rfl⟩, vget_vput_self _ _ _, fun _ hd => State.core_modCore_ne _ _ _ _ hd⟩

/-- What a step leaves of the core of gang index `j` (R138, R147). -/
def State.Stepped (s : State) (c : CoreId) (r : MmaRun) (j : Nat) (k : Core) : Prop :=
  ∀ (q o : Runner) (x y : List (Nat × Nat) × List (Nat × Nat)), (s.runners c r.step)[j]? = some q →
    (s.runners c r.step)[s.peer c r j]? = some o → s.stepRead c r j = .ok x → s.stepRead c r (s.peer c r j) = .ok y →
    (∃ v, k.mRun = some v ∧ v.step = r.step + 1) ∧
      k.accs.get q.post.n = Vector.ofFn fun e => ((s.stepElems q o x y).get e).1

/-- When every core reads its operands, each takes the step. -/
theorem exec_mmaStep_of_reads (h : s.StepReady c r) (hreads : ∀ j, j < (s.gang c).length → ∃ x, s.stepRead c r j = .ok x) :
    ∃ t, exec (.mmaStep c) s = .next t ∧
      ∀ j q, (s.runners c r.step)[j]? = some q → s.Stepped c r j (t.core q.core) := by
  have hnone : firstError (s.stepReads c r) = none := firstError_none fun i hi => by
    have hi : i < (s.gang c).length := hi.trans_eq State.stepReads_length
    obtain ⟨x, hx⟩ := hreads i hi
    exact ⟨x, by rw [State.stepReads_getElem? hi, hx]⟩
  have htry := State.tryMma_ready h
  rw [hnone] at htry
  refine ⟨_, happen_some s htry, fun j q hq => ?_⟩
  rw [← State.stepCore_of_runner hq]
  refine foldl_ownCores (s := s.stepDrawn c) (key := s.stepCore c r.step) (R := s.Stepped c r) (State.stepCore_nodup h.all)
    (fun i hi t _ => ?_) j ((mem_upto _ _).mpr (h.lt_gang hq))
  have hi := (mem_upto _ _).mp hi
  obtain ⟨q, hq⟩ := h.runner hi
  obtain ⟨o, ho⟩ := h.runner (h.peer_lt i)
  obtain ⟨x, hx⟩ := hreads i hi
  obtain ⟨y, hy⟩ := hreads _ (h.peer_lt i)
  obtain ⟨hrun, haccs, hothers⟩ := t.takeStep_core q (s.stepElems q o x y) x.2
  rw [State.stepAt_eq h t hq ho hx hy, State.stepCore_of_runner hq]
  refine ⟨fun q' o' x' y' hq' ho' hx' hy' => ?_, hothers⟩
  obtain rfl := Option.some.inj (hq.symm.trans hq')
  obtain rfl := Option.some.inj (ho.symm.trans ho')
  obtain rfl := Except.ok.inj (hx.symm.trans hx')
  obtain rfl := Except.ok.inj (hy.symm.trans hy')
  rw [← (State.mem_runners (List.mem_of_getElem? hq)).2]
  exact ⟨hrun, haccs⟩

/-- What a step that core `b` ends with a fault leaves of the core of gang index `j` (R153). -/
def State.Faulted (s : State) (c : CoreId) (r : MmaRun) (b : Nat) (cause : Byte) (j : Nat) (k : Core) : Prop :=
  ∀ q : Runner, (s.runners c r.step)[j]? = some q → k.accs = (s.core q.core).accs ∧
    k.mRun = some { q.run with fault := some (if j = b then cause else 0x0D, b) }

/-- The first core that cannot read its operands ends the step on every core, with its cause there and 0x0D on the others. -/
theorem exec_mmaStep_of_error (h : s.StepReady c r) {b : Nat} {cause : Byte} (hb : b < (s.gang c).length)
    (herror : s.stepRead c r b = .error cause) (hreads : ∀ j, j < b → ∃ x, s.stepRead c r j = .ok x) :
    ∃ t, exec (.mmaStep c) s = .next t ∧
      ∀ j q, (s.runners c r.step)[j]? = some q → s.Faulted c r b cause j (t.core q.core) := by
  have hfirst : firstError (s.stepReads c r) = some (b, cause) :=
    firstError_some (by rw [State.stepReads_getElem? hb, herror]) fun i hi => by
      obtain ⟨x, hx⟩ := hreads i hi
      exact ⟨x, by rw [State.stepReads_getElem? (hi.trans hb), hx]⟩
  have htry := State.tryMma_ready h
  rw [hfirst] at htry
  refine ⟨_, happen_some s htry, fun j q hq => ?_⟩
  rw [← State.stepCore_of_runner hq]
  refine foldl_ownCores (s := s.stepDrawn c) (key := s.stepCore c r.step) (R := s.Faulted c r b cause)
    (State.stepCore_nodup h.all) (fun i hi t ht => ?_) j ((mem_upto _ _).mpr (h.lt_gang hq))
  obtain ⟨q, hq⟩ := h.runner ((mem_upto _ _).mp hi)
  have hrun := (State.mem_runners (List.mem_of_getElem? hq)).1
  rw [State.stepCore_of_runner hq] at ht ⊢
  have ht : t.core q.core = s.core q.core := ht
  unfold State.faultAt State.recordFault
  simp only [hq, State.core_modCore_self, ht, hrun, Option.map_some]
  refine ⟨fun q' hq' => ?_, fun _ hd => State.core_modCore_ne _ _ _ _ hd⟩
  obtain rfl := Option.some.inj (hq.symm.trans hq')
  exact ⟨rfl, rfl⟩

end

end Sys2Proof.Machine
end

/-! PROOFS. The matrix slices (O46), third part: an INT8 step of a gang of one core. -/

section
namespace Sys2Proof.Machine

/-! ## Integer elements (R118, R138) -/

/-- A clamped integer, as an integer. -/
theorem clampS_toInt (i : Int) : ((clampS 32 i).1).toInt = max (-(2 ^ 31)) (min (2 ^ 31 - 1) i) := by
  unfold clampS
  simp only [Nat.reduceSub]
  split_ifs with hlow hhigh
  · have hlo : (BitVec.ofInt 32 (-(2 ^ 31))).toInt = -(2 ^ 31) := by decide
    rw [hlo]
    omega
  · have hhi : (BitVec.ofInt 32 (2 ^ 31 - 1)).toInt = 2 ^ 31 - 1 := by decide
    rw [hhi]
    omega
  · rw [BitVec.toInt_ofInt, Int.bmod_eq_of_le (by omega) (by omega)]
    omega

theorem FVal.scaled_ofInt (i : Int) : (FVal.ofInt i).scaled 0 = i := by
  unfold FVal.ofInt FVal.scaled
  simp only [Int.sub_self, Int.toNat_zero, pow_zero, mul_one, decide_eq_true_eq]
  split
  · omega
  · omega

/-- An element of an integer accumulator after a step: the exact sum of products, clamped. -/
theorem intElement_toInt (f g : Nat → Int) (acc : Word) :
    (intElement ((upto 16).map fun i => FVal.ofInt (f i)) ((upto 16).map fun i => FVal.ofInt (g i)) acc).1.toInt =
      max (-(2 ^ 31)) (min (2 ^ 31 - 1) (acc.toInt + ((List.range 16).map fun i => f i * g i).foldl (· + ·) 0)) := by
  unfold intElement clampLane
  rw [clampS_toInt, List.zipWith_map, List.zipWith_self, upto_eq_range]
  simp only [FVal.scaled_ofInt]

/-! ## Operands of bytes -/

/-- 256 elements of one byte each, as they stand in a scratchpad. -/
def byteChunk (m : Memory) (a : Nat) : List (Nat × Nat) := (upto 256).map fun e => ((m.get (a + e)).toNat, 127)

/-- While a scratchpad is as it was at posting, an operation reads its bytes (R152). -/
theorem eitherRead_same (m : Memory) (free a : Nat) : eitherRead m m free a 1 = (m.get a).toNat := by
  show leNat [eitherByte m m free (a + 0)] = _
  unfold eitherByte
  rw [ite_self]
  simp [leNat]

theorem denseChunk_bytes (m : Memory) (free a : Nat) : denseChunk (eitherRead m m free) a 1 = byteChunk m a := by
  unfold denseChunk byteChunk
  simp only [eitherRead_same, Nat.one_mul]

theorem byteChunk_elem (m : Memory) (a i : Nat) (z : FVal) (hi : i < 256) :
    ((byteChunk m a).map (elemVal .i8)).toArray.getD i z = FVal.ofInt (m.get (a + i)).toInt := by
  have hget : ((byteChunk m a).map (elemVal .i8))[i]? = some (FVal.ofInt (m.get (a + i)).toInt) := by
    unfold byteChunk
    rw [upto_eq_range, List.map_map, List.getElem?_map, List.getElem?_range hi]
    simp [elemVal]
  rw [Array.getD_eq_getD_getElem?, List.getElem?_toArray, hget, Option.getD_some]

theorem Core.lostIn_nil {k : Core} (h : k.spadLost = []) (l : List (Nat × Nat)) : k.lostIn l = false := by
  unfold Core.lostIn
  rw [h]
  simp

/-- The first step of an INT8 operation on a gang of one core reads the bytes of both operands. -/
theorem Core.readStep_bytes {k : Core} {p : MmaPost} {r : MmaRun} (hfmt : p.fmt = .i8) (hstep : r.step = 0)
    (hsnap : p.snap = k.spad) (hlost : k.spadLost = []) (free : Nat) :
    k.readStep p r 0 1 free = .ok (byteChunk k.spad p.xa.toNat, byteChunk k.spad p.xb.toNat) := by
  unfold Core.readStep
  simp only [Core.lostIn_nil hlost, Bool.false_eq_true, if_false, hfmt, hstep, if_true, hsnap, chunkA, chunkB, denseChunk_bytes,
    Nat.mod_one, Nat.mul_zero, Nat.add_zero]

/-- Each element of the accumulator after such a step. -/
theorem accStep_bytes (sA sB : FVal) (m : Memory) (xa xb : Nat) (acc : Acc) (e : Fin 256) :
    (((accStep .i8 sA sB (byteChunk m xa) (byteChunk m xb) acc).get e).1).toInt =
      max (-(2 ^ 31)) (min (2 ^ 31 - 1) ((acc.get e).toInt + ((List.range 16).map fun i =>
        (m.get (xa + (16 * (e.val / 16) + i))).toInt * (m.get (xb + (16 * i + e.val % 16))).toInt).foldl (· + ·) 0)) := by
  have helem : (accStep .i8 sA sB (byteChunk m xa) (byteChunk m xb) acc).get e =
      intElement ((upto 16).map fun i => FVal.ofInt (m.get (xa + (16 * (e.val / 16) + i))).toInt)
        ((upto 16).map fun i => FVal.ofInt (m.get (xb + (16 * i + e.val % 16))).toInt) (acc.get e) := by
    unfold accStep
    simp only [vget_ofFn, if_true]
    refine congrArg₂ (fun row col => intElement row col (acc.get e))
      (List.map_congr_left fun i hi => byteChunk_elem _ _ _ _ ?_) (List.map_congr_left fun i hi => byteChunk_elem _ _ _ _ ?_)
    · have := (mem_upto _ _).mp hi
      omega
    · have := (mem_upto _ _).mp hi
      omega
  rw [helem]
  exact intElement_toInt _ _ _

/-! ## A gang of one core -/

section
variable {s : State} {c : CoreId} {p : MmaPost} {rest : List MmaPost} {r : MmaRun}

theorem State.runners_single (hglog : (s.core c).glog = 0) (hmq : (s.core c).mq = p :: rest) (hrun : (s.core c).mRun = some r)
    (hfault : r.fault = none) : s.runners c r.step = [⟨c, p, r⟩] := by
  have hone : s.runner? (s.core c).headPos r.step c = some ⟨c, p, r⟩ := by
    unfold State.runner?
    rw [hmq, hrun]
    exact if_pos ⟨rfl, rfl, by rw [hfault]; rfl⟩
  unfold State.runners
  rw [State.gang_single hglog, List.filterMap_cons_some hone]
  rfl

/-- The first step of an INT8 operation on a gang of one core: each element takes the sum of its products, clamped (R138). -/
theorem exec_mmaStep_bytes (hglog : (s.core c).glog = 0) (hmq : (s.core c).mq = p :: rest) (hrun : (s.core c).mRun = some r)
    (hfault : r.fault = none) (hstep : r.step = 0) (hfmt : p.fmt = .i8) (hsnap : p.snap = (s.core c).spad)
    (hlost : (s.core c).spadLost = []) : ∃ t, exec (.mmaStep c) s = .next t ∧
      (∃ v, (t.core c).mRun = some v ∧ v.step = 1) ∧
      ∀ e : Fin 256, (((t.core c).accs.get p.n).get e).toInt = max (-(2 ^ 31)) (min (2 ^ 31 - 1)
        ((((s.core c).accs.get p.n).get e).toInt + ((List.range 16).map fun i =>
          ((s.core c).spad.get (p.xa.toNat + (16 * (e.val / 16) + i))).toInt *
            ((s.core c).spad.get (p.xb.toNat + (16 * i + e.val % 16))).toInt).foldl (· + ·) 0)) := by
  have hgang : (s.gang c).length = 1 := by rw [State.gang_single hglog, List.length_singleton]
  have hrunners := State.runners_single hglog hmq hrun hfault
  have hq : (s.runners c r.step)[0]? = some ⟨c, p, r⟩ := by rw [hrunners]; rfl
  have hready : s.StepReady c r := ⟨hrun, hfault, by rw [hstep, hgang]; decide, by rw [hrunners, hgang]; rfl⟩
  have hread : s.stepRead c r 0 = .ok (byteChunk (s.core c).spad p.xa.toNat, byteChunk (s.core c).spad p.xb.toNat) := by
    unfold State.stepRead
    rw [hq, hgang]
    exact Core.readStep_bytes hfmt hstep hsnap hlost _
  have hpeer : s.peer c r 0 = 0 := by
    unfold State.peer
    rw [hgang, Nat.mod_one]
  obtain ⟨t, ht, hall⟩ := exec_mmaStep_of_reads hready fun j hj => by
    obtain rfl : j = 0 := by omega
    exact ⟨_, hread⟩
  obtain ⟨hv, haccs⟩ := hall 0 _ hq _ _ _ _ hq (by rw [hpeer]; exact hq) hread (by rw [hpeer]; exact hread)
  refine ⟨t, ht, by rw [hstep] at hv; exact hv, fun e => ?_⟩
  have hget := congrArg (fun a : Acc => (a.get e).toInt) haccs
  simp only [vget_ofFn, State.stepElems, hfmt, accStep_bytes] at hget
  exact hget

end

end Sys2Proof.Machine
end

/-! PROOFS. The matrix slices (O46), fourth part: the end of an operation, its faults, accumulator stores, and the obligation. -/

section
namespace Sys2Proof.Machine

/-! ## Pulses into disabled terms (R50) -/

section
variable {s : State} {c : CoreId}

theorem State.terms_disabled_others (h : (s.core c).termsOff) (cycle : Nat) (inp : BitVec 20) (m : KMap Nat) (d : CoreId)
    (hd : d ≠ c) : (s.terms c cycle inp m).core d = s.core d := by
  suffices hall : ∀ (l : List (Fin 8)) (u : State), (u.core c).termsOff →
      (l.foldl (fun s i => s.term c cycle inp m i) u).core d = u.core d from hall _ s h
  intro l
  induction l with
  | nil => exact fun _ _ => rfl
  | cons i r ih =>
    intro u hu
    have hone := State.term_disabled hu cycle inp m i
    have hoff : ((u.term c cycle inp m i).core c).termsOff := by
      rw [hone, State.core_modCore_self]
      exact Core.termsOff_modTerm hu i _ ((EcTerm.gather_en _ inp m).trans (hu i))
    rw [List.foldl_cons, ih _ hoff, hone, State.core_modCore_ne _ _ _ _ hd]

/-- With every term disabled, a pulse changes nothing but the crossbar of its core. -/
theorem State.pulseOf_disabled (h : (s.core c).termsOff) (i : Nat) (m : KMap Nat) :
    (∃ x, (s.pulseOf c i m).core c = { s.core c with xbar := x }) ∧
      ∀ d, d ≠ c → (s.pulseOf c i m).core d = s.core d := by
  unfold State.pulseOf State.pulse State.pulseAt
  simp only
  generalize BitVec.ofNat 20 _ = inp
  generalize List.foldl _ m (List.finRange 4) = seen
  set u := s.modCore c fun k => { k with xbar := { k.xbar with
    cnt := Vector.ofFn fun j => (((s.core c).xbar.cnt.get j).step (BitVec.ofNat 16 (2 ^ i)) m).2 } } with hu
  have hoff : (u.core c).termsOff := by
    rw [hu, State.core_modCore_self]
    exact h
  refine ⟨?_, fun d hd => ?_⟩
  · obtain ⟨-, ts, hts⟩ := State.terms_disabled hoff s.cycle inp seen
    exact ⟨{ (u.core c).xbar with term := ts }, by rw [hts, hu, State.core_modCore_self]⟩
  · rw [State.terms_disabled_others hoff _ _ _ d hd, hu, State.core_modCore_ne _ _ _ _ hd]

end

/-! ## The end of an operation (R149, R153) -/

section
variable {s : State} {c : CoreId} {p : MmaPost} {rest : List MmaPost} {r : MmaRun}

/-- An operation that leaves a core takes its place in the queue with it, and no accumulator changes. -/
theorem State.leaveOp_core {t : State} {d : CoreId} (hoff : (t.core d).termsOff) :
    (∀ p rest, (t.core d).mq = p :: rest → ((t.leaveOp d).core d).mq = rest ∧ ((t.leaveOp d).core d).mRun = none ∧
      ((t.leaveOp d).core d).accs = (t.core d).accs) ∧
      ∀ e, e ≠ d → (t.leaveOp d).core e = t.core e := by
  unfold State.leaveOp
  cases hmq : (t.core d).mq with
  | nil => exact ⟨fun p rest h => absurd h (by simp), fun _ _ => rfl⟩
  | cons p rest =>
    simp only
    set u := t.modCore d fun k => (k.noteAcc p).leaveQueue with hu
    have hcore : u.core d = ((t.core d).noteAcc p).leaveQueue := by rw [hu, State.core_modCore_self]
    obtain ⟨⟨x, hx⟩, hothers⟩ := State.pulseOf_disabled (s := u) (c := d) (by rw [hcore]; exact hoff) (4 + p.n.val) p.seen
    refine ⟨fun p' rest' h => ?_, fun e he => ?_⟩
    · rw [hx, hcore, ← (List.cons.inj h).2]
      refine ⟨?_, rfl, rfl⟩
      show (t.core d).mq.tail = rest
      rw [hmq, List.tail_cons]
    · rw [hothers e he, hu, State.core_modCore_ne _ _ _ _ he]

/-- After the last step the operation leaves, with its accumulator as it stands (R149). -/
theorem exec_accumulatorLeavesOwnership (hoff : ∀ d ∈ s.gang c, (s.core d).termsOff) (hmq : (s.core c).mq = p :: rest)
    (hrun : (s.core c).mRun = some r) (hfault : r.fault = none) (hstep : r.step = 2 ^ (s.core c).glog.toNat) :
    ∃ t, exec (.accumulatorLeavesOwnership c) s = .next t ∧ (t.core c).mq = rest ∧ (t.core c).mRun = none ∧
      (t.core c).accs = (s.core c).accs := by
  have hlast : (s.core c).lastStep = true := by
    unfold Core.lastStep
    rw [hrun]
    simp [hfault, hstep]
  have htry : s.tryLeave c = some (((s.gang c).filter fun d => (s.core d).lastStep).foldl State.leaveOp s) := by
    unfold State.tryLeave
    rw [if_pos hlast]
  refine ⟨_, happen_some s htry, ?_⟩
  refine foldl_ownCores (key := id) (R := fun d k => ∀ p rest, (s.core d).mq = p :: rest →
      k.mq = rest ∧ k.mRun = none ∧ k.accs = (s.core d).accs)
    (by rw [List.map_id]; exact (s.gang_nodup c).filter _) (fun d hd t ht => ?_) c
    (List.mem_filter.mpr ⟨s.mem_gang_self c, hlast⟩) p rest hmq
  have ht : t.core d = s.core d := ht
  have hleave := State.leaveOp_core (t := t) (d := d) (by rw [ht]; exact hoff d (List.mem_filter.mp hd).1)
  rw [ht] at hleave
  exact hleave

/-- A recorded fault ends the operation of a gang of one core: the accumulator is as before, its flag names the fault (R153). -/
theorem exec_mmaOperationFault {cause : Byte} {i : Nat} (hmq : (s.core c).mq = p :: rest) (hrun : (s.core c).mRun = some r)
    (hglog : (s.core c).glog = 0) (hfault : r.fault = some (cause, i)) :
    ∃ t, exec (.mmaOperationFault c) s = .next t ∧ (t.core c).mq = rest ∧ (t.core c).mRun = none ∧
      (t.core c).accs.get p.n = r.start ∧ (t.core c).accFault.get p.n = some ⟨cause, i, p.pc⟩ ∧
      (t.core c).mCause = cause ∧ (t.core c).mFidx = i := by
  have htry : s.tryMmaFault c = some (s.modCore c Core.endFault) := by
    unfold State.tryMmaFault
    rw [hrun, State.gang_single hglog]
    exact if_pos (by rw [hfault]; rfl)
  have hend : (s.core c).endFault = { ((s.core c).noteAcc p).leaveQueue with
      accs := vput (s.core c).accs p.n r.start, accFault := vput (s.core c).accFault p.n (some ⟨cause, i, p.pc⟩)
      mCause := cause, mFidx := i } := by
    unfold Core.endFault
    simp only [hrun, hmq, hfault]
  refine ⟨_, happen_some s htry, ?_⟩
  rw [State.core_modCore_self, hend]
  refine ⟨?_, rfl, vget_vput_self _ _ _, vget_vput_self _ _ _, rfl, rfl⟩
  show (s.core c).mq.tail = rest
  rw [hmq, List.tail_cons]

end

/-! ## Accumulator stores (R61, R151) -/

theorem mem_insertNat (l : List Nat) (i x : Nat) : x ∈ insertNat l i ↔ x = i ∨ x ∈ l := by
  induction l with
  | nil => simp [insertNat]
  | cons k r ih =>
    unfold insertNat
    split_ifs with hlt heq
    · simp
    · simp [heq]
    · rw [List.mem_cons, ih, List.mem_cons]
      tauto

theorem Core.mem_setFulls_of_mem {k : Core} {x : Nat} (h : x ∈ k.full) (a n : Nat) : x ∈ (k.setFulls a true n).full := by
  induction n generalizing k a with
  | zero => exact h
  | succ n ih => exact ih (k := k.setFull a true) ((mem_insertNat _ _ _).mpr (.inr h)) (a + 8)

theorem Core.setFulls_first (k : Core) (a n : Nat) : a / 8 ∈ (k.setFulls a true (n + 1)).full :=
  Core.mem_setFulls_of_mem (k := k.setFull a true) ((mem_insertNat _ _ _).mpr (.inl rfl)) (a + 8) n

/-- Bytes delivered stand in the scratchpad, and the word of the first of them is full (R61). -/
theorem Core.deliver_spad (k : Core) (a : Nat) (b : List Byte) : (k.deliver a b).spad = k.spad.write a b := by
  unfold Core.deliver
  simp only
  rw [Core.setFulls_eq]
  rfl

theorem Core.deliver_full (k : Core) (a : Nat) {b : List Byte} (hb : b ≠ []) : a / 8 ∈ (k.deliver a b).full := by
  have hlen := List.length_pos_iff.mpr hb
  obtain ⟨n, hn⟩ : ∃ n, (a % 8 + b.length + 7) / 8 = n + 1 := ⟨(a % 8 + b.length + 7) / 8 - 1, by omega⟩
  unfold Core.deliver
  simp only
  rw [hn]
  have hfirst := Core.setFulls_first ((k.spadWrite a b).noteFull a (n + 1) []) (a / 8 * 8) n
  rw [Nat.mul_div_cancel _ (by decide)] at hfirst
  exact hfirst

/-- The last store of an accumulator is performed. -/
theorem exec_mstoComplete {s : State} {c : CoreId} {n : Fin 4} {w : EngWrite} (hw : (s.core c).engW = [w])
    (hacc : w.acc = some n) (hfull : w.full = true) :
    ∃ t, exec (.mstoComplete c n) s = .next t ∧ t.core c = { s.core c with engW := [] }.deliver w.addr w.bytes := by
  have heq : (w.acc == some n) = true := by rw [hacc]; exact beq_self_eq_true _
  have hstoring : (s.core c).storing n = true := by
    unfold Core.storing
    rw [hw, List.any_cons, heq]
    rfl
  have htry : s.tryMsto c n = some (s.setCore c ({ s.core c with engW := [] }.deliver w.addr w.bytes)) := by
    unfold State.tryMsto
    simp only [hstoring, if_true, hw, List.filter_cons, heq, bne, Bool.not_true, Bool.false_eq_true, if_false, List.filter_nil,
      List.foldl_cons, List.foldl_nil, Core.engineStore, hfull]
  exact ⟨_, happen_some s htry, State.core_setCore_self _ _ _⟩

/-- Settles O46: the barrier and the end of an operation change each core of the gang by its own (`foldl_ownCores`), a step by
what the cores have read (`exec_mmaStep_of_reads`, `exec_mmaStep_of_error`). -/
theorem matrixHappenings : Obligations.MatrixHappenings := by
  unfold Obligations.MatrixHappenings
  intro c n p rest r w s k hoff
  refine ⟨fun hmq hopen => ?_, fun hmq hrun hglog hfault hstep hfmt hsnap hlost => ?_, fun hrun hfault hstep hall => ⟨?_, ?_⟩,
    fun hmq hrun hfault hstep => exec_accumulatorLeavesOwnership hoff hmq hrun hfault hstep,
    fun cause i hmq hrun hglog hfault => exec_mmaOperationFault hmq hrun hglog hfault, fun hw hacc hfull hbytes hwf => ?_⟩
  · obtain ⟨t, ht, hcore⟩ := exec_gangBarrierComplete hopen
    rw [State.passBarrier_mRun hmq] at hcore
    exact ⟨t, ht, by rw [hcore], by rw [hcore], by rw [hcore]; rfl⟩
  · exact exec_mmaStep_bytes hglog hmq hrun hfault hstep hfmt hsnap hlost
  · intro hreads
    obtain ⟨t, ht, hstepped⟩ := exec_mmaStep_of_reads ⟨hrun, hfault, hstep, hall⟩ hreads
    exact ⟨t, ht, fun j q o x y hq ho hx hy => hstepped j q hq q o x y hq ho hx hy⟩
  · intro b cause hb herror hreads
    obtain ⟨t, ht, hfaulted⟩ := exec_mmaStep_of_error ⟨hrun, hfault, hstep, hall⟩ hb herror hreads
    exact ⟨t, ht, fun j q hq => hfaulted j q hq q hq⟩
  · obtain ⟨t, ht, hcore⟩ := exec_mstoComplete hw hacc hfull
    refine ⟨t, ht, ?_, fun i hi => ?_, fun m hm => ?_, ?_⟩
    · rw [hcore, Core.deliver_eq]
    · rw [hcore, Core.deliver_spad]
      exact Memory.get_write_in _ _ _ _ hwf hi
    · rw [hcore, Core.deliver_spad]
      exact Memory.get_write_out _ _ _ _ hm
    · rw [hcore]
      exact Core.deliver_full _ _ hbytes

end Sys2Proof.Machine
end

/-! PROOFS. The matrix instructions (O33): what their checks pass, what posting, reading and storing leave. -/

section
namespace Sys2Proof.Machine

/-! ## Completing: what retiring leaves of the registers and of the matrix slice -/

@[simp] theorem State.cx_retire_x (s : State) (len : Nat) : (s.retire len).cx.x = s.cx.x := by rw [State.cx_retire]
@[simp] theorem State.cx_retire_v (s : State) (len : Nat) : (s.retire len).cx.v = s.cx.v := by rw [State.cx_retire]
@[simp] theorem State.me_retire_accs (s : State) (len : Nat) : (s.retire len).me.accs = s.me.accs := by rw [State.me_retire]
@[simp] theorem State.me_retire_mq (s : State) (len : Nat) : (s.retire len).me.mq = s.me.mq := by rw [State.me_retire]
@[simp] theorem State.me_retire_mHist (s : State) (len : Nat) : (s.retire len).me.mHist = s.me.mHist := by
  rw [State.me_retire]
@[simp] theorem State.me_retire_glog (s : State) (len : Nat) : (s.retire len).me.glog = s.me.glog := by rw [State.me_retire]
@[simp] theorem State.me_retire_engW (s : State) (len : Nat) : (s.retire len).me.engW = s.me.engW := by rw [State.me_retire]

section
variable {g : Guard} {body : State → Act} {s u : State}

/-- A 32-bit instruction whose effect leaves the PC and every byte completes with the next PC. -/
theorem instr_completes {P : State → Prop} (hg : s.guardPasses g = true) (hbody : body s = .ok u) (hpc : u.cx.pc = s.cx.pc)
    (hbytes : s.sameBytes u) (hP : P (u.retire 4)) :
    ∃ t, instr g body s = .next t ∧ t.cx.pc = s.cx.pc + 4 ∧ s.sameBytes t ∧ P t := by
  refine ⟨_, instr_ok hg hbody, ?_, State.sameBytes_trans hbytes (u.retire_sameBytes 4), hP⟩
  rw [State.cx_retire, hpc]
  rfl

/-- The same of an effect that changes fields of the issuing core other than its contexts and its scratchpad. -/
theorem instr_completes_modMe {P : State → Prop} (f : Core → Core) (hg : s.guardPasses g = true)
    (hbody : body s = .ok (s.modMe f)) (hctx : ∀ k, (f k).ctxs = k.ctxs) (hspad : ∀ k, (f k).spad = k.spad)
    (hP : P ((s.modMe f).retire 4)) :
    ∃ t, instr g body s = .next t ∧ t.cx.pc = s.cx.pc + 4 ∧ s.sameBytes t ∧ P t := by
  obtain ⟨hpc, -, hbytes⟩ := s.retire_modMe f 4 hctx hspad
  exact ⟨_, instr_ok hg hbody, hpc, hbytes, hP⟩

end

/-- A change of the issuing core that leaves its contexts leaves the issuing one. -/
theorem State.cx_modMe_ctxs {s : State} (f : Core → Core) (hf : ∀ k, (f k).ctxs = k.ctxs) : (s.modMe f).cx = s.cx := by
  rw [State.cx_modMe]
  exact congrArg (fun v => Vector.get v s.curCtx) (hf s.me)

/-! ## Recorded operation faults (R154) -/

/-- The recorded fault of an accumulator is cleared. -/
def State.clearAccFault (s : State) (n : Fin 4) : State := s.modMe fun k => { k with accFault := vput k.accFault n none }

theorem State.raiseOp_free {s : State} {n : Fin 4} (h : s.me.accFault.get n = none) : s.raiseOp n = .ok () := by
  unfold State.raiseOp
  rw [h]

theorem State.raiseOp_recorded {s : State} {n : Fin 4} {f : OpFault} (h : s.me.accFault.get n = some f) :
    s.raiseOp n = .error (.trapIn ⟨f.cause, f.pc, accInfo n f⟩ (s.clearAccFault n)) := by
  unfold State.raiseOp
  rw [h]
  rfl

theorem State.accWait_recorded {s : State} {n : Fin 4} {f : OpFault} (h : s.me.accFault.get n = some f) :
    s.accWait n = .error (.trapIn ⟨f.cause, f.pc, accInfo n f⟩ (s.clearAccFault n)) := by
  unfold State.accWait
  rw [State.raiseOp_recorded h, error_bind]

theorem State.cx_clearAccFault (s : State) (n : Fin 4) : (s.clearAccFault n).cx = s.cx :=
  State.cx_modMe_ctxs _ fun _ => rfl

theorem State.trapFree_clearAccFault {s : State} (h : s.trapFree) (n : Fin 4) : (s.clearAccFault n).trapFree := by
  refine ⟨h.1, ?_⟩
  unfold State.clearAccFault
  rw [State.me_modMe]
  exact h.2

/-- A trap taken after the fault is cleared is one of the instruction that raises it. -/
theorem State.trapsTo_of_clearAccFault {s t : State} {n : Fin 4} {cause : Byte} {faddr finfo : DWord}
    (h : (s.clearAccFault n).trapsTo t cause faddr finfo) : s.trapsTo t cause faddr finfo := by
  have hme : (s.clearAccFault n).me = { s.me with accFault := vput s.me.accFault n none } := s.me_modMe _
  unfold State.trapsTo at h ⊢
  rw [State.cx_clearAccFault, hme] at h
  exact h

/-- Trap entry leaves the matrix slice as it was. -/
theorem State.trapHere_accs {s : State} (h : s.trapFree) (q : TrapInfo) :
    (s.trapHere q).me.accs = s.me.accs ∧ (s.trapHere q).me.accFault = s.me.accFault := by
  rw [State.trapHere_eq h, State.me_modMe, State.me_modCx]
  exact ⟨rfl, rfl⟩

/-- An instruction that raises the recorded fault of an accumulator traps with it and clears it; the accumulators stay. -/
theorem instr_raises {g : Guard} {body : State → Act} {s : State} {n : Fin 4} {f : OpFault} (hg : s.guardPasses g = true)
    (htrap : s.trapFree) (hbody : body s = .error (.trapIn ⟨f.cause, f.pc, accInfo n f⟩ (s.clearAccFault n))) :
    ∃ t, instr g body s = .next t ∧ s.trapsTo t f.cause f.pc (dw (f.fidx + 16 * n.val)) ∧ t.me.accFault.get n = none ∧
      t.me.accs = s.me.accs := by
  have hfree := State.trapFree_clearAccFault htrap n
  have hinfo : accInfo n f = dw (f.fidx + 16 * n.val) := congrArg (fun m => dw (f.fidx + m)) (Nat.mul_comm _ _)
  obtain ⟨haccs, hfault⟩ := State.trapHere_accs hfree ⟨f.cause, f.pc, accInfo n f⟩
  refine ⟨_, instr_stop hg hbody, ?_, ?_, haccs.trans ?_⟩
  · rw [← hinfo]
    exact State.trapsTo_of_clearAccFault (State.trapHere_trapsTo hfree _).1
  · refine (congrArg (fun v => Vector.get v n) hfault).trans ?_
    unfold State.clearAccFault
    rw [State.me_modMe]
    exact vget_vput_self _ _ _
  · unfold State.clearAccFault
    rw [State.me_modMe]

/-! ## What the checks of the matrix instructions pass (R144, R150, R252) -/

/-- What a quiet context has pushed being performed, all its accesses are. -/
theorem State.settled_pushed {s : State} (hq : s.quiet) (hp : s.pushesDone s.cur s.curCtx = true) : s.settled = .ok () := by
  unfold State.settled State.settledAt State.allPerformed
  rw [s.syncPoint_quiet hq, State.followed_of_behindDone hq.2, hq.1, hp]
  rfl

theorem scaleCheck_ok {fmt : MmaFmt} {v : DWord} (h : hasScales fmt = true → scaleGood v = true) :
    scaleCheck fmt v = .ok () := by
  have hpass : (!hasScales fmt || scaleGood v) = true := by
    cases hs : hasScales fmt with
    | false => rfl
    | true => exact h hs
  unfold scaleCheck
  rw [hpass, check_true]

theorem spadEA_ok {a : DWord} {n : Nat} (hn : 8 ≤ n) (halign : a.toNat % 8 = 0) (hfits : a.toNat + n ≤ 0x40000) :
    spadEA a n = .ok a.toNat := by
  have hbound : decide (a.toNat + n - 1 ≤ 0x3FFFF) = true := decide_eq_true (by omega)
  unfold spadEA spadCheck
  rw [hbound, Nat.min_eq_right hn, decide_eq_true halign]
  rfl

/-- An accumulator that no queued operation names and that no store still reads is not waited for (R150). -/
theorem State.accWait_free {s : State} {n : Fin 4} (hfree : s.me.accFault.get n = none) (howned : ∀ p ∈ s.me.mq, p.n ≠ n)
    (hstoring : ∀ w ∈ s.me.engW, w.acc ≠ some n) : s.accWait n = .ok () := by
  have ho : s.me.owned n = false := List.any_eq_false.mpr fun p hp => by simpa using howned p hp
  have hs : s.me.storing n = false := List.any_eq_false.mpr fun w hw => by simpa using hstoring w hw
  unfold State.accWait
  rw [State.raiseOp_free hfree, ok_bind, ho, hs]
  rfl

/-- The free values that the elements of an accumulator may take are drawn (R150). -/
def State.drewElements (s : State) : State := { s with freeCtr := s.freeCtr + 256 }

/-- While no operation runs, an accumulator reads as it stands (R150). -/
theorem State.readAcc_idle {s : State} (h : s.me.mRun = none) (n : Fin 4) :
    s.readAcc n = (s.me.accs.get n, s.drewElements) := by
  have helem (free : Nat) (e : Fin 256) : s.me.element n free e = (s.me.accs.get n).get e := by
    unfold Core.element
    rw [h]
    cases s.me.mq <;> rfl
  unfold State.readAcc
  refine congrArg (·, _) (Vector.ext fun i hi => ?_)
  rw [Vector.getElem_ofFn, helem]
  rfl

theorem State.drewElements_sameBytes (s : State) : s.sameBytes s.drewElements := ⟨fun _ => rfl, fun _ _ => rfl⟩

/-! ## Posting, waiting, clearing and reading (R145, R302, R303) -/

section
variable {g : Guard} {c : Fin 8} {n : Fin 4} {d a b : Reg} {fmt : MmaFmt} {s : State}

/-- The operation that MMA posts: its operands and scales as they are at issue (R144, R145). -/
def State.mmaPost (s : State) (c : Fin 8) (n : Fin 4) (a b : Reg) (fmt : MmaFmt) : MmaPost :=
  { fmt := fmt, n := n, glog := s.me.glog.toNat, xa := s.cx.xr a, xb := s.cx.xr b, sA := s.cx.f.get ⟨c.val, by omega⟩,
    sB := s.cx.f.get ⟨(c.val + 1) % 8, by omega⟩, ctx := s.curCtx, pc := s.cx.pc, snap := s.me.spad, seen := s.cx.seen }

/-- A core with an operation queued behind the others. -/
def Core.postMma (p : MmaPost) (k : Core) : Core :=
  { k with mq := k.mq ++ [p], mHist := k.mHist ++ [(k.glog.toNat, p.fmt, p.n)] }

/-- The operands of MMA pass the checks of R144. -/
structure State.MmaOk (s : State) (c : Fin 8) (a b : Reg) (fmt : MmaFmt) : Prop where
  noScales : hasScales fmt = false → c = 0
  scales : hasScales fmt = true →
    scaleGood (s.cx.f.get ⟨c.val, by omega⟩) = true ∧ scaleGood (s.cx.f.get ⟨(c.val + 1) % 8, by omega⟩) = true
  alignA : (s.cx.xr a).toNat % (if fmt = .xf8 then 4 else 32) = 0
  alignB : (s.cx.xr b).toNat % (if fmt = .xf8 then 4 else 32) = 0
  fitsA : (s.cx.xr a).toNat + sizeA fmt (2 ^ s.me.glog.toNat) ≤ 0x40000
  fitsB : (s.cx.xr b).toNat + sizeB fmt ≤ 0x40000

theorem exec_mma (hq : s.quiet) (ha : s.regFree a = true) (hb : s.regFree b = true) (hok : s.MmaOk c a b fmt)
    (hfree : s.me.accFault.get n = none) (hpushed : s.pushesDone s.cur s.curCtx = true) (hroom : s.me.mq.length < 4) :
    exec (.mma c n a b fmt) s = .next ((s.modMe (Core.postMma (s.mmaPost c n a b fmt))).retire 4) := by
  have hform : (hasScales fmt || decide (c = 0)) = true := by
    cases hs : hasScales fmt with
    | false => exact decide_eq_true (hok.noScales hs)
    | true => rfl
  have hsA : scaleCheck fmt (s.rdF ⟨c.val, by omega⟩) = .ok () := scaleCheck_ok fun hs => (hok.scales hs).1
  have hsB : scaleCheck fmt (s.rdF ⟨(c.val + 1) % 8, by omega⟩) = .ok () := scaleCheck_ok fun hs => (hok.scales hs).2
  show execMma c n a b fmt s = _
  unfold execMma
  refine instr_ok rfl ?_
  simp only [hform, State.syncPoint_quiet hq, State.memGate_quiet hq, s.rdX_free a ha, s.rdX_free b hb,
    decide_eq_true hok.alignA, decide_eq_true hok.alignB, decide_eq_true hok.fitsA, decide_eq_true hok.fitsB, hsA, hsB,
    State.raiseOp_free hfree, State.settled_pushed hq hpushed, decide_eq_true hroom, check_true, waitUntil_true, ok_bind]
  rfl

theorem exec_mma_posts (hq : s.quiet) (ha : s.regFree a = true) (hb : s.regFree b = true) (hok : s.MmaOk c a b fmt)
    (hfree : s.me.accFault.get n = none) (hpushed : s.pushesDone s.cur s.curCtx = true) (hroom : s.me.mq.length < 4) :
    ∃ t, exec (.mma c n a b fmt) s = .next t ∧ t.cx.pc = s.cx.pc + 4 ∧ s.sameBytes t ∧
      t.me.mq = s.me.mq ++ [s.mmaPost c n a b fmt] ∧ t.me.mHist = s.me.mHist ++ [(s.me.glog.toNat, fmt, n)] ∧
      t.me.accs = s.me.accs ∧ t.cx.x = s.cx.x := by
  obtain ⟨hpc, hx, hbytes⟩ :=
    s.retire_modMe (Core.postMma (s.mmaPost c n a b fmt)) 4 (fun _ => rfl) (fun _ => rfl)
  refine ⟨_, exec_mma hq ha hb hok hfree hpushed hroom, hpc, hbytes, ?_, ?_, ?_, hx⟩
  · rw [State.me_retire_mq, State.me_modMe]
    rfl
  · rw [State.me_retire_mHist, State.me_modMe]
    rfl
  · rw [State.me_retire_accs, State.me_modMe]
    rfl

theorem execMwait_completes (hg : s.guardPasses g = true) (hq : s.quiet) (hwait : s.accWait n = .ok ()) :
    ∃ t, execMwait g n s = .next t ∧ t.cx.pc = s.cx.pc + 4 ∧ s.sameBytes t ∧ t.me.accs = s.me.accs ∧
      t.cx.x = s.cx.x := by
  unfold execMwait
  refine instr_completes (u := s.modCx fun x => { x with seen := joinSeen x.seen (s.me.accSeen.get n) }) hg ?_ ?_
    (s.modCx_sameBytes _) ⟨?_, ?_⟩
  · rw [State.syncPoint_quiet hq, ok_bind, hwait]
    rfl
  · rw [State.cx_modCx]
  · rw [State.me_retire_accs, State.me_modCx, Core.modCtx_accs]
  · rw [State.cx_retire_x, State.cx_modCx]

theorem execMzero_clears (hg : s.guardPasses g = true) (hwait : s.accWait n = .ok ()) :
    ∃ t, execMzero g n s = .next t ∧ t.cx.pc = s.cx.pc + 4 ∧ s.sameBytes t ∧ (∀ e, (t.me.accs.get n).get e = 0) ∧
      ∀ m, m ≠ n → t.me.accs.get m = s.me.accs.get m := by
  unfold execMzero
  refine instr_completes_modMe (fun k => { k with accs := vput k.accs n (Vector.replicate 256 0) }) hg ?_ (fun _ => rfl)
    (fun _ => rfl) ?_
  · rw [hwait]
    rfl
  · rw [State.me_retire_accs, State.me_modMe]
    refine ⟨fun e => ?_, fun m hm => vget_vput_ne _ _ _ _ hm⟩
    rw [vget_vput_self]
    exact Vector.getElem_replicate e.isLt

/-- The vector that MRD makes of an accumulator: elements 32r to 32r + 31 (R303). -/
def accRows (acc : Acc) (r : Nat) : Vec := ofLanes 32 (fun l => acc.get (accIx (16 * (2 * r + l / 16) + l % 16))) 32

theorem lane_accRows (acc : Acc) (r : Nat) {l : Nat} (hl : l < 32) :
    lane 32 l (accRows acc r) = acc.get ⟨(32 * r + l) % 256, Nat.mod_lt _ (by decide)⟩ := by
  have hix : 16 * (2 * r + l / 16) + l % 16 = 32 * r + l := by omega
  unfold accRows
  rw [lane_ofLanes (by decide) _ hl (by decide), hix]
  rfl

theorem execMrd_reads (hg : s.guardPasses g = true) (hd : s.streamNamed d = none) (hb : s.regFree b = true)
    (hfree : s.me.accFault.get n = none) (hidle : s.me.mRun = none) :
    ∃ t, execMrd g d n b s = .next t ∧ t.cx.pc = s.cx.pc + 4 ∧ s.sameBytes t ∧
      (∀ l, l < 32 → lane 32 l (t.cx.v.get d) =
        (s.me.accs.get n).get ⟨(32 * ((s.cx.xr b).toNat % 8) + l) % 256, Nat.mod_lt _ (by decide)⟩) ∧
      ∀ r, r ≠ d → t.cx.v.get r = s.cx.v.get r := by
  set w := accRows (s.me.accs.get n) ((s.cx.xr b).toNat % 8)
  have hwrite : s.drewElements.writeVec d w = .ok (s.drewElements.putV d w) := by
    unfold State.writeVec
    rw [show s.drewElements.streamNamed d = none from hd]
  have hcx : (s.drewElements.putV d w).cx = { s.cx with v := vput s.cx.v d w } := s.drewElements.cx_modCx _
  unfold execMrd
  refine instr_completes (u := s.drewElements.putV d w) hg ?_ ?_
    (State.sameBytes_trans s.drewElements_sameBytes (State.modCx_sameBytes _ _)) ?_
  · rw [State.streamUse_noStream hd, ok_bind, s.rdX_free b hb, ok_bind, State.raiseOp_free hfree, ok_bind,
      State.readAcc_idle hidle]
    exact hwrite
  · rw [hcx]
  · rw [State.cx_retire_v, hcx]
    refine ⟨fun l hl => ?_, fun q hq => vget_vput_ne _ _ _ _ hq⟩
    rw [vget_vput_self]
    exact lane_accRows _ _ hl

/-! ## Storing (R151, R304) -/

/-- A core whose engine has words to write behind the others. -/
def Core.queueStores (l : List EngWrite) (k : Core) : Core := { k with engW := k.engW ++ l }

/-- The effect of an accumulator store that meets no wait: the words of its elements are the engine's to write. -/
theorem msto_ok {w : Nat} (f : Word → FRes) (hq : s.quiet) (ha : s.regFree a = true) (hfree : s.me.accFault.get n = none)
    (hpushed : s.pushesDone s.cur s.curCtx = true) (hidle : s.me.mRun = none) (hw : 1 ≤ w)
    (halign : (s.cx.xr a).toNat % 8 = 0) (hfits : (s.cx.xr a).toNat + 256 * w ≤ 0x40000) :
    ∃ u, msto w n a f s = .ok u ∧ u.cx.pc = s.cx.pc ∧ s.sameBytes u ∧ u.me.engW = s.me.engW ++
      storeWords (s.cx.xr a).toNat n (((s.me.accs.get n).toList.map fun v => leBytes w (f v).1).flatten) := by
  set rs := (s.me.accs.get n).toList.map f with hrs
  set u := s.drewElements.orFlags (rs.foldl (fun a r => a ||| r.2) 0) with hu
  have hmsto : msto w n a f s = .ok (u.modMe (Core.queueStores (storeWords (s.cx.xr a).toNat n
      ((rs.map fun r => leBytes w r.1).flatten)))) := by
    unfold msto
    simp only [State.memGate_quiet hq, s.rdX_free a ha, spadEA_ok (by omega) halign hfits, State.raiseOp_free hfree,
      hpushed, waitUntil_true, State.readAcc_idle hidle, ok_bind]
    rfl
  refine ⟨_, hmsto, ?_, State.sameBytes_trans (State.sameBytes_trans s.drewElements_sameBytes (State.modCx_sameBytes _ _))
    (State.modCore_sameBytes _ _ _ fun _ => rfl), ?_⟩
  · rw [State.cx_modMe_ctxs (Core.queueStores _) fun _ => rfl, hu, State.orFlags, State.cx_modCx]
    rfl
  · have hme : u.me.engW = s.me.engW := by
      rw [hu, State.orFlags, State.me_modCx, Core.modCtx_engW]
      rfl
    rw [State.me_modMe, hrs, List.map_map]
    exact congrArg (· ++ _) hme

/-- An accumulator store completes at issue; its bytes are written later. -/
theorem instr_msto {w : Nat} (f : Word → FRes) (hg : s.guardPasses g = true) (hq : s.quiet) (ha : s.regFree a = true)
    (hfree : s.me.accFault.get n = none) (hpushed : s.pushesDone s.cur s.curCtx = true) (hidle : s.me.mRun = none)
    (hw : 1 ≤ w) (halign : (s.cx.xr a).toNat % 8 = 0) (hfits : (s.cx.xr a).toNat + 256 * w ≤ 0x40000) :
    ∃ t, instr g (msto w n a f) s = .next t ∧ t.cx.pc = s.cx.pc + 4 ∧ s.sameBytes t ∧ t.me.engW = s.me.engW ++
      storeWords (s.cx.xr a).toNat n (((s.me.accs.get n).toList.map fun v => leBytes w (f v).1).flatten) := by
  obtain ⟨u, hmsto, hpc, hbytes, hengW⟩ := msto_ok f hq ha hfree hpushed hidle hw halign hfits
  exact instr_completes hg hmsto hpc hbytes ((u.me_retire_engW 4).trans hengW)

/-! ## Gang sizes (R141) -/

theorem gangLog_pow {v : DWord} {k : Nat} (hk : k ≤ 4) (hv : v.toNat = 2 ^ k) : gangLog v = some (BitVec.ofNat 3 k) := by
  unfold gangLog
  rw [hv]
  interval_cases k <;> rfl

theorem gangLog_none {v : DWord} (h : ∀ k, k ≤ 4 → v.toNat ≠ 2 ^ k) : gangLog v = none := by
  unfold gangLog
  split
  · next hv => exact absurd hv (h 0 (by decide))
  · next hv => exact absurd hv (h 1 (by decide))
  · next hv => exact absurd hv (h 2 (by decide))
  · next hv => exact absurd hv (h 3 (by decide))
  · next hv => exact absurd hv (h 4 (by decide))
  · rfl

theorem execGang_sets {k : Nat} (hg : s.guardPasses g = true) (ha : s.regFree a = true) (hidle : s.me.mq = []) (hk : k ≤ 4)
    (hx : (s.cx.xr a).toNat = 2 ^ k) :
    ∃ t, execGang g a s = .next t ∧ t.cx.pc = s.cx.pc + 4 ∧ s.sameBytes t ∧ t.me.glog.toNat = k ∧
      t.me.mHist = [] := by
  have hempty : s.me.sliceIdle = true := congrArg List.isEmpty hidle
  unfold execGang
  refine instr_completes_modMe (fun q => q.setGang (BitVec.ofNat 3 k)) hg ?_ (fun _ => rfl) (fun _ => rfl) ?_
  · rw [s.rdX_free a ha, ok_bind, gangLog_pow hk hx]
    dsimp only
    rw [hempty]
    rfl
  · rw [State.me_retire_glog, State.me_retire_mHist, State.me_modMe]
    exact ⟨BitVec.toNat_ofNat k 3 |>.trans (Nat.mod_eq_of_lt (by omega)), rfl⟩

theorem execGang_refused (hg : s.guardPasses g = true) (ha : s.regFree a = true) (htrap : s.trapFree)
    (hx : ∀ k, k ≤ 4 → (s.cx.xr a).toNat ≠ 2 ^ k) : ∃ t, execGang g a s = .next t ∧ s.trapsTo t 0x0D 0 0 := by
  unfold execGang
  refine ⟨_, instr_stop (e := .trap ⟨0x0D, 0, 0⟩) hg ?_, (State.trapHere_trapsTo htrap _).1⟩
  rw [s.rdX_free a ha, ok_bind, gangLog_none hx]
  rfl

theorem exec_mstat (hg : s.guardPasses g = true) (hd : s.regFree d = true) :
    exec (.mstat g d) s = s.doneX d (matrixStatus s.me) 4 := by
  show execMstat g d s = _
  exact instr_ok hg (s.wrX_free d _ hd)

/-! ## Consumers of a recorded fault (R154) -/

/-- The three consumers meet the fault of their accumulator before they have any effect. -/
theorem exec_consumer_raises {f : OpFault} (hg : s.guardPasses g = true) (hq : s.quiet) (hd : s.streamNamed d = none)
    (hb : s.regFree b = true) (hf : s.me.accFault.get n = some f) (htrap : s.trapFree) {j : Instr}
    (hj : j ∈ [Instr.mwait g n, .mzero g n, .mrd g d n b]) :
    ∃ t, exec j s = .next t ∧ s.trapsTo t f.cause f.pc (dw (f.fidx + 16 * n.val)) ∧ t.me.accFault.get n = none ∧
      t.me.accs = s.me.accs := by
  have hraises : ∃ body, exec j s = instr g body s ∧
      body s = .error (.trapIn ⟨f.cause, f.pc, accInfo n f⟩ (s.clearAccFault n)) := by
    simp only [List.mem_cons, List.not_mem_nil, or_false] at hj
    obtain rfl | rfl | rfl := hj
    · show ∃ body, execMwait g n s = instr g body s ∧ _
      refine ⟨_, rfl, ?_⟩
      rw [State.syncPoint_quiet hq, ok_bind, State.accWait_recorded hf, error_bind]
    · show ∃ body, execMzero g n s = instr g body s ∧ _
      refine ⟨_, rfl, ?_⟩
      rw [State.accWait_recorded hf, error_bind]
    · show ∃ body, execMrd g d n b s = instr g body s ∧ _
      refine ⟨_, rfl, ?_⟩
      rw [State.streamUse_noStream hd, ok_bind, s.rdX_free b hb, ok_bind, State.raiseOp_recorded hf, error_bind]
  obtain ⟨body, hexec, hbody⟩ := hraises
  rw [hexec]
  exact instr_raises hg htrap hbody

end

/-- Settles O33: MMA by what it posts (`exec_mma`), the consumers of an accumulator by their waits and by the fault that
they raise (`exec_consumer_raises`), the stores by what they leave to the engine (`instr_msto`), GANG by its sizes. -/
theorem matrixResults : Obligations.MatrixResults := by
  unfold Obligations.MatrixResults
  intro g c n d a b fmt s hg hq hready hstreams
  have hd := hready d (by simp)
  have ha := hready a (by simp)
  have hb := hready b (by simp)
  have hvd := hstreams d (by simp)
  refine ⟨fun hfree hpushed hc hscales halignA halignB hfitsA hfitsB hroom =>
      exec_mma_posts hq ha hb ⟨hc, hscales, halignA, halignB, hfitsA, hfitsB⟩ hfree hpushed hroom,
    fun hfree howned hstoring => ?_, fun f hf htrap j hj => exec_consumer_raises hg hq hvd hb hf htrap hj,
    fun hfree hidle => execMrd_reads hg hvd hb hfree hidle,
    fun hfree hpushed hidle halign => ⟨fun hfits => ?_, fun hfits => ?_⟩,
    fun hidle k hk hx => execGang_sets hg ha hidle hk hx, fun hx htrap => execGang_refused hg ha htrap hx, exec_mstat hg hd⟩
  · have hwait := State.accWait_free hfree howned hstoring
    exact ⟨execMwait_completes hg hq hwait, execMzero_clears hg hwait⟩
  · exact instr_msto (w := 4) (fun v => (v.toNat, 0)) hg hq ha hfree hpushed hidle (by decide) halign hfits
  · exact instr_msto (w := 2) (fun v => convert bf16 .rne (fp32.val v.toNat)) hg hq ha hfree hpushed hidle (by decide) halign
      hfits

end Sys2Proof.Machine
end

/-! PROOFS. The object instructions (O38): what translation leaves, the checks of an operation, its issue. -/

section
namespace Sys2Proof.Machine

/-! ## What translation leaves (R81, R83) -/

section
variable {s u : State}

theorem State.sameButTlbs.cur_eq (h : s.sameButTlbs u) : u.cur = s.cur ∧ u.curCtx = s.curCtx ∧ u.cycle = s.cycle := by
  obtain ⟨l, cs, n, rfl, -⟩ := h
  exact ⟨rfl, rfl, rfl⟩

theorem State.sameButTlbs.me_eq (h : s.sameButTlbs u) : u.me = { s.me with tlb := u.me.tlb } := by
  obtain ⟨hcur, -, -⟩ := h.cur_eq
  obtain ⟨l, cs, n, -, hcores⟩ := h
  have hme := hcores s.cur
  rw [← hcur, State.core_cur, hcur] at hme
  exact hme

theorem State.sameButTlbs.cx_eq (h : s.sameButTlbs u) : u.cx = s.cx := by
  unfold State.cx
  rw [h.cur_eq.2.1, h.me_eq]
  rfl

theorem State.sameButTlbs.sameBytes (h : s.sameButTlbs u) : s.sameBytes u := by
  obtain ⟨l, cs, n, rfl, hcores⟩ := h
  exact ⟨fun _ => rfl, fun c a => by rw [hcores c]⟩

theorem State.sameButTlbs.quiet (h : s.sameButTlbs u) (hq : s.quiet) : u.quiet := by
  unfold State.quiet
  rw [h.cx_eq, h.me_eq]
  exact hq

theorem State.sameButTlbs.unbound (h : s.sameButTlbs u) (hu : s.unbound) : u.unbound := by
  unfold State.unbound
  rw [h.me_eq]
  exact hu

theorem State.sameButTlbs.trapFree (h : s.sameButTlbs u) (ht : s.trapFree) : u.trapFree := by
  unfold State.trapFree
  rw [h.cur_eq.2.1, h.me_eq]
  exact ht

/-- A trap taken after a translation is one of the instruction that has translated. -/
theorem State.sameButTlbs.trapsTo {t : State} {cause : Byte} {faddr finfo : DWord} (h : s.sameButTlbs u)
    (ht : u.trapsTo t cause faddr finfo) : s.trapsTo t cause faddr finfo := by
  obtain ⟨-, hctx, hcycle⟩ := h.cur_eq
  unfold State.trapsTo at ht ⊢
  rw [h.cx_eq, hctx, hcycle, h.me_eq] at ht
  exact ht

/-- An address that passes the global checks, for an instruction (R251). -/
theorem State.globalEA_of_reaches {va : DWord} {n : Nat} {k : Access} {e : EA} (h : s.reaches va n k e u) :
    s.globalEA va n k = .ok (e, u) := by
  unfold State.globalEA
  rw [show s.globalCheck s.cur va n k = (.ok e, u) from h]

theorem State.sameButTlbs_of_reaches {va : DWord} {n : Nat} {k : Access} {e : EA} (h : s.reaches va n k e u) :
    s.sameButTlbs u := by
  have hall := s.globalCheck_sameButTlbs s.cur va n k
  rwa [show s.globalCheck s.cur va n k = (.ok e, u) from h] at hall

/-- The effective address of an access that passes is the one asked for. -/
theorem State.pageCheck_va {c : CoreId} {va : DWord} {k : Access} {e : EA} (h : s.pageCheck c va k = (.ok e, u)) :
    e.va = va := by
  unfold State.pageCheck at h
  split at h
  · exact absurd (congrArg Prod.fst h) (by simp)
  · dsimp only at h
    split at h
    · exact absurd (congrArg Prod.fst h) (by simp)
    · split at h
      · exact absurd (congrArg Prod.fst h) (by simp)
      · obtain ⟨he, -⟩ := Prod.mk.inj h
        rw [← Except.ok.inj he]

theorem State.va_of_reaches {va : DWord} {n : Nat} {k : Access} {e : EA} (h : s.reaches va n k e u) : e.va = va := by
  unfold State.reaches State.globalCheck at h
  split at h
  · exact absurd (congrArg Prod.fst h) (by simp)
  · split at h
    · exact absurd (congrArg Prod.fst h) (by simp)
    · exact State.pageCheck_va h

end

/-! ## The issue of an object operation (R191, R271) -/

section
variable {kind : ReqKind} {d a : Reg} {value : State → Except Stop DWord} {v : DWord} {e : EA} {s u : State}

theorem State.splitReady_quiet (hq : s.quiet) (hd : s.regFree d = true) : s.splitReady d = .ok () := by
  unfold State.splitReady
  rw [s.regReady_free d hd, ok_bind, State.memGate_quiet hq, ok_bind, State.replyRoom_quiet hq]

/-- What an object operation does once its address is translated. -/
def State.objectChecked (u : State) (kind : ReqKind) (d : Reg) (va v : DWord) (e : EA) : Act := do
  checkIn u (!e.isV) 0x08 va (fi08 .store)
  checkIn u e.isObj 0x16 va 1
  if kind = .opush then checkIn u (decide (v ≠ noVersion)) 0x16 va 0
  let q := { u.newReq kind e.va e.pa 8 d v 0 with
    obj := true, enc := e.isC, gate := kind == .opop, fault := u.unreachFault e.va e.pa }
  if u.ordered && q.fault.isNone then
    if kind = .opush then u.settled
    return u.postOrdered q
  else return u.issueObj q

theorem objectOp_misaligned (hq : s.quiet) (hres : s.restartable = false) (ha : s.regFree a = true)
    (hd : s.regFree d = true) (hv : value s = .ok v) (halign : (s.cx.xr a).toNat % 64 ≠ 0) :
    objectOp kind d a value s = fault 0x05 (s.cx.xr a) := by
  unfold objectOp
  simp only [s.rdX_free a ha, State.notInRestartable_free hres, State.syncPoint_quiet hq, State.splitReady_quiet hq hd, hv,
    halign, decide_false, check_false, ok_bind, ite_self]
  rfl

theorem objectOp_reaches (hq : s.quiet) (hres : s.restartable = false) (ha : s.regFree a = true)
    (hd : s.regFree d = true) (hv : value s = .ok v) (halign : (s.cx.xr a).toNat % 64 = 0)
    (hreach : s.reaches (s.cx.xr a) 64 .store e u) :
    objectOp kind d a value s = u.objectChecked kind d (s.cx.xr a) v e := by
  unfold objectOp
  simp only [s.rdX_free a ha, State.notInRestartable_free hres, State.syncPoint_quiet hq, State.splitReady_quiet hq hd, hv,
    halign, decide_true, check_true, ok_bind, ite_self, State.globalEA_of_reaches hreach]
  rfl

theorem State.objectChecked_noObj (hV : e.isV = false) (hobj : e.isObj = false) (va : DWord) :
    u.objectChecked kind d va v e = .error (.trapIn ⟨0x16, va, 1⟩ u) := by
  unfold State.objectChecked checkIn
  rw [hV, hobj]
  rfl

theorem State.objectChecked_sentinel (hV : e.isV = false) (hobj : e.isObj = true) (va : DWord) :
    u.objectChecked .opush d va noVersion e = .error (.trapIn ⟨0x16, va, 0⟩ u) := by
  unfold State.objectChecked checkIn
  rw [hV, hobj]
  rfl

/-- The request of an object operation whose home can be reached. -/
def State.objRequest (u : State) (kind : ReqKind) (d : Reg) (v : DWord) (e : EA) : Req :=
  { u.newReq kind e.va e.pa 8 d v 0 with obj := true, enc := e.isC, gate := kind == .opop }

theorem State.objectChecked_issues (hq : u.quiet) (hu : u.unbound) (hV : e.isV = false) (hobj : e.isObj = true)
    (hv : kind = .opush → v ≠ noVersion) (hpa : u.paUnreachable e.pa = false) (va : DWord) :
    u.objectChecked kind d va v e = .ok (if u.me.det then u.postOrdered (u.objRequest kind d v e)
      else u.issueObj (u.objRequest kind d v e)) := by
  have hfault : u.unreachFault e.va e.pa = none := by
    unfold State.unreachFault
    rw [hpa]
    rfl
  unfold State.objectChecked checkIn State.ordered
  by_cases hk : kind = .opush
  · cases hdet : u.me.det <;>
      simp only [hV, hobj, hfault, hk, hv hk, State.settled_quiet hq hu, Bool.not_false, if_true, ok_bind, ne_eq,
        not_false_eq_true, decide_true, Bool.false_and, Bool.true_and, Option.isNone_none] <;> rfl
  · cases hdet : u.me.det <;>
      simp only [hV, hobj, hfault, hk, Bool.not_false, if_true, if_false, ok_bind, Bool.false_and, Bool.true_and,
        Option.isNone_none] <;> rfl

end

/-! ## What the issue leaves -/

section
variable {q : Req} {u : State}

theorem State.cx_post (u : State) (q : Req) : (u.post q).cx = { u.cx with reqs := u.cx.reqs ++ [q] } :=
  State.cx_modCx _ _

theorem State.post_sameBytes (u : State) (q : Req) : u.sameBytes (u.post q) :=
  State.modCx_sameBytes { u with reqCtr := u.reqCtr + 1 } _

/-- An operation that need not wait for a round is on its way (R192). -/
theorem State.issueObj_eq (hf : q.fault = none) : u.issueObj q = (u.post q).sendOp u.cur u.curCtx q := by
  unfold State.issueObj
  rw [hf]
  rfl

theorem State.issueObj_retire (hreqs : u.cx.reqs = []) (hf : q.fault = none) :
    ((u.issueObj q).retire 4).cx.pc = u.cx.pc + 4 ∧ ((u.issueObj q).retire 4).cx.reqs = [q] ∧
      ((u.issueObj q).retire 4).cx.x = u.cx.x ∧ u.sameBytes ((u.issueObj q).retire 4) ∧
      ((u.issueObj q).retire 4).objMsgs =
        u.objMsgs ++ [(u.post q).opOf u.cur u.curCtx q (objPath q.kind (landingOf u.cur.val) q.pa)] := by
  have hcx : (u.issueObj q).cx = { u.cx with reqs := [q] } := by
    rw [State.issueObj_eq hf]
    refine (u.cx_post q).trans ?_
    rw [hreqs]
    rfl
  rw [State.cx_retire, hcx, State.issueObj_eq hf]
  exact ⟨rfl, rfl, rfl, State.sameBytes_trans (u.post_sameBytes q) (State.retire_sameBytes (State.sendOp _ _ _ _) 4), rfl⟩

/-- Under DET it waits with its context for the close of a round (R109, R110). -/
theorem State.postOrdered_retire (hreqs : u.cx.reqs = []) :
    ((u.postOrdered q).retire 4).cx.pc = u.cx.pc + 4 ∧
      ((u.postOrdered q).retire 4).cx.reqs = [{ q with sent := false }] ∧
      ((u.postOrdered q).retire 4).cx.x = u.cx.x ∧ u.sameBytes ((u.postOrdered q).retire 4) ∧
      ((u.postOrdered q).retire 4).cx.stop = .ordered ∧ ((u.postOrdered q).retire 4).objMsgs = u.objMsgs := by
  have hcx : (u.postOrdered q).cx = { u.cx with reqs := [{ q with sent := false }], stop := .ordered } := by
    unfold State.postOrdered
    rw [State.cx_modCx, State.cx_post, hreqs]
    rfl
  rw [State.cx_retire, hcx]
  exact ⟨rfl, rfl, rfl, State.sameBytes_trans (State.sameBytes_trans (u.post_sameBytes _) (State.modCx_sameBytes _ _))
    (State.retire_sameBytes _ 4), rfl, rfl⟩

end

/-! ## The object instructions -/

section
variable {g : Guard} {kind : ReqKind} {d a : Reg} {value : State → Except Stop DWord} {v : DWord} {e : EA} {s u : State}

/-- A misaligned object address is fault 0x05 (R271). -/
theorem objectOp_traps_misaligned (hg : s.guardPasses g = true) (hq : s.quiet) (hres : s.restartable = false)
    (ha : s.regFree a = true) (hd : s.regFree d = true) (hv : value s = .ok v) (halign : (s.cx.xr a).toNat % 64 ≠ 0)
    (htrap : s.trapFree) :
    ∃ t, instr g (objectOp kind d a value) s = .next t ∧ s.trapsTo t 0x05 (s.cx.xr a) (dw 0) :=
  ⟨_, instr_stop hg (objectOp_misaligned hq hres ha hd hv halign), (State.trapHere_trapsTo htrap _).1⟩

/-- A check that fails behind the translation is a trap of the instruction. -/
theorem objectOp_traps {cause : Byte} {info : DWord} (hg : s.guardPasses g = true) (hq : s.quiet)
    (hres : s.restartable = false) (ha : s.regFree a = true) (hd : s.regFree d = true) (hv : value s = .ok v)
    (halign : (s.cx.xr a).toNat % 64 = 0) (hreach : s.reaches (s.cx.xr a) 64 .store e u) (htrap : s.trapFree)
    (hcheck : u.objectChecked kind d (s.cx.xr a) v e = .error (.trapIn ⟨cause, s.cx.xr a, info⟩ u)) :
    ∃ t, instr g (objectOp kind d a value) s = .next t ∧ s.trapsTo t cause (s.cx.xr a) info := by
  have hsame := State.sameButTlbs_of_reaches hreach
  exact ⟨_, instr_stop hg ((objectOp_reaches hq hres ha hd hv halign hreach).trans hcheck),
    hsame.trapsTo (State.trapHere_trapsTo (hsame.trapFree htrap) _).1⟩

/-- Nothing being amiss, the request is issued. -/
theorem objectOp_issues (hg : s.guardPasses g = true) (hq : s.quiet) (hu : s.unbound) (hres : s.restartable = false)
    (ha : s.regFree a = true) (hd : s.regFree d = true) (hv : value s = .ok v) (halign : (s.cx.xr a).toNat % 64 = 0)
    (hreach : s.reaches (s.cx.xr a) 64 .store e u) (hV : e.isV = false) (hobj : e.isObj = true)
    (hvalue : kind = .opush → v ≠ noVersion) (hpa : s.paUnreachable e.pa = false) :
    ∃ t q, instr g (objectOp kind d a value) s = .next t ∧ t.cx.pc = s.cx.pc + 4 ∧ t.cx.reqs = [q] ∧ q.kind = kind ∧
      q.va = s.cx.xr a ∧ q.pa = e.pa ∧ q.data = v ∧ q.dest = (if d = 0 then none else some d) ∧ q.reply = none ∧
      q.fault = none ∧ q.gate = (kind == .opop) ∧ t.cx.x = s.cx.x ∧ s.sameBytes t ∧
      (s.me.det = false → ∃ m, t.objMsgs = s.objMsgs ++ [m] ∧ m.op = kind ∧ m.pa = e.pa ∧ m.value = v ∧ m.req = q.id ∧
        m.core = s.cur ∧ m.ctx = s.curCtx) ∧
      (s.me.det = true → t.cx.stop = .ordered ∧ q.sent = false ∧ t.objMsgs = s.objMsgs) := by
  have hsame := State.sameButTlbs_of_reaches hreach
  obtain ⟨hcur, hctx, -⟩ := hsame.cur_eq
  have hva := State.va_of_reaches hreach
  have hquiet := hsame.quiet hq
  have hpa' : u.paUnreachable e.pa = false := by
    obtain ⟨l, cs, n, rfl, -⟩ := hsame
    exact hpa
  have hmsgs : u.objMsgs = s.objMsgs := by
    obtain ⟨l, cs, n, rfl, -⟩ := hsame
    rfl
  have hdet : u.me.det = s.me.det := by rw [hsame.me_eq]
  have hbody := (objectOp_reaches hq hres ha hd hv halign hreach).trans
    (State.objectChecked_issues (d := d) hquiet (hsame.unbound hu) hV hobj hvalue hpa' _)
  rw [hdet] at hbody
  cases hs : s.me.det with
  | false =>
    rw [hs, if_neg Bool.false_ne_true] at hbody
    obtain ⟨hpc, hreqs, hx, hbytes, hsent⟩ :=
      State.issueObj_retire (q := u.objRequest kind d v e) hquiet.1 rfl
    exact ⟨_, _, instr_ok hg hbody, hpc.trans (by rw [hsame.cx_eq]), hreqs, rfl, hva, rfl, rfl, rfl, rfl, rfl, rfl,
      hx.trans (by rw [hsame.cx_eq]), State.sameBytes_trans hsame.sameBytes hbytes,
      fun _ => ⟨_, hsent.trans (by rw [hmsgs]), rfl, rfl, rfl, rfl, hcur, hctx⟩, fun h => absurd h Bool.false_ne_true⟩
  | true =>
    rw [hs, if_pos rfl] at hbody
    obtain ⟨hpc, hreqs, hx, hbytes, hstop, hsent⟩ :=
      State.postOrdered_retire (q := u.objRequest kind d v e) hquiet.1
    exact ⟨_, _, instr_ok hg hbody, hpc.trans (by rw [hsame.cx_eq]), hreqs, rfl, hva, rfl, rfl, rfl, rfl, rfl, rfl,
      hx.trans (by rw [hsame.cx_eq]), State.sameBytes_trans hsame.sameBytes hbytes,
      fun h => absurd h.symm Bool.false_ne_true, fun _ => ⟨hstop, rfl, hsent.trans hmsgs⟩⟩

end

/-- Settles O38: the three instructions are `objectOp` of their kinds, which traps (`objectOp_traps`) or issues
(`objectOp_issues`). -/
theorem objectResults : Obligations.ObjectResults := by
  unfold Obligations.ObjectResults
  intro g d a b e s u hg hres hq hu hready
  have hd := hready d (by simp)
  have ha := hready a (by simp)
  have hv := s.rdX_free b (hready b (by simp))
  refine ⟨fun halign hreach hV hobj hpa => ⟨fun hy => ?_, ?_, ?_⟩, fun halign hreach hV hobj htrap hy => ?_,
    fun halign hreach hV hobj htrap => ⟨?_, ?_, ?_⟩, fun halign htrap => ⟨?_, ?_, ?_⟩⟩
  · exact objectOp_issues (kind := .opush) hg hq hu hres ha hd hv halign hreach hV hobj (fun _ => hy) hpa
  · exact objectOp_issues (kind := .opop) hg hq hu hres ha hd rfl halign hreach hV hobj (fun h => nomatch h) hpa
  · exact objectOp_issues (kind := .ocnt) hg hq hu hres ha hd rfl halign hreach hV hobj (fun h => nomatch h) hpa
  · exact objectOp_traps hg hq hres ha hd (hv.trans (congrArg _ hy)) halign hreach htrap
      (State.objectChecked_sentinel hV hobj _)
  · exact objectOp_traps hg hq hres ha hd hv halign hreach htrap (State.objectChecked_noObj hV hobj _)
  · exact objectOp_traps (value := fun _ => .ok 0) hg hq hres ha hd rfl halign hreach htrap
      (State.objectChecked_noObj hV hobj _)
  · exact objectOp_traps (value := fun _ => .ok 0) hg hq hres ha hd rfl halign hreach htrap
      (State.objectChecked_noObj hV hobj _)
  · exact objectOp_traps_misaligned hg hq hres ha hd hv halign htrap
  · exact objectOp_traps_misaligned (value := fun _ => .ok 0) hg hq hres ha hd rfl halign htrap
  · exact objectOp_traps_misaligned (value := fun _ => .ok 0) hg hq hres ha hd rfl halign htrap

end Sys2Proof.Machine
end

/-! PROOFS. Copy requests (O32): the checks of XQ, what queueing leaves, the channel instructions. -/

section
namespace Sys2Proof.Machine

/-! ## Queueing (R156, R160, R161, R305) -/

section
variable {g : Guard} {d a b : Reg} {waits : Bool} {s : State}

/-- The request that four registers describe, before it has an id (R157). -/
def State.copyReq (s : State) (a : Reg) : CopyReq :=
  { w0 := s.cx.xr a, w1 := s.cx.xr (regPlus a 1), w2 := s.cx.xr (regPlus a 2), w3 := s.cx.xr (regPlus a 3), id := 0,
    released := false, seen := s.cx.seen
    layout := if fld (s.cx.xr a) 63 56 = 1 then
      some (s.me.layouts.get ⟨fld (s.cx.xr a) 51 50 % 4, Nat.mod_lt _ (by decide)⟩) else none }

theorem fld_63_56 (w : DWord) : fld w 63 56 = w.toNat / 2 ^ 56 := by
  have := w.isLt
  unfold fld
  omega

theorem fld_51_50 (w : DWord) : fld w 51 50 % 4 = w.toNat / 2 ^ 50 % 4 := by
  unfold fld
  omega

/-- The registers that XQ reads are free. -/
def State.copyReady (s : State) (d a : Reg) : Prop :=
  s.regFree d = true ∧ s.regFree a = true ∧ s.regFree (regPlus a 1) = true ∧ s.regFree (regPlus a 2) = true ∧
    s.regFree (regPlus a 3) = true

theorem xq_refused {w k : Nat} (hready : s.copyReady d a) (ha : a.val ≤ 28) (hres : s.restartable = false)
    (hfault : requestFault s.me (s.copyReq a) = some (w, k)) :
    xq waits d a s = fault 0x0F 0 (dw (w + 4 * k)) := by
  obtain ⟨-, h0, h1, h2, h3⟩ := hready
  unfold xq
  simp only [decide_eq_true ha, check_true, ok_bind, s.rdX_free _ h0, s.rdX_free _ h1, s.rdX_free _ h2, s.rdX_free _ h3,
    State.notInRestartable_free hres]
  unfold State.copyReq at hfault
  simp only [hfault, ite_self]

theorem xq_accepted (hready : s.copyReady d a) (ha : a.val ≤ 28) (hres : s.restartable = false) (hq : s.quiet)
    (hu : s.unbound) (hfault : requestFault s.me (s.copyReq a) = none) :
    xq waits d a s =
      if 8 ≤ s.me.fifo.length then (if waits then .error .wait else .ok (s.putX d (BitVec.allOnes 64)))
      else .ok ((s.modMe fun k => k.queueCopy (s.copyReq a)).putX d
        ((s.me.chans.get (s.copyReq a).chan).next.setWidth 64)) := by
  obtain ⟨hd, h0, h1, h2, h3⟩ := hready
  unfold xq
  simp only [decide_eq_true ha, check_true, ok_bind, s.rdX_free _ h0, s.rdX_free _ h1, s.rdX_free _ h2, s.rdX_free _ h3,
    State.notInRestartable_free hres]
  unfold State.copyReq at hfault
  simp only [hfault, ite_self, s.regReady_free d hd, State.memGate_quiet hq, State.settled_quiet hq hu, ok_bind]
  rfl

/-- The request as it stands in the FIFO: its channel's next id, and what a remembered firing gives it (R161, R51, R105). -/
def Core.queued (k : Core) (r : CopyReq) : CopyReq :=
  { r with
    id := (k.chans.get r.chan).next
    released := bit r.w0 52 && (k.chans.get r.chan).armed
    seen := if bit r.w0 52 && (k.chans.get r.chan).armed then
      joinSeen r.seen (k.xbar.term.get (r.chan.castLE (by decide))).seen else r.seen }

/-- Queueing a request appends it and advances its channel's next id; contexts and scratchpad stay. -/
theorem Core.queueCopy_fields (k : Core) (r : CopyReq) : (k.queueCopy r).fifo = k.fifo ++ [k.queued r] ∧
    ((k.queueCopy r).chans.get r.chan).next = (k.chans.get r.chan).next + 1 ∧ (k.queueCopy r).ctxs = k.ctxs ∧
    (k.queueCopy r).spad = k.spad := by
  unfold Core.queueCopy Core.queued
  cases hfree : bit r.w0 52 && (k.chans.get r.chan).armed with
  | false =>
    simp only [hfree, Bool.false_eq_true, if_false]
    exact ⟨rfl, congrArg Chan.next (vget_vput_self _ _ _), rfl, rfl⟩
  | true =>
    simp only [hfree, if_true]
    exact ⟨rfl, congrArg Chan.next (vget_vput_self _ _ _), rfl, rfl⟩

theorem State.me_putX_retire (s : State) (d : Reg) (v : DWord) (len : Nat) :
    ((s.putX d v).retire len).me =
      { s.me with ctxs := ((s.putX d v).retire len).me.ctxs, pcnt := ((s.putX d v).retire len).me.pcnt } := by
  rw [State.me_retire]
  unfold State.putX
  rw [State.me_modCx]
  rfl

theorem State.cx_putX_retire (s : State) (d : Reg) (v : DWord) (len : Nat) :
    ((s.putX d v).retire len).cx.pc = s.cx.pc + dw len ∧ ((s.putX d v).retire len).cx.x = (s.cx.setX d v).x := by
  rw [State.cx_retire, State.cx_putX]
  refine ⟨?_, rfl⟩
  unfold Ctx.setX
  split
  · rfl
  · rfl

theorem State.putX_retire_sameBytes (s : State) (d : Reg) (v : DWord) (len : Nat) :
    s.sameBytes ((s.putX d v).retire len) :=
  State.sameBytes_trans (s.modCx_sameBytes _) (State.retire_sameBytes _ len)

/-- XQ with room in the FIFO. -/
theorem instr_xq_queues (hg : s.guardPasses g = true) (hready : s.copyReady d a) (ha : a.val ≤ 28)
    (hres : s.restartable = false) (hq : s.quiet) (hu : s.unbound) (hfault : requestFault s.me (s.copyReq a) = none)
    (hroom : s.me.fifo.length < 8) :
    ∃ t, instr g (xq waits d a) s = .next t ∧ t.cx.pc = s.cx.pc + 4 ∧ s.sameBytes t ∧
      t.cx.x = (s.cx.setX d ((s.me.chans.get (s.copyReq a).chan).next.setWidth 64)).x ∧
      (t.me.chans.get (s.copyReq a).chan).next = (s.me.chans.get (s.copyReq a).chan).next + 1 ∧
      t.me.fifo = s.me.fifo ++ [s.me.queued (s.copyReq a)] := by
  have hbody := (xq_accepted (waits := waits) hready ha hres hq hu hfault).trans (if_neg (Nat.not_le.mpr hroom))
  obtain ⟨hfifo, hnext, -, -⟩ := s.me.queueCopy_fields (s.copyReq a)
  have hcx : (s.modMe fun k => k.queueCopy (s.copyReq a)).cx = s.cx :=
    State.cx_modMe_ctxs _ fun k => (k.queueCopy_fields _).2.2.1
  obtain ⟨hpc, hx⟩ := State.cx_putX_retire (s.modMe fun k => k.queueCopy (s.copyReq a)) d
    ((s.me.chans.get (s.copyReq a).chan).next.setWidth 64) 4
  refine ⟨_, instr_ok hg hbody, hpc.trans (by rw [hcx]; rfl), ?_, hx.trans (by rw [hcx]), ?_, ?_⟩
  · exact State.sameBytes_trans (State.modCore_sameBytes _ _ _ fun k => (k.queueCopy_fields _).2.2.2)
      (State.putX_retire_sameBytes _ _ _ _)
  · rw [State.me_putX_retire, State.me_modMe]
    exact hnext
  · rw [State.me_putX_retire, State.me_modMe]
    exact hfifo

/-- A context that waits at its instruction, and nothing else of its core. -/
theorem State.block_frame (s : State) : s.block.cx = { s.cx with stop := .waiting } ∧ s.block.me.fifo = s.me.fifo := by
  unfold State.block
  rw [State.me_modCx]
  exact ⟨State.cx_modCx _ _, rfl⟩

/-- XQ with a full FIFO: XQ.T returns all ones, XQ.W waits. -/
theorem exec_xqT_full (hg : s.guardPasses g = true) (hready : s.copyReady d a) (ha : a.val ≤ 28)
    (hres : s.restartable = false) (hq : s.quiet) (hu : s.unbound) (hfault : requestFault s.me (s.copyReq a) = none)
    (hfull : 8 ≤ s.me.fifo.length) : exec (.xqT g d a) s = s.doneX d (BitVec.allOnes 64) 4 :=
  show execXqT g d a s = _ from
    instr_ok hg ((xq_accepted (waits := false) hready ha hres hq hu hfault).trans (if_pos hfull))

theorem exec_xqW_full (hg : s.guardPasses g = true) (hready : s.copyReady d a) (ha : a.val ≤ 28)
    (hres : s.restartable = false) (hq : s.quiet) (hu : s.unbound) (hfault : requestFault s.me (s.copyReq a) = none)
    (hfull : 8 ≤ s.me.fifo.length) : exec (.xqW g d a) s = .next s.block :=
  show execXqW g d a s = _ from
    instr_stop hg ((xq_accepted (waits := true) hready ha hres hq hu hfault).trans (if_pos hfull))

/-- A trap leaves the copy FIFO. -/
theorem State.trapHere_fifo (h : s.trapFree) (q : TrapInfo) : (s.trapHere q).me.fifo = s.me.fifo := by
  rw [State.trapHere_eq h, State.me_modMe, State.me_modCx]
  rfl

theorem instr_xq_refused {w k : Nat} (hg : s.guardPasses g = true) (hready : s.copyReady d a) (ha : a.val ≤ 28)
    (hres : s.restartable = false) (htrap : s.trapFree) (hfault : requestFault s.me (s.copyReq a) = some (w, k)) :
    ∃ t, instr g (xq waits d a) s = .next t ∧ s.trapsTo t 0x0F 0 (dw (w + 4 * k)) ∧ t.me.fifo = s.me.fifo :=
  ⟨_, instr_stop hg (xq_refused hready ha hres hfault), (State.trapHere_trapsTo htrap _).1, State.trapHere_fifo htrap _⟩

end

/-! ## The channel instructions (R162, R164, R165) -/

section
variable {g : Guard} {d a b : Reg} {c : Fin 4} {s : State}

theorem chanOf_val {v : DWord} (h : v.toNat = c.val) : chanOf v = .ok c := by
  have hlt : v.toNat < 4 := h ▸ c.isLt
  unfold chanOf
  rw [decide_eq_true hlt, check_true, ok_bind]
  exact congrArg Except.ok (Fin.ext ((Nat.mod_eq_of_lt hlt).trans h))

/-- What a context comes to know leaves its PC and registers. -/
theorem State.cx_syncWith (s : State) (m : KMap Nat) :
    (s.syncWith s.cur s.curCtx m).cx = { s.cx with seen := joinSeen s.cx.seen m } := State.cx_modCx s _

theorem exec_xdone (hg : s.guardPasses g = true) (hq : s.quiet) (hd : s.regFree d = true) (ha : s.regFree a = true)
    (hc : (s.cx.xr a).toNat = c.val) :
    ∃ t, exec (.xdone g d a) s = .next t ∧ t.cx.pc = s.cx.pc + 4 ∧
      t.cx.x = (s.cx.setX d ((s.me.chans.get c).done.setWidth 64)).x := by
  set v : DWord := (s.me.chans.get c).done.setWidth 64
  have hcx : ((s.putX d v).syncWith s.cur s.curCtx (s.me.chans.get c).seen).cx =
      { s.cx.setX d v with seen := joinSeen (s.cx.setX d v).seen (s.me.chans.get c).seen } :=
    ((s.putX d v).cx_syncWith _).trans (by rw [State.cx_putX])
  refine ⟨((s.putX d v).syncWith s.cur s.curCtx (s.me.chans.get c).seen).retire 4,
    show execXdone g d a s = _ from instr_ok hg ?_, ?_, ?_⟩
  · simp only [State.syncPoint_quiet hq, s.rdX_free a ha, s.regReady_free d hd, chanOf_val hc, ok_bind]
    rfl
  · rw [State.cx_retire, hcx]
    exact congrArg (· + dw 4) (by unfold Ctx.setX; split <;> rfl)
  · rw [State.cx_retire, hcx]

/-- The distance to an id decides whether it is after another (R162). -/
theorem idAfter_iff (x y : Word) : idAfter x y = true ↔ 0 < (x - y).toNat ∧ (x - y).toNat < 2 ^ 31 := by
  have hzero : x - y ≠ 0 ↔ 0 < (x - y).toNat := by
    rw [Nat.pos_iff_ne_zero, ne_eq, ne_eq, BitVec.toNat_eq]
    rfl
  unfold idAfter
  rw [Bool.and_eq_true, decide_eq_true_eq, decide_eq_true_eq, hzero]

/-- What XWAIT does with a free context and a good channel number. -/
theorem exec_xwait_reached (hg : s.guardPasses g = true) (hq : s.quiet) (ha : s.regFree a = true) (hb : s.regFree b = true)
    (hc : (s.cx.xr a).toNat = c.val) (hreached : idAfter ((s.cx.xr b).setWidth 32) (s.me.chans.get c).done = false) :
    ∃ t, exec (.xwait g a b) s = .next t ∧ t.cx.pc = s.cx.pc + 4 ∧ t.cx.x = s.cx.x := by
  refine ⟨(s.syncWith s.cur s.curCtx (s.me.chans.get c).seen).retire 4, show execXwait g a b s = _ from instr_ok hg ?_, ?_, ?_⟩
  · simp only [State.syncPoint_quiet hq, s.rdX_free a ha, s.rdX_free b hb, chanOf_val hc, ok_bind, hreached]
    rfl
  · rw [State.cx_retire, State.cx_syncWith]
    rfl
  · rw [State.cx_retire, State.cx_syncWith]

theorem exec_xwait_waits (hg : s.guardPasses g = true) (hq : s.quiet) (ha : s.regFree a = true) (hb : s.regFree b = true)
    (hc : (s.cx.xr a).toNat = c.val) (hafter : idAfter ((s.cx.xr b).setWidth 32) (s.me.chans.get c).done = true)
    (hfault : (s.me.chans.get c).fault = none) : exec (.xwait g a b) s = .next s.block :=
  show execXwait g a b s = _ from instr_stop (e := .wait) hg (by
    simp only [State.syncPoint_quiet hq, s.rdX_free a ha, s.rdX_free b hb, chanOf_val hc, ok_bind, hafter, if_true, hfault])

theorem exec_xwait_faulted {cause : Byte} {addr : DWord} (hg : s.guardPasses g = true) (hq : s.quiet)
    (ha : s.regFree a = true) (hb : s.regFree b = true) (hc : (s.cx.xr a).toNat = c.val)
    (hafter : idAfter ((s.cx.xr b).setWidth 32) (s.me.chans.get c).done = true)
    (hfault : (s.me.chans.get c).fault = some (cause, addr)) (htrap : s.trapFree) :
    ∃ t, exec (.xwait g a b) s = .next t ∧
      s.trapsTo t cause addr (dw (c.val + 2 ^ 30 + ((s.me.chans.get c).done + 1).toNat * 2 ^ 32)) :=
  ⟨_, show execXwait g a b s = _ from instr_stop
      (e := .trap ⟨cause, addr, dw (c.val + 2 ^ 30 + ((s.me.chans.get c).done + 1).toNat * 2 ^ 32)⟩) hg (by
    simp only [State.syncPoint_quiet hq, s.rdX_free a ha, s.rdX_free b hb, chanOf_val hc, ok_bind, hafter, if_true, hfault]
    rfl), (State.trapHere_trapsTo htrap _).1⟩

theorem exec_xstat_status (hg : s.guardPasses g = true) (hd : s.regFree d = true) (ha : s.regFree a = true)
    (hb : s.regFree b = true) (hc : (s.cx.xr a).toNat = c.val) (hy : s.cx.xr b = 0) :
    exec (.xstat g d a b) s = s.doneX d (chanStatus s.me c) 4 :=
  show execXstat g d a b s = _ from instr_ok hg (by
    simp only [s.rdX_free a ha, s.rdX_free b hb, chanOf_val hc, ok_bind, hy, s.wrX_free d _ hd, if_true]
    rfl)

theorem exec_xstat_addr (hg : s.guardPasses g = true) (hd : s.regFree d = true) (ha : s.regFree a = true)
    (hb : s.regFree b = true) (hc : (s.cx.xr a).toNat = c.val) (hy : s.cx.xr b = 1) :
    exec (.xstat g d a b) s = s.doneX d (((s.me.chans.get c).fault.map Prod.snd).getD 0) 4 :=
  show execXstat g d a b s = _ from instr_ok hg (by
    simp only [s.rdX_free a ha, s.rdX_free b hb, chanOf_val hc, ok_bind, hy, s.wrX_free d _ hd]
    cases (s.me.chans.get c).fault <;> rfl)

/-- XCLR of a channel number alone skips the faulting request (R165). -/
theorem exec_xclr_skips {f : Byte × DWord} {run : CopyRun} (hg : s.guardPasses g = true) (ha : s.regFree a = true)
    (hc : (s.cx.xr a).toNat = c.val) (hfault : (s.me.chans.get c).fault = some f)
    (hrun : (s.me.chans.get c).running = some run) :
    ∃ t, exec (.xclr g a) s = .next t ∧ t.cx.pc = s.cx.pc + 4 ∧ t.cx.x = s.cx.x ∧
      t.me.chans.get c = { s.me.chans.get c with
        fault := none, running := none, done := run.req.id, seen := s.chanSeen s.cur c run.req } := by
  have hlt := c.isLt
  have hch : (⟨fld (s.cx.xr a) 1 0 % 4, Nat.mod_lt _ (by decide)⟩ : Fin 4) = c :=
    Fin.ext (show fld (s.cx.xr a) 1 0 % 4 = c.val by unfold fld; omega)
  have hretry : bit (s.cx.xr a) 2 = false := by
    unfold bit BitVec.getLsbD
    rw [hc, Nat.testBit_lt_two_pow (by omega)]
  have hrange : bit (s.cx.xr a) 3 = false := by
    unfold bit BitVec.getLsbD
    rw [hc, Nat.testBit_lt_two_pow (by omega)]
  obtain ⟨hpc, hx, -⟩ := s.retire_modMe (fun k => k.clearChan c false false (s.chanSeen s.cur c run.req)) 4
    (fun _ => rfl) (fun _ => rfl)
  refine ⟨_, show execXclr g a s = _ from instr_ok hg ?_, hpc, hx, ?_⟩
  · simp only [s.rdX_free a ha, ok_bind, decide_eq_true (show (s.cx.xr a).toNat < 16 by omega), check_true, hch, hretry,
      hrange, hrun]
    rfl
  · rw [State.me_retire, State.me_modMe]
    unfold Core.clearChan Core.modChan vmod
    simp only [vget_vput_self, hfault, hrun, Bool.false_eq_true, if_false]

end

/-- Settles O32: XQ by what it queues (`instr_xq_queues`), by its waits and its faults; the channel instructions one by one. -/
theorem copyResults : Obligations.CopyResults := by
  unfold Obligations.CopyResults
  intro g d a b s hg hq hu hfree w0 layout r q free after
  have hd := hfree d (by simp)
  have ha := hfree a (by simp)
  have hb := hfree b (by simp)
  have hready : s.copyReady d a := ⟨hd, ha, hfree _ (by simp), hfree _ (by simp), hfree _ (by simp)⟩
  have hr : s.copyReq a = r := by
    unfold State.copyReq
    simp only [fld_63_56, fld_51_50]
    rfl
  refine ⟨fun h28 hres hok hroom i hi => ?_, fun h28 hres hok hfull => ⟨?_, ?_⟩, fun h28 hres htrap w k hbad i hi => ?_,
    fun h => ?_⟩
  · rw [← hr] at hok ⊢
    obtain rfl | rfl := hi
    · exact instr_xq_queues hg hready h28 hres hq hu hok hroom
    · exact instr_xq_queues hg hready h28 hres hq hu hok hroom
  · rw [← hr] at hok
    exact exec_xqT_full hg hready h28 hres hq hu hok hfull
  · rw [← hr] at hok
    obtain ⟨hcx, hfifo⟩ := s.block_frame
    exact ⟨_, exec_xqW_full hg hready h28 hres hq hu hok hfull, hcx, hfifo⟩
  · rw [← hr] at hbad
    obtain rfl | rfl := hi
    · exact instr_xq_refused hg hready h28 hres htrap hbad
    · exact instr_xq_refused hg hready h28 hres htrap hbad
  · intro c k ahead
    refine ⟨exec_xdone hg hq hd ha rfl, fun hreached => ?_, fun hlow hhigh hnone => ?_,
      fun hlow hhigh htrap cause addr hf => ?_, exec_xstat_status hg hd ha hb rfl, fun hy => ?_, fun f run hf hrun => ?_⟩
    · refine exec_xwait_reached (c := c) hg hq ha hb rfl (Bool.eq_false_iff.mpr fun hafter => ?_)
      obtain ⟨hlow, hhigh⟩ : 0 < ahead ∧ ahead < 2 ^ 31 := (idAfter_iff _ _).mp hafter
      omega
    · exact ⟨_, exec_xwait_waits hg hq ha hb rfl ((idAfter_iff _ _).mpr ⟨hlow, hhigh⟩) hnone, s.block_frame.1⟩
    · exact exec_xwait_faulted hg hq ha hb rfl ((idAfter_iff _ _).mpr ⟨hlow, hhigh⟩) hf htrap
    · rw [exec_xstat_addr hg hd ha hb (c := c) rfl hy]
      cases (s.me.chans.get c).fault <;> rfl
    · obtain ⟨t, ht, hpc, -, hchan⟩ := exec_xclr_skips (c := c) hg ha rfl hf hrun
      exact ⟨t, ht, hpc, hchan⟩

end Sys2Proof.Machine
end

/-! PROOFS. What reading global memory leaves, and the layout registers (O30). -/

section
namespace Sys2Proof.Machine

/-! ## What reading global memory leaves (R81, R65, R90) -/

/-- Of every core only TLB, counters and contexts may differ, and of a context neither PC nor general registers do. -/
structure State.OnlyReads (s t : State) : Prop where
  cur : t.cur = s.cur
  curCtx : t.curCtx = s.curCtx
  core : ∀ c, t.core c = { s.core c with ctxs := (t.core c).ctxs, pcnt := (t.core c).pcnt, tlb := (t.core c).tlb }
  pc : ∀ c h, ((t.core c).ctx h).pc = ((s.core c).ctx h).pc
  x : ∀ c h, ((t.core c).ctx h).x = ((s.core c).ctx h).x

section
variable {s t u : State} {c : CoreId}

theorem State.OnlyReads.refl (s : State) : s.OnlyReads s := ⟨rfl, rfl, fun _ => rfl, fun _ _ => rfl, fun _ _ => rfl⟩

theorem State.OnlyReads.trans (h : s.OnlyReads t) (g : t.OnlyReads u) : s.OnlyReads u where
  cur := g.cur.trans h.cur
  curCtx := g.curCtx.trans h.curCtx
  core c := by rw [g.core c, h.core c]
  pc c i := (g.pc c i).trans (h.pc c i)
  x c i := (g.x c i).trans (h.x c i)

/-- Whatever leaves the cores leaves this. -/
theorem State.OnlyReads.of_cores (hcur : t.cur = s.cur) (hctx : t.curCtx = s.curCtx) (hcores : t.cores = s.cores) :
    s.OnlyReads t := by
  have hcore (d : CoreId) : t.core d = s.core d := State.core_congr hcores d
  exact ⟨hcur, hctx, fun d => by rw [hcore], fun d _ => by rw [hcore], fun d _ => by rw [hcore]⟩

theorem State.OnlyReads.of_sameButTlbs (h : s.sameButTlbs t) : s.OnlyReads t := by
  obtain ⟨l, cs, n, rfl, hcore⟩ := h
  have hctx (d : CoreId) (i : CtxId) :
      (({ s with ltlb := l, cores := cs, freeCtr := n } : State).core d).ctx i = (s.core d).ctx i := by rw [hcore d]; rfl
  exact ⟨rfl, rfl, fun d => by rw [hcore d], fun d i => by rw [hctx], fun d i => by rw [hctx]⟩

/-- A change of one core that leaves the rest of it, and PC and registers of its contexts. -/
theorem State.OnlyReads.of_modCore {f : Core → Core}
    (hcore : ∀ k, f k = { k with ctxs := (f k).ctxs, pcnt := (f k).pcnt, tlb := (f k).tlb })
    (hctx : ∀ k i, ((f k).ctx i).pc = (k.ctx i).pc ∧ ((f k).ctx i).x = (k.ctx i).x) : s.OnlyReads (s.modCore c f) := by
  refine ⟨rfl, rfl, fun d => ?_, fun d i => ?_, fun d i => ?_⟩ <;> by_cases hd : d = c
  · subst hd
    rw [State.core_modCore_self]
    exact hcore _
  · rw [State.core_modCore_ne _ _ _ _ hd]
  · subst hd
    rw [State.core_modCore_self]
    exact (hctx _ i).1
  · rw [State.core_modCore_ne _ _ _ _ hd]
  · subst hd
    rw [State.core_modCore_self]
    exact (hctx _ i).2
  · rw [State.core_modCore_ne _ _ _ _ hd]

/-- A change of one context that leaves its PC and its registers. -/
theorem Core.modCtx_pc_x (k : Core) (h : CtxId) {f : Ctx → Ctx} (hf : ∀ x, (f x).pc = x.pc ∧ (f x).x = x.x) (i : CtxId) :
    ((k.modCtx h f).ctx i).pc = (k.ctx i).pc ∧ ((k.modCtx h f).ctx i).x = (k.ctx i).x := by
  by_cases hi : i = h
  · subst hi
    rw [Core.ctx_modCtx_self]
    exact hf _
  · rw [Core.ctx_modCtx_ne _ _ _ _ hi]
    exact ⟨rfl, rfl⟩

theorem State.OnlyReads.of_modCtx {h : CtxId} {f : Ctx → Ctx} (hf : ∀ x, (f x).pc = x.pc ∧ (f x).x = x.x) :
    s.OnlyReads (s.modCtx c h f) :=
  .of_modCore (fun _ => rfl) fun k i => k.modCtx_pc_x h hf i

theorem State.OnlyReads.cx_pc (h : s.OnlyReads t) : t.cx.pc = s.cx.pc := by
  unfold State.cx State.me
  rw [h.cur, h.curCtx]
  exact h.pc _ _

theorem State.OnlyReads.cx_x (h : s.OnlyReads t) : t.cx.x = s.cx.x := by
  unfold State.cx State.me
  rw [h.cur, h.curCtx]
  exact h.x _ _

theorem State.OnlyReads.me_eq (h : s.OnlyReads t) :
    t.me = { s.me with ctxs := t.me.ctxs, pcnt := t.me.pcnt, tlb := t.me.tlb } := by
  have hme := h.core s.cur
  rw [← h.cur] at hme
  rw [State.core_cur, h.cur] at hme
  exact hme

theorem State.OnlyReads.draw (s : State) (k : Nat) : s.OnlyReads (s.draw k).2 := .of_cores rfl rfl rfl

theorem State.OnlyReads.hasRead (s : State) (c : CoreId) (h : CtxId) (pa : Nat) (r : Option (Nat × Write)) :
    s.OnlyReads (s.hasRead c h pa r) := by
  cases r with
  | none => exact .refl s
  | some r => exact .of_modCtx fun _ => ⟨rfl, rfl⟩

theorem State.OnlyReads.observe (s : State) (c : CoreId) (h : CtxId) (pa n : Nat) :
    s.OnlyReads (s.observe c h pa n).2.2 := by
  unfold State.observe
  dsimp only
  split
  · exact (State.OnlyReads.draw s 64).trans (.hasRead _ c h pa _)
  · exact .hasRead s c h pa _

theorem State.OnlyReads.wakeHome (s : State) (pa : Nat) : s.OnlyReads (s.wakeHome pa) := by
  refine .of_modCore (f := Core.wakeHome) (fun k => ?_) fun k i => ?_ <;> unfold Core.wakeHome <;> split
  · rfl
  · rfl
  · exact ⟨rfl, rfl⟩
  · exact k.modCtx_pc_x 11 (fun _ => by exact ⟨rfl, rfl⟩) i

/-- A line that a core's L1 takes may overflow, which wakes the home context of its landing (R65, R66). -/
theorem State.OnlyReads.overflowLine (s : State) (line : Nat) (c : CoreId) : s.OnlyReads (s.overflowLine line c) := by
  have hnotice : s.OnlyReads { s with
      dir := s.dir.put (lineOf line) { s.dirAt line with overflow := true }
      notices := s.notices.put (homeLanding line) (s.notices.get [] (homeLanding line) ++ [(lineOf line, c.val)]) } :=
    .of_cores rfl rfl rfl
  exact (hnotice.trans (.wakeHome _ line)).trans
    (.of_modCore (f := fun k => k.perf 0x21 1) (fun _ => rfl) fun _ _ => ⟨rfl, rfl⟩)

theorem State.OnlyReads.shareLine (s : State) (c : CoreId) (pa : Nat) : s.OnlyReads (s.shareLine c pa) := by
  unfold State.shareLine
  split
  · exact .refl s
  · split
    · exact .of_cores rfl rfl rfl
    · exact .overflowLine s _ c

/-! ## Loads that their instruction waits for -/

theorem State.OnlyReads.readPart {e : EA} {off n v : Nat} (h : s.readPart e off n = .ok (v, t)) : s.OnlyReads t := by
  unfold State.readPart at h
  obtain ⟨-, -, h⟩ := bind_ok h
  obtain ⟨-, -, h⟩ := bind_ok h
  obtain ⟨-, -, h⟩ := bind_ok h
  split at h
  · obtain rfl : s = t := congrArg Prod.snd (Except.ok.inj h)
    exact .refl s
  · split at h
    · obtain rfl : (s.draw 64).2 = t := congrArg Prod.snd (Except.ok.inj h)
      exact .draw s 64
    · obtain rfl := congrArg Prod.snd (Except.ok.inj h)
      have hobserve := State.OnlyReads.observe s s.cur s.curCtx (e.pa + off) n
      dsimp only
      split
      · exact hobserve.trans (.shareLine _ _ _)
      · exact hobserve

theorem State.OnlyReads.readWait {e : EA} {i : Nat} {v : DWord} (h : s.readWait e i = .ok (v, t)) : s.OnlyReads t := by
  unfold State.readWait at h
  obtain ⟨⟨w, r⟩, hpart, h⟩ := bind_ok h
  obtain rfl : r = t := congrArg Prod.snd (Except.ok.inj h)
  exact .readPart hpart

theorem State.OnlyReads.readWaits {e : EA} {i n : Nat} {ws : List DWord} (h : s.readWaits e i n = .ok (ws, t)) :
    s.OnlyReads t := by
  induction n generalizing s i ws t with
  | zero =>
    obtain rfl : s = t := congrArg Prod.snd (Except.ok.inj h)
    exact .refl s
  | succ n ih =>
    unfold State.readWaits at h
    obtain ⟨⟨v, s1⟩, hfirst, h⟩ := bind_ok h
    obtain ⟨⟨r, s2⟩, hrest, h⟩ := bind_ok h
    obtain rfl : s2 = t := congrArg Prod.snd (Except.ok.inj h)
    exact (State.OnlyReads.readWait hfirst).trans (ih hrest)

end

/-! ## The layout registers (R169, R170, R308) -/

section
variable {g : Guard} {y n : Fin 4} {m : Fin 5} {d a : Reg} {s u v : State}

/-- A change of one layout register, then retiring: the others, PC and general registers as they stood. -/
theorem State.modLayout_retire (s : State) (y : Fin 4) (f : LayoutReg → LayoutReg) :
    ((s.modLayout y f).retire 4).cx.pc = s.cx.pc + 4 ∧ ((s.modLayout y f).retire 4).cx.x = s.cx.x ∧
      ((s.modLayout y f).retire 4).me.layouts.get y = f (s.me.layouts.get y) ∧
      ∀ z, z ≠ y → ((s.modLayout y f).retire 4).me.layouts.get z = s.me.layouts.get z := by
  obtain ⟨hpc, hx, -⟩ := s.retire_modMe (fun k => { k with layouts := vmod k.layouts y f }) 4 (fun _ => rfl) (fun _ => rfl)
  have hlayouts : ((s.modLayout y f).retire 4).me.layouts = vmod s.me.layouts y f := by
    rw [State.me_retire]
    unfold State.modLayout
    rw [State.me_modMe]
  rw [hlayouts]
  exact ⟨hpc, hx, vget_vput_self _ _ _, fun z hz => vget_vput_ne _ _ _ _ hz⟩

theorem execYld_takes {e : EA} {ws : List DWord} {r : LayoutRec} (hg : s.guardPasses g = true) (hungated : s.ungated)
    (ha : s.regFree a = true) (hreach : s.reaches (s.cx.xr a) 64 .load e u) (hread : u.readWaits e 0 8 = .ok (ws, v))
    (hrec : layoutOf ws = some r) : execYld g y a s =
      .next ((v.modLayout y fun q => { q with record := some r, ext := Vector.replicate 4 0 }).retire 4) := by
  unfold execYld
  refine instr_ok hg ?_
  simp only [s.rdX_free a ha, State.memGate_ungated hungated, State.globalEA_of_reaches hreach, hread, hrec, ok_bind]
  rfl

theorem LayoutReg.read_none {q : LayoutReg} (h : q.record = none) (m : Fin 5) : q.read m = 0 := by
  unfold LayoutReg.read
  rw [h]
  rfl

theorem LayoutReg.read_some {q : LayoutReg} {r : LayoutRec} (h : q.record = some r) (m : Fin 5) :
    q.read m = if h : m.val < 4 then (q.ext.get ⟨m.val, h⟩).setWidth 64 else q.base := by
  unfold LayoutReg.read
  rw [h]
  rfl

end

/-- Settles O30: each of YLD, YBASE and YEXT is one change of its layout register (`State.modLayout_retire`), that of YLD after
reads that leave the layouts as they are (`State.OnlyReads`). -/
theorem layoutResults : Obligations.LayoutResults := by
  unfold Obligations.LayoutResults
  intro g y n m d a e r ws s u v hg hready hungated x old sets
  have hd := hready d (by simp)
  have ha := hready a (by simp)
  have hsets (i : Instr) (w : State) (f : LayoutReg → LayoutReg) (P : LayoutReg → Prop) (hsame : s.OnlyReads w)
      (hexec : exec i s = .next ((w.modLayout y f).retire 4)) (hP : P (f old)) : sets i P := by
    obtain ⟨hpc, hx, hself, hne⟩ := w.modLayout_retire y f
    have hlayouts : w.me.layouts = s.me.layouts := by rw [hsame.me_eq]
    rw [hlayouts] at hself hne
    exact ⟨_, hexec, hpc.trans (by rw [hsame.cx_pc]), hx.trans hsame.cx_x, by rw [hself]; exact hP, hne⟩
  refine ⟨fun hreach hread hrec => ?_, ?_, ?_, ?_⟩
  · exact hsets (.yld g y a) v _ (fun q => q.record = some r ∧ ∀ k, q.ext.get k = 0)
      ((State.OnlyReads.of_sameButTlbs (State.sameButTlbs_of_reaches hreach)).trans (.readWaits hread))
      (execYld_takes hg hungated ha hreach hread hrec) ⟨rfl, fun k => Vector.getElem_replicate k.isLt⟩
  · exact hsets (.ybase g y a) s _ (fun q => q = { old with base := x }) (.refl s)
      (show execYbase g y a s = _ from instr_ok hg (by rw [s.rdX_free a ha]; rfl)) rfl
  · exact hsets (.yext g y a n) s _ (fun q => q.record = old.record ∧ q.base = old.base ∧ q.ext.get n = x.setWidth 32 ∧
        ∀ k, k ≠ n → q.ext.get k = old.ext.get k) (.refl s)
      (show execYext g y a n s = _ from instr_ok hg (by rw [s.rdX_free a ha]; rfl))
      ⟨rfl, rfl, vget_vput_self _ _ _, fun k hk => vget_vput_ne _ _ _ _ hk⟩
  · have hexec : exec (.yrd g d y m) s = s.doneX d (old.read m) 4 :=
      show execYrd g d y m s = _ from instr_ok hg (s.wrX_free d _ hd)
    rw [hexec]
    cases hrec : old.record with
    | none => rw [LayoutReg.read_none hrec]
    | some r => rw [LayoutReg.read_some hrec]

end Sys2Proof.Machine
end

/-! PROOFS. Streams (O31): what a change of a stream leaves, binding, pops and pushes. -/

section
namespace Sys2Proof.Machine

/-! ## A stream that no source watches (R311) -/

section
variable {c : CoreId} {st i : Fin 8} {s t : State}

/-- No source of a crossbar is set to a stream. -/
def Crossbar.unwatched (x : Crossbar) : Prop := ∀ k, (x.estr.get k).getLsbD 4 = false

theorem Crossbar.streamEdges_unwatched {x : Crossbar} (h : x.unwatched) (st : Fin 8) (before after : Nat) :
    x.streamEdges st before after = 0 := by
  have hbit (k : Fin 6) : bit (x.estr.get k) 4 = false := h k
  unfold Crossbar.streamEdges
  simp only [hbit, Bool.false_and, Bool.false_eq_true, if_false]
  rfl

theorem State.modStream_unwatched (h : (s.core c).xbar.unwatched) (st : Fin 8) (f : Stream → Stream) :
    s.modStream c st f =
      s.modCore c fun k => { k with streams := vput k.streams st (f ((s.core c).streams.get st)) } := by
  unfold State.modStream
  simp only [Crossbar.streamEdges_unwatched h, if_true]

/-- Which stream a register names depends on what binds the streams alone. -/
theorem State.streamNamed_congr (hctx : t.curCtx = s.curCtx)
    (hbound : ∀ j, (t.me.streams.get j).bound = (s.me.streams.get j).bound) (r : Reg) : t.streamNamed r = s.streamNamed r := by
  unfold State.streamNamed Stream.names
  simp only [hctx, hbound]

/-- The vector register that names a stream. -/
def streamReg (i : Fin 8) : Reg := ⟨24 + i.val, by omega⟩

theorem State.streamNamed_reg (h : ((s.me.streams.get i).names s.curCtx).isSome = true) :
    s.streamNamed (streamReg i) = some i := by
  have hge : 24 ≤ (streamReg i).val := Nat.le_add_right 24 i.val
  have hi : (⟨(streamReg i).val - 24, by have := (streamReg i).isLt; omega⟩ : Fin 8) = i :=
    Fin.ext (Nat.add_sub_cancel_left 24 i.val)
  unfold State.streamNamed
  simp only [dif_pos hge, hi, h, if_true]

theorem Stream.names_memory {st : Stream} {h : CtxId} {desc : StreamDesc} (hb : st.bound = some (.memory h desc)) :
    st.names h = some (!desc.output, desc.output) := by
  unfold Stream.names
  simp only [hb, if_true]

/-- A memory stream has no fault to raise for the instruction that names it, unless it is an output that has one. -/
theorem outputFault_memory {t : Stream} {h : CtxId} {desc : StreamDesc} (hb : t.bound = some (.memory h desc))
    (hfault : desc.output = true → t.fault = none) : outputFault i t = .ok () := by
  unfold outputFault
  cases hdir : desc.output with
  | true => rw [hb, hfault hdir]
  | false =>
    cases hf : t.fault with
    | none => rw [hb]
    | some f => simp only [hb, hdir]; rfl

/-- A memory stream that has no fault to raise may be used in its direction (R176). -/
theorem State.streamUse_memory {desc : StreamDesc} {push : Bool}
    (hb : (s.me.streams.get i).bound = some (.memory s.curCtx desc)) (hdir : desc.output = push)
    (hres : push = true → s.restartable = false) (hfault : push = true → (s.me.streams.get i).fault = none) :
    s.streamUse (streamReg i) push = .ok () := by
  have hnamed := State.streamNamed_reg (s := s) (i := i) (by rw [Stream.names_memory hb]; rfl)
  have hout : outputFault i (s.me.streams.get i) = .ok () := outputFault_memory hb fun h => hfault (hdir.symm.trans h)
  unfold State.streamUse
  simp only [hnamed, Stream.names_memory hb, hb, hout, hdir]
  cases push with
  | false => rfl
  | true =>
    rw [State.notInRestartable_free (hres rfl)]
    cases decide (space desc.base = 0) <;> rfl

end

/-! ## Moving whole vectors (R280) -/

section
variable {d a : Reg} {s t : State}

theorem lanesFrom_all (v : Vec) : lanesFrom 32 32 v = 0 := by
  unfold lanesFrom
  apply BitVec.eq_of_getLsbD_eq
  intro j hj
  rw [BitVec.getLsbD_shiftLeft]
  simp [show j < 1024 from hj]

/-- An unguarded move writes all lanes and sets no flag. -/
theorem moveLanes_always (d : Reg) (f : Nat → Word) (s : State) :
    moveLanes .always d f s = s.writeVec d (ofLanes 32 f 32) >>= fun t => .ok (t.laneFlags ((upto 32).map fun _ => (0, false))) := by
  have hv : ofLanes 32 (fun l => if s.lanePasses .always (id l) then (plain (f l)).1 else lane 32 l (s.oldVec d)) 32 |||
      lanesFrom 32 32 (s.oldVec d) = ofLanes 32 f 32 := by
    rw [lanesFrom_all]
    exact BitVec.or_zero
  unfold moveLanes State.writeLanes
  dsimp only
  rw [hv]
  rfl

/-- Flags of lanes leave all but FFLAGS and IFLAGS. -/
theorem State.laneFlags_frame (s : State) (rs : List (BitVec 5 × Bool)) :
    (s.laneFlags rs).cx = { s.cx with fflags := (s.laneFlags rs).cx.fflags } ∧
      (s.laneFlags rs).me.streams = s.me.streams := by
  unfold State.laneFlags State.setSat State.orFlags
  split
  · rw [State.cx_modMe_ctxs (fun k => { k with iflags := k.iflags ||| 1 }) (fun _ => rfl), State.me_modMe, State.cx_modCx,
      State.me_modCx]
    exact ⟨rfl, rfl⟩
  · rw [State.cx_modCx, State.me_modCx]
    exact ⟨rfl, rfl⟩

theorem State.laneFlags_curCtx (s : State) (rs : List (BitVec 5 × Bool)) : (s.laneFlags rs).curCtx = s.curCtx := by
  unfold State.laneFlags State.setSat
  split <;> rfl

theorem State.cx_putV (s : State) (r : Reg) (v : Vec) : (s.putV r v).cx = { s.cx with v := vput s.cx.v r v } := s.cx_modCx _

theorem State.writeVec_noStream (h : s.streamNamed d = none) (v : Vec) : s.writeVec d v = .ok (s.putV d v) := by
  unfold State.writeVec
  rw [h]

theorem execVmov_always {v : Vec} {s1 : State} (huse : s.streamUse d true = .ok ())
    (hsource : s.sources [a] = .ok ([(a, v)], s1)) (hwrite : s1.writeVec d (ofLanes 32 (fun l => lane 32 l v) 32) = .ok t) :
    execVmov .always d a s = .next ((t.laneFlags ((upto 32).map fun _ => (0, false))).retire 4) := by
  have hany : (upto 32).any (s.lanePasses .always) = true := List.any_eq_true.mpr ⟨0, by decide, rfl⟩
  have hval : valOf [(a, v)] a = v := valOf_single a v
  unfold execVmov instrLanes
  rw [if_pos hany]
  simp only [huse, hsource, ok_bind, moveLanes_always, hval, hwrite]
  rfl

end

/-! ## Popping and pushing a memory stream (R176, R177) -/

section
variable {i : Fin 8} {d a : Reg} {desc : StreamDesc} {s : State}

/-- The memory stream after one pop. -/
def Stream.popped (t : Stream) : Stream := { t with buf := t.buf.tail, reads := t.reads.tail, passed := t.passed + 1 }

/-- The memory stream after one push of a vector, at a request number and after what the context has seen. -/
def Stream.pushed (t : Stream) (w : Vec) (n : Nat) (m : KMap Nat) : Stream :=
  { t with buf := t.buf ++ [w], passed := t.passed + 1, upTo := t.upTo ++ [n], seen := t.seen ++ [m] }

theorem State.OnlyReads.sawReads (s : State) (l : List (Nat × Nat × Nat)) : s.OnlyReads (s.sawReads l) := by
  unfold State.sawReads
  induction l generalizing s with
  | nil => exact .refl s
  | cons r l ih => exact (State.OnlyReads.hasRead s _ _ _ _).trans (ih _)

/-- What a pop leaves: a new stream `i`, and beside it only what reads leave. -/
structure State.HasStream (s : State) (i : Fin 8) (st : Stream) (t : State) : Prop where
  curCtx : t.curCtx = s.curCtx
  pc : t.cx.pc = s.cx.pc
  x : t.cx.x = s.cx.x
  streams : t.me.streams = vput s.me.streams i st

theorem State.HasStream.get_ne {st : Stream} {t : State} (h : s.HasStream i st t) {k : Fin 8} (hk : k ≠ i) :
    t.me.streams.get k = s.me.streams.get k := by
  rw [h.streams]
  exact vget_vput_ne _ _ _ _ hk

theorem State.HasStream.get_self {st : Stream} {t : State} (h : s.HasStream i st t) : t.me.streams.get i = st := by
  rw [h.streams]
  exact vget_vput_self _ _ _

theorem State.HasStream.retire {st : Stream} {t : State} (h : s.HasStream i st t) : (t.retire 4).cx.pc = s.cx.pc + 4 ∧
    (t.retire 4).cx.x = s.cx.x ∧ (∀ k, k ≠ i → (t.retire 4).me.streams.get k = s.me.streams.get k) ∧
    (t.retire 4).me.streams.get i = st := by
  have hstreams : (t.retire 4).me.streams = t.me.streams := by rw [State.me_retire]
  refine ⟨?_, (t.cx_retire_x 4).trans h.x, fun k hk => ?_, ?_⟩
  · rw [State.cx_retire, h.pc]
    rfl
  · rw [hstreams, h.get_ne hk]
  · rw [hstreams, h.get_self]

/-- A change that leaves PC, general registers and streams. -/
theorem State.HasStream.then {st : Stream} {t u : State} (h : s.HasStream i st t) (hctx : u.curCtx = t.curCtx)
    (hpc : u.cx.pc = t.cx.pc) (hx : u.cx.x = t.cx.x) (hst : u.me.streams = t.me.streams) : s.HasStream i st u :=
  ⟨hctx.trans h.curCtx, hpc.trans h.pc, hx.trans h.x, hst.trans h.streams⟩

theorem State.HasStream.reads {st : Stream} {t u : State} (h : s.HasStream i st t) (hread : t.OnlyReads u) : s.HasStream i st u :=
  h.then hread.curCtx hread.cx_pc hread.cx_x (by rw [hread.me_eq])

theorem State.HasStream.modStream {t : State} (hcur : t.cur = s.cur) (hctx : t.curCtx = s.curCtx) (hcores : t.cores = s.cores)
    (hwatch : s.me.xbar.unwatched) (f : Stream → Stream) : s.HasStream i (f (s.me.streams.get i)) (t.modStream s.cur i f) := by
  have hcore : t.core s.cur = s.me := State.core_congr hcores s.cur
  have hw : (t.core s.cur).xbar.unwatched := by rw [hcore]; exact hwatch
  rw [State.modStream_unwatched hw, hcore, ← hcur]
  have hcx : t.cx = s.cx := by
    unfold State.cx State.me
    rw [hctx, hcur, hcore]
    rfl
  have hme : t.me = s.me := by
    unfold State.me
    rw [hcur]
    exact hcore
  have hmod := State.cx_modMe_ctxs (s := t) (fun k => { k with streams := vput k.streams i (f (s.me.streams.get i)) }) fun _ => rfl
  refine ⟨hctx, congrArg Ctx.pc (hmod.trans hcx), congrArg Ctx.x (hmod.trans hcx), ?_⟩
  rw [← hme]
  exact congrArg Core.streams (State.me_modMe t _)

/-- A pop takes the oldest vector of a memory input that has one ready. -/
theorem State.popStream_ready (hb : (s.me.streams.get i).bound = some (.memory s.curCtx desc))
    (hpassed : (s.me.streams.get i).passed < desc.vectors) (hready : (s.me.streams.get i).ready desc ≠ 0)
    (hwatch : s.me.xbar.unwatched) : ∃ t, s.popStream i = .ok ((s.me.streams.get i).buf.headD 0, t) ∧
      s.HasStream i (s.me.streams.get i).popped t := by
  refine ⟨_, ?_, (State.HasStream.modStream rfl rfl rfl hwatch Stream.popped).reads
    (.sawReads _ ((s.me.streams.get i).reads.headD []))⟩
  unfold State.popStream
  simp only [hb, if_neg (Nat.not_le.mpr hpassed), if_neg hready]
  rfl

theorem State.pushStream_room (hb : (s.me.streams.get i).bound = some (.memory s.curCtx desc)) (hq : s.cx.reqs = [])
    (hpassed : (s.me.streams.get i).passed < desc.vectors) (hroom : (s.me.streams.get i).buf.length < 8)
    (hwatch : s.me.xbar.unwatched) (w : Vec) : ∃ t, s.pushStream i w = .ok t ∧ s.HasStream i
      ((s.me.streams.get i).pushed w s.reqCtr (if s.cx.relS = 0 then [] else s.cx.seen)) t ∧ t.cx.v = s.cx.v := by
  have hwait : s.relWait = .ok () := by
    unfold State.relWait
    rw [hq]
    rfl
  have hst := State.HasStream.modStream (s := s) (i := i) (t := { s with reqCtr := s.reqCtr + 1 }) rfl rfl rfl hwatch
    (Stream.pushed · w s.reqCtr (if s.cx.relS = 0 then [] else s.cx.seen))
  refine ⟨_, ?_, hst, ?_⟩
  · unfold State.pushStream
    simp only [hb, hwait, ok_bind, if_neg (Nat.not_le.mpr hpassed), if_neg (Nat.not_le.mpr hroom)]
    rfl
  · rw [State.modStream_unwatched (s := { s with reqCtr := s.reqCtr + 1 }) hwatch]
    exact congrArg Ctx.v (State.cx_modMe_ctxs (s := { s with reqCtr := s.reqCtr + 1 })
      (fun k => { k with streams := vput k.streams i _ }) fun _ => rfl)

/-- An instruction whose one source names a stream pops it once. -/
theorem State.sources_pop {v : Vec} {t : State} (huse : s.streamUse (streamReg i) false = .ok ())
    (hnamed : s.streamNamed (streamReg i) = some i) (hpop : s.popStream i = .ok (v, t)) :
    s.sources [streamReg i] = .ok ([(streamReg i, v)], t) := by
  have hread : s.readVecs [] [streamReg i] = .ok ([(streamReg i, v)], t) := by
    unfold State.readVecs
    simp only [hnamed, hpop, ok_bind]
    rfl
  show ((s.streamUse (streamReg i) false >>= fun _ => pure PUnit.unit) >>= fun _ => s.readVecs [] [streamReg i]) = _
  rw [huse]
  exact hread

theorem State.HasStream.laneFlags {st : Stream} {t : State} (h : s.HasStream i st t) (rs : List (BitVec 5 × Bool)) :
    s.HasStream i st (t.laneFlags rs) := by
  obtain ⟨hcx, hst⟩ := t.laneFlags_frame rs
  exact h.then (t.laneFlags_curCtx rs) (by rw [hcx]) (by rw [hcx]) hst

theorem State.HasStream.putV {st : Stream} {t : State} (h : s.HasStream i st t) (r : Reg) (v : Vec) :
    s.HasStream i st (t.putV r v) :=
  h.then rfl (by rw [State.cx_putV]) (by rw [State.cx_putV])
    ((congrArg Core.streams (t.me_modCx fun x => { x with v := vput x.v r v })).trans rfl)

/-- A move from a memory input with a vector ready (R176). -/
theorem execVmov_pops (hb : (s.me.streams.get i).bound = some (.memory s.curCtx desc)) (hdir : desc.output = false)
    (hpassed : (s.me.streams.get i).passed < desc.vectors) (hready : (s.me.streams.get i).ready desc ≠ 0)
    (hwatch : s.me.xbar.unwatched) (hd : s.streamNamed d = none) : ∃ t, execVmov .always d (streamReg i) s = .next (t.retire 4) ∧
      s.HasStream i (s.me.streams.get i).popped t ∧
      t.cx.v.get d = ofLanes 32 (fun l => lane 32 l ((s.me.streams.get i).buf.headD 0)) 32 := by
  obtain ⟨t, hpop, hst⟩ := State.popStream_ready hb hpassed hready hwatch
  have hnamed := State.streamNamed_reg (s := s) (i := i) (by rw [Stream.names_memory hb]; rfl)
  have huse := State.streamUse_memory hb hdir (fun h => nomatch h) (fun h => nomatch h)
  have hbound (j : Fin 8) : (t.me.streams.get j).bound = (s.me.streams.get j).bound := by
    by_cases hj : j = i
    · rw [hj, hst.get_self]
      rfl
    · rw [hst.get_ne hj]
  have hwrite := State.writeVec_noStream ((State.streamNamed_congr hst.curCtx hbound d).trans hd)
    (ofLanes 32 (fun l => lane 32 l ((s.me.streams.get i).buf.headD 0)) 32)
  refine ⟨_, execVmov_always (State.streamUse_noStream hd true) (State.sources_pop huse hnamed hpop) hwrite, ?_, ?_⟩
  · exact (hst.putV d _).laneFlags _
  · rw [(State.laneFlags_frame _ _).1]
    rw [State.cx_putV]
    exact vget_vput_self _ _ _

/-- A move to a memory output with room in its buffer (R177). -/
theorem execVmov_pushes (hb : (s.me.streams.get i).bound = some (.memory s.curCtx desc)) (hdir : desc.output = true)
    (hfault : (s.me.streams.get i).fault = none) (hpassed : (s.me.streams.get i).passed < desc.vectors)
    (hroom : (s.me.streams.get i).buf.length < 8) (hres : s.restartable = false) (hq : s.cx.reqs = [])
    (hwatch : s.me.xbar.unwatched) (ha : s.streamNamed a = none) : ∃ t,
      execVmov .always (streamReg i) a s = .next (t.retire 4) ∧ t.cx.v = s.cx.v ∧
      s.HasStream i ((s.me.streams.get i).pushed (ofLanes 32 (fun l => lane 32 l (s.cx.v.get a)) 32) s.reqCtr
        (if s.cx.relS = 0 then [] else s.cx.seen)) t := by
  obtain ⟨t, hpush, hst, hv⟩ := State.pushStream_room hb hq hpassed hroom hwatch
    (ofLanes 32 (fun l => lane 32 l (s.cx.v.get a)) 32)
  have hnamed := State.streamNamed_reg (s := s) (i := i) (by rw [Stream.names_memory hb]; rfl)
  have huse := State.streamUse_memory hb hdir (fun _ => hres) (fun _ => hfault)
  have hwrite : s.writeVec (streamReg i) (ofLanes 32 (fun l => lane 32 l (s.cx.v.get a)) 32) = .ok t := by
    unfold State.writeVec
    simp only [hnamed, hpush]
  refine ⟨_, execVmov_always huse (State.sources_single fun r hr => by rwa [List.mem_singleton.mp hr]) hwrite, ?_,
    hst.laneFlags _⟩
  rw [(State.laneFlags_frame _ _).1]
  exact hv

end

/-! ## Binding, unbinding and status (R175 to R179, R308) -/

section
variable {g : Guard} {i : Fin 8} {d a : Reg} {desc : StreamDesc} {s : State}

/-- Another stream in the place of one that is changed, the unit's accesses forgotten. -/
theorem State.HasStream.replace {t : State} (hcur : t.cur = s.cur) (hctx : t.curCtx = s.curCtx) (hcores : t.cores = s.cores)
    (f : Stream → Stream) : s.HasStream i (f (s.me.streams.get i))
      ((t.modMe fun k => { k with streams := vmod k.streams i f }).engForget s.cur (streamUnit i)) := by
  have hme : t.me = s.me := (State.core_congr hcores t.cur).trans (congrArg s.core hcur)
  have hcx : t.cx = s.cx := by
    unfold State.cx
    rw [hctx, hme]
  have hmod : (t.modMe fun k => { k with streams := vmod k.streams i f }).cx = t.cx :=
    State.cx_modMe_ctxs (fun k => { k with streams := vmod k.streams i f }) fun _ => rfl
  have hstreams : (t.modMe fun k => { k with streams := vmod k.streams i f }).me.streams = vmod t.me.streams i f :=
    congrArg Core.streams (State.me_modMe t _)
  exact ⟨hctx, congrArg Ctx.pc (hmod.trans hcx), congrArg Ctx.x (hmod.trans hcx), hme ▸ hstreams⟩

theorem Stream.endLink_unbound {t : Stream} (h : t.bound = none) (x : CtxId) : t.endLink x = t := by
  unfold Stream.endLink
  rw [h]

/-- A stream that is not bound is bound anew at once. -/
theorem State.rebindReady_unbound (h : (s.me.streams.get i).bound = none) : s.rebindReady i = .ok () := by
  have hsettled : (s.me.streams.get i).settled i = .ok () := by
    unfold Stream.settled
    rw [h]
  have hdrains : (s.me.streams.get i).drains = false := by
    unfold Stream.drains
    rw [h]
  unfold State.rebindReady
  simp only [hsettled, ok_bind, Stream.endLink_unbound h, hdrains]
  rfl

/-- A new memory stream of a context, bound at a request number. -/
def Stream.boundTo (h : CtxId) (desc : StreamDesc) (n : Nat) : Stream :=
  { Stream.unbound with bound := some (.memory h desc), boundAt := n }

theorem execSbind_binds (hg : s.guardPasses g = true) (hq : s.quiet) (ha : s.regFree a = true)
    (hb : (s.me.streams.get i).bound = none) (hfits : (s.cx.xr a).toNat + 64 ≤ 0x40000) (halign : (s.cx.xr a).toNat % 64 = 0)
    (hsound : s.sound (s.cx.xr a).toNat 64) (hdesc : streamDescOf (s.spadWords (s.cx.xr a).toNat 8) = .ok desc) :
    ∃ t, execSbind g i a s = .next (t.retire 4) ∧ s.HasStream i (.boundTo s.curCtx desc s.reqCtr) t := by
  have hbound : decide ((s.cx.xr a).toNat + 64 - 1 ≤ 0x3FFFF) = true := decide_eq_true (by omega)
  have hspad : spadCheck (s.cx.xr a) 64 64 = .ok (s.cx.xr a).toNat := by
    unfold spadCheck
    rw [hbound, decide_eq_true halign]
    rfl
  have hst := State.HasStream.replace (s := s) (i := i) (t := { s with reqCtr := s.reqCtr + 1 }) rfl rfl rfl
    fun _ => .boundTo s.curCtx desc s.reqCtr
  refine ⟨_, instr_ok hg ?_, hst⟩
  simp only [s.rdX_free a ha, State.memGate_quiet hq, hspad, State.spadSound_of_sound hsound, hdesc,
    State.rebindReady_unbound hb, ok_bind]
  rfl

/-- SUNB of a memory input: the vector register that named it holds drawn bits. -/
theorem execSunb_input (hg : s.guardPasses g = true) (hb : (s.me.streams.get i).bound = some (.memory s.curCtx desc))
    (hdir : desc.output = false) : ∃ t, execSunb g i s = .next ((t.putV (streamReg i) (s.draw 1024).1).retire 4) ∧
      s.HasStream i .unbound t ∧ t.cx.v = s.cx.v := by
  have hready : s.unbindReady i = .ok () := by
    unfold State.unbindReady Stream.settled
    simp only [hb, hdir]
    rfl
  have howns : s.ownsStream i = true := by
    unfold State.ownsStream
    rw [Stream.names_memory hb]
    rfl
  have hunbind : (s.me.streams.get i).unbind s.curCtx = .unbound := by
    unfold Stream.unbind
    simp only [hb, if_true]
  have hst := State.HasStream.replace (s := s) (i := i) (t := (s.draw 1024).2) rfl rfl rfl (Stream.unbind · s.curCtx)
  rw [hunbind] at hst
  refine ⟨_, instr_ok hg ?_, hst, congrArg Ctx.v (State.cx_modMe_ctxs (s := (s.draw 1024).2)
    (fun k => { k with streams := vmod k.streams i (Stream.unbind · s.curCtx) }) fun _ => rfl)⟩
  rw [hready, ok_bind, howns]
  rfl

/-- The link that SLINK of a context makes with another: the context reads it where bit 4 of the operand says so. -/
def linkOf (h other : CtxId) (reads : Bool) : StreamBind :=
  .link (if reads then other else h) (if reads then h else other) (!reads) reads

theorem Stream.linkTo_unbound {t : Stream} (h : t.bound = none) (x other : CtxId) (reads : Bool) :
    t.linkTo x other reads = { Stream.unbound with bound := some (linkOf x other reads) } := by
  unfold Stream.linkTo
  rw [h]
  rfl

theorem Stream.linkWaits_unbound {t : Stream} (h : t.bound = none) (x other : CtxId) (reads : Bool) :
    t.linkWaits x other reads = false := by
  unfold Stream.linkWaits
  rw [h]

theorem execSlink_links (hg : s.guardPasses g = true) (ha : s.regFree a = true) (hb : (s.me.streams.get i).bound = none)
    (hsmall : (s.cx.xr a).toNat < 32) (hctx : fld (s.cx.xr a) 3 0 < 14) :
    ∃ t, execSlink g i a s = .next (t.retire 4) ∧ s.HasStream i
      { Stream.unbound with bound := some (linkOf s.curCtx ⟨fld (s.cx.xr a) 3 0, hctx⟩ (bit (s.cx.xr a) 4)) } t := by
  have hfld : fld (s.cx.xr a) 63 5 = 0 := by
    unfold fld
    omega
  have hst := State.HasStream.replace (s := s) (i := i) rfl rfl rfl
    (Stream.linkTo · s.curCtx ⟨fld (s.cx.xr a) 3 0, hctx⟩ (bit (s.cx.xr a) 4))
  rw [Stream.linkTo_unbound hb] at hst
  refine ⟨_, instr_ok hg ?_, hst⟩
  simp only [s.rdX_free a ha, ok_bind, hfld, dif_pos hctx, Stream.linkWaits_unbound hb, State.rebindReady_unbound hb]
  rfl

theorem streamStatus_unbound {t : Stream} (h : t.bound = none) (x : CtxId) : streamStatus x t = 0 := by
  unfold streamStatus
  rw [h]

theorem streamStatus_input {t : Stream} {x : CtxId} (hb : t.bound = some (.memory x desc)) (hdir : desc.output = false)
    (hfault : t.fault = none) (hpassed : t.passed < desc.vectors) (h : CtxId) :
    streamStatus h t = dw (1 + 16 * (if t.ovr then 1 else 0) + 256 * t.ready desc) := by
  unfold streamStatus
  simp only [hb, hdir, hfault, decide_eq_false (Nat.not_le.mpr hpassed)]
  unfold b2n
  congr 1
  simp only [Bool.false_eq_true, if_false]
  omega

theorem exec_sstat (hg : s.guardPasses g = true) (hd : s.regFree d = true) :
    exec (.sstat g d i) s = s.doneX d (streamStatus s.curCtx (s.me.streams.get i)) 4 :=
  show execSstat g d i s = _ from instr_ok hg (s.wrX_free d _ hd)

/-- Bit 4 of a number below 32. -/
theorem bit_4_of_lt {v : DWord} (h : v.toNat < 32) : bit v 4 = decide (16 ≤ v.toNat) := by
  unfold bit
  rw [BitVec.getLsbD, Nat.testBit_eq_decide_div_mod_eq]
  exact decide_eq_decide.mpr (by omega)

end

/-- Settles O31: each instruction leaves one new stream in its place (`State.HasStream`); no source watches a stream, so that no
pulse follows, and a pop beside it leaves what reads leave (`State.OnlyReads.sawReads`). -/
theorem streamResults : Obligations.StreamResults := by
  unfold Obligations.StreamResults
  intro g i d a desc s hg hready hq hwatch st x vi does
  have hd := hready d (by simp)
  have ha := hready a (by simp)
  refine ⟨fun hb hfits halign hsound hdesc => ?_, fun hb hdir => ?_, fun hb hctx hsmall => ?_, fun hb => ?_,
    fun hb hdir hfault hpassed => ?_, fun hb hdir hpassed havail hnamed => ?_,
    fun hb hdir hfault hpassed hroom hres hnamed => ?_⟩
  · obtain ⟨t, hexec, hst⟩ := execSbind_binds hg hq ha hb hfits halign hsound hdesc
    obtain ⟨hpc, hx, hne, hself⟩ := hst.retire
    exact ⟨_, hexec, hpc, hx, hne, hself⟩
  · obtain ⟨t, hexec, hst, hv⟩ := execSunb_input hg hb hdir
    obtain ⟨hpc, hx, hne, hself⟩ := (hst.putV (streamReg i) (s.draw 1024).1).retire
    refine ⟨_, hexec, hpc, hx, hne, by rw [hself]; rfl, fun r hr => ?_⟩
    rw [State.cx_retire_v, State.cx_putV, hv]
    exact vget_vput_ne _ _ _ _ hr
  · have hlow : fld x 3 0 = x.toNat % 16 := by
      unfold fld
      omega
    obtain ⟨t, hexec, hst⟩ := execSlink_links hg ha hb hsmall (hlow ▸ hctx)
    obtain ⟨hpc, hx, hne, hself⟩ := hst.retire
    refine ⟨_, hexec, hpc, hx, hne, ?_⟩
    beta_reduce
    rw [hself, bit_4_of_lt hsmall]
    by_cases h16 : x.toNat < 16
    · rw [decide_eq_false (Nat.not_le.mpr h16), if_pos h16]
      exact congrArg (fun o => some (linkOf s.curCtx o false)) (Fin.ext hlow)
    · rw [decide_eq_true (Nat.not_lt.mp h16), if_neg h16]
      exact congrArg (fun o => some (linkOf s.curCtx o true)) (Fin.ext hlow)
  · rw [exec_sstat hg hd, streamStatus_unbound hb]
  · rw [exec_sstat hg hd, streamStatus_input hb hdir hfault hpassed]
  · obtain ⟨t, hexec, hst, hv⟩ := execVmov_pops hb hdir hpassed havail hwatch hnamed
    obtain ⟨hpc, hx, hne, hself⟩ := hst.retire
    refine ⟨_, hexec, hpc, hx, hne, fun l hl => ?_, hself⟩
    rw [State.cx_retire_v, hv]
    exact lane_ofLanes (by decide) _ hl (by decide)
  · obtain ⟨t, hexec, hv, hst⟩ := execVmov_pushes hb hdir hfault hpassed hroom hres hq.1 hwatch hnamed
    obtain ⟨hpc, hx, hne, hself⟩ := hst.retire
    exact ⟨_, hexec, hpc, hx, hne, (t.cx_retire_v 4).trans hv, _, fun l hl => lane_ofLanes (by decide) _ hl (by decide), hself⟩

end Sys2Proof.Machine
end

/-! PROOFS. The group instructions of a member (O34): injections, extractions, CSTAT, CABORT and CFREE. -/

section
namespace Sys2Proof.Machine

/-! ## Lists and bytes -/

theorem removeNat_not_mem {l : List Nat} (h : l.Nodup) (i : Nat) : i ∉ removeNat l i := by
  induction l with
  | nil => exact List.not_mem_nil
  | cons k r ih =>
    obtain ⟨hk, hr⟩ := List.nodup_cons.mp h
    unfold removeNat
    split
    · next hik => exact hik ▸ hk
    · next hik => exact fun hmem => (List.mem_cons.mp hmem).elim hik (ih hr)

/-- A piece of the bytes read is what a read of the piece gives. -/
theorem Memory.read_piece (m : Memory) (a n i k : Nat) (h : i + k ≤ n) : ((m.read a n).drop i).take k = m.read (a + i) k := by
  induction i generalizing a n with
  | zero =>
    induction k generalizing a n with
    | zero => rfl
    | succ k ih =>
      obtain ⟨n, rfl⟩ : ∃ j, n = j + 1 := ⟨n - 1, by omega⟩
      exact congrArg (m.get a :: ·) (ih (a + 1) n (by omega))
  | succ i ih =>
    obtain ⟨n, rfl⟩ : ∃ j, n = j + 1 := ⟨n - 1, by omega⟩
    rw [Memory.read, List.drop_succ_cons, ih (a + 1) n (by omega), Nat.add_assoc, Nat.add_comm 1 i]

/-! ## The member that a handle names (R309) -/

section
variable {g : Guard} {a b d : Reg} {i r : Nat} {q : Group} {m : Member} {s : State} {x y : DWord}

theorem State.groupOf_ok (h : s.groupOf x = .ok (i, q, r, m)) : s.groups.find i = some q ∧ q.members[r]? = some m := by
  unfold State.groupOf at h
  split at h
  · cases h
  · next p hp =>
    split at h
    · cases h
    · split at h
      · cases h
      · split at h
        · cases h
        · next k hk =>
          split at h
          · cases h
          · cases h
            exact ⟨hp, hk⟩

/-- A change of one group leaves every byte and the issuing context. -/
theorem State.setGroup_sameBytes (s : State) (i : Nat) (p : Group) : s.sameBytes (s.setGroup i p) :=
  ⟨fun _ => rfl, fun _ _ => rfl⟩

theorem State.setGroup_find (s : State) (i : Nat) (p : Group) : (s.setGroup i p).groups.find i = some p :=
  KMap.find_put_self _ _ _

theorem Group.range_ok {q : Group} (halign : y.toNat % 8 = 0) (hfits : y.toNat + q.count * q.esize ≤ 0x40000) :
    q.range y = .ok y.toNat := by
  have hbound : decide (y.toNat + q.count * q.esize - 1 ≤ 0x3FFFF) = true := decide_eq_true (by omega)
  unfold Group.range spadCheck
  rw [hbound, decide_eq_true halign]
  split <;> rfl

/-! ## Injections (R182, R310) -/

/-- The group with a member's next injection in it, after what the member's context has seen. -/
def Group.injected (q : Group) (r : Nat) (m : Member) (held : Bool) (xs : List Word) (seen : KMap Nat) : Group :=
  { q with members := listPut q.members r { m with inj := some xs, held := held, injRound := m.injRound + 1 }
           seen := q.seen.put (m.injRound + 1) (joinSeen (q.seenIn (m.injRound + 1)) seen) }

/-- The issuing core after it: the group is the last that it injected in. -/
def Core.injects (k : Core) (i : Nat) (held : Bool) : Core :=
  { k with lastGroup := some i, heldInj := if held then k.heldInj ++ [i] else k.heldInj }

theorem State.inject_free (hab : q.abortedAt r = false) (held : Bool) (xs : List Word) :
    s.inject i r q m held xs = (s.setGroup i (q.injected r m held xs s.cx.seen)).modMe (·.injects i held) := by
  unfold State.inject
  rw [hab]
  rfl

/-- An injection that does not wait completes. -/
theorem instr_injects {body : State → Act} {held : Bool} {xs : List Word} (hg : s.guardPasses g = true)
    (hab : q.abortedAt r = false) (hbody : body s = .ok (s.inject i r q m held xs)) :
    ∃ t, instr g body s = .next t ∧ t.cx.pc = s.cx.pc + 4 ∧ s.sameBytes t ∧
      (t.groups.find i = some (q.injected r m held xs s.cx.seen) ∧ t.me.lastGroup = some i ∧
        t.me.heldInj = (if held then s.me.heldInj ++ [i] else s.me.heldInj) ∧ t.cx.x = s.cx.x) := by
  rw [State.inject_free hab] at hbody
  have hcx : ((s.setGroup i (q.injected r m held xs s.cx.seen)).modMe (·.injects i held)).cx = s.cx :=
    State.cx_modMe_ctxs (s := s.setGroup i (q.injected r m held xs s.cx.seen)) (·.injects i held) fun _ => rfl
  have hme : ((s.setGroup i (q.injected r m held xs s.cx.seen)).modMe (·.injects i held)).me = s.me.injects i held :=
    State.me_modMe _ _
  refine instr_completes hg hbody (congrArg Ctx.pc hcx) (State.sameBytes_trans (s.setGroup_sameBytes i _)
    (State.modCore_sameBytes _ _ (·.injects i held) fun _ => rfl))
    ⟨s.setGroup_find i _, ?_, ?_, (State.cx_retire_x _ 4).trans (congrArg Ctx.x hcx)⟩
  · rw [State.me_retire, hme]
    rfl
  · rw [State.me_retire, hme]
    rfl

theorem State.injectWait_ready (hq : s.quiet) (hu : s.unbound) (hround : m.injRound = m.outRound) (hinj : m.inj = none) :
    s.injectWait q r m = .ok () := by
  unfold State.injectWait
  rw [State.settled_quiet hq hu, hround, hinj]
  simp

theorem cinj_injects (held : Bool) (hq : s.quiet) (hu : s.unbound) (hres : s.restartable = false) (ha : s.regFree a = true)
    (hgrp : s.groupOf (s.cx.xr a) = .ok (i, q, r, m)) (hround : m.injRound = m.outRound) (hinj : m.inj = none)
    (hb : s.noStreams [b]) : cinj held a b s = .ok (s.inject i r q m held (q.lanesOf (s.cx.v.get b))) := by
  unfold cinj
  simp only [State.notInRestartable_free hres, State.memGate_quiet hq, s.rdX_free a ha, hgrp,
    State.injectWait_ready hq hu hround hinj, State.sources_single hb, ok_bind, valOf_single]
  rfl

/-- The elements of a scratchpad range that a CINJX takes. -/
def State.elements (s : State) (q : Group) (y : Nat) : List Word :=
  (upto q.count).map fun l => BitVec.ofNat 32 (s.me.spad.readNat (y + q.esize * l) q.esize)

theorem elements_of_bytes (s : State) (q : Group) (y : Nat) :
    ((upto q.count).map fun l => BitVec.ofNat 32
      (leNat (((s.me.spad.read y (q.count * q.esize)).drop (q.esize * l)).take q.esize))) = s.elements q y := by
  refine List.map_congr_left fun l hl => ?_
  have hlt := (mem_upto _ l).mp hl
  have hpiece : q.esize * l + q.esize ≤ q.count * q.esize := by
    rw [← Nat.mul_succ, Nat.mul_comm q.count]
    exact Nat.mul_le_mul_left _ hlt
  rw [Memory.read_piece _ _ _ _ _ hpiece]
  rfl

theorem cinjx_injects (held : Bool) (hq : s.quiet) (hu : s.unbound) (hres : s.restartable = false) (ha : s.regFree a = true)
    (hb : s.regFree b = true) (hgrp : s.groupOf (s.cx.xr a) = .ok (i, q, r, m)) (hround : m.injRound = m.outRound)
    (hinj : m.inj = none) (halign : (s.cx.xr b).toNat % 8 = 0) (hfits : (s.cx.xr b).toNat + q.count * q.esize ≤ 0x40000)
    (hlatch : s.cx.latch = none) (hsound : s.sound (s.cx.xr b).toNat (q.count * q.esize)) :
    cinjx held a b s = .ok (s.inject i r q m held (s.elements q (s.cx.xr b).toNat)) := by
  have hbytes : s.injectBytes (s.cx.xr b).toNat (q.count * q.esize) =
      .ok (s.me.spad.read (s.cx.xr b).toNat (q.count * q.esize)) := by
    unfold State.injectBytes State.latched
    rw [State.pushesDone_unbound hu, State.spadSound_of_sound hsound, hlatch]
    rfl
  unfold cinjx
  simp only [State.notInRestartable_free hres, State.memGate_quiet hq, s.rdX_free a ha, s.rdX_free b hb, hgrp,
    Group.range_ok halign hfits, hbytes, State.injectWait_ready hq hu hround hinj, ok_bind, elements_of_bytes]
  rfl

/-! ## Extractions (R182, R310, R324) -/

theorem extractable_ok (h : m.injRound ≠ 0) : extractable q r m = .ok () := by
  unfold extractable
  rw [decide_eq_false h]
  rfl

/-- The vector that CEXT writes. -/
def Group.vectorOf (q : Group) (m : Member) : Vec :=
  if q.ty = 2 then ofLanes 16 (fun l => (m.data.getD l 0).setWidth 16) 64 else ofLanes 32 (fun l => m.data.getD l 0) 32

theorem State.syncWith_frame (s : State) (h : KMap Nat) : (s.syncWith s.cur s.curCtx h).cx.pc = s.cx.pc ∧
    (s.syncWith s.cur s.curCtx h).cx.v = s.cx.v ∧ s.sameBytes (s.syncWith s.cur s.curCtx h) ∧
    (s.syncWith s.cur s.curCtx h).me = { s.me with ctxs := (s.syncWith s.cur s.curCtx h).me.ctxs } := by
  have hmod (f : Ctx → Ctx) : (s.modCx f).me = { s.me with ctxs := (s.modCx f).me.ctxs } := by
    rw [State.me_modCx]
    rfl
  exact ⟨by rw [s.cx_syncWith h], by rw [s.cx_syncWith h], s.modCx_sameBytes fun x => { x with seen := joinSeen x.seen h },
    hmod fun x => { x with seen := joinSeen x.seen h }⟩

theorem execCext_extracts (hg : s.guardPasses g = true) (hq : s.quiet) (ha : s.regFree a = true)
    (hgrp : s.groupOf (s.cx.xr a) = .ok (i, q, r, m)) (hround : m.injRound = m.outRound) (hinj : m.injRound ≠ 0)
    (hout : m.outRes = true) (hrec : q.receives r = true) (hcount : q.count ≠ 0) (hd : s.streamNamed d = none) :
    execCext g d a s =
      .next (((s.syncWith s.cur s.curCtx (q.seenIn m.outRound)).putV d (q.vectorOf m)).retire 4) := by
  obtain ⟨-, -, -, hme⟩ := s.syncWith_frame (q.seenIn m.outRound)
  have hnamed := State.streamNamed_congr (s := s) (t := s.syncWith s.cur s.curCtx (q.seenIn m.outRound)) rfl
    (fun j => by rw [hme]) d
  have hwrite := State.writeVec_noStream (hnamed.trans hd) (q.vectorOf m)
  have hdata : q.dataOf r m = some m.data := by
    unfold Group.dataOf
    rw [hout, hrec]
    rfl
  refine instr_ok hg ?_
  simp only [State.syncPoint_quiet hq, State.streamUse_noStream hd, s.rdX_free a ha, hgrp, extractable_ok hinj, hround,
    decide_true, waitUntil_true, ok_bind, hout, hdata, if_neg hcount, if_true]
  exact hwrite

/-- CEXTX of a member whose outcome is fixed, or which waits for it. -/
def State.extracts (s : State) (q : Group) (i r y : Nat) (m : Member) : State :=
  if m.injRound = m.outRound then
    let s1 := s.modMe fun k => { k with engW := k.engW ++ q.extWrites i y (q.dataOf r m) }
    if m.outRes then s1.syncWith s.cur s.curCtx (q.seenIn m.outRound) else s1
  else s.modMe fun k =>
    { k with extx := k.extx ++ [{ grp := i, rank := r, round := m.injRound, addr := y, ctx := some s.curCtx }] }

theorem execCextx_extracts (hg : s.guardPasses g = true) (hq : s.quiet) (hu : s.unbound) (ha : s.regFree a = true)
    (hb : s.regFree b = true) (hgrp : s.groupOf (s.cx.xr a) = .ok (i, q, r, m)) (hinj : m.injRound ≠ 0)
    (halign : (s.cx.xr b).toNat % 8 = 0) (hfits : (s.cx.xr b).toNat + q.count * q.esize ≤ 0x40000) :
    execCextx g a b s = .next ((s.extracts q i r (s.cx.xr b).toNat m).retire 4) := by
  refine instr_ok hg ?_
  simp only [State.memGate_quiet hq, s.rdX_free a ha, s.rdX_free b hb, hgrp, extractable_ok hinj, Group.range_ok halign hfits,
    State.pushesDone_unbound hu, waitUntil_true, ok_bind]
  unfold State.extracts
  split <;> rfl

theorem State.extracts_frame (s : State) (q : Group) (i r y : Nat) (m : Member) :
    (s.extracts q i r y m).cx.pc = s.cx.pc ∧ s.sameBytes (s.extracts q i r y m) ∧
    (m.injRound = m.outRound → (s.extracts q i r y m).me.engW = s.me.engW ++ q.extWrites i y (q.dataOf r m) ∧
      (s.extracts q i r y m).me.extx = s.me.extx) ∧
    (m.injRound ≠ m.outRound → (s.extracts q i r y m).me.engW = s.me.engW ∧ (s.extracts q i r y m).me.extx =
      s.me.extx ++ [{ grp := i, rank := r, round := m.injRound, addr := y, ctx := some s.curCtx }]) := by
  unfold State.extracts
  by_cases hround : m.injRound = m.outRound
  · rw [if_pos hround]
    have hcx := State.cx_modMe_ctxs (s := s) (fun k => { k with engW := k.engW ++ q.extWrites i y (q.dataOf r m) }) fun _ => rfl
    have hme := s.me_modMe fun k => { k with engW := k.engW ++ q.extWrites i y (q.dataOf r m) }
    have hbytes := s.modCore_sameBytes s.cur (fun k => { k with engW := k.engW ++ q.extWrites i y (q.dataOf r m) }) fun _ => rfl
    obtain ⟨hpc, -, hsame, hsync⟩ := State.syncWith_frame
      (s.modMe fun k => { k with engW := k.engW ++ q.extWrites i y (q.dataOf r m) }) (q.seenIn m.outRound)
    dsimp only
    split
    · refine ⟨hpc.trans (congrArg Ctx.pc hcx), State.sameBytes_trans hbytes hsame, fun _ => ?_, fun h => absurd hround h⟩
      exact ⟨(congrArg Core.engW hsync).trans ((congrArg Core.engW hme).trans rfl),
        (congrArg Core.extx hsync).trans ((congrArg Core.extx hme).trans rfl)⟩
    · exact ⟨congrArg Ctx.pc hcx, hbytes, fun _ => by rw [hme]; exact ⟨rfl, rfl⟩, fun h => absurd hround h⟩
  · rw [if_neg hround]
    refine ⟨?_, s.modCore_sameBytes s.cur _ fun _ => by exact rfl, fun h => absurd h hround, fun _ => ?_⟩
    · exact congrArg Ctx.pc (State.cx_modMe_ctxs (s := s) (fun k => { k with extx := k.extx ++
        [{ grp := i, rank := r, round := m.injRound, addr := y, ctx := some s.curCtx }] }) fun _ => rfl)
    · rw [State.me_modMe]
      exact ⟨rfl, rfl⟩

/-! ## CSTAT (R324) -/

/-- A write of an engine changes bytes and full/empty bits, with what is noted of them. -/
theorem Core.engineStore_eq (k : Core) (w : EngWrite) : k.engineStore w = { k with
    spad := (k.engineStore w).spad, spadRel := (k.engineStore w).spadRel, spadLost := (k.engineStore w).spadLost
    feSeen := (k.engineStore w).feSeen, full := (k.engineStore w).full } := by
  unfold Core.engineStore
  split
  · exact k.deliver_eq w.addr w.bytes []
  · rfl

theorem Core.engineStores_frame (ws : List EngWrite) (k : Core) :
    (ws.foldl Core.engineStore k).ctxs = k.ctxs ∧ (ws.foldl Core.engineStore k).engW = k.engW := by
  induction ws generalizing k with
  | nil => exact ⟨rfl, rfl⟩
  | cons w ws ih =>
    obtain ⟨hctxs, hengW⟩ := ih (k.engineStore w)
    have hone := k.engineStore_eq w
    exact ⟨hctxs.trans ((congrArg Core.ctxs hone).trans rfl), hengW.trans ((congrArg Core.engW hone).trans rfl)⟩

theorem Core.landGroup_frame (k : Core) (i : Nat) :
    (k.landGroup i).ctxs = k.ctxs ∧ (k.landGroup i).engW = k.engW.filter fun w => w.grp != some i :=
  Core.engineStores_frame _ { k with engW := k.engW.filter fun w => w.grp != some i }

theorem execCstat_reports (hg : s.guardPasses g = true) (hd : s.regFree d = true) (ha : s.regFree a = true)
    (hgrp : s.groupOf (s.cx.xr a) = .ok (i, q, r, m)) : execCstat g d a s =
      .next (((s.modMe (·.landGroup i)).putX d (groupStatus q m)).retire 4) := by
  have hcx : (s.modMe (·.landGroup i)).cx = s.cx := State.cx_modMe_ctxs (·.landGroup i) fun k => (k.landGroup_frame i).1
  have hfree : (s.modMe (·.landGroup i)).regFree d = true := by
    unfold State.regFree
    rw [hcx]
    exact hd
  refine instr_ok hg ?_
  simp only [s.rdX_free a ha, hgrp, ok_bind]
  exact State.wrX_free _ d _ hfree

theorem State.cstat_frame (s : State) (d : Reg) (v : DWord) (i : Nat) :
    (((s.modMe (·.landGroup i)).putX d v).retire 4).cx.pc = s.cx.pc + 4 ∧
    (((s.modMe (·.landGroup i)).putX d v).retire 4).cx.x = (s.cx.setX d v).x ∧
    (((s.modMe (·.landGroup i)).putX d v).retire 4).me.engW = s.me.engW.filter fun w => w.grp != some i := by
  have hcx : (s.modMe (·.landGroup i)).cx = s.cx := State.cx_modMe_ctxs (·.landGroup i) fun k => (k.landGroup_frame i).1
  obtain ⟨hpc, hx⟩ := (s.modMe (·.landGroup i)).cx_putX_retire d v 4
  rw [hcx] at hpc hx
  refine ⟨hpc, hx, ?_⟩
  rw [State.me_putX_retire, State.me_modMe]
  exact (s.me.landGroup_frame i).2

/-! ## CABORT and CFREE (R186, R187) -/

/-- The latest round in which a member has injected. -/
def Group.lastRound (q : Group) : Nat := q.members.foldl (fun n k => max n k.injRound) 0

/-- The group after the abort has reached a member that has no round open. -/
def Group.abortedBy (q : Group) (r : Nat) (m : Member) : Group :=
  { q.beginAbort with
    aborting := removeNat (upto q.members.length) r
    members := if m.outRound < q.lastRound then listPut q.members r { m with outRes := false, rounds := m.rounds + 1 }
      else q.members }

theorem State.setGroup_setGroup (s : State) (i : Nat) (p p' : Group) : (s.setGroup i p).setGroup i p' = s.setGroup i p' := by
  unfold State.setGroup
  rw [KMap.put_put]

theorem State.abortAt_begins (hm : q.members[r]? = some m) (hround : m.injRound = m.outRound) :
    (s.setGroup i q.beginAbort).abortAt i r = s.setGroup i (q.abortedBy r m) := by
  have hfind : (s.setGroup i q.beginAbort).group i = some q.beginAbort := s.setGroup_find i _
  have hmember : q.beginAbort.members[r]? = some m := hm
  unfold State.abortAt
  simp only [hfind, hmember, State.setGroup_setGroup,
    if_neg (show ¬ m.injRound ≠ m.outRound from not_not.mpr hround)]
  unfold Group.abortedBy
  by_cases hlast : m.outRound < q.lastRound
  · rw [if_pos (show m.outRound < q.beginAbort.abRound from hlast), if_pos hlast]
    rfl
  · rw [if_neg (show ¬ m.outRound < q.beginAbort.abRound from hlast), if_neg hlast]
    rfl

/-- An instruction that changes one group and nothing else. -/
theorem instr_setGroup {body : State → Act} {p : Group} {P : State → Prop} (hg : s.guardPasses g = true)
    (hbody : body s = .ok (s.setGroup i p)) (hP : ∀ t : State, t.groups.find i = some p → P t) :
    ∃ t, instr g body s = .next t ∧ t.cx.pc = s.cx.pc + 4 ∧ s.sameBytes t ∧ P t :=
  instr_completes hg hbody rfl (s.setGroup_sameBytes i p) (hP _ (s.setGroup_find i p))

theorem cabort_body (hres : s.restartable = false) (ha : s.regFree a = true)
    (hgrp : s.groupOf (s.cx.xr a) = .ok (i, q, r, m)) : execCabort g a s =
      instr g (fun _ => .ok (if q.aborted then s else (s.setGroup i q.beginAbort).abortAt i r)) s := by
  unfold execCabort instr
  simp only [State.notInRestartable_free hres, s.rdX_free a ha, hgrp, ok_bind]
  cases q.aborted <;> rfl

theorem cfree_body (ha : s.regFree a = true) (hgrp : s.groupOf (s.cx.xr a) = .ok (i, q, r, m)) :
    execCfree g a s = instr g (fun _ => .ok (s.setGroup i { q with
      members := listPut q.members r { m with freed := true }
      live := !((listPut q.members r { m with freed := true }).all fun k => k.freed) })) s := by
  unfold execCfree instr
  simp only [s.rdX_free a ha, hgrp, ok_bind]
  rfl

end
end Sys2Proof.Machine
end

/-! PROOFS. CGRP, and the group instructions together (O34). -/

section
namespace Sys2Proof.Machine

/-! ## CGRP (R181, R310) -/

section
variable {g : Guard} {a d : Reg} {i r : Nat} {q : Group} {s t u : State} {x : DWord}

theorem State.OnlyReads.globalEA {va : DWord} {n : Nat} {k : Access} {e : EA} (h : s.globalEA va n k = .ok (e, t)) :
    s.OnlyReads t := by
  have hsame := s.globalCheck_sameButTlbs s.cur va n k
  unfold State.globalEA at h
  split at h
  · next hcheck =>
    cases h
    rw [hcheck] at hsame
    exact .of_sameButTlbs hsame
  · cases h

/-- A member list is read in pieces that do not cross a doubleword. -/
theorem State.OnlyReads.readList {f n : Nat} {va : DWord} {ls : List Byte} (h : s.readList va n f = .ok (ls, t)) :
    s.OnlyReads t := by
  induction f generalizing s va n ls t with
  | zero =>
    cases h
    exact .refl s
  | succ f ih =>
    unfold State.readList at h
    split at h
    · cases h
      exact .refl s
    · obtain ⟨⟨e, s1⟩, hea, h⟩ := bind_ok h
      obtain ⟨⟨v, s2⟩, hpart, h⟩ := bind_ok h
      obtain ⟨⟨r, s3⟩, hrest, h⟩ := bind_ok h
      cases h
      exact ((State.OnlyReads.globalEA hea).trans (.readPart hpart)).trans (ih hrest)

/-- What CGRP leaves: the group with the issuing core joined, and its handle in a register. -/
def State.joins (s : State) (d : Reg) (i : Nat) (q : Group) : State := (s.setGroup i (q.join s.cur)).putX d (handleOf i q)

theorem State.joins_retire (h : s.OnlyReads u) (d : Reg) (i : Nat) (q : Group) :
    ((u.joins d i q).retire 4).cx.pc = s.cx.pc + 4 ∧
    ((u.joins d i q).retire 4).cx.x = (s.cx.setX d (dw (i + q.gen.toNat * 2 ^ 16))).x ∧
    ((u.joins d i q).retire 4).groups.find i = some (q.join s.cur) := by
  obtain ⟨hpc, hx⟩ := (u.setGroup i (q.join u.cur)).cx_putX_retire d (handleOf i q) 4
  have hset (c c' : Ctx) (v : DWord) (hc : c.x = c'.x) : (c.setX d v).x = (c'.setX d v).x := by
    unfold Ctx.setX
    split
    · exact hc
    · exact congrArg (fun y => vput y d v) hc
  have hcx : (u.setGroup i (q.join u.cur)).cx = u.cx := rfl
  refine ⟨hpc.trans (by rw [hcx, h.cx_pc]; rfl), hx.trans (hset _ _ _ h.cx_x), ?_⟩
  rw [← h.cur]
  exact u.setGroup_find i _

/-- CGRP of a descriptor that a live group has, by one of its members. -/
theorem execCgrp_joins {e : EA} (hg : s.guardPasses g = true) (hq : s.quiet) (hd : s.regFree d = true) (ha : s.regFree a = true)
    (hreach : s.reaches (s.cx.xr a) 64 .load e u) (hat : u.groupAt (s.cx.xr a) = some (i, q))
    (hrank : q.rankOf u.cur = some r) : execCgrp g d a s = .next ((u.joins d i q).retire 4) := by
  refine instr_ok hg ?_
  simp only [s.rdX_free a ha, s.regReady_free d hd, State.memGate_quiet hq, State.globalEA_of_reaches hreach, hat, hrank, ok_bind]
  rfl

/-- The group that CGRP makes of a descriptor. -/
def newGroup (gen : Half) (x : DWord) (w : DWord) (cores : List Nat) : Group :=
  { gen := gen, live := true, desc := x, op := fld w 2 0, ty := fld w 4 3, kind := fld w 7 5, count := fld w 14 8,
    root := fld w 28 16, members := cores.map newMember, aborted := false, aborting := [], abRound := 0, nres := 0, seen := [] }

/-- The generation of the next group in a slot (log 29). -/
def State.nextGen (s : State) (j : Nat) : Half := match s.group j with
  | some q => q.gen + 1
  | none => 1

/-- CGRP of a descriptor that no live group has. -/
theorem execCgrp_makes {e : EA} {ws : List DWord} {ls : List Byte} {j : Nat} {v w z : State} (hg : s.guardPasses g = true)
    (hq : s.quiet) (hd : s.regFree d = true) (ha : s.regFree a = true) (hreach : s.reaches (s.cx.xr a) 64 .load e u)
    (hat : u.groupAt (s.cx.xr a) = none) (hread : u.readWaits e 0 8 = .ok (ws, v)) (hdesc : descGood ws = true)
    (hlist : v.readList (ws.getD 1 0) (2 * fld (ws.getD 0 0) 45 32) (fld (ws.getD 0 0) 45 32 / 4 + 2) = .ok (ls, w))
    (hgood : listGood (memberList ls (fld (ws.getD 0 0) 45 32)) = true)
    (hmember : w.cur.val ∈ memberList ls (fld (ws.getD 0 0) 45 32)) (hfree : w.freeGroup = (some j, z)) :
    execCgrp g d a s = .next ((z.joins d j (newGroup (z.nextGen j) (s.cx.xr a) (ws.getD 0 0)
      (memberList ls (fld (ws.getD 0 0) 45 32)))).retire 4) := by
  refine instr_ok hg ?_
  simp only [s.rdX_free a ha, s.regReady_free d hd, State.memGate_quiet hq, State.globalEA_of_reaches hreach, hat, hread, hdesc,
    hlist, hgood, List.contains_iff_mem.mpr hmember, hfree, ok_bind]
  rfl

theorem State.freeGroup_draws {s z : State} {o : Option Nat} (h : s.freeGroup = (o, z)) : s.OnlyReads z := by
  obtain rfl : (s.draw 10).2 = z := congrArg Prod.snd h
  exact .draw s 10

/-- The members of a new group in which one core has joined. -/
theorem newGroup_join_members (gen : Half) (x w : DWord) (cores : List Nat) (c : CoreId) :
    ((newGroup gen x w cores).join c).members = cores.map fun k => { newMember k with joined := decide (k = c.val) } := by
  unfold Group.join Group.modMember newGroup
  rw [List.map_map]
  refine List.map_congr_left fun k _ => ?_
  by_cases hk : k = c.val
  · exact (if_pos hk).trans (by rw [decide_eq_true hk])
  · exact (if_neg hk).trans (by rw [decide_eq_false hk]; rfl)

theorem newMembers_cores (cores : List Nat) (f : Nat → Bool) :
    (cores.map fun k => { newMember k with joined := f k }).map (fun m => m.core) = cores := by
  rw [List.map_map]
  exact List.map_id cores

theorem State.groupAt_none (h : ∀ p ∈ s.groups, p.2.live = true → p.2.desc ≠ x) : s.groupAt x = none := by
  unfold State.groupAt
  rw [List.find?_eq_none]
  intro p hp hit
  obtain ⟨hlive, hdesc⟩ := Bool.and_eq_true_iff.mp hit
  exact h p hp hlive (beq_iff_eq.mp hdesc)

end

/-- The number of members in a descriptor. -/
theorem descriptor_fields (w : DWord) : fld w 45 32 = w.toNat / 2 ^ 32 % 2 ^ 14 ∧ fld w 2 0 = w.toNat % 8 ∧
    fld w 4 3 = w.toNat / 8 % 4 ∧ fld w 7 5 = w.toNat / 32 % 8 ∧ fld w 14 8 = w.toNat / 256 % 128 ∧
    fld w 28 16 = w.toNat / 2 ^ 16 % 2 ^ 13 := by
  unfold fld
  exact ⟨rfl, congrArg (· % 8) (Nat.div_one w.toNat), rfl, rfl, rfl, rfl⟩

/-- The clause of CGRP that makes a group: every read before it leaves the issuing context (`State.OnlyReads`). -/
theorem execCgrp_newGroup {g : Guard} {a d : Reg} {e : EA} {ws : List DWord} {ls : List Byte} {j : Nat} {s u v w z : State}
    (hg : s.guardPasses g = true) (hq : s.quiet) (hd : s.regFree d = true) (ha : s.regFree a = true)
    (hreach : s.reaches (s.cx.xr a) 64 .load e u) (hnone : ∀ p ∈ u.groups, p.2.live = true → p.2.desc ≠ s.cx.xr a)
    (hread : u.readWaits e 0 8 = .ok (ws, v)) (hdesc : descGood ws = true)
    (hlist : v.readList (ws.getD 1 0) (2 * fld (ws.getD 0 0) 45 32) (fld (ws.getD 0 0) 45 32 / 4 + 2) = .ok (ls, w))
    (hcores : ∀ k ∈ memberList ls (fld (ws.getD 0 0) 45 32), k < 8192)
    (hnodup : (memberList ls (fld (ws.getD 0 0) 45 32)).Nodup)
    (hmember : s.cur.val ∈ memberList ls (fld (ws.getD 0 0) 45 32)) (hfree : w.freeGroup = (some j, z)) :
    ∃ t, execCgrp g d a s = .next t ∧ t.cx.pc = s.cx.pc + 4 ∧
      t.cx.x = (s.cx.setX d (dw (j + (z.nextGen j).toNat * 2 ^ 16))).x ∧
      t.groups.find j = some ((newGroup (z.nextGen j) (s.cx.xr a) (ws.getD 0 0)
        (memberList ls (fld (ws.getD 0 0) 45 32))).join s.cur) := by
  have hsame : s.OnlyReads w := ((State.OnlyReads.of_sameButTlbs (State.sameButTlbs_of_reaches hreach)).trans
    (.readWaits hread)).trans (.readList hlist)
  have hgood : listGood (memberList ls (fld (ws.getD 0 0) 45 32)) = true := by
    unfold listGood
    rw [Bool.and_eq_true, List.all_eq_true, decide_eq_true_iff]
    exact ⟨fun k hk => decide_eq_true (hcores k hk), hnodup⟩
  have hexec := execCgrp_makes hg hq hd ha hreach (State.groupAt_none hnone) hread hdesc hlist hgood (hsame.cur ▸ hmember) hfree
  obtain ⟨hpc, hx, hfind⟩ := State.joins_retire (hsame.trans (State.freeGroup_draws hfree)) d j
    (newGroup (z.nextGen j) (s.cx.xr a) (ws.getD 0 0) (memberList ls (fld (ws.getD 0 0) 45 32)))
  exact ⟨_, hexec, hpc, hx, hfind⟩

/-- Settles O34: injections by `instr_injects`, extractions by what CEXT and CEXTX leave, CSTAT by `State.cstat_frame`, CABORT and
CFREE as changes of one group (`instr_setGroup`), CGRP after reads that leave the issuing context (`State.OnlyReads`). -/
theorem groupResults : Obligations.GroupResults := by
  unfold Obligations.GroupResults
  intro g d a b i r q m e s u hg hq hu hres hready x y round rounds does vec spad injected inRange last
  have hd := hready d (by simp)
  have ha := hready a (by simp)
  have hb := hready b (by simp)
  refine ⟨fun hreach hat hrank => ?_, ?_, fun hgrp => ?_⟩
  · have hsame := State.OnlyReads.of_sameButTlbs (State.sameButTlbs_of_reaches hreach)
    obtain ⟨hpc, hx, -⟩ := State.joins_retire hsame d i q
    exact ⟨_, execCgrp_joins hg hq hd ha hreach hat (hsame.cur ▸ hrank), hpc, hx⟩
  · intro ws ls j v w z w0 n cores hreach hnone hread hdesc hlist hcores hnodup hmember hfree
    obtain ⟨hn, hop, hty, hkind, hcount, hroot⟩ := descriptor_fields (ws.getD 0 0)
    have hlistEq : memberList ls (fld (ws.getD 0 0) 45 32) = cores := by
      unfold memberList
      rw [upto_eq_range]
      rfl
    obtain ⟨t, hexec, hpc, hx, hfind⟩ := execCgrp_newGroup hg hq hd ha hreach hnone hread hdesc hlist (hlistEq ▸ hcores)
      (hlistEq ▸ hnodup) (hlistEq ▸ hmember) hfree
    rw [hlistEq] at hfind
    have hmembers := newGroup_join_members (z.nextGen j) x (ws.getD 0 0) cores s.cur
    refine ⟨t, _, hexec, hpc, hfind, hx, rfl, rfl, rfl, hop, hty, hkind, hcount, hroot, rfl, ?_, ?_⟩
    · rw [hmembers]
      exact newMembers_cores cores _
    · intro k hk
      rw [hmembers] at hk
      obtain ⟨c, -, rfl⟩ := List.mem_map.mp hk
      exact ⟨rfl, rfl, rfl, rfl⟩
  · obtain ⟨hfind, hm⟩ := State.groupOf_ok hgrp
    refine ⟨fun hround hinj hab hns => ?_, fun hround hinj hab ⟨halign, hfits⟩ hlatch hsound => ?_,
      fun hround hinj hout hrec hcount hns => ?_, fun hinj ⟨halign, hfits⟩ => ?_, ?_, fun hround hab => ?_, fun hab => ?_, ?_⟩
    · exact ⟨instr_injects hg hab (cinj_injects false hq hu hres ha hgrp hround hinj hns),
        instr_injects hg hab (cinj_injects true hq hu hres ha hgrp hround hinj hns)⟩
    · exact ⟨instr_injects hg hab (cinjx_injects false hq hu hres ha hb hgrp hround hinj halign hfits hlatch hsound),
        instr_injects hg hab (cinjx_injects true hq hu hres ha hb hgrp hround hinj halign hfits hlatch hsound)⟩
    · obtain ⟨hpc, hv, hbytes, -⟩ := s.syncWith_frame (q.seenIn m.outRound)
      refine ⟨_, execCext_extracts hg hq ha hgrp hround hinj hout hrec hcount (hns d (by simp)), ?_,
        State.sameBytes_trans hbytes (State.sameBytes_trans (State.modCx_sameBytes _ _) (State.retire_sameBytes _ 4)), ?_⟩
      · rw [State.cx_retire, State.cx_putV, hpc]
        rfl
      · beta_reduce
        rw [State.cx_retire_v, State.cx_putV, hv]
        refine ⟨fun k hk => vget_vput_ne _ _ _ _ hk, fun hty l hl => ?_, fun hty l hl => ?_⟩ <;>
          rw [vget_vput_self] <;> unfold Group.vectorOf
        · rw [if_pos hty]
          exact lane_ofLanes (by decide) _ hl (by decide)
        · rw [if_neg hty]
          exact lane_ofLanes (by decide) _ hl (by decide)
    · obtain ⟨hpc, hbytes, hfixed, hopen⟩ := s.extracts_frame q i r y m
      refine ⟨_, execCextx_extracts hg hq hu ha hb hgrp hinj halign hfits, ?_,
        State.sameBytes_trans hbytes (State.retire_sameBytes _ 4), fun h => ?_, fun h => ?_⟩
      · rw [State.cx_retire, hpc]
        rfl
      · rw [State.me_retire]
        exact hfixed h
      · rw [State.me_retire]
        exact hopen h
    · exact ⟨_, execCstat_reports hg hd ha hgrp, s.cstat_frame d (groupStatus q m) i⟩
    · have hbody := cabort_body (g := g) hres ha hgrp
      rw [hab] at hbody
      have habort : execCabort g a s = instr g (fun _ => .ok (s.setGroup i (q.abortedBy r m))) s := by
        rw [hbody, ← State.abortAt_begins hm hround]
        rfl
      show ∃ t, execCabort g a s = _ ∧ _
      rw [habort]
      refine instr_setGroup hg rfl fun t ht => ⟨_, ht, rfl, ?_, rfl⟩
      exact removeNat_not_mem (upto_eq_range q.members.length ▸ List.nodup_range) r
    · have hbody := cabort_body (g := g) hres ha hgrp
      rw [hab] at hbody
      exact hbody.trans (instr_ok hg rfl)
    · show ∃ t, execCfree g a s = _ ∧ _
      rw [cfree_body ha hgrp]
      refine instr_setGroup hg rfl fun t ht => ⟨_, ht, rfl, ?_⟩
      rw [Bool.not_eq_false', List.all_eq_true]

end Sys2Proof.Machine
end

/-! PROOFS. Copy channels and the stream engine (O45). -/

section
namespace Sys2Proof.Machine

/-! ## Pulses into a crossbar whose terms are disabled (R50) -/

section
variable {s t u : State} {c : CoreId}

/-- Of the module only the crossbar of one core may differ, whose terms stay disabled. -/
structure State.OnlyXbar (s : State) (c : CoreId) (t : State) : Prop where
  rest : t = { s with cores := t.cores }
  core : t.core c = { s.core c with xbar := (t.core c).xbar }
  others : ∀ d, d ≠ c → t.core d = s.core d
  off : (t.core c).termsOff

theorem State.OnlyXbar.refl (h : (s.core c).termsOff) : s.OnlyXbar c s := ⟨rfl, rfl, fun _ _ => rfl, h⟩

theorem State.OnlyXbar.trans (h : s.OnlyXbar c t) (g : t.OnlyXbar c u) : s.OnlyXbar c u where
  rest := by rw [g.rest, h.rest]
  core := by rw [g.core, h.core]
  others d hd := (g.others d hd).trans (h.others d hd)
  off := g.off

theorem State.OnlyXbar.of_modCore {f : Core → Core} (hf : ∀ k, f k = { k with xbar := (f k).xbar })
    (hoff : (f (s.core c)).termsOff) : s.OnlyXbar c (s.modCore c f) := by
  refine ⟨rfl, ?_, fun d hd => State.core_modCore_ne _ _ _ _ hd, ?_⟩ <;> rw [State.core_modCore_self]
  · exact hf _
  · exact hoff

theorem State.OnlyXbar.terms (h : (s.core c).termsOff) (cycle : Nat) (inp : BitVec 20) (m : KMap Nat) :
    s.OnlyXbar c (s.terms c cycle inp m) := by
  unfold State.terms
  induction List.finRange 8 generalizing s with
  | nil => exact .refl h
  | cons i r ih =>
    have hone : s.OnlyXbar c (s.term c cycle inp m i) := by
      rw [State.term_disabled h]
      exact .of_modCore (f := fun k => k.modTerm i fun _ => ((s.core c).xbar.term.get i).gather inp m) (fun _ => rfl)
        (Core.termsOff_modTerm h i _ ((EcTerm.gather_en _ inp m).trans (h i)))
    exact hone.trans (ih hone.off)

theorem State.OnlyXbar.pulseOf (h : (s.core c).termsOff) (i : Nat) (m : KMap Nat) : s.OnlyXbar c (s.pulseOf c i m) := by
  unfold State.pulseOf State.pulse State.pulseAt
  have hcount : s.OnlyXbar c (s.modCore c fun k => { k with xbar := { k.xbar with
      cnt := Vector.ofFn fun j => (((s.core c).xbar.cnt.get j).step (BitVec.ofNat 16 (2 ^ i)) m).2 } }) :=
    .of_modCore (f := fun k => { k with xbar := { k.xbar with
      cnt := Vector.ofFn fun j => (((s.core c).xbar.cnt.get j).step (BitVec.ofNat 16 (2 ^ i)) m).2 } }) (fun _ => rfl) h
  exact hcount.trans (.terms hcount.off _ _ _)

end

/-! ## Channels start and complete (R159, R163) -/

section
variable {s w : State} {c : CoreId} {ch : Fin 4} {run : CopyRun}

theorem dropChan_length {l : List CopyReq} {r : CopyReq} (h : l.find? (fun r => r.chan == ch) = some r) :
    (dropChan ch l).length + 1 = l.length := by
  induction l with
  | nil => cases h
  | cons x l ih =>
    unfold dropChan
    by_cases hx : x.chan = ch
    · rw [if_pos hx]
      rfl
    · rw [List.find?_cons_of_neg (by simpa using hx)] at h
      rw [if_neg hx, List.length_cons, List.length_cons, ih h]

theorem State.tryCopyStart_starts {r : CopyReq} (hnext : (s.core c).nextReq ch = some r)
    (hrun : ((s.core c).chans.get ch).running = none) (hfault : ((s.core c).chans.get ch).fault = none)
    (hheld : r.isHeld = false) (hstop : s.stopped = false) :
    s.tryCopyStart c ch = some (s.modCore c fun k => { k with fifo := dropChan ch k.fifo }.modChan ch fun q =>
      { q with running := some { req := r, done := [], idx := [] } }) := by
  unfold State.tryCopyStart
  simp only [hnext, hrun, hfault, hheld, hstop]
  rfl

theorem State.runningReq_some (hrun : ((s.core c).chans.get ch).running = some run)
    (hfault : ((s.core c).chans.get ch).fault = none) : s.runningReq c ch = some run := by
  unfold State.runningReq
  simp only [hfault]
  exact hrun

theorem Core.modChan_get (k : Core) (f : Chan → Chan) : (k.modChan ch f).chans.get ch = f (k.chans.get ch) :=
  vget_vput_self _ _ _

/-- The core with a request of a channel done. -/
def Core.chanDone (k : Core) (ch : Fin 4) (id : Word) (m : KMap Nat) : Core :=
  k.modChan ch fun q => { q with running := none, done := id, seen := m }

/-- A channel's last request completes: what its pulse changes is the crossbar of its core alone. -/
theorem State.copyDone_frame (h : (s.core c).termsOff) (r : CopyReq) :
    (s.copyDone c ch r).mem = s.mem ∧ ((s.copyDone c ch r).core c).spad = (s.core c).spad ∧
      ((s.copyDone c ch r).core c).full = (s.core c).full ∧ (((s.copyDone c ch r).core c).chans.get ch).running = none ∧
      (((s.copyDone c ch r).core c).chans.get ch).done = r.id := by
  set m := s.chanSeen c ch r with hm
  set u := (s.modCore c (·.chanDone ch r.id m)).engForget c (chanUnit ch) with hu
  have hcore : u.core c = (s.core c).chanDone ch r.id m := State.core_modCore_self s c (·.chanDone ch r.id m)
  have hpulse := State.OnlyXbar.pulseOf (s := u) (c := c) (by rw [hcore]; exact h) ch.val m
  have hdone : s.copyDone c ch r = u.pulseOf c ch.val m := rfl
  have hchan := Core.modChan_get (ch := ch) (s.core c) fun q => { q with running := none, done := r.id, seen := m }
  rw [hdone, hpulse.core, hcore, hpulse.rest]
  exact ⟨rfl, rfl, rfl, congrArg Chan.running hchan, congrArg Chan.done hchan⟩

theorem State.tryCopyDone_completes {v : CopyRun} (hrun : ((s.core c).chans.get ch).running = some run)
    (hfault : ((s.core c).chans.get ch).fault = none) (hall : s.copyAll c ch run (upto run.req.count) = .ok (w, v)) :
    s.tryCopyDone c ch = some (w.copyDone c ch run.req) := by
  unfold State.tryCopyDone
  simp only [State.runningReq_some hrun hfault, hall]

/-! ## A fill of one word of the own scratchpad (R159) -/

/-- A request that fills eight bytes, aligned, of the scratchpad of its core. -/
structure CopyReq.FillsWord (r : CopyReq) : Prop where
  kind : r.w0.toNat / 2 ^ 56 = 4
  len : r.w0.toNat % 2 ^ 48 = 8
  space : r.w2.toNat / 2 ^ 62 = 1
  aligned : r.w2.toNat % 2 ^ 18 % 8 = 0

/-- The core with the word written, and set full where the request says so. -/
def Core.filled (k : Core) (a v : Nat) (full : Bool) (m : KMap Nat) : Core :=
  if full then ((k.spadWrite a (leBytes 8 v)).noteFull a 1 m).setFull a true else k.spadWrite a (leBytes 8 v)

variable {r : CopyReq}

theorem CopyReq.FillsWord.fields (h : r.FillsWord) : r.kind = 4 ∧ r.len = 8 ∧ Machine.space r.w2 = 1 ∧
    (wordAddr r.w2).toNat = r.w2.toNat % 2 ^ 18 := by
  obtain ⟨hkind, hlen, hspace, -⟩ := h
  have hspace' : Machine.space r.w2 = 1 := by
    unfold Machine.space fld
    omega
  refine ⟨?_, ?_, hspace', ?_⟩
  · unfold CopyReq.kind fld
    omega
  · unfold CopyReq.len fld
    omega
  · unfold wordAddr fld dw
    rw [hspace', if_neg (by decide), BitVec.toNat_ofNat]
    omega

theorem CopyReq.FillsWord.count (h : r.FillsWord) : r.count = 1 ∧ r.piece 0 = (0, 8) := by
  obtain ⟨hkind, hlen, -, haddr⟩ := h.fields
  have halign := h.aligned
  unfold CopyReq.count CopyReq.piece wordsTouched
  simp only [hkind, hlen, haddr]
  refine ⟨?_, Prod.ext ?_ ?_⟩ <;> simp <;> omega

/-- The one element of such a request writes the word, and the request is done. -/
theorem State.copyAll_fillsWord (h : r.FillsWord) (hrun : run.req = r) (hdone : run.done = []) : ∃ v,
    s.copyAll c ch run (upto run.req.count) = .ok (s.modCore c
      (·.filled (r.w2.toNat % 2 ^ 18) r.w3.toNat r.setf r.seen), v) := by
  obtain ⟨hkind, hlen, hspace, haddr⟩ := h.fields
  obtain ⟨hcount, hpiece⟩ := h.count
  have halign := h.aligned
  have hzero : wordAddr r.w2 + dw 0 = wordAddr r.w2 := BitVec.add_zero _
  have hvalue : r.w3.toNat / 2 ^ (8 * (((wordAddr r.w2).toNat + 0) % 8)) = r.w3.toNat := by
    rw [haddr, Nat.add_zero, halign, Nat.mul_zero, Nat.pow_zero, Nat.div_one]
  have hput : s.copyWrite c r 0 8 r.w3.toNat = .ok (s.modCore c (·.filled (r.w2.toNat % 2 ^ 18) r.w3.toNat r.setf r.seen)) := by
    unfold State.copyWrite State.engSpadPut
    simp only [hspace, hzero, haddr]
    rw [if_pos (by omega)]
    rfl
  have helem : s.linearElement c r 0 = .ok (s.modCore c (·.filled (r.w2.toNat % 2 ^ 18) r.w3.toNat r.setf r.seen)) := by
    unfold State.linearElement
    simp only [hpiece, hkind, hvalue, hput, if_true]
  have hone : s.element c ch run 0 = .ok (s.modCore c (·.filled (r.w2.toNat % 2 ^ 18) r.w3.toNat r.setf r.seen),
      { run with done := run.done ++ [0] }) := by
    unfold State.element
    simp only [hrun, hkind, helem]
    rfl
  refine ⟨{ run with done := run.done ++ [0] }, ?_⟩
  rw [show run.req.count = 1 from hrun ▸ hcount]
  show s.copyAll c ch run [0] = _
  have hnot : run.done.contains 0 = false := by
    rw [hdone]
    rfl
  simp only [State.copyAll, hnot, hone, Bool.false_eq_true, if_false]

theorem Core.filled_frame (k : Core) (a v : Nat) (full : Bool) (m : KMap Nat) :
    (k.filled a v full m).spad = k.spad.writeNat a 8 v ∧ (k.filled a v full m).xbar = k.xbar ∧
      (full = true → a / 8 ∈ (k.filled a v full m).full) := by
  unfold Core.filled
  cases full with
  | false => exact ⟨rfl, rfl, fun h => nomatch h⟩
  | true => exact ⟨rfl, rfl, fun _ => (mem_insertNat _ _ _).mpr (.inl rfl)⟩

/-- Such a request completes with the word written and the bytes elsewhere as before. -/
theorem State.tryCopyDone_fillsWord (hoff : (s.core c).termsOff) (h : r.FillsWord)
    (hq : ((s.core c).chans.get ch).running = some run) (hfault : ((s.core c).chans.get ch).fault = none) (hrun : run.req = r)
    (hdone : run.done = []) : ∃ t, s.tryCopyDone c ch = some t ∧
      (t.core c).spad = (s.core c).spad.writeNat (r.w2.toNat % 2 ^ 18) 8 r.w3.toNat ∧
      (r.setf = true → r.w2.toNat % 2 ^ 18 / 8 ∈ (t.core c).full) ∧ ((t.core c).chans.get ch).done = r.id := by
  obtain ⟨v, hall⟩ := State.copyAll_fillsWord (s := s) (c := c) (ch := ch) h hrun hdone
  obtain ⟨hspad, hxbar, hfull⟩ := (s.core c).filled_frame (r.w2.toNat % 2 ^ 18) r.w3.toNat r.setf r.seen
  have hcore : (s.modCore c (·.filled (r.w2.toNat % 2 ^ 18) r.w3.toNat r.setf r.seen)).core c =
    (s.core c).filled (r.w2.toNat % 2 ^ 18) r.w3.toNat r.setf r.seen := State.core_modCore_self _ _ _
  have hwoff : ((s.modCore c (·.filled (r.w2.toNat % 2 ^ 18) r.w3.toNat r.setf r.seen)).core c).termsOff := by
    rw [hcore]
    unfold Core.termsOff
    rw [hxbar]
    exact hoff
  obtain ⟨-, hs, hf, -, hd⟩ := State.copyDone_frame (ch := ch) hwoff run.req
  refine ⟨_, State.tryCopyDone_completes hq hfault hall, ?_, ?_, ?_⟩
  · rw [hs, hcore, hspad]
  · rw [hf, hcore]
    exact hfull
  · rw [hd, hrun]

/-! ## A channel meets an uncorrectable error (R164, R166) -/

/-- Of the elements that may be performed, one whose read can fail stops the channel at its address. -/
theorem State.tryChannelFault_uncorrectable (hq : ((s.core c).chans.get ch).running = some run)
    (hfault : ((s.core c).chans.get ch).fault = none)
    (hsome : ∃ j, j < run.req.count ∧ run.mayPerform j = true ∧ s.elementAddr c run j ≠ none) :
    ∃ j a, j < run.req.count ∧ run.mayPerform j = true ∧ s.elementAddr c run j = some a ∧
      s.tryChannelFault c ch true = some ((s.draw 64).2.channelStop c ch 0x18 a) := by
  set l := ((upto run.req.count).filter run.mayPerform).filterMap (s.elementAddr c run) with hl
  have hmem (a : DWord) : a ∈ l ↔ ∃ j, j < run.req.count ∧ run.mayPerform j = true ∧ s.elementAddr c run j = some a := by
    simp only [hl, List.mem_filterMap, List.mem_filter, mem_upto, and_assoc]
  obtain ⟨j, hj, hmay, haddr⟩ := hsome
  obtain ⟨a, ha⟩ := Option.ne_none_iff_exists'.mp haddr
  have hpos : 0 < l.length := List.length_pos_of_mem ((hmem a).mpr ⟨j, hj, hmay, ha⟩)
  have hlt := Nat.mod_lt (s.draw 64).1.toNat hpos
  obtain ⟨i, hi, hmi, hai⟩ := (hmem _).mp (List.getElem_mem hlt)
  refine ⟨i, _, hi, hmi, hai, ?_⟩
  unfold State.tryChannelFault
  simp only [State.runningReq_some hq hfault, if_true]
  rw [← hl, List.getElem?_eq_getElem hlt]
  rfl

/-- What two effects of an engine in sequence give is given by the second at what the first gives. -/
theorem engBind_ok {α β : Type} {x : Except EngStop α} {f : α → Except EngStop β} {b : β} (h : (x >>= f) = .ok b) :
    ∃ a, x = .ok a ∧ f a = .ok b := by
  cases x with
  | error e => cases h
  | ok a => exact ⟨a, rfl, h⟩

theorem map_ok {ε α β : Type} {x : Except ε α} {f : α → β} {b : β} (h : x.map f = .ok b) : ∃ a, x = .ok a ∧ f a = b := by
  cases x with
  | error e => cases h
  | ok a => exact ⟨a, rfl, Except.ok.inj h⟩

/-! ## What the reads of an engine leave (R164, R178) -/

section
variable {t : State} {unit n m : Nat} {va : DWord} {l : List (Nat × Nat × Nat)}

theorem State.OnlyReads.globalCheck (s : State) (c : CoreId) (va : DWord) (n : Nat) (k : Access) :
    s.OnlyReads (s.globalCheck c va n k).2 := .of_sameButTlbs (s.globalCheck_sameButTlbs c va n k)

theorem State.OnlyReads.engFar {q : EngReq} (h : s.engFar q = .ok (n, t)) : s.OnlyReads t := by
  unfold State.engFar at h
  split at h
  · cases h
  · split at h
    · cases h
    · split at h
      · cases h
        exact .of_cores rfl rfl rfl
      · cases h

theorem State.OnlyReads.engPage (h : s.engPage c unit va m = .ok (n, l, t)) : s.OnlyReads t := by
  have hcheck := State.OnlyReads.globalCheck s c va 1 .load
  unfold State.engPage at h
  split at h
  · cases h
  · next e s1 heq =>
    rw [heq] at hcheck
    refine hcheck.trans ?_
    dsimp only at h
    split at h
    · cases h
    · split at h
      · cases h
      · split at h
        · cases h
        · split at h
          · cases h
            exact .refl _
          · split at h
            · obtain ⟨r, hfar, hr⟩ := map_ok h
              cases hr
              exact .engFar hfar
            · split at h
              · cases h
                exact .draw _ 64
              · cases h
                split
                · exact .shareLine _ c _
                · exact .refl _

theorem State.OnlyReads.engRead (h : s.engRead c unit va m = .ok (n, l, t)) : s.OnlyReads t := by
  unfold State.engRead at h
  dsimp only at h
  obtain ⟨⟨x, p, s1⟩, hfirst, h⟩ := engBind_ok h
  split at h
  · cases h
    exact .engPage hfirst
  · obtain ⟨⟨y, q, s2⟩, hrest, h⟩ := engBind_ok h
    cases h
    exact (State.OnlyReads.engPage hfirst).trans (.engPage hrest)

/-- The elements of an input are read as an engine reads, or from the scratchpad. -/
theorem State.OnlyReads.streamRead {i : Fin 8} {d : StreamDesc} {j f : Nat} (h : s.streamRead c i d va j f = .ok (n, l, t)) :
    s.OnlyReads t := by
  induction f generalizing s n l j with
  | zero =>
    cases h
    exact .refl _
  | succ f ih =>
    unfold State.streamRead at h
    dsimp only at h
    obtain ⟨⟨x, p, s1⟩, hfirst, h⟩ := engBind_ok h
    obtain ⟨⟨y, q, s2⟩, hrest, h⟩ := engBind_ok h
    cases h
    refine State.OnlyReads.trans ?_ (ih hrest)
    split at hfirst
    · exact .engRead hfirst
    · obtain ⟨v, -, hfirst⟩ := engBind_ok hfirst
      split at hfirst <;> cases hfirst
      exact .refl _

end

/-! ## The stream engine (R178) -/

variable {t : State} {i : Fin 8} {h : CtxId} {desc : StreamDesc} {a : DWord}

/-- The input after its element j has been read. -/
def Stream.readElement (st : Stream) (d : StreamDesc) (j v : Nat) (l : List (Nat × Nat × Nat)) : Stream :=
  { st with engine := j + 1, buf := joinElement d j v st.buf, reads := joinReads d j l st.reads }

/-- The output after element j, the last of a vector, has been performed. -/
def Stream.wroteVector (st : Stream) (j : Nat) (rest : List Vec) (m : KMap Nat) : Stream :=
  { st with engine := j + 1, wrote := joinSeen st.wrote m, buf := rest, seen := st.seen.tail, upTo := st.upTo.tail }

theorem State.tryStream_waits (hb : ((s.core c).streams.get i).bound = some (.memory h desc))
    (hwait : s.elementWaits c h ((s.core c).streams.get i) desc (desc.addr ((s.core c).streams.get i).engine) = true) :
    s.tryStream c i = none := by
  unfold State.tryStream
  simp only [hb, hwait, Bool.or_true, if_true]

/-- An element that nothing holds up (R90, R178). -/
structure State.ElementOpen (s : State) (c : CoreId) (i : Fin 8) (h : CtxId) (desc : StreamDesc) : Prop where
  bound : ((s.core c).streams.get i).bound = some (.memory h desc)
  fault : ((s.core c).streams.get i).fault = none
  left : ((s.core c).streams.get i).engine < desc.total
  stopped : s.stopped = false
  waits : s.elementWaits c h ((s.core c).streams.get i) desc (desc.addr ((s.core c).streams.get i).engine) = false

theorem State.ElementOpen.guard (ho : s.ElementOpen c i h desc) : (((s.core c).streams.get i).fault.isSome ||
    decide (desc.total ≤ ((s.core c).streams.get i).engine) || s.stopped ||
    s.elementWaits c h ((s.core c).streams.get i) desc (desc.addr ((s.core c).streams.get i).engine)) = false := by
  rw [ho.fault, ho.stopped, ho.waits, decide_eq_false (Nat.not_le.mpr ho.left)]
  rfl

/-- The next element of an input with room for it is read, and no pulse follows. -/
theorem State.tryStream_reads {v : Nat} {l : List (Nat × Nat × Nat)} (ho : s.ElementOpen c i h desc)
    (hdir : desc.output = false) (hroom : ((s.core c).streams.get i).buf.length < 8) (hwatch : (s.core c).xbar.unwatched)
    (hread : s.streamRead c i desc (desc.addr ((s.core c).streams.get i).engine) 0 desc.pieces = .ok (v, l, w)) :
    ∃ t, s.tryStream c i = some t ∧ (t.core c).streams.get i =
      ((s.core c).streams.get i).readElement desc ((s.core c).streams.get i).engine v l := by
  have hcore := (State.OnlyReads.streamRead hread).core c
  have hstreams : (w.core c).streams = (s.core c).streams := by rw [hcore]
  have hw : (w.core c).xbar.unwatched := by
    rw [hcore]
    exact hwatch
  have hfull : ¬ (8 ≤ ((s.core c).streams.get i).buf.length ∧ ((s.core c).streams.get i).engine % desc.perVec = 0) :=
    fun hcond => absurd hcond.1 (Nat.not_le.mpr hroom)
  refine ⟨w.modStream c i (·.readElement desc ((s.core c).streams.get i).engine v l), ?_, ?_⟩
  · unfold State.tryStream
    simp only [ho.bound, ho.guard, hdir, hread, if_neg hfull]
    rfl
  · rw [State.modStream_unwatched hw, State.core_modCore_self, hstreams]
    exact vget_vput_self _ _ _

theorem Stream.tell_memory {st : Stream} (hb : st.bound = some (.memory h desc)) (x : CtxId) (id : Nat) (m : KMap Nat) :
    st.tell x id m = st := by
  unfold Stream.tell
  rw [hb]

/-- What a performed write tells leaves a memory stream and the crossbar. -/
theorem State.tellAfter_stream (hb : ((s.core c).streams.get i).bound = some (.memory h desc)) (x : CtxId) (id : Nat)
    (m : KMap Nat) : (s.tellAfter c x id m).mem = s.mem ∧ ((s.tellAfter c x id m).core c).xbar = (s.core c).xbar ∧
      ((s.tellAfter c x id m).core c).streams.get i = (s.core c).streams.get i := by
  unfold State.tellAfter
  split
  · exact ⟨rfl, rfl, rfl⟩
  · rw [State.core_modCore_self]
    exact ⟨rfl, rfl, (vget_ofFn _ i).trans (Stream.tell_memory hb _ _ _)⟩

/-- The last element of an output's vector is performed, and no pulse follows. -/
theorem State.tryStream_writes {v : Vec} {m : KMap Nat} {rest : List Vec} (ho : s.ElementOpen c i h desc)
    (hdir : desc.output = true) (hbuf : ((s.core c).streams.get i).buf = v :: rest)
    (hlast : ((s.core c).streams.get i).engine % desc.perVec + 1 = desc.perVec) (hwatch : (w.core c).xbar.unwatched)
    (hstreams : (w.core c).streams = (s.core c).streams)
    (hwrite : s.streamWrite c i (s.pushWriter c h ((s.core c).streams.get i)) desc
      (desc.addr ((s.core c).streams.get i).engine)
      (v.toNat / 2 ^ (8 * 2 ^ desc.es * (((s.core c).streams.get i).engine % desc.perVec)) % 2 ^ (8 * 2 ^ desc.es)) 0
      desc.pieces = .ok (m, w)) :
    ∃ t, s.tryStream c i = some t ∧ (t.core c).streams.get i =
      ((s.core c).streams.get i).wroteVector ((s.core c).streams.get i).engine rest m ∧ t.mem = w.mem := by
  have hsync : (w.syncWith c h m).core c = (w.core c).modCtx h fun x => { x with seen := joinSeen x.seen m } :=
    State.core_modCore_self _ _ _
  obtain ⟨hmem, hxbar, hget⟩ := State.tellAfter_stream (s := w.syncWith c h m) (c := c) (i := i) (h := h) (desc := desc)
    (by rw [hsync, ← ho.bound, ← hstreams]; rfl) h (((s.core c).streams.get i).upTo.headD 0) m
  have hoff : (((w.syncWith c h m).tellAfter c h (((s.core c).streams.get i).upTo.headD 0) m).core c).xbar.unwatched := by
    rw [hxbar, hsync]
    exact hwatch
  have hlast' : decide (((s.core c).streams.get i).engine % desc.perVec + 1 = desc.perVec ∨
      ((s.core c).streams.get i).engine + 1 = desc.total) = true := decide_eq_true (.inl hlast)
  refine ⟨((w.syncWith c h m).tellAfter c h (((s.core c).streams.get i).upTo.headD 0) m).modStream c i
    (·.wroteVector ((s.core c).streams.get i).engine rest m), ?_, ?_, ?_⟩
  · unfold State.tryStream
    simp only [ho.bound, ho.guard, hdir, hbuf, hwrite, hlast', if_true]
    rfl
  · rw [State.modStream_unwatched hoff, State.core_modCore_self, hget, hsync]
    refine (vget_vput_self _ _ _).trans ?_
    rw [← hstreams]
    rfl
  · rw [State.modStream_unwatched hoff]
    exact hmem

end

/-- Settles O45: a channel's start, its completion with a pulse into disabled terms (`State.OnlyXbar`), an uncorrectable error at one
of the elements that may be performed, and an element read (`State.OnlyReads.streamRead`) or performed without a pulse. -/
theorem copyHappenings : Obligations.CopyHappenings := by
  unfold Obligations.CopyHappenings
  intro c ch i h desc s w hoff hwatch k q st
  refine ⟨fun r hnext hrun hfault hheld hstop => ?_, fun run v hrun hfault hall hwoff => ?_,
    fun run hrun hfault hdone hwf => ?_, fun run hrun hfault hsome => ?_,
    fun v l hb hdir hfault hleft hstop hroom hwait hread => ?_, fun hb hwait => ?_,
    fun v m rest hb hdir hfault hleft hstop hbuf hlast hwait hwrite hww hstreams => ?_⟩
  · have hstart := State.tryCopyStart_starts hnext hrun hfault hheld hstop
    refine ⟨_, happen_some s hstart, rfl, ?_, ?_⟩
    · rw [State.core_modCore_self]
      exact Core.modChan_get _ _
    · rw [State.core_modCore_self]
      exact dropChan_length hnext
  · obtain ⟨hmem, -, -, hr, hd⟩ := State.copyDone_frame (ch := ch) hwoff run.req
    exact ⟨_, happen_some s (State.tryCopyDone_completes hrun hfault hall), hr, hd, hmem⟩
  · intro r a hkind hlen hspace halign
    have hfills : run.req.FillsWord := ⟨hkind, hlen, hspace, halign⟩
    obtain ⟨t, ht, hspad, hfull, hd⟩ := State.tryCopyDone_fillsWord hoff hfills hrun hfault rfl hdone
    refine ⟨t, happen_some s ht, ?_, fun m hm => ?_, hfull, hd⟩
    · rw [hspad, Memory.readNat_writeNat _ _ _ _ hwf]
      exact Nat.mod_eq_of_lt r.w3.isLt
    · rw [hspad]
      exact Memory.get_write_out _ _ _ _ (by rwa [leBytes_length])
  · obtain ⟨j, a, hj, hmay, haddr, ht⟩ := State.tryChannelFault_uncorrectable hrun hfault hsome
    refine ⟨_, happen_some s ht, rfl, j, a, hj, hmay, haddr, ?_⟩
    exact (congrArg (fun x : Core => x.chans.get ch) (State.core_modCore_self (s.draw 64).2 c fun k => k.modChan ch fun q =>
      { q with fault := some (0x18, a) })).trans (Core.modChan_get _ _)
  · obtain ⟨t, ht, hget⟩ := State.tryStream_reads ⟨hb, hfault, hleft, hstop, hwait⟩ hdir hroom hwatch hread
    exact ⟨t, happen_some s ht, hget⟩
  · exact happen_none s (State.tryStream_waits hb hwait)
  · obtain ⟨t, ht, hget, hmem⟩ := State.tryStream_writes ⟨hb, hfault, hleft, hstop, hwait⟩ hdir hbuf hlast hww hstreams hwrite
    exact ⟨t, happen_some s ht, hget, hmem⟩

end Sys2Proof.Machine
end

/-! PROOFS. Rounds, aborts and multicast records (O47). -/

section
namespace Sys2Proof.Machine

/-! ## The outcome of a member's round (R182, R186) -/

section
variable {i rank : Nat} {q : Group} {m : Member} {s t : State} {c : CoreId}

theorem listPut_eq_set {α : Type} (l : List α) (i : Nat) (x : α) : listPut l i x = l.set i x := by
  induction l generalizing i with
  | nil => rfl
  | cons a l ih =>
    cases i with
    | zero => rfl
    | succ i => exact congrArg (a :: ·) (ih i)

theorem listPut_self {α : Type} {l : List α} {a : α} (h : l[i]? = some a) (x : α) : (listPut l i x)[i]? = some x := by
  rw [listPut_eq_set]
  exact List.getElem?_set_self (List.getElem?_eq_some_iff.mp h).1

theorem listPut_ne {α : Type} (l : List α) (x : α) {j : Nat} (h : j ≠ i) : (listPut l i x)[j]? = l[j]? := by
  rw [listPut_eq_set]
  exact List.getElem?_set_ne h.symm

/-- No term of any crossbar is enabled. -/
def State.allOff (s : State) : Prop := ∀ c, (s.core c).termsOff

theorem State.allOff_modCore (h : s.allOff) {f : Core → Core} (hf : (f (s.core c)).xbar = (s.core c).xbar) :
    (s.modCore c f).allOff := by
  intro d
  by_cases hd : d = c
  · subst hd
    rw [State.core_modCore_self]
    unfold Core.termsOff
    rw [hf]
    exact h d
  · rw [State.core_modCore_ne _ _ _ _ hd]
    exact h d

theorem State.allOff_congr (h : s.allOff) (hcores : t.cores = s.cores) : t.allOff := by
  intro d
  rw [State.core_congr hcores d]
  exact h d

theorem State.allOff_pulseOf (h : s.allOff) (c : CoreId) (n : Nat) (k : KMap Nat) : (s.pulseOf c n k).allOff := by
  have hx := State.OnlyXbar.pulseOf (h c) n k
  intro d
  by_cases hd : d = c
  · subst hd
    exact hx.off
  · rw [hx.others d hd]
    exact h d

/-- The member after the outcome of its round is fixed. -/
def Member.outcome (m : Member) (res : Option (List Word)) : Member :=
  { m with inj := none, held := false, outRound := m.injRound, outRes := res.isSome, data := res.getD m.data
           rounds := m.rounds + 1 }

/-- The group in a slot, and no term enabled. -/
def State.hasGroup (s : State) (i : Nat) (p : Group) : Prop := s.group i = some p ∧ s.allOff

theorem State.hasGroup_modCore {p : Group} (h : s.hasGroup i p) {f : Core → Core} (hf : ∀ k, (f k).xbar = k.xbar) :
    (s.modCore c f).hasGroup i p := ⟨h.1, State.allOff_modCore h.2 (hf _)⟩

theorem State.hasGroup_pulseOf {p : Group} (h : s.hasGroup i p) (c : CoreId) (n : Nat) (k : KMap Nat) :
    (s.pulseOf c n k).hasGroup i p := by
  refine ⟨?_, State.allOff_pulseOf h.2 c n k⟩
  unfold State.group
  rw [(State.OnlyXbar.pulseOf (h.2 c) n k).rest]
  exact h.1

theorem State.hasGroup_setGroup (h : s.allOff) (i : Nat) (p : Group) : (s.setGroup i p).hasGroup i p :=
  ⟨s.setGroup_find i p, State.allOff_congr h rfl⟩

theorem ite_keeps {P : State → Prop} {b : Prop} [Decidable b] (hs : P s) (ht : P s → P t) : P (if b then t else s) := by
  split
  · exact ht hs
  · exact hs

/-- A fixed outcome stands in its group, and no pulse of it fires a term. -/
theorem State.fixOutcome_group (hoff : s.allOff) (hq : s.group i = some q) (hm : q.members[rank]? = some m)
    (res : Option (List Word)) :
    (s.fixOutcome i rank res).hasGroup i { q with members := listPut q.members rank (m.outcome res) } := by
  set p : Group := { q with members := listPut q.members rank (m.outcome res) }
  unfold State.fixOutcome
  simp only [hq, hm]
  refine ite_keeps (P := fun u : State => u.hasGroup i p)
    (foldl_keeps (P := fun u : State => u.hasGroup i p) ?_ fun u hu e => ?_) fun h => State.hasGroup_pulseOf h _ _ _
  · exact State.hasGroup_modCore (State.hasGroup_setGroup hoff i p) fun _ => by exact rfl
  · split
    · exact State.hasGroup_modCore hu fun _ => by exact rfl
    · exact hu

/-! ## A round completes (R182) -/

/-- The outcomes of some ranks are fixed in turn: those ranks have them, the others stand. -/
theorem State.fixOutcomes_group {res : Nat → List Word} {l : List Nat} (hl : l.Nodup) (hs : s.hasGroup i q)
    (hmem : ∀ r ∈ l, r < q.members.length) : ∃ ms, (l.foldl (fun t r => t.fixOutcome i r (some (res r))) s).hasGroup i
      { q with members := ms } ∧ ms.length = q.members.length ∧
      (∀ r ∈ l, ∀ m, q.members[r]? = some m → ms[r]? = some (m.outcome (some (res r)))) ∧
      ∀ r, r ∉ l → ms[r]? = q.members[r]? := by
  induction l generalizing s q with
  | nil => exact ⟨q.members, hs, rfl, fun r hr => absurd hr List.not_mem_nil, fun _ _ => rfl⟩
  | cons x l ih =>
    obtain ⟨hx, hnodup⟩ := List.nodup_cons.mp hl
    obtain ⟨m, hmx⟩ : ∃ m, q.members[x]? = some m := ⟨_, List.getElem?_eq_getElem (hmem x List.mem_cons_self)⟩
    have hone := State.fixOutcome_group hs.2 hs.1 hmx (some (res x))
    set q1 : Group := { q with members := listPut q.members x (m.outcome (some (res x))) } with hq1
    have hlen : q1.members.length = q.members.length := by
      rw [hq1, listPut_eq_set, List.length_set]
    obtain ⟨ms, hgroup, hms, hin, hout⟩ := ih hnodup hone fun r hr => hlen.symm ▸ hmem r (List.mem_cons_of_mem _ hr)
    refine ⟨ms, hgroup, hms.trans hlen, fun r hr k hk => ?_, fun r hr => ?_⟩
    · by_cases hrx : r = x
      · subst hrx
        obtain rfl : m = k := Option.some.inj (hmx.symm.trans hk)
        exact (hout r hx).trans (listPut_self hmx _)
      · exact hin r ((List.mem_cons.mp hr).resolve_left hrx) k ((listPut_ne _ _ hrx).trans hk)
    · obtain ⟨hne, hnot⟩ := not_or.mp (fun h => hr (List.mem_cons.mpr h))
      exact (hout r hnot).trans (listPut_ne _ _ hne)

/-- Of a group in whose round every member has injected, every member's outcome is open. -/
theorem Group.pending_all (h : ∀ x ∈ q.members, x.injRound ≠ x.outRound) : q.pending = upto q.members.length := by
  unfold Group.pending
  refine List.filter_eq_self.mpr fun r hr => ?_
  have hlt := (mem_upto _ r).mp hr
  rw [List.getElem?_eq_getElem hlt]
  exact bne_iff_ne.mpr (h _ (List.getElem_mem hlt))

theorem State.tryRound_completes (hoff : s.allOff) (hq : s.group i = some q) (hlive : q.live = true)
    (hall : ∀ x ∈ q.members, x.inj ≠ none ∧ x.held = false ∧ x.injRound ≠ x.outRound) (hm : q.members[rank]? = some m) :
    ∃ t p, s.tryRound i = some t ∧ t.group i = some p ∧
      p.members[rank]? = some { m.outcome (some (q.results.getD rank [])) with inj := none } := by
  have hpending := Group.pending_all fun x hx => (hall x hx).2.2
  have hrank : rank < q.members.length := (List.getElem?_eq_some_iff.mp hm).1
  have hcomplete : q.complete = true := by
    unfold Group.complete
    rw [Bool.and_eq_true, List.all_eq_true, hpending, upto_eq_range]
    refine ⟨?_, fun x hx => ?_⟩
    · rw [Bool.not_eq_true', List.isEmpty_eq_false_iff_exists_mem]
      exact ⟨rank, List.mem_range.mpr hrank⟩
    · obtain ⟨hinj, hheld, -⟩ := hall x hx
      rw [hheld, Option.isSome_iff_ne_none.mpr hinj]
      rfl
  obtain ⟨ms, ⟨hgroup, -⟩, -, hin, -⟩ := State.fixOutcomes_group (res := fun r => q.results.getD r [])
    (upto_eq_range q.members.length ▸ List.nodup_range) ⟨hq, hoff⟩ fun r hr => (mem_upto _ r).mp hr
  have hmember := hin rank ((mem_upto _ rank).mpr hrank) m hm
  set u := (upto q.members.length).foldl (fun t r => t.fixOutcome i r (some (q.results.getD r []))) s
  have htry : s.tryRound i = some (u.setGroup i { q with
      members := ms.map fun m => { m with inj := none }
      nres := if q.aborted then q.nres + (upto q.members.length).length else q.nres }) := by
    have hgo : (q.live && q.complete) = true := by
      rw [hlive, hcomplete]
      rfl
    unfold State.tryRound
    simp only [hq, hgo, if_true, hpending]
    rw [hgroup]
  refine ⟨_, _, htry, State.setGroup_find u i _, ?_⟩
  rw [List.getElem?_map, hmember]
  rfl

/-! ## An abort arrives (R186) -/

theorem State.abortAt_open (hoff : s.allOff) (hq : s.group i = some q) (hm : q.members[rank]? = some m)
    (hround : m.injRound ≠ m.outRound) : ∃ p z, (s.abortAt i rank).group i = some p ∧ p.members[rank]? = some z ∧
      z = { m.outcome none with inj := if m.held then none else m.inj } ∧ p.aborting = removeNat q.aborting rank := by
  obtain ⟨hgroup, -⟩ := State.fixOutcome_group
    (State.allOff_congr (t := s.setGroup i { q with aborting := removeNat q.aborting rank }) hoff rfl)
    (s.setGroup_find i { q with aborting := removeNat q.aborting rank }) (rank := rank) (m := m) hm none
  have hput : (listPut q.members rank (m.outcome none))[rank]? = some (m.outcome none) := listPut_self hm _
  unfold State.abortAt
  simp only [hq, hm, if_pos hround, hgroup]
  cases hheld : m.held with
  | true => exact ⟨_, _, hgroup, hput, by rw [if_pos rfl]; rfl, rfl⟩
  | false =>
    refine ⟨_, _, State.setGroup_find _ i _, listPut_self hput _, ?_, rfl⟩
    rw [List.getD_eq_getElem?_getD, hput]
    rfl

theorem State.abortAt_closed (hq : s.group i = some q) (hm : q.members[rank]? = some m) (hround : m.injRound = m.outRound)
    (hlate : m.outRound < q.abRound) : (s.abortAt i rank).group i = some { q with
      aborting := removeNat q.aborting rank
      members := listPut q.members rank { m with outRes := false, rounds := m.rounds + 1 } } := by
  unfold State.abortAt
  simp only [hq, hm, if_neg (not_not.mpr hround), if_pos hlate]
  exact State.setGroup_find _ i _

theorem State.tryAbort_arrives (hq : s.group i = some q) (hrank : rank ∈ q.aborting) :
    s.tryAbort i rank = some (s.abortAt i rank) := by
  unfold State.tryAbort
  simp only [hq, List.contains_iff_mem.mpr hrank, if_true]

/-! ## Completion records of multicast stores (R188) -/

/-- No engine has a write of a scratchpad left. -/
def State.noEngW (s : State) : Prop := ∀ c, (s.core c).engW = []

/-- A branch with nothing left to write has not failed, and no core changes. -/
theorem State.mcastBranch_done (h : s.noEngW) (id n : Nat) (err : Bool) : (s.mcastBranch id n err).1 = false ∧
    (s.mcastBranch id n err).2.mcasts = s.mcasts ∧ ∀ c, (s.mcastBranch id n err).2.core c = s.core c := by
  have hmine : ((s.core (mkCore n)).engW.filter fun w => w.mcast == some id) = [] := by
    rw [h]
    rfl
  have hcore : { s.core (mkCore n) with engW := (s.core (mkCore n)).engW.filter fun w => w.mcast != some id } =
      s.core (mkCore n) := by
    conv_rhs => rw [show s.core (mkCore n) = { s.core (mkCore n) with engW := (s.core (mkCore n)).engW } from rfl]
    rw [h]
    rfl
  unfold State.mcastBranch
  simp only [hmine, List.foldl_nil, ite_self, hcore]
  refine ⟨rfl, rfl, fun c => ?_⟩
  by_cases hc : c = mkCore n
  · subst hc
    exact State.core_setCore_self _ _ _
  · exact State.core_setCore_ne _ _ _ _ hc

theorem State.mcastBranches_done (h : s.noEngW) (id : Nat) (errs : List Nat) (r : Nat) (ms : List Nat) :
    (s.mcastBranches id errs r ms).1 = List.replicate ms.length false ∧
      (s.mcastBranches id errs r ms).2.mcasts = s.mcasts ∧ ∀ c, (s.mcastBranches id errs r ms).2.core c = s.core c := by
  induction ms generalizing s r with
  | nil => exact ⟨rfl, rfl, fun _ => rfl⟩
  | cons n ms ih =>
    obtain ⟨hbit, hmcasts, hcores⟩ := State.mcastBranch_done h id n (errs.contains r)
    have hnone : (s.mcastBranch id n (errs.contains r)).2.noEngW := fun c => by rw [hcores, h]
    obtain ⟨hbits, hrest, hothers⟩ := ih hnone (r + 1)
    exact ⟨congrArg₂ List.cons hbit hbits, hrest.trans hmcasts, fun c => (hothers c).trans (hcores c)⟩

/-- A record of branches of which none has failed. -/
theorem mcastRecord_replicate (n : Nat) : mcastRecord (List.replicate n false) = leBytes ((n + 63) / 64 * 8) 0 := by
  have hzero : (List.replicate n false).foldr (fun b n => b2n b + 2 * n) 0 = 0 := by
    induction n with
    | zero => rfl
    | succ n ih => rw [List.replicate_succ, List.foldr_cons, ih]; rfl
  unfold mcastRecord
  rw [hzero, List.length_replicate]

theorem leBytes_zero (n k : Nat) : (leBytes n 0).getD k 0 = 0 := by
  induction n generalizing k with
  | zero => rfl
  | succ n ih =>
    cases k with
    | zero => rfl
    | succ k => exact ih k

/-- No multicast store is left. -/
def State.noMcasts (s : State) : State := { s with mcasts := [] }

/-- The one multicast store of a module, all of whose branches are done: its record is written, all zero. -/
theorem State.tryMcast_done {x : Mcast} (hx : s.mcasts = [x]) (h : s.noEngW) (hwf : (s.core x.core).spad.wf = true) :
    ∃ t, s.tryMcast 0 [] = some t ∧ t.mcasts = [] ∧
      ∀ b, b < (x.members.length + 63) / 64 * 8 → (t.core x.core).spad.get (x.record + b) = 0 := by
  obtain ⟨hbits, hmcasts, hcores⟩ := State.mcastBranches_done (s := s.noMcasts) h x.id [] 0 x.members
  have htry : s.tryMcast 0 [] = some ((s.noMcasts.mcastBranches x.id [] 0 x.members).2.modCore x.core
      (·.deliver x.record (mcastRecord (s.noMcasts.mcastBranches x.id [] 0 x.members).1))) := by
    unfold State.tryMcast
    simp only [hx]
    rfl
  rw [hbits, mcastRecord_replicate] at htry
  refine ⟨_, htry, hmcasts, fun b hb => ?_⟩
  rw [State.core_modCore_self, hcores]
  have hspad : ((s.core x.core).deliver x.record (leBytes ((x.members.length + 63) / 64 * 8) 0)).spad =
      (s.core x.core).spad.write x.record (leBytes ((x.members.length + 63) / 64 * 8) 0) := by
    unfold Core.deliver
    simp only
    rw [Core.setFulls_eq]
    rfl
  exact (congrArg (Memory.get · _) hspad).trans ((Memory.get_write_in _ _ _ _ hwf (by rwa [leBytes_length])).trans
    (leBytes_zero _ _))

end
end Sys2Proof.Machine
end

/-! PROOFS. Object operations at routers, in windows and at their homes (O47). -/

section
namespace Sys2Proof.Machine

/-! ## Replies (R190, R193) -/

section
variable {s t u : State} {c : CoreId} {h : CtxId} {m : ObjMsg} {v : DWord}

/-- Only cores may differ, and in every context the same requests are outstanding. -/
structure State.SameIds (s t : State) : Prop where
  rest : t = { s with cores := t.cores }
  ids : ∀ c h, ((t.core c).ctx h).reqs.map Req.id = ((s.core c).ctx h).reqs.map Req.id

theorem State.SameIds.refl (s : State) : s.SameIds s := ⟨rfl, fun _ _ => rfl⟩

theorem State.SameIds.trans (hst : s.SameIds t) (htu : t.SameIds u) : s.SameIds u :=
  ⟨by rw [htu.rest, hst.rest], fun c h => (htu.ids c h).trans (hst.ids c h)⟩

theorem State.SameIds.of_modCore {f : Core → Core} (hf : ∀ k h, ((f k).ctx h).reqs.map Req.id = (k.ctx h).reqs.map Req.id) :
    s.SameIds (s.modCore c f) := by
  refine ⟨rfl, fun d h => ?_⟩
  by_cases hd : d = c
  · subst hd
    rw [State.core_modCore_self]
    exact hf _ h
  · rw [State.core_modCore_ne _ _ _ _ hd]

theorem State.SameIds.of_modCtx {f : Ctx → Ctx} (hf : ∀ x, (f x).reqs.map Req.id = x.reqs.map Req.id) :
    s.SameIds (s.modCtx c h f) := by
  refine .of_modCore fun k i => ?_
  by_cases hi : i = h
  · subst hi
    rw [Core.ctx_modCtx_self]
    exact hf _
  · rw [Core.ctx_modCtx_ne _ _ _ _ hi]

theorem State.SameIds.syncWith (s : State) (c : CoreId) (h : CtxId) (k : KMap Nat) : s.SameIds (s.syncWith c h k) :=
  .of_modCtx fun _ => rfl

/-- Requests changed in place keep their numbers. -/
theorem map_id_keeps {f : Req → Req} (hf : ∀ r, (f r).id = r.id) (l : List Req) : (l.map f).map Req.id = l.map Req.id := by
  rw [List.map_map]
  exact List.map_congr_left fun r _ => hf r

theorem State.SameIds.tellAfter (s : State) (c : CoreId) (h : CtxId) (id : Nat) (n : KMap Nat) :
    s.SameIds (s.tellAfter c h id n) := by
  unfold State.tellAfter
  split
  · exact .refl s
  · refine .of_modCore fun k i => ?_
    unfold Core.ctx
    rw [vget_ofFn]
    dsimp only
    by_cases hi : i = h
    · rw [if_pos hi]
      exact map_id_keeps (fun r => by split <;> rfl) _
    · rw [if_neg hi]
      split <;> rfl

theorem State.SameIds.modReq (s : State) (c : CoreId) (h : CtxId) (id : Nat) {f : Req → Req} (hf : ∀ r, (f r).id = r.id) :
    s.SameIds (s.modReq c h id f) :=
  .of_modCtx fun x => map_id_keeps (fun r => by split <;> [exact hf r; rfl]) x.reqs

theorem State.SameIds.replied (s : State) (c : CoreId) (h : CtxId) (q : Req) (v : DWord) : s.SameIds (s.replied c h q v) :=
  (State.SameIds.tellAfter s c h q.id _).trans (.modReq _ c h q.id fun _ => rfl)

/-- The requests of a number in a context after their reply. -/
theorem State.replied_reply (s : State) (c : CoreId) (h : CtxId) (q : Req) (v : DWord) :
    ∀ r ∈ (((s.replied c h q v).core c).ctx h).reqs, r.id = q.id → r.reply = some v := by
  intro r hr hid
  unfold State.replied State.modReq State.modCtx at hr
  rw [State.core_modCore_self, Core.ctx_modCtx_self] at hr
  obtain ⟨p, -, rfl⟩ := List.mem_map.mp hr
  by_cases hp : p.id = q.id
  · rw [if_pos hp]
  · rw [if_neg hp] at hid
    exact absurd hid hp

/-- A reply of an operation: the same requests are outstanding, and those of its number have the value. -/
structure State.Replied (s : State) (m : ObjMsg) (v : DWord) (t : State) : Prop extends s.SameIds t where
  reply : ∀ r ∈ ((t.core m.core).ctx m.ctx).reqs, r.id = m.req → r.reply = some v

theorem State.replyObj_replied (hdev : m.dev = none) (v : DWord) (seen : KMap Nat) :
    s.Replied m v (s.replyObj m (.value v) seen) := by
  have hsync := State.SameIds.syncWith s m.core m.ctx seen
  unfold State.replyObj
  rw [hdev]
  dsimp only
  split
  · next q hq =>
    have hit := List.find?_some hq
    have hid : q.id = m.req := beq_iff_eq.mp hit
    refine ⟨hsync.trans (.replied _ _ _ q v), fun r hr hrid => ?_⟩
    exact State.replied_reply _ _ _ q v r hr (hrid.trans hid.symm)
  · next hnone =>
    refine ⟨hsync, fun r hr hrid => ?_⟩
    have hmiss : ¬ (r.id == m.req) = true := List.find?_eq_none.mp hnone r hr
    exact absurd (beq_iff_eq.mpr hrid) hmiss

/-- A reply of an operation after one of another. -/
theorem State.Replied.after (htu : t.Replied m v u) (hst : s.SameIds t) : s.Replied m v u := ⟨hst.trans htu.toSameIds, htu.reply⟩

/-- The reply as a state with the same cores sees it. -/
theorem State.Replied.seenFrom (h : t.Replied m v u) (hcores : t.cores = s.cores) :
    ((u.core m.core).ctx m.ctx).reqs.map Req.id = ((s.core m.core).ctx m.ctx).reqs.map Req.id ∧
      ∀ r ∈ ((u.core m.core).ctx m.ctx).reqs, r.id = m.req → r.reply = some v :=
  ⟨(h.ids _ _).trans (by rw [State.core_congr hcores]), h.reply⟩

/-- A change of a core that leaves its contexts. -/
theorem State.Replied.modCore (h : s.Replied m v t) {f : Core → Core} (hf : ∀ k, (f k).ctxs = k.ctxs) :
    s.Replied m v (t.modCore c f) := by
  have hctxs : ((t.modCore c f).core m.core).ctxs = (t.core m.core).ctxs := by
    by_cases hc : m.core = c
    · rw [← hc, State.core_modCore_self, hf]
    · rw [State.core_modCore_ne _ _ _ _ hc]
  refine ⟨h.toSameIds.trans (.of_modCore fun k i => ?_), ?_⟩
  · unfold Core.ctx
    rw [hf]
  · unfold Core.ctx
    rw [hctxs]
    exact h.reply

end

/-! ## Routers (R192, R193) -/

section
variable {s : State} {op other : ObjMsg} {o : ObjHome} {l : Nat} {rest : List Nat}

/-- The router of a landing tests an operation. -/
def State.routing (s : State) (op : ObjMsg) (l : Nat) : State :=
  { s with routerAt := s.routerAt.put l (s.cycle, op.core.val) }

theorem State.knownW_none (h : s.objs.find op.pa = none) (l : Nat) : s.knownW op.pa l = (0, s) := by
  unfold State.knownW
  rw [h]

theorem State.knownW_told (h : s.objs.find op.pa = some o) (hbad : o.bad = false) (hw : o.w ≠ 0) (htold : l ∈ o.told) :
    s.knownW op.pa l = (o.w, s) := by
  unfold State.knownW
  rw [h]
  simp only [hbad, beq_eq_false_iff_ne.mpr hw, Bool.or_self, List.contains_iff_mem.mpr htold, if_true]
  rfl

theorem State.tryRouter_moves (hmsgs : s.objMsgs = [op]) (hpath : op.path = l :: rest) (hmove : s.objMayMove op = true)
    (hturn : s.routerTurn l op = true) (hw : s.isDet op.lcnt = true ∨ s.objs.find op.pa = none) :
    s.tryRouter 0 = some { s.routing op l with objMsgs := [{ op with path := rest }] } := by
  have hhead : s.objMsgs[0]? = some op := by rw [hmsgs]; rfl
  unfold State.tryRouter
  cases hdet : s.isDet op.lcnt with
  | true =>
    simp only [hhead, hpath, hmove, hturn, hdet]
    rw [hmsgs]
    rfl
  | false =>
    have hknown := State.knownW_none (s := s.routing op l) (hw.resolve_left (by simp [hdet])) l
    unfold State.routing at hknown
    simp only [hhead, hpath, hmove, hturn, hdet, hknown]
    rw [hmsgs]
    rfl

theorem State.tryRouter_waits (hmsgs : s.objMsgs = [op]) (hpath : op.path = l :: rest) (hturn : s.routerTurn l op = false) :
    s.tryRouter 0 = none := by
  have hhead : s.objMsgs[0]? = some op := by rw [hmsgs]; rfl
  unfold State.tryRouter
  simp only [hhead, hpath, hturn, Bool.not_false, Bool.or_true, if_true]

/-- What a router makes of an operation that pairs with the one in its window. -/
def State.paired (s : State) (op other : ObjMsg) (l : Nat) : State :=
  (({ s.routing op l with objMsgs := [], windows := s.windows.put l [] } : State).pairObj other op).modCore (homeCore l)
    fun k => k.perf 0x40 1

theorem State.tryRouter_pairs (hmsgs : s.objMsgs = [op]) (hpath : op.path = l :: rest) (hmove : s.objMayMove op = true)
    (hturn : s.routerTurn l op = true) (hdet : s.isDet op.lcnt = false) (ho : s.objs.find op.pa = some o) (hbad : o.bad = false)
    (hw : o.w ≠ 0) (htold : l ∈ o.told) (hwin : s.windows.get [] l = [other]) (hpairs : other.pairs op = true)
    (hleft : other.left ≠ 0) : s.tryRouter 0 = some (s.paired op other l) := by
  have hknown := State.knownW_told (s := s.routing op l) ho hbad hw htold
  have hfind : [other].find? (fun n => n.pairs op && decide (0 < n.left)) = some other :=
    List.find?_cons_of_pos (by rw [hpairs, decide_eq_true (Nat.pos_of_ne_zero hleft)]; rfl)
  have hrest : [other].filter (fun x => x ≠ other) = [] := by simp
  unfold State.routing at hknown
  have hhead : s.objMsgs[0]? = some op := by rw [hmsgs]; rfl
  unfold State.tryRouter
  simp only [hhead, hpath, hmove, hturn, hdet, hknown, Bool.not_true, Bool.or_self, Bool.false_eq_true, if_false,
    if_neg hw, hwin, hfind, hrest]
  rw [hmsgs]
  rfl

/-- The module in which neither of two paired operations is on its way any more. -/
def State.unpaired (s : State) (op : ObjMsg) (l : Nat) : State :=
  { s.routing op l with objMsgs := [], windows := s.windows.put l [] }

/-- A pop that pairs receives the value of its push. -/
theorem State.paired_replied (hpush : other.op = .opush) (hdev : other.dev = none) (hdev' : op.dev = none) :
    (s.unpaired op l).Replied op other.value (s.paired op other l) := by
  have hpair : (s.unpaired op l).pairObj other op = ((s.unpaired op l).replyObj other (.value 0) []).replyObj op
      (.value other.value) ((s.unpaired op l).pushSeen other) := by
    unfold State.pairObj
    simp only [if_pos hpush]
  show (s.unpaired op l).Replied op other.value (((s.unpaired op l).pairObj other op).modCore (homeCore l) fun k => k.perf 0x40 1)
  rw [hpair]
  exact ((State.replyObj_replied hdev' _ _).after (State.replyObj_replied hdev 0 []).toSameIds).modCore fun _ => rfl

/-! ## Windows and homes (R190, R192) -/

theorem State.tryExpire_expires (hwin : s.windows.get [] l = [op]) (hleft : op.left = 0) : ∃ t, s.tryExpire l 0 = some t ∧
    t.windows.get [] l = [] ∧ t.objMsgs = s.objMsgs ++ [{ op with path := op.path.drop 1 }] := by
  have hdrop : listDrop (s.windows.get [] l) 0 = [] := by
    rw [hwin]
    rfl
  have hhead : (s.windows.get [] l)[0]? = some op := by
    rw [hwin]
    rfl
  refine ⟨({ s with windows := s.windows.put l [], objMsgs := s.objMsgs ++ [{ op with path := op.path.drop 1 }] } : State).modCore
    (homeCore l) fun k => k.perf 0x41 1, ?_, KMap.get_put_self _ _ _ _, rfl⟩
  unfold State.tryExpire
  simp only [hhead, if_pos hleft, hdrop]

end

section
variable {s u : State} {op : ObjMsg} {o : ObjHome} {r : ObjReply} {k : KMap Nat} {pa p : Nat} {va value : DWord} {lcnt : Nat}

/-- No object operation is on its way. -/
def State.noMsgs (s : State) : State := { s with objMsgs := [] }

theorem State.tryHome_serves (hmsgs : s.objMsgs = [op]) (hpath : op.path = []) (hmove : s.objMayMove op = true)
    (hremote : isRemote op.pa = false)
    (hserve : s.noMsgs.serveObj op.op op.pa op.va op.value op.lcnt (s.pushSeen op) = some (r, k, u)) :
    s.tryHome 0 = some (u.replyObj op r k) := by
  have hhead : s.objMsgs[0]? = some op := by rw [hmsgs]; rfl
  have hdrop : listDrop s.objMsgs 0 = [] := by rw [hmsgs]; rfl
  unfold State.noMsgs at hserve
  unfold State.tryHome
  simp only [hhead, hpath, hmove, hremote, hdrop, hserve]
  rfl

theorem State.setCount_find (s : State) (pa : Nat) (o : ObjHome) (n : Nat) :
    (s.setCount pa o n).objs.find pa = some { o with count := n } := KMap.find_put_self _ _ _

/-- The object that a home serves is at hand and its header is good. -/
structure State.ObjGood (s : State) (pa : Nat) (o : ObjHome) : Prop where
  lost : s.isLost pa = false
  find : s.objs.find pa = some o
  bad : o.bad = false

theorem State.ObjGood.objAt (h : s.ObjGood pa o) (va : DWord) (lcnt : Nat) : s.objAt pa va lcnt = (o, s) := by
  unfold State.objAt
  rw [h.find]

theorem State.serveObj_push (h : s.ObjGood pa o) (hroom : o.count ≠ o.cap) (hp : s.storeEntry pa o o.count = some p)
    (hws : (inWs p && s.wsLocked) = false) (hcow : s.cowRoom p = true) (va value : DWord) (lcnt : Nat) (k : KMap Nat) :
    s.serveObj .opush pa va value lcnt k = some (.value 0, [],
      (s.memWrite .module p (leBytes 8 value.toNat)).setCount pa { o with seen := k :: o.seen } (o.count + 1)) := by
  unfold State.serveObj
  simp only [h.lost, h.objAt, h.bad, if_neg hroom, hp, hws, hcow]
  rfl

theorem State.serveObj_full (h : s.ObjGood pa o) (hfull : o.count = o.cap) (va value : DWord) (lcnt : Nat) (k : KMap Nat) :
    s.serveObj .opush pa va value lcnt k = some (.value 1, [], s) := by
  unfold State.serveObj
  simp only [h.lost, h.objAt, h.bad, if_pos hfull]
  rfl

theorem State.serveObj_pop (h : s.ObjGood pa o) (hsome : o.count ≠ 0) (hp : s.storeEntry pa o (o.count - 1) = some p)
    (hlost : s.isLost p = false) (va value : DWord) (lcnt : Nat) (k : KMap Nat) :
    s.serveObj .opop pa va value lcnt k = some (.value (s.mem.read64 p), o.seen.headD [],
      s.setCount pa { o with seen := o.seen.tail } (o.count - 1)) := by
  unfold State.serveObj
  simp only [h.lost, h.objAt, h.bad, if_neg hsome, hp, hlost]
  rfl

theorem State.serveObj_empty (h : s.ObjGood pa o) (hnone : o.count = 0) (va value : DWord) (lcnt : Nat) (k : KMap Nat) :
    s.serveObj .opop pa va value lcnt k = some (.value noVersion, [], s) := by
  unfold State.serveObj
  simp only [h.lost, h.objAt, h.bad, if_pos hnone]
  rfl

theorem State.serveObj_count (h : s.ObjGood pa o) (va value : DWord) (lcnt : Nat) (k : KMap Nat) :
    s.serveObj .ocnt pa va value lcnt k = some (.value (dw o.count), [], s) := by
  unfold State.serveObj
  simp only [h.lost, h.objAt, h.bad]
  rfl

/-- An operation at its home, which answers with a value: what the home did stands, and the reply reaches the request. -/
theorem State.tryHome_replies {v : DWord} (hmsgs : s.objMsgs = [op]) (hpath : op.path = []) (hmove : s.objMayMove op = true)
    (hremote : isRemote op.pa = false) (hdev : op.dev = none)
    (hserve : s.noMsgs.serveObj op.op op.pa op.va op.value op.lcnt (s.pushSeen op) = some (.value v, k, u))
    (hcores : u.cores = s.cores) :
    ∃ t, s.tryHome 0 = some t ∧ t.objMsgs = u.objMsgs ∧ t.objs = u.objs ∧ t.mem = u.mem ∧
      ((t.core op.core).ctx op.ctx).reqs.map Req.id = ((s.core op.core).ctx op.ctx).reqs.map Req.id ∧
      ∀ r ∈ ((t.core op.core).ctx op.ctx).reqs, r.id = op.req → r.reply = some v := by
  have hreply := State.replyObj_replied (s := u) hdev v k
  obtain ⟨hids, hall⟩ := hreply.seenFrom hcores
  refine ⟨_, State.tryHome_serves hmsgs hpath hmove hremote hserve, ?_, ?_, ?_, hids, hall⟩ <;> rw [hreply.rest]

theorem State.memWrite_calm (h : s.cowActive = false) (w : Writer) (pa : Nat) (b : List Byte) :
    (s.memWrite w pa b).mem = s.mem.write pa b ∧ (s.memWrite w pa b).cores = s.cores ∧
      (s.memWrite w pa b).objMsgs = s.objMsgs := by
  have hmark : s.cowMark pa b.length = s := by
    unfold State.cowMark
    rw [h]
    rfl
  unfold State.memWrite
  rw [hmark]
  exact ⟨rfl, rfl, rfl⟩

theorem State.cowRoom_calm (h : s.cowActive = false) (pa : Nat) : s.cowRoom pa = true := by
  unfold State.cowRoom State.cowFits
  rw [h]
  rfl

end

/-- Settles O47: outcomes of rounds and aborts by `State.fixOutcome_group`, records by branches that have nothing left to write,
routers, windows and homes by what they make of one operation and its reply (`State.replyObj_replied`). -/
theorem networkHappenings : Obligations.NetworkHappenings := by
  unfold Obligations.NetworkHappenings
  intro i rank q m o op other l rest s hoff reply atHome
  refine ⟨fun hq hlive hall _ hm => ?_, fun hq hrank hm hround => ?_, fun hq hrank hm hround hlate => ?_,
    fun x hx hengW hwf => ?_, fun hmsgs hpath hmove hturn hnone => ?_, fun hmsgs hpath hmove hturn hdet => ?_,
    fun hmsgs hpath hturn => ?_, fun hmsgs hpath hmove hturn hdet ho hbad hw htold hwin hpa hpush hpop hleft hdev hdev' => ?_,
    fun hwin hleft => ?_, fun hmsgs hpath hmove hdev hremote hlost ho hbad hwf hcow => ?_⟩
  · obtain ⟨t, p, htry, hgroup, hmember⟩ := State.tryRound_completes hoff hq hlive hall hm
    exact ⟨t, p, _, happen_some s htry, hgroup, hmember, rfl, rfl, rfl, rfl⟩
  · obtain ⟨p, z, hgroup, hmember, rfl, hab⟩ := State.abortAt_open hoff hq hm hround
    exact ⟨_, p, _, happen_some s (State.tryAbort_arrives hq hrank), hgroup, hmember, rfl, rfl, rfl, hab⟩
  · have hgroup := State.abortAt_closed hq hm hround hlate
    exact ⟨_, _, _, happen_some s (State.tryAbort_arrives hq hrank), hgroup, listPut_self hm _, rfl, rfl⟩
  · obtain ⟨t, htry, hmcasts, hrecord⟩ := State.tryMcast_done hx hengW hwf
    exact ⟨t, happen_some s htry, hmcasts, hrecord⟩
  · exact ⟨_, happen_some s (State.tryRouter_moves hmsgs hpath hmove hturn (.inr hnone)), rfl, rfl⟩
  · exact ⟨_, happen_some s (State.tryRouter_moves hmsgs hpath hmove hturn (.inl hdet)), rfl, rfl⟩
  · exact happen_none s (State.tryRouter_waits hmsgs hpath hturn)
  · have hpairs : other.pairs op = true := by
      unfold ObjMsg.pairs
      rw [hpa, hpush, hpop, beq_self_eq_true]
      rfl
    have hreply := State.paired_replied (s := s) (l := l) hpush hdev hdev'
    refine ⟨_, happen_some s (State.tryRouter_pairs hmsgs hpath hmove hturn hdet ho hbad hw htold hwin hpairs hleft), ?_, ?_,
      hreply.seenFrom rfl, ?_⟩ <;> rw [hreply.rest]
    · rfl
    · exact KMap.get_put_self _ _ _ _
    · rfl
  · obtain ⟨t, htry, hget, hmoved⟩ := State.tryExpire_expires hwin hleft
    exact ⟨t, happen_some s htry, hget, hmoved⟩
  · have hgood : s.noMsgs.ObjGood op.pa o := ⟨hlost, ho, hbad⟩
    have hsame (t : State) (hobjs : t.objs = s.objs) : atHome t o.count := ⟨o, by rw [hobjs]; exact ho, rfl, rfl⟩
    refine ⟨fun hop hroom p hp hws => ?_, fun hop hfull => ?_, fun hop hsome p hp hplost => ?_, fun hop hnone => ?_,
      fun hop => ?_⟩
    · obtain ⟨hmem, hcores, hnomsgs⟩ := State.memWrite_calm (s := s.noMsgs) hcow .module p (leBytes 8 op.value.toNat)
      have hserve := State.serveObj_push hgood (Nat.ne_of_lt hroom) hp hws (State.cowRoom_calm hcow p) op.va op.value op.lcnt
        (s.pushSeen op)
      rw [← hop] at hserve
      obtain ⟨t, htry, hm, hobjs, htmem, hids, hall⟩ := State.tryHome_replies hmsgs hpath hmove hremote hdev hserve hcores
      have hobj := (congrArg (KMap.find · op.pa) hobjs).trans (State.setCount_find _ _ _ _)
      refine ⟨t, happen_some s htry, hm.trans hnomsgs, ⟨hids, hall⟩, ⟨_, hobj, rfl, rfl⟩, ?_, fun b hb => ?_⟩
      · rw [htmem.trans hmem]
        exact (Memory.readNat_writeNat _ _ _ _ hwf).trans (Nat.mod_eq_of_lt op.value.isLt)
      · rw [htmem.trans hmem]
        exact Memory.get_write_out _ _ _ _ (by rwa [leBytes_length])
    · have hserve := State.serveObj_full hgood hfull op.va op.value op.lcnt (s.pushSeen op)
      rw [← hop] at hserve
      obtain ⟨t, htry, hm, hobjs, htmem, hids, hall⟩ := State.tryHome_replies hmsgs hpath hmove hremote hdev hserve rfl
      exact ⟨t, happen_some s htry, hm, ⟨hids, hall⟩, hsame t hobjs, htmem⟩
    · have hserve := State.serveObj_pop hgood hsome hp hplost op.va op.value op.lcnt (s.pushSeen op)
      rw [← hop] at hserve
      obtain ⟨t, htry, hm, hobjs, htmem, hids, hall⟩ := State.tryHome_replies hmsgs hpath hmove hremote hdev hserve rfl
      have hobj := (congrArg (KMap.find · op.pa) hobjs).trans (State.setCount_find _ _ _ _)
      exact ⟨t, happen_some s htry, hm, ⟨_, hobj, rfl, rfl⟩, htmem, hids, hall⟩
    · have hserve := State.serveObj_empty hgood hnone op.va op.value op.lcnt (s.pushSeen op)
      rw [← hop] at hserve
      obtain ⟨t, htry, hm, hobjs, htmem, hids, hall⟩ := State.tryHome_replies hmsgs hpath hmove hremote hdev hserve rfl
      exact ⟨t, happen_some s htry, hm, ⟨hids, hall⟩, hnone ▸ hsame t hobjs, htmem⟩
    · have hserve := State.serveObj_count hgood op.va op.value op.lcnt (s.pushSeen op)
      rw [← hop] at hserve
      obtain ⟨t, htry, hm, hobjs, htmem, hids, hall⟩ := State.tryHome_replies hmsgs hpath hmove hremote hdev hserve rfl
      exact ⟨t, happen_some s htry, hm, ⟨hids, hall⟩, hsame t hobjs, htmem⟩

end Sys2Proof.Machine
end

/-! PROOFS. What stands behind the bytes of an instruction: the fields read back from the bytes, and from the fields the instruction.
Here O52 is settled. -/

section
namespace Sys2Proof

/-! ## Fields read back from words and bytes (R5, R201, R202, R205) -/

theorem lowN_of {k n : Nat} [NeZero k] {r : Fin k} (h : n % k = r.val) : lowN k n = r := Fin.ext h

theorem W32.toNat_lt (f : W32) : f.toNat < 2 ^ 32 := by
  unfold W32.toNat
  split <;> omega

theorem W32.toNat_top (f : W32) : f.toNat / 2 ^ 30 = 3 := by
  unfold W32.toNat
  split <;> omega

theorem W32.ofNat_toNat (f : W32) : W32.ofNat f.toNat = f := by
  obtain ⟨g, x, maj, d, a, b, fn⟩ := f
  unfold W32.ofNat W32.toNat
  rw [W32.mk.injEq]
  refine ⟨?_, lowN_of ?_, lowN_of ?_, lowN_of ?_, lowN_of ?_, lowN_of ?_, lowN_of ?_⟩
  · cases g <;> simp <;> omega
  all_goals
    dsimp only
    split <;> omega

theorem W16.toNat_lt (f : W16) : f.toNat < 2 ^ 16 := by
  unfold W16.toNat
  omega

theorem W16.toNat_top (f : W16) : f.toNat / 2 ^ 14 = f.fmt.val := by
  unfold W16.toNat
  omega

theorem W16.ofNat_toNat (f : W16) : W16.ofNat f.toNat = f := by
  obtain ⟨fmt, op, d, lo⟩ := f
  unfold W16.ofNat W16.toNat
  rw [W16.mk.injEq]
  refine ⟨lowN_of ?_, lowN_of ?_, lowN_of ?_, lowN_of ?_⟩ <;> dsimp only <;> omega

/-- The first halfword of a 32-bit number in memory is its high one (R201). -/
theorem bytes32_high {w : Nat} (h : w < 2 ^ 32) :
    (BitVec.ofNat 8 (w / 2 ^ 16)).toNat + 256 * (BitVec.ofNat 8 (w / 2 ^ 24)).toNat = w / 2 ^ 16 := by
  simp only [BitVec.toNat_ofNat]
  omega

theorem bytes32_whole (w : Nat) :
    w / 2 ^ 16 * 65536 + (BitVec.ofNat 8 w).toNat + 256 * (BitVec.ofNat 8 (w / 2 ^ 8)).toNat = w := by
  simp only [BitVec.toNat_ofNat]
  omega

theorem bytes16_whole {w : Nat} (h : w < 2 ^ 16) :
    (BitVec.ofNat 8 w).toNat + 256 * (BitVec.ofNat 8 (w / 2 ^ 8)).toNat = w := by
  simp only [BitVec.toNat_ofNat]
  omega

/-- The decoder reads the four bytes of a 32-bit word by its fields, whatever follows them. -/
theorem decode_bytes32 (f : W32) (rest : List Byte) :
    decode (bytes32 f.toNat ++ rest) = (decodeW32 f).map fun i => (i, 4) := by
  have hlt := f.toNat_lt
  have htop : f.toNat / 2 ^ 16 / 2 ^ 14 = 3 := (Nat.div_div_eq_div_mul _ _ _).trans f.toNat_top
  simp only [bytes32, List.cons_append, decode, bytes32_high hlt, htop, if_true, bytes32_whole, W32.ofNat_toNat]

/-- The decoder reads the two bytes of a 16-bit word by its fields, whatever follows them: [15:14] of 3 stands in no 16-bit word. -/
theorem decode_bytes16 (f : W16) (hfmt : f.fmt ≠ 3) (rest : List Byte) :
    decode (bytes16 f.toNat ++ rest) = (decodeW16 f).map fun i => (i, 2) := by
  have htop : f.toNat / 2 ^ 14 ≠ 3 := by
    rw [f.toNat_top]
    exact fun h => hfmt (Fin.ext h)
  simp only [bytes16, List.cons_append, decode, bytes16_whole f.toNat_lt, htop, if_false, W16.ofNat_toNat]

end Sys2Proof

/-! ## Every constructor -/

namespace Sys2Proof.Laws.Words

/-- One case for each constructor of `Instr`, each by the lemma of its name. -/
theorem statement (i : Instr) : Statement i :=
  Instr.casesOn (motive := Statement) i
    eventArrival holdBackEntry reactionStart headStaleDiscard cancelledEventDiscard joinGraceExpired poolUnitStart
    heartbeatMissed sendDeparture slotChangeEffect crossbarCounterZero crossbarLocalEventEntry copyRequestStart
    copyRequestComplete channelFault gangBarrierComplete mmaStep accumulatorLeavesOwnership mmaOperationFault mstoComplete
    collectiveRoundComplete collectiveAbortArrival mcastCompletionRecord objectOpAtRouter windowWaitExpired objectOpAtHome
    splitPhaseReply stvApply reclApply capabilityArrival capqAnswer atomicAtHome storeGrant directoryOverflowNotice
    overflowInvalidation tlbWalkComplete prefetchComplete wsRefreshWindow streamElementAccess feWaiterService waitSatisfied
    detRoundClose trapEntry trapBudgetExpired machineCheck fenceRelease hostEventCommit launchCommit launchSetupResume
    setCounterCommit cancelCommit checkpointCutCommit cutSave cutMarkerArrival checkpointDrainCommit drainComplete hqheadWrite
    fallbackReplyCommit atomicopUnsupported ptmExchange timestampExchange freeze resume coordinatedFreezeInstant
    coordinatedResumeInstant packetArrival linkDown e2eRetryTimeout e2eAckArrival linkKeyRenewal powerCapThrottle thermalLimit
    powerCapSet pldmFirmwareUpdate pldmMonitor spdmAttestation firmwareBootVerify hostApertureAccess spillTakeRead
    spillPutWrite spillNWrite registerWrite linkBringUp add sub andR orR xor andn minS maxS minu maxu shl shr sra rol ror mov
    mul mulhiS mulhiU mulhiSu div divu rem remu clz ctz popc sextB sextH sextW zextH zextW lea yld ybase yext yrd sbind sunb
    slink sstat addw subw mulw shlw shrw sraw divw remw addi andi ori xori shli shri srai roli ldi seth cmpi cmp fcmp pand por
    pxor pandn pnot pmov pall pnone pfirst pcnt ptox xtop pffs fmvxf fmvfx fkind fadd fsub fmul fdiv fmin fmax fsqrt fsgn fma
    fms fabs fneg fcvtXf fcvtFx fcvtUf fcvtFu cgrp cinj cinjHld cext cstat cabort cfree cinjx cinjxHld cextx mma prep prepx
    mfb mtb clrb tstb nop endL halt brk eret syncCL beatL idle trap mfs mts tagt tagm clk horz lastt lastm bound ebnd mwait
    mzero mrd mstoS mstoBf gang mstat send send2 send4 sendv sendb mcast sendh bindS unbind arm hold rlse startL genrd capq
    ticket poolcfg cntdn cancel cntrd ecw ecr ecpulse eccnt pcfg prd prst tlbi ldb ldh ldw ldd ldbu ldhu ldwu stb sth stw std
    ldxb ldxh ldxw ldxd ldxbu ldxhu ldxwu stxb stxh stxw stxd ldf ldk ste stf sete setf tfe ldgB ldgH ldgW ldgD ldgBu ldgHu
    ldgWu stgB stgH stgW stgD ldcW ldcD ldcWu cinvC cfl cinvl cpf aadd aand aor axor amin amax aminu aswap acas redadd redand
    redor redxor redmin redmax fenceAcq fenceRel fenceFull ldaD stlD ldaW stlW ldv ldvn stv recl hand opush opop ocnt vaddW
    vsubW vmulW vmulhW vminW vmaxW vminuW vmaxuW vaddH vsubH vmulH vmulhH vminH vmaxH vminuH vmaxuH vaddB vsubB vaddsB vsubsB
    vminB vmaxB vminuB vmaxuB vand vor vxor vandn vshlW vshrW vsraW vnot vfaddS vfsubS vfmulS vfmaS vfminS vfmaxS vfabsS
    vfnegS vfaddBf vfsubBf vfmulBf vfmaBf vfminBf vfmaxBf vfdotBf vrcpS vrsqS vexp2S vlog2S vsqrtS vdivS vfloorS vtanhS vcmp
    vcmpF vbcast vbcastf vext vins vperm viota vmov vslide vld vst vldf vste vlds vsts vgath vscat vstf vrsumS vrmaxS vrminS
    vrsumW vscanS vcavS vcavmS vdot4B vcvtSBf vcvtBfS vcvtSW vcvtWS vcvtE4S vcvtSE4 vcvtE5S vcvtSE5 xqW xqT xdone xwait xstat
    xclr xenc xdec movC addC subC andC orC xorC lddC stdC addiC ldiC shliC shriC sraiC andiC ldsC stsC go goGuarded call
    callGuarded nopC endC beatC syncC brkC

end Sys2Proof.Laws.Words

namespace Sys2Proof

theorem Instr.isHappening_eq (i : Instr) : i.isHappening = i.fields.isNone := by cases i <;> rfl

theorem encode_none_iff (i : Instr) : encode i = none ↔ i.isHappening = true := by
  rw [i.isHappening_eq, Option.isNone_iff_eq_none, encode, Option.map_eq_none_iff]

/-- Decoding undoes encoding: the fields are read back from the bytes, and `Laws.Words.statement` reads the instruction from them. -/
theorem decode_encode {i : Instr} (hwf : i.wf = true) {bytes : List Byte} (rest : List Byte) (h : encode i = some bytes) :
    decode (bytes ++ rest) = .ok (i, bytes.length) := by
  have hword := Laws.Words.statement i hwf
  obtain ⟨f, hf, rfl⟩ := Option.map_eq_some_iff.mp h
  rw [hf] at hword
  cases f with
  | w32 f => rw [decode_bytes32, hword]; rfl
  | w16 f => rw [decode_bytes16 f hword.1, hword.2]; rfl

/-- Settles O52: the bytes give back the fields (`decode_bytes32`, `decode_bytes16`), and the fields the instruction, constructor by
constructor (`Laws.Words.statement`). -/
theorem roundTrip : Obligations.RoundTrip := by
  unfold Obligations.RoundTrip
  exact fun i hwf => ⟨(encode_none_iff i).symm, fun _ rest => decode_encode hwf rest⟩

end Sys2Proof
end

/-! PROOFS. What the decoder refuses (R201, R206, R207). Here O54 is settled, and O53 beside it. -/

section
namespace Sys2Proof

/-! ## Refused words -/

/-- A word is refused as its fields are. -/
theorem decode_bytes32_error {f : W32} {e : DecodeError} (h : decodeW32 f = .error e) (rest : List Byte) :
    decode (bytes32 f.toNat ++ rest) = .error e := by
  rw [decode_bytes32, h]
  rfl

theorem decode_bytes16_error {f : W16} {e : DecodeError} (hfmt : f.fmt ≠ 3) (h : decodeW16 f = .error e) (rest : List Byte) :
    decode (bytes16 f.toNat ++ rest) = .error e := by
  rw [decode_bytes16 f hfmt, h]
  rfl

/-- What comes after a refusal is not looked at. -/
theorem bind_refused {α β : Type} {x : Except DecodeError α} {e : DecodeError} (h : x = .error e)
    (f : α → Except DecodeError β) : (x >>= f) = .error e := by
  rw [h]
  rfl

/-! ## Functions that are not allocated (R206) -/

section
variable {g : Bool} {x d a b : Fin 32} {maj : Fin 64} {fn : Fin 8}

/-- Majors of which seven functions are allocated. -/
theorem decodeW32_sevenFunctions (hmaj : maj ∈ ([0x17, 0x1F, 0x20, 0x24, 0x26, 0x28, 0x29, 0x2B, 0x2D, 0x37] : List (Fin 64))) :
    decodeW32 ⟨g, x, maj, d, a, b, 7⟩ = .error .illegal := by
  simp only [List.mem_cons, List.not_mem_nil, or_false] at hmaj
  rcases hmaj with rfl | rfl | rfl | rfl | rfl | rfl | rfl | rfl | rfl | rfl <;> rfl

/-- Majors of which four functions are allocated. -/
theorem decodeW32_fourFunctions (hmaj : maj ∈ ([0x0C, 0x25, 0x27, 0x2A, 0x2F, 0x3B] : List (Fin 64))) (hfn : 4 ≤ fn) :
    decodeW32 ⟨g, x, maj, d, a, b, fn⟩ = .error .illegal := by
  have hfns : ∀ fn : Fin 8, 4 ≤ fn → fn = 4 ∨ fn = 5 ∨ fn = 6 ∨ fn = 7 := by decide
  simp only [List.mem_cons, List.not_mem_nil, or_false] at hmaj
  rcases hmaj with rfl | rfl | rfl | rfl | rfl | rfl <;> rcases hfns fn hfn with rfl | rfl | rfl | rfl <;> rfl

/-- Majors of which three functions are allocated. -/
theorem decodeW32_threeFunctions (hmaj : maj = 0x2E ∨ maj = 0x31) (hfn : 3 ≤ fn) :
    decodeW32 ⟨g, x, maj, d, a, b, fn⟩ = .error .illegal := by
  have hfns : ∀ fn : Fin 8, 3 ≤ fn → fn = 3 ∨ fn = 4 ∨ fn = 5 ∨ fn = 6 ∨ fn = 7 := by decide
  rcases hmaj with rfl | rfl <;> rcases hfns fn hfn with rfl | rfl | rfl | rfl | rfl <;> rfl

/-- Majors of which five functions are allocated. -/
theorem decodeW32_fiveFunctions (hmaj : maj = 0x19 ∨ maj = 0x22 ∨ maj = 0x30 ∨ maj = 0x3C) (hfn : 5 ≤ fn) :
    decodeW32 ⟨g, x, maj, d, a, b, fn⟩ = .error .illegal := by
  have hfns : ∀ fn : Fin 8, 5 ≤ fn → fn = 5 ∨ fn = 6 ∨ fn = 7 := by decide
  rcases hmaj with rfl | rfl | rfl | rfl <;> rcases hfns fn hfn with rfl | rfl | rfl <;> rfl

/-! ## Guards and extension fields (R204) -/

/-- The majors of form L (R204). -/
def formL : List (Fin 64) := [0x0D, 0x0E, 0x18, 0x1C, 0x1D]

theorem decodeW32_guardL (hmaj : maj ∈ formL) : decodeW32 ⟨true, x, maj, d, a, b, fn⟩ = .error .reserved := by
  simp only [formL, List.mem_cons, List.not_mem_nil, or_false] at hmaj
  rcases hmaj with rfl | rfl | rfl | rfl | rfl <;> rfl

/-- A guard in form E: MMA, whose function must be allocated first. -/
theorem decodeW32_guardE (hfn : fn ≠ 7) : decodeW32 ⟨true, x, 0x17, d, a, b, fn⟩ = .error .reserved := by
  have hfns : ∀ fn : Fin 8, fn ≠ 7 → fn = 0 ∨ fn = 1 ∨ fn = 2 ∨ fn = 3 ∨ fn = 4 ∨ fn = 5 ∨ fn = 6 := by decide
  rcases hfns fn hfn with rfl | rfl | rfl | rfl | rfl | rfl | rfl <;> rfl

theorem W32.guardR_extended {f : W32} (hg : f.g = false) (hx : f.x ≠ 0) : f.guardR = .error .reserved := by
  unfold W32.guardR
  rw [hg, if_neg hx]
  rfl

theorem W32.guardR_cases (f : W32) : (∃ g, f.guardR = .ok g) ∨ f.guardR = .error .reserved := by
  unfold W32.guardR
  split
  · exact .inl ⟨_, rfl⟩
  · split
    · exact .inl ⟨_, rfl⟩
    · exact .inr rfl

/-- Where what follows the guard is reserved, so is the word, whether or not its guard can be read. -/
theorem W32.guardR_bind_reserved {α : Type} {f : W32} {rest : Guard → Except DecodeError α}
    (h : ∀ g, rest g = .error .reserved) : (f.guardR >>= rest) = .error .reserved := by
  rcases f.guardR_cases with ⟨g, hg⟩ | hg
  · rw [hg]
    exact h g
  · exact bind_refused hg _

/-- The majors of form R of which O54 speaks: each of their eight functions reads the guard first. -/
def guardFirst : List (Fin 64) := [1, 2, 3, 4, 7, 0x10, 0x11, 0x32, 0x33, 0x34, 0x35, 0x36]

theorem mem_guardFirst : ∀ maj : Fin 64,
    (1 ≤ maj ∧ maj ≤ 4 ∨ maj = 7 ∨ maj = 0x10 ∨ maj = 0x11 ∨ 0x32 ≤ maj ∧ maj ≤ 0x36) → maj ∈ guardFirst := by decide

theorem decodeW32_guardFirst {f : W32} {e : DecodeError} (hmaj : f.maj ∈ guardFirst) (h : f.guardR = .error e) :
    decodeW32 f = .error e := by
  obtain ⟨g, x, maj, d, a, b, fn⟩ := f
  simp only [guardFirst, List.mem_cons, List.not_mem_nil, or_false] at hmaj
  rcases hmaj with rfl | rfl | rfl | rfl | rfl | rfl | rfl | rfl | rfl | rfl | rfl | rfl <;> fin_cases fn <;>
    exact bind_refused h _

/-! ## Scopes (R87) -/

theorem decScope_reserved : ∀ c : Fin 32, 7 ≤ c → decScope c = .error .reserved := by decide

theorem decodeW32_fenceScope (hfn : fn < 3) (ha : 7 ≤ a) : decodeW32 ⟨g, x, 0x2E, d, a, b, fn⟩ = .error .reserved := by
  have hfns : ∀ fn : Fin 8, fn < 3 → fn = 0 ∨ fn = 1 ∨ fn = 2 := by decide
  rcases hfns fn hfn with rfl | rfl | rfl <;> exact W32.guardR_bind_reserved fun _ => bind_refused (decScope_reserved a ha) _

theorem decodeW32_accessScope (hfn : fn < 4) (hb : 7 ≤ b) : decodeW32 ⟨g, x, 0x2F, d, a, b, fn⟩ = .error .reserved := by
  have hfns : ∀ fn : Fin 8, fn < 4 → fn = 0 ∨ fn = 1 ∨ fn = 2 ∨ fn = 3 := by decide
  rcases hfns fn hfn with rfl | rfl | rfl | rfl <;>
    exact W32.guardR_bind_reserved fun _ => bind_refused (decScope_reserved b hb) _

end

/-! ## 16-bit words (R205) -/

theorem decodeW16_unallocated {op : Fin 8} {d : Fin 32} {lo : Fin 64} (hop : 5 ≤ op) :
    decodeW16 ⟨2, op, d, lo⟩ = .error .illegal := by
  have hops : ∀ op : Fin 8, 5 ≤ op → op = 5 ∨ op = 6 ∨ op = 7 := by decide
  rcases hops op hop with rfl | rfl | rfl <;> rfl

theorem need_decide_false {p : Prop} [Decidable p] (h : ¬ p) : need (decide p) = .error .reserved := by
  rw [decide_eq_false h]
  rfl

theorem decodeW16_pairOdd {op : Fin 8} {d : Fin 32} {lo : Fin 64} (hlo : ¬ lo.val % 2 = 0) :
    decodeW16 ⟨0, op, d, lo⟩ = .error .reserved :=
  bind_refused (need_decide_false hlo) _

theorem decodeW16_goLow {op : Fin 8} {d : Fin 32} {lo : Fin 64} (hop : op < 4) (hlo : ¬ lo.val % 8 = 0) :
    decodeW16 ⟨2, op, d, lo⟩ = .error .reserved := by
  have hops : ∀ op : Fin 8, op < 4 → op = 0 ∨ op = 1 ∨ op = 2 ∨ op = 3 := by decide
  rcases hops op hop with rfl | rfl | rfl | rfl <;> exact bind_refused (need_decide_false hlo) _

/-- Settles O54: the word is refused as its fields are (`decode_bytes32_error`, `decode_bytes16_error`), which the lemmas above say
form by form. -/
theorem refusedEncodings : Obligations.RefusedEncodings := by
  unfold Obligations.RefusedEncodings
  rintro ⟨g, x, maj, d, a, b, fn⟩ ⟨fmt, op, hd, lo⟩ rest
  refine ⟨rfl, fun hmaj => ?_, fun ⟨hmaj, hfn⟩ => ?_, fun ⟨hmaj, hfn⟩ => ?_, fun ⟨hmaj, hfn⟩ => ?_, fun ⟨hmaj, hfn⟩ => ?_,
    fun hmaj hg => ?_, fun hmaj hg hx => ?_, fun hmaj hfn ha => ?_, fun hmaj hfn hb => ?_, fun hfmt hop => ?_,
    fun hfmt hlo => ?_, fun hfmt hop hlo => ?_⟩
  · obtain rfl : maj = 0 := hmaj
    exact decode_bytes32_error rfl rest
  · obtain rfl : fn = 7 := hfn
    exact decode_bytes32_error (decodeW32_sevenFunctions (by simpa using hmaj)) rest
  · exact decode_bytes32_error (decodeW32_fourFunctions (by simpa using hmaj) hfn) rest
  · exact decode_bytes32_error (decodeW32_threeFunctions hmaj hfn) rest
  · exact decode_bytes32_error (decodeW32_fiveFunctions hmaj hfn) rest
  · obtain rfl : g = true := hg
    obtain hL | ⟨hE, hfn⟩ : maj ∈ formL ∨ maj = 0x17 ∧ fn ≠ 7 := by simpa [formL, or_assoc] using hmaj
    · exact decode_bytes32_error (decodeW32_guardL hL) rest
    · obtain rfl : maj = 0x17 := hE
      exact decode_bytes32_error (decodeW32_guardE hfn) rest
  · exact decode_bytes32_error (decodeW32_guardFirst (mem_guardFirst maj hmaj) (W32.guardR_extended hg hx)) rest
  · obtain rfl : maj = 0x2E := hmaj
    exact decode_bytes32_error (decodeW32_fenceScope hfn ha) rest
  · obtain rfl : maj = 0x2F := hmaj
    exact decode_bytes32_error (decodeW32_accessScope hfn hb) rest
  · obtain rfl : fmt = 2 := hfmt
    exact decode_bytes16_error Laws.fmt2 (decodeW16_unallocated hop) rest
  · obtain rfl : fmt = 0 := hfmt
    exact decode_bytes16_error Laws.fmt0 (decodeW16_pairOdd fun h => absurd (hlo.symm.trans h) (by decide)) rest
  · obtain rfl : fmt = 2 := hfmt
    exact decode_bytes16_error Laws.fmt2 (decodeW16_goLow hop hlo) rest

/-- Settles O53: the decoder is run on each word of the spec. -/
theorem decodeWords : Obligations.DecodeWords := by
  unfold Obligations.DecodeWords
  refine ⟨?_, ?_, ?_, ?_, ?_, ?_, ?_, ?_⟩ <;> decide

end Sys2Proof
end

/-! PROOFS. What fetch hands over where no code is cached and nothing has been read ahead (R201, R212 to R214). Here O56 is
settled. -/

section
namespace Sys2Proof.Machine

/-! ## Bytes, halfwords and lines of memory -/

theorem leBytes_leNat (bs : List Byte) : leBytes bs.length (leNat bs) = bs := by
  induction bs with
  | nil => rfl
  | cons b bs ih =>
    have hlow : BitVec.ofNat 8 (b.toNat + 256 * leNat bs) = b := by
      apply BitVec.eq_of_toNat_eq
      rw [BitVec.toNat_ofNat]
      omega
    have hrest : (b.toNat + 256 * leNat bs) / 256 = leNat bs := by omega
    show BitVec.ofNat 8 (b.toNat + 256 * leNat bs) :: leBytes bs.length ((b.toNat + 256 * leNat bs) / 256) = _
    rw [hlow, hrest, ih]

theorem leBytes_readNat (m : Memory) (a n : Nat) : leBytes n (m.readNat a n) = m.read a n := by
  have h := leBytes_leNat (m.read a n)
  rwa [Memory.read_length] at h

/-- A halfword of a code line is that of memory at its address. -/
theorem Memory.readNat_of_line (m : Memory) {pa : Nat} (h : pa % 16 ≤ 14) :
    leNat (((m.read (pa / 16 * 16) 16).drop (pa % 16)).take 2) = m.readNat pa 2 := by
  rw [m.read_piece _ 16 _ 2 (by omega), Nat.div_add_mod']
  rfl

/-! ## What a fetch leaves -/

/-- The states differ in cores, translation caches and the counter of free values only. -/
def State.sameStore (s t : State) : Prop := ∃ l cs n, t = { s with ltlb := l, cores := cs, freeCtr := n }

section
variable {s t u v : State} {c : CoreId} {h : CtxId}

theorem State.sameStore.trans (hst : s.sameStore t) (htu : t.sameStore u) : s.sameStore u := by
  obtain ⟨l, cs, n, rfl⟩ := hst
  obtain ⟨l', cs', n', rfl⟩ := htu
  exact ⟨l', cs', n', rfl⟩

theorem State.sameStore_of_tlbs (hsame : s.sameButTlbs t) : s.sameStore t := by
  obtain ⟨l, cs, n, rfl, -⟩ := hsame
  exact ⟨l, cs, n, rfl⟩

theorem State.sameStore.mem (hst : s.sameStore t) : t.mem = s.mem := by
  obtain ⟨l, cs, n, rfl⟩ := hst
  rfl

theorem State.sameStore.isLost (hst : s.sameStore t) (pa : Nat) : t.isLost pa = s.isLost pa := by
  obtain ⟨l, cs, n, rfl⟩ := hst
  rfl

theorem State.sameStore.paUnreachable (hst : s.sameStore t) (pa : Nat) : t.paUnreachable pa = s.paUnreachable pa := by
  obtain ⟨l, cs, n, rfl⟩ := hst
  rfl

theorem State.sameButTlbs.code (hsame : s.sameButTlbs t) (c : CoreId) : (t.core c).code = (s.core c).code := by
  obtain ⟨-, -, -, -, hcore⟩ := hsame
  rw [hcore c]

theorem State.sameButTlbs_of_check {va : DWord} {n : Nat} {k : Access} {e : EA} (hcheck : s.globalCheck c va n k = (.ok e, u)) :
    s.sameButTlbs u := by
  have hall := s.globalCheck_sameButTlbs c va n k
  rwa [hcheck] at hall

/-! ## Where a halfword lies (R76, R252) -/

/-- A translated address lies where its page says. -/
theorem State.pageCheck_pa {va : DWord} {k : Access} {e : EA} (hcheck : s.pageCheck c va k = (.ok e, u)) :
    e.pa = s.pageAddr e.page va.toNat := by
  unfold State.pageCheck at hcheck
  split at hcheck
  · exact absurd (congrArg Prod.fst hcheck) (by simp)
  · dsimp only at hcheck
    split at hcheck
    · exact absurd (congrArg Prod.fst hcheck) (by simp)
    · split at hcheck
      · exact absurd (congrArg Prod.fst hcheck) (by simp)
      · rw [← Except.ok.inj (congrArg Prod.fst hcheck)]

/-- An address that passes the checks is aligned, and lies where its page says. -/
theorem State.globalCheck_ok {va : DWord} {n : Nat} {k : Access} {e : EA} (hcheck : s.globalCheck c va n k = (.ok e, u)) :
    va.toNat % n = 0 ∧ e.pa = s.pageAddr e.page va.toNat := by
  unfold State.globalCheck at hcheck
  split at hcheck
  · exact absurd (congrArg Prod.fst hcheck) (by simp)
  · split at hcheck
    · exact absurd (congrArg Prod.fst hcheck) (by simp)
    · next halign => exact ⟨not_not.mp halign, State.pageCheck_pa hcheck⟩

/-- Pages lie at even addresses: an even address is one in its page and in memory. -/
theorem State.pageAddr_even (s : State) (e : TlbEnt) {va : Nat} (hva : va % 2 = 0) : s.pageAddr e va % 2 = 0 := by
  have hoffset : va % 2 ^ e.log % 2 = 0 := by
    cases e.log with
    | zero => rw [pow_zero, Nat.mod_one]
    | succ k => rw [Nat.mod_mod_of_dvd va (dvd_pow_self 2 k.succ_ne_zero), hva]
  have hframe : pteFrame e.leaf % 2 = 0 := by
    unfold pteFrame
    omega
  unfold State.pageAddr State.homePa remoteLocal
  split <;> omega

theorem State.pa_even_of_check {va : DWord} {k : Access} {e : EA} (hcheck : s.globalCheck c va 2 k = (.ok e, u)) :
    e.pa % 2 = 0 := by
  obtain ⟨halign, hpa⟩ := State.globalCheck_ok hcheck
  rw [hpa]
  exact s.pageAddr_even e.page halign

/-! ## The code cache (R64) -/

/-- A core with nothing cached takes in the line. -/
theorem State.codeFill_empty (hcode : (s.core c).code = []) (line : Nat) :
    s.codeFill c line = s.modCore c fun k => { k with code := [(line, s.mem.read (line * 16) 16)] } := by
  unfold State.codeFill
  rw [hcode]
  rfl

theorem State.codeFill_empty_sameStore (hcode : (s.core c).code = []) (line : Nat) : s.sameStore (s.codeFill c line) := by
  rw [State.codeFill_empty hcode]
  exact ⟨s.ltlb, _, s.freeCtr, rfl⟩

theorem State.codeFill_empty_code (hcode : (s.core c).code = []) (line : Nat) :
    ((s.codeFill c line).core c).code = [(line, s.mem.read (line * 16) 16)] := by
  rw [State.codeFill_empty hcode, State.core_modCore_self]

/-- Nothing cached: the halfword is that of memory, and its line is filled. -/
theorem State.codeHalf_empty (hcode : (s.core c).code = []) (pa : Nat) :
    s.codeHalf c pa = (s.mem.readNat pa 2, s.codeFill c (pa / 16)) := by
  unfold State.codeHalf
  rw [hcode]
  rfl

/-- The line is cached as memory has it: the halfword is that of memory. -/
theorem State.codeHalf_cached {pa : Nat} (hcode : (s.core c).code = [(pa / 16, s.mem.read (pa / 16 * 16) 16)])
    (hpa : pa % 16 ≤ 14) : s.codeHalf c pa = (s.mem.readNat pa 2, s) := by
  have hfind : (s.core c).code.find (pa / 16) = some (s.mem.read (pa / 16 * 16) 16) := by
    rw [hcode]
    exact if_pos rfl
  unfold State.codeHalf
  simp only [hfind, s.mem.readNat_of_line hpa, if_true]

/-! ## A halfword, and an instruction -/

/-- An address that passes the checks, where memory is reachable and sound, gives the halfword of the code cache. -/
theorem State.fetchHalf_of_check {va : DWord} {e : EA} (hcheck : s.globalCheck c va 2 .fetch = (.ok e, u))
    (hreach : s.paUnreachable e.pa = false) (hlost : s.isLost e.pa = false) :
    s.fetchHalf c va = (.ok (u.codeHalf c e.pa).1, (u.codeHalf c e.pa).2) := by
  have hstore := State.sameStore_of_tlbs (State.sameButTlbs_of_check hcheck)
  unfold State.fetchHalf
  simp only [hcheck, hstore.paUnreachable, hstore.isLost, hreach, hlost, Bool.false_eq_true, if_false]

theorem Ctx.queued_empty {x : Ctx} (hfq : x.fq = []) (va : DWord) : x.queued va = none := by
  unfold Ctx.queued
  rw [hfq]
  exact if_neg (by simp)

/-- With nothing read ahead the next halfword is fetched. -/
theorem State.nextHalf_empty (hfq : ((s.core c).ctx h).fq = []) (va : DWord) : s.nextHalf c h va = s.fetchHalf c va := by
  unfold State.nextHalf
  rw [Ctx.queued_empty hfq]

theorem State.fetchInstr_short {a : Nat} (hfirst : s.nextHalf c h ((s.core c).ctx h).pc = (.ok a, u)) (ha : isLong a = false) :
    (s.fetchInstr c h).1 = .ok (leBytes 2 a) := by
  unfold State.fetchInstr
  simp only [hfirst, ha, Bool.false_eq_true, if_false]

theorem State.fetchInstr_long {a b : Nat} (hfirst : s.nextHalf c h ((s.core c).ctx h).pc = (.ok a, u)) (ha : isLong a = true)
    (hsecond : u.nextHalf c h (((s.core c).ctx h).pc + 2) = (.ok b, v)) :
    (s.fetchInstr c h).1 = .ok (leBytes 2 a ++ leBytes 2 b) := by
  unfold State.fetchInstr
  simp only [hfirst, ha, if_true, hsecond]

/-- With nothing cached and nothing read ahead, the halfword at the PC is that of memory, and its line is filled. -/
theorem State.nextHalf_first {e : EA} {va : DWord} (hfq : ((s.core c).ctx h).fq = []) (hcode : (s.core c).code = [])
    (hcheck : s.globalCheck c va 2 .fetch = (.ok e, u)) (hreach : s.paUnreachable e.pa = false) (hlost : s.isLost e.pa = false) :
    s.nextHalf c h va = (.ok (s.mem.readNat e.pa 2), u.codeFill c (e.pa / 16)) := by
  have hsame := State.sameButTlbs_of_check hcheck
  rw [State.nextHalf_empty hfq, State.fetchHalf_of_check hcheck hreach hlost, State.codeHalf_empty ((hsame.code c).trans hcode),
    (State.sameStore_of_tlbs hsame).mem]

/-- The halfword behind it comes from the line just filled. -/
theorem State.nextHalf_second {f : EA} {w : State} {va : DWord} {pa : Nat} (hfq : ((s.core c).ctx h).fq = [])
    (hcode : (s.core c).code = [(pa / 16, s.mem.read (pa / 16 * 16) 16)]) (hpa : pa % 16 < 14) (heven : pa % 2 = 0)
    (hf : f.pa = pa + 2) (hcheck : s.globalCheck c va 2 .fetch = (.ok f, w)) (hreach : s.paUnreachable f.pa = false)
    (hlost : s.isLost f.pa = false) : s.nextHalf c h va = (.ok (s.mem.readNat (pa + 2) 2), w) := by
  have hsame := State.sameButTlbs_of_check hcheck
  have hmem := (State.sameStore_of_tlbs hsame).mem
  have hline : f.pa / 16 = pa / 16 := by omega
  have hplace : f.pa % 16 ≤ 14 := by omega
  have hcached : (w.core c).code = [(f.pa / 16, w.mem.read (f.pa / 16 * 16) 16)] := by
    rw [hsame.code c, hcode, hline, hmem]
  rw [State.nextHalf_empty hfq, State.fetchHalf_of_check hcheck hreach hlost, State.codeHalf_cached hcached hplace, hmem, hf]

end

/-- Settles O56: the first halfword comes from memory and fills its line (`State.nextHalf_first`), a second one from that line
(`State.nextHalf_second`). -/
theorem fetchReadsMemory : Obligations.FetchReadsMemory := by
  unfold Obligations.FetchReadsMemory
  intro c h e f s u w pc first hfq hcode hcheck hreach hlost hpa
  have hfirst := State.nextHalf_first (h := h) hfq hcode hcheck hreach hlost
  have hsame := State.sameButTlbs_of_check hcheck
  have hempty : (u.core c).code = [] := (hsame.code c).trans hcode
  refine ⟨fun hshort => ?_, fun hlong v hv hcheck' hf hreach' => ?_⟩
  · rw [State.fetchInstr_short hfirst (decide_eq_false hshort), leBytes_readNat]
  · obtain rfl : u.codeFill c (e.pa / 16) = v := by
      rw [State.codeHalf_empty hempty] at hv
      exact congrArg Prod.snd hv
    have hstore : s.sameStore (u.codeFill c (e.pa / 16)) :=
      (State.sameStore_of_tlbs hsame).trans (State.codeFill_empty_sameStore hempty _)
    have hfq' : (((u.codeFill c (e.pa / 16)).core c).ctx h).fq = [] := by
      have hctxs := (State.codeFill_sameCtxs u c (e.pa / 16) c).trans (State.SameCtxs.of_sameButTlbs hsame c)
      unfold Core.ctx at hfq ⊢
      rw [hctxs]
      exact hfq
    have hline : f.pa / 128 = e.pa / 128 := by omega
    have hlost' : s.isLost f.pa = false := by
      unfold State.isLost lineOf at hlost ⊢
      rwa [hline]
    have hsecond := State.nextHalf_second hfq'
      ((State.codeFill_empty_code hempty _).trans (by rw [hstore.mem, (State.sameStore_of_tlbs hsame).mem])) hpa
      (State.pa_even_of_check hcheck) hf hcheck'
      ((hstore.paUnreachable _).trans hreach') ((hstore.isLost _).trans hlost')
    rw [State.fetchInstr_long hfirst (decide_eq_true hlong) hsecond, hstore.mem, leBytes_readNat, leBytes_readNat]
    rfl

end Sys2Proof.Machine
end

/-! PROOFS. How the record of a precise trap reaches its core (R360, R364). Here O57 is settled. -/

section
namespace Sys2Proof.Machine

/-! ## Records that wait (R360) -/

/-- A record is put behind the waiting records that are served before it, ahead of the first that is not. -/
theorem insertRec_split (r : TrapRec) (l : List TrapRec) : ∃ before after, l = before ++ after ∧
    insertRec r l = before ++ r :: after ∧ (∀ p ∈ before, p.before r = true) ∧
    ∀ p, after.head? = some p → p.before r = false := by
  induction l with
  | nil => exact ⟨[], [], rfl, rfl, by simp, by simp⟩
  | cons q l ih =>
    unfold insertRec
    cases hq : q.before r with
    | true =>
      obtain ⟨before, after, hl, hput, hbefore, hafter⟩ := ih
      exact ⟨q :: before, after, by rw [hl]; rfl, by rw [hput]; rfl, List.forall_mem_cons.mpr ⟨hq, hbefore⟩, hafter⟩
    | false => exact ⟨[], q :: l, rfl, rfl, by simp, fun p hp => Option.some.inj hp ▸ hq⟩

theorem mem_insertRec (r : TrapRec) (l : List TrapRec) : r ∈ insertRec r l := by
  obtain ⟨before, after, -, hput, -⟩ := insertRec_split r l
  rw [hput]
  exact List.mem_append_right _ List.mem_cons_self

theorem TrapRec.before_iff (a b : TrapRec) : a.before b = true ↔ a.at_ < b.at_ ∨ a.at_ = b.at_ ∧ a.ctx ≤ b.ctx := by
  simp [TrapRec.before]

theorem TrapRec.not_before_iff (a b : TrapRec) : a.before b = false ↔ b.at_ < a.at_ ∨ a.at_ = b.at_ ∧ b.ctx < a.ctx := by
  rw [← Bool.not_eq_true, TrapRec.before_iff]
  omega

/-! ## The trap context -/

theorem Core.enterTrap_ctx_ne (k : Core) (r : TrapRec) {h : CtxId} (hh : h ≠ 13) : (k.enterTrap r).ctx h = k.ctx h :=
  Core.ctx_setCtx_ne _ _ _ _ hh

/-- x1 of the trap context holds the number of the faulted context. -/
theorem Core.enterTrap_x1 (k : Core) (r : TrapRec) (hr : r.ctx < 14) : ((k.enterTrap r).ctx 13).x.get 1 = dw r.ctx := by
  unfold Core.enterTrap
  simp only [hr, dite_true, Core.ctx_setCtx_self, Ctx.clearB]
  rw [vget_vput_ne _ _ _ _ (by decide), vget_vput_ne _ _ _ _ (by decide), vget_vput_ne _ _ _ _ (by decide), vget_vput_self]

/-! ## The record of a precise trap -/

/-- The record that a precise trap of the issuing context forms (R360). -/
def State.faultRec (s : State) (q : TrapInfo) : TrapRec :=
  { cause := q.cause, ctx := s.curCtx.val, defd := false, fpc := s.cx.pc, faddr := q.faddr, finfo := q.finfo, frpc := s.cx.pc,
    req := none, at_ := s.cycle }

/-- The issuing core with the issuing context stopped by its fault. -/
def State.faultedCore (s : State) : Core := s.me.modCtx s.curCtx fun x => { x with stop := .faulted }

section
variable {s : State} {q : TrapInfo}

theorem State.faultedCore_self : s.faultedCore.ctx s.curCtx = { s.cx with stop := .faulted } := Core.ctx_modCtx_self _ _ _

theorem State.faultedCore_ne {h : CtxId} (hh : h ≠ s.curCtx) : s.faultedCore.ctx h = s.me.ctx h := Core.ctx_modCtx_ne _ _ _ _ hh

/-- Outside context 13 the record reaches the core by `Core.takeRec`. -/
theorem State.trapHere_takes (h : s.curCtx ≠ 13) :
    s.trapHere q = (s.modCx fun x => { x with stop := .faulted }).modMe fun k => k.takeRec (s.faultRec q) := by
  have hval : s.curCtx.val ≠ 13 := fun e => h (Fin.ext e)
  unfold State.trapHere State.raise
  exact if_neg hval

theorem State.me_trapHere (h : s.curCtx ≠ 13) : (s.trapHere q).me = s.faultedCore.takeRec (s.faultRec q) := by
  rw [State.trapHere_takes h, State.me_modMe, State.me_modCx]
  rfl

/-- While context 13 is live and keeps its record, the new record waits. -/
theorem State.me_trapHere_waits (h : s.curCtx ≠ 13) (hlive : (s.me.ctx 13).live = true) (hcycle : s.me.trap.at_ ≠ s.cycle) :
    (s.trapHere q).me = { s.faultedCore with recs := insertRec (s.faultRec q) s.me.recs } := by
  have hlive' : (s.faultedCore.ctx 13).live = true := by rw [State.faultedCore_ne (Ne.symm h), hlive]
  have hyields : s.faultedCore.yields (s.faultRec q) = false := by
    unfold Core.yields
    rw [decide_eq_false (show ¬ s.faultedCore.trap.at_ = (s.faultRec q).at_ from hcycle)]
    rfl
  rw [State.me_trapHere h]
  unfold Core.takeRec
  rw [hlive', hyields]
  rfl

/-- A handler entered in the same cycle for a higher context, which has not begun, goes behind the new record. -/
theorem State.me_trapHere_overtakes (h : s.curCtx ≠ 13) (hlive : (s.me.ctx 13).live = true) (hcycle : s.me.trap.at_ = s.cycle)
    (hctx : s.curCtx.val < s.me.trap.ctx) (hpc : (s.me.ctx 13).pc = s.me.tvec.setWidth 64) (hstop : (s.me.ctx 13).stop = .no) :
    (s.trapHere q).me = { s.faultedCore with recs := insertRec s.me.trap s.me.recs }.enterTrap (s.faultRec q) := by
  have h13 : s.faultedCore.ctx 13 = s.me.ctx 13 := State.faultedCore_ne (Ne.symm h)
  have hyields : s.faultedCore.yields (s.faultRec q) = true := by
    unfold Core.yields
    rw [h13]
    simp only [Bool.and_eq_true, decide_eq_true_eq]
    exact ⟨⟨⟨hcycle, hctx⟩, hpc⟩, hstop⟩
  rw [State.me_trapHere h]
  unfold Core.takeRec
  rw [h13, hlive, hyields]
  rfl

/-- A trap that is taken at once leaves the contexts that are neither the faulted one nor context 13. -/
theorem State.trapHere_ctx_ne (hfree : s.trapFree) {h : CtxId} (h13 : h ≠ 13) (hcur : h ≠ s.curCtx) :
    (s.trapHere q).me.ctx h = s.me.ctx h := by
  rw [State.trapHere_eq hfree, State.me_modMe, State.me_modCx, Core.enterTrap_ctx_ne _ _ h13, Core.ctx_modCtx_ne _ _ _ _ hcur]

theorem State.cx_trapHere_waits (h : s.curCtx ≠ 13) (hlive : (s.me.ctx 13).live = true) (hcycle : s.me.trap.at_ ≠ s.cycle) :
    (s.trapHere q).cx = { s.cx with stop := .faulted } := by
  have hcurCtx : (s.trapHere q).curCtx = s.curCtx := by rw [State.trapHere_takes h, State.modMe_curCtx, State.modCx_curCtx]
  show (s.trapHere q).me.ctx (s.trapHere q).curCtx = _
  rw [hcurCtx, State.me_trapHere_waits h hlive hcycle]
  exact State.faultedCore_self

/-- A fault of context 13 halts its core with a machine check (R364). -/
theorem State.trapHere_double (h : s.curCtx = 13) : s.trapHere q =
    (((s.modCx fun x => { x with stop := .faulted }).haltCore s.cur).modCore s.cur fun k =>
      { k with recs := k.recs ++ [s.faultRec q] }).machineCheck 4 s.cur q.cause 0 := by
  have hval : s.curCtx.val = 13 := by rw [h]; rfl
  unfold State.trapHere State.raise
  exact if_pos hval

theorem State.me_machineCheck (s : State) (kind : BitVec 4) (c : CoreId) (cause : Byte) (pa : Nat) :
    (s.machineCheck kind c cause pa).me = s.me := rfl

theorem State.me_trapHere_double (h : s.curCtx = 13) :
    (s.trapHere q).me = { s.faultedCore with halted := true, recs := s.me.recs ++ [s.faultRec q] } := by
  have hcore : (s.modCx fun x => { x with stop := .faulted }).core s.cur = s.faultedCore := s.me_modCx _
  have hhalt : ((s.modCx fun x => { x with stop := .faulted }).haltCore s.cur).me = { s.faultedCore with halted := true } :=
    (State.core_modCore_self _ _ _).trans (by rw [hcore])
  rw [State.trapHere_double h, State.me_machineCheck]
  refine (State.me_modMe ((s.modCx fun x => { x with stop := .faulted }).haltCore s.cur) _).trans ?_
  rw [hhalt]
  rfl

end

/-- Settles O57: outside context 13 the record is taken, waits or overtakes (`State.me_trapHere`, `insertRec_split`); in context 13
the core halts (`State.trapHere_double`). -/
theorem trapEntryResults : Obligations.TrapEntryResults := by
  unfold Obligations.TrapEntryResults
  intro q s
  refine ⟨⟨rfl, rfl⟩, fun hfree => ?_, fun hne hlive hcycle => ?_, fun hne hlive hcycle hctx hpc hstop => ?_, fun h13 => ?_⟩
  · exact ⟨(State.trapHere_trapsTo hfree q).1, State.trapHere_sameBytes hfree q, fun h => State.trapHere_ctx_ne hfree⟩
  · obtain ⟨before, after, hl, hput, hbefore, hafter⟩ := insertRec_split (s.faultRec q) s.me.recs
    rw [State.me_trapHere_waits hne hlive hcycle]
    exact ⟨rfl, ⟨s.faultRec q, before, after, hl, hput, rfl, rfl, rfl, rfl, rfl, rfl,
      fun p hp => (TrapRec.before_iff _ _).mp (hbefore p hp), fun p hp => (TrapRec.not_before_iff _ _).mp (hafter p hp)⟩,
      State.cx_trapHere_waits hne hlive hcycle, State.faultedCore_ne (Ne.symm hne)⟩
  · rw [State.me_trapHere_overtakes hne hlive hcycle hctx hpc hstop]
    exact ⟨rfl, rfl, mem_insertRec _ _, Core.enterTrap_x1 _ _ s.curCtx.isLt⟩
  · rw [State.me_trapHere_double h13, State.trapHere_double h13]
    exact ⟨rfl, rfl, rfl, rfl, rfl, rfl⟩

end Sys2Proof.Machine
end

/-! PROOFS. A guard that is false (R203): every 32-bit form reads its guard from G and [28:24], and what it holds back is all but the
PC. Here O58 is settled. -/

section
namespace Sys2Proof.Machine

/-! ## The guard that a form encodes (R202, R204) -/

theorem guardOf_encGuard (g : Guard) (h : (encGuard g).1 = true) : guardOf (encGuard g).2 = g := by
  cases g with
  | always => exact absurd h (by decide)
  | onSet p => exact Laws.guardOf_onSet p
  | onClear p => exact Laws.guardOf_onClear p

/-- A word of the major whose G and [28:24], where G is 1, are those of the guard. -/
structure Carries (w : W32) (maj : Fin 64) (g : Guard) : Prop where
  maj : w.maj = maj
  guard : w.g = true → guardOf w.x = g

theorem carries_encR (g : Guard) (maj : Fin 64) (d a b : Fin 32) (fn : Fin 8) : Carries (encR g maj d a b fn) maj g :=
  ⟨rfl, guardOf_encGuard g⟩

/-- A form with one layout where it is guarded and another where it is not. -/
theorem carries_of_layouts {g : Guard} {maj : Fin 64} {guarded bare : W32} (hmaj : guarded.maj = maj) (hmaj' : bare.maj = maj)
    (hx : guarded.x = (encGuard g).2) (hbare : bare.g = false) : Carries (if g.isGuarded then guarded else bare) maj g := by
  cases g with
  | always => exact ⟨hmaj', fun h => absurd (hbare.symm.trans h) (by decide)⟩
  | onSet p => exact ⟨hmaj, fun _ => (congrArg guardOf hx).trans (guardOf_encGuard _ rfl)⟩
  | onClear p => exact ⟨hmaj, fun _ => (congrArg guardOf hx).trans (guardOf_encGuard _ rfl)⟩

theorem carries_encI (g : Guard) (maj : Fin 64) (d a : Fin 32) (imm : Int) : Carries (encI g maj d a imm) maj g :=
  carries_of_layouts rfl rfl rfl rfl

theorem carries_encIC (g : Guard) (maj : Fin 64) (d a : Fin 32) (imm : Int) (fn : Fin 8) :
    Carries (encIC g maj d a imm fn) maj g := carries_of_layouts rfl rfl rfl rfl

theorem carries_encMP (g : Guard) (maj : Fin 64) (d a : Fin 32) (pol : Policy) (off : Int) (fn : Fin 8) :
    Carries (encMP g maj d a pol off fn) maj g := carries_of_layouts rfl rfl rfl rfl

/-! ## What a false guard leaves (R203) -/

/-- The majors whose instructions are guarded lane by lane. -/
def laneMajor (maj : Fin 64) : Bool := decide (0x32 ≤ maj ∧ maj ≤ 0x3A ∨ maj = 0x3E)

/-- The guard of a word holds its instruction back: in every lane, or in lane 0. -/
def heldBack (f : W32) (s : State) : Prop :=
  if laneMajor f.maj then (upto 32).any (s.lanePasses (guardOf f.x)) = false else s.guardPasses (guardOf f.x) = false

/-- Where its guard holds it back, the instruction only advances the PC. -/
def skips (i : Instr) : Prop :=
  ∀ f s, i.fields = some (.w32 f) → f.g = true → heldBack f s → exec i s = .next (s.retire 4)

section
variable {i : Instr} {w : W32} {maj : Fin 64} {g : Guard}

theorem skips_of_happening (h : i.fields = none) : skips i := fun _ _ hf => absurd (h.symm.trans hf) (by simp)

theorem skips_of_short {v : W16} (h : i.fields = some (.w16 v)) : skips i :=
  fun _ _ hf => absurd (h.symm.trans hf) (by simp)

theorem skips_of_unguarded (h : i.fields = some (.w32 w)) (hw : w.g = false) : skips i := by
  intro f s hf hg
  obtain rfl : w = f := Fields.w32.inj (Option.some.inj (h.symm.trans hf))
  exact absurd (hw.symm.trans hg) (by decide)

/-- An instruction that first asks whether lane 0 passes. -/
theorem skips_of_lane0 (h : i.fields = some (.w32 w)) (hw : Carries w maj g) (hlane : laneMajor maj = false)
    (hoff : ∀ s, ¬ s.guardPasses g = true → exec i s = .next (s.retire 4)) : skips i := by
  intro f s hf hg hheld
  obtain rfl : w = f := Fields.w32.inj (Option.some.inj (h.symm.trans hf))
  unfold heldBack at hheld
  rw [hw.maj, hlane, hw.guard hg] at hheld
  exact hoff s (Bool.eq_false_iff.mp hheld)

/-- An instruction that first asks whether any lane passes. -/
theorem skips_of_lanes (h : i.fields = some (.w32 w)) (hw : Carries w maj g) (hlane : laneMajor maj = true)
    (hoff : ∀ s, ¬ (upto 32).any (s.lanePasses g) = true → exec i s = .next (s.retire 4)) : skips i := by
  intro f s hf hg hheld
  obtain rfl : w = f := Fields.w32.inj (Option.some.inj (h.symm.trans hf))
  unfold heldBack at hheld
  rw [hw.maj, hlane, hw.guard hg] at hheld
  exact hoff s (Bool.eq_false_iff.mp hheld)

end

/-- Every instruction, form by form: happenings, 16-bit forms, forms without a guard, form R, form I, forms IC and M, form MP, and
form R guarded lane by lane. -/
theorem skips_all (i : Instr) : skips i := by
  cases i with
  | eventArrival | holdBackEntry | reactionStart | headStaleDiscard | cancelledEventDiscard | joinGraceExpired | poolUnitStart
  | heartbeatMissed | sendDeparture | slotChangeEffect | crossbarCounterZero | crossbarLocalEventEntry | copyRequestStart
  | copyRequestComplete | channelFault | gangBarrierComplete | mmaStep | accumulatorLeavesOwnership | mmaOperationFault
  | mstoComplete | collectiveRoundComplete | collectiveAbortArrival | mcastCompletionRecord | objectOpAtRouter
  | windowWaitExpired | objectOpAtHome | splitPhaseReply | stvApply | reclApply | capabilityArrival | capqAnswer
  | atomicAtHome | storeGrant | directoryOverflowNotice | overflowInvalidation | tlbWalkComplete | prefetchComplete
  | wsRefreshWindow | streamElementAccess | feWaiterService | waitSatisfied | detRoundClose | trapEntry | trapBudgetExpired
  | machineCheck | fenceRelease | hostEventCommit | launchCommit | launchSetupResume | setCounterCommit | cancelCommit
  | checkpointCutCommit | cutSave | cutMarkerArrival | checkpointDrainCommit | drainComplete | hqheadWrite
  | fallbackReplyCommit | atomicopUnsupported | ptmExchange | timestampExchange | freeze | resume | coordinatedFreezeInstant
  | coordinatedResumeInstant | packetArrival | linkDown | e2eRetryTimeout | e2eAckArrival | linkKeyRenewal | powerCapThrottle
  | thermalLimit | powerCapSet | pldmFirmwareUpdate | pldmMonitor | spdmAttestation | firmwareBootVerify | hostApertureAccess
  | spillTakeRead | spillPutWrite | spillNWrite | registerWrite | linkBringUp => exact skips_of_happening rfl
  | movC | addC | subC | andC | orC | xorC | lddC | stdC | addiC | ldiC | shliC | shriC | sraiC | andiC | ldsC | stsC | go
  | goGuarded | call | callGuarded | nopC | endC | beatC | syncC | brkC => exact skips_of_short rfl
  | ldi | seth | mma | prep | mfs | mts => exact skips_of_unguarded rfl rfl
  | add | sub | andR | orR | xor | andn | minS | maxS | minu | maxu | shl | shr | sra | rol | ror | mov | mul | mulhiS
  | mulhiU | mulhiSu | div | divu | rem | remu | clz | ctz | popc | sextB | sextH | sextW | zextH | zextW | lea | yld | ybase
  | yext | yrd | sbind | sunb | slink | sstat | addw | subw | mulw | shlw | shrw | sraw | divw | remw | cmp | fcmp | pand
  | por | pxor | pandn | pnot | pmov | pall | pnone | pfirst | pcnt | ptox | xtop | pffs | fmvxf | fmvfx | fkind | fadd | fsub
  | fmul | fdiv | fmin | fmax | fsqrt | fsgn | fma | fms | fabs | fneg | fcvtXf | fcvtFx | fcvtUf | fcvtFu | cgrp | cinj
  | cinjHld | cext | cstat | cabort | cfree | cinjx | cinjxHld | cextx | prepx | mfb | mtb | clrb | tstb | nop | endL | halt
  | brk | eret | syncCL | beatL | idle | tagt | tagm | clk | horz | lastt | lastm | bound | ebnd | mwait | mzero | mrd | mstoS
  | mstoBf | gang | mstat | send | send2 | send4 | sendv | sendb | mcast | sendh | bindS | unbind | arm | hold | rlse | startL
  | genrd | capq | ticket | poolcfg | cntdn | cancel | cntrd | ecw | ecr | ecpulse | eccnt | pcfg | prd | prst | tlbi | ldxb
  | ldxh | ldxw | ldxd | ldxbu | ldxhu | ldxwu | stxb | stxh | stxw | stxd | cinvC | aadd | aand | aor | axor | amin | amax
  | aminu | aswap | acas | redadd | redand | redor | redxor | redmin | redmax | fenceAcq | fenceRel | fenceFull | ldaD | stlD
  | ldaW | stlW | ldv | ldvn | stv | recl | hand | opush | opop | ocnt | vlds | vsts | vgath | vscat | vstf | vrsumS | vrmaxS
  | vrminS | vrsumW | vscanS | vcavS | vcavmS | vdot4B | xqW | xqT | xdone | xwait | xstat | xclr | xenc | xdec =>
    exact skips_of_lane0 rfl (carries_encR _ _ _ _ _ _) rfl fun _ h => if_neg h
  | addi | andi | ori | xori | trap => exact skips_of_lane0 rfl (carries_encI _ _ _ _ _) rfl fun _ h => if_neg h
  | shli | shri | srai | roli | cmpi | ldb | ldh | ldw | ldd | ldbu | ldhu | ldwu | stb | sth | stw | std | ldf | ldk | ste
  | stf | sete | setf | tfe | ldcW | ldcD | ldcWu | cfl | cinvl | cpf | vld | vst | vldf | vste =>
    exact skips_of_lane0 rfl (carries_encIC _ _ _ _ _ _) rfl fun _ h => if_neg h
  | ldgB | ldgH | ldgW | ldgD | ldgBu | ldgHu | ldgWu | stgB | stgH | stgW | stgD =>
    exact skips_of_lane0 rfl (carries_encMP _ _ _ _ _ _ _) rfl fun _ h => if_neg h
  | vaddW | vsubW | vmulW | vmulhW | vminW | vmaxW | vminuW | vmaxuW | vaddH | vsubH | vmulH | vmulhH | vminH | vmaxH | vminuH
  | vmaxuH | vaddB | vsubB | vaddsB | vsubsB | vminB | vmaxB | vminuB | vmaxuB | vand | vor | vxor | vandn | vshlW | vshrW
  | vsraW | vnot | vfaddS | vfsubS | vfmulS | vfmaS | vfminS | vfmaxS | vfabsS | vfnegS | vfaddBf | vfsubBf | vfmulBf | vfmaBf
  | vfminBf | vfmaxBf | vfdotBf | vrcpS | vrsqS | vexp2S | vlog2S | vsqrtS | vdivS | vfloorS | vtanhS | vcmp | vcmpF | vbcast
  | vbcastf | vext | vins | vperm | viota | vmov | vslide | vcvtSBf | vcvtBfS | vcvtSW | vcvtWS | vcvtE4S | vcvtSE4 | vcvtE5S
  | vcvtSE5 => exact skips_of_lanes rfl (carries_encR _ _ _ _ _ _) rfl fun _ h => if_neg h

theorem State.lanePasses_zero (s : State) (g : Guard) : s.lanePasses g 0 = s.guardPasses g := by cases g <;> rfl

/-- Settles O58: each form holds its instruction back as its major says (`skips_all`). -/
theorem falseGuardResults : Obligations.FalseGuardResults := by
  unfold Obligations.FalseGuardResults
  intro i f s _ hf hg
  refine ⟨fun hlanes hoff => ?_, fun hlane0 hoff => ?_⟩
  · have hheld : heldBack f s := by
      unfold heldBack laneMajor
      rw [decide_eq_true hlanes, if_pos rfl, List.any_eq_false]
      exact fun l hl => Bool.eq_false_iff.mp (hoff l ((mem_upto 32 l).mp hl))
    exact skips_all i f s hf hg hheld
  · have hheld : heldBack f s := by
      unfold heldBack laneMajor
      rw [decide_eq_false hlane0, if_neg Bool.false_ne_true, ← State.lanePasses_zero]
      exact hoff
    exact skips_all i f s hf hg hheld

end Sys2Proof.Machine
end

/-! PROOFS. Instructions whose one destination is a general register (R199, R209, R210). Here O4 is settled. -/

section
namespace Sys2Proof.Machine

section
variable {s t : State} {d a b : Reg} {g : Guard} {body : State → Act}

/-! ## Their effects: one general register, or a wait -/

theorem State.movesCtx_wrX (hs : s.noDeferred) (v : DWord) : s.movesCtx (s.cx.onlyX d) (s.wrX d v) := by
  unfold State.wrX
  rcases s.regReady_noDeferred d hs with h | h
  · rw [h]
    exact State.movesCtx_of_modCx (s.cx.onlyX_setX d v)
  · rw [h]
    exact .inl rfl

theorem State.movesCtx_op1 (hs : s.noDeferred) (f : DWord → DWord) : s.movesCtx (s.cx.onlyX d) (op1 f d a s) :=
  State.movesCtx_rdX hs a fun _ => State.movesCtx_wrX hs _

theorem State.movesCtx_op2 (hs : s.noDeferred) (f : DWord → DWord → DWord) : s.movesCtx (s.cx.onlyX d) (op2 f d a b s) :=
  State.movesCtx_rdX hs a fun _ => State.movesCtx_rdX hs b fun _ => State.movesCtx_wrX hs _

/-! ## Their frames, guarded and of 16 bits -/

theorem State.frameX_of_only {u : Ctx} (hbytes : s.sameBytes t) (hrest : s.sameButCtx t) (hu : s.cx.onlyX d u)
    (hcx : t.cx = { u with pc := t.cx.pc, retired := t.cx.retired, latch := t.cx.latch, stop := t.cx.stop }) : s.frameX t d := by
  obtain ⟨v, rfl, hv⟩ := hu
  exact ⟨hbytes, hrest, by rw [hcx], fun r hr => by rw [hcx]; exact hv r hr⟩

theorem instr_frameX (h : s.movesCtx (s.cx.onlyX d) (body s)) (ht : instr g body s = .next t) : s.frameX t d := by
  have hmoves : s.movesBy (s.cx.onlyX d) (instr g body s) := ⟨g, body, rfl, h⟩
  obtain ⟨hbytes, hrest, u, hu, hcx⟩ := hmoves.frame (s.cx.onlyX_refl d) ht
  exact State.frameX_of_only hbytes hrest hu hcx

/-- A 16-bit instruction is framed as a guarded one: it retires with its effect, or waits. -/
theorem instrC_frameX (h : s.movesCtx (s.cx.onlyX d) (body s)) (ht : instrC body s = .next t) : s.frameX t d := by
  obtain hwait | ⟨f, hf, honly⟩ := h
  · obtain rfl : s.block = t := Host.Outcome.next.inj ((instrC_stop hwait).symm.trans ht)
    refine State.frameX_of_only (s.modCx_sameBytes _) (s.modCx_sameButCtx _) (s.cx.onlyX_refl d) ?_
    have hcx : s.block.cx = { s.cx with stop := .waiting } := s.cx_modCx _
    rw [hcx]
  · obtain rfl : (s.modCx f).retire 2 = t := Host.Outcome.next.inj ((instrC_ok hf).symm.trans ht)
    refine State.frameX_of_only (State.sameBytes_trans (s.modCx_sameBytes f) (State.retire_sameBytes _ 2))
      (State.sameButCtx_trans (s.modCx_sameButCtx f) (State.retire_sameButCtx _ 2)) honly ?_
    rw [State.cx_retire, State.cx_modCx]

theorem op1_frameX (hs : s.noDeferred) (f : DWord → DWord) : instr g (op1 f d a) s = .next t → s.frameX t d :=
  instr_frameX (State.movesCtx_op1 hs f)

theorem op2_frameX (hs : s.noDeferred) (f : DWord → DWord → DWord) : instr g (op2 f d a b) s = .next t → s.frameX t d :=
  instr_frameX (State.movesCtx_op2 hs f)

theorem execSeth_frameX (hs : s.noDeferred) (v : Half) (pos : Fin 4) : execSeth d v pos s = .next t → s.frameX t d :=
  op1_frameX hs _

theorem op1C_frameX (hs : s.noDeferred) (f : DWord → DWord) : instrC (op1 f d a) s = .next t → s.frameX t d :=
  instrC_frameX (State.movesCtx_op1 hs f)

theorem op2C_frameX (hs : s.noDeferred) (f : DWord → DWord → DWord) : instrC (op2 f d a b) s = .next t → s.frameX t d :=
  instrC_frameX (State.movesCtx_op2 hs f)

/-! ## Instructions that write a value of the state, read or encoded -/

theorem execLdi_frameX (hs : s.noDeferred) (imm : Int) : execLdi d imm s = .next t → s.frameX t d :=
  instr_frameX (State.movesCtx_wrX hs _)

theorem execLdiC_frameX (hs : s.noDeferred) (imm : Int) : execLdiC d imm s = .next t → s.frameX t d :=
  instrC_frameX (State.movesCtx_wrX hs _)

theorem execPcnt_frameX (hs : s.noDeferred) (p : PReg) : execPcnt g d p s = .next t → s.frameX t d :=
  instr_frameX (State.movesCtx_wrX hs _)

theorem execPtox_frameX (hs : s.noDeferred) (p : PReg) : execPtox g d p s = .next t → s.frameX t d :=
  instr_frameX (State.movesCtx_wrX hs _)

theorem execPffs_frameX (hs : s.noDeferred) (p : PReg) : execPffs g d p s = .next t → s.frameX t d :=
  instr_frameX (State.movesCtx_wrX hs _)

theorem execFmvxf_frameX (hs : s.noDeferred) : execFmvxf g d a s = .next t → s.frameX t d :=
  instr_frameX (State.movesCtx_wrX hs _)

theorem execFkind_frameX (hs : s.noDeferred) : execFkind g d a s = .next t → s.frameX t d :=
  instr_frameX (State.movesCtx_wrX hs _)

theorem execMfb_frameX (hs : s.noDeferred) (n : Fin 8) : execMfb g d n s = .next t → s.frameX t d :=
  instr_frameX (State.movesCtx_wrX hs _)

/-- TAGT to LASTM: the short reads of special registers. -/
theorem readInto_frameX (hs : s.noDeferred) (r : SpecialReg) : instr g (readInto r d) s = .next t → s.frameX t d :=
  instr_frameX (State.movesCtx_wrX hs _)

/-! ## x0 (R199, R210) -/

theorem State.sameButCtx.x_eq (h : s.sameButCtx t) (hx : t.cx.x = s.cx.x) (c : CoreId) (i : CtxId) :
    ((t.core c).ctx i).x = ((s.core c).ctx i).x := by
  obtain ⟨hst, hcores, -, hctx⟩ := h
  have hcur : t.cur = s.cur := by rw [hst]
  have hcurCtx : t.curCtx = s.curCtx := by rw [hst]
  by_cases hc : c = s.cur
  · subst hc
    by_cases hi : i = s.curCtx
    · subst hi
      unfold State.cx State.me at hx
      rwa [hcur, hcurCtx] at hx
    · have hother := hctx i hi
      unfold State.me at hother
      rw [hcur] at hother
      rw [hother]
  · rw [hcores c hc]

/-- A guarded instruction that writes x0 passes and changes no general register. -/
theorem instr_putX_zero {v : DWord} (hg : s.guardPasses g = true) (hbody : body s = .ok (s.putX 0 v)) :
    ∃ t, instr g body s = .next t ∧ (∀ c h, ((t.core c).ctx h).x = ((s.core c).ctx h).x) ∧ t.cx.pc = s.cx.pc + 4 := by
  have hcx : ((s.putX 0 v).retire 4).cx = _ := State.cx_retire _ 4
  rw [State.cx_putX, Ctx.setX_zero] at hcx
  refine ⟨_, instr_ok hg hbody, State.sameButCtx.x_eq (State.sameButCtx_trans (s.modCx_sameButCtx _)
    (State.retire_sameButCtx _ 4)) ?_, ?_⟩ <;> rw [hcx]
  rfl

theorem execLdi_zero (hzero : s.regFree 0 = true) (imm : Int) : ∃ t, execLdi 0 imm s = .next t ∧
    (∀ c h, ((t.core c).ctx h).x = ((s.core c).ctx h).x) ∧ t.cx.pc = s.cx.pc + 4 :=
  instr_putX_zero rfl (s.wrX_free 0 _ hzero)

end

/-- Settles O4: a write to x0 leaves the registers (`instr_putX_zero`), and each of the instructions is a write of one register or a
wait (`instr_frameX`, `instrC_frameX`). -/
theorem generalRegisterRules : Obligations.GeneralRegisterRules := by
  unfold Obligations.GeneralRegisterRules
  refine ⟨fun g a b s hg hready => ⟨rfl, ?_⟩, fun g d a b p c imm n v pos s t hs => ?_⟩
  · have hready1 : s.xReady [0, a] := fun r hr => hready r (by simp at hr ⊢; tauto)
    have hzero : s.regFree 0 = true := hready 0 (by simp)
    simp only [List.forall_mem_cons]
    exact ⟨instr_putX_zero hg (op2_free _ _ _ _ _ hready), instr_putX_zero hg (op2_free _ _ _ _ _ hready),
      instr_putX_zero hg (op1_free _ _ _ _ hready1), instr_putX_zero hg (op2_free _ _ _ _ _ hready),
      instr_putX_zero hg (op1_free _ _ _ _ hready1), execLdi_zero hzero 1,
      fun _ h => absurd h List.not_mem_nil⟩
  · have two {g a b} (f) := op2_frameX (t := t) (d := d) (g := g) (a := a) (b := b) hs f
    have one {g a} (f) := op1_frameX (t := t) (d := d) (g := g) (a := a) hs f
    have read {g} (r) := readInto_frameX (t := t) (d := d) (g := g) hs r
    have twoC {a b} (f) := op2C_frameX (t := t) (d := d) (a := a) (b := b) hs f
    have oneC {a} (f) := op1C_frameX (t := t) (d := d) (a := a) hs f
    simp only [List.forall_mem_cons]
    exact ⟨two _, two _, two _, two _, two _, two _, two _, two _, two _, two _, two _, two _, two _, two _, two _,
      one _, two _, two _, two _, two _, two _, two _, two _, two _, one _, one _, one _, one _, one _, one _, one _, one _,
      two _, two _, two _, two _, two _, two _, two _, two _, two _, one _, one _, one _, one _, one _, one _, one _, one _,
      execLdi_frameX hs _, execSeth_frameX hs _ _, oneC _, twoC _, twoC _, twoC _, twoC _, twoC _, oneC _,
      execLdiC_frameX hs _, oneC _, oneC _, oneC _, oneC _, execPcnt_frameX hs _, execPtox_frameX hs _, execPffs_frameX hs _,
      execFmvxf_frameX hs, execFkind_frameX hs, execMfb_frameX hs _, read _, read _, read _, read _, read _, read _,
      fun _ h => absurd h List.not_mem_nil⟩

end Sys2Proof.Machine
end

/-! PROOFS. What the integer instructions write (R230 to R239, R248, R249), and the encodings of the first majors (R206). Here O1, O2
and O3 are settled. -/

section
namespace Sys2Proof

/-! ## Encodings of form R (R202, R204, R206) -/

section
variable {f : W32} {rest : List Byte}

/-- G set, or [28:24] zero: the word has a guard. -/
theorem W32.guardR_valid (h : f.g = true ∨ f.x = 0) : f.guardR = .ok f.guard := by
  unfold W32.guardR W32.guard
  cases hg : f.g with
  | true => rfl
  | false => exact if_pos (h.resolve_left (by simp [hg]))

/-- A word whose fields are read guard first decodes to what follows its guard. -/
theorem decode_of_guardR {k : Guard → Except DecodeError Instr} (hvalid : f.g = true ∨ f.x = 0)
    (h : decodeW32 f = f.guardR >>= k) : decode (bytes32 f.toNat ++ rest) = (k f.guard).map fun i => (i, 4) := by
  rw [decode_bytes32, h, W32.guardR_valid hvalid]
  rfl

/-- An instruction of which field B must be zero. -/
theorem needZero_map (b : Fin 32) (i : Instr) :
    ((need (b == 0) >>= fun _ => .ok i).map fun i => (i, 4) : Except DecodeError (Instr × Nat)) =
      if b = 0 then .ok (i, 4) else .error .reserved := by
  by_cases hb : b = 0
  · rw [if_pos hb, hb]
    rfl
  · rw [if_neg hb, show (b == 0) = false from beq_false_of_ne hb]
    rfl

theorem decodeW32_maj1 (hmaj : f.maj = 1) : decodeW32 f = f.guardR >>= fun g => .ok
    ((([Instr.add, .sub, .andR, .orR, .xor, .andn, .minS, .maxS] : List (Guard → Reg → Reg → Reg → Instr)).getD f.fn.val .add)
      g f.d f.a f.b) := by
  obtain ⟨g, x, maj, d, a, b, fn⟩ := f
  obtain rfl : maj = 1 := hmaj
  fin_cases fn <;> rfl

theorem decodeW32_maj2 (hmaj : f.maj = 2) (hfn : f.fn ≠ 7) : decodeW32 f = f.guardR >>= fun g => .ok
    ((([Instr.minu, .maxu, .shl, .shr, .sra, .rol, .ror] : List (Guard → Reg → Reg → Reg → Instr)).getD f.fn.val .add)
      g f.d f.a f.b) := by
  obtain ⟨g, x, maj, d, a, b, fn⟩ := f
  obtain rfl : maj = 2 := hmaj
  have hfns : ∀ fn : Fin 8, fn ≠ 7 → fn = 0 ∨ fn = 1 ∨ fn = 2 ∨ fn = 3 ∨ fn = 4 ∨ fn = 5 ∨ fn = 6 := by decide
  rcases hfns fn hfn with rfl | rfl | rfl | rfl | rfl | rfl | rfl <;> rfl

theorem decodeW32_mov (hmaj : f.maj = 2) (hfn : f.fn = 7) :
    decodeW32 f = f.guardR >>= fun g => need (f.b == 0) >>= fun _ => .ok (.mov g f.d f.a) := by
  obtain ⟨g, x, maj, d, a, b, fn⟩ := f
  obtain rfl : maj = 2 := hmaj
  obtain rfl : fn = 7 := hfn
  rfl

theorem decodeW32_maj3 (hmaj : f.maj = 3) : decodeW32 f = f.guardR >>= fun g => .ok
    ((([Instr.mul, .mulhiS, .mulhiU, .mulhiSu, .div, .divu, .rem, .remu] :
      List (Guard → Reg → Reg → Reg → Instr)).getD f.fn.val .mul) g f.d f.a f.b) := by
  obtain ⟨g, x, maj, d, a, b, fn⟩ := f
  obtain rfl : maj = 3 := hmaj
  fin_cases fn <;> rfl

theorem decodeW32_maj4 (hmaj : f.maj = 4) : decodeW32 f = f.guardR >>= fun g => need (f.b == 0) >>= fun _ => .ok
    ((([Instr.clz, .ctz, .popc, .sextB, .sextH, .sextW, .zextH, .zextW] : List (Guard → Reg → Reg → Instr)).getD f.fn.val .clz)
      g f.d f.a) := by
  obtain ⟨g, x, maj, d, a, b, fn⟩ := f
  obtain rfl : maj = 4 := hmaj
  fin_cases fn <;> rfl

theorem decodeW32_lea (hmaj : f.maj = 5) : decodeW32 f = f.guardR >>= fun g => .ok (.lea g f.d f.a f.b f.fn) := by
  obtain ⟨g, x, maj, d, a, b, fn⟩ := f
  obtain rfl : maj = 5 := hmaj
  rfl

end

end Sys2Proof

namespace Sys2Proof.Machine

/-! ## Operations on registers that are ready complete with their value -/

section
variable {s : State} {g : Guard} {d a b : Reg} {v : DWord}

/-- A value of the state, written to a general register. -/
theorem instr_wrX {k : State → DWord} (hg : s.guardPasses g = true) (hd : s.regFree d = true) (hv : k s = v) :
    instr g (fun s => s.wrX d (k s)) s = s.doneX d v 4 := by
  subst hv
  exact instr_ok hg (s.wrX_free d _ hd)

theorem instr_op1 {f : DWord → DWord} (hg : s.guardPasses g = true) (hready : s.xReady [d, a]) (hv : f (s.cx.xr a) = v) :
    instr g (op1 f d a) s = s.doneX d v 4 := by
  subst hv
  exact instr_ok hg (op1_free f d a s hready)

theorem instr_op2 {f : DWord → DWord → DWord} (hg : s.guardPasses g = true) (hready : s.xReady [d, a, b])
    (hv : f (s.cx.xr a) (s.cx.xr b) = v) : instr g (op2 f d a b) s = s.doneX d v 4 := by
  subst hv
  exact instr_ok hg (op2_free f d a b s hready)

theorem instrC_op1 {f : DWord → DWord} (hready : s.xReady [d, a]) (hv : f (s.cx.xr a) = v) :
    instrC (op1 f d a) s = s.doneX d v 2 := by
  subst hv
  exact instrC_ok (op1_free f d a s hready)

theorem instrC_op2 {f : DWord → DWord → DWord} (hready : s.xReady [d, a, b]) (hv : f (s.cx.xr a) (s.cx.xr b) = v) :
    instrC (op2 f d a b) s = s.doneX d v 2 := by
  subst hv
  exact instrC_ok (op2_free f d a b s hready)

theorem execLdi_doneX (hd : s.regFree d = true) (imm : Int) : execLdi d imm s = s.doneX d (BitVec.ofInt 64 imm) 4 :=
  instr_wrX rfl hd rfl

theorem execLdiC_doneX (hd : s.regFree d = true) (imm : Int) : execLdiC d imm s = s.doneX d (BitVec.ofInt 64 imm) 2 :=
  instrC_ok (s.wrX_free d _ hd)

theorem execSeth_doneX (hready : s.xReady [d, d]) (v : Half) (pos : Fin 4) :
    execSeth d v pos s = s.doneX d (setHalf (s.cx.xr d) v pos.val) 4 := instr_op1 rfl hready rfl

theorem State.xReady_cons {r : Reg} {rs : List Reg} : s.xReady (r :: rs) ↔ s.regFree r = true ∧ s.xReady rs :=
  List.forall_mem_cons

theorem State.xReady_firstTwo (h : s.xReady [d, a, b]) : s.xReady [d, a] := by
  simp only [State.xReady_cons] at h ⊢
  obtain ⟨hd, ha, -, hnil⟩ := h
  exact ⟨hd, ha, hnil⟩

/-- Of a first and a second register, the first may be named twice. -/
theorem State.xReady_first (h : s.xReady [d, a]) : s.xReady [d, d] ∧ s.xReady [d, d, a] := by
  simp only [State.xReady_cons] at h ⊢
  obtain ⟨hd, ha, hnil⟩ := h
  exact ⟨⟨hd, hd, hnil⟩, hd, hd, ha, hnil⟩

end

/-! ## Values, by the numbers that words stand for -/

section
variable (x y : DWord)

theorem pickBy_slt : pickBy BitVec.slt x y = if x.toInt < y.toInt then x else y := by
  simp only [pickBy, BitVec.slt_eq_decide, decide_eq_true_eq]

theorem pickBy_sgt : pickBy (fun x y => y.slt x) x y = if y.toInt < x.toInt then x else y := by
  simp only [pickBy, BitVec.slt_eq_decide, decide_eq_true_eq]

theorem pickBy_ult : pickBy BitVec.ult x y = if x.toNat < y.toNat then x else y := by
  simp only [pickBy, BitVec.ult_eq_decide, decide_eq_true_eq]

theorem pickBy_ugt : pickBy (fun x y => y.ult x) x y = if y.toNat < x.toNat then x else y := by
  simp only [pickBy, BitVec.ult_eq_decide, decide_eq_true_eq]

/-- A shift to the right of a signed number divides it, rounding down (R231). -/
theorem sshiftRight_eq_div (n : Nat) : x.sshiftRight n = BitVec.ofInt 64 (x.toInt / 2 ^ n) := by
  rw [BitVec.sshiftRight_eq, Int.shiftRight_eq_div_pow]
  norm_cast

theorem rotateLeft_of_lt {n : Nat} (h : n < 64) : x.rotateLeft n = x <<< n ||| x >>> (64 - n) := by
  rw [BitVec.rotateLeft_def, Nat.mod_eq_of_lt h]

theorem rotateRight_of_lt {n : Nat} (h : n < 64) : x.rotateRight n = x >>> n ||| x <<< (64 - n) := by
  rw [BitVec.rotateRight_def, Nat.mod_eq_of_lt h]

theorem sh6_lt : sh6 y < 64 := Nat.mod_lt _ (by decide)

/-- The high half of an unsigned product is a quotient of numbers (R232). -/
theorem mulHi_toNat : mulHi x.toNat y.toNat = BitVec.ofNat 64 (x.toNat * y.toNat / 2 ^ 64) := by
  unfold mulHi
  rw [← BitVec.ofInt_natCast]
  norm_cast

theorem udivCorner_eq : udivCorner x y = if y = 0 then BitVec.allOnes 64 else x / y := by
  rw [BitVec.udiv_def, udivCorner]

theorem uremCorner_eq : uremCorner x y = if y = 0 then x else x % y := by
  rw [BitVec.umod_def, uremCorner]

theorem countLeading_eq : countLeading x = if x = 0 then 64 else dw (63 - x.toNat.log2) := by
  unfold countLeading bitLen
  by_cases hx : x = 0
  · subst hx
    rfl
  · have hpos : x.toNat ≠ 0 := fun h => hx (BitVec.eq_of_toNat_eq h)
    rw [if_neg hx, if_neg hpos, Nat.add_comm, Nat.sub_add_eq]

theorem zext_eq_mod (n : Nat) : (x.setWidth n).setWidth 64 = dw (x.toNat % 2 ^ n) := by
  apply BitVec.eq_of_toNat_eq
  rw [BitVec.toNat_setWidth, BitVec.toNat_setWidth, dw, BitVec.toNat_ofNat]

/-- The value with one field of 16 bits replaced, bit by bit (R239). -/
theorem setHalf_getLsbD (v : Half) (pos : Nat) {j : Nat} (hj : j < 64) : (setHalf x v pos).getLsbD j =
    if 16 * pos ≤ j ∧ j < 16 * pos + 16 then v.getLsbD (j - 16 * pos) else x.getLsbD j := by
  have hones : (0xFFFF : DWord) = (BitVec.allOnes 16).setWidth 64 := by decide
  unfold setHalf
  rw [hones]
  simp only [BitVec.getLsbD_or, BitVec.getLsbD_and, BitVec.getLsbD_not, BitVec.getLsbD_shiftLeft, BitVec.getLsbD_setWidth,
    BitVec.getLsbD_allOnes, hj, decide_true, Bool.true_and]
  by_cases hlow : j < 16 * pos
  · have hout : ¬ (16 * pos ≤ j ∧ j < 16 * pos + 16) := by omega
    simp [hlow, hout]
  · by_cases hhigh : j - 16 * pos < 16
    · have hin : 16 * pos ≤ j ∧ j < 16 * pos + 16 := by omega
      have hwide : j - 16 * pos < 64 := by omega
      simp [hlow, hhigh, hin, hwide]
    · have hout : ¬ (16 * pos ≤ j ∧ j < 16 * pos + 16) := by omega
      simp [hlow, hhigh, hout, BitVec.getLsbD_of_ge v _ (Nat.le_of_not_lt hhigh)]

end

/-! ## Bits that are set -/

section
variable {w : Nat} (x : BitVec w)

theorem popCount_eq : popCount x = ((List.range w).filter fun i => x.getLsbD i).length := by
  rw [popCount, upto_eq_range]
  rfl

theorem lowestSet_eq_some {n : Nat} :
    lowestSet x = some n ↔ x.getLsbD n = true ∧ n < w ∧ ∀ j < n, x.getLsbD j = false := by
  rw [lowestSet, upto_eq_range, List.find?_range_eq_some]
  simp [bit]

theorem lowestSet_eq_none : lowestSet x = none ↔ ∀ i < w, x.getLsbD i = false := by
  simp [lowestSet, List.find?_eq_none, mem_upto, bit]

/-- The number of trailing zeros is at most the width, and ends at a bit that is set. -/
theorem trailingZeros_spec : (lowestSet x).getD w ≤ w ∧ (∀ i < (lowestSet x).getD w, x.getLsbD i = false) ∧
    ((lowestSet x).getD w < w → x.getLsbD ((lowestSet x).getD w) = true) := by
  cases h : lowestSet x with
  | none => exact ⟨Nat.le_refl _, (lowestSet_eq_none x).mp h, fun hlt => absurd hlt (Nat.lt_irrefl _)⟩
  | some n =>
    obtain ⟨hset, hlt, hclear⟩ := (lowestSet_eq_some x).mp h
    exact ⟨Nat.le_of_lt hlt, hclear, fun _ => hset⟩

end

/-- Settles O1: each instruction is `op2` or `op1` of its function (`instr_op2`, `instr_op1`), whose value the lemmas above give by the
numbers; each word is read guard first (`decode_of_guardR`). -/
theorem integerOperationResults : Obligations.IntegerOperationResults := by
  unfold Obligations.IntegerOperationResults
  refine ⟨fun g d a b s hg hready => ?_, fun g d a b s hg hready => ?_, fun f rest hvalid => ?_⟩
  · exact ⟨instr_op2 hg hready rfl, instr_op2 hg hready rfl, instr_op2 hg hready rfl, instr_op2 hg hready rfl,
      instr_op2 hg hready rfl, instr_op2 hg hready rfl, instr_op2 hg hready (pickBy_slt _ _),
      instr_op2 hg hready (pickBy_sgt _ _)⟩
  · have hready1 := State.xReady_firstTwo hready
    exact ⟨instr_op2 hg hready (pickBy_ult _ _), instr_op2 hg hready (pickBy_ugt _ _), instr_op2 hg hready rfl,
      instr_op2 hg hready rfl, instr_op2 hg hready (sshiftRight_eq_div _ _),
      instr_op2 hg hready (rotateLeft_of_lt _ (sh6_lt _)), instr_op2 hg hready (rotateRight_of_lt _ (sh6_lt _)),
      instr_op1 hg hready1 rfl⟩
  · exact ⟨fun hmaj => decode_of_guardR hvalid (decodeW32_maj1 hmaj),
      fun hmaj hfn => decode_of_guardR hvalid (decodeW32_maj2 hmaj hfn),
      fun hmaj hfn => (decode_of_guardR hvalid (decodeW32_mov hmaj hfn)).trans (needZero_map _ _)⟩

/-- Settles O2: each instruction is `op2` or `op1` of its function, whose value the lemmas above give by the numbers and the bits. -/
theorem multiplyAndCountResults : Obligations.MultiplyAndCountResults := by
  unfold Obligations.MultiplyAndCountResults
  refine ⟨fun g d a b s hg hready => ?_, fun g d a b c s hg hready => ?_, fun f rest hvalid => ?_⟩
  · exact ⟨instr_op2 hg hready BitVec.mul_def, instr_op2 hg hready rfl, instr_op2 hg hready (mulHi_toNat _ _),
      instr_op2 hg hready rfl, instr_op2 hg hready rfl, instr_op2 hg hready (udivCorner_eq _ _), instr_op2 hg hready rfl,
      instr_op2 hg hready (uremCorner_eq _ _)⟩
  · have hready1 := State.xReady_firstTwo hready
    exact ⟨instr_op1 hg hready1 (countLeading_eq _), ⟨_, instr_op1 hg hready1 rfl, trailingZeros_spec _⟩,
      instr_op1 hg hready1 (congrArg dw (popCount_eq _)), instr_op1 hg hready1 rfl, instr_op1 hg hready1 rfl,
      instr_op1 hg hready1 rfl, instr_op1 hg hready1 (zext_eq_mod _ _),
      instr_op1 hg hready1 (zext_eq_mod _ _), instr_op2 hg hready rfl⟩
  · exact ⟨fun hmaj => decode_of_guardR hvalid (decodeW32_maj3 hmaj),
      fun hmaj => (decode_of_guardR hvalid (decodeW32_maj4 hmaj)).trans (needZero_map _ _),
      fun hmaj => decode_of_guardR hvalid (decodeW32_lea hmaj)⟩

/-- Settles O3: the word, immediate and 16-bit forms are `op2` or `op1` of functions on words, as their 32-bit instructions are. -/
theorem wordImmediateShortResults : Obligations.WordImmediateShortResults := by
  unfold Obligations.WordImmediateShortResults
  refine ⟨fun g d a b s hg hready => ?_, fun g d a imm n v pos s hg hready hn => ?_, fun d a imm n s hready hn => ?_⟩
  · exact ⟨instr_op2 hg hready rfl, instr_op2 hg hready rfl, instr_op2 hg hready rfl, instr_op2 hg hready rfl,
      instr_op2 hg hready rfl, instr_op2 hg hready rfl, instr_op2 hg hready rfl, instr_op2 hg hready rfl⟩
  · obtain ⟨hready1, -⟩ := State.xReady_first hready
    exact ⟨instr_op1 hg hready rfl, instr_op1 hg hready rfl, instr_op1 hg hready rfl, instr_op1 hg hready rfl,
      instr_op1 hg hready rfl, instr_op1 hg hready rfl, instr_op1 hg hready (sshiftRight_eq_div _ _),
      instr_op1 hg hready (rotateLeft_of_lt _ hn), execLdi_doneX (hready d List.mem_cons_self) imm, _,
      execSeth_doneX hready1 v pos, fun j hj => setHalf_getLsbD _ _ _ hj⟩
  · obtain ⟨hready1, hready2⟩ := State.xReady_first hready
    exact ⟨instrC_op1 hready rfl, instrC_op2 hready2 rfl, instrC_op2 hready2 rfl, instrC_op2 hready2 rfl,
      instrC_op2 hready2 rfl, instrC_op2 hready2 rfl, instrC_op1 hready1 rfl,
      execLdiC_doneX (hready d List.mem_cons_self) imm, instrC_op1 hready1 rfl, instrC_op1 hready1 rfl,
      instrC_op1 hready1 (sshiftRight_eq_div _ _), instrC_op1 hready1 rfl⟩

end Sys2Proof.Machine
end

/-! PROOFS. What compares, predicate logic and the moves between predicates and general registers write (R224 to R229). Here O5 is
settled. -/

section
namespace Sys2Proof.Machine

/-! ## Conditions (R224) -/

section
variable {w : Nat} (x y : BitVec w)

/-- Two words have no bit in common where no place holds a bit of both. -/
theorem and_eq_zero_iff : x &&& y = 0 ↔ ∀ i < w, (x.getLsbD i && y.getLsbD i) = false := by
  refine ⟨fun h i _ => ?_, fun h => BitVec.eq_of_getLsbD_eq fun i hi => ?_⟩
  · rw [← BitVec.getLsbD_and, h]
    exact BitVec.getLsbD_zero
  · rw [BitVec.getLsbD_and, h i hi]
    exact BitVec.getLsbD_zero.symm

/-- The conditions that CMP evaluates on words are those of R224 on the numbers that the words stand for. -/
theorem icond_eq_condHolds (cc : ICond) : icond cc x y = condHolds cc x y := by
  cases cc with
  | eq => exact decide_eq_decide.mpr BitVec.toNat_inj.symm
  | ne => exact decide_eq_decide.mpr (not_congr BitVec.toNat_inj.symm)
  | lt => exact BitVec.slt_eq_decide
  | ge =>
    rw [icond, BitVec.slt_eq_decide, ← decide_not]
    exact decide_eq_decide.mpr Int.not_lt
  | ltu => exact BitVec.ult_eq_decide
  | geu =>
    rw [icond, BitVec.ult_eq_decide, ← decide_not]
    exact decide_eq_decide.mpr Nat.not_lt
  | tst =>
    rw [Bool.eq_iff_iff, icond, condHolds, decide_eq_true_iff, Ne, and_eq_zero_iff, List.any_eq_true]
    simp
  | ntst =>
    rw [Bool.eq_iff_iff, icond, condHolds, decide_eq_true_iff, and_eq_zero_iff, List.all_eq_true]
    simp only [List.mem_range, Bool.not_eq_true']

end

theorem predBit_decide (P : Prop) [Decidable P] : predBit (decide P) = if P then 1 else 0 := by
  unfold predBit
  simp only [decide_eq_true_eq]

/-! ## Lanes (R229) -/

section
variable (x : Word)

/-- Of the lanes that are set, the lowest alone stays. -/
theorem firstLane_getLsbD {i : Nat} (hi : i < 32) :
    (firstLane x).getLsbD i = true ↔ x.getLsbD i = true ∧ ∀ j, j < i → x.getLsbD j = false := by
  unfold firstLane
  cases h : lowestSet x with
  | none =>
    have hclear := (lowestSet_eq_none x).mp h i hi
    simp [hclear]
  | some n =>
    obtain ⟨hset, hn, hbelow⟩ := (lowestSet_eq_some x).mp h
    have hone : ((1 : Word) <<< n).getLsbD i = true ↔ n = i := by
      have htwo : (1 : Word) <<< n = BitVec.twoPow 32 n := rfl
      rw [htwo, BitVec.getLsbD_twoPow]
      simp [hn]
    refine hone.trans ⟨fun hni => hni ▸ ⟨hset, hbelow⟩, fun ⟨hseti, hbelowi⟩ => ?_⟩
    rcases Nat.lt_trichotomy n i with hlt | heq | hgt
    · exact absurd ((hbelowi n hlt).symm.trans hset) (by decide)
    · exact heq
    · exact absurd ((hbelow i hgt).symm.trans hseti) (by decide)

theorem lowestSet_getD_eq_headD :
    (lowestSet x).getD 32 = ((List.range 32).filter fun i => x.getLsbD i).headD 32 := by
  rw [List.headD_eq_head?_getD, List.head?_filter, lowestSet, upto_eq_range]
  rfl

end

/-! ## The instructions -/

section
variable {s : State} {g : Guard} {d p q : PReg} {a b : Reg} {v : Word}

theorem instr_pop1 {f : Word → Word} (hg : s.guardPasses g = true) (hv : f (s.cx.p.get p) = v) :
    instr g (pop1 f d p) s = s.doneP d v := by
  subst hv
  exact instr_ok hg rfl

theorem instr_pop2 {f : Word → Word → Word} (hg : s.guardPasses g = true) (hv : f (s.cx.p.get p) (s.cx.p.get q) = v) :
    instr g (pop2 f d p q) s = s.doneP d v := by
  subst hv
  exact instr_ok hg rfl

theorem execCmp_doneP (hg : s.guardPasses g = true) (hready : s.xReady [a, b]) (cc : ICond) :
    execCmp g d a b cc s = s.doneP d (if condHolds cc (s.cx.xr a) (s.cx.xr b) then 1 else 0) := by
  refine instr_ok hg ?_
  rw [s.rdX_free a (hready a (by simp)), ok_bind, s.rdX_free b (hready b (by simp)), ok_bind, icond_eq_condHolds]
  rfl

theorem execCmpi_doneP (hg : s.guardPasses g = true) (ha : s.regFree a = true) (imm : Int) (cc : ICond) :
    execCmpi g d a imm cc s = s.doneP d (if condHolds cc (s.cx.xr a) (BitVec.ofInt 64 imm) then 1 else 0) := by
  refine instr_ok hg ?_
  rw [s.rdX_free a ha, ok_bind, icond_eq_condHolds]
  rfl

theorem execXtop_doneP (hg : s.guardPasses g = true) (ha : s.regFree a = true) :
    execXtop g d a s = s.doneP d (BitVec.ofNat 32 (s.cx.xr a).toNat) := by
  refine instr_ok hg ?_
  rw [s.rdX_free a ha, ok_bind, BitVec.ofNat_toNat]
  rfl

theorem execPcnt_doneX (hg : s.guardPasses g = true) (ha : s.regFree a = true) :
    execPcnt g a p s = s.doneX a (dw ((List.range 32).filter fun i => (s.cx.p.get p).getLsbD i).length) 4 :=
  instr_wrX hg ha (congrArg dw (popCount_eq _))

theorem execPtox_doneX (hg : s.guardPasses g = true) (ha : s.regFree a = true) :
    execPtox g a p s = s.doneX a (dw (s.cx.p.get p).toNat) 4 :=
  instr_wrX hg ha (BitVec.ofNat_toNat _ _).symm

theorem execPffs_doneX (hg : s.guardPasses g = true) (ha : s.regFree a = true) :
    execPffs g a p s = s.doneX a (dw (((List.range 32).filter fun i => (s.cx.p.get p).getLsbD i).headD 32)) 4 :=
  instr_wrX hg ha (congrArg dw (lowestSet_getD_eq_headD _))

end

/-- Settles O5: CMP and CMPI by the conditions on numbers (`icond_eq_condHolds`), predicate logic by `pop1` and `pop2` of its functions,
the moves by what they read. -/
theorem comparePredicateResults : Obligations.ComparePredicateResults := by
  unfold Obligations.ComparePredicateResults
  refine ⟨fun g d a b imm cc s hg hready => ?_, fun g d a b r s hg hready => ?_⟩
  · exact ⟨execCmp_doneP hg hready cc, execCmpi_doneP hg (hready a List.mem_cons_self) imm cc⟩
  · have hr : s.regFree r = true := hready r List.mem_cons_self
    exact ⟨instr_pop2 hg rfl, instr_pop2 hg rfl, instr_pop2 hg rfl, instr_pop2 hg rfl, instr_pop1 hg rfl, instr_pop1 hg rfl,
      instr_pop1 hg (predBit_decide _), instr_pop1 hg (predBit_decide _),
      ⟨_, instr_pop1 hg rfl, fun i hi => firstLane_getLsbD _ hi⟩,
      execPcnt_doneX hg hr, execPtox_doneX hg hr, execPffs_doneX hg hr, execXtop_doneP hg hr⟩

end Sys2Proof.Machine
end

/-! PROOFS. What the scalar FP64 instructions and the conversions write (R227, R241 to R246). Here O7 and O8 are settled. -/

section
namespace Sys2Proof.Machine

/-! ## Fields as numbers -/

theorem fld_62_52 (v : DWord) : fld v 62 52 = v.toNat / 2 ^ 52 % 2048 := rfl

theorem fld_51_0 (v : DWord) : fld v 51 0 = v.toNat % 2 ^ 52 := by
  rw [fld, Nat.pow_zero, Nat.div_one]

theorem bit_51_eq (v : DWord) : bit v 51 = decide (2 ^ 51 ≤ v.toNat % 2 ^ 52) := by
  rw [bit, BitVec.getLsbD, Nat.testBit_eq_decide_div_mod_eq]
  exact decide_eq_decide.mpr (by omega)

theorem b2n_bit_63 (v : DWord) : b2n (bit v 63) = v.toNat / 2 ^ 63 := by
  have hlt := v.isLt
  rw [b2n_bit]
  omega

/-! ## Kinds of FP64 codes (R246) -/

/-- KIND of a code with exponent field `e` and fraction `m`. -/
def floatKind (e m : Nat) : Nat :=
  if e = 0 then (if m = 0 then 0 else 1)
  else if e < 2047 then 2
  else if m = 0 then 3
  else if 2 ^ 51 ≤ m then 4 else 5

theorem fkind_eq (v : DWord) :
    fkind v = floatKind (v.toNat / 2 ^ 52 % 2048) (v.toNat % 2 ^ 52) + 8 * (v.toNat / 2 ^ 63) := by
  unfold fkind floatKind
  simp only [fld_62_52, fld_51_0, bit_51_eq, b2n_bit_63, decide_eq_true_eq]

/-- Each kind but that of the normal codes, by exponent field and fraction; an exponent field has 11 bits. -/
theorem floatKind_iff {e m : Nat} (he : e < 2048) : floatKind e m < 6 ∧
    (floatKind e m = 0 ↔ e = 0 ∧ m = 0) ∧ (floatKind e m = 1 ↔ e = 0 ∧ m ≠ 0) ∧ (floatKind e m = 3 ↔ e = 2047 ∧ m = 0) ∧
    (floatKind e m = 4 ↔ e = 2047 ∧ 2 ^ 51 ≤ m) ∧ (floatKind e m = 5 ↔ e = 2047 ∧ m ≠ 0 ∧ m < 2 ^ 51) := by
  unfold floatKind
  split_ifs <;> simp <;> omega

/-- The same by the halves of the code: what lies below the sign is exponent field and fraction. -/
theorem floatKind_spec (v : DWord) :
    let k := floatKind (v.toNat / 2 ^ 52 % 2048) (v.toNat % 2 ^ 52)
    k < 6 ∧ (k = 0 ↔ v.toNat % 2 ^ 63 = 0) ∧ (k = 1 ↔ v.toNat / 2 ^ 52 % 2048 = 0 ∧ v.toNat % 2 ^ 52 ≠ 0) ∧
      (k = 3 ↔ v.toNat % 2 ^ 63 = 2047 * 2 ^ 52) ∧
      (k = 4 ↔ v.toNat / 2 ^ 52 % 2048 = 2047 ∧ 2 ^ 51 ≤ v.toNat % 2 ^ 52) ∧
      (k = 5 ↔ v.toNat / 2 ^ 52 % 2048 = 2047 ∧ v.toNat % 2 ^ 52 ≠ 0 ∧ v.toNat % 2 ^ 52 < 2 ^ 51) := by
  obtain ⟨hlt, hzero, hsub, hinf, hquiet, hsig⟩ := floatKind_iff (m := v.toNat % 2 ^ 52)
    (Nat.mod_lt (v.toNat / 2 ^ 52) (by decide : 0 < 2048))
  have hbelow : v.toNat % 2 ^ 63 = v.toNat / 2 ^ 52 % 2048 * 2 ^ 52 + v.toNat % 2 ^ 52 := by omega
  exact ⟨hlt, hzero.trans (by omega), hsub, hinf.trans (by omega), hquiet, hsig⟩

/-! ## The instructions -/

section
variable {s : State} {g : Guard} {d a b : Reg}

theorem instr_fop2 (hg : s.guardPasses g = true) (op : RM → Nat → Nat → FRes) :
    instr g (fop2 op d a b) s = s.doneF d (op (RM.of s.cx.fmode) (s.cx.f.get a).toNat (s.cx.f.get b).toNat) :=
  instr_ok hg rfl

/-- FMA and FMS read a third operand, the destination (R242). -/
theorem instr_fma (hg : s.guardPasses g = true) (minus : Bool) :
    instr g (fun s => fop2 (fun rm x y => fp64.fma rm x y (s.rdF d).toNat minus) d a b s) s =
      s.doneF d (fp64.fma (RM.of s.cx.fmode) (s.cx.f.get a).toNat (s.cx.f.get b).toNat (s.cx.f.get d).toNat minus) :=
  instr_ok hg rfl

theorem execFcmp_next (hg : s.guardPasses g = true) (p : PReg) (cc : FCond) :
    let r := fp64.cond cc (s.cx.f.get a).toNat (s.cx.f.get b).toNat
    execFcmp g p a b cc s = .next (((s.putP p (if r.1 then 1 else 0)).orFlags (if r.2 then 1 else 0)).retire 4) :=
  instr_ok hg rfl

theorem execFsgn_next (hg : s.guardPasses g = true) : execFsgn g d a b s = .next ((s.putF d
    ((s.cx.f.get a &&& ~~~((1 : DWord) <<< 63)) ||| (s.cx.f.get b &&& ((1 : DWord) <<< 63)))).retire 4) :=
  instr_ok hg rfl

theorem execFabs_next (hg : s.guardPasses g = true) :
    execFabs g d a s = .next ((s.putF d (s.cx.f.get a &&& ~~~((1 : DWord) <<< 63))).retire 4) :=
  instr_ok hg rfl

theorem execFneg_next (hg : s.guardPasses g = true) :
    execFneg g d a s = .next ((s.putF d (s.cx.f.get a ^^^ ((1 : DWord) <<< 63))).retire 4) :=
  instr_ok hg rfl

theorem execFmvfx_next (hg : s.guardPasses g = true) (ha : s.regFree a = true) :
    execFmvfx g d a s = .next ((s.putF d (s.cx.xr a)).retire 4) := by
  refine instr_ok hg ?_
  rw [s.rdX_free a ha]
  rfl

theorem execFmvxf_doneX (hg : s.guardPasses g = true) (hd : s.regFree d = true) :
    execFmvxf g d a s = s.doneX d (s.cx.f.get a) 4 := instr_wrX hg hd rfl

theorem execFkind_doneX (hg : s.guardPasses g = true) (hd : s.regFree d = true) :
    execFkind g d a s = s.doneX d (dw (floatKind ((s.cx.f.get a).toNat / 2 ^ 52 % 2048) ((s.cx.f.get a).toNat % 2 ^ 52) +
      8 * ((s.cx.f.get a).toNat / 2 ^ 63))) 4 :=
  instr_wrX hg hd (congrArg dw (fkind_eq _))

/-- A conversion from an integer rounds it once (R244). -/
theorem instr_fromInt (hg : s.guardPasses g = true) (ha : s.regFree a = true) (mode : FcvtMode) (f : DWord → Int) :
    instr g (fromInt mode f d a) s = s.doneF d (fp64.code (s.modeOf mode) (FVal.ofInt (f (s.cx.xr a)))) := by
  refine instr_ok hg ?_
  unfold fromInt
  rw [s.rdX_free a ha]
  rfl

/-- A conversion to an integer saturates it, and its flags are those of the rounding (R127). -/
theorem instr_toInteger (hg : s.guardPasses g = true) (hd : s.regFree d = true) (mode : FcvtMode) (lo hi : Int) :
    let r := (fp64.val (s.cx.f.get a).toNat).toInt (s.modeOf mode) lo hi
    instr g (toInteger mode lo hi d a) s = .next (((s.putX d (BitVec.ofInt 64 r.1)).orFlags r.2).retire 4) := by
  refine instr_ok hg ?_
  unfold toInteger
  simp only [s.wrX_free d _ hd, ok_bind]
  rfl

theorem FVal.ofInt_natCast (n : Nat) : FVal.ofInt n = .fin false n 0 := by
  rw [FVal.ofInt, Int.natAbs_natCast, decide_eq_false (by omega)]

end

/-- Settles O7: arithmetic and FCMP are the model's functions on codes, the bit operations are what they read, FKIND is `floatKind` of
exponent field and fraction. -/
theorem floatResults : Obligations.FloatResults := by
  unfold Obligations.FloatResults
  refine ⟨fun g d a b p cc s hg => ?_, fun g d a b s hg hready => ?_⟩
  · exact ⟨instr_fop2 hg _, instr_fop2 hg _, instr_fop2 hg _, instr_fop2 hg _, instr_fop2 hg _, instr_fop2 hg _,
      instr_fop2 hg _, instr_fma hg false, instr_fma hg true, execFcmp_next hg p cc⟩
  · have hd : s.regFree d = true := hready d (by simp)
    have ha : s.regFree a = true := hready a (by simp)
    obtain ⟨hlt, hkinds⟩ := floatKind_spec (s.cx.f.get a)
    exact ⟨execFsgn_next hg, execFabs_next hg, execFneg_next hg, execFmvfx_next hg ha, execFmvxf_doneX hg hd, _, hlt,
      execFkind_doneX hg hd, hkinds⟩

/-- Settles O8: conversions from integers round once (`instr_fromInt`), conversions to integers saturate (`instr_toInteger`). -/
theorem floatConversionResults : Obligations.FloatConversionResults := by
  unfold Obligations.FloatConversionResults
  intro g d a m s hg hready
  have hd : s.regFree d = true := hready d (by simp)
  have ha : s.regFree a = true := hready a (by simp)
  exact ⟨instr_fromInt hg ha m _,
    (instr_fromInt hg ha m _).trans (congrArg (fun v => s.doneF d (fp64.code (s.modeOf m) v)) (FVal.ofInt_natCast _)),
    instr_toInteger hg hd m _ _, instr_toInteger hg hd m _ _⟩

end Sys2Proof.Machine
end

/-! PROOFS. What the branch-target registers, transfers of control and SYNC.C leave (R211 to R223). Here O9, O10 and O11 are settled. -/

section
namespace Sys2Proof.Machine

/-! ## Changes of the issuing context -/

theorem vget_vmod_self {α : Type} {n : Nat} (v : Vector α n) (i : Fin n) (f : α → α) : (vmod v i f).get i = f (v.get i) :=
  vget_vput_self _ _ _

theorem vget_vmod_ne {α : Type} {n : Nat} (v : Vector α n) (i j : Fin n) (f : α → α) (h : j ≠ i) :
    (vmod v i f).get j = v.get j := vget_vput_ne _ _ _ _ h

section
variable {s : State} {g : Guard} {n : Fin 8} {a d : Reg} {p : PReg}

theorem State.cx_modB (s : State) (n : Fin 8) (f : BReg → BReg) : (s.modB n f).cx = { s.cx with b := vmod s.cx.b n f } :=
  State.cx_modCx _ _

theorem State.modCx_retire_sameBytes (s : State) (f : Ctx → Ctx) (len : Nat) : s.sameBytes ((s.modCx f).retire len) :=
  State.sameBytes_trans (s.modCx_sameBytes f) (State.retire_sameBytes _ len)

/-! ## Targets (R212, R219, R220) -/

/-- A register prepared with a target whose prefetch is in progress. -/
def BReg.preparedWith (b : BReg) (t : DWord) : Prop :=
  b.tgt = t.setWidth 56 ∧ b.v = true ∧ b.ready = false ∧ b.f = 0 ∧ b.busy = true ∧ (b.nonCanon = true ↔ 2 ^ 56 ≤ t.toNat)

theorem BReg.preparedWith_prepare (b : BReg) (t : DWord) : (b.prepare t).preparedWith t := by
  refine ⟨rfl, rfl, rfl, rfl, rfl, ?_⟩
  show decide (fld t 63 56 ≠ 0) = true ↔ _
  rw [fld_63_56, decide_eq_true_iff]
  omega

theorem fld_55_1_double {w : Nat} (v : BitVec w) : fld v 55 1 * 2 = v.toNat % 2 ^ 56 / 2 * 2 := by
  unfold fld
  omega

theorem dw_setWidth_56 (k : Nat) : (dw k).setWidth 56 = BitVec.ofNat 56 k := by
  apply BitVec.eq_of_toNat_eq
  rw [BitVec.toNat_setWidth, dw, BitVec.toNat_ofNat, BitVec.toNat_ofNat]
  exact Nat.mod_mod_of_dvd k (by decide)

/-- The target image that MFB reads (R219). -/
theorem BReg.image_eq (b : BReg) :
    b.image = dw ((if b.f = 0 then 0 else 2 ^ 63) + b.tgt.toNat / 2 * 2 + (if b.v then 1 else 0)) := by
  have htgt := Nat.mod_eq_of_lt b.tgt.isLt
  unfold BReg.image
  rw [fld_55_1_double, htgt]
  by_cases hf : b.f = 0 <;> simp [hf, b2n]

/-! ## The instructions of the branch-target registers -/

/-- The outcome goes on with one branch-target register changed, to one of which `P` holds, and the PC past a 32-bit instruction. -/
def State.changesB (s : State) (n : Fin 8) (P : BReg → Prop) (o : Out) : Prop :=
  ∃ t, o = .next t ∧ P (t.cx.b.get n) ∧ (∀ m, m ≠ n → t.cx.b.get m = s.cx.b.get m) ∧ t.cx.pc = s.cx.pc + 4 ∧
    t.cx.x = s.cx.x ∧ s.sameBytes t

/-- A guarded instruction that changes one branch-target register. -/
theorem instr_modB {P : BReg → Prop} {f : BReg → BReg} {body : State → Act} (hg : s.guardPasses g = true)
    (hbody : body s = .ok (s.modB n f)) (hP : P (f (s.cx.b.get n))) : s.changesB n P (instr g body s) := by
  refine ⟨_, instr_ok hg hbody, ?_⟩
  rw [State.cx_retire, State.cx_modB]
  refine ⟨?_, fun m hm => vget_vmod_ne _ _ _ _ hm, rfl, rfl, s.modCx_retire_sameBytes _ 4⟩
  rw [vget_vmod_self]
  exact hP

/-- The same where the change depends on a general register. -/
theorem instr_rdX_modB {P : BReg → Prop} {f : DWord → BReg → BReg} (hg : s.guardPasses g = true) (ha : s.regFree a = true)
    (hP : P (f (s.cx.xr a) (s.cx.b.get n))) :
    s.changesB n P (instr g (fun s => do let x ← s.rdX a; return s.modB n (f x)) s) := by
  refine instr_modB hg ?_ hP
  rw [s.rdX_free a ha]
  rfl

/-- What MTB does to its register: an image with V prepares it, one without unprepares it (R220). -/
def BReg.moved (x : DWord) (b : BReg) : BReg :=
  if bit x 0 then b.prepare (dw (fld x 55 1 * 2)) else { b with tgt := (dw (fld x 55 1 * 2)).setWidth 56 }.unprepare

theorem BReg.moved_prepares (b : BReg) {x : DWord} (hv : x.getLsbD 0 = true) :
    (b.moved x).preparedWith (dw (x.toNat % 2 ^ 56 / 2 * 2)) := by
  unfold BReg.moved
  rw [fld_55_1_double, if_pos (show bit x 0 = true from hv)]
  exact b.preparedWith_prepare _

theorem BReg.moved_unprepares (b : BReg) {x : DWord} (hv : x.getLsbD 0 = false) :
    b.moved x = { b with tgt := BitVec.ofNat 56 (x.toNat % 2 ^ 56 / 2 * 2) }.unprepare := by
  unfold BReg.moved
  rw [fld_55_1_double, dw_setWidth_56, if_neg (ne_true_of_eq_false (show bit x 0 = false from hv))]

theorem execMfb_doneX (hg : s.guardPasses g = true) (hd : s.regFree d = true) : execMfb g d n s = s.doneX d
    (dw ((if (s.cx.b.get n).f = 0 then 0 else 2 ^ 63) + (s.cx.b.get n).tgt.toNat / 2 * 2 +
      (if (s.cx.b.get n).v then 1 else 0))) 4 :=
  instr_wrX hg hd (BReg.image_eq _)

/-- V, READY and F as the bits that TSTB sets (R222). -/
theorem BReg.tested_eq (b : BReg) : b2n b.v + 2 * b2n b.ready + 4 * b2n (decide (b.f ≠ 0)) =
    (if b.v then 1 else 0) + (if b.ready then 2 else 0) + (if b.f = 0 then 0 else 4) := by
  have hready : 2 * b2n b.ready = if b.ready then 2 else 0 := by cases b.ready <;> rfl
  have hfault : 4 * b2n (decide (b.f ≠ 0)) = if b.f = 0 then 0 else 4 := by
    by_cases hf : b.f = 0 <;> simp [hf, b2n]
  rw [hready, hfault]
  rfl

theorem execTstb_doneP (hg : s.guardPasses g = true) : execTstb g p n s = s.doneP p
    (BitVec.ofNat 32 ((if (s.cx.b.get n).v then 1 else 0) + (if (s.cx.b.get n).ready then 2 else 0) +
      (if (s.cx.b.get n).f = 0 then 0 else 4))) := by
  rw [← BReg.tested_eq]
  exact instr_ok hg rfl

end

/-- Settles O9: PREP, PREPX, MTB and CLRB change one register (`instr_modB`, `instr_rdX_modB`), to what `BReg.preparedWith_prepare` and
`BReg.moved` say; MFB and TSTB write what they read. -/
theorem branchTargetResults : Obligations.BranchTargetResults := by
  unfold Obligations.BranchTargetResults
  intro g n off d p a s hg hready b x prepared unprepared becomes
  have hd : s.regFree d = true := hready d (by simp)
  have ha : s.regFree a = true := hready a (by simp)
  refine ⟨?_, ?_, fun hv => ?_, fun hv => ?_, ?_, execMfb_doneX hg hd, execTstb_doneP hg⟩
  · show s.changesB n (prepared _) (execPrep n off s)
    exact instr_modB rfl rfl (BReg.preparedWith_prepare _ _)
  · exact instr_rdX_modB (f := BReg.prepare) hg ha (BReg.preparedWith_prepare _ _)
  · exact instr_rdX_modB (f := BReg.moved) hg ha (BReg.moved_prepares _ hv)
  · refine instr_rdX_modB (f := BReg.moved) hg ha ?_
    rw [BReg.moved_unprepares _ hv]
    exact ⟨rfl, rfl, rfl, rfl, rfl⟩
  · show s.changesB n (unprepared b.tgt) (execClrb g n s)
    exact instr_modB hg rfl ⟨rfl, rfl, rfl, rfl, rfl⟩

/-! ## Transfers (R217, R218) -/

section
variable {s : State} {n : Fin 8} {p : PReg} {body : State → Act} {i : Instr}

theorem State.target_ready (hv : (s.cx.b.get n).v = true) (hready : (s.cx.b.get n).ready = true)
    (hf : (s.cx.b.get n).f = 0) : s.target n = .ok (s.cx.b.get n) := by
  unfold State.target
  simp [hv, hready, hf]

theorem State.target_unprepared (hv : (s.cx.b.get n).v = false) :
    s.target n = .error (.trap ⟨0x03, 0, dw (256 * n.val)⟩) := by
  unfold State.target
  simp only [hv]
  rfl

/-- A guarded transfer whose lane differs from its sense bit is taken (R205). -/
theorem guardedJump_taken : guardedJump (!(s.cx.p.get p).getLsbD 0) p body s = body s :=
  if_neg fun h => (Bool.eq_not_self _).mp h

theorem guardedJump_untaken :
    guardedJump ((s.cx.p.get p).getLsbD 0) p body s = .ok (s.modCx fun x => { x with pc := x.pc + 2 }) := if_pos rfl

theorem instrJump_congr {body' : State → Act} (h : body s = body' s) : instrJump body s = instrJump body' s := by
  unfold instrJump
  rw [h]

theorem exec_go (h : i = .go n ∨ i = .goGuarded n (!(s.cx.p.get p).getLsbD 0) p) : exec i s = instrJump (goBody n) s := by
  rcases h with rfl | rfl
  · rfl
  · exact instrJump_congr guardedJump_taken

theorem exec_call (h : i = .call n ∨ i = .callGuarded n (!(s.cx.p.get p).getLsbD 0) p) :
    exec i s = instrJump (callBody n) s := by
  rcases h with rfl | rfl
  · rfl
  · exact instrJump_congr guardedJump_taken

/-- The register through which a transfer has gone: a fault of its prefetch would be retried once more. -/
def BReg.taken (b : BReg) : BReg := { b with retry := false }

theorem goBody_ready (hv : (s.cx.b.get n).v = true) (hready : (s.cx.b.get n).ready = true) (hf : (s.cx.b.get n).f = 0) :
    goBody n s = .ok ((s.modB n BReg.taken).jump (s.cx.b.get n)) := by
  unfold goBody
  rw [State.target_ready hv hready hf]
  rfl

theorem callBody_ready (hv : (s.cx.b.get n).v = true) (hready : (s.cx.b.get n).ready = true) (hf : (s.cx.b.get n).f = 0) :
    callBody n s =
      .ok (((s.modB n BReg.taken).modB 0 (BReg.prepare (s.cx.pc + 2))).jump (s.cx.b.get n)) := by
  unfold callBody
  rw [State.target_ready hv hready hf]
  rfl

theorem transfer_unprepared (hv : (s.cx.b.get n).v = false) (h : body = goBody n ∨ body = callBody n) :
    instrJump body s = .next (s.trapHere ⟨0x03, 0, dw (256 * n.val)⟩) := by
  refine instrJump_stop (e := .trap ⟨0x03, 0, dw (256 * n.val)⟩) ?_
  rcases h with rfl | rfl
  · rw [goBody, State.target_unprepared hv]
    rfl
  · rw [callBody, State.target_unprepared hv]
    rfl

theorem State.modB_sameBytes (s : State) (n : Fin 8) (f : BReg → BReg) : s.sameBytes (s.modB n f) := s.modCx_sameBytes _

/-- A transfer that retires leaves branch-target and general registers and every byte; its target is the PC. -/
theorem State.jump_retireJump (u : State) (b : BReg) :
    (u.jump b).retireJump.cx.pc = b.tgt.setWidth 64 ∧ (u.jump b).retireJump.cx.b = u.cx.b ∧
      (u.jump b).retireJump.cx.x = u.cx.x ∧ u.sameBytes (u.jump b).retireJump := by
  have hcx := State.cx_retire (u.jump b) 0
  have hjump : (u.jump b).cx = { u.cx with
      pc := b.tgt.setWidth 64, fqBase := b.tgt.setWidth 64, fq := b.buf, fqSure := true } := State.cx_modCx _ _
  rw [hjump] at hcx
  unfold State.retireJump
  rw [hcx]
  exact ⟨BitVec.add_zero _, rfl, rfl, u.modCx_retire_sameBytes _ 0⟩

theorem go_completes (hv : (s.cx.b.get n).v = true) (hready : (s.cx.b.get n).ready = true) (hf : (s.cx.b.get n).f = 0) :
    ∃ t, instrJump (goBody n) s = .next t ∧ t.cx.pc = (s.cx.b.get n).tgt.setWidth 64 ∧ (t.cx.b.get n).v = true ∧
      (t.cx.b.get n).ready = true ∧ t.cx.x = s.cx.x ∧ s.sameBytes t ∧ ∀ m, m ≠ n → t.cx.b.get m = s.cx.b.get m := by
  obtain ⟨hpc, hb, hx, hbytes⟩ := State.jump_retireJump (s.modB n BReg.taken) (s.cx.b.get n)
  refine ⟨_, instrJump_ok (goBody_ready hv hready hf), hpc, ?_⟩
  rw [hb, hx, State.cx_modB, vget_vmod_self]
  exact ⟨hv, hready, rfl, State.sameBytes_trans (s.modB_sameBytes _ _) hbytes, fun m hm => vget_vmod_ne _ _ _ _ hm⟩

theorem call_completes (hv : (s.cx.b.get n).v = true) (hready : (s.cx.b.get n).ready = true) (hf : (s.cx.b.get n).f = 0) :
    ∃ t, instrJump (callBody n) s = .next t ∧ t.cx.pc = (s.cx.b.get n).tgt.setWidth 64 ∧
      (t.cx.b.get 0).tgt = (s.cx.pc + 2).setWidth 56 ∧ (t.cx.b.get 0).v = true ∧ (t.cx.b.get 0).busy = true ∧
      (n ≠ 0 → (t.cx.b.get n).v = true ∧ (t.cx.b.get n).ready = true ∧ (t.cx.b.get n).f = 0 ∧
        (t.cx.b.get n).tgt = (s.cx.b.get n).tgt) ∧
      t.cx.x = s.cx.x ∧ s.sameBytes t ∧ ∀ m, m ≠ n → m ≠ 0 → t.cx.b.get m = s.cx.b.get m := by
  obtain ⟨hpc, hb, hx, hbytes⟩ :=
    State.jump_retireJump ((s.modB n BReg.taken).modB 0 (BReg.prepare (s.cx.pc + 2))) (s.cx.b.get n)
  refine ⟨_, instrJump_ok (callBody_ready hv hready hf), hpc, ?_⟩
  rw [hb, hx, State.cx_modB, State.cx_modB, vget_vmod_self]
  refine ⟨rfl, rfl, rfl, fun hn => ?_, rfl, ?_, fun m hm h0 => ?_⟩
  · rw [vget_vmod_ne _ _ _ _ hn, vget_vmod_self]
    exact ⟨hv, hready, hf, rfl⟩
  · exact State.sameBytes_trans (State.sameBytes_trans (s.modB_sameBytes _ _) (State.modB_sameBytes _ _ _)) hbytes
  · rw [vget_vmod_ne _ _ _ _ h0, vget_vmod_ne _ _ _ _ hm]

theorem untaken_completes :
    ∃ t, instrJump (guardedJump ((s.cx.p.get p).getLsbD 0) p body) s = .next t ∧ t.cx.pc = s.cx.pc + 2 ∧ t.cx.b = s.cx.b ∧
      t.cx.x = s.cx.x ∧ s.sameBytes t := by
  refine ⟨_, instrJump_ok guardedJump_untaken, ?_⟩
  have hcx := State.cx_retire (s.modCx fun x => { x with pc := x.pc + 2 }) 0
  rw [State.cx_modCx] at hcx
  unfold State.retireJump
  rw [hcx]
  exact ⟨BitVec.add_zero _, rfl, rfl, s.modCx_retire_sameBytes _ 0⟩

end

/-- Settles O10: a taken transfer is GO or CALL (`exec_go`, `exec_call`), which completes through a ready register (`go_completes`,
`call_completes`) and traps through an unprepared one (`transfer_unprepared`). -/
theorem transferResults : Obligations.TransferResults := by
  unfold Obligations.TransferResults
  refine ⟨fun n p s hv hready hf => ⟨fun i hi => ?_, fun i hi => ?_, fun i hi => ?_⟩, fun n p s hv hne hdead => ?_⟩
  · rw [exec_go hi]
    exact go_completes hv hready hf
  · rw [exec_call hi]
    exact call_completes hv hready hf
  · rcases hi with rfl | rfl
    · exact untaken_completes
    · exact untaken_completes
  · intro lane i hi
    have htrap : exec i s = .next (s.trapHere ⟨0x03, 0, dw (256 * n.val)⟩) := by
      rcases hi with hi | hi | hi | hi
      · exact (exec_go (p := p) (.inl hi)).trans (transfer_unprepared hv (.inl rfl))
      · exact (exec_call (p := p) (.inl hi)).trans (transfer_unprepared hv (.inr rfl))
      · exact (exec_go (.inr hi)).trans (transfer_unprepared hv (.inl rfl))
      · exact (exec_call (.inr hi)).trans (transfer_unprepared hv (.inr rfl))
    obtain ⟨⟨hrec, hlive, hpc, -, -, -, -, hcx⟩, -⟩ := State.trapHere_trapsTo (s := s) ⟨hne, hdead⟩ ⟨0x03, 0, dw (256 * n.val)⟩
    refine ⟨_, htrap, ?_⟩
    rw [hrec, hcx]
    exact ⟨rfl, rfl, rfl, rfl, rfl, hlive, hpc, rfl, rfl, rfl⟩

/-! ## SYNC.C (R223) -/

section
variable {s : State}

/-- Restarting the prefetches of a context keeps the targets, and no prepared register is ready. -/
theorem Ctx.restartB_get (x : Ctx) (n : Fin 8) : (x.restartB.b.get n).tgt = (x.b.get n).tgt ∧
    ((x.b.get n).v = true → (x.restartB.b.get n).ready = false ∧ (x.restartB.b.get n).busy = true) := by
  have hget : x.restartB.b.get n = if (x.b.get n).v then (x.b.get n).start else x.b.get n := vget_ofFn _ _
  rw [hget]
  cases hv : (x.b.get n).v with
  | true => exact ⟨rfl, fun _ => ⟨rfl, rfl⟩⟩
  | false => exact ⟨rfl, fun h => absurd h (by decide)⟩

/-- The core after SYNC.C: its code cache is empty, and every context's prefetches start again. -/
def Core.synced (k : Core) : Core := { k with code := [], ctxs := Vector.ofFn fun h => (k.ctx h).restartB }

/-- The module after SYNC.C, before it retires. -/
def State.synced (s : State) : State := (s.modMe Core.synced).modCx fun x => { x with fq := [] }

theorem syncCode_done (h : ∀ q ∈ s.cx.reqs, q.writes = false) : syncCode s = .ok s.synced := by
  have hnone : s.cx.reqs.any Req.writes = false := List.any_eq_false.mpr fun q hq => ne_true_of_eq_false (h q hq)
  unfold syncCode
  rw [hnone]
  rfl

theorem State.retire_ctx_b (s : State) (len : Nat) (h : CtxId) : ((s.retire len).me.ctx h).b = (s.me.ctx h).b := by
  by_cases hh : h = s.curCtx
  · subst hh
    show (s.retire len).cx.b = s.cx.b
    rw [State.cx_retire]
  · obtain ⟨-, -, -, hother⟩ := s.retire_sameButCtx len
    rw [hother h hh]

theorem State.synced_ctx_b (s : State) (h : CtxId) : (s.synced.me.ctx h).b = (s.me.ctx h).restartB.b := by
  have hsynced : s.me.synced.ctx h = (s.me.ctx h).restartB := vget_ofFn _ _
  unfold State.synced
  rw [State.me_modCx, State.me_modMe, State.modMe_curCtx]
  by_cases hh : h = s.curCtx
  · subst hh
    rw [Core.ctx_modCtx_self, hsynced]
  · rw [Core.ctx_modCtx_ne _ _ _ _ hh, hsynced]

theorem State.cx_synced (s : State) : s.synced.cx = { s.cx.restartB with fq := [] } := by
  unfold State.synced
  rw [State.cx_modCx, State.cx_modMe]
  exact congrArg (fun x : Ctx => { x with fq := [] }) (vget_ofFn _ _)

/-- What SYNC.C leaves once it has retired. -/
theorem State.synced_retire (s : State) (len : Nat) :
    (s.synced.retire len).me.code = [] ∧ (s.synced.retire len).cx.fq = [] ∧
      (∀ h n, (((s.synced.retire len).me.ctx h).b.get n).tgt = ((s.me.ctx h).b.get n).tgt ∧
        (((s.me.ctx h).b.get n).v = true → (((s.synced.retire len).me.ctx h).b.get n).ready = false ∧
          (((s.synced.retire len).me.ctx h).b.get n).busy = true)) ∧
      (s.synced.retire len).cx.x = s.cx.x ∧ s.sameBytes (s.synced.retire len) ∧
      (s.synced.retire len).cx.pc = s.cx.pc + dw len := by
  have hbytes : s.sameBytes s.synced :=
    State.sameBytes_trans (s.modCore_sameBytes s.cur Core.synced fun _ => rfl) (State.modCx_sameBytes _ _)
  have hcode : s.synced.me.code = [] := by
    unfold State.synced
    rw [State.me_modCx, State.me_modMe]
    rfl
  rw [State.cx_retire, State.cx_synced]
  refine ⟨?_, rfl, fun h n => ?_, rfl, State.sameBytes_trans hbytes (State.retire_sameBytes _ len), rfl⟩
  · rw [State.me_retire]
    exact hcode
  · rw [State.retire_ctx_b, State.synced_ctx_b]
    exact Ctx.restartB_get _ n

end

/-- Settles O11: with no write outstanding both forms leave `State.synced`. -/
theorem syncCodeResults : Obligations.SyncCodeResults := by
  unfold Obligations.SyncCodeResults
  intro g s hg hreqs i hi
  rcases hi with rfl | rfl
  · exact ⟨_, instrC_ok (syncCode_done hreqs), s.synced_retire 2⟩
  · exact ⟨_, instr_ok hg (syncCode_done hreqs), s.synced_retire 4⟩

end Sys2Proof.Machine
end

/-! PROOFS. NOP, IDLE, BEAT, BRK, TRAP and HALT (R250, R317 to R319). Here O19 is settled. -/

section
namespace Sys2Proof.Machine

section
variable {s : State} {g : Guard} {a : Reg}

/-! ## Passing, idling, beating (R317) -/

/-- The issuing context after IDLE: not ready for a number of cycles, or as it was for none (R317). -/
def State.idled (s : State) (n : Nat) : State := if n = 0 then s else s.modCx fun x => { x with stop := .idle n }

theorem execIdle_next (hg : s.guardPasses g = true) (ha : s.regFree a = true) :
    execIdle g a s = .next ((s.idled ((s.cx.xr a).toNat % 65536)).retire 4) := by
  refine instr_ok hg ?_
  rw [s.rdX_free a ha]
  rfl

theorem State.idled_retire (s : State) (n : Nat) (hstop : s.cx.stop = .no) :
    ((s.idled n).retire 4).cx.stop = (if n = 0 then .no else .idle n) ∧ ((s.idled n).retire 4).cx.pc = s.cx.pc + 4 ∧
      ((s.idled n).retire 4).cx.x = s.cx.x ∧ s.sameBytes ((s.idled n).retire 4) := by
  rw [State.cx_retire]
  unfold State.idled
  by_cases hn : n = 0
  · rw [if_pos hn, if_pos hn, hstop]
    exact ⟨rfl, rfl, rfl, s.retire_sameBytes 4⟩
  · rw [if_neg hn, if_neg hn, State.cx_modCx]
    exact ⟨rfl, rfl, rfl, s.modCx_retire_sameBytes _ 4⟩

/-- A context whose heartbeat is reloaded with an interval, if it runs a reaction (R317). -/
def Ctx.beaten (iv : Word) (x : Ctx) : Ctx := if x.run.isSome then { x with beatLeft := iv } else x

theorem beatBody_eq (s : State) : beatBody s = .ok (s.modCx (Ctx.beaten s.me.beatIv)) := rfl

theorem Ctx.beaten_fields (x : Ctx) (iv : Word) : (x.beaten iv).beatLeft = (if x.run.isSome then iv else x.beatLeft) ∧
    (x.beaten iv).x = x.x ∧ (x.beaten iv).pc = x.pc := by
  unfold Ctx.beaten
  cases x.run.isSome with
  | true => exact ⟨rfl, rfl, rfl⟩
  | false => exact ⟨rfl, rfl, rfl⟩

theorem State.beaten_retire (s : State) (len : Nat) :
    ((s.modCx (Ctx.beaten s.me.beatIv)).retire len).cx.beatLeft = (if s.cx.run.isSome then s.me.beatIv else s.cx.beatLeft) ∧
      ((s.modCx (Ctx.beaten s.me.beatIv)).retire len).cx.x = s.cx.x ∧
      s.sameBytes ((s.modCx (Ctx.beaten s.me.beatIv)).retire len) ∧
      ((s.modCx (Ctx.beaten s.me.beatIv)).retire len).cx.pc = s.cx.pc + dw len := by
  obtain ⟨hleft, hx, hpc⟩ := s.cx.beaten_fields s.me.beatIv
  rw [State.cx_retire, State.cx_modCx]
  exact ⟨hleft, hx, s.modCx_retire_sameBytes _ len, congrArg (· + dw len) hpc⟩

/-! ## Trapping (R250, R317, R319) -/

/-- A trap that an instruction takes with the trap context free (R360). -/
theorem State.stopWith_trap (hfree : s.trapFree) (q : TrapInfo) : s.trapsTo (s.stopWith (.trap q)) q.cause q.faddr q.finfo ∧
    s.sameBytes (s.stopWith (.trap q)) :=
  ⟨(State.trapHere_trapsTo hfree q).1, State.trapHere_sameBytes hfree q⟩

theorem execBrk_next (hg : s.guardPasses g = true) : execBrk g s = .next (s.stopWith (.trap ⟨0x1A, 0, dw (2 ^ 31)⟩)) :=
  instr_stop hg rfl

theorem execBrkC_next : execBrkC s = .next (s.stopWith (.trap ⟨0x1A, 0, dw (2 ^ 31)⟩)) := instrC_stop rfl

theorem trapImm_eq (g : Guard) (imm : Int) : trapImm g imm = (imm % (if g.isGuarded then 256 else 8192)).toNat := by
  unfold trapImm
  cases g.isGuarded with
  | true => rfl
  | false => rfl

theorem execTrap_next (hg : s.guardPasses g = true) (imm : Int) : execTrap g imm s =
    .next (s.stopWith (.trap ⟨0x19, 0, dw (2 ^ 31 + (imm % (if g.isGuarded then 256 else 8192)).toNat)⟩)) := by
  rw [← trapImm_eq, Nat.add_comm]
  exact instr_stop hg rfl

/-! ## Halting (R318, R367) -/

/-- The module after HALT: the core has halted and the driver has its machine check. -/
def State.haltedBy (s : State) : State := ((s.retire 4).haltCore s.cur).machineCheck 5 s.cur 0x1E 0

theorem execHalt_next (hg : s.guardPasses g = true) : execHalt g s = .next s.haltedBy := if_pos hg

theorem State.me_haltedBy (s : State) : s.haltedBy.me = { (s.retire 4).me with halted := true } := by
  unfold State.haltedBy
  rw [State.me_machineCheck]
  exact State.me_modMe (s.retire 4) fun k => { k with halted := true }

theorem State.core_haltedBy_ne (s : State) {c : CoreId} (hc : c ≠ s.cur) : s.haltedBy.core c = s.core c := by
  obtain ⟨-, hother, -, -⟩ := s.retire_sameButCtx 4
  exact (State.core_modCore_ne (s.retire 4) s.cur c (fun k => { k with halted := true }) hc).trans (hother c hc)

theorem State.cx_haltedBy (s : State) : s.haltedBy.cx = (s.retire 4).cx := congrArg (·.ctx s.curCtx) s.me_haltedBy

theorem State.haltedBy_sameBytes (s : State) : s.sameBytes s.haltedBy :=
  State.sameBytes_trans (s.retire_sameBytes 4)
    (State.modCore_sameBytes (s.retire 4) s.cur (fun k => { k with halted := true }) fun _ => rfl)

end

/-- Settles O19: NOP retires; IDLE and BEAT change the context (`State.idled`, `Ctx.beaten`); BRK and TRAP stop with their traps; HALT
leaves `State.haltedBy`. -/
theorem idleAndStopResults : Obligations.IdleAndStopResults := by
  unfold Obligations.IdleAndStopResults
  refine ⟨fun g a s hg hready hstop => ?_, fun g imm s hg hfree => ?_, fun g s hg => ?_⟩
  · refine ⟨instr_ok hg rfl, instrC_ok rfl, ?_, fun i hi => ?_⟩
    · exact ⟨_, execIdle_next hg (hready a List.mem_cons_self), s.idled_retire _ hstop⟩
    · rcases hi with rfl | rfl
      · exact ⟨_, instrC_ok (beatBody_eq s), s.beaten_retire 2⟩
      · exact ⟨_, instr_ok hg (beatBody_eq s), s.beaten_retire 4⟩
  · obtain ⟨htrap, hbytes⟩ := State.stopWith_trap hfree
      ⟨0x19, 0, dw (2 ^ 31 + (imm % (if g.isGuarded then 256 else 8192)).toNat)⟩
    exact ⟨⟨_, execBrk_next hg, State.stopWith_trap hfree ⟨0x1A, 0, dw (2 ^ 31)⟩⟩,
      ⟨_, execBrkC_next, State.stopWith_trap hfree ⟨0x1A, 0, dw (2 ^ 31)⟩⟩, _, execTrap_next hg imm, hbytes, htrap⟩
  · refine ⟨_, execHalt_next hg, ?_⟩
    rw [State.me_haltedBy, State.cx_haltedBy]
    exact ⟨rfl, rfl, rfl, rfl, rfl, State.cx_retire_x s 4, s.haltedBy_sameBytes, fun c hc => s.core_haltedBy_ne hc⟩

end Sys2Proof.Machine
end

/-! PROOFS. Scratchpad loads and stores (R248, R249, R252, R254 to R256): their addresses and checks, their results, their frames. Here
O12 and O13 are settled. -/

section
namespace Sys2Proof.Machine

/-! ## Instruction forms (R203, R248) -/

section
variable {g : Guard} {body : State → Act} {s : State}

/-- A guarded instruction whose guard passes runs its effect. -/
theorem instr_eq_finish (hg : s.guardPasses g = true) : instr g body s = s.finish 4 (body s) := if_pos hg

theorem State.finish_ok (s t : State) (len : Nat) : s.finish len (.ok t) = .next (t.retire len) := rfl

theorem State.finish_error (s : State) (len : Nat) (e : Stop) : s.finish len (.error e) = .next (s.stopWith e) := rfl

/-- With the trap context free, a fault of the effect is a trap of the instruction that changes no byte (R360). -/
theorem State.finish_trap {q : TrapInfo} {r : Act} (hfree : s.trapFree) (hr : r = .error (.trap q)) (len : Nat) :
    ∃ t, s.finish len r = .next t ∧ s.trapsTo t q.cause q.faddr q.finfo ∧ s.sameBytes t := by
  subst hr
  exact ⟨_, rfl, State.stopWith_trap hfree q⟩

end

/-! ## Addresses (R252, R254, R256) -/

section
variable {s : State} {a b : Reg} {ea : DWord} {k : Nat}

theorem State.addrOff_free (ha : s.regFree a = true) (off : Int) (n : Nat) :
    State.addrOff a off n s = .ok (s.cx.xr a + BitVec.ofInt 64 (off * n)) := by
  unfold State.addrOff
  rw [s.rdX_free a ha]
  rfl

theorem State.addrIx_free (ha : s.regFree a = true) (hb : s.regFree b = true) (n : Nat) :
    State.addrIx a b n s = .ok (s.cx.xr a + s.cx.xr b * dw n) := by
  unfold State.addrIx
  rw [s.rdX_free a ha, s.rdX_free b hb]
  rfl

/-- LDD.C and STD.C have no offset (R248). -/
theorem State.addrOff_zero (ha : s.regFree a = true) (n : Nat) : State.addrOff a 0 n s = .ok (s.cx.xr a) := by
  rw [State.addrOff_free ha, Int.zero_mul]
  exact congrArg Except.ok (BitVec.add_zero _)

/-- LDS.C and STS.C address doublewords from x31 on (R249). -/
theorem State.addrOff_doubleword (ha : s.regFree a = true) (n : Nat) :
    State.addrOff a n 8 s = .ok (s.cx.xr a + dw (8 * n)) := by
  rw [State.addrOff_free ha, Nat.mul_comm 8 n]
  rfl

/-- An access of `k` bytes that lie in the scratchpad, aligned to their number, passes the checks. -/
theorem spadEA_inSpad (hk8 : k ≤ 8) (h : inSpad ea k) : spadEA ea k = .ok ea.toNat := by
  obtain ⟨hend, halign⟩ := h
  have hbound : decide (ea.toNat + k - 1 ≤ 0x3FFFF) = true := decide_eq_true (by omega)
  unfold spadEA spadCheck
  rw [hbound, Nat.min_eq_left hk8, decide_eq_true halign]
  rfl

/-- An address beyond the end is 0x06, aligned or not. -/
theorem spadEA_beyond (h : 0x40000 < ea.toNat + k) : spadEA ea k = .error (.trap ⟨0x06, ea, 0⟩) := by
  have hbound : decide (ea.toNat + k - 1 ≤ 0x3FFFF) = false := decide_eq_false (by omega)
  unfold spadEA spadCheck
  rw [hbound]
  rfl

theorem spadEA_misaligned (hk8 : k ≤ 8) (hend : ea.toNat + k ≤ 0x40000) (halign : ea.toNat % k ≠ 0) :
    spadEA ea k = .error (.trap ⟨0x05, ea, 0⟩) := by
  have hbound : decide (ea.toNat + k - 1 ≤ 0x3FFFF) = true := decide_eq_true (by omega)
  unfold spadEA spadCheck
  rw [hbound, Nat.min_eq_left hk8, decide_eq_false halign]
  rfl

/-- An effect that goes on from the address checks of R252 traps where they fail. -/
theorem State.finish_spadEA {f : Nat → Act} {r : Act} (hfree : s.trapFree) (hk8 : k ≤ 8)
    (hr : r = spadEA ea k >>= f) (len : Nat) :
    (0x40000 < ea.toNat + k → ∃ t, s.finish len r = .next t ∧ s.trapsTo t 0x06 ea 0 ∧ s.sameBytes t) ∧
      (ea.toNat + k ≤ 0x40000 → ea.toNat % k ≠ 0 →
        ∃ t, s.finish len r = .next t ∧ s.trapsTo t 0x05 ea 0 ∧ s.sameBytes t) := by
  refine ⟨fun h => ?_, fun hend halign => ?_⟩
  · exact State.finish_trap (q := ⟨0x06, ea, 0⟩) hfree (by rw [hr, spadEA_beyond h]; rfl) len
  · exact State.finish_trap (q := ⟨0x05, ea, 0⟩) hfree (by rw [hr, spadEA_misaligned hk8 hend halign]; rfl) len

end

/-! ## Loads (R254) -/

section
variable {s : State} {d : Reg} {ea : DWord} {k : Nat} {addr : State → Except Stop DWord}

/-- The low `n` bytes of a number, widened with their sign or with zeros (R251). -/
theorem extend_eq (n : Nat) (signed : Bool) (v : Nat) : extend n signed v =
    if signed then (BitVec.ofNat (8 * n) v).signExtend 64 else (BitVec.ofNat (8 * n) v).setWidth 64 := by
  unfold extend
  cases signed with
  | true => rfl
  | false =>
    apply BitVec.eq_of_toNat_eq
    simp [dw]

/-- What a scratchpad load writes: the bytes at its address, widened. -/
def State.spadValue (s : State) (ea : DWord) (k : Nat) (signed : Bool) : DWord :=
  let v := BitVec.ofNat (8 * k) (s.me.spad.readNat ea.toNat k)
  if signed then v.signExtend 64 else v.setWidth 64

theorem KMap.find_eq_none {α : Type} {m : KMap α} {i : Nat} (h : ∀ w ∈ m, w.1 ≠ i) : m.find i = none := by
  induction m with
  | nil => rfl
  | cons e r ih =>
    obtain ⟨j, v⟩ := e
    have hne : i ≠ j := fun hij => h _ List.mem_cons_self hij.symm
    unfold KMap.find
    rw [if_neg hne]
    exact ih fun w hw => h w (List.mem_cons_of_mem _ hw)

/-- The words that `n` bytes meet are those from the word of the first byte to the word of the last. -/
theorem mem_wordsOf {a n w : Nat} (hn : 0 < n) : w ∈ wordsOf a n ↔ a / 8 ≤ w ∧ w ≤ (a + n - 1) / 8 := by
  unfold wordsOf
  simp only [List.mem_map, mem_upto]
  constructor
  · rintro ⟨i, hi, rfl⟩
    omega
  · rintro ⟨hlow, hhigh⟩
    exact ⟨w - a / 8, by omega, by omega⟩

/-- Where no word of a range holds a release, reading the range observes nothing (R98). -/
theorem State.spadSeen_unreleased {a n : Nat} (hn : 0 < n) (h : ∀ w ∈ s.me.spadRel, w.1 < a / 8 ∨ (a + n - 1) / 8 < w.1) :
    s.spadSeen a n = s := by
  have hnone : ((wordsOf a n).filterMap fun w => (s.me.spadRel.find w).map fun m => (⟨some s.cur, 1, m⟩ : Rel)) = [] := by
    rw [List.filterMap_eq_nil_iff]
    intro w hw
    obtain ⟨hlow, hhigh⟩ := (mem_wordsOf hn).mp hw
    rw [KMap.find_eq_none fun e he hew => by have := h e he; omega]
    rfl
  unfold State.spadSeen
  rw [hnone]
  rfl

/-- Once the gate, the address and the destination are ready, a load goes on with the checks of its address. -/
theorem spadLoad_eq (hgate : s.ungated) (haddr : addr s = .ok ea) (hd : s.regFree d = true) (signed : Bool) :
    spadLoad k signed d addr s = spadEA ea k >>= fun p => s.spadSound p k >>= fun _ =>
      .ok ((s.putX d (extend k signed (s.spadNat p k))).spadSeen p k) := by
  unfold spadLoad
  rw [State.memGate_ungated hgate, ok_bind, haddr, ok_bind, s.regReady_free d hd, ok_bind]
  rfl

/-- A load of bytes that lie in the scratchpad, none of them lost, completes with their value; where no store after a FENCE.REL
wrote them, with nothing else. -/
theorem State.finish_spadLoad (hgate : s.ungated) (haddr : addr s = .ok ea) (hd : s.regFree d = true) (hk : 0 < k)
    (hk8 : k ≤ 8) (signed : Bool) (len : Nat) (hin : inSpad ea k) (hsound : s.sound ea.toNat k) :
    s.finish len (spadLoad k signed d addr s) =
        .next (((s.putX d (s.spadValue ea k signed)).spadSeen ea.toNat k).retire len) ∧
      ((∀ w ∈ s.me.spadRel, w.1 < ea.toNat / 8 ∨ (ea.toNat + k - 1) / 8 < w.1) →
        s.finish len (spadLoad k signed d addr s) = s.doneX d (s.spadValue ea k signed) len) := by
  have hload : s.finish len (spadLoad k signed d addr s) =
      .next (((s.putX d (s.spadValue ea k signed)).spadSeen ea.toNat k).retire len) := by
    rw [spadLoad_eq hgate haddr hd, spadEA_inSpad hk8 hin, ok_bind, State.spadSound_of_sound hsound, ok_bind, extend_eq]
    rfl
  refine ⟨hload, fun hrel => ?_⟩
  have hsame : (s.putX d (s.spadValue ea k signed)).me.spadRel = s.me.spadRel := by
    unfold State.putX
    rw [State.me_modCx]
    rfl
  rw [hload, State.spadSeen_unreleased hk (hsame ▸ hrel)]
  rfl

/-- A load whose first word is lost is fault 0x18 (R361, R367). -/
theorem State.finish_spadLoad_lost (hgate : s.ungated) (haddr : addr s = .ok ea) (hd : s.regFree d = true)
    (hfree : s.trapFree) (hk : 0 < k) (hk8 : k ≤ 8) (signed : Bool) (len : Nat) (hin : inSpad ea k)
    (hlost : ea.toNat / 8 ∈ s.me.spadLost) :
    ∃ t, s.finish len (spadLoad k signed d addr s) = .next t ∧ s.trapsTo t 0x18 ea 0 ∧ s.sameBytes t := by
  have hany : ((wordsOf ea.toNat k).any fun w => s.me.spadLost.contains w) = true :=
    List.any_eq_true.mpr ⟨ea.toNat / 8, (mem_wordsOf hk).mpr ⟨le_rfl, Nat.div_le_div_right (by omega)⟩, by simpa using hlost⟩
  have hstop : s.spadSound ea.toNat k = .error (.trap ⟨0x18, ea, 0⟩) := by
    have hea : dw ea.toNat = ea := by simp [dw]
    unfold State.spadSound
    rw [hany, hea]
    rfl
  refine State.finish_trap (q := ⟨0x18, ea, 0⟩) hfree ?_ len
  rw [spadLoad_eq hgate haddr hd, spadEA_inSpad hk8 hin, ok_bind, hstop]
  rfl

end

/-! ## Stores (R255) -/

section
variable {s : State} {d : Reg} {ea : DWord} {k : Nat} {addr : State → Except Stop DWord}

/-- Once the gate, the fence before it, the address and the data are ready, a store goes on with the checks of its address. -/
theorem spadStore_eq (hgate : s.ungated) (hrel : s.released) (haddr : addr s = .ok ea) (hd : s.regFree d = true) :
    spadStore k d addr s = spadEA ea k >>= fun p => .ok (s.spadPut p k (s.cx.xr d).toNat) := by
  unfold spadStore
  rw [State.memGate_ungated hgate, ok_bind, State.relWait_released hrel, ok_bind, haddr, ok_bind, s.rdX_free d hd, ok_bind]
  rfl

/-- A store changes its core's bytes, and what is noted of their words (R59). -/
theorem State.spadPutBytes_eq (s : State) (p : Nat) (b : List Byte) : ∃ f : Core → Core, s.spadPutBytes p b = s.modMe f ∧
    ∀ k, f k = { k with spad := k.spad.write p b, spadRel := (f k).spadRel, spadLost := (f k).spadLost } := by
  refine ⟨_, rfl, fun k => ?_⟩
  dsimp only
  split <;> rfl

/-- A store that retires changes its core's bytes, and of its context only what retiring changes. -/
theorem State.spadPutBytes_retire (s : State) (p : Nat) (b : List Byte) (len : Nat) :
    s.frameSpad ((s.spadPutBytes p b).retire len) ∧ ((s.spadPutBytes p b).retire len).me.full = s.me.full ∧
      ((s.spadPutBytes p b).retire len).me.spad = s.me.spad.write p b ∧
      ((s.spadPutBytes p b).retire len).cx.pc = s.cx.pc + dw len := by
  obtain ⟨f, heq, hf⟩ := s.spadPutBytes_eq p b
  rw [heq]
  have hctx (h : CtxId) : (f s.me).ctx h = s.me.ctx h := by rw [hf]; rfl
  have hcx : (s.modMe f).cx = s.cx := (s.cx_modMe f).trans (hctx s.curCtx)
  obtain ⟨-, hcores, hme, hctxs⟩ := (s.modMe f).retire_sameButCtx len
  rw [State.me_modMe] at hme hctxs
  refine ⟨⟨fun _ => rfl, rfl, fun c hc => (hcores c hc).trans (State.core_modCore_ne _ _ _ _ hc), ?_,
    fun h hh => (hctxs h hh).trans (hctx h), ?_⟩, ?_, ?_, ?_⟩
  · rw [hme, hf]
  · rw [State.cx_retire, hcx]
  · rw [hme, hf]
  · rw [hme, hf]
  · rw [State.cx_retire, hcx]

/-- A store of bytes that lie in the scratchpad completes: its bytes stand there, and no other byte has changed. -/
theorem State.finish_spadStore (hgate : s.ungated) (hrel : s.released) (haddr : addr s = .ok ea) (hd : s.regFree d = true)
    (hwf : s.me.spad.wf = true) (hk8 : k ≤ 8) (len : Nat) (hin : inSpad ea k) :
    ∃ t, s.finish len (spadStore k d addr s) = .next t ∧ t.cx.pc = s.cx.pc + dw len ∧
      t.me.spad.readNat ea.toNat k = (s.cx.xr d).toNat % 2 ^ (8 * k) ∧
      (∀ i, i < ea.toNat ∨ ea.toNat + k ≤ i → t.me.spad.get i = s.me.spad.get i) ∧ s.frameSpad t := by
  obtain ⟨hframe, -, hspad, hpc⟩ := s.spadPutBytes_retire ea.toNat (leBytes k (s.cx.xr d).toNat) len
  refine ⟨(s.spadPut ea.toNat k (s.cx.xr d).toNat).retire len, ?_, hpc, ?_, fun i hi => ?_, hframe⟩
  · rw [spadStore_eq hgate hrel haddr hd, spadEA_inSpad hk8 hin]
    rfl
  · unfold State.spadPut
    rw [hspad, Nat.pow_mul]
    exact Memory.readNat_writeNat _ _ _ _ hwf
  · unfold State.spadPut
    rw [hspad]
    exact Memory.get_write_out _ _ _ _ (by rwa [leBytes_length])

end

/-! ## What a stop leaves (R60, R253, R286, R360) -/

/-- A stop of an instruction leaves memory, the other cores, the bytes and full words of its own, and of its context all but why it
stands still and which requests it has. -/
structure State.OnlyStops (s t : State) : Prop where
  cur : t.cur = s.cur
  curCtx : t.curCtx = s.curCtx
  mem : t.mem = s.mem
  others : ∀ c, c ≠ s.cur → t.core c = s.core c
  spad : t.me.spad = s.me.spad
  full : t.me.full = s.me.full
  cx : t.cx = { s.cx with stop := t.cx.stop, reqs := t.cx.reqs }

/-- The stops that change nothing but the context that stops, and the trap context. -/
def Stop.own : Stop → Prop
  | .trap _ => True
  | .deferred _ _ => True
  | .wait => True
  | .trapIn _ _ => False
  | .waitIn _ => False
  | .waitFe _ _ _ => False

section
variable {s t u : State} {d a b r : Reg} {ea : DWord} {k len : Nat} {addr : State → Except Stop DWord}

theorem State.OnlyStops.trans (h : s.OnlyStops t) (g : t.OnlyStops u) : s.OnlyStops u where
  cur := g.cur.trans h.cur
  curCtx := g.curCtx.trans h.curCtx
  mem := g.mem.trans h.mem
  others c hc := (g.others c (h.cur ▸ hc)).trans (h.others c hc)
  spad := g.spad.trans h.spad
  full := g.full.trans h.full
  cx := by rw [g.cx, h.cx]

theorem State.OnlyStops.of_modCx {f : Ctx → Ctx} (hf : ∀ x, f x = { x with stop := (f x).stop, reqs := (f x).reqs }) :
    s.OnlyStops (s.modCx f) where
  cur := rfl
  curCtx := rfl
  mem := rfl
  others c hc := State.core_modCore_ne _ _ _ _ hc
  spad := by rw [State.me_modCx]; rfl
  full := by rw [State.me_modCx]; rfl
  cx := by rw [State.cx_modCx]; exact hf s.cx

theorem Core.takeRec_eq (q : Core) (r : TrapRec) : q.takeRec r =
    { q with ctxs := (q.takeRec r).ctxs, trap := (q.takeRec r).trap, recs := (q.takeRec r).recs } := by
  unfold Core.takeRec
  split
  · rfl
  · split <;> rfl

theorem Core.takeRec_ctx_ne (q : Core) (r : TrapRec) {h : CtxId} (hh : h ≠ 13) : (q.takeRec r).ctx h = q.ctx h := by
  unfold Core.takeRec
  split
  · exact q.enterTrap_ctx_ne r hh
  · split
    · exact Core.enterTrap_ctx_ne { q with recs := insertRec q.trap q.recs } r hh
    · rfl

/-- The record of a fault of the issuing context reaches its core: the trap context takes it, it waits, or the core halts. -/
theorem State.OnlyStops.raise {r : TrapRec} (hr : r.ctx = s.curCtx.val) : s.OnlyStops (s.raise s.cur r) := by
  unfold State.raise
  by_cases h13 : r.ctx = 13
  · rw [if_pos h13]
    have hme : (((s.haltCore s.cur).modCore s.cur fun k => { k with recs := k.recs ++ [r] }).machineCheck 4 s.cur r.cause 0).me =
        { s.me with halted := true, recs := s.me.recs ++ [r] } := by
      rw [State.me_machineCheck]
      refine (State.core_modCore_self _ _ _).trans ?_
      unfold State.haltCore
      rw [State.core_modCore_self]
      rfl
    refine ⟨rfl, rfl, rfl, fun c hc => ?_, by rw [hme], by rw [hme], ?_⟩
    · have hrecs : ((s.haltCore s.cur).modCore s.cur fun k => { k with recs := k.recs ++ [r] }).core c = s.core c :=
        (State.core_modCore_ne _ _ _ _ hc).trans (State.core_modCore_ne _ _ _ _ hc)
      exact hrecs
    · unfold State.cx
      rw [hme]
      rfl
  · rw [if_neg h13]
    have hme : (s.modCore s.cur fun q => q.takeRec r).me = s.me.takeRec r := s.me_modMe _
    refine ⟨rfl, rfl, rfl, fun c hc => State.core_modCore_ne _ _ _ _ hc, ?_, ?_, ?_⟩
    · rw [hme, Core.takeRec_eq]
    · rw [hme, Core.takeRec_eq]
    · have hcx : (s.modCore s.cur fun q => q.takeRec r).cx = s.cx :=
        (s.cx_modMe _).trans (Core.takeRec_ctx_ne _ _ fun h => h13 (hr.trans (congrArg Fin.val h)))
      rw [hcx]

theorem State.stopWith_onlyStops {e : Stop} (he : e.own) : s.OnlyStops (s.stopWith e) := by
  cases e with
  | trap q => exact (State.OnlyStops.of_modCx fun _ => rfl).trans (State.OnlyStops.raise rfl)
  | deferred q i => exact (State.OnlyStops.of_modCx fun _ => rfl).trans (State.OnlyStops.raise rfl)
  | wait => exact State.OnlyStops.of_modCx fun _ => rfl
  | trapIn | waitIn | waitFe => exact he.elim

/-! ## How a store can end -/

theorem waitUntil_own {c : Bool} : Yields Stop.own (fun _ => True) (waitUntil c) := by
  cases c with
  | true => exact .ok trivial
  | false => exact .error trivial

theorem State.regReady_own : Yields Stop.own (fun _ => True) (s.regReady r) := by
  unfold State.regReady
  split
  · exact .ok trivial
  · split <;> exact .error trivial

theorem State.rdX_own : Yields Stop.own (· = s.cx.xr r) (s.rdX r) := State.regReady_own.bind fun _ _ => .ok rfl

theorem State.memGate_own : Yields Stop.own (fun _ => True) s.memGate := by
  unfold State.memGate
  split
  · split <;> exact .error trivial
  · exact waitUntil_own

theorem spadEA_own (hk8 : k ≤ 8) : Yields Stop.own (fun p => inSpad ea k ∧ p = ea.toNat) (spadEA ea k) := by
  by_cases hend : ea.toNat + k ≤ 0x40000
  · by_cases halign : ea.toNat % k = 0
    · rw [spadEA_inSpad hk8 ⟨hend, halign⟩]
      exact .ok ⟨⟨hend, halign⟩, rfl⟩
    · rw [spadEA_misaligned hk8 hend halign]
      exact .error trivial
  · rw [spadEA_beyond (by omega)]
    exact .error trivial

theorem State.addrOff_own (off : Int) (n : Nat) :
    Yields Stop.own (· = s.cx.xr a + BitVec.ofInt 64 (off * n)) (State.addrOff a off n s) :=
  State.rdX_own.bind fun _ hx => .ok (hx ▸ rfl)

theorem State.addrIx_own (n : Nat) : Yields Stop.own (· = s.cx.xr a + s.cx.xr b * dw n) (State.addrIx a b n s) :=
  State.rdX_own.bind fun _ hx => State.rdX_own.bind fun _ hy => .ok (hx ▸ hy ▸ rfl)

/-- A store stops, or its bytes lie in the scratchpad and it writes them. -/
theorem spadStore_own (hk8 : k ≤ 8) (haddr : Yields Stop.own (· = ea) (addr s)) :
    Yields Stop.own (fun u => inSpad ea k ∧ u = s.spadPut ea.toNat k (s.cx.xr d).toNat) (spadStore k d addr s) :=
  State.memGate_own.bind fun _ _ => waitUntil_own.bind fun _ _ => haddr.bind fun _ hva => State.rdX_own.bind fun _ hv => by
    subst hva hv
    exact (spadEA_own hk8).bind fun _ ⟨hin, hp⟩ => .ok ⟨hin, hp ▸ rfl⟩

/-- What a store leaves, however it ends. -/
def State.storeLeaves (s t : State) (ea : DWord) (k : Nat) : Prop :=
  (∀ i, t.mem.get i = s.mem.get i) ∧
    (∀ i, i < ea.toNat ∨ ea.toNat + k ≤ i → t.me.spad.get i = s.me.spad.get i) ∧
    (∀ c, c ≠ s.cur → t.core c = s.core c) ∧ t.me.full = s.me.full ∧ t.cx.x = s.cx.x ∧ t.cx.f = s.cx.f ∧
    t.cx.v = s.cx.v ∧ t.cx.p = s.cx.p ∧ t.cx.b = s.cx.b ∧ t.cx.fflags = s.cx.fflags ∧
    (¬inSpad ea k → ∀ i, t.me.spad.get i = s.me.spad.get i)

theorem State.OnlyStops.storeLeaves (h : s.OnlyStops t) : s.storeLeaves t ea k := by
  unfold State.storeLeaves
  rw [h.mem, h.spad, h.full, h.cx]
  exact ⟨fun _ => rfl, fun _ _ => rfl, h.others, rfl, rfl, rfl, rfl, rfl, rfl, rfl, fun _ _ => rfl⟩

theorem State.retire_storeLeaves : s.storeLeaves (s.retire len) ea k := by
  obtain ⟨-, hcores, hme, -⟩ := s.retire_sameButCtx len
  unfold State.storeLeaves
  rw [State.cx_retire, hme]
  exact ⟨fun _ => rfl, fun _ _ => rfl, hcores, rfl, rfl, rfl, rfl, rfl, rfl, rfl, fun _ _ => rfl⟩

theorem State.spadPut_storeLeaves (hin : inSpad ea k) (v : Nat) :
    s.storeLeaves ((s.spadPut ea.toNat k v).retire len) ea k := by
  obtain ⟨⟨hmem, -, hcores, -, -, hcx⟩, hfull, hspad, -⟩ := s.spadPutBytes_retire ea.toNat (leBytes k v) len
  unfold State.storeLeaves State.spadPut
  rw [hfull, hspad, hcx]
  exact ⟨hmem, fun i hi => Memory.get_write_out _ _ _ _ (by rwa [leBytes_length]), hcores, rfl, rfl, rfl, rfl, rfl, rfl, rfl,
    fun hout => absurd hin hout⟩

theorem State.finish_spadStore_leaves (hk8 : k ≤ 8) (haddr : Yields Stop.own (· = ea) (addr s))
    (ht : s.finish len (spadStore k d addr s) = .next t) : s.storeLeaves t ea k := by
  have hout := spadStore_own (d := d) hk8 haddr
  cases hbody : spadStore k d addr s with
  | ok u =>
    rw [hbody] at ht
    obtain ⟨hin, rfl⟩ := hout.ok_of_eq hbody
    obtain rfl := Host.Outcome.next.inj ht
    exact State.spadPut_storeLeaves hin _
  | error e =>
    rw [hbody] at ht
    obtain rfl := Host.Outcome.next.inj ht
    exact (State.stopWith_onlyStops (hout.error_of_eq hbody)).storeLeaves

end

/-! ## The instructions -/

section
variable (s : State) (g : Guard) (d a b : Reg) (off : Int) (n : Nat)

/-- A scratchpad load: its bytes, whether it extends their sign, its address. -/
structure LoadForm where
  instr : Instr
  bytes : Nat
  signed : Bool
  ea : DWord

/-- A scratchpad store: its bytes and its address. -/
structure StoreForm where
  instr : Instr
  bytes : Nat
  ea : DWord

/-- The loads of 32 bits (R254, R256). -/
noncomputable def State.wideLoads : List LoadForm :=
  let at_ (k : Nat) : DWord := s.cx.xr a + BitVec.ofInt 64 (off * k)
  let ix (k : Nat) : DWord := s.cx.xr a + s.cx.xr b * dw k
  [⟨.ldb g d a off, 1, true, at_ 1⟩, ⟨.ldh g d a off, 2, true, at_ 2⟩, ⟨.ldw g d a off, 4, true, at_ 4⟩,
    ⟨.ldd g d a off, 8, false, at_ 8⟩, ⟨.ldbu g d a off, 1, false, at_ 1⟩, ⟨.ldhu g d a off, 2, false, at_ 2⟩,
    ⟨.ldwu g d a off, 4, false, at_ 4⟩, ⟨.ldxb g d a b, 1, true, ix 1⟩, ⟨.ldxh g d a b, 2, true, ix 2⟩,
    ⟨.ldxw g d a b, 4, true, ix 4⟩, ⟨.ldxd g d a b, 8, false, ix 8⟩, ⟨.ldxbu g d a b, 1, false, ix 1⟩,
    ⟨.ldxhu g d a b, 2, false, ix 2⟩, ⟨.ldxwu g d a b, 4, false, ix 4⟩]

/-- The loads of 16 bits (R248, R249). -/
noncomputable def State.shortLoads : List LoadForm :=
  [⟨.lddC d a, 8, false, s.cx.xr a⟩, ⟨.ldsC d n, 8, false, s.cx.xr 31 + dw (8 * n)⟩]

/-- The stores of 32 bits (R255, R256). -/
noncomputable def State.wideStores : List StoreForm :=
  let at_ (k : Nat) : DWord := s.cx.xr a + BitVec.ofInt 64 (off * k)
  let ix (k : Nat) : DWord := s.cx.xr a + s.cx.xr b * dw k
  [⟨.stb g d a off, 1, at_ 1⟩, ⟨.sth g d a off, 2, at_ 2⟩, ⟨.stw g d a off, 4, at_ 4⟩, ⟨.std g d a off, 8, at_ 8⟩,
    ⟨.stxb g d a b, 1, ix 1⟩, ⟨.stxh g d a b, 2, ix 2⟩, ⟨.stxw g d a b, 4, ix 4⟩, ⟨.stxd g d a b, 8, ix 8⟩]

/-- The stores of 16 bits (R248, R249). -/
noncomputable def State.shortStores : List StoreForm := [⟨.stdC d a, 8, s.cx.xr a⟩, ⟨.stsC d n, 8, s.cx.xr 31 + dw (8 * n)⟩]

/-- An instruction is `spadLoad` at its address. -/
def State.loadsBy (s : State) (d : Reg) (run : (State → Act) → State → Out) (e : LoadForm) : Prop :=
  ∃ addr, exec e.instr s = run (spadLoad e.bytes e.signed d addr) s ∧ addr s = .ok e.ea ∧ 0 < e.bytes ∧ e.bytes ≤ 8

/-- An instruction is `spadStore` at its address, whose registers may still be waited for. -/
def State.storesBy (s : State) (ready : Prop) (d : Reg) (run : (State → Act) → State → Out) (e : StoreForm) : Prop :=
  ∃ addr, exec e.instr s = run (spadStore e.bytes d addr) s ∧ (ready → addr s = .ok e.ea) ∧
    Yields Stop.own (· = e.ea) (addr s) ∧ e.bytes ≤ 8

theorem State.wideLoads_load (hready : s.xReady [d, a, b, 31]) : ∀ e ∈ s.wideLoads g d a b off, s.loadsBy d (instr g) e := by
  have at_ (k : Nat) := State.addrOff_free (hready a (by simp)) off k
  have ix (k : Nat) := State.addrIx_free (hready a (by simp)) (hready b (by simp)) k
  unfold State.wideLoads
  simp only [List.forall_mem_cons]
  exact ⟨⟨_, rfl, at_ 1, by simp⟩, ⟨_, rfl, at_ 2, by simp⟩, ⟨_, rfl, at_ 4, by simp⟩, ⟨_, rfl, at_ 8, by simp⟩,
    ⟨_, rfl, at_ 1, by simp⟩, ⟨_, rfl, at_ 2, by simp⟩, ⟨_, rfl, at_ 4, by simp⟩, ⟨_, rfl, ix 1, by simp⟩,
    ⟨_, rfl, ix 2, by simp⟩, ⟨_, rfl, ix 4, by simp⟩, ⟨_, rfl, ix 8, by simp⟩, ⟨_, rfl, ix 1, by simp⟩,
    ⟨_, rfl, ix 2, by simp⟩, ⟨_, rfl, ix 4, by simp⟩, fun _ h => absurd h List.not_mem_nil⟩

theorem State.shortLoads_load (hready : s.xReady [d, a, b, 31]) : ∀ e ∈ s.shortLoads d a n, s.loadsBy d instrC e := by
  unfold State.shortLoads
  simp only [List.forall_mem_cons]
  exact ⟨⟨_, rfl, State.addrOff_zero (hready a (by simp)) 8, by simp⟩,
    ⟨_, rfl, State.addrOff_doubleword (hready 31 (by simp)) n, by simp⟩, fun _ h => absurd h List.not_mem_nil⟩

theorem State.wideStores_store :
    ∀ e ∈ s.wideStores g d a b off, s.storesBy (s.xReady [d, a, b, 31]) d (instr g) e := by
  have at_ (k : Nat) (h : s.xReady [d, a, b, 31]) := State.addrOff_free (h a (by simp)) off k
  have ix (k : Nat) (h : s.xReady [d, a, b, 31]) := State.addrIx_free (h a (by simp)) (h b (by simp)) k
  have atOwn (k : Nat) := State.addrOff_own (s := s) (a := a) off k
  have ixOwn (k : Nat) := State.addrIx_own (s := s) (a := a) (b := b) k
  unfold State.wideStores
  simp only [List.forall_mem_cons]
  exact ⟨⟨_, rfl, at_ 1, atOwn 1, by simp⟩, ⟨_, rfl, at_ 2, atOwn 2, by simp⟩, ⟨_, rfl, at_ 4, atOwn 4, by simp⟩,
    ⟨_, rfl, at_ 8, atOwn 8, by simp⟩, ⟨_, rfl, ix 1, ixOwn 1, by simp⟩, ⟨_, rfl, ix 2, ixOwn 2, by simp⟩,
    ⟨_, rfl, ix 4, ixOwn 4, by simp⟩, ⟨_, rfl, ix 8, ixOwn 8, by simp⟩, fun _ h => absurd h List.not_mem_nil⟩

theorem State.shortStores_store :
    ∀ e ∈ s.shortStores d a n, s.storesBy (s.xReady [d, a, b, 31]) d instrC e := by
  have hzero : s.cx.xr a + BitVec.ofInt 64 (0 * (8 : Nat)) = s.cx.xr a := by rw [Int.zero_mul]; exact BitVec.add_zero _
  have hword : s.cx.xr 31 + BitVec.ofInt 64 (n * (8 : Nat)) = s.cx.xr 31 + dw (8 * n) := by rw [Nat.mul_comm 8 n]; rfl
  unfold State.shortStores
  simp only [List.forall_mem_cons]
  exact ⟨⟨_, rfl, fun h => State.addrOff_zero (h a (by simp)) 8, hzero ▸ State.addrOff_own 0 8, by simp⟩,
    ⟨_, rfl, fun h => State.addrOff_doubleword (h 31 (by simp)) n, hword ▸ State.addrOff_own n 8, by simp⟩,
    fun _ h => absurd h List.not_mem_nil⟩

end

/-! ## What the obligations say of each -/

section
variable {s t : State} {d : Reg} {len : Nat} {run : (State → Act) → State → Out} {ready : Prop}

theorem State.loadsBy.completes {e : LoadForm} (h : s.loadsBy d run e) (hrun : ∀ body, run body s = s.finish len (body s))
    (hgate : s.ungated) (hd : s.regFree d = true) (hin : inSpad e.ea e.bytes) (hsound : s.sound e.ea.toNat e.bytes) :
    exec e.instr s = .next (((s.putX d (s.spadValue e.ea e.bytes e.signed)).spadSeen e.ea.toNat e.bytes).retire len) ∧
      ((∀ w ∈ s.me.spadRel, w.1 < e.ea.toNat / 8 ∨ (e.ea.toNat + e.bytes - 1) / 8 < w.1) →
        exec e.instr s = s.doneX d (s.spadValue e.ea e.bytes e.signed) len) := by
  obtain ⟨addr, hexec, haddr, hk, hk8⟩ := h
  rw [hexec, hrun]
  exact State.finish_spadLoad hgate haddr hd hk hk8 e.signed len hin hsound

/-- An address beyond the end is 0x06, else a misaligned one 0x05 (R252). -/
def State.addressFaults (s : State) (i : Instr) (ea : DWord) (k : Nat) : Prop :=
  (0x40000 < ea.toNat + k → ∃ t, exec i s = .next t ∧ s.trapsTo t 0x06 ea 0 ∧ s.sameBytes t) ∧
    (ea.toNat + k ≤ 0x40000 → ea.toNat % k ≠ 0 → ∃ t, exec i s = .next t ∧ s.trapsTo t 0x05 ea 0 ∧ s.sameBytes t)

theorem State.loadsBy.faults {e : LoadForm} (h : s.loadsBy d run e) (hrun : ∀ body, run body s = s.finish len (body s))
    (hgate : s.ungated) (hd : s.regFree d = true) (hfree : s.trapFree) : s.addressFaults e.instr e.ea e.bytes := by
  obtain ⟨addr, hexec, haddr, -, hk8⟩ := h
  unfold State.addressFaults
  rw [hexec, hrun]
  exact State.finish_spadEA hfree hk8 (spadLoad_eq hgate haddr hd e.signed) len

theorem State.loadsBy.lost {e : LoadForm} (h : s.loadsBy d run e) (hrun : ∀ body, run body s = s.finish len (body s))
    (hgate : s.ungated) (hd : s.regFree d = true) (hfree : s.trapFree) (hin : inSpad e.ea e.bytes)
    (hlost : e.ea.toNat / 8 ∈ s.me.spadLost) :
    ∃ t, exec e.instr s = .next t ∧ s.trapsTo t 0x18 e.ea 0 ∧ s.sameBytes t := by
  obtain ⟨addr, hexec, haddr, hk, hk8⟩ := h
  rw [hexec, hrun]
  exact State.finish_spadLoad_lost hgate haddr hd hfree hk hk8 e.signed len hin hlost

theorem State.storesBy.faults {e : StoreForm} (h : s.storesBy ready d run e)
    (hrun : ∀ body, run body s = s.finish len (body s)) (hready : ready) (hgate : s.ungated) (hrel : s.released)
    (hd : s.regFree d = true) (hfree : s.trapFree) : s.addressFaults e.instr e.ea e.bytes := by
  obtain ⟨addr, hexec, haddr, -, hk8⟩ := h
  unfold State.addressFaults
  rw [hexec, hrun]
  exact State.finish_spadEA hfree hk8 (spadStore_eq hgate hrel (haddr hready) hd) len

theorem State.storesBy.completes {e : StoreForm} (h : s.storesBy ready d run e)
    (hrun : ∀ body, run body s = s.finish len (body s)) (hready : ready) (hgate : s.ungated) (hrel : s.released)
    (hd : s.regFree d = true) (hwf : s.me.spad.wf = true) (hin : inSpad e.ea e.bytes) :
    ∃ t, exec e.instr s = .next t ∧ t.cx.pc = s.cx.pc + dw len ∧
      t.me.spad.readNat e.ea.toNat e.bytes = (s.cx.xr d).toNat % 2 ^ (8 * e.bytes) ∧
      (∀ i, i < e.ea.toNat ∨ e.ea.toNat + e.bytes ≤ i → t.me.spad.get i = s.me.spad.get i) ∧ s.frameSpad t := by
  obtain ⟨addr, hexec, haddr, -, hk8⟩ := h
  rw [hexec, hrun]
  exact State.finish_spadStore hgate hrel (haddr hready) hd hwf hk8 len hin

theorem State.storesBy.leaves {e : StoreForm} (h : s.storesBy ready d run e)
    (hrun : ∀ body, run body s = s.finish len (body s) ∨ run body s = .next (s.retire len))
    (ht : exec e.instr s = .next t) : s.storeLeaves t e.ea e.bytes := by
  obtain ⟨addr, hexec, -, haddr, hk8⟩ := h
  rw [hexec] at ht
  rcases hrun (spadStore e.bytes d addr) with hbody | hbody
  · exact State.finish_spadStore_leaves hk8 haddr (hbody.symm.trans ht)
  · obtain rfl := Host.Outcome.next.inj (hbody.symm.trans ht)
    exact State.retire_storeLeaves

end

/-- Settles O12: every load is `spadLoad` at its address (`State.wideLoads_load`, `State.shortLoads_load`), which completes
(`State.finish_spadLoad`) or meets a lost word (`State.finish_spadLoad_lost`); where the address fails its checks, a load and a store
trap (`State.finish_spadEA`). -/
theorem scratchpadLoadResults : Obligations.ScratchpadLoadResults := by
  unfold Obligations.ScratchpadLoadResults
  refine ⟨fun g d a b off n s hg hready hgate => ?_, fun g d a b off n s hg hready hgate hrel hfree => ?_⟩
  · have hd := hready d (by simp)
    have hshort := s.shortLoads_load d a b n hready
    refine ⟨?_, ?_, ?_⟩
    · show ∀ e ∈ (s.wideLoads g d a b off).map fun e => (e.instr, e.bytes, e.signed, e.ea), _
      refine List.forall_mem_map.mpr fun e he => ?_
      exact (s.wideLoads_load g d a b off hready e he).completes (fun _ => instr_eq_finish hg) hgate hd
    · exact (hshort _ List.mem_cons_self).completes (fun _ => rfl) hgate hd
    · exact (hshort _ (List.mem_cons_of_mem _ List.mem_cons_self)).completes (fun _ => rfl) hgate hd
  · have hd := hready d (by simp)
    have hwide := s.wideLoads_load g d a b off hready
    have hshort := s.shortLoads_load d a b n hready
    refine ⟨?_, ?_⟩
    · show ∀ e ∈ ((s.wideLoads g d a b off ++ s.shortLoads d a n).map fun e => (e.instr, e.bytes, e.ea)) ++
        ((s.wideStores g d a b off ++ s.shortStores d a n).map fun e => (e.instr, e.bytes, e.ea)), _
      refine List.forall_mem_append.mpr ⟨List.forall_mem_map.mpr (List.forall_mem_append.mpr ⟨fun e he => ?_, fun e he => ?_⟩),
        List.forall_mem_map.mpr (List.forall_mem_append.mpr ⟨fun e he => ?_, fun e he => ?_⟩)⟩
      · exact (hwide e he).faults (fun _ => instr_eq_finish hg) hgate hd hfree
      · exact (hshort e he).faults (fun _ => rfl) hgate hd hfree
      · exact (s.wideStores_store g d a b off e he).faults (fun _ => instr_eq_finish hg) hready hgate hrel hd hfree
      · exact (s.shortStores_store d a b n e he).faults (fun _ => rfl) hready hgate hrel hd hfree
    · show ∀ e ∈ (s.wideLoads g d a b off ++ s.shortLoads d a n).map fun e => (e.instr, e.bytes, e.ea), _
      refine List.forall_mem_map.mpr (List.forall_mem_append.mpr ⟨fun e he => ?_, fun e he => ?_⟩)
      · exact (hwide e he).lost (fun _ => instr_eq_finish hg) hgate hd hfree
      · exact (hshort e he).lost (fun _ => rfl) hgate hd hfree

/-- Settles O13: every store is `spadStore` at its address (`State.wideStores_store`, `State.shortStores_store`), which writes its
bytes (`State.finish_spadStore`) or stops (`State.finish_spadStore_leaves`). -/
theorem scratchpadStoreResults : Obligations.ScratchpadStoreResults := by
  unfold Obligations.ScratchpadStoreResults
  refine ⟨fun g d a b off n s hg hready hgate hrel hwf => ?_, fun g d a b off n s t => ?_⟩
  · have hd := hready d (by simp)
    show ∀ e ∈ ((s.wideStores g d a b off).map fun e => (e.instr, e.bytes, 4, e.ea)) ++
      ((s.shortStores d a n).map fun e => (e.instr, e.bytes, 2, e.ea)), _
    refine List.forall_mem_append.mpr ⟨List.forall_mem_map.mpr fun e he => ?_, List.forall_mem_map.mpr fun e he => ?_⟩
    · exact (s.wideStores_store g d a b off e he).completes (fun _ => instr_eq_finish hg) hready hgate hrel hd hwf
    · exact (s.shortStores_store d a b n e he).completes (fun _ => rfl) hready hgate hrel hd hwf
  · show ∀ e ∈ (s.wideStores g d a b off ++ s.shortStores d a n).map fun e => (e.instr, e.bytes, e.ea), _
    refine List.forall_mem_map.mpr (List.forall_mem_append.mpr ⟨fun e he => ?_, fun e he => ?_⟩)
    · exact (s.wideStores_store g d a b off e he).leaves fun body => by
        by_cases hg : s.guardPasses g = true
        · exact .inl (instr_eq_finish hg)
        · exact .inr (instr_off (by simpa using hg))
    · exact (s.shortStores_store d a b n e he).leaves fun _ => .inl rfl

end Sys2Proof.Machine
end

/-! PROOFS. Requests beyond the core (R353). Here O40 is refuted. -/

section
namespace Sys2Proof.Machine

/-- Without a credit of queue 16 no request enters the fallback queue. -/
theorem State.toQueue_noCredit {s : State} (hq : (s.hostQ.get 16).credit = false) (c : CoreId) (h : CtxId) (q : Req) (op : Nat)
    (unsupported : Bool) : s.toQueue c h q op unsupported = none := by
  unfold State.toQueue
  rw [hq]
  cases s.fallbackId <;> rfl

/-- An atomic operation on a host page with HA. -/
def hostAtomic : Req :=
  { id := 1, kind := .atomic 0, pc := 0, va := 0x50000, pa := 2 ^ 50, size := 8, dest := some 4, data := 5, aux := 0, obj := false,
    ha := true, queue := false, again := false, enc := false, gate := false, epoch := 0, scope := 6, sent := true, fb := none,
    reply := none, fault := none, seen := [] }

/-- Beside it stands a request of the same number that is in the fallback queue. -/
def twinAtomics : State := State.reset.modCx fun x => { x with reqs := [hostAtomic, { hostAtomic with fb := some 0 }] }

/-- What ATOMICOP_UNSUPPORTED leaves of `twinAtomics`: each request with the number of the first is marked. -/
theorem exec_atomicopUnsupported_twinAtomics : exec (.atomicopUnsupported 0 0 0) twinAtomics =
    .next ((twinAtomics.hostPageAdd 0 (2 ^ 50)).modReq 0 0 1 fun r => { r with obj := true }) := by
  have hreq : twinAtomics.reqAt 0 0 0 = some hostAtomic := rfl
  have hopen : (hostAtomic.fault.isSome || hostAtomic.fb.isSome || hostAtomic.reply.isSome || hostAtomic.obj ||
    !inHost hostAtomic.pa || hostAtomic.queue || !twinAtomics.writeOpen 0 0 0 hostAtomic) = false := by decide
  show happen _ (twinAtomics.tryUnsupported 0 0 0) = _
  unfold State.tryUnsupported
  simp only [hreq]
  rw [show hostAtomic.kind = .atomic 0 from rfl]
  simp only [hopen]
  rw [State.toQueue_noCredit]
  · rfl
  · rfl

/-- Refutes O40: the clause of a request that waits for a credit of queue 16 says of every request with its number that `fb` stays that
of the one that is answered. No premise says that the numbers of a context's requests are distinct: in `twinAtomics` the second one
keeps its own `fb`. -/
theorem not_requestHappenings : ¬ Obligations.RequestHappenings := by
  unfold Obligations.RequestHappenings
  intro hall
  obtain ⟨-, -, -, -, hunsupported, -⟩ := hall 0 0 0 hostAtomic twinAtomics rfl rfl rfl rfl
  obtain ⟨t, ht, -, -, hwaits⟩ := hunsupported 0 rfl rfl rfl rfl (by decide) (by decide) rfl
  obtain ⟨-, -, hsame⟩ := hwaits rfl (by decide)
  obtain rfl := Host.Outcome.next.inj (exec_atomicopUnsupported_twinAtomics.symm.trans ht)
  obtain ⟨-, hfb⟩ := hsame { hostAtomic with obj := true, fb := some 0 } (by decide) rfl
  exact absurd hfb (by decide)

end Sys2Proof.Machine
end

/-! PROOFS. Lane-wise vector instructions (R117, R118, R125, R203, R272 to R275): what they write, which flags they set, what they leave.
Here O23 is settled. -/

section
namespace Sys2Proof.Machine

/-! ## Lanes written over a register -/

section
variable {w n : Nat}

/-- A register whose lanes of width w, `n` of them, a function gives; its other bits stay. -/
def overLanes (w n : Nat) (f : Nat → BitVec w) (old : Vec) : Vec := ofLanes w f n ||| lanesFrom w n old

theorem lanesFrom_getLsbD (v : Vec) (j : Nat) :
    (lanesFrom w n v).getLsbD j = (decide (w * n ≤ j) && v.getLsbD j) := by
  unfold lanesFrom
  rw [BitVec.getLsbD_shiftLeft, BitVec.getLsbD_ushiftRight]
  by_cases hj : w * n ≤ j
  · by_cases hlt : j < 1024
    · simp [hj, hlt, Nat.not_lt.mpr hj, Nat.add_sub_cancel' hj]
    · simp [hj, hlt, BitVec.getLsbD_of_ge v j (Nat.not_lt.mp hlt)]
  · simp [hj, Nat.lt_of_not_le hj]

theorem lane_overLanes (hw : 0 < w) (hn : w * n ≤ 1024) (f : Nat → BitVec w) (old : Vec) {l : Nat} (hl : l < n) :
    lane w l (overLanes w n f old) = f l := by
  rw [← lane_ofLanes hw f hl hn]
  have hend : w * l + w ≤ w * n := Nat.mul_le_mul_left w hl
  apply BitVec.eq_of_getLsbD_eq
  intro i hi
  have hin : ¬w * n ≤ w * l + i := by omega
  unfold lane overLanes
  simp only [BitVec.getLsbD_setWidth, BitVec.getLsbD_ushiftRight, BitVec.getLsbD_or, lanesFrom_getLsbD, decide_eq_false hin,
    Bool.false_and, Bool.or_false]

theorem overLanes_getLsbD_of_ge (hw : 0 < w) (f : Nat → BitVec w) (old : Vec) {j : Nat} (hj : w * n ≤ j) :
    (overLanes w n f old).getLsbD j = old.getLsbD j := by
  unfold overLanes
  rw [BitVec.getLsbD_or, ofLanes_getLsbD_of_ge hw f hj, lanesFrom_getLsbD, decide_eq_true hj, Bool.false_or, Bool.true_and]

end

/-! ## States that differ in the issuing context -/

section
variable {s t : State} {x : Ctx}

theorem State.onlyCtx_refl (s : State) : s.onlyCtx s s.cx :=
  ⟨⟨fun _ => rfl, fun _ _ => rfl⟩, rfl, fun _ _ => rfl, rfl, fun _ _ => rfl, rfl⟩

theorem State.onlyCtx_modCx (s : State) (f : Ctx → Ctx) : s.onlyCtx (s.modCx f) (f s.cx) := by
  obtain ⟨hmod, hcores, hme, hctx⟩ := s.modCx_sameButCtx f
  refine ⟨s.modCx_sameBytes f, hmod, hcores, ?_, hctx, ?_⟩
  · rw [hme]
  · rw [State.cx_modCx]

theorem State.onlyCtx.setSat (h : s.onlyCtx t x) (b : Bool) : s.onlyCtx (t.setSat b) x := by
  obtain ⟨hbytes, hmod, hcores, hme, hctx, hcx⟩ := h
  unfold State.setSat
  cases b with
  | false => exact ⟨hbytes, hmod, hcores, hme, hctx, hcx⟩
  | true =>
    have hcur : t.cur = s.cur := by rw [hmod]
    have hsame : (t.modMe fun k => { k with iflags := k.iflags ||| 1 }).cx = t.cx := State.cx_modMe_ctxs _ fun _ => rfl
    rw [if_pos rfl]
    refine ⟨State.sameBytes_trans hbytes (State.modCore_sameBytes _ _ _ fun _ => rfl), ?_,
      fun c hc => (State.core_modCore_ne _ _ _ _ (hcur ▸ hc)).trans (hcores c hc), ?_, ?_, ?_⟩
    · rw [hmod]
      rfl
    · rw [State.me_modMe, hme]
    · intro h hh
      rw [State.me_modMe]
      exact hctx h hh
    · rw [hsame]
      exact hcx

theorem State.onlyCtx.retire (h : s.onlyCtx t x) (len : Nat) : s.onlyCtx (t.retire len) x := by
  obtain ⟨hbytes, hmod, hcores, hme, hctx, hcx⟩ := h
  obtain ⟨hmod', hcores', hme', hctx'⟩ := t.retire_sameButCtx len
  have hcur : t.cur = s.cur := by rw [hmod]
  have hcurCtx : t.curCtx = s.curCtx := by rw [hmod]
  refine ⟨State.sameBytes_trans hbytes (t.retire_sameBytes len), ?_, fun c hc => (hcores' c (hcur ▸ hc)).trans (hcores c hc), ?_,
    fun i hi => (hctx' i (hcurCtx ▸ hi)).trans (hctx i hi), ?_⟩
  · rw [hmod', hmod]
  · rw [hme', hme]
  · rw [State.cx_retire, hcx]

end

/-! ## What a lane-wise instruction writes -/

section
variable {s : State} {g : Guard} {w n : Nat} {pl : Nat → Nat} {d : Reg} {f : Nat → LaneRes w}

/-- The flags of lanes, together. -/
def flagsOf (rs : List (BitVec 5 × Bool)) : BitVec 5 := rs.foldl (fun a r => a ||| r.1) 0

theorem foldl_or_getLsbD (rs : List (BitVec 5 × Bool)) (x : BitVec 5) (k : Nat) :
    (rs.foldl (fun a r => a ||| r.1) x).getLsbD k = (x.getLsbD k || rs.any fun r => r.1.getLsbD k) := by
  induction rs generalizing x with
  | nil => simp
  | cons r rs ih => rw [List.foldl_cons, ih, BitVec.getLsbD_or, List.any_cons, Bool.or_assoc]

theorem flagsOf_getLsbD (rs : List (BitVec 5 × Bool)) (k : Nat) : (flagsOf rs).getLsbD k = rs.any fun r => r.1.getLsbD k := by
  unfold flagsOf
  rw [foldl_or_getLsbD]
  simp

/-- What a lane operation leaves: register `d`, FFLAGS and IFLAGS. -/
theorem State.putV_laneFlags (s : State) (d : Reg) (v : Vec) (rs : List (BitVec 5 × Bool)) (len : Nat) :
    let t := ((s.putV d v).laneFlags rs).retire len
    t.cx.pc = s.cx.pc + dw len ∧ s.onlyCtx t { s.cx with v := vput s.cx.v d v, fflags := s.cx.fflags ||| flagsOf rs } ∧
      t.me.iflags = if rs.any (·.2) then s.me.iflags ||| 1 else s.me.iflags := by
  have hput : (s.putV d v).orFlags (flagsOf rs) =
      s.modCx fun x => { x with v := vput x.v d v, fflags := x.fflags ||| flagsOf rs } := s.modCx_modCx _ _
  have hpc : ((s.putV d v).laneFlags rs).cx.pc = s.cx.pc := by
    rw [(State.laneFlags_frame _ rs).1, State.cx_putV]
  refine ⟨by rw [State.cx_retire, hpc], ?_, ?_⟩
  · refine State.onlyCtx.retire (State.onlyCtx.setSat ?_ _) len
    exact hput ▸ s.onlyCtx_modCx _
  · rw [State.me_retire]
    show (((s.putV d v).orFlags (flagsOf rs)).setSat (rs.any (·.2))).me.iflags = _
    rw [hput]
    unfold State.setSat
    cases rs.any (·.2) with
    | true =>
      rw [if_pos rfl, if_pos rfl, State.me_modMe, State.me_modCx]
      rfl
    | false =>
      rw [if_neg Bool.false_ne_true, if_neg Bool.false_ne_true, State.me_modCx]
      rfl

/-- A register's new lanes, over what stood there. -/
def State.newLanes (s : State) (g : Guard) (w n : Nat) (pl : Nat → Nat) (d : Reg) (f : Nat → LaneRes w) : Vec :=
  overLanes w n (fun l => if s.lanePasses g (pl l) then (f l).1 else lane w l (s.cx.v.get d)) (s.cx.v.get d)

/-- The flags of the lanes that pass. -/
def State.passFlags (s : State) (g : Guard) (n : Nat) (pl : Nat → Nat) (f : Nat → LaneRes w) : List (BitVec 5 × Bool) :=
  ((upto n).filter fun l => s.lanePasses g (pl l)).map fun l => ((f l).2.1, (f l).2.2)

theorem State.passFlags_any (s : State) (g : Guard) (n : Nat) (pl : Nat → Nat) (f : Nat → LaneRes w)
    (P : BitVec 5 × Bool → Bool) :
    (s.passFlags g n pl f).any P = (List.range n).any fun l => s.lanePasses g (pl l) && P ((f l).2.1, (f l).2.2) := by
  unfold State.passFlags
  rw [List.any_map, List.any_filter, upto_eq_range]
  rfl

theorem State.writeLanes_noStream (hd : s.streamNamed d = none) :
    s.writeLanes g w n pl d f = .ok ((s.putV d (s.newLanes g w n pl d f)).laneFlags (s.passFlags g n pl f)) := by
  have hold : s.oldVec d = s.cx.v.get d := by
    unfold State.oldVec
    rw [hd]
    rfl
  unfold State.writeLanes
  rw [hold]
  dsimp only
  rw [State.writeVec_noStream hd]
  rfl

/-- Lanes that were written, and retired. -/
theorem State.lanesTo_of_next {i : Instr} (hw : 0 < w) (hn : w * n ≤ 1024)
    (hexec : exec i s = .next (((s.putV d (s.newLanes g w n pl d f)).laneFlags (s.passFlags g n pl f)).retire 4)) :
    s.lanesTo i g w n pl d f := by
  obtain ⟨hpc, honly, hsat⟩ := s.putV_laneFlags d (s.newLanes g w n pl d f) (s.passFlags g n pl f) 4
  obtain ⟨hbytes, hmod, hcores, hme, hctx, hcx⟩ := honly
  refine ⟨_, hexec, hpc, ⟨hbytes, hmod, hcores, hme, hctx, ?_⟩, fun l hl => ?_, fun j hj => ?_, fun r hr => ?_, fun k _ => ?_, ?_⟩
  · rw [hcx]
  · rw [hcx]
    dsimp only
    rw [vget_vput_self]
    exact lane_overLanes hw hn _ _ hl
  · rw [hcx]
    dsimp only
    rw [vget_vput_self]
    exact overLanes_getLsbD_of_ge hw _ _ hj
  · rw [hcx]
    exact vget_vput_ne _ _ _ _ hr
  · rw [hcx]
    dsimp only
    rw [BitVec.getLsbD_or, flagsOf_getLsbD, State.passFlags_any]
  · rw [hsat, State.passFlags_any]

/-- No lane passes: the instruction is passed by (R203). -/
theorem State.lanesTo_of_skip {i : Instr} (hnone : ∀ l, l < n → s.lanePasses g (pl l) = false)
    (hexec : exec i s = .next (s.retire 4)) : s.lanesTo i g w n pl d f := by
  have hany (P : Nat → Bool) : ((List.range n).any fun l => s.lanePasses g (pl l) && P l) = false := by
    rw [List.any_eq_false]
    intro l hl
    rw [hnone l (List.mem_range.mp hl)]
    simp
  obtain ⟨hbytes, hmod, hcores, hme, hctx, -⟩ := s.onlyCtx_refl.retire 4
  refine ⟨_, hexec, by rw [State.cx_retire]; rfl, ⟨hbytes, hmod, hcores, hme, hctx, ?_⟩, fun l hl => ?_, fun j _ => ?_, fun r _ => ?_,
    fun k _ => ?_, ?_⟩
  · rw [State.cx_retire]
  · rw [State.cx_retire, hnone l hl]
    rfl
  · rw [State.cx_retire]
  · rw [State.cx_retire]
  · rw [State.cx_retire, hany, Bool.or_false]
  · rw [State.me_retire, hany]
    rfl

/-- An instruction guarded lane by lane whose effect writes lanes. -/
theorem State.lanesTo_of_instrLanes {i : Instr} {body : State → Act} (hw : 0 < w) (hn : w * n ≤ 1024)
    (hpl : ∀ l, l < n → pl l < 32) (hd : s.streamNamed d = none) (hexec : exec i s = instrLanes g body s)
    (hbody : body s = s.writeLanes g w n pl d f) : s.lanesTo i g w n pl d f := by
  unfold instrLanes at hexec
  cases hany : (upto 32).any (s.lanePasses g) with
  | true =>
    rw [hany, if_pos rfl, hbody, State.writeLanes_noStream hd] at hexec
    exact State.lanesTo_of_next hw hn hexec
  | false =>
    rw [hany, if_neg Bool.false_ne_true] at hexec
    exact State.lanesTo_of_skip (fun l hl => by simpa using List.any_eq_false.mp hany (pl l) ((mem_upto 32 _).mpr (hpl l hl))) hexec

end

/-! ## Sources -/

section
variable {s : State} {d a b : Reg} {w : Nat} {g : Guard}

/-- Registers that name no stream are read as they stand. -/
theorem State.readVecs_noStream (seen : List (Reg × Vec)) (hseen : ∀ p ∈ seen, p.2 = s.cx.v.get p.1) (rs : List Reg)
    (hrs : ∀ r ∈ rs, s.streamNamed r = none) :
    ∃ vals, s.readVecs seen rs = .ok (vals, s) ∧ (∀ p ∈ vals, p.2 = s.cx.v.get p.1) ∧
      ∀ r, (r ∈ rs ∨ ∃ p ∈ seen, p.1 = r) → ∃ p ∈ vals, p.1 = r := by
  induction rs generalizing seen with
  | nil => exact ⟨seen, rfl, hseen, fun r hr => hr.elim (fun h => absurd h List.not_mem_nil) id⟩
  | cons r rs ih =>
    have hr := hrs r List.mem_cons_self
    have hrest := fun q hq => hrs q (List.mem_cons_of_mem _ hq)
    unfold State.readVecs
    cases hany : seen.any fun p => p.1 == r with
    | true =>
      obtain ⟨vals, hread, hvals, hcover⟩ := ih seen hseen hrest
      refine ⟨vals, hread, hvals, fun q hq => ?_⟩
      rcases hq with hq | hq
      · rcases List.mem_cons.mp hq with rfl | hq
        · obtain ⟨p, hp, hpr⟩ := List.any_eq_true.mp hany
          exact hcover q (.inr ⟨p, hp, by simpa using hpr⟩)
        · exact hcover q (.inl hq)
      · exact hcover q (.inr hq)
    | false =>
      rw [hr]
      obtain ⟨vals, hread, hvals, hcover⟩ := ih (seen ++ [(r, s.cx.v.get r)])
        (by simpa [or_imp, forall_and] using hseen) hrest
      refine ⟨vals, hread, hvals, fun q hq => hcover q ?_⟩
      rcases hq with hq | ⟨p, hp, hpq⟩
      · rcases List.mem_cons.mp hq with rfl | hq
        · exact .inr ⟨(q, s.cx.v.get q), by simp, rfl⟩
        · exact .inl hq
      · exact .inr ⟨p, List.mem_append_left _ hp, hpq⟩

theorem valOf_eq {vals : List (Reg × Vec)} {v : Reg → Vec} (hvals : ∀ p ∈ vals, p.2 = v p.1) {r : Reg}
    (hr : ∃ p ∈ vals, p.1 = r) : valOf vals r = v r := by
  unfold valOf
  cases hfind : vals.find? fun p => p.1 == r with
  | none =>
    obtain ⟨p, hp, hpr⟩ := hr
    exact absurd hpr (by simpa using List.find?_eq_none.mp hfind p hp)
  | some p =>
    have hmem := hvals p (List.mem_of_find?_eq_some hfind)
    have heq : p.1 = r := by simpa using List.find?_some hfind
    rw [← heq]
    exact hmem

/-- The sources of an instruction that name no stream: each has the bits of its register. -/
theorem State.sources_noStream {rs : List Reg} (hrs : ∀ r ∈ rs, s.streamNamed r = none) :
    ∃ vals, s.sources rs = .ok (vals, s) ∧ ∀ r ∈ rs, valOf vals r = s.cx.v.get r := by
  obtain ⟨vals, hread, hvals, hcover⟩ := State.readVecs_noStream [] (fun p hp => absurd hp List.not_mem_nil) rs hrs
  have huse : (rs.forM fun r => s.streamUse r false) = .ok () := by
    clear hread hcover
    induction rs with
    | nil => rfl
    | cons r rs ih =>
      show (s.streamUse r false >>= fun _ => rs.forM fun r => s.streamUse r false) = _
      rw [State.streamUse_noStream (hrs r List.mem_cons_self), ok_bind]
      exact ih fun q hq => hrs q (List.mem_cons_of_mem _ hq)
  refine ⟨vals, ?_, fun r hr => valOf_eq hvals (hcover r (.inl hr))⟩
  unfold State.sources
  rw [huse]
  exact hread

theorem State.noStream_ok (h : s.streamNamed d = none) : s.noStream d = .ok () := by
  unfold State.noStream
  rw [h]
  rfl

/-- A lane operation on registers that name no stream. -/
theorem laneOp_noStream (hs : s.noStreams [d, a, b]) (readsD : Bool) (f : BitVec w → BitVec w → BitVec w → LaneRes w) :
    laneOp w readsD g d a b f s = s.writeLanes g w (1024 / w) (fun l => l * w / 32) d fun l =>
      f (lane w l (s.cx.v.get a)) (lane w l (s.cx.v.get b)) (lane w l (s.cx.v.get d)) := by
  have hd := hs d (by simp)
  obtain ⟨vals, hsources, hval⟩ := State.sources_noStream (s := s) (rs := [a, b]) (fun r hr => hs r (List.mem_cons_of_mem _ hr))
  unfold laneOp
  rw [State.noStream_ok hd, State.streamUse_noStream hd, ite_self, ok_bind, hsources, ok_bind]
  dsimp only
  rw [hval a (by simp), hval b (by simp)]

end

/-! ## The lane-wise instructions -/

section
variable {s : State} {d a b : Reg} {w : Nat} {g : Guard} {i : Instr}

/-- The width of lanes: 8, 16 or 32 bits (R117). -/
def laneWidth (w : Nat) : Prop := w = 8 ∨ w = 16 ∨ w = 32

theorem laneWidth.pos (hw : laneWidth w) : 0 < w := by
  unfold laneWidth at hw
  omega

/-- Each predicate lane guards 32 bits (R203). -/
theorem laneWidth.predicate (hw : laneWidth w) (l : Nat) (hl : l < 1024 / w) : l * w / 32 < 32 := by
  have hlt : l * w < 1024 := by
    calc l * w < 1024 / w * w := Nat.mul_lt_mul_of_pos_right hl hw.pos
      _ ≤ 1024 := Nat.div_mul_le_self 1024 w
  omega

theorem State.lanesTo_vop3 (hw : laneWidth w) (hs : s.noStreams [d, a, b]) {readsD : Bool}
    {f : BitVec w → BitVec w → BitVec w → LaneRes w} (hexec : exec i s = instrLanes g (laneOp w readsD g d a b f) s) :
    s.lanesTo i g w (1024 / w) (fun l => l * w / 32) d fun l =>
      f (lane w l (s.cx.v.get a)) (lane w l (s.cx.v.get b)) (lane w l (s.cx.v.get d)) :=
  State.lanesTo_of_instrLanes hw.pos (Nat.mul_div_le 1024 w) hw.predicate (hs d (by simp)) hexec (laneOp_noStream hs readsD f)

theorem State.lanesTo_vop2 (hw : laneWidth w) (hs : s.noStreams [d, a, b]) {f : BitVec w → BitVec w → LaneRes w}
    (hexec : exec i s = vop2 w g d a b f s) :
    s.lanesTo i g w (1024 / w) (fun l => l * w / 32) d fun l => f (lane w l (s.cx.v.get a)) (lane w l (s.cx.v.get b)) :=
  State.lanesTo_vop3 hw hs hexec

theorem State.lanesTo_vop1 (hw : laneWidth w) (hd : s.streamNamed d = none) (ha : s.streamNamed a = none)
    {f : BitVec w → LaneRes w} (hexec : exec i s = vop1 w g d a f s) :
    s.lanesTo i g w (1024 / w) (fun l => l * w / 32) d fun l => f (lane w l (s.cx.v.get a)) :=
  State.lanesTo_vop3 hw (b := a) (List.forall_mem_cons.mpr ⟨hd, by simp [ha]⟩) hexec

/-- Where lanes have the width of predicate lanes, lane l is guarded by predicate lane l. -/
theorem State.lanesTo_32 {f : Nat → LaneRes 32} (h : s.lanesTo i g 32 (1024 / 32) (fun l => l * 32 / 32) d f) :
    s.lanesTo i g 32 32 id d f := by
  rwa [show (fun l : Nat => l * 32 / 32) = id from funext fun l => Nat.mul_div_cancel l (by omega)] at h

end

/-! ## Integer lanes -/

section
variable {w : Nat}

/-- VADD to VMULH, as the entries number them (R273, R274). -/
def commonLanes (w : Nat) : List (BitVec w → BitVec w → BitVec w) :=
  [fun x y => x + y, fun x y => x - y, pickLane BitVec.slt, pickLane fun p q => q.slt p, pickLane BitVec.ult,
    pickLane fun p q => q.ult p, fun x y => x * y, mulHighLane]

theorem pickLane_slt (x y : BitVec w) : pickLane BitVec.slt x y = if x.toInt < y.toInt then x else y := by
  simp [pickLane, BitVec.slt]

theorem pickLane_sgt (x y : BitVec w) : pickLane (fun p q => q.slt p) x y = if y.toInt < x.toInt then x else y := by
  simp [pickLane, BitVec.slt]

theorem pickLane_ult (x y : BitVec w) : pickLane BitVec.ult x y = if x.toNat < y.toNat then x else y := by
  simp [pickLane, BitVec.ult]

theorem pickLane_ugt (x y : BitVec w) : pickLane (fun p q => q.ult p) x y = if y.toNat < x.toNat then x else y := by
  simp [pickLane, BitVec.ult]

theorem mul_eq_ofInt (x y : BitVec w) : x * y = BitVec.ofInt w (x.toInt * y.toInt) := by
  rw [BitVec.ofInt_mul, BitVec.ofInt_toInt, BitVec.ofInt_toInt]

theorem commonLanes_eq : commonLanes w = [fun x y => x + y, fun x y => x - y,
    fun x y => if x.toInt < y.toInt then x else y, fun x y => if y.toInt < x.toInt then x else y,
    fun x y => if x.toNat < y.toNat then x else y, fun x y => if y.toNat < x.toNat then x else y,
    fun x y => BitVec.ofInt w (x.toInt * y.toInt), fun x y => BitVec.ofInt w (x.toInt * y.toInt / 2 ^ w)] := by
  unfold commonLanes
  rw [funext₂ pickLane_slt, funext₂ pickLane_sgt, funext₂ pickLane_ult, funext₂ pickLane_ugt, funext₂ mul_eq_ofInt]
  rfl

/-- A clamped lane, and whether it was out of range (R118). -/
theorem clampLane_eq (z : Int) : clampLane w z = (BitVec.ofInt w (max (-(2 ^ (w - 1))) (min (2 ^ (w - 1) - 1) z)), 0,
    decide (z < -(2 ^ (w - 1))) || decide (2 ^ (w - 1) - 1 < z)) := by
  have hpos : (0 : Int) < 2 ^ (w - 1) := by positivity
  unfold clampLane clampS
  generalize (2 : Int) ^ (w - 1) = m at hpos
  dsimp only
  split_ifs with hlow hhigh
  · rw [min_eq_right (by omega), max_eq_left (by omega), decide_eq_true hlow, Bool.true_or]
  · rw [min_eq_left (by omega), max_eq_right (by omega), decide_eq_true hhigh, Bool.or_true]
  · rw [min_eq_right (by omega), max_eq_right (by omega), decide_eq_false hlow, decide_eq_false hhigh, Bool.or_false]

theorem clampLane_byte (z : Int) : clampLane 8 z =
    (BitVec.ofInt 8 (max (-128) (min 127 z)), 0, decide (z < -128) || decide (127 < z)) := clampLane_eq z

end

/-- Settles O23: each instruction is a lane operation (`State.lanesTo_vop2`) whose function is the entry's (`commonLanes_eq`,
`clampLane_eq`). -/
theorem vectorIntegerResults : Obligations.VectorIntegerResults := by
  unfold Obligations.VectorIntegerResults
  intro g d a b s hs
  dsimp only
  have common {w : Nat} (hw : laneWidth w) {is : List Instr}
      (h : ∀ e ∈ is.zip (commonLanes w), exec e.1 s = vop2 w g d a b (fun x y => plain (e.2 x y)) s) :=
    commonLanes_eq (w := w) ▸ fun e he => State.lanesTo_vop2 hw hs (h e he)
  have w32 : laneWidth 32 := .inr (.inr rfl)
  have w16 : laneWidth 16 := .inr (.inl rfl)
  have w8 : laneWidth 8 := .inl rfl
  have nil {α : Type} {P : α → Prop} : ∀ e ∈ ([] : List α), P e := fun _ h => absurd h List.not_mem_nil
  refine ⟨common w32 ?_, common w16 ?_, common w8 ?_, ?_, ?_, ?_, ?_⟩
  · simp only [commonLanes, List.zip_cons_cons, List.forall_mem_cons]
    exact ⟨rfl, rfl, rfl, rfl, rfl, rfl, rfl, rfl, nil⟩
  · simp only [commonLanes, List.zip_cons_cons, List.forall_mem_cons]
    exact ⟨rfl, rfl, rfl, rfl, rfl, rfl, rfl, rfl, nil⟩
  · simp only [commonLanes, List.zip_cons_cons, List.forall_mem_cons]
    exact ⟨rfl, rfl, rfl, rfl, rfl, rfl, nil⟩
  · refine fun e he => State.lanesTo_vop2 (f := fun x y => plain (e.2 x y)) w32 hs ?_
    revert e
    simp only [List.forall_mem_cons]
    exact ⟨rfl, rfl, rfl, rfl, rfl, rfl, rfl, nil⟩
  · exact State.lanesTo_32 (State.lanesTo_vop1 (f := fun x => plain (~~~x)) w32 (hs d (by simp)) (hs a (by simp)) rfl)
  · simp only [← clampLane_byte]
    exact State.lanesTo_vop2 (f := fun x y => clampLane 8 (x.toInt + y.toInt)) w8 hs rfl
  · simp only [← clampLane_byte]
    exact State.lanesTo_vop2 (f := fun x y => clampLane 8 (x.toInt - y.toInt)) w8 hs rfl

end Sys2Proof.Machine
end

/-! PROOFS. Floating-point lanes and conversions (R276 to R278, R284). Here O24 and O28 are settled. -/

section
namespace Sys2Proof.Machine

/-! ## Floating-point lanes -/

section
variable {s : State} {d a b : Reg} {w : Nat} {g : Guard} {i : Instr}

/-- An instruction whose lanes an FP operation on two or three lanes gives, or one on a lane of vA. -/
def State.floatLanes (s : State) (g : Guard) (d a b : Reg) (w : Nat) (i : Instr) (f : Nat → Nat → Nat → FRes) : Prop :=
  (∃ readsD, exec i s = instrLanes g (laneOp w readsD g d a b fun x y z => ofF (f x.toNat y.toNat z.toNat)) s) ∨
    exec i s = vop1 w g d a (fun x => ofF (f x.toNat 0 0)) s ∧ ∀ x y z, f x y z = f x 0 0

theorem State.floatLanes.lanesTo {f : Nat → Nat → Nat → FRes} (h : s.floatLanes g d a b w i f) (hw : laneWidth w)
    (hs : s.noStreams [d, a, b]) : s.lanesTo i g w (1024 / w) (fun l => l * w / 32) d fun l =>
      ofF (f (lane w l (s.cx.v.get a)).toNat (lane w l (s.cx.v.get b)).toNat (lane w l (s.cx.v.get d)).toNat) := by
  rcases h with ⟨readsD, hexec⟩ | ⟨hexec, hfirst⟩
  · exact State.lanesTo_vop3 hw hs hexec
  · simp only [hfirst]
    exact State.lanesTo_vop1 hw (hs d (by simp)) (hs a (by simp)) hexec

end

/-- Settles O24: each instruction is a lane operation whose function is the entry's (`State.floatLanes`), a bit operation, or
`fdotLane`. -/
theorem vectorFloatResults : Obligations.VectorFloatResults := by
  unfold Obligations.VectorFloatResults
  intro g d a b s hs
  have hd := hs d (by simp)
  have ha := hs a (by simp)
  have w32 : laneWidth 32 := .inr (.inr rfl)
  have w16 : laneWidth 16 := .inr (.inl rfl)
  have nil {α : Type} {P : α → Prop} : ∀ e ∈ ([] : List α), P e := fun _ h => absurd h List.not_mem_nil
  have two {w : Nat} {i : Instr} {f : Nat → Nat → FRes} (h : exec i s = vop2 w g d a b (fun x y => ofF (f x.toNat y.toNat)) s) :
      s.floatLanes g d a b w i fun x y _ => f x y := .inl ⟨false, h⟩
  have three {w : Nat} {i : Instr} {f : Nat → Nat → Nat → FRes}
      (h : exec i s = vop3 w g d a b (fun x y z => ofF (f x.toNat y.toNat z.toNat)) s) :
      s.floatLanes g d a b w i f := .inl ⟨true, h⟩
  have one {w : Nat} {i : Instr} {f : Nat → FRes} (h : exec i s = vop1 w g d a (fun x => ofF (f x.toNat)) s) :
      s.floatLanes g d a b w i fun x _ _ => f x := .inr ⟨h, fun _ _ _ => rfl⟩
  refine ⟨fun e he => State.floatLanes.lanesTo ?_ w32 hs, fun e he => State.floatLanes.lanesTo ?_ w16 hs, ?_, ?_, ?_⟩
  · revert e
    simp only [List.forall_mem_cons]
    exact ⟨two rfl, two rfl, two rfl, two rfl, two rfl, two rfl, three rfl, one rfl, one rfl, one rfl, one rfl, one rfl, one rfl,
      one rfl, nil⟩
  · revert e
    simp only [List.forall_mem_cons]
    exact ⟨two rfl, two rfl, two rfl, two rfl, two rfl, three rfl, nil⟩
  · exact State.lanesTo_32 (State.lanesTo_vop1 (f := fun x => plain (x &&& 0x7FFFFFFF)) w32 hd ha rfl)
  · exact State.lanesTo_32 (State.lanesTo_vop1 (f := fun x => plain (x ^^^ 0x80000000)) w32 hd ha rfl)
  · exact State.lanesTo_32 (State.lanesTo_vop3 (f := fdotLane) w32 hs rfl)

/-! ## Conversions (R284) -/

section
variable {s : State} {d a b : Reg} {sw dwid : Nat} {g : Guard} {i : Instr}

theorem vcvt_noStream (hs : s.noStreams [d, a]) (f : BitVec sw → LaneRes dwid) :
    vcvt sw dwid g d a f s = s.writeLanes g dwid 32 id d fun l => f (lane sw l (s.cx.v.get a)) := by
  have hd := hs d (by simp)
  unfold vcvt
  rw [State.noStream_ok hd, State.streamUse_noStream hd, ite_self, ok_bind,
    State.sources_single (fun r hr => hs r (List.mem_cons_of_mem _ hr)), ok_bind]
  dsimp only
  rw [valOf_single]

/-- A conversion writes the 32 low lanes of its width. -/
theorem State.lanesTo_vcvt (f : RM → BitVec sw → LaneRes dwid) (hpos : 0 < dwid) (h32 : dwid ≤ 32) (hs : s.noStreams [d, a])
    (hexec : exec i s = instrLanes g (fun t => vcvt sw dwid g d a (f t.rm) t) s) :
    s.lanesTo i g dwid 32 id d fun l => f s.rm (lane sw l (s.cx.v.get a)) :=
  State.lanesTo_of_instrLanes hpos (by omega) (fun _ hl => hl) (hs d (by simp)) hexec (vcvt_noStream hs (f s.rm))

/-- An FP32 element times its scale, in an 8-bit format. -/
def narrowed (f : Fmt) (_ : RM) (sc : DWord) (x : Word) : FRes := scaled f .rne (fp32.val x.toNat) sc

/-- An 8-bit element times its scale, in FP32. -/
def widened (f : Fmt) (rm : RM) (sc : DWord) (x : Byte) : FRes := scaled fp32 rm (f.val x.toNat) sc

/-- A conversion whose scale FP32 holds. -/
theorem State.lanesTo_vcvtScaled (f : RM → DWord → BitVec sw → FRes) (hpos : 0 < dwid) (h32 : dwid ≤ 32)
    (hs : s.noStreams [d, a]) (hscale : scaleGood (s.cx.f.get b) = true)
    (hexec : exec i s = vcvtScaled sw dwid g d a b f s) :
    s.lanesTo i g dwid 32 id d fun l => ofF (f s.rm (s.cx.f.get b) (lane sw l (s.cx.v.get a))) := by
  refine State.lanesTo_of_instrLanes hpos (by omega) (fun _ hl => hl) (hs d (by simp)) hexec ?_
  show (Machine.check (scaleGood (s.cx.f.get b)) 0x0E 0 (dw (1 * 2 ^ 6)) >>= _) = _
  rw [hscale]
  exact vcvt_noStream hs fun x => ofF (f s.rm (s.cx.f.get b) x)

/-- A conversion whose scale FP32 does not hold exactly traps before any lane changes (R128). -/
theorem State.vcvtScaled_badScale {f : RM → DWord → BitVec sw → FRes} (hscale : scaleGood (s.cx.f.get b) = false)
    (hfree : s.trapFree) (hpass : ∃ l, l < 32 ∧ s.lanePasses g l = true) :
    ∃ t, vcvtScaled sw dwid g d a b f s = .next t ∧ s.trapsTo t 0x0E 0 64 ∧ s.sameBytes t ∧ t.cx.v = s.cx.v := by
  obtain ⟨l, hl, hlane⟩ := hpass
  have hany : (upto 32).any (s.lanePasses g) = true := List.any_eq_true.mpr ⟨l, (mem_upto 32 l).mpr hl, hlane⟩
  obtain ⟨htraps, hbytes⟩ := State.stopWith_trap hfree ⟨0x0E, 0, 64⟩
  refine ⟨s.stopWith (.trap ⟨0x0E, 0, 64⟩), ?_, htraps, hbytes, ?_⟩
  · unfold vcvtScaled instrLanes
    rw [if_pos hany]
    show s.finish 4 (Machine.check (scaleGood (s.cx.f.get b)) 0x0E 0 (dw (1 * 2 ^ 6)) >>= _) = _
    rw [hscale]
    rfl
  · rw [(State.stopWith_onlyStops (e := .trap ⟨0x0E, 0, 64⟩) trivial).cx]

end

/-- Settles O28: each conversion writes its lanes (`State.lanesTo_vcvt`, `State.lanesTo_vcvtScaled`), or traps for its scale
(`State.vcvtScaled_badScale`). -/
theorem vectorConversionResults : Obligations.VectorConversionResults := by
  unfold Obligations.VectorConversionResults
  intro g d a b s hs
  have nil {α : Type} {P : α → Prop} : ∀ e ∈ ([] : List α), P e := fun _ h => absurd h List.not_mem_nil
  refine ⟨?_, ?_, ?_, ?_, fun hscale => ⟨?_, ?_, ?_, ?_⟩, fun hscale hfree hpass => ?_⟩
  · exact State.lanesTo_vcvt (sw := 16) (fun _ x => ofF (convert fp32 .rne (bf16.val x.toNat))) (by omega) le_rfl hs rfl
  · exact State.lanesTo_vcvt (sw := 32) (fun _ x => ofF (convert bf16 .rne (fp32.val x.toNat))) (by omega) (by omega) hs rfl
  · exact State.lanesTo_vcvt (sw := 32) (fun rm x => ofF (convert fp32 rm (FVal.ofInt x.toInt))) (by omega) le_rfl hs rfl
  · exact State.lanesTo_vcvt (sw := 32) (fun rm x =>
      let r := (fp32.val x.toNat).toInt rm (-(2 ^ 31)) (2 ^ 31 - 1)
      (BitVec.ofInt 32 r.1, r.2, false)) (by omega) le_rfl hs rfl
  · exact State.lanesTo_vcvtScaled (narrowed e4m3) (by omega) (by omega) hs hscale rfl
  · exact State.lanesTo_vcvtScaled (narrowed e5m2) (by omega) (by omega) hs hscale rfl
  · exact State.lanesTo_vcvtScaled (widened e4m3) (by omega) le_rfl hs hscale rfl
  · exact State.lanesTo_vcvtScaled (widened e5m2) (by omega) le_rfl hs hscale rfl
  · simp only [List.forall_mem_cons]
    have traps {sw : Nat} {i : Instr} (dwid : Nat) (f : RM → DWord → BitVec sw → FRes)
        (hexec : exec i s = vcvtScaled sw dwid g d a b f s) :
        ∃ t, exec i s = .next t ∧ s.trapsTo t 0x0E 0 64 ∧ s.sameBytes t ∧ t.cx.v = s.cx.v :=
      hexec ▸ State.vcvtScaled_badScale hscale hfree hpass
    exact ⟨traps 8 (narrowed e4m3) rfl, traps 8 (narrowed e5m2) rfl, traps 32 (widened e4m3) rfl, traps 32 (widened e5m2) rfl, nil⟩

end Sys2Proof.Machine
end

/-! PROOFS. Vector compares, moves and folds (R183, R279, R280, R283). Here O25 and O27 are settled. -/

section
namespace Sys2Proof.Machine

/-! ## Compares (R279) -/

section
variable {s : State} {g : Guard} {p : PReg} {i : Instr}

/-- The number that has these bits, `n` of them. -/
def bitSum (b : Nat → Bool) (n : Nat) : Nat := (upto n).foldl (fun a l => a + b2n (b l) * 2 ^ l) 0

theorem bitSum_succ (b : Nat → Bool) (n : Nat) : bitSum b (n + 1) = 2 ^ n * b2n (b n) + bitSum b n := by
  unfold bitSum
  rw [upto, List.foldl_append, List.foldl_cons, List.foldl_nil]
  ring

theorem bitSum_lt (b : Nat → Bool) (n : Nat) : bitSum b n < 2 ^ n := by
  induction n with
  | zero => exact Nat.one_pos
  | succ n ih =>
    have hbit : 2 ^ n * b2n (b n) ≤ 2 ^ n := by cases b n <;> simp [b2n]
    rw [bitSum_succ, Nat.pow_succ]
    omega

theorem bitSum_testBit (b : Nat → Bool) {n l : Nat} (hl : l < n) : (bitSum b n).testBit l = b l := by
  induction n with
  | zero => exact absurd hl (Nat.not_lt_zero l)
  | succ n ih =>
    rw [bitSum_succ, Nat.testBit_two_pow_mul_add _ (bitSum_lt b n)]
    by_cases hlt : l < n
    · rw [if_pos hlt, ih hlt]
    · obtain rfl : l = n := by omega
      rw [if_neg hlt, Nat.sub_self]
      cases b l <;> rfl

/-- The instruction writes the predicate lanes that pass, and raises NV where one of them says so (R125, R279). -/
def State.compares (s : State) (g : Guard) (p : PReg) (i : Instr) (f : Nat → Bool × Bool) : Prop :=
  ∃ t, exec i s = .next t ∧ t.cx.pc = s.cx.pc + 4 ∧ s.onlyCtx t { s.cx with p := t.cx.p, fflags := t.cx.fflags } ∧
    (∀ q, q ≠ p → t.cx.p.get q = s.cx.p.get q) ∧
    (∀ l, l < 32 → (t.cx.p.get p).getLsbD l = if s.lanePasses g l then (f l).1 else (s.cx.p.get p).getLsbD l) ∧
    t.cx.fflags = if (List.range 32).any (fun l => s.lanePasses g l && (f l).2) then s.cx.fflags ||| 1 else s.cx.fflags

/-- No lane passes: the instruction is passed by (R203). -/
theorem instrLanes_skip {body : State → Act} (hnone : (upto 32).any (s.lanePasses g) = false) :
    instrLanes g body s = .next (s.retire 4) ∧ ∀ l, l < 32 → s.lanePasses g l = false := by
  unfold instrLanes
  rw [hnone]
  exact ⟨rfl, fun l hl => by simpa using List.any_eq_false.mp hnone l ((mem_upto 32 l).mpr hl)⟩

theorem instrLanes_some {body : State → Act} (hsome : (upto 32).any (s.lanePasses g) = true) :
    instrLanes g body s = s.finish 4 (body s) := if_pos hsome

theorem State.compares_of_skip {f : Nat → Bool × Bool} (hnone : ∀ l, l < 32 → s.lanePasses g l = false)
    (hexec : exec i s = .next (s.retire 4)) : s.compares g p i f := by
  have hany : ((List.range 32).any fun l => s.lanePasses g l && (f l).2) = false := by
    rw [List.any_eq_false]
    intro l hl
    rw [hnone l (List.mem_range.mp hl)]
    simp
  obtain ⟨hbytes, hmod, hcores, hme, hctx, -⟩ := s.onlyCtx_refl.retire 4
  refine ⟨_, hexec, by rw [State.cx_retire]; rfl, ⟨hbytes, hmod, hcores, hme, hctx, ?_⟩, fun q _ => ?_, fun l hl => ?_, ?_⟩
  · rw [State.cx_retire]
  · rw [State.cx_retire]
  · rw [State.cx_retire, hnone l hl]
    rfl
  · rw [State.cx_retire, hany]
    rfl

theorem State.compares_of_writeCmp {body : State → Act} {f : Nat → Bool × Bool} (hexec : exec i s = instrLanes g body s)
    (hbody : body s = .ok (s.writeCmp g p f)) : s.compares g p i f := by
  cases hany : (upto 32).any (s.lanePasses g) with
  | false =>
    obtain ⟨hskip, hnone⟩ := instrLanes_skip (body := body) hany
    exact State.compares_of_skip hnone (hexec.trans hskip)
  | true =>
    let new (l : Nat) : Bool := if s.lanePasses g l then (f l).1 else bit (s.rdP p) l
    let raised : BitVec 5 := flag ((upto 32).any fun l => s.lanePasses g l && (f l).2) flNV
    have hwrite : s.writeCmp g p f =
        s.modCx fun x => { x with p := vput x.p p (BitVec.ofNat 32 (bitSum new 32)), fflags := x.fflags ||| raised } :=
      s.modCx_modCx _ _
    rw [instrLanes_some hany, hbody, hwrite] at hexec
    obtain ⟨hbytes, hmod, hcores, hme, hctx, hcx⟩ := s.onlyCtx_modCx_retire
      (fun x => { x with p := vput x.p p (BitVec.ofNat 32 (bitSum new 32)), fflags := x.fflags ||| raised }) 4
    refine ⟨_, hexec, ?_, ⟨hbytes, hmod, hcores, hme, hctx, ?_⟩, fun q hq => ?_, fun l hl => ?_, ?_⟩
    · rw [State.cx_retire, State.cx_modCx]
      rfl
    · rw [hcx]
    · rw [hcx]
      exact vget_vput_ne _ _ _ _ hq
    · rw [hcx]
      dsimp only
      rw [vget_vput_self, BitVec.getLsbD_ofNat, decide_eq_true hl, Bool.true_and, bitSum_testBit new hl]
      rfl
    · rw [hcx]
      show s.cx.fflags ||| flag _ flNV = _
      rw [← upto_eq_range]
      cases (upto 32).any fun l => s.lanePasses g l && (f l).2 with
      | true => rfl
      | false => exact BitVec.or_zero

end

/-! ## Moves (R280) -/

section
variable {s : State} {g : Guard} {d a b : Reg} {i : Instr} {body : State → Act}

theorem State.lanesTo_moveLanes {f : Nat → Word} (hd : s.streamNamed d = none) (hexec : exec i s = instrLanes g body s)
    (hbody : body s = moveLanes g d f s) : s.lanesTo i g 32 32 id d fun l => (f l, 0, false) :=
  State.lanesTo_of_instrLanes (by omega) le_rfl (fun _ hl => hl) hd hexec hbody

/-- Lanes that all raise the same flags raise them together. -/
theorem flagsOf_const {rs : List (BitVec 5 × Bool)} {fl : BitVec 5} (h : ∀ r ∈ rs, r.1 = fl) (hne : fl = 0 ∨ rs ≠ []) :
    flagsOf rs = fl := by
  apply BitVec.eq_of_getLsbD_eq
  intro k _
  rw [flagsOf_getLsbD, Bool.eq_iff_iff, List.any_eq_true]
  constructor
  · rintro ⟨r, hr, hbit⟩
    rwa [h r hr] at hbit
  · intro hbit
    rcases hne with rfl | hne
    · simp at hbit
    · obtain ⟨r, hr⟩ := List.exists_mem_of_ne_nil rs hne
      exact ⟨r, hr, by rwa [h r hr]⟩

theorem State.passFlags_const {w : Nat} {f : Nat → LaneRes w} {fl : BitVec 5} (hf : ∀ l, (f l).2 = (fl, false)) :
    ∀ r ∈ s.passFlags g 32 id f, r = (fl, false) := by
  unfold State.passFlags
  intro r hr
  obtain ⟨l, -, rfl⟩ := List.mem_map.mp hr
  exact hf l

/-- One setting of the flags of a value that every lane takes is the flags of the lanes together (R125). -/
theorem State.laneFlags_orFlags {v : Word} {fl : BitVec 5} (t : State) (hsome : (upto 32).any (s.lanePasses g) = true) :
    (t.laneFlags (s.passFlags g 32 id fun _ => plain v)).orFlags fl =
      t.laneFlags (s.passFlags g 32 id fun _ => (v, fl, false)) := by
  have hzero := State.passFlags_const (s := s) (g := g) (f := fun _ => plain v) (fl := 0) fun _ => rfl
  have hfl := State.passFlags_const (s := s) (g := g) (f := fun _ => (v, fl, false)) (fl := fl) fun _ => rfl
  have hne : s.passFlags g 32 id (fun _ => (v, fl, false)) ≠ [] := by
    obtain ⟨l, hl, hpass⟩ := List.any_eq_true.mp hsome
    exact List.ne_nil_of_mem (List.mem_map.mpr ⟨l, List.mem_filter.mpr ⟨hl, hpass⟩, rfl⟩)
  have hany {rs : List (BitVec 5 × Bool)} {x : BitVec 5} (h : ∀ r ∈ rs, r = (x, false)) : rs.any (·.2) = false := by
    rw [List.any_eq_false]
    intro r hr
    rw [h r hr]
    simp
  have hlanes {rs : List (BitVec 5 × Bool)} {x : BitVec 5} (h : ∀ r ∈ rs, r = (x, false)) (hx : x = 0 ∨ rs ≠ []) :
      t.laneFlags rs = t.orFlags x := by
    show (t.orFlags (flagsOf rs)).setSat (rs.any (·.2)) = _
    rw [hany h, flagsOf_const (fun r hr => by rw [h r hr]) hx]
    rfl
  rw [hlanes hzero (.inl rfl), hlanes hfl (.inr hne)]
  refine (t.modCx_modCx _ _).trans (congrArg t.modCx (funext fun x => ?_))
  have hor : x.fflags ||| (0 : BitVec 5) = x.fflags := BitVec.or_zero
  show { x with fflags := x.fflags ||| (0 : BitVec 5) ||| fl } = _
  rw [hor]

/-- A value with its flags, moved to every lane that passes. -/
theorem State.lanesTo_moveFlags {v : Word} {fl : BitVec 5} (hd : s.streamNamed d = none)
    (hexec : exec i s = instrLanes g body s)
    (hbody : body s = moveLanes g d (fun _ => v) s >>= fun t => .ok (t.orFlags fl)) :
    s.lanesTo i g 32 32 id d fun _ => (v, fl, false) := by
  cases hany : (upto 32).any (s.lanePasses g) with
  | false =>
    obtain ⟨hskip, hnone⟩ := instrLanes_skip (body := body) hany
    exact State.lanesTo_of_skip hnone (hexec.trans hskip)
  | true =>
    refine State.lanesTo_of_next (by omega) le_rfl ?_
    rw [hexec, instrLanes_some hany, hbody]
    unfold moveLanes
    rw [State.writeLanes_noStream hd, ok_bind, State.laneFlags_orFlags _ hany]
    rfl

/-- VEXT and VINS act where their lane passes, and are passed by elsewhere. -/
theorem onLane_eq {act : Nat → State → Act} (hb : s.regFree b = true) :
    onLane g b act s = if s.lanePasses g ((s.cx.xr b).toNat % 32) then s.finish 4 (act ((s.cx.xr b).toNat % 32) s)
      else .next (s.retire 4) := by
  unfold onLane
  cases hany : (upto 32).any (s.lanePasses g) with
  | false =>
    obtain ⟨hskip, hnone⟩ := instrLanes_skip (s := s) (g := g) (body := fun s => do
      let y ← s.rdX b
      if s.lanePasses g (y.toNat % 32) then act (y.toNat % 32) s else return s) hany
    rw [hskip, hnone _ (Nat.mod_lt _ (by omega))]
    rfl
  | true =>
    rw [instrLanes_some hany, s.rdX_free b hb, ok_bind]
    split <;> rfl

theorem State.vext_noStream (ha : s.streamNamed a = none) (hx : s.xReady [d, b]) :
    ∃ t, exec (.vext g d a b) s = .next t ∧ t.cx.pc = s.cx.pc + 4 ∧
      s.onlyCtx t (if s.lanePasses g ((s.cx.xr b).toNat % 32) then
        s.cx.setX d ((lane 32 ((s.cx.xr b).toNat % 32) (s.cx.v.get a)).signExtend 64) else s.cx) := by
  have hexec := onLane_eq (s := s) (g := g) (b := b) (act := fun n s => do
    s.regReady d
    let (vals, s1) ← s.sources [a]
    s1.wrX d ((lane 32 n (valOf vals a)).signExtend 64)) (hx b (by simp))
  rw [show exec (.vext g d a b) s = _ from hexec]
  cases hpass : s.lanePasses g ((s.cx.xr b).toNat % 32) with
  | false => exact ⟨_, rfl, by rw [State.cx_retire]; rfl, s.onlyCtx_refl.retire 4⟩
  | true =>
    have hd := s.regReady_free d (hx d (by simp))
    simp only [if_true, hd, ok_bind, State.sources_single (s := s) (d := a) (by simpa [State.noStreams] using ha), valOf_single,
      State.wrX]
    refine ⟨_, rfl, ?_, s.onlyCtx_modCx_retire _ 4⟩
    rw [State.cx_retire]
    unfold State.putX
    rw [State.cx_modCx]
    exact congrArg (· + _) (Ctx.setX_pc _ _ _)

theorem State.vins_noStream (hd : s.streamNamed d = none) (hx : s.xReady [a, b]) :
    ∃ t, exec (.vins g d a b) s = .next t ∧ t.cx.pc = s.cx.pc + 4 ∧ s.onlyCtx t { s.cx with v := t.cx.v } ∧
      (∀ r, r ≠ d → t.cx.v.get r = s.cx.v.get r) ∧ ∀ l, l < 32 → lane 32 l (t.cx.v.get d) =
        if l = (s.cx.xr b).toNat % 32 ∧ s.lanePasses g ((s.cx.xr b).toNat % 32) = true then (s.cx.xr a).setWidth 32
        else lane 32 l (s.cx.v.get d) := by
  have hexec := onLane_eq (s := s) (g := g) (b := b) (act := fun n s => do
    s.noStream d
    let x ← s.rdX a
    let old := s.cx.v.get d
    s.writeVec d (ofLanes 32 (fun l => if l = n then x.setWidth 32 else lane 32 l old) 32)) (hx b (by simp))
  rw [show exec (.vins g d a b) s = _ from hexec]
  cases hpass : s.lanePasses g ((s.cx.xr b).toNat % 32) with
  | false =>
    obtain ⟨hbytes, hmod, hcores, hme, hctx, -⟩ := s.onlyCtx_refl.retire 4
    refine ⟨_, rfl, by rw [State.cx_retire]; rfl, ⟨hbytes, hmod, hcores, hme, hctx, ?_⟩, fun r _ => ?_, fun l _ => ?_⟩
    · rw [State.cx_retire]
    · rw [State.cx_retire]
    · rw [State.cx_retire]
      simp
  | true =>
    simp only [if_true, State.noStream_ok hd, s.rdX_free a (hx a (by simp)), ok_bind, State.writeVec_noStream hd]
    obtain ⟨hbytes, hmod, hcores, hme, hctx, hcx⟩ := s.onlyCtx_modCx_retire (fun x => { x with v := vput x.v d (ofLanes 32
      (fun l => if l = (s.cx.xr b).toNat % 32 then (s.cx.xr a).setWidth 32 else lane 32 l (s.cx.v.get d)) 32) }) 4
    refine ⟨_, rfl, ?_, ⟨hbytes, hmod, hcores, hme, hctx, ?_⟩, fun r hr => ?_, fun l hl => ?_⟩
    · rw [State.cx_retire, State.cx_putV]
      rfl
    · rw [State.cx_retire, State.cx_putV]
    · rw [State.cx_retire, State.cx_putV]
      exact vget_vput_ne _ _ _ _ hr
    · rw [State.cx_retire, State.cx_putV]
      dsimp only
      rw [vget_vput_self, lane_ofLanes (by omega) _ hl le_rfl]
      simp

end

/-- Settles O25: compares write their lanes (`State.compares_of_writeCmp`), moves and VBCASTF write vector lanes
(`State.lanesTo_moveLanes`, `State.lanesTo_moveFlags`), VEXT and VINS act on one lane. -/
theorem vectorMoveResults : Obligations.VectorMoveResults := by
  unfold Obligations.VectorMoveResults
  intro g d a b p cc fc s hs hx
  have hd := hs d (by simp)
  have ha := hs a (by simp)
  have huse := State.streamUse_noStream hd true
  have hsingle := State.sources_single (s := s) (d := a) (by simpa [State.noStreams] using ha)
  have hxa := s.rdX_free a (hx a (by simp))
  have hxb := s.rdX_free b (hx b (by simp))
  obtain ⟨vals, hpair, hval⟩ := State.sources_noStream (s := s) (rs := [a, b]) (fun r hr => hs r (List.mem_cons_of_mem _ hr))
  have hvala := hval a (by simp)
  have hvalb := hval b (by simp)
  refine ⟨?_, ?_, ?_, ?_, ?_, ?_, ?_, ?_, ?_, ?_⟩
  · refine State.compares_of_writeCmp (i := .vcmp g p a b cc) (execVcmp.eq_1 g p a b cc s) ?_
    rw [hpair, ok_bind]
    simp only [hvala, hvalb, icond_eq_condHolds]
    rfl
  · refine State.compares_of_writeCmp (i := .vcmpF g p a b fc) (execVcmpF.eq_1 g p a b fc s) ?_
    rw [hpair, ok_bind]
    simp only [hvala, hvalb]
    rfl
  · refine State.lanesTo_moveLanes (i := .vbcast g d a) hd (execVbcast.eq_1 g d a s) ?_
    rw [huse, ok_bind, hxa, ok_bind]
  · refine State.lanesTo_moveLanes (i := .viota g d) hd (execViota.eq_1 g d s) ?_
    rw [huse, ok_bind]
  · refine State.lanesTo_moveLanes (i := .vmov g d a) hd (execVmov.eq_1 g d a s) ?_
    rw [huse, ok_bind, hsingle, ok_bind]
    simp only [valOf_single]
  · refine State.lanesTo_moveLanes (i := .vperm g d a b) hd (execVperm.eq_1 g d a b s) ?_
    rw [huse, ok_bind, hpair, ok_bind]
    simp only [hvala, hvalb]
  · refine State.lanesTo_moveLanes (i := .vslide g d a b) hd (execVslide.eq_1 g d a b s) ?_
    rw [huse, ok_bind, hxb, ok_bind, hsingle, ok_bind]
    simp only [valOf_single]
  · refine State.lanesTo_moveFlags (i := .vbcastf g d a) hd (execVbcastf.eq_1 g d a s) ?_
    rw [huse, ok_bind]
    rfl
  · exact State.vext_noStream ha fun r hr => hx r (by simp at hr ⊢; tauto)
  · exact State.vins_noStream hd fun r hr => hx r (List.mem_cons_of_mem _ hr)

/-! ## Folds (R183, R283) -/

section
variable {α β : Type} {op : α → α → α} {e : α}

theorem prefixes_getD (op : α → α → α) (e z : α) (xs : List α) {l : Nat} (hl : l ≤ xs.length) :
    (prefixes op e xs).getD l z = (xs.take l).foldl op e := by
  induction xs generalizing e l with
  | nil =>
    obtain rfl : l = 0 := Nat.le_zero.mp hl
    rfl
  | cons x xs ih =>
    cases l with
    | zero => rfl
    | succ l => exact ih (op e x) (Nat.le_of_succ_le_succ hl)

theorem suffixes_ne_nil (op : α → α → α) (e x : α) (xs : List α) : suffixes op e (x :: xs) ≠ [] := by
  cases xs <;> exact List.cons_ne_nil _ _

theorem headD_eq_getD {xs : List α} (h : xs ≠ []) (y z : α) : xs.headD y = xs.getD 0 z := by
  cases xs with
  | nil => exact absurd rfl h
  | cons x xs => rfl

theorem suffixes_getD (op : α → α → α) (e z : α) (xs : List α) {l : Nat} (hl : l < xs.length) :
    (suffixes op e xs).getD l z = (xs.drop (l + 1)).foldr op e := by
  induction xs generalizing l with
  | nil => exact absurd hl (Nat.not_lt_zero l)
  | cons x xs ih =>
    cases xs with
    | nil =>
      obtain rfl : l = 0 := Nat.lt_one_iff.mp hl
      rfl
    | cons y ys =>
      cases l with
      | zero =>
        show op y ((suffixes op e (y :: ys)).headD e) = _
        rw [headD_eq_getD (suffixes_ne_nil op e y ys) e z, ih (Nat.succ_pos _)]
        rfl
      | succ l => exact ih (Nat.lt_of_succ_lt_succ hl)

/-- A lane of a scan or of a fold: the fold of the lanes up to it. -/
theorem foldl_proj {p : α → β} {opB : β → β → β} (h : ∀ x y, p (op x y) = opB (p x) (p y)) (xs : List α) :
    p (xs.foldl op e) = (xs.map p).foldl opB (p e) := by
  induction xs generalizing e with
  | nil => rfl
  | cons x xs ih => rw [List.foldl_cons, ih, h, List.map_cons, List.foldl_cons]

theorem foldr_proj {p : α → β} {opB : β → β → β} (h : ∀ x y, p (op x y) = opB (p x) (p y)) (xs : List α) :
    p (xs.foldr op e) = (xs.map p).foldr opB (p e) := by
  induction xs with
  | nil => rfl
  | cons x xs ih => rw [List.foldr_cons, h, ih, List.map_cons, List.foldr_cons]

end

section
variable {s : State} {g : Guard} {d a b : Reg} {i : Instr} {op : Fold → Fold → Fold} {opW : Word → Word → Word}

/-- A fold step on words, its flags left out. -/
def wordStep (f : Nat → Nat → FRes) (p q : Word) : Word := BitVec.ofNat 32 (f p.toNat q.toNat).1

theorem foldStep_fst (f : Nat → Nat → FRes) (p q : Fold) : (foldStep f p q).1 = wordStep f p.1 q.1 := rfl

/-- The lanes of a vector, as words. -/
theorem foldLanes_fst (v : Vec) : (foldLanes v).map Prod.fst = (List.range 32).map fun l => lane 32 l v := by
  unfold foldLanes
  rw [List.map_map, upto_eq_range]
  rfl

theorem foldLanes_length (v : Vec) : (foldLanes v).length = 32 := by
  unfold foldLanes
  rw [List.length_map, upto_eq_range, List.length_range]

/-- The fold of the lanes below one (R183). -/
theorem foldl_foldLanes (hop : ∀ p q : Fold, (op p q).1 = opW p.1 q.1) (e : Fold) (v : Vec) {n : Nat} (hn : n ≤ 32) :
    (((foldLanes v).take n).foldl op e).1 = (List.range n).foldl (fun p l => opW p (lane 32 l v)) e.1 := by
  rw [foldl_proj (p := Prod.fst) hop, List.map_take, foldLanes_fst, ← List.map_take, List.take_range, Nat.min_eq_left hn,
    List.foldl_map]

/-- The fold of the lanes above one (R183). -/
theorem foldr_foldLanes (hop : ∀ p q : Fold, (op p q).1 = opW p.1 q.1) (e : Fold) (v : Vec) (n : Nat) :
    (((foldLanes v).drop n).foldr op e).1 = ((List.range 32).drop n).foldr (fun l q => opW (lane 32 l v) q) e.1 := by
  rw [foldr_proj (p := Prod.fst) hop, List.map_drop, foldLanes_fst, ← List.map_drop, List.foldr_map]

theorem foldAll_getD (hop : ∀ p q : Fold, (op p q).1 = opW p.1 q.1) (e : Fold) (v : Vec) (l : Nat) :
    ((foldAll op e (foldLanes v)).getD l (0, 0)).1 =
      if l = 0 then (List.range 32).foldl (fun p l => opW p (lane 32 l v)) e.1 else 0 := by
  cases l with
  | zero =>
    rw [if_pos rfl, ← foldl_foldLanes hop e v le_rfl, List.take_of_length_le (foldLanes_length v).le]
    rfl
  | succ l => rfl

theorem scan_getD (hop : ∀ p q : Fold, (op p q).1 = opW p.1 q.1) (e : Fold) (v : Vec) {l : Nat} (hl : l < 32) :
    (((prefixes op e (foldLanes v)).drop 1).getD l (0, 0)).1 =
      (List.range (l + 1)).foldl (fun p l => opW p (lane 32 l v)) e.1 := by
  rw [← foldl_foldLanes hop e v hl, ← prefixes_getD op e (0, 0) _ (hl.trans_eq (foldLanes_length v).symm),
    List.getD_eq_getElem?_getD, List.getElem?_drop, ← List.getD_eq_getElem?_getD, Nat.add_comm 1 l]

theorem prefixes_length {α : Type} (op : α → α → α) (e : α) (xs : List α) : (prefixes op e xs).length = xs.length + 1 := by
  induction xs generalizing e with
  | nil => rfl
  | cons x xs ih => exact congrArg (· + 1) (ih (op e x))

theorem suffixes_length {α : Type} (op : α → α → α) (e : α) (xs : List α) : (suffixes op e xs).length = xs.length := by
  induction xs with
  | nil => rfl
  | cons x xs ih =>
    cases xs with
    | nil => rfl
    | cons y ys => exact congrArg (· + 1) ih

theorem cavity_getD (hop : ∀ p q : Fold, (op p q).1 = opW p.1 q.1) (e : Fold) (v : Vec) {l : Nat} (hl : l < 32) :
    ((cavity op e (foldLanes v)).getD l (0, 0)).1 = opW ((List.range l).foldl (fun p l => opW p (lane 32 l v)) e.1)
      (((List.range 32).drop (l + 1)).foldr (fun l q => opW (lane 32 l v) q) e.1) := by
  have hlen := foldLanes_length v
  have hpre : l < (prefixes op e (foldLanes v)).length := by rw [prefixes_length, hlen]; omega
  have hsuf : l < (suffixes op e (foldLanes v)).length := by rw [suffixes_length, hlen]; exact hl
  have hzip : (cavity op e (foldLanes v)).getD l (0, 0) =
      op ((prefixes op e (foldLanes v)).getD l (0, 0)) ((suffixes op e (foldLanes v)).getD l (0, 0)) := by
    unfold cavity
    simp [List.getD_eq_getElem?_getD, hpre, hsuf]
  rw [hzip, hop, prefixes_getD _ _ _ _ (by omega), suffixes_getD _ _ _ _ (by omega), foldl_foldLanes hop e v hl.le,
    foldr_foldLanes hop]

theorem and_or_self_bits {w : Nat} (x y : BitVec w) : x &&& (x ||| y) = x := by
  apply BitVec.eq_of_getLsbD_eq
  intro k _
  rw [BitVec.getLsbD_and, BitVec.getLsbD_or]
  cases x.getLsbD k <;> rfl

/-- A fold writes its lanes, zero beyond the result, and adds its flags (R283). -/
theorem foldVec_gives {f : List Fold → List Fold} {h : Nat → Word} (hg : s.guardPasses g = true) (hs : s.noStreams [d, a])
    (hexec : exec i s = foldVec g d a f s)
    (hf : ∀ l, l < 32 → ((f (foldLanes (s.cx.v.get a))).getD l (0, 0)).1 = h l) :
    ∃ t, exec i s = .next t ∧ t.cx.pc = s.cx.pc + 4 ∧ s.onlyCtx t { s.cx with v := t.cx.v, fflags := t.cx.fflags } ∧
      (∀ r, r ≠ d → t.cx.v.get r = s.cx.v.get r) ∧ s.cx.fflags &&& t.cx.fflags = s.cx.fflags ∧
      ∀ l, l < 32 → lane 32 l (t.cx.v.get d) = h l := by
  have hd := hs d (by simp)
  let r := f (foldLanes (s.cx.v.get a))
  let v := ofLanes 32 (fun l => (r.getD l (0, 0)).1) 32
  let fl : BitVec 5 := r.foldl (fun x q => x ||| q.2) 0
  have hbody : foldVec g d a f s = .next ((s.modCx fun x => { x with v := vput x.v d v, fflags := x.fflags ||| fl }).retire 4) := by
    unfold foldVec
    rw [instr_eq_finish hg, State.streamUse_noStream hd, ok_bind,
      State.sources_single (fun r hr => hs r (List.mem_cons_of_mem _ hr)), ok_bind]
    dsimp only
    rw [valOf_single, State.writeVec_noStream hd]
    exact congrArg (fun t => Host.Outcome.next (t.retire 4)) (s.modCx_modCx _ _)
  obtain ⟨hbytes, hmod, hcores, hme, hctx, hcx⟩ := s.onlyCtx_modCx_retire
    (fun x => { x with v := vput x.v d v, fflags := x.fflags ||| fl }) 4
  refine ⟨_, hexec.trans hbody, ?_, ⟨hbytes, hmod, hcores, hme, hctx, ?_⟩, fun q hq => ?_, ?_, fun l hl => ?_⟩
  · rw [State.cx_retire, State.cx_modCx]
    rfl
  · rw [hcx]
  · rw [hcx]
    exact vget_vput_ne _ _ _ _ hq
  · rw [hcx]
    exact and_or_self_bits _ _
  · rw [hcx]
    dsimp only
    rw [vget_vput_self, lane_ofLanes (by omega) _ hl le_rfl]
    exact hf l hl

/-- A clamped lane of 32 bits, with its bound as VDOT4.B's entry gives it. -/
theorem clampLane_word (z : Int) : clampLane 32 z = (BitVec.ofInt 32 (max (-(2 ^ 31)) (min (2 ^ 31 - 1) z)), 0,
    decide (z < -(2 ^ 31)) || decide (2 ^ 31 ≤ z)) := by
  rw [clampLane_eq]
  refine Prod.ext rfl (Prod.ext rfl ?_)
  have hiff : ((2 : Int) ^ (32 - 1) - 1 < z) ↔ (2 : Int) ^ 31 ≤ z := by omega
  simp only [hiff]

end

/-- Settles O27: each fold writes the lanes that `foldAll_getD`, `scan_getD` and `cavity_getD` give; VDOT4.B is a lane operation
without a guard. -/
theorem vectorFoldResults : Obligations.VectorFoldResults := by
  unfold Obligations.VectorFoldResults
  intro g d a b s hg hs
  have hda : s.noStreams [d, a] := fun r hr => hs r (by simp at hr ⊢; tauto)
  have sum := foldStep_fst (fp32.add .rne)
  have most := foldStep_fst (fp32.pick true)
  have least := foldStep_fst (fp32.pick false)
  have wrapping (p q : Fold) : ((p.1 + q.1, 0) : Fold).1 = p.1 + q.1 := rfl
  refine ⟨?_, ?_, ?_, ?_, ?_, ?_, ?_, ?_⟩
  · exact foldVec_gives hg hda (i := .vrsumS g d a) rfl fun l _ => foldAll_getD sum idSum _ l
  · exact foldVec_gives hg hda (i := .vrmaxS g d a) rfl fun l _ => foldAll_getD most idMax _ l
  · exact foldVec_gives hg hda (i := .vrminS g d a) rfl fun l _ => foldAll_getD least idMin _ l
  · exact foldVec_gives hg hda (i := .vrsumW g d a) rfl fun l _ => foldAll_getD wrapping (0, 0) _ l
  · exact foldVec_gives (f := fun xs => (prefixes stepSum idSum xs).drop 1) hg hda (i := .vscanS g d a) rfl fun l hl => scan_getD sum idSum _ hl
  · exact foldVec_gives hg hda (i := .vcavS g d a) rfl fun l hl => cavity_getD sum idSum _ hl
  · exact foldVec_gives hg hda (i := .vcavmS g d a) rfl fun l hl => cavity_getD most idMax _ hl
  · simp only [← clampLane_word]
    refine State.lanesTo_of_next (f := fun l => dot4Lane (lane 32 l (s.cx.v.get a)) (lane 32 l (s.cx.v.get b))
      (lane 32 l (s.cx.v.get d))) (by omega) le_rfl ?_
    show instr g (fun s => laneOp 32 true .always d a b dot4Lane s) s = _
    rw [instr_eq_finish hg, laneOp_noStream hs, State.writeLanes_noStream (hs d (by simp))]
    rfl

end Sys2Proof.Machine
end

/-! PROOFS. Full/empty words (R59, R60, R257, R286), and vector loads and stores of the scratchpad (R281, R282). Here O14 and O26 are
settled. -/

section
namespace Sys2Proof.Machine

/-! ## The full words of a core (R59) -/

section
variable {k : Core} {a i n w : Nat} {b : Bool}

theorem mem_removeNat {l : List Nat} (h : l.Pairwise (· < ·)) : w ∈ removeNat l i ↔ w ≠ i ∧ w ∈ l := by
  have hnodup : l.Nodup := h.imp fun hlt => Nat.ne_of_lt hlt
  constructor
  · intro hw
    exact ⟨fun hwi => removeNat_not_mem hnodup i (hwi ▸ hw), (removeNat_sublist l i).subset hw⟩
  · rintro ⟨hne, hw⟩
    clear h hnodup
    induction l with
    | nil => exact absurd hw List.not_mem_nil
    | cons k r ih =>
      unfold removeNat
      split
      · next hik => exact (List.mem_cons.mp hw).resolve_left fun hwk => hne (hwk.trans hik.symm)
      · exact List.mem_cons.mpr ((List.mem_cons.mp hw).imp_right ih)

theorem Core.mem_setFull (h : k.full.Pairwise (· < ·)) :
    w ∈ (k.setFull a b).full ↔ w = a / 8 ∧ b = true ∨ w ≠ a / 8 ∧ w ∈ k.full := by
  unfold Core.setFull
  cases b with
  | true =>
    dsimp only
    rw [if_pos rfl, mem_insertNat]
    tauto
  | false =>
    dsimp only
    rw [if_neg Bool.false_ne_true, mem_removeNat h]
    tauto

/-- Setting the bits of `n` words leaves those of the others. -/
theorem Core.mem_setFulls (h : k.full.Pairwise (· < ·)) : w ∈ (k.setFulls a b n).full ↔
    (a / 8 ≤ w ∧ w < a / 8 + n) ∧ b = true ∨ ¬(a / 8 ≤ w ∧ w < a / 8 + n) ∧ w ∈ k.full := by
  induction n generalizing k a with
  | zero =>
    show w ∈ k.full ↔ _
    have hnone : ¬(a / 8 ≤ w ∧ w < a / 8 + 0) := by omega
    tauto
  | succ n ih =>
    have hrising : (k.setFull a b).full.Pairwise (· < ·) := by
      cases b with
      | true => exact insertNat_rising h _
      | false => exact h.sublist (removeNat_sublist _ _)
    have hnext : (a + 8) / 8 = a / 8 + 1 := by omega
    unfold Core.setFulls
    rw [ih hrising, Core.mem_setFull h, hnext]
    have hsplit : a / 8 ≤ w ∧ w < a / 8 + (n + 1) ↔ w = a / 8 ∨ a / 8 + 1 ≤ w ∧ w < a / 8 + 1 + n := by omega
    have hne : a / 8 + 1 ≤ w ∧ w < a / 8 + 1 + n → w ≠ a / 8 := by omega
    rw [hsplit]
    tauto

theorem Core.isFull_word : k.isFull (a + 8 * i) = true ↔ a / 8 + i ∈ k.full := by
  have hdiv : (a + 8 * i) / 8 = a / 8 + i := by omega
  unfold Core.isFull
  rw [hdiv, List.contains_iff_mem]

/-- Words that are all as asked. -/
theorem Core.allFe_of (h : ∀ w, a / 8 ≤ w → w < a / 8 + n → (w ∈ k.full ↔ b = true)) : k.allFe a b n = true := by
  unfold Core.allFe
  rw [List.all_eq_true]
  intro i hi
  have hlt := (mem_upto n i).mp hi
  rw [beq_iff_eq, Bool.eq_iff_iff, Core.isFull_word]
  exact h _ (by omega) (by omega)

theorem Core.allFe_one (h : ¬(a / 8 ∈ k.full ↔ b = true)) : k.allFe a b 1 = false := by
  refine Bool.eq_false_iff.mpr fun hall => h ?_
  have hfirst := List.all_eq_true.mp hall 0 (by decide)
  rwa [beq_iff_eq, Bool.eq_iff_iff, Core.isFull_word] at hfirst

end

/-! ## Effects on the issuing context and its scratchpad -/

/-- Nothing has changed but the issuing context, which is as given, and its core, whose bytes and full words are as given. -/
structure State.SpadEffect (s t : State) (x : Ctx) (spad : Memory) (full : List Nat) : Prop where
  cur : t.cur = s.cur
  curCtx : t.curCtx = s.curCtx
  mem : t.mem = s.mem
  others : ∀ c, c ≠ s.cur → t.core c = s.core c
  cx : t.cx = x
  spad : t.me.spad = spad
  full : t.me.full = full

namespace State.SpadEffect

section
variable {s t : State} {x : Ctx} {spad : Memory} {full : List Nat}

theorem refl (s : State) : s.SpadEffect s s.cx s.me.spad s.me.full := ⟨rfl, rfl, rfl, fun _ _ => rfl, rfl, rfl, rfl⟩

theorem modCx (h : s.SpadEffect t x spad full) (f : Ctx → Ctx) : s.SpadEffect (t.modCx f) (f x) spad full where
  cur := h.cur
  curCtx := h.curCtx
  mem := h.mem
  others c hc := (State.core_modCore_ne _ _ _ _ (h.cur ▸ hc)).trans (h.others c hc)
  cx := by rw [State.cx_modCx, h.cx]
  spad := by rw [State.me_modCx]; exact h.spad
  full := by rw [State.me_modCx]; exact h.full

/-- A change of the core that leaves its contexts. -/
theorem modMe (h : s.SpadEffect t x spad full) (f : Core → Core) (hf : ∀ k, (f k).ctxs = k.ctxs) :
    s.SpadEffect (t.modMe f) x (f t.me).spad (f t.me).full where
  cur := h.cur
  curCtx := h.curCtx
  mem := h.mem
  others c hc := (State.core_modCore_ne _ _ _ _ (h.cur ▸ hc)).trans (h.others c hc)
  cx := (State.cx_modMe_ctxs f hf).trans h.cx
  spad := by rw [State.me_modMe]
  full := by rw [State.me_modMe]

theorem feSet (h : s.SpadEffect t x spad full) (a n : Nat) (b : Bool) :
    s.SpadEffect (t.feSet a n b) x spad (t.me.setFulls a b n).full := by
  have hset := h.modMe (fun k => k.setFulls a b n) fun k => by rw [Core.setFulls_eq]
  have hspad : (t.me.setFulls a b n).spad = spad := by
    rw [Core.setFulls_eq]
    exact h.spad
  exact hspad ▸ hset

theorem feRelease (h : s.SpadEffect t x spad full) (a n : Nat) :
    s.SpadEffect (t.feRelease a n) x spad (t.me.setFulls a true n).full := by
  have hset := h.feSet a n true
  have hnote := hset.modMe (fun k => k.noteFull a n t.cx.seen) fun _ => rfl
  rw [← hset.spad, ← hset.full]
  exact hnote

theorem feAcquire (h : s.SpadEffect t x spad full) (a n : Nat) :
    s.SpadEffect (t.feAcquire a n) { x with seen := (t.feAcquire a n).cx.seen } spad full := by
  have hsync := h.modCx fun x => { x with
    seen := joinSeen x.seen ((upto n).foldl (fun m i => joinSeen m (t.me.feSeen.get [] (a / 8 + i))) []) }
  have hseen : (t.feAcquire a n).cx.seen = _ := congrArg Ctx.seen hsync.cx
  rw [hseen]
  exact hsync

theorem spadSeen (h : s.SpadEffect t x spad full) (a n : Nat) :
    s.SpadEffect (t.spadSeen a n) { x with obs := (t.spadSeen a n).cx.obs } spad full := by
  have hcases : ∃ o : List Rel → List Rel, t.spadSeen a n = t.modCx (fun x => { x with obs := o x.obs }) ∨ t.spadSeen a n = t := by
    unfold State.spadSeen
    simp only
    generalize List.filterMap _ (wordsOf a n) = rels
    split
    · exact ⟨id, .inr rfl⟩
    · exact ⟨fun l => l ++ rels.filter fun r => !l.contains r, .inl rfl⟩
  obtain ⟨o, hseen | hseen⟩ := hcases
  · have hmod := h.modCx fun x => { x with obs := o x.obs }
    rw [hseen, congrArg Ctx.obs hmod.cx]
    exact hmod
  · rw [hseen, h.cx]
    exact h

theorem spadPut (h : s.SpadEffect t x spad full) (p n v : Nat) :
    s.SpadEffect (t.spadPut p n v) x (spad.write p (leBytes n v)) full := by
  obtain ⟨f, heq, hf⟩ := t.spadPutBytes_eq p (leBytes n v)
  have hmod := h.modMe f fun k => by rw [hf]
  have hspad : (f t.me).spad = spad.write p (leBytes n v) := by rw [hf, h.spad]
  have hfull : (f t.me).full = full := by rw [hf, h.full]
  unfold State.spadPut
  rw [heq, ← hspad, ← hfull]
  exact hmod

theorem retire (h : s.SpadEffect t x spad full) (len : Nat) : s.SpadEffect (t.retire len)
    { x with pc := x.pc + dw len, retired := x.retired + 1, latch := none, stop := x.stop.goOn } spad full := by
  have hperf := (h.modCx fun x => { x with pc := x.pc + dw len, retired := x.retired + 1, latch := none, stop := x.stop.goOn }).modMe
    (fun k => k.perf 2 1) fun _ => rfl
  unfold State.retire
  rw [State.me_modCx] at hperf
  rw [← h.spad, ← h.full]
  exact hperf

/-- Where no byte of the scratchpad has changed, every byte reads as before. -/
theorem sameBytes (h : s.SpadEffect t x spad full) (hspad : spad = s.me.spad) : s.sameBytes t := by
  refine ⟨fun a => by rw [h.mem], fun c a => ?_⟩
  by_cases hc : c = s.cur
  · subst hc
    have hme : t.core s.cur = t.me := by rw [← h.cur]; rfl
    rw [hme, h.spad, hspad]
    rfl
  · rw [h.others c hc]

end

end State.SpadEffect

/-! ## Full/empty operations (R257) -/

section
variable {s : State} {g : Guard} {d a : Reg} {p : PReg} {off : Int} {ea : DWord} {keep waits : Bool}

/-- The address of a full/empty operation. -/
def State.feAddr (s : State) (a : Reg) (off : Int) : DWord := s.cx.xr a + BitVec.ofInt 64 (off * 8)

theorem feLoad_ready (hq : s.quiet) (ha : s.regFree a = true) (hd : s.regFree d = true) (hin : inSpad (s.feAddr a off) 8) :
    feLoad keep d a off s = s.feWait (s.feAddr a off).toNat 1 true >>= fun _ => s.spadSound (s.feAddr a off).toNat 8 >>= fun _ =>
      .ok (((s.putX d (dw (s.spadNat (s.feAddr a off).toNat 8))).feSet (s.feAddr a off).toNat 1 keep).feAcquire
        (s.feAddr a off).toNat 1) := by
  have haddr : State.addrOff a off 8 s = .ok (s.feAddr a off) := State.addrOff_free ha off 8
  unfold feLoad
  rw [s.memGate_quiet hq, ok_bind, s.syncPoint_quiet hq, ok_bind, haddr, ok_bind, s.regReady_free d hd, ok_bind,
    spadEA_inSpad (by omega) hin, ok_bind]
  rfl

theorem feStore_ready (hq : s.quiet) (hu : s.unbound) (ha : s.regFree a = true) (hd : s.regFree d = true)
    (hin : inSpad (s.feAddr a off) 8) :
    feStore waits d a off s = (if waits then s.feWait (s.feAddr a off).toNat 1 false else .ok ()) >>= fun _ =>
      .ok ((s.spadPut (s.feAddr a off).toNat 8 (s.cx.xr d).toNat).feRelease (s.feAddr a off).toNat 1) := by
  have haddr : State.addrOff a off 8 s = .ok (s.feAddr a off) := State.addrOff_free ha off 8
  unfold feStore
  rw [s.memGate_quiet hq, ok_bind, s.settled_quiet hq hu, ok_bind, haddr, ok_bind, s.rdX_free d hd, ok_bind,
    spadEA_inSpad (by omega) hin, ok_bind]
  cases waits <;> rfl

/-- A wait for a word that is as asked. -/
theorem State.feWait_ready {n i : Nat} {b : Bool} (h : ∀ w, i / 8 ≤ w → w < i / 8 + n → (w ∈ s.me.full ↔ b = true)) :
    s.feWait i n b = .ok () := if_pos (Core.allFe_of h)

theorem State.feWait_word {i : Nat} {b : Bool} (h : i / 8 ∈ s.me.full ↔ b = true) : s.feWait i 1 b = .ok () :=
  State.feWait_ready fun w hlow hhigh => by rwa [show w = i / 8 by omega]

/-- A word that is not as asked: the context does not issue, and is among the word's waiters (R60, R286). -/
theorem State.finish_feWait {i len : Nat} {b : Bool} {f : Unit → Act} (h : ¬(i / 8 ∈ s.me.full ↔ b = true)) :
    ∃ t, s.finish len (s.feWait i 1 b >>= f) = .next t ∧ t.cx = { s.cx with stop := .waiting } ∧
      (∃ w ∈ t.me.feWait, w.ctx = s.curCtx) ∧ t.me.full = s.me.full ∧ s.sameBytes t := by
  have hstop : s.feWait i 1 b = .error (.waitFe i 1 b) := if_neg (by rw [Core.allFe_one h]; exact Bool.false_ne_true)
  have hadd : s.SpadEffect (s.addFeWaiter i 1 b) s.cx s.me.spad s.me.full := by
    have hmod := (State.SpadEffect.refl s).modMe
      (fun k => if k.feWait.any fun w => w.ctx == s.curCtx then k
        else { k with feWait := k.feWait ++ [{ ctx := s.curCtx, addr := i, n := 1, full := b }] }) fun k => by split <;> rfl
    split at hmod
    · exact hmod
    · exact hmod
  have hblock := hadd.modCx fun x => { x with stop := .waiting }
  refine ⟨(s.addFeWaiter i 1 b).block, ?_, hblock.cx, ?_, hblock.full, hblock.sameBytes rfl⟩
  · rw [hstop]
    rfl
  · have hme : (s.addFeWaiter i 1 b).block.me.feWait = (s.addFeWaiter i 1 b).me.feWait := by
      unfold State.block
      rw [State.me_modCx]
      rfl
    rw [hme]
    unfold State.addFeWaiter
    rw [State.me_modMe]
    split
    · next hany =>
      obtain ⟨w, hw, hctx⟩ := List.any_eq_true.mp hany
      exact ⟨w, hw, by simpa using hctx⟩
    · exact ⟨_, List.mem_append_right _ List.mem_cons_self, rfl⟩

/-- Setting the bit of one word. -/
theorem State.SpadEffect.word {t : State} {x : Ctx} {spad : Memory} {k : Core} {i : Nat} {b : Bool}
    (h : s.SpadEffect t x spad (k.setFulls i b 1).full) (hk : k.full = s.me.full) (hfull : s.me.full.Pairwise (· < ·)) :
    (i / 8 ∈ t.me.full ↔ b = true) ∧ ∀ w, w ≠ i / 8 → (w ∈ t.me.full ↔ w ∈ s.me.full) := by
  have hmem (w : Nat) := Core.mem_setFulls (k := k) (a := i) (b := b) (n := 1) (w := w) (hk ▸ hfull)
  rw [h.full]
  refine ⟨?_, fun w hw => ?_⟩
  · have hin : i / 8 ≤ i / 8 ∧ i / 8 < i / 8 + 1 := by omega
    rw [hmem]
    tauto
  · have hout : ¬(i / 8 ≤ w ∧ w < i / 8 + 1) := by omega
    rw [hmem, hk]
    tauto

/-- An effect that sets one word's bit and retires. -/
theorem State.SpadEffect.setsWord {t : State} {x : Ctx} {spad : Memory} {k : Core} {i len : Nat} {b : Bool}
    (h : s.SpadEffect t x spad (k.setFulls i b 1).full) (hk : k.full = s.me.full) (hfull : s.me.full.Pairwise (· < ·)) :
    (i / 8 ∈ (t.retire len).me.full ↔ b = true) ∧
      (∀ w, w ≠ i / 8 → (w ∈ (t.retire len).me.full ↔ w ∈ s.me.full)) ∧
      (t.retire len).me.spad = spad ∧ (t.retire len).cx.x = x.x ∧ (t.retire len).cx.pc = x.pc + dw len ∧
      (spad = s.me.spad → s.sameBytes (t.retire len)) := by
  have hretire := h.retire len
  obtain ⟨hword, hothers⟩ := hretire.word hk hfull
  exact ⟨hword, hothers, hretire.spad, by rw [hretire.cx], by rw [hretire.cx], hretire.sameBytes⟩

theorem feLoad_full (hq : s.quiet) (ha : s.regFree a = true) (hd : s.regFree d = true) (hfull : s.me.full.Pairwise (· < ·))
    (hin : inSpad (s.feAddr a off) 8) (hword : (s.feAddr a off).toNat / 8 ∈ s.me.full)
    (hsound : (s.feAddr a off).toNat / 8 ∉ s.me.spadLost) :
    ∃ t, s.finish 4 (feLoad keep d a off s) = .next t ∧
      t.cx.x = (s.cx.setX d (dw (s.me.spad.readNat (s.feAddr a off).toNat 8))).x ∧
      ((s.feAddr a off).toNat / 8 ∈ t.me.full ↔ keep = true) ∧
      (∀ w, w ≠ (s.feAddr a off).toNat / 8 → (w ∈ t.me.full ↔ w ∈ s.me.full)) ∧ s.sameBytes t ∧ t.cx.pc = s.cx.pc + 4 := by
  obtain ⟨hend, halign⟩ := hin
  have hok : s.spadSound (s.feAddr a off).toNat 8 = .ok () :=
    State.spadSound_of_sound fun w hlow hhigh => by rwa [show w = (s.feAddr a off).toNat / 8 by omega]
  have heffect := (((State.SpadEffect.refl s).modCx fun x => x.setX d (dw (s.spadNat (s.feAddr a off).toNat 8))).feSet
    (s.feAddr a off).toNat 1 keep).feAcquire (s.feAddr a off).toNat 1
  obtain ⟨hbit, hothers, -, hx, hpc, hbytes⟩ := heffect.setsWord (len := 4) (by rw [State.me_modCx]; rfl) hfull
  refine ⟨_, ?_, hx, hbit, hothers, hbytes rfl, hpc.trans ?_⟩
  · rw [feLoad_ready hq ha hd ⟨hend, halign⟩, State.feWait_word (by simpa using hword), ok_bind, hok, ok_bind]
    rfl
  · exact congrArg (· + _) (Ctx.setX_pc _ _ _)

theorem feStore_empty (hq : s.quiet) (hu : s.unbound) (ha : s.regFree a = true) (hd : s.regFree d = true)
    (hwf : s.me.spad.wf = true) (hfull : s.me.full.Pairwise (· < ·)) (hin : inSpad (s.feAddr a off) 8)
    (hword : waits = true → (s.feAddr a off).toNat / 8 ∉ s.me.full) :
    ∃ t, s.finish 4 (feStore waits d a off s) = .next t ∧
      t.me.spad.readNat (s.feAddr a off).toNat 8 = (s.cx.xr d).toNat ∧
      (∀ j, j < (s.feAddr a off).toNat ∨ (s.feAddr a off).toNat + 8 ≤ j → t.me.spad.get j = s.me.spad.get j) ∧
      (s.feAddr a off).toNat / 8 ∈ t.me.full ∧
      (∀ w, w ≠ (s.feAddr a off).toNat / 8 → (w ∈ t.me.full ↔ w ∈ s.me.full)) ∧ t.cx.x = s.cx.x ∧ t.cx.pc = s.cx.pc + 4 := by
  have heffect := ((State.SpadEffect.refl s).spadPut (s.feAddr a off).toNat 8 (s.cx.xr d).toNat).feRelease
    (s.feAddr a off).toNat 1
  have hk : (s.spadPut (s.feAddr a off).toNat 8 (s.cx.xr d).toNat).me.full = s.me.full := (s.spadPutBytes_frame _ _).2.2.1
  obtain ⟨hbit, hothers, hspad, hx, hpc, -⟩ := heffect.setsWord (len := 4) hk hfull
  refine ⟨_, ?_, ?_, fun j hj => ?_, hbit.mpr rfl, hothers, hx, hpc⟩
  · have hready : (if waits then s.feWait (s.feAddr a off).toNat 1 false else .ok ()) = .ok () := by
      cases waits with
      | true => exact State.feWait_word (by simpa using hword rfl)
      | false => rfl
    rw [feStore_ready hq hu ha hd hin, hready, ok_bind]
    rfl
  · rw [hspad]
    exact (Memory.readNat_writeNat _ _ _ _ hwf).trans (Nat.mod_eq_of_lt (s.cx.xr d).isLt)
  · rw [hspad]
    exact Memory.get_write_out _ _ _ _ (by rwa [leBytes_length])

end

/-- Settles O14: LDF and LDK by `feLoad_full`, STE and STF by `feStore_empty`, SETE and SETF by the bit they set; a word that is not as
asked by `State.finish_feWait`. -/
theorem fullEmptyResults : Obligations.FullEmptyResults := by
  unfold Obligations.FullEmptyResults
  refine ⟨fun g d a p off s hg hready hq hu hwf hfull => ?_, fun g d a off s hg hready hq hu => ?_⟩
  · intro ea word full hin onlyBit loads stores sets
    have ha := hready a (by simp)
    have hd := hready d (by simp)
    have haddr : State.addrOff a off 8 s = .ok ea := State.addrOff_free ha off 8
    have hea : spadEA ea 8 = .ok ea.toNat := spadEA_inSpad (by omega) hin
    have hgate := s.memGate_quiet hq
    refine ⟨fun hword hsound => ?_, fun hword hsound => ?_, fun hword => ?_, ?_, ?_, ?_, ?_⟩
    · show ∃ t, instr g (feLoad false d a off) s = .next t ∧ _
      rw [instr_eq_finish hg]
      exact feLoad_full hq ha hd hfull hin hword hsound
    · show ∃ t, instr g (feLoad true d a off) s = .next t ∧ _
      rw [instr_eq_finish hg]
      exact feLoad_full hq ha hd hfull hin hword hsound
    · show ∃ t, instr g (feStore true d a off) s = .next t ∧ _
      rw [instr_eq_finish hg]
      exact feStore_empty hq hu ha hd hwf hfull hin fun _ => hword
    · show ∃ t, instr g (feStore false d a off) s = .next t ∧ _
      rw [instr_eq_finish hg]
      exact feStore_empty hq hu ha hd hwf hfull hin fun h => absurd h Bool.false_ne_true
    · have heffect := (State.SpadEffect.refl s).feSet ea.toNat 1 false
      obtain ⟨hbit, hothers, -, hx, hpc, hbytes⟩ := heffect.setsWord (len := 4) rfl hfull
      refine ⟨_, (execSete.eq_1 g a off s).trans ?_, hbit, hothers, hbytes rfl, hx, hpc⟩
      rw [instr_eq_finish hg, hgate, ok_bind, haddr, ok_bind, hea, ok_bind]
      rfl
    · have heffect := (State.SpadEffect.refl s).feRelease ea.toNat 1
      obtain ⟨hbit, hothers, -, hx, hpc, hbytes⟩ := heffect.setsWord (len := 4) rfl hfull
      refine ⟨_, (execSetf.eq_1 g a off s).trans ?_, hbit, hothers, hbytes rfl, hx, hpc⟩
      rw [instr_eq_finish hg, hgate, ok_bind, s.settled_quiet hq hu, ok_bind, haddr, ok_bind, hea, ok_bind]
      rfl
    · have hbit : predBit (s.me.isFull ea.toNat) = if full then 1 else 0 := by
        simp [predBit, Core.isFull, full, word]
      refine (execTfe.eq_1 g p a off s).trans ?_
      rw [instr_eq_finish hg, hgate, ok_bind, haddr, ok_bind, hea, ok_bind, hbit]
      rfl
  · intro ea hin waits
    have ha := hready a (by simp)
    have hd := hready d (by simp)
    refine ⟨fun hempty => ⟨?_, ?_⟩, fun hword => ?_⟩
    · show ∃ t, instr g (feLoad false d a off) s = .next t ∧ _
      rw [instr_eq_finish hg, feLoad_ready hq ha hd hin]
      exact State.finish_feWait fun h => hempty (h.mpr rfl)
    · show ∃ t, instr g (feLoad true d a off) s = .next t ∧ _
      rw [instr_eq_finish hg, feLoad_ready hq ha hd hin]
      exact State.finish_feWait fun h => hempty (h.mpr rfl)
    · show ∃ t, instr g (feStore true d a off) s = .next t ∧ _
      rw [instr_eq_finish hg, feStore_ready hq hu ha hd hin]
      exact State.finish_feWait fun h => Bool.false_ne_true (h.mp hword)

end Sys2Proof.Machine
end

/-! PROOFS. Vector loads and stores of the scratchpad (R281, R282). Here O26 is settled. -/

section
namespace Sys2Proof.Machine

/-! ## Addresses and sources -/

section
variable {s : State} {d a : Reg} {ea : DWord}

theorem State.streamNamed_unbound (hu : s.unbound) (r : Reg) : s.streamNamed r = none := by
  have hnames (i : Fin 8) : ((s.me.streams.get i).names s.curCtx).isSome = false := by
    unfold Stream.names
    rw [hu i]
    rfl
  unfold State.streamNamed
  simp [hnames]

/-- A vector's 128 bytes lie in the scratchpad, aligned to 8 (R281). -/
def vecFits (ea : DWord) : Prop := ea.toNat + 128 ≤ 0x40000 ∧ ea.toNat % 8 = 0

theorem spadEA_vector (h : vecFits ea) : spadEA ea 128 = .ok ea.toNat := by
  obtain ⟨hend, halign⟩ := h
  have hbound : decide (ea.toNat + 128 - 1 ≤ 0x3FFFF) = true := decide_eq_true (by omega)
  have hmin : decide (ea.toNat % min 128 8 = 0) = true := decide_eq_true halign
  unfold spadEA spadCheck
  rw [hbound, hmin]
  rfl

theorem vecAddr_fits {off : Int} (haddr : State.addrOff a off 128 s = .ok ea) (h : vecFits ea) : vecAddr a off s = .ok ea.toNat := by
  unfold vecAddr
  rw [haddr, ok_bind, spadEA_vector h]

theorem State.storeVec_noStream (hd : s.streamNamed d = none) : s.storeVec d = .ok (s.cx.v.get d, s) := by
  unfold State.storeVec
  rw [State.sources_single (by simpa [State.noStreams] using hd), ok_bind]
  dsimp only
  rw [valOf_single]
  rfl

end

/-! ## Bytes -/

section
variable {m : Memory}

theorem pow_256 (n : Nat) : 256 ^ n = 2 ^ (8 * n) := (Nat.pow_mul 2 8 n).symm

theorem pow_256_vector : 256 ^ 128 = 2 ^ 1024 := (pow_256 128).trans (congrArg (2 ^ ·) (by decide))

theorem leNat_lt (l : List Byte) : leNat l < 256 ^ l.length := by
  induction l with
  | nil => exact Nat.one_pos
  | cons b r ih =>
    have hb := b.isLt
    unfold leNat
    rw [List.length_cons, Nat.pow_succ]
    omega

theorem Memory.readNat_lt (m : Memory) (a n : Nat) : m.readNat a n < 256 ^ n := by
  have hlt := leNat_lt (m.read a n)
  rwa [Memory.read_length] at hlt

/-- A memory with the lanes of a vector stored at a list of places, in lane order from one on (R282). -/
def elementsWritten (v : Vec) : List Nat → Nat → Memory → Memory
  | [], _, m => m
  | p :: r, l, m => elementsWritten v r (l + 1) (m.write p (leBytes 4 (lane 32 l v).toNat))

theorem get_elementsWritten {v : Vec} {ps : List Nat} {i : Nat} (h : ∀ p ∈ ps, i < p ∨ p + 4 ≤ i) (l : Nat) :
    (elementsWritten v ps l m).get i = m.get i := by
  induction ps generalizing l m with
  | nil => rfl
  | cons p r ih =>
    obtain ⟨hp, hr⟩ := List.forall_mem_cons.mp h
    unfold elementsWritten
    rw [ih hr]
    exact Memory.get_write_out _ _ _ _ (by rwa [leBytes_length])

theorem readNat_elementsWritten_out {v : Vec} {ps : List Nat} {b : Nat} (h : ∀ p ∈ ps, b + 4 ≤ p ∨ p + 4 ≤ b) (l : Nat) :
    (elementsWritten v ps l m).readNat b 4 = m.readNat b 4 := by
  induction ps generalizing l m with
  | nil => rfl
  | cons p r ih =>
    obtain ⟨hp, hr⟩ := List.forall_mem_cons.mp h
    unfold elementsWritten
    rw [ih hr]
    exact Memory.readNat_write_out _ _ _ _ _ (by rwa [leBytes_length])

/-- At a place that no later lane has, the lane's value stays. -/
theorem readNat_elementsWritten {v : Vec} {ps : List Nat} (hwf : m.wf = true) (halign : ∀ p ∈ ps, p % 4 = 0) (l : Nat) {i : Nat}
    (hi : i < ps.length) (hlast : ∀ k, i < k → k < ps.length → ps.getD k 0 ≠ ps.getD i 0) :
    (elementsWritten v ps l m).readNat (ps.getD i 0) 4 = (lane 32 (l + i) v).toNat := by
  induction ps generalizing l m i with
  | nil => exact absurd hi (Nat.not_lt_zero i)
  | cons p r ih =>
    obtain ⟨hp, hr⟩ := List.forall_mem_cons.mp halign
    unfold elementsWritten
    cases i with
    | zero =>
      have hout : ∀ q ∈ r, p + 4 ≤ q ∨ q + 4 ≤ p := by
        intro q hq
        obtain ⟨k, hk, rfl⟩ := List.mem_iff_getElem.mp hq
        have hne : r[k] ≠ p := by simpa [hk] using hlast (k + 1) (Nat.succ_pos k) (Nat.succ_lt_succ hk)
        have hq4 := hr _ hq
        omega
      refine (readNat_elementsWritten_out hout (l + 1)).trans ?_
      exact (Memory.readNat_writeNat _ _ _ _ hwf).trans (Nat.mod_eq_of_lt (lane 32 l v).isLt)
    | succ i =>
      have hnext := ih (Memory.write_wf m p (leBytes 4 (lane 32 l v).toNat) hwf) hr (l + 1) (Nat.lt_of_succ_lt_succ hi)
        fun k hik hk => by simpa using hlast (k + 1) (Nat.succ_lt_succ hik) (Nat.succ_lt_succ hk)
      rw [show l + (i + 1) = l + 1 + i by omega]
      exact hnext

end

/-! ## The addresses of 32 elements (R282) -/

section
variable {s t : State} {x : Ctx} {spad : Memory} {full : List Nat} {f : Nat → DWord}

/-- The places of 32 elements. -/
def places (f : Nat → DWord) : List Nat := (upto 32).map fun l => (f l).toNat

theorem places_getD (f : Nat → DWord) {l : Nat} (hl : l < 32) : (places f).getD l 0 = (f l).toNat := by
  unfold places
  rw [upto_eq_range]
  simp [hl]

theorem places_length (f : Nat → DWord) : (places f).length = 32 := by
  unfold places
  rw [upto_eq_range, List.length_map, List.length_range]

theorem forall_mem_places {P : Nat → Prop} (h : ∀ l, l < 32 → P (f l).toNat) : ∀ p ∈ places f, P p :=
  List.forall_mem_map.mpr fun l hl => h l ((mem_upto 32 l).mp hl)

theorem mapM_ok {α β : Type} {f : α → Except Stop β} {g : α → β} {l : List α} (h : ∀ x ∈ l, f x = .ok (g x)) :
    l.mapM f = .ok (l.map g) := by
  induction l with
  | nil => rfl
  | cons x r ih =>
    obtain ⟨hx, hr⟩ := List.forall_mem_cons.mp h
    rw [List.mapM_cons, hx, ok_bind, ih hr]
    rfl

theorem elementAddrs_inSpad (h : ∀ l, l < 32 → inSpad (f l) 4) : elementAddrs f = .ok (places f) :=
  mapM_ok fun l hl => spadEA_inSpad (by omega) (h l ((mem_upto 32 l).mp hl))

theorem State.elementsSound_ok (h : ∀ l, l < 32 → s.sound (f l).toNat 4) : s.elementsSound (places f) = .ok () := by
  have hall : ∀ p ∈ places f, s.spadSound p 4 = .ok () := forall_mem_places fun l hl => State.spadSound_of_sound (h l hl)
  unfold State.elementsSound
  generalize places f = ps at hall
  induction ps with
  | nil => rfl
  | cons p r ih =>
    obtain ⟨hp, hr⟩ := List.forall_mem_cons.mp hall
    show (s.spadSound p 4 >>= fun _ => r.forM fun p => s.spadSound p 4) = _
    rw [hp, ok_bind, ih hr]

theorem State.SpadEffect.elementsSeen (h : s.SpadEffect t x spad full) (ps : List Nat) :
    s.SpadEffect (t.elementsSeen ps) { x with obs := (t.elementsSeen ps).cx.obs } spad full := by
  unfold State.elementsSeen
  induction ps generalizing t x with
  | nil =>
    show s.SpadEffect t { x with obs := t.cx.obs } spad full
    rw [h.cx]
    exact h
  | cons p r ih =>
    have hrest := ih (h.spadSeen p 4)
    exact hrest

theorem State.SpadEffect.storeElements (h : s.SpadEffect t x spad full) (v : Vec) (ps : List Nat) (l : Nat) :
    s.SpadEffect (storeElements v ps l t) x (elementsWritten v ps l spad) full := by
  induction ps generalizing t spad l with
  | nil => exact h
  | cons p r ih => exact ih (h.spadPut p 4 _) (l + 1)

end

/-! ## What vector loads and stores leave -/

section
variable {s t : State} {g : Guard} {d a b : Reg} {x : Ctx} {spad : Memory} {full : List Nat} {i : Instr}

/-- Of the module, only the scratchpad and full words of the issuing core, and of its context only vector register `d` beside the PC
and what it knows, may have changed. -/
def State.vecDone (s : State) (d : Reg) (t : State) : Prop :=
  t.cx.pc = s.cx.pc + 4 ∧ t.cx.x = s.cx.x ∧ t.cx.p = s.cx.p ∧ t.cx.f = s.cx.f ∧ (∀ m, t.mem.get m = s.mem.get m) ∧
    (∀ r, r ≠ d → t.cx.v.get r = s.cx.v.get r) ∧ ∀ c, c ≠ s.cur → t.core c = s.core c

/-- An effect on vector registers, the scratchpad and what the context knows. -/
theorem State.SpadEffect.vecDone (h : s.SpadEffect t x spad full)
    (hx : x = { s.cx with v := x.v, obs := x.obs, seen := x.seen }) (hv : ∀ r, r ≠ d → x.v.get r = s.cx.v.get r) :
    s.vecDone d (t.retire 4) ∧ (t.retire 4).cx.v = x.v ∧ (t.retire 4).me.spad = spad ∧ (t.retire 4).me.full = full := by
  have hretire := h.retire 4
  have hcx := hretire.cx
  refine ⟨⟨?_, ?_, ?_, ?_, fun m => by rw [hretire.mem], fun r hr => ?_, hretire.others⟩, ?_, hretire.spad, hretire.full⟩
  · rw [hcx, hx]
    rfl
  · rw [hcx, hx]
  · rw [hcx, hx]
  · rw [hcx, hx]
  · rw [hcx]
    exact hv r hr
  · rw [hcx]

/-- A vector is loaded. -/
def State.vecLoaded (s : State) (d : Reg) (t : State) : Prop := s.vecDone d t ∧ ∀ m, t.me.spad.get m = s.me.spad.get m

/-- A vector is stored. -/
def State.vecStored (s : State) (d : Reg) (t : State) (ea : DWord) : Prop :=
  s.vecDone d t ∧ t.cx.v = s.cx.v ∧ t.me.spad.readNat ea.toNat 128 = (s.cx.v.get d).toNat ∧
    ∀ m, m < ea.toNat ∨ ea.toNat + 128 ≤ m → t.me.spad.get m = s.me.spad.get m

theorem State.SpadEffect.vecLoaded {w : Vec} (h : s.SpadEffect t x s.me.spad full)
    (hx : x = { s.cx with v := x.v, obs := x.obs, seen := x.seen }) (hv : x.v = vput s.cx.v d w) :
    s.vecLoaded d (t.retire 4) ∧ (t.retire 4).me.full = full ∧ (t.retire 4).cx.v.get d = w := by
  obtain ⟨hdone, hvec, hspad, hfull⟩ := h.vecDone hx fun r hr => by rw [hv]; exact vget_vput_ne _ _ _ _ hr
  refine ⟨⟨hdone, fun m => by rw [hspad]⟩, hfull, ?_⟩
  rw [hvec, hv, vget_vput_self]

theorem State.SpadEffect.vecStored {ea : DWord} (hwf : s.me.spad.wf = true)
    (h : s.SpadEffect t s.cx (s.me.spad.write ea.toNat (leBytes 128 (s.cx.v.get d).toNat)) full) :
    s.vecStored d (t.retire 4) ea ∧ (t.retire 4).me.full = full := by
  obtain ⟨hdone, hvec, hspad, hfull⟩ := h.vecDone (d := d) rfl fun _ _ => rfl
  refine ⟨⟨hdone, hvec, ?_, fun m hm => ?_⟩, hfull⟩
  · rw [hspad]
    refine (Memory.readNat_writeNat _ _ _ _ hwf).trans (Nat.mod_eq_of_lt ?_)
    exact (s.cx.v.get d).isLt.trans_eq pow_256_vector.symm
  · rw [hspad]
    exact Memory.get_write_out _ _ _ _ (by rwa [leBytes_length])

/-- The 1024 bits that a load takes from 128 bytes. -/
theorem State.spadVec_toNat (s : State) (p : Nat) : (s.spadVec p).toNat = s.me.spad.readNat p 128 := by
  have hlt : s.me.spad.readNat p 128 < 2 ^ 1024 := (Memory.readNat_lt _ p 128).trans_eq pow_256_vector
  exact (BitVec.toNat_ofNat _ _).trans (Nat.mod_eq_of_lt hlt)

/-- The 16 words of a vector after their bits are set. -/
theorem Core.setFulls_vector {k : Core} {p : Nat} {c : Bool} (hk : k.full = s.me.full) (hfull : s.me.full.Pairwise (· < ·)) :
    (∀ w, p / 8 ≤ w → w < p / 8 + 16 → (w ∈ (k.setFulls p c 16).full ↔ c = true)) ∧
      ∀ w, w < p / 8 ∨ p / 8 + 16 ≤ w → (w ∈ (k.setFulls p c 16).full ↔ w ∈ s.me.full) := by
  have hmem (w : Nat) := Core.mem_setFulls (k := k) (a := p) (b := c) (n := 16) (w := w) (hk ▸ hfull)
  refine ⟨fun w hlow hhigh => ?_, fun w hw => ?_⟩
  · rw [hmem]
    tauto
  · have hout : ¬(p / 8 ≤ w ∧ w < p / 8 + 16) := by omega
    rw [hmem, hk]
    tauto

/-- The lanes that a gather reads. -/
def State.gathered (s : State) (f : Nat → DWord) : Vec :=
  ofLanes 32 (fun l => BitVec.ofNat 32 (s.spadNat ((places f).getD l 0) 4)) 32

theorem State.lane_gathered (s : State) (f : Nat → DWord) {l : Nat} (hl : l < 32) :
    (lane 32 l (s.gathered f)).toNat = s.me.spad.readNat (f l).toNat 4 := by
  have hlt : s.me.spad.readNat (f l).toNat 4 < 2 ^ 32 := (Memory.readNat_lt _ _ 4).trans_eq (pow_256 4)
  unfold State.gathered
  rw [lane_ofLanes (by omega) _ hl le_rfl, places_getD f hl]
  exact (BitVec.toNat_ofNat _ _).trans (Nat.mod_eq_of_lt hlt)

/-- A gather writes each lane with the four bytes at its place. -/
theorem State.gathers_of {f : Nat → DWord}
    (hexec : exec i s = .next (((s.putV d (s.gathered f)).elementsSeen (places f)).retire 4)) :
    ∃ t, exec i s = .next t ∧ s.vecLoaded d t ∧ t.me.full = s.me.full ∧
      ∀ l, l < 32 → (lane 32 l (t.cx.v.get d)).toNat = s.me.spad.readNat (f l).toNat 4 := by
  have heffect := ((State.SpadEffect.refl s).modCx fun x => { x with v := vput x.v d (s.gathered f) }).elementsSeen (places f)
  obtain ⟨hloaded, hfull, hvec⟩ := heffect.vecLoaded rfl rfl
  exact ⟨_, hexec, hloaded, hfull, fun l hl => (congrArg (fun v => (lane 32 l v).toNat) hvec).trans (s.lane_gathered f hl)⟩

/-- A scatter writes each place with the highest lane that has it. -/
theorem State.scatters_of {f : Nat → DWord} (hwf : s.me.spad.wf = true) (hfit : ∀ l, l < 32 → inSpad (f l) 4)
    (hexec : exec i s = .next ((storeElements (s.cx.v.get d) (places f) 0 s).retire 4)) :
    ∃ t, exec i s = .next t ∧ s.vecDone d t ∧ t.cx.v = s.cx.v ∧ t.me.full = s.me.full ∧
      (∀ l, l < 32 → (∀ k, l < k → k < 32 → f k ≠ f l) →
        t.me.spad.readNat (f l).toNat 4 = (lane 32 l (s.cx.v.get d)).toNat) ∧
      ∀ m, (∀ l, l < 32 → m < (f l).toNat ∨ (f l).toNat + 4 ≤ m) → t.me.spad.get m = s.me.spad.get m := by
  have heffect := (State.SpadEffect.refl s).storeElements (s.cx.v.get d) (places f) 0
  obtain ⟨hdone, hvec, hspad, hfull⟩ := heffect.vecDone (d := d) rfl fun _ _ => rfl
  refine ⟨_, hexec, hdone, hvec, hfull, fun l hl hlast => ?_, fun m hm => ?_⟩
  · have halign : ∀ p ∈ places f, p % 4 = 0 := forall_mem_places fun l hl => (hfit l hl).2
    have hlane := readNat_elementsWritten (v := s.cx.v.get d) hwf halign 0 (i := l) (by rwa [places_length]) fun k hlk hk => by
      rw [places_length] at hk
      rw [places_getD f hk, places_getD f hl]
      exact fun heq => hlast k hlk hk (BitVec.eq_of_toNat_eq heq)
    rw [hspad, ← places_getD f hl, hlane, Nat.zero_add]
  · rw [hspad]
    exact get_elementsWritten (forall_mem_places hm) 0

end

/-- Settles O26: each instruction writes the vector, or the bytes and bits, that its effect says (`State.SpadEffect`). -/
theorem vectorMemoryResults : Obligations.VectorMemoryResults := by
  unfold Obligations.VectorMemoryResults
  intro g d a b off s hg hready hq hu hwf hfull at_ row idx fits allFit words bitsAfter done loaded stored gathers scatters
  have ha := hready a (by simp)
  have hd := State.streamNamed_unbound hu d
  have hxa := s.rdX_free a ha
  have hxb := s.rdX_free b (hready b (by simp))
  have hgate := s.memGate_quiet hq
  have hrel : s.relWait = .ok () := State.relWait_released fun q hqs => by rw [hq.1] at hqs; exact absurd hqs List.not_mem_nil
  have huse (push : Bool) := State.streamUse_noStream hd push
  have haddr : State.addrOff a off 128 s = .ok at_ := State.addrOff_free ha off 128
  have hwrite := State.writeVec_noStream (s := s) hd
  have hstore := State.storeVec_noStream hd
  obtain ⟨vals, hpair, hval⟩ := State.sources_noStream (s := s) (rs := [d, b]) fun r _ => State.streamNamed_unbound hu r
  have hsingle := State.sources_single (s := s) (d := b) fun r _ => State.streamNamed_unbound hu r
  refine ⟨fun hfits hsound => ?_, fun hfits => ?_, fun hfits hsound hwords => ?_, fun hfits hwords => ?_, fun hfits => ?_,
    fun hfit hsound => ?_, fun hfit hsound => ?_, fun hfit => ?_, fun hfit => ?_⟩
  · have heffect := ((State.SpadEffect.refl s).modCx fun x => { x with v := vput x.v d (s.spadVec at_.toNat) }).spadSeen at_.toNat 128
    obtain ⟨hloaded, hbits, hvec⟩ := heffect.vecLoaded rfl rfl
    refine ⟨_, (execVld.eq_1 g d a off s).trans ?_, hloaded, hbits, (congrArg BitVec.toNat hvec).trans (s.spadVec_toNat _)⟩
    rw [instr_eq_finish hg, hgate, ok_bind, huse, ok_bind, vecAddr_fits haddr hfits, ok_bind, State.spadSound_of_sound hsound,
      ok_bind, hwrite]
    rfl
  · have heffect := (State.SpadEffect.refl s).spadPut at_.toNat 128 (s.cx.v.get d).toNat
    obtain ⟨hstored, hbits⟩ := heffect.vecStored hwf
    refine ⟨_, (execVst.eq_1 g d a off s).trans ?_, hstored, hbits⟩
    rw [instr_eq_finish hg, hgate, ok_bind, hrel, ok_bind, huse, ok_bind, vecAddr_fits haddr hfits, ok_bind, hstore]
    rfl
  · have heffect := (((State.SpadEffect.refl s).modCx fun x => { x with v := vput x.v d (s.spadVec at_.toNat) }).feSet
      at_.toNat 16 false).feAcquire at_.toNat 16
    obtain ⟨hloaded, hbits, hvec⟩ := heffect.vecLoaded rfl rfl
    obtain ⟨hin, hout⟩ := Core.setFulls_vector (s := s) (k := (s.putV d (s.spadVec at_.toNat)).me) (p := at_.toNat) (c := false)
      (by unfold State.putV; rw [State.me_modCx]; rfl) hfull
    refine ⟨_, (execVldf.eq_1 g d a off s).trans ?_, hloaded, ⟨fun w hlow hhigh => ?_, fun w hw => ?_⟩,
      (congrArg BitVec.toNat hvec).trans (s.spadVec_toNat _)⟩
    · rw [instr_eq_finish hg, hgate, ok_bind, s.syncPoint_quiet hq, ok_bind, huse, ok_bind, vecAddr_fits haddr hfits, ok_bind,
        State.feWait_ready fun w hlow hhigh => iff_of_true (hwords w hlow hhigh) rfl, ok_bind,
        State.spadSound_of_sound hsound, ok_bind, hwrite]
      rfl
    · rw [hbits]
      exact (hin w hlow hhigh).trans (by simp)
    · rw [hbits]
      exact hout w hw
  · have heffect := ((State.SpadEffect.refl s).spadPut at_.toNat 128 (s.cx.v.get d).toNat).feRelease at_.toNat 16
    obtain ⟨hstored, hbits⟩ := heffect.vecStored hwf
    obtain ⟨hin, hout⟩ := Core.setFulls_vector (s := s) (k := (s.spadPut at_.toNat 128 (s.cx.v.get d).toNat).me) (p := at_.toNat)
      (c := true) (s.spadPutBytes_frame _ _).2.2.1 hfull
    refine ⟨_, (execVste.eq_1 g d a off s).trans ?_, hstored, fun w hlow hhigh => ?_, fun w hw => ?_⟩
    · rw [instr_eq_finish hg, hgate, ok_bind, s.settled_quiet hq hu, ok_bind, huse, ok_bind, vecAddr_fits haddr hfits, ok_bind,
        State.feWait_ready fun w hlow hhigh => iff_of_false (hwords w hlow hhigh) Bool.false_ne_true, ok_bind, hstore]
      rfl
    · rw [hbits]
      exact (hin w hlow hhigh).trans (by simp)
    · rw [hbits]
      exact hout w hw
  · have heffect := ((State.SpadEffect.refl s).spadPut (s.cx.xr a).toNat 128 (s.cx.v.get d).toNat).feRelease (s.cx.xr a).toNat 16
    obtain ⟨hstored, hbits⟩ := heffect.vecStored hwf
    obtain ⟨hin, hout⟩ := Core.setFulls_vector (s := s) (k := (s.spadPut (s.cx.xr a).toNat 128 (s.cx.v.get d).toNat).me)
      (p := (s.cx.xr a).toNat) (c := true) (s.spadPutBytes_frame _ _).2.2.1 hfull
    refine ⟨_, (execVstf.eq_1 g d a s).trans ?_, hstored, fun w hlow hhigh => ?_, fun w hw => ?_⟩
    · rw [instr_eq_finish hg, hgate, ok_bind, s.settled_quiet hq hu, ok_bind, huse, ok_bind,
        vecAddr_fits (State.addrOff_zero ha 128) hfits, ok_bind, hstore]
      rfl
    · rw [hbits]
      exact (hin w hlow hhigh).trans (by simp)
    · rw [hbits]
      exact hout w hw
  · refine State.gathers_of (f := row) ((execVlds.eq_1 g d a b s).trans ?_)
    rw [instr_eq_finish hg, hgate, ok_bind, huse, ok_bind, hxa, ok_bind, hxb, ok_bind,
      show elementAddrs (strided (s.cx.xr a) (s.cx.xr b)) = .ok (places row) from elementAddrs_inSpad hfit, ok_bind,
      State.elementsSound_ok hsound, ok_bind, hwrite]
    rfl
  · refine State.gathers_of (f := idx) ((execVgath.eq_1 g d a b s).trans ?_)
    rw [instr_eq_finish hg, hgate, ok_bind, huse, ok_bind, hxa, ok_bind, hsingle, ok_bind]
    dsimp only
    rw [valOf_single, show elementAddrs (indexed (s.cx.xr a) (s.cx.v.get b)) = .ok (places idx) from elementAddrs_inSpad hfit,
      ok_bind, State.elementsSound_ok hsound, ok_bind, hwrite]
    rfl
  · refine State.scatters_of (f := row) hwf hfit ((execVsts.eq_1 g d a b s).trans ?_)
    rw [instr_eq_finish hg, hgate, ok_bind, hrel, ok_bind, huse, ok_bind, hxa, ok_bind, hxb, ok_bind,
      show elementAddrs (strided (s.cx.xr a) (s.cx.xr b)) = .ok (places row) from elementAddrs_inSpad hfit, ok_bind, hstore]
    rfl
  · refine State.scatters_of (f := idx) hwf hfit ((execVscat.eq_1 g d a b s).trans ?_)
    rw [instr_eq_finish hg, hgate, ok_bind, hrel, ok_bind, hxa, ok_bind, hpair, ok_bind]
    dsimp only
    rw [hval d (by simp), hval b (by simp),
      show elementAddrs (indexed (s.cx.xr a) (s.cx.v.get b)) = .ok (places idx) from elementAddrs_inSpad hfit]
    rfl

end Sys2Proof.Machine
end

/-! PROOFS. The issue of requests to global memory (R253, R258 to R269): loads, stores, atomics. Here O15 and O16 are settled. -/

section
namespace Sys2Proof.Machine

/-! ## What an issue waits for -/

section
variable {s : State} {d : Reg}

theorem State.syncPoint_noDeferred (h : s.noDeferred) : s.syncPoint = .ok () := by
  have hnone : (s.cx.reqs.find? fun q => q.fault.isSome && q.dest.isNone) = none :=
    List.find?_eq_none.mpr fun q hq => by simp [h q hq]
  unfold State.syncPoint
  rw [hnone]

theorem State.splitReady_hasPlace (h : s.hasPlace) (hd : s.regFree d = true) : s.splitReady d = .ok () := by
  obtain ⟨hgate, hroom⟩ := h
  unfold State.splitReady State.replyRoom
  rw [s.regReady_free d hd, ok_bind, State.memGate_ungated hgate, ok_bind, decide_eq_true hroom]
  rfl

theorem State.settledAt_quiet (hq : s.quiet) (hu : s.unbound) (scope : Nat) : s.settledAt scope = .ok () := by
  unfold State.settledAt State.allPerformed
  rw [s.syncPoint_quiet hq, State.followed_of_behindDone hq.2, hq.1, State.pushesDone_unbound hu, Bool.or_true]
  rfl

theorem State.versionsDone_quiet (hq : s.quiet) : s.versionsDone = .ok () := by
  unfold State.versionsDone
  rw [hq.1]
  rfl

theorem State.versionSync_quiet (hq : s.quiet) : s.versionSync = .ok () := by
  unfold State.versionSync
  rw [hq.1]
  rfl

theorem checkIn_true (s : State) (cause : Byte) (faddr finfo : DWord) : checkIn s true cause faddr finfo = .ok () := rfl

theorem checkIn_false (s : State) (cause : Byte) (faddr finfo : DWord) :
    checkIn s false cause faddr finfo = .error (.trapIn ⟨cause, faddr, finfo⟩ s) := rfl

end

/-! ## What translation leaves of what the checks behind it read -/

section
variable {s u : State}

theorem State.sameButTlbs.paUnreachable (h : s.sameButTlbs u) (pa : Nat) : u.paUnreachable pa = s.paUnreachable pa := by
  obtain ⟨l, cs, n, rfl, -⟩ := h
  rfl

theorem State.sameButTlbs.remoteDev (h : s.sameButTlbs u) (pa : Nat) : u.remoteDev pa = s.remoteDev pa := by
  obtain ⟨l, cs, n, rfl, -⟩ := h
  rfl

theorem State.sameButTlbs.toFallback (h : s.sameButTlbs u) (op pa : Nat) :
    u.toFallback u.cur op pa = s.toFallback s.cur op pa := by
  obtain ⟨l, cs, n, rfl, -⟩ := h
  rfl

theorem State.sameButTlbs.remoteAtomics (h : s.sameButTlbs u) (dev : BitVec 20) : u.remoteAtomics dev = s.remoteAtomics dev := by
  have hdev := h.remoteDev
  unfold State.remoteAtomics
  simp only [hdev]
  rw [h.me_eq]
  rfl

theorem State.sameButTlbs.capHeld (h : s.sameButTlbs u) (region : Nat) : u.capHeld u.cur region = s.capHeld s.cur region := by
  have hcaps : u.me.caps = s.me.caps := by rw [h.me_eq]
  have hlaunches : u.launches = s.launches ∧ u.cur = s.cur := by
    obtain ⟨l, cs, n, rfl, -⟩ := h
    exact ⟨rfl, rfl⟩
  show (u.me.caps.any _ || u.launches.any _) = (s.me.caps.any _ || s.launches.any _)
  rw [hcaps, hlaunches.1, hlaunches.2]

theorem State.sameButTlbs.unreachFault (h : s.sameButTlbs u) {pa : Nat} (hpa : s.paUnreachable pa = false) (va : DWord) :
    u.unreachFault va pa = none := by
  unfold State.unreachFault
  rw [h.paUnreachable, hpa]
  rfl

end

/-! ## What an issue leaves -/

/-- A state whose issuing context has the same PC, general registers and requests, and whose bytes are the same. -/
structure State.AsIssuer (s t : State) : Prop where
  pc : t.cx.pc = s.cx.pc
  x : t.cx.x = s.cx.x
  reqs : t.cx.reqs = s.cx.reqs
  bytes : s.sameBytes t

section
variable {s t u v : State} {q : Req}

theorem State.AsIssuer.trans (h : s.AsIssuer t) (g : t.AsIssuer u) : s.AsIssuer u :=
  ⟨g.pc.trans h.pc, g.x.trans h.x, g.reqs.trans h.reqs, State.sameBytes_trans h.bytes g.bytes⟩

theorem State.sameButTlbs.asIssuer (h : s.sameButTlbs u) : s.AsIssuer u :=
  ⟨by rw [h.cx_eq], by rw [h.cx_eq], by rw [h.cx_eq], h.sameBytes⟩

/-- A store that a core's own code meets changes its contexts' prefetched code alone (R212). -/
theorem State.snoop_asIssuer (s : State) (va : DWord) (pa n : Nat) : s.AsIssuer (s.snoop s.cur va pa n) := by
  have hctx : ∃ b, (s.snoop s.cur va pa n).cx = { s.cx with b := b } := by
    unfold State.snoop
    show ∃ b, (s.modMe _).cx = _
    rw [State.cx_modMe]
    unfold Core.ctx
    rw [Vector.get_ofFn]
    exact ⟨_, rfl⟩
  obtain ⟨b, hcx⟩ := hctx
  exact ⟨by rw [hcx], by rw [hcx], by rw [hcx], State.modCore_sameBytes _ _ _ fun _ => rfl⟩

theorem State.syncWith_asIssuer (s : State) (m : KMap Nat) : s.AsIssuer (s.syncWith s.cur s.curCtx m) := by
  have hcx := s.cx_syncWith m
  exact ⟨by rw [hcx], by rw [hcx], by rw [hcx], s.modCx_sameBytes _⟩

/-- The instruction has posted a request and is done. -/
def State.posts (s : State) (q : Req) (t : State) : Prop :=
  t.cx.reqs = s.cx.reqs ++ [q] ∧ t.cx.x = s.cx.x ∧ t.cx.pc = s.cx.pc + 4 ∧ s.sameBytes t

theorem State.AsIssuer.posts (h : s.AsIssuer v) (q : Req) : s.posts q ((v.post q).retire 4) := by
  unfold State.posts
  rw [State.cx_retire, State.cx_post]
  refine ⟨?_, h.x, ?_, State.sameBytes_trans h.bytes (State.sameBytes_trans (v.post_sameBytes q) (State.retire_sameBytes _ 4))⟩
  · exact congrArg (· ++ [q]) h.reqs
  · exact congrArg (· + dw 4) h.pc

end

/-! ## Loads (R258, R260, R261, R267) -/

section
variable {s u : State} {g : Guard} {d a b : Reg} {e : EA} {n : Nat} {off : Int} {k : Access} {ea : DWord} {i : Instr}

/-- A split-phase load has been sent: its place and size, its destination, no reply yet. -/
def State.sendsLoad (s : State) (i : Instr) (ea : DWord) (pa n : Nat) (d : Reg) (kind : ReqKind) : Prop :=
  ∃ t q, exec i s = .next t ∧ t.cx.reqs = s.cx.reqs ++ [q] ∧ q.kind = kind ∧ q.pc = s.cx.pc ∧ q.va = ea ∧ q.pa = pa ∧
    q.size = n ∧ q.dest = (if d = 0 then none else some d) ∧ q.reply = none ∧ q.fault = none ∧ t.cx.x = s.cx.x ∧
    t.cx.pc = s.cx.pc + 4 ∧ s.sameBytes t

theorem State.sendsLoad_of_issueLoad {body : State → Act} {align : Nat} (hg : s.guardPasses g = true)
    (hpa : s.paUnreachable e.pa = false) (hreach : s.reaches ea align k e u) (hexec : exec i s = instr g body s)
    {kind : ReqKind} {aux : DWord} {gate : Bool} {scope : Nat}
    (hbody : body s = .ok (u.issueLoad kind e n d aux gate scope)) : s.sendsLoad i ea e.pa n d kind := by
  have hsame := State.sameButTlbs_of_reaches hreach
  let q : Req := { u.newReq kind e.va e.pa n d 0 aux with
    gate := gate, scope := scope, enc := e.isC, sent := !isRemote e.pa, fault := u.unreachFault e.va e.pa }
  obtain ⟨hreqs, hx, hpc, hbytes⟩ := hsame.asIssuer.posts q
  exact ⟨_, q, hexec.trans (instr_ok hg hbody), hreqs, rfl, hsame.asIssuer.pc, State.va_of_reaches hreach, rfl, rfl, rfl, rfl,
    hsame.unreachFault hpa _, hx, hpc, hbytes⟩

theorem ldg_reaches (hplace : s.hasPlace) (ha : s.regFree a = true) (hd : s.regFree d = true) (signed : Bool) (pol : Policy)
    (hreach : s.reaches (s.cx.xr a + BitVec.ofInt 64 (off * n)) n .load e u) :
    ldg n signed d a pol off s = .ok (u.issueLoad (.load signed) e n d (e.attrs pol) false) := by
  unfold ldg
  rw [State.splitReady_hasPlace hplace hd, ok_bind, State.addrOff_free ha, ok_bind, State.globalEA_of_reaches hreach]
  rfl

theorem ldc_reaches (hplace : s.hasPlace) (ha : s.regFree a = true) (hd : s.regFree d = true) (signed : Bool)
    (hreach : s.reaches (s.cx.xr a + BitVec.ofInt 64 (off * n)) n .load e u) :
    ldc n signed d a off s = checkIn u (!e.isV && !e.isObj) 0x08 (s.cx.xr a + BitVec.ofInt 64 (off * n)) (fi08 .load) >>=
      fun _ => .ok (u.issueLoad (.ldc signed) e n d (e.attrs .normal) false) := by
  unfold ldc
  rw [State.splitReady_hasPlace hplace hd, ok_bind, State.addrOff_free ha, ok_bind, State.globalEA_of_reaches hreach]
  rfl

theorem lda_reaches (hplace : s.hasPlace) (hdef : s.noDeferred) (ha : s.regFree a = true) (hd : s.regFree d = true) (sc : Scope)
    (hreach : s.reaches (s.cx.xr a) n .load e u) :
    lda n d a sc s = checkIn u (!e.isV) 0x08 (s.cx.xr a) (fi08 .load) >>=
      fun _ => .ok (u.issueLoad (.lda (n == 4)) e n d (e.attrs .normal) true (scopeCode sc)) := by
  unfold lda
  rw [State.syncPoint_noDeferred hdef, ok_bind, State.splitReady_hasPlace hplace hd, ok_bind, s.rdX_free a ha, ok_bind,
    State.globalEA_of_reaches hreach]
  rfl

theorem loadVersion_reaches (hplace : s.hasPlace) (hdef : s.noDeferred) (ha : s.regFree a = true) (hb : s.regFree b = true)
    (hd : s.regFree d = true) (kind : ReqKind) (hreach : s.reaches (s.cx.xr a) 8 .versioned e u) :
    loadVersion kind d a b s = checkIn u e.isV 0x08 (s.cx.xr a) (fi08 .load) >>=
      fun _ => .ok (u.issueLoad kind e 8 d (s.cx.xr b) true) := by
  unfold loadVersion
  rw [State.syncPoint_noDeferred hdef, ok_bind, State.splitReady_hasPlace hplace hd, ok_bind, s.rdX_free a ha, ok_bind,
    s.rdX_free b hb, ok_bind, State.globalEA_of_reaches hreach]
  rfl

end

/-! ## Stores (R259, R262, R268, R269) -/

section
variable {s u : State} {g : Guard} {d a b : Reg} {e : EA} {n : Nat} {off : Int} {ea : DWord} {i : Instr}

/-- A posted write has been sent: its place and size, its data, no destination. -/
def State.sendsStore (s : State) (i : Instr) (ea : DWord) (pa n : Nat) (kind : ReqKind) (data aux : Option DWord) : Prop :=
  ∃ t q, exec i s = .next t ∧ t.cx.reqs = [q] ∧ q.kind = kind ∧ q.pc = s.cx.pc ∧ q.va = ea ∧ q.pa = pa ∧ q.size = n ∧
    q.dest = none ∧ (∀ v, data = some v → q.data = v) ∧ (∀ v, aux = some v → q.aux = v) ∧ t.cx.x = s.cx.x ∧
    t.cx.pc = s.cx.pc + 4 ∧ s.sameBytes t

/-- A request posted from a state that agrees with the issuer's is a posted write. -/
theorem State.sendsStore_of_post {body : State → Act} {v : State} {q : Req} {data aux : Option DWord} (hg : s.guardPasses g = true)
    (hq : s.quiet) (hexec : exec i s = instr g body s) (hsame : s.AsIssuer v) (hbody : body s = .ok (v.post q))
    (hpc : q.pc = s.cx.pc) (hdest : q.dest = none) (hdata : ∀ w, data = some w → q.data = w) (haux : ∀ w, aux = some w → q.aux = w) :
    s.sendsStore i q.va q.pa q.size q.kind data aux := by
  obtain ⟨hreqs, hx, hnext, hbytes⟩ := hsame.posts q
  rw [hq.1] at hreqs
  exact ⟨_, q, hexec.trans (instr_ok hg hbody), hreqs, rfl, hpc, rfl, rfl, rfl, hdest, hdata, haux, hx, hnext, hbytes⟩

theorem stg_reaches (hgate : s.ungated) (hres : s.restartable = false) (ha : s.regFree a = true) (hd : s.regFree d = true)
    (pol : Policy) (hreach : s.reaches (s.cx.xr a + BitVec.ofInt 64 (off * n)) n .store e u) :
    stg n d a pol off s =
      checkIn u (!e.isV && !e.isObj) 0x08 (s.cx.xr a + BitVec.ofInt 64 (off * n)) (fi08 .store) >>= fun _ =>
        checkIn u (!u.paUnreachable e.pa) 0x1D (s.cx.xr a + BitVec.ofInt 64 (off * n)) (u.fi1D e.pa) >>= fun _ =>
          .ok (u.issueStore e n (s.cx.xr d) pol 0) := by
  unfold stg
  rw [State.addrOff_free ha, ok_bind, State.notInRestartable_free hres, ok_bind, State.memGate_ungated hgate, ok_bind,
    s.rdX_free d hd, ok_bind, State.globalEA_of_reaches hreach]
  rfl

theorem stl_reaches (hgate : s.ungated) (hres : s.restartable = false) (ha : s.regFree a = true) (hd : s.regFree d = true)
    (sc : Scope) (hreach : s.reaches (s.cx.xr a) n .store e u) :
    stl n d a sc s = checkIn u (!e.isV && !e.isObj) 0x08 (s.cx.xr a) (fi08 .store) >>= fun _ =>
      checkIn u (!u.paUnreachable e.pa) 0x1D (s.cx.xr a) (u.fi1D e.pa) >>= fun _ =>
        u.settledAt (scopeCode sc) >>= fun _ => .ok (u.issueStore e n (s.cx.xr d) .normal (scopeCode sc)) := by
  unfold stl
  rw [s.rdX_free a ha, ok_bind, State.notInRestartable_free hres, ok_bind, State.memGate_ungated hgate, ok_bind,
    s.rdX_free d hd, ok_bind, State.globalEA_of_reaches hreach]
  rfl

theorem versionEA_reaches (hreach : s.reaches ea 8 .store e u) :
    versionEA ea s = checkIn u e.isV 0x08 ea (fi08 .store) >>= fun _ =>
      checkIn u (u.capHeld u.cur (regionOf ea)) 0x0C ea 0 >>= fun _ =>
        checkIn u (!u.paUnreachable e.pa) 0x1D ea (u.fi1D e.pa) >>= fun _ =>
          u.versionsDone >>= fun _ => .ok (e, u.syncWith u.cur u.curCtx (u.me.capSeen.get [] (regionOf ea))) := by
  unfold versionEA
  rw [State.globalEA_of_reaches hreach]
  rfl

/-- STV and RECL come after the HAND of the capability that they use (R104). -/
theorem versionEA_ok (hq : s.quiet) (hpa : s.paUnreachable e.pa = false) (hV : e.isV = true)
    (hcap : s.capHeld s.cur (regionOf ea) = true) (hreach : s.reaches ea 8 .store e u) :
    ∃ v, versionEA ea s = .ok (e, v) ∧ s.AsIssuer v := by
  have hsame := State.sameButTlbs_of_reaches hreach
  refine ⟨u.syncWith u.cur u.curCtx (u.me.capSeen.get [] (regionOf ea)), ?_, hsame.asIssuer.trans (u.syncWith_asIssuer _)⟩
  rw [versionEA_reaches hreach, hV, hsame.capHeld, hcap, hsame.paUnreachable, hpa, checkIn_true, ok_bind, checkIn_true, ok_bind,
    Bool.not_false, checkIn_true, ok_bind, State.versionsDone_quiet (hsame.quiet hq)]
  rfl

/-- A plain or release store to a page without V and OBJ. -/
theorem State.sendsStore_of_issueStore {body : State → Act} {align : Nat} {pol : Policy} {scope : Nat} {v : DWord}
    (hg : s.guardPasses g = true) (hq : s.quiet) (hreach : s.reaches ea align .store e u) (hexec : exec i s = instr g body s)
    (hbody : body s = .ok (u.issueStore e n v pol scope)) : s.sendsStore i ea e.pa n .store (some v) none := by
  have hsame := State.sameButTlbs_of_reaches hreach
  have hva := State.va_of_reaches hreach
  rw [← hva]
  exact State.sendsStore_of_post hg hq hexec (hsame.asIssuer.trans (u.snoop_asIssuer _ _ _)) hbody hsame.asIssuer.pc rfl
    (fun w hw => Option.some.inj hw) (fun w hw => absurd hw (by simp))

end

/-- Settles O15: behind their checks, loads post what `issueLoad` makes and stores what `issueStore` makes (`ldg_reaches` to
`versionEA_ok`). -/
theorem globalIssueResults : Obligations.GlobalIssueResults := by
  unfold Obligations.GlobalIssueResults
  refine ⟨fun g d a b pol off sc e s u hg hready hplace hdef hpa => ?_,
    fun g d a b pol off sc e s u hg hready hq hres hpa hu => ?_⟩
  · have ha := hready a (by simp)
    have hb := hready b (by simp)
    have hd := hready d (by simp)
    have plain (n : Nat) (signed : Bool) {i : Instr} (hexec : exec i s = instr g (ldg n signed d a pol off) s)
        (hreach : s.reaches (s.cx.xr a + BitVec.ofInt 64 (off * n)) n .load e u) :=
      State.sendsLoad_of_issueLoad hg hpa hreach hexec (ldg_reaches hplace ha hd signed pol hreach)
    have constant (n : Nat) (signed : Bool) {i : Instr} (hexec : exec i s = instr g (ldc n signed d a off) s)
        (hV : e.isV = false) (hobj : e.isObj = false)
        (hreach : s.reaches (s.cx.xr a + BitVec.ofInt 64 (off * n)) n .load e u) :=
      State.sendsLoad_of_issueLoad hg hpa hreach hexec
        ((ldc_reaches hplace ha hd signed hreach).trans (by rw [hV, hobj]; rfl))
    have acquire (n : Nat) {i : Instr} (hexec : exec i s = instr g (lda n d a sc) s) (hV : e.isV = false)
        (hreach : s.reaches (s.cx.xr a) n .load e u) :=
      State.sendsLoad_of_issueLoad hg hpa hreach hexec ((lda_reaches hplace hdef ha hd sc hreach).trans (by rw [hV]; rfl))
    have version (kind : ReqKind) {i : Instr} (hexec : exec i s = instr g (loadVersion kind d a b) s) (hV : e.isV = true)
        (hreach : s.reaches (s.cx.xr a) 8 .versioned e u) :=
      State.sendsLoad_of_issueLoad hg hpa hreach hexec
        ((loadVersion_reaches hplace hdef ha hb hd kind hreach).trans (by rw [hV]; rfl))
    exact ⟨plain 1 true rfl, plain 2 true rfl, plain 4 true rfl, plain 8 false rfl, plain 1 false rfl, plain 2 false rfl,
      plain 4 false rfl,
      fun hV hobj => ⟨constant 4 true rfl hV hobj, constant 8 false rfl hV hobj, constant 4 false rfl hV hobj⟩,
      fun hV => ⟨acquire 4 rfl hV, acquire 8 rfl hV⟩, fun hV => ⟨version .ldv rfl hV, version .ldvn rfl hV⟩⟩
  · have ha := hready a (by simp)
    have hb := hready b (by simp)
    have hd := hready d (by simp)
    have hgate : s.ungated := ⟨fun q hqs => by rw [hq.1] at hqs; exact absurd hqs List.not_mem_nil, hq.2⟩
    have store (n : Nat) {i : Instr} (hexec : exec i s = instr g (stg n d a pol off) s) (hV : e.isV = false)
        (hobj : e.isObj = false) (hreach : s.reaches (s.cx.xr a + BitVec.ofInt 64 (off * n)) n .store e u) :=
      State.sendsStore_of_issueStore hg hq hreach hexec ((stg_reaches hgate hres ha hd pol hreach).trans (by
        rw [hV, hobj, (State.sameButTlbs_of_reaches hreach).paUnreachable, hpa]; rfl))
    have release (n : Nat) {i : Instr} (hexec : exec i s = instr g (stl n d a sc) s) (hV : e.isV = false)
        (hobj : e.isObj = false) (hreach : s.reaches (s.cx.xr a) n .store e u) :=
      have hsame := State.sameButTlbs_of_reaches hreach
      State.sendsStore_of_issueStore hg hq hreach hexec ((stl_reaches hgate hres ha hd sc hreach).trans (by
        rw [hV, hobj, hsame.paUnreachable, hpa, State.settledAt_quiet (hsame.quiet hq) (hsame.unbound hu)]; rfl))
    refine ⟨store 1 rfl, store 2 rfl, store 4 rfl, store 8 rfl, fun hV hobj => ⟨release 4 rfl hV hobj, release 8 rfl hV hobj⟩,
      fun hV hcap hreach => ?_, fun hV hcap hreach => ?_⟩
    · obtain ⟨v, hversion, hsame⟩ := versionEA_ok hq hpa hV hcap hreach
      refine State.sendsStore_of_post (q := { v.newReq .stv (s.cx.xr a) e.pa 8 0 (s.cx.xr d) (s.cx.xr b) with ha := v.isRerun })
        hg hq (execStv.eq_1 g d a b s) (hsame.trans (v.snoop_asIssuer (s.cx.xr a) e.pa 8)) ?_ hsame.pc rfl
        (fun w hw => Option.some.inj hw) (fun w hw => Option.some.inj hw)
      rw [s.memGate_quiet hq, ok_bind, s.syncPoint_quiet hq, ok_bind, s.rdX_free a ha, ok_bind, s.rdX_free d hd, ok_bind,
        s.rdX_free b hb, ok_bind, hversion]
      rfl
    · obtain ⟨v, hversion, hsame⟩ := versionEA_ok hq hpa hV hcap hreach
      refine State.sendsStore_of_post
        (q := v.newReq .recl (dw ((s.cx.xr a).toNat / 65536 * 65536)) e.pa 8 0 0 (s.cx.xr b))
        hg hq (execRecl.eq_1 g a b s) hsame ?_ hsame.pc rfl (fun w hw => absurd hw (by simp)) (fun w hw => Option.some.inj hw)
      rw [s.memGate_quiet hq, ok_bind, State.versionSync_quiet hq, ok_bind, s.rdX_free a ha, ok_bind, s.rdX_free b hb, ok_bind]
      dsimp only
      rw [hversion]
      rfl

/-! ## Atomics and reductions (R263 to R266, R353) -/

section
variable {s u : State} {g : Guard} {a b d : Reg} {e : EA} {i : Instr} {op : Nat} {expected : DWord}

/-- An instruction that issues an atomic operation on the address in xA, with operand xB. -/
def State.atomicBy (s : State) (g : Guard) (a b : Reg) (i : Instr) (op : Nat) (d : Reg) (expected : DWord) : Prop :=
  ∃ body, exec i s = instr g body s ∧ body s = s.issueAtomic op (s.cx.xr a) d (s.cx.xr b) expected

theorem atomic_issues (hplace : s.hasPlace) (hres : s.restartable = false) (hdet : s.me.det = false)
    (ha : s.regFree a = true) (hb : s.regFree b = true) (hd : s.regFree d = true) (op : Nat) :
    atomic op d a b s = s.issueAtomic op (s.cx.xr a) d (s.cx.xr b) 0 := by
  unfold atomic
  rw [s.rdX_free a ha, ok_bind, State.notInRestartable_free hres, ok_bind, hdet, Bool.not_false, check_true, ok_bind,
    State.splitReady_hasPlace hplace hd, ok_bind, s.rdX_free b hb, ok_bind]

theorem reduction_issues (hgate : s.ungated) (hres : s.restartable = false) (ha : s.regFree a = true) (hb : s.regFree b = true)
    (op : Nat) : reduction op a b s = s.issueAtomic op (s.cx.xr a) 0 (s.cx.xr b) 0 := by
  unfold reduction
  rw [s.rdX_free a ha, ok_bind, State.notInRestartable_free hres, ok_bind, State.memGate_ungated hgate, ok_bind,
    s.rdX_free b hb, ok_bind]

/-- The request of an atomic operation. -/
def State.atomicReq (u : State) (op : Nat) (va : DWord) (d : Reg) (operand expected : DWord) (e : EA) : Req :=
  { u.newReq (.atomic op) va e.pa 8 d operand expected with
    ha := e.isHa, queue := u.toFallback u.cur op e.pa, enc := e.isC, sent := !isRemote e.pa, scope := u.storeScope 0
    fault := u.unreachFault va e.pa }

theorem State.issueAtomic_reaches {va operand : DWord} (hreach : s.reaches va 8 .store e u) (hV : e.isV = false)
    (hobj : e.isObj = false) (hroom : isRemote e.pa = true → s.remoteAtomics (s.remoteDev e.pa) < 8) :
    s.issueAtomic op va d operand expected = checkIn u (!s.toFallback s.cur op e.pa || e.isHa) 0x17 va 0 >>= fun _ =>
      .ok ((u.snoop u.cur va e.pa 8).post (u.atomicReq op va d operand expected e)) := by
  have hsame := State.sameButTlbs_of_reaches hreach
  have hwait : (!isRemote e.pa || decide (u.remoteAtomics (u.remoteDev e.pa) < 8)) = true := by
    rw [hsame.remoteAtomics, hsame.remoteDev]
    cases hrem : isRemote e.pa with
    | true => exact decide_eq_true (hroom hrem)
    | false => rfl
  unfold State.issueAtomic State.atomicReq
  rw [State.globalEA_of_reaches hreach, ok_bind]
  dsimp only
  rw [hV, hobj, hsame.toFallback, hwait]
  rfl

/-- An atomic operation that may take its path is sent as one request. -/
theorem State.atomicBy.sends (h : s.atomicBy g a b i op d expected) (hg : s.guardPasses g = true)
    (hreach : s.reaches (s.cx.xr a) 8 .store e u) (hV : e.isV = false) (hobj : e.isObj = false)
    (hpa : s.paUnreachable e.pa = false) (hroom : isRemote e.pa = true → s.remoteAtomics (s.remoteDev e.pa) < 8)
    (hpath : (s.toFallback s.cur op e.pa && !e.isHa) = false) (hexpected : op = 8 → expected = s.cx.xr d) :
    ∃ t q, exec i s = .next t ∧ t.cx.reqs = s.cx.reqs ++ [q] ∧ q.kind = .atomic op ∧ q.va = s.cx.xr a ∧ q.pa = e.pa ∧
      q.size = 8 ∧ q.dest = (if d = 0 then none else some d) ∧ q.data = s.cx.xr b ∧ (op = 8 → q.aux = s.cx.xr d) ∧
      q.reply = none ∧ q.fault = none ∧ q.sent = !isRemote e.pa ∧ t.cx.x = s.cx.x ∧ t.cx.pc = s.cx.pc + 4 ∧
      s.sameBytes t := by
  obtain ⟨body, hexec, hbody⟩ := h
  have hsame := State.sameButTlbs_of_reaches hreach
  have hcheck : (!s.toFallback s.cur op e.pa || e.isHa) = true := by
    cases hf : s.toFallback s.cur op e.pa <;> simp_all
  obtain ⟨hreqs, hx, hpc, hbytes⟩ := (hsame.asIssuer.trans (u.snoop_asIssuer (s.cx.xr a) e.pa 8)).posts
    (u.atomicReq op (s.cx.xr a) d (s.cx.xr b) expected e)
  refine ⟨_, _, hexec.trans (instr_ok hg ?_), hreqs, rfl, rfl, rfl, rfl, rfl, rfl, hexpected, rfl, hsame.unreachFault hpa _, rfl,
    hx, hpc, hbytes⟩
  rw [hbody, State.issueAtomic_reaches hreach hV hobj hroom, hcheck, checkIn_true, ok_bind]

/-- A check behind the translation that fails is a trap of the instruction that changes no byte. -/
theorem State.trapsIn {body : State → Act} {p : TrapInfo} (hg : s.guardPasses g = true) (hfree : s.trapFree)
    (hsame : s.sameButTlbs u) (hexec : exec i s = instr g body s) (hbody : body s = .error (.trapIn p u)) :
    ∃ t, exec i s = .next t ∧ s.trapsTo t p.cause p.faddr p.finfo ∧ s.sameBytes t := by
  have hfreeU := hsame.trapFree hfree
  refine ⟨_, hexec.trans (instr_stop hg hbody), hsame.trapsTo (State.trapHere_trapsTo hfreeU p).1, ?_⟩
  exact State.sameBytes_trans hsame.sameBytes (State.trapHere_sameBytes hfreeU p)

/-- One for the fallback queue on a page without HA is fault 0x17 (R353). -/
theorem State.atomicBy.traps (h : s.atomicBy g a b i op d expected) (hg : s.guardPasses g = true) (hfree : s.trapFree)
    (hreach : s.reaches (s.cx.xr a) 8 .store e u) (hV : e.isV = false) (hobj : e.isObj = false)
    (hroom : isRemote e.pa = true → s.remoteAtomics (s.remoteDev e.pa) < 8)
    (hpath : (s.toFallback s.cur op e.pa && !e.isHa) = true) :
    ∃ t, exec i s = .next t ∧ s.trapsTo t 0x17 (s.cx.xr a) 0 ∧ s.sameBytes t := by
  obtain ⟨body, hexec, hbody⟩ := h
  have hcheck : (!s.toFallback s.cur op e.pa || e.isHa) = false := by
    cases hf : s.toFallback s.cur op e.pa <;> simp_all
  refine State.trapsIn (p := ⟨0x17, s.cx.xr a, 0⟩) hg hfree (State.sameButTlbs_of_reaches hreach) hexec ?_
  rw [hbody, State.issueAtomic_reaches hreach hV hobj hroom, hcheck, checkIn_false]
  rfl

end

/-- Settles O16: each instruction issues an atomic operation (`atomic_issues`, `reduction_issues`), which is sent
(`State.atomicBy.sends`) or has no path (`State.atomicBy.traps`). -/
theorem atomicIssue : Obligations.AtomicIssue := by
  unfold Obligations.AtomicIssue
  intro g d a b e s u hg hready hplace hres hdet hreach hV hobj hpa hroom falls issues
  have ha := hready a (by simp)
  have hb := hready b (by simp)
  have hd := hready d (by simp)
  have issue {i : Instr} {op : Nat} {r : Reg} {expected : DWord} (h : s.atomicBy g a b i op r expected)
      (hexpected : op = 8 → expected = s.cx.xr d ∧ r = d) : issues i op (if r = 0 then none else some r) := by
    refine ⟨fun hpath => ?_, fun hpath hfree => h.traps hg hfree hreach hV hobj hroom hpath⟩
    obtain ⟨t, q, hsend⟩ := h.sends hg hreach hV hobj hpa hroom hpath fun hop => by
      obtain ⟨hex, rfl⟩ := hexpected hop
      exact hex
    refine ⟨t, q, ?_⟩
    obtain ⟨hexec, hreqs, hkind, hva, hqpa, hsize, hdest, hdata, haux, hrest⟩ := hsend
    exact ⟨hexec, hreqs, hkind, hva, hqpa, hsize, hdest, hdata, fun hop => (hexpected hop).2 ▸ haux hop, hrest⟩
  have fetch (op : Nat) {i : Instr} (hexec : exec i s = instr g (atomic op d a b) s) (hop : op ≠ 8) :
      issues i op (if d = 0 then none else some d) :=
    issue ⟨_, hexec, atomic_issues hplace hres hdet ha hb hd op⟩ fun h => absurd h hop
  have reduce (op : Nat) {i : Instr} (hexec : exec i s = instr g (reduction op a b) s) (hop : op ≠ 8) : issues i op none :=
    issue (r := 0) ⟨_, hexec, reduction_issues hplace.1 hres ha hb op⟩ fun h => absurd h hop
  have nil {α : Type} {P : α → Prop} : ∀ e ∈ ([] : List α), P e := fun _ h => absurd h List.not_mem_nil
  refine ⟨?_, ?_⟩
  · simp only [List.forall_mem_cons]
    refine ⟨fetch 0 rfl (by omega), fetch 1 rfl (by omega), fetch 2 rfl (by omega), fetch 3 rfl (by omega),
      fetch 4 rfl (by omega), fetch 5 rfl (by omega), fetch 6 rfl (by omega), fetch 7 rfl (by omega), ?_, nil⟩
    refine issue (expected := s.cx.xr d) ⟨_, execAcas.eq_1 g d a b s, ?_⟩ fun _ => ⟨rfl, rfl⟩
    rw [s.rdX_free a ha, ok_bind, State.notInRestartable_free hres, ok_bind, hdet, Bool.not_false, check_true, ok_bind,
      State.splitReady_hasPlace hplace hd, ok_bind, s.rdX_free b hb, ok_bind, s.rdX_free d hd, ok_bind]
  · simp only [List.forall_mem_cons]
    exact ⟨reduce 9 rfl (by omega), reduce 10 rfl (by omega), reduce 11 rfl (by omega), reduce 12 rfl (by omega),
      reduce 13 rfl (by omega), reduce 14 rfl (by omega), nil⟩

end Sys2Proof.Machine
end

/-! PROOFS. The checks of global accesses, and what refuses them (R47, R84, R109, R252, R287, R361, R367). Here O17 is settled. -/

section
namespace Sys2Proof.Machine

/-! ## Global checks (R252) -/

section
variable {s u : State} {g : Guard} {d a : Reg} {va : DWord} {n : Nat} {k : Access} {p : TrapInfo} {off : Int}

theorem State.globalEA_error (h : s.globalCheck s.cur va n k = (.error p, u)) : s.globalEA va n k = .error (.trapIn p u) := by
  unfold State.globalEA
  rw [h]

/-- The order of an LDG: once its registers and a place are ready, the global checks. -/
theorem ldg_globalEA (hplace : s.hasPlace) (ha : s.regFree a = true) (hd : s.regFree d = true) (signed : Bool) (pol : Policy) :
    ldg n signed d a pol off s = s.globalEA (s.cx.xr a + BitVec.ofInt 64 (off * n)) n .load >>= fun p =>
      .ok (p.2.issueLoad (.load signed) p.1 n d (p.1.attrs pol) false) := by
  unfold ldg
  rw [State.splitReady_hasPlace hplace hd, ok_bind, State.addrOff_free ha, ok_bind]
  rfl

theorem State.globalCheck_nonCanonical (h : 2 ^ 56 ≤ va.toNat) (n : Nat) :
    s.globalCheck s.cur va n .load = (.error ⟨0x07, va, 0⟩, s) := by
  have hfield : fld va 63 56 ≠ 0 := by
    rw [fld_63_56]
    omega
  unfold State.globalCheck
  rw [if_pos hfield]
  rfl

theorem State.globalCheck_misaligned (h : va.toNat < 2 ^ 56) (halign : va.toNat % n ≠ 0) :
    s.globalCheck s.cur va n k = (.error ⟨0x05, va, 0⟩, s) := by
  unfold State.globalCheck
  rw [if_neg (not_not.mpr (fld_eq_zero_of_canonical h)), if_pos halign]

theorem State.globalCheck_page (h : va.toNat < 2 ^ 56) (halign : va.toNat % n = 0) :
    s.globalCheck s.cur va n k = s.pageCheck s.cur va k := by
  unfold State.globalCheck
  rw [if_neg (not_not.mpr (fld_eq_zero_of_canonical h)), if_neg (not_not.mpr halign)]

theorem State.pageCheck_walkFails {w : WalkErr} (hfind : s.tlbFind s.cur va.toNat = none) (hwalk : s.walk s.cur va.toNat = .error w) :
    s.pageCheck s.cur va k = (.error (w.trap va k), s) := by
  unfold State.pageCheck State.xlate
  rw [hfind, hwalk]

/-- A populated page without R refuses a load (R78). -/
theorem State.pageCheck_unreadable {f : TlbEnt} (hfind : s.tlbFind s.cur va.toNat = none)
    (hwalk : s.walk s.cur va.toNat = .ok f) (hpop : populated (s.pageAddr f va.toNat) = true) (hr : f.leaf.getLsbD 1 = false) :
    s.pageCheck s.cur va .load = (.error ⟨0x08, va, 0⟩, s.tlbFill s.cur f) := by
  have hperm : s.permission f (s.pageAddr f va.toNat) .load = some 0x08 := if_neg (Bool.eq_false_iff.mp hr)
  unfold State.pageCheck State.xlate
  rw [hfind, hwalk]
  dsimp only
  rw [hpop, hperm]
  rfl

end

/-! ## Refusals -/

section
variable {s u : State} {g : Guard} {a b d : Reg} {off : Int} {va : DWord} {i : Instr} {p : TrapInfo} {body : State → Act}

/-- A fault of an instruction's effect is its trap. -/
theorem State.trapsAt (hg : s.guardPasses g = true) (hfree : s.trapFree) (hexec : exec i s = instr g body s)
    (hbody : body s = .error (.trap p)) : ∃ t, exec i s = .next t ∧ s.trapsTo t p.cause p.faddr p.finfo := by
  obtain ⟨t, ht, htraps, -⟩ := State.finish_trap hfree hbody 4
  exact ⟨t, hexec.trans ((instr_eq_finish hg).trans ht), htraps⟩

theorem State.notInRestartable_refused (h : s.restartable = true) (va : DWord) (kind : Nat) :
    s.notInRestartable va kind = .error (.trap ⟨0x08, va, dw (256 * kind)⟩) := by
  unfold State.notInRestartable
  rw [h]
  rfl

/-- An instruction that R287 lists checks first that its reaction is not restartable. -/
theorem State.refusedFirst {f : Unit → Act} (hg : s.guardPasses g = true) (hfree : s.trapFree) (hres : s.restartable = true)
    (hexec : exec i s = instr g body s) (hbody : body s = s.notInRestartable >>= f) :
    ∃ t, exec i s = .next t ∧ s.trapsTo t 0x08 0 0 := by
  refine State.trapsAt (p := ⟨0x08, 0, 0⟩) hg hfree hexec ?_
  rw [hbody, State.notInRestartable_refused hres]
  rfl

/-- An access reads its address register and checks that its reaction is not restartable (R47). -/
theorem State.refusedAccess {f : DWord → Unit → Act} (hg : s.guardPasses g = true) (hfree : s.trapFree)
    (ha : s.regFree a = true) (hres : s.restartable = true) (hexec : exec i s = instr g body s)
    (hbody : body s = s.rdX a >>= fun va => s.notInRestartable va 1 >>= f va) :
    ∃ t, exec i s = .next t ∧ s.trapsTo t 0x08 (s.cx.xr a) 256 := by
  refine State.trapsAt (p := ⟨0x08, s.cx.xr a, 256⟩) hg hfree hexec ?_
  rw [hbody, s.rdX_free a ha, ok_bind, State.notInRestartable_refused hres]
  rfl

/-- Under DET a fetching atomic is 0x1C (R109). -/
theorem State.refusedDet {f : DWord → Unit → Act} (hg : s.guardPasses g = true) (hfree : s.trapFree) (ha : s.regFree a = true)
    (hres : s.restartable = false) (hdet : s.me.det = true) (hexec : exec i s = instr g body s)
    (hbody : body s = s.rdX a >>= fun va => s.notInRestartable va 1 >>= fun _ => Machine.check (!s.me.det) 0x1C va >>= f va) :
    ∃ t, exec i s = .next t ∧ s.trapsTo t 0x1C (s.cx.xr a) 0 := by
  refine State.trapsAt (p := ⟨0x1C, s.cx.xr a, 0⟩) hg hfree hexec ?_
  rw [hbody, s.rdX_free a ha, ok_bind, State.notInRestartable_free hres, ok_bind, hdet]
  rfl

theorem objectOp_refused {kind : ReqKind} {value : State → Except Stop DWord} (hkind : kind ≠ .ocnt) (hg : s.guardPasses g = true)
    (hfree : s.trapFree) (ha : s.regFree a = true) (hres : s.restartable = true)
    (hexec : exec i s = instr g (objectOp kind d a value) s) :
    ∃ t, exec i s = .next t ∧ s.trapsTo t 0x08 (s.cx.xr a) 256 := by
  refine State.trapsAt (p := ⟨0x08, s.cx.xr a, 256⟩) hg hfree hexec ?_
  unfold objectOp
  rw [s.rdX_free a ha, ok_bind, if_pos hkind, State.notInRestartable_refused hres]
  rfl

theorem stg_refused {n : Nat} (hg : s.guardPasses g = true) (hfree : s.trapFree) (ha : s.regFree a = true)
    (hres : s.restartable = true) (pol : Policy) (hexec : exec i s = instr g (stg n d a pol off) s) :
    ∃ t, exec i s = .next t ∧ s.trapsTo t 0x08 (s.cx.xr a + BitVec.ofInt 64 (off * n)) 256 := by
  refine State.trapsAt (p := ⟨0x08, s.cx.xr a + BitVec.ofInt 64 (off * n), 256⟩) hg hfree hexec ?_
  unfold stg
  rw [State.addrOff_free ha, ok_bind, State.notInRestartable_refused hres]
  rfl

end

/-- Settles O17: the global checks in their order (`State.globalCheck_nonCanonical` to `State.pageCheck_unreadable`), the checks behind
the translation (`State.trapsIn`), and those before it (`State.refusedAccess`, `State.refusedFirst`, `State.refusedDet`). -/
theorem globalFaultResults : Obligations.GlobalFaultResults := by
  unfold Obligations.GlobalFaultResults
  have nil {α : Type} {P : α → Prop} : ∀ e ∈ ([] : List α), P e := fun _ h => absurd h List.not_mem_nil
  refine ⟨fun g d a pol off s hg hready hplace hfree => ?_,
    fun g d a b pol off sc e s u hg hready hplace hdef hfree hres => ?_,
    fun g d a b pol off sc s hg hready hfree => ?_⟩
  · have ha := hready a (by simp)
    have hd := hready d (by simp)
    intro ea
    have traps {p : TrapInfo} {u : State} (hsame : s.sameButTlbs u) (h : s.globalCheck s.cur ea 8 .load = (.error p, u)) :
        ∃ t, exec (.ldgD g d a pol off) s = .next t ∧ s.trapsTo t p.cause p.faddr p.finfo ∧ s.sameBytes t := by
      refine State.trapsIn hg hfree hsame (show _ = instr g (ldg 8 false d a pol off) s from rfl) ?_
      refine (ldg_globalEA hplace ha hd false pol).trans ?_
      show s.globalEA ea 8 .load >>= _ = _
      rw [State.globalEA_error h]
      rfl
    refine ⟨fun h => traps s.sameButTlbs_refl (State.globalCheck_nonCanonical h 8),
      fun h halign => traps s.sameButTlbs_refl (State.globalCheck_misaligned h halign),
      fun h halign hfind w hwalk => ?_, fun h halign hfind f hwalk hpop hr => traps (s.sameButTlbs_fill s.cur f)
        ((State.globalCheck_page h halign).trans (State.pageCheck_unreadable hfind hwalk hpop hr))⟩
    obtain ⟨t, ht, htraps, hbytes⟩ := traps s.sameButTlbs_refl
      ((State.globalCheck_page h halign).trans (State.pageCheck_walkFails hfind hwalk))
    unfold WalkErr.trap at htraps
    refine ⟨t, ht, hbytes, fun hlost => ?_, fun part hlost => ?_⟩
    · rw [hlost] at htraps
      exact htraps
    · rw [hlost] at htraps
      exact htraps
  · have ha := hready a (by simp)
    have hb := hready b (by simp)
    have hd := hready d (by simp)
    obtain ⟨hgate, -⟩ := id hplace
    intro va at_ traps refused
    have hrefused (h : refused) : (!e.isV && !e.isObj) = false := by
      rcases h with h | h <;> simp [h]
    have htaken (h : ¬refused) : (!e.isV && !e.isObj) = true := by
      obtain ⟨hV, hobj⟩ := not_or.mp h
      simp [hV, hobj]
    have stores (n : Nat) {i : Instr} (hexec : exec i s = instr g (stg n d a pol off) s) (hreach : s.reaches (at_ n) n .store e u) :
        (refused → traps i 0x08 (at_ n) 256) ∧
          (¬refused → s.paUnreachable e.pa = true → traps i 0x1D (at_ n) ((s.remoteDev e.pa).setWidth 64)) := by
      have hsame := State.sameButTlbs_of_reaches hreach
      have hbody := stg_reaches hgate hres ha hd pol hreach
      refine ⟨fun h => State.trapsIn (p := ⟨0x08, at_ n, 256⟩) hg hfree hsame hexec (hbody.trans ?_),
        fun h hpa => State.trapsIn (p := ⟨0x1D, at_ n, (s.remoteDev e.pa).setWidth 64⟩) hg hfree hsame hexec (hbody.trans ?_)⟩
      · rw [hrefused h]
        rfl
      · unfold State.fi1D
        rw [htaken h, hsame.paUnreachable, hpa, hsame.remoteDev]
        rfl
    have constants (n : Nat) (signed : Bool) {i : Instr} (hexec : exec i s = instr g (ldc n signed d a off) s)
        (hreach : s.reaches (at_ n) n .load e u) (h : refused) : traps i 0x08 (at_ n) 0 := by
      refine State.trapsIn (p := ⟨0x08, at_ n, 0⟩) hg hfree (State.sameButTlbs_of_reaches hreach) hexec
        ((ldc_reaches hplace ha hd signed hreach).trans ?_)
      rw [hrefused h]
      rfl
    have acquires (n : Nat) {i : Instr} (hexec : exec i s = instr g (lda n d a sc) s)
        (hreach : s.reaches va n .load e u) (hV : e.isV = true) : traps i 0x08 va 0 := by
      refine State.trapsIn (p := ⟨0x08, va, 0⟩) hg hfree (State.sameButTlbs_of_reaches hreach) hexec
        ((lda_reaches hplace hdef ha hd sc hreach).trans ?_)
      rw [hV]
      rfl
    have versions (kind : ReqKind) {i : Instr} (hexec : exec i s = instr g (loadVersion kind d a b) s)
        (hreach : s.reaches va 8 .versioned e u) (hV : e.isV = false) : traps i 0x08 va 0 := by
      refine State.trapsIn (p := ⟨0x08, va, 0⟩) hg hfree (State.sameButTlbs_of_reaches hreach) hexec
        ((loadVersion_reaches hplace hdef ha hb hd kind hreach).trans ?_)
      rw [hV]
      rfl
    refine ⟨?_, ?_, ?_, fun hreach hV => ⟨versions .ldv rfl hreach hV, versions .ldvn rfl hreach hV⟩, fun hreach => ?_⟩
    · simp only [List.forall_mem_cons]
      exact ⟨stores 1 rfl, stores 2 rfl, stores 4 rfl, stores 8 rfl, nil⟩
    · simp only [List.forall_mem_cons]
      exact ⟨constants 4 true rfl, constants 8 false rfl, constants 4 false rfl, nil⟩
    · simp only [List.forall_mem_cons]
      exact ⟨acquires 4 rfl, acquires 8 rfl, nil⟩
    · have hsame := State.sameButTlbs_of_reaches hreach
      have hstv {p : TrapInfo} (h : versionEA va s = .error (.trapIn p u)) :
          ∃ t, exec (.stv g d a b) s = .next t ∧ s.trapsTo t p.cause p.faddr p.finfo ∧ s.sameBytes t := by
        refine State.trapsIn hg hfree hsame (execStv.eq_1 g d a b s) ?_
        rw [State.memGate_ungated hgate, ok_bind, State.syncPoint_noDeferred hdef, ok_bind, s.rdX_free a ha, ok_bind,
          s.rdX_free d hd, ok_bind, s.rdX_free b hb, ok_bind, h]
        rfl
      have hversion := versionEA_reaches hreach
      refine ⟨fun hV => hstv (p := ⟨0x08, va, 256⟩) (hversion.trans ?_),
        fun hV hcap => hstv (p := ⟨0x0C, va, 0⟩) (hversion.trans ?_),
        fun hV hcap hpa => hstv (p := ⟨0x1D, va, (s.remoteDev e.pa).setWidth 64⟩) (hversion.trans ?_)⟩
      · rw [hV]
        rfl
      · rw [hV, hsame.capHeld, hcap]
        rfl
      · unfold State.fi1D
        rw [hV, hsame.capHeld, hcap, hsame.paUnreachable, hpa, hsame.remoteDev]
        rfl
  · have ha := hready a (by simp)
    intro at_ traps atomics
    refine ⟨fun hres => ⟨?_, ?_, ?_⟩, fun hres hdet => ?_⟩
    · simp only [List.forall_mem_cons]
      exact ⟨stg_refused hg hfree ha hres pol rfl, stg_refused hg hfree ha hres pol rfl, stg_refused hg hfree ha hres pol rfl,
        stg_refused hg hfree ha hres pol rfl, nil⟩
    · have access {i : Instr} {body : State → Act} {f : DWord → Unit → Act} := State.refusedAccess (i := i) (body := body) (f := f)
        hg hfree ha hres
      simp only [atomics, List.forall_mem_append, List.forall_mem_cons]
      exact ⟨⟨access rfl rfl, access rfl rfl, access rfl rfl, access rfl rfl, access rfl rfl, access rfl rfl, access rfl rfl,
        access rfl rfl, access (execAcas.eq_1 g d a b s) rfl, nil⟩, access rfl rfl, access rfl rfl, access rfl rfl, access rfl rfl,
        access rfl rfl, access rfl rfl, access rfl rfl, access rfl rfl, objectOp_refused (by simp) hg hfree ha hres rfl,
        objectOp_refused (by simp) hg hfree ha hres rfl, nil⟩
    · have first {i : Instr} {body : State → Act} {f : Unit → Act} := State.refusedFirst (i := i) (body := body) (f := f) hg hfree hres
      simp only [List.forall_mem_cons]
      exact ⟨first (execMcast.eq_1 g d a b s) rfl, first (execSendh.eq_1 g d a s) rfl, first (execBindS.eq_1 g d a b s) rfl,
        first (execUnbind.eq_1 g a s) rfl, first (execArm.eq_1 g a b s) rfl, first (execHold.eq_1 g a b s) rfl,
        first (execRlse.eq_1 g a b s) rfl, first (execStartL.eq_1 g d a s) rfl, first (execCntdn.eq_1 g a s) rfl,
        first (execCancel.eq_1 g a s) rfl, first (execCinj.eq_1 g a b s) rfl, first (execCinjHld.eq_1 g a b s) rfl,
        first (execCinjx.eq_1 g a b s) rfl, first (execCinjxHld.eq_1 g a b s) rfl, first (execCabort.eq_1 g a s) rfl,
        first (execEcw.eq_1 g a b s) rfl, first (execEcpulse.eq_1 g s) rfl, first (execPrst.eq_1 g a s) rfl,
        first (execTlbi.eq_1 g a b s) rfl, nil⟩
    · have fetch {i : Instr} {body : State → Act} {f : DWord → Unit → Act} := State.refusedDet (i := i) (body := body) (f := f)
        hg hfree ha hres hdet
      simp only [atomics, List.forall_mem_cons]
      exact ⟨fetch rfl rfl, fetch rfl rfl, fetch rfl rfl, fetch rfl rfl, fetch rfl rfl, fetch rfl rfl, fetch rfl rfl,
        fetch rfl rfl, fetch (execAcas.eq_1 g d a b s) rfl, nil⟩

end Sys2Proof.Machine
end

/-! PROOFS. Line operations, fences and HAND (R68, R75, R79, R94 to R99, R260 to R262, R270). Here O18 is settled. -/

section
namespace Sys2Proof.Machine

/-! ## Line operations (R260, R68, R79) -/

section
variable {s u : State} {g : Guard} {a : Reg} {i : Instr} {body : State → Act}

/-- An instruction whose effect keeps PC, general registers and bytes passes on to the next. -/
theorem State.AsIssuer.passes (hg : s.guardPasses g = true) (hexec : exec i s = instr g body s) (hbody : body s = .ok u)
    (h : s.AsIssuer u) : ∃ t, exec i s = .next t ∧ t.cx.x = s.cx.x ∧ t.cx.pc = s.cx.pc + 4 ∧ s.sameBytes t ∧ t = u.retire 4 := by
  refine ⟨_, hexec.trans (instr_ok hg hbody), ?_, ?_, State.sameBytes_trans h.bytes (u.retire_sameBytes 4), rfl⟩
  · rw [State.cx_retire]
    exact h.x
  · rw [State.cx_retire]
    exact congrArg (· + dw 4) h.pc

theorem State.AsIssuer.of_cores (hcur : u.cur = s.cur) (hctx : u.curCtx = s.curCtx) (hcores : u.cores = s.cores)
    (hmem : u.mem = s.mem) : s.AsIssuer u := by
  have hcore (c : CoreId) : u.core c = s.core c := State.core_congr hcores c
  have hcx : u.cx = s.cx := by
    unfold State.cx State.me
    rw [hcur, hctx, hcore]
  exact ⟨by rw [hcx], by rw [hcx], by rw [hcx], fun _ => by rw [hmem], fun c _ => by rw [hcore]⟩

theorem lineCheck_reaches {off : Int} {e : EA} (ha : s.regFree a = true)
    (hreach : s.reaches (s.cx.xr a + BitVec.ofInt 64 (off * 128)) 1 .load e u) : lineCheck a off s = .ok u := by
  have haddr : State.addrOff a off 128 s = .ok (s.cx.xr a + BitVec.ofInt 64 (off * 128)) := State.addrOff_free ha off 128
  unfold lineCheck
  rw [haddr, ok_bind, State.globalEA_of_reaches hreach]
  rfl

theorem State.shareLine_sameBytes (s : State) (c : CoreId) (pa : Nat) : s.sameBytes (s.shareLine c pa) := by
  refine ⟨fun b => ?_, fun d b => ?_⟩
  · have hmem : (s.shareLine c pa).mem = s.mem := by
      unfold State.shareLine
      split
      · rfl
      · split <;> rfl
    rw [hmem]
  · rw [(State.OnlyReads.shareLine s c pa).core d]

/-- A line that a core asks for changes what the home keeps of it, and no core's PC, registers or bytes (R65, R66). -/
theorem State.fillLine_frame (s : State) (c : CoreId) (pa : Nat) : s.OnlyReads (s.fillLine c pa) ∧ s.sameBytes (s.fillLine c pa) := by
  unfold State.fillLine
  split
  · exact ⟨.of_cores rfl rfl rfl, fun _ => rfl, fun _ _ => rfl⟩
  · exact ⟨.shareLine s c pa, s.shareLine_sameBytes c pa⟩

/-- CPF asks for its line or, where the address fails a check, does nothing: it never faults (R260). -/
theorem exec_cpf (hg : s.guardPasses g = true) (ha : s.regFree a = true) (off : Int) :
    ∃ u, exec (.cpf g a off) s = .next (u.retire 4) ∧ s.OnlyReads u ∧ s.sameBytes u := by
  have haddr : State.addrOff a off 128 s = .ok (s.cx.xr a + BitVec.ofInt 64 (off * 128)) := State.addrOff_free ha off 128
  have hsame := s.globalCheck_sameButTlbs s.cur (s.cx.xr a + BitVec.ofInt 64 (off * 128)) 1 .load
  have hreads := State.OnlyReads.of_sameButTlbs hsame
  rcases hcheck : s.globalCheck s.cur (s.cx.xr a + BitVec.ofInt 64 (off * 128)) 1 .load with ⟨r, u⟩
  rw [hcheck] at hsame hreads
  cases r with
  | error p =>
    refine ⟨u, (execCpf.eq_1 g a off s).trans (instr_ok hg ?_), hreads, hsame.sameBytes⟩
    rw [haddr, ok_bind, hcheck]
    rfl
  | ok e =>
    obtain ⟨hfill, hbytes⟩ := u.fillLine_frame s.cur e.pa
    refine ⟨if allocates .normal (pteKind e.page.leaf) then u.fillLine s.cur e.pa else u,
      (execCpf.eq_1 g a off s).trans (instr_ok hg ?_), ?_, ?_⟩
    · rw [haddr, ok_bind, hcheck]
      rfl
    · split
      · exact hreads.trans hfill
      · exact hreads
    · split
      · exact State.sameBytes_trans hsame.sameBytes hbytes
      · exact hsame.sameBytes

end

/-! ## What a context knows (R95 to R99) -/

section
variable {m n : KMap Nat}

theorem put_max_get_le (m : KMap Nat) (k v a : Nat) : m.get 0 a ≤ (m.put k (max v (m.get 0 k))).get 0 a := by
  by_cases h : a = k
  · subst h
    rw [KMap.get_put_self]
    exact le_max_right _ _
  · rw [KMap.get_put_ne _ _ _ _ _ h]

/-- Joining takes nothing back. -/
theorem joinSeen_left (m n : KMap Nat) (a : Nat) : m.get 0 a ≤ (joinSeen m n).get 0 a := by
  unfold joinSeen
  induction n generalizing m with
  | nil => exact le_rfl
  | cons e n ih => exact (put_max_get_le m e.1 e.2 a).trans (ih _)

theorem joinSeen_mem {e : Nat × Nat} (h : e ∈ n) (m : KMap Nat) : e.2 ≤ (joinSeen m n).get 0 e.1 := by
  induction n generalizing m with
  | nil => exact absurd h List.not_mem_nil
  | cons f n ih =>
    rcases List.mem_cons.mp h with rfl | h
    · calc e.2 ≤ max e.2 (m.get 0 e.1) := le_max_left _ _
        _ = (m.put e.1 (max e.2 (m.get 0 e.1))).get 0 e.1 := (KMap.get_put_self 0 m _ _).symm
        _ ≤ (joinSeen m (e :: n)).get 0 e.1 := joinSeen_left _ n _
    · exact ih h _

theorem joinSeen_right (m n : KMap Nat) (a : Nat) : n.get 0 a ≤ (joinSeen m n).get 0 a := by
  rcases KMap.get_mem 0 n a with h | h
  · exact joinSeen_mem h m
  · rw [h]
    exact Nat.zero_le _

/-- What several releases have before them, joined to a map. -/
def joinAll (m : KMap Nat) (rs : List Rel) : KMap Nat := rs.foldl (fun m r => joinSeen m r.seen) m

theorem joinAll_left (rs : List Rel) (m : KMap Nat) (a : Nat) : m.get 0 a ≤ (joinAll m rs).get 0 a := by
  induction rs generalizing m with
  | nil => exact le_rfl
  | cons r rs ih => exact (joinSeen_left m r.seen a).trans (ih _)

theorem joinAll_mem {rs : List Rel} {r : Rel} (h : r ∈ rs) (m : KMap Nat) (a : Nat) : r.seen.get 0 a ≤ (joinAll m rs).get 0 a := by
  induction rs generalizing m with
  | nil => exact absurd h List.not_mem_nil
  | cons q rs ih =>
    rcases List.mem_cons.mp h with rfl | h
    · exact (joinSeen_right m r.seen a).trans (joinAll_left rs _ a)
    · exact ih h _

end

/-! ## Fences (R262, R94, R95, R98, R99) -/

section
variable {s t u : State} {g : Guard} {sc : Scope} {i : Instr} {body : State → Act} {scope : Nat}

/-- A context that comes after more than another. -/
theorem Ctx.knows_of_joinSeen {x y : Ctx} {m : KMap Nat} (h : y.seen = joinSeen x.seen m) : y.knows x.seen ∧ y.knows m := by
  unfold Ctx.knows
  rw [h]
  exact ⟨joinSeen_left _ _, joinSeen_right _ _⟩

theorem Ctx.knows_trans {x y : Ctx} {m : KMap Nat} (h : x.knows m) (g : y.knows x.seen) : y.knows m :=
  fun a => (h a).trans (g a)

/-- Of the issuing context, what a fence may change: what it comes after, its epoch, the scope of its stores. -/
theorem State.AsIssuer.of_modCx {f : Ctx → Ctx} (hf : ∀ x, (f x).pc = x.pc ∧ (f x).x = x.x ∧ (f x).reqs = x.reqs) :
    s.AsIssuer (s.modCx f) := by
  obtain ⟨hpc, hx, hreqs⟩ := hf s.cx
  exact ⟨by rw [State.cx_modCx, hpc], by rw [State.cx_modCx, hx], by rw [State.cx_modCx, hreqs], s.modCx_sameBytes f⟩

/-- What the acquire of a context at a scope has it come after (R95, R98). -/
def State.acquired (s : State) (scope : Nat) (x : Ctx) : Prop :=
  x.knows s.cx.seen ∧ x.knows (s.knownAt s.cur scope s.cx.obsT) ∧ ∀ r ∈ s.cx.obs, r.syncs s.cur scope = true → x.knows r.seen

theorem State.acquireObs_eq (s : State) (scope : Nat) : s.acquireObs s.cur s.curCtx scope =
    s.syncWith s.cur s.curCtx (joinAll (s.knownAt s.cur scope s.cx.obsT) (s.cx.obs.filter fun q => q.syncs s.cur scope)) := rfl

theorem State.acquireObs_acquired (s : State) (scope : Nat) : s.acquired scope (s.acquireObs s.cur s.curCtx scope).cx := by
  rw [State.acquireObs_eq]
  obtain ⟨hold, hnew⟩ := Ctx.knows_of_joinSeen (congrArg Ctx.seen (s.cx_syncWith
    (joinAll (s.knownAt s.cur scope s.cx.obsT) (s.cx.obs.filter fun q => q.syncs s.cur scope))))
  refine ⟨hold, fun a => (joinAll_left _ _ a).trans (hnew a), fun r hr hsync a => ?_⟩
  exact (joinAll_mem (List.mem_filter.mpr ⟨hr, hsync⟩) _ a).trans (hnew a)

theorem State.acquired.mono {x y : Ctx} (h : s.acquired scope x) (g : y.knows x.seen) : s.acquired scope y := by
  obtain ⟨hold, hknown, hobs⟩ := h
  exact ⟨Ctx.knows_trans hold g, Ctx.knows_trans hknown g, fun r hr hsync => Ctx.knows_trans (hobs r hr hsync) g⟩

theorem State.acquireObs_asIssuer (s : State) (scope : Nat) : s.AsIssuer (s.acquireObs s.cur s.curCtx scope) :=
  s.syncWith_asIssuer _

theorem acquireFence_quiet (hq : s.quiet) (sc : Scope) : acquireFence sc s = .ok (s.acquireObs s.cur s.curCtx (scopeCode sc)) := by
  unfold acquireFence
  rw [s.syncPoint_quiet hq, ok_bind, hq.1]
  rfl

/-- The earlier FENCE.FULLs that one of the issuing context comes after, joined (R99). -/
def State.earlierFulls (s : State) (scope : Nat) : KMap Nat := joinAll [] (s.fulls.filter fun r => r.syncs s.cur scope)

/-- The state of a FENCE.FULL before it takes its place: it has acquired, and comes after the earlier ones. -/
def State.fullKnown (s : State) (scope : Nat) : State :=
  (s.acquireObs s.cur s.curCtx scope).syncWith s.cur s.curCtx (s.earlierFulls scope)

/-- A FENCE.FULL takes its place behind the earlier ones (R99). -/
def State.fullNoted (s : State) (scope : Nat) : State :=
  { s.fullKnown scope with
    fulls := s.fulls ++ [{ core := s.cur, scope := scope, seen := (s.fullKnown scope).cx.seen }] }

theorem State.fenceFull_eq (s : State) (sc : Scope) : s.fenceFull sc =
    (s.fullNoted (scopeCode sc)).modCx fun x => { x with relS := max x.relS (scopeCode sc) } := rfl

/-- What FENCE.FULL does to its context and to the order of the FENCE.FULLs (R99, R94, R98). -/
theorem State.fenceFull_effect (s : State) (sc : Scope) : s.AsIssuer (s.fenceFull sc) ∧
    s.acquired (scopeCode sc) (s.fenceFull sc).cx ∧
    (∀ r ∈ s.fulls, r.syncs s.cur (scopeCode sc) = true → (s.fenceFull sc).cx.knows r.seen) ∧
    (s.fenceFull sc).fulls = s.fulls ++ [{ core := s.cur, scope := scopeCode sc, seen := (s.fenceFull sc).cx.seen }] ∧
    (s.fenceFull sc).cx.relS = max s.cx.relS (scopeCode sc) := by
  set k := scopeCode sc
  set v := s.acquireObs s.cur s.curCtx k with hv
  have hsync : s.fullKnown k = v.syncWith v.cur v.curCtx (s.earlierFulls k) := rfl
  have hknown := v.cx_syncWith (s.earlierFulls k)
  rw [← hsync] at hknown
  obtain ⟨hold, hfulls⟩ := Ctx.knows_of_joinSeen (congrArg Ctx.seen hknown)
  have hcx : (s.fenceFull sc).cx = { (s.fullKnown k).cx with relS := max (s.fullKnown k).cx.relS k } := by
    rw [State.fenceFull_eq, State.cx_modCx]
    rfl
  have hacquire : v.cx.relS = s.cx.relS := by
    rw [hv, State.acquireObs_eq, State.cx_syncWith]
  refine ⟨?_, ?_, fun r hr hsyncs a => ?_, ?_, ?_⟩
  · have hissuer : s.AsIssuer (s.fullKnown k) := (s.acquireObs_asIssuer k).trans (v.syncWith_asIssuer _)
    have hnoted : (s.fullKnown k).AsIssuer (s.fullNoted k) := .of_cores rfl rfl rfl rfl
    rw [State.fenceFull_eq]
    exact (hissuer.trans hnoted).trans
      (State.AsIssuer.of_modCx (f := fun x => { x with relS := max x.relS k }) fun _ => ⟨rfl, rfl, rfl⟩)
  · refine (s.acquireObs_acquired k).mono ?_
    rw [hcx]
    exact hold
  · rw [hcx]
    exact (joinAll_mem (List.mem_filter.mpr ⟨hr, hsyncs⟩) [] a).trans (hfulls a)
  · rw [hcx]
    rfl
  · rw [hcx, hknown, ← hacquire]

end

/-! ## HAND (R270, R75) -/

section
variable {s t u : State} {g : Guard} {a b : Reg} {region l : Nat}

/-- A capability leaves the issuing core: from its table, or from the default holding of its launch `l` (R75). -/
structure State.GivesCap (s : State) (region l : Nat) (t : State) : Prop where
  pc : t.cx.pc = s.cx.pc
  bytes : s.sameBytes t
  table : ∀ p, (s.me.caps.find? fun p => p.1 == region) = some p → t.me.caps = s.me.caps.filter (fun r => r != p) ∧ l = p.2
  default : (s.me.caps.find? fun p => p.1 == region) = none →
    t.me.caps = s.me.caps ∧ ∃ r, t.launches.find l = some r ∧ region ∈ r.given

theorem State.giveCap_of_table {p : Nat × Nat} (h : (s.me.caps.find? fun p => p.1 == region) = some p) :
    s.giveCap s.cur region = (p.2, s.modMe fun k => { k with caps := k.caps.filter fun q => q != p }) := by
  have hfind : ((s.core s.cur).caps.find? fun p => p.1 == region) = some p := h
  unfold State.giveCap
  rw [hfind]
  rfl

theorem State.giveCap_of_default {e : Nat × Launch} (h : (s.me.caps.find? fun p => p.1 == region) = none)
    (he : (s.launches.find? fun e => e.2.first == s.cur.val && !e.2.given.contains region) = some e) :
    s.giveCap s.cur region =
      (e.1, { s with launches := s.launches.put e.1 { e.2 with given := e.2.given ++ [region] } }) := by
  have hfind : ((s.core s.cur).caps.find? fun p => p.1 == region) = none := h
  unfold State.giveCap
  rw [hfind, he]

theorem State.default_of_capHeld (hheld : s.capHeld s.cur region = true) (h : (s.me.caps.find? fun p => p.1 == region) = none) :
    ∃ e, (s.launches.find? fun e => e.2.first == s.cur.val && !e.2.given.contains region) = some e := by
  have hnone : (s.me.caps.any fun p => p.1 == region) = false := List.any_eq_false.mpr (List.find?_eq_none.mp h)
  have hor : ((s.me.caps.any fun p => p.1 == region) ||
    s.launches.any fun e => e.2.first == s.cur.val && !e.2.given.contains region) = true := hheld
  rw [hnone, Bool.false_or] at hor
  exact Option.isSome_iff_exists.mp (List.find?_isSome.mpr (List.any_eq_true.mp hor))

theorem State.giveCap_held (hheld : s.capHeld s.cur region = true) :
    s.GivesCap region (s.giveCap s.cur region).1 (s.giveCap s.cur region).2 ∧
      (s.giveCap s.cur region).2.capMsgs = s.capMsgs ∧ (s.giveCap s.cur region).2.outbox = s.outbox := by
  cases h : s.me.caps.find? fun p => p.1 == region with
  | some p =>
    rw [State.giveCap_of_table h]
    refine ⟨⟨congrArg Ctx.pc (State.cx_modMe_ctxs _ fun _ => rfl), State.modCore_sameBytes _ _ _ fun _ => rfl, fun q hq => ?_,
      fun hnone => ?_⟩, rfl, rfl⟩
    · rw [h] at hq
      obtain rfl := Option.some.inj hq
      exact ⟨congrArg Core.caps (s.me_modMe _), rfl⟩
    · rw [h] at hnone
      exact absurd hnone (Option.some_ne_none p)
  | none =>
    obtain ⟨e, he⟩ := State.default_of_capHeld hheld h
    rw [State.giveCap_of_default h he]
    refine ⟨⟨rfl, ⟨fun _ => rfl, fun _ _ => rfl⟩, fun q hq => ?_, fun _ => ?_⟩, rfl, rfl⟩
    · rw [h] at hq
      exact absurd hq.symm (Option.some_ne_none q)
    · exact ⟨rfl, _, KMap.find_put_self _ _ _, List.mem_append_right _ (List.mem_singleton_self region)⟩

/-- What keeps the cores, the launches and the memory keeps what a capability that leaves has changed. -/
theorem State.GivesCap.of_cores (h : s.GivesCap region l t) (hcur : u.cur = t.cur) (hctx : u.curCtx = t.curCtx)
    (hcores : u.cores = t.cores) (hmem : u.mem = t.mem) (hlaunches : u.launches = t.launches) : s.GivesCap region l u := by
  have hissuer : t.AsIssuer u := .of_cores hcur hctx hcores hmem
  have hme : u.me = t.me := by
    unfold State.me
    rw [hcur, State.core_congr hcores]
  refine ⟨hissuer.pc.trans h.pc, State.sameBytes_trans h.bytes hissuer.bytes, ?_, ?_⟩
  · rw [hme]
    exact h.table
  · rw [hme, hlaunches]
    exact h.default

/-- The message that HAND sends to `y`: in flight within the module, or a packet (R270, R75). -/
def State.sendCap (s : State) (region l : Nat) (y : DWord) (u : State) : State :=
  if s.isLocal y then
    { u with capMsgs := u.capMsgs ++
        [{ region := region, lcnt := l, src := s.cur, dst := descCore y, refused := false, seen := s.cx.seen }] }
  else u.emit (descDev y) false none (.capability region s.cur.val (descCore y).val false) s.cx.seen

/-- What HAND leaves once its checks pass: the capability given away and its message sent. -/
theorem State.GivesCap.sent (h : s.GivesCap region l u) (hmsgs : u.capMsgs = s.capMsgs) (hout : u.outbox = s.outbox) (y : DWord) :
    ((s.sendCap region l y u).retire 4).cx.pc = s.cx.pc + 4 ∧ s.sameBytes ((s.sendCap region l y u).retire 4) ∧
    (∀ p, (s.me.caps.find? fun p => p.1 == region) = some p →
      ((s.sendCap region l y u).retire 4).me.caps = s.me.caps.filter (fun r => r != p) ∧ l = p.2) ∧
    ((s.me.caps.find? fun p => p.1 == region) = none → ((s.sendCap region l y u).retire 4).me.caps = s.me.caps ∧
      ∃ r, ((s.sendCap region l y u).retire 4).launches.find l = some r ∧ region ∈ r.given) ∧
    (s.isLocal y = true → ((s.sendCap region l y u).retire 4).capMsgs =
      s.capMsgs ++ [⟨region, l, s.cur, descCore y, false, s.cx.seen⟩]) ∧
    (s.isLocal y = false → ∃ p, ((s.sendCap region l y u).retire 4).outbox = p :: s.outbox ∧
      p.body = .capability region s.cur.val (descCore y).val false) := by
  have hsent : s.GivesCap region l (s.sendCap region l y u) := by
    unfold State.sendCap
    split
    · exact h.of_cores rfl rfl rfl rfl rfl
    · exact h.of_cores rfl rfl rfl rfl rfl
  obtain ⟨hpc, hbytes, htable, hdefault⟩ := hsent
  have hcaps : ((s.sendCap region l y u).retire 4).me.caps = (s.sendCap region l y u).me.caps := by rw [State.me_retire]
  refine ⟨?_, State.sameBytes_trans hbytes (State.retire_sameBytes _ 4), ?_, ?_, fun hlocal => ?_, fun hlocal => ?_⟩
  · rw [State.cx_retire]
    exact congrArg (· + dw 4) hpc
  · rw [hcaps]
    exact htable
  · rw [hcaps]
    exact hdefault
  · unfold State.sendCap
    rw [if_pos hlocal, ← hmsgs]
    rfl
  · unfold State.sendCap
    rw [if_neg (Bool.eq_false_iff.mp hlocal), ← hout]
    exact ⟨_, rfl, rfl⟩

/-- The checks of HAND in their order: the capability, then the chassis; then it waits (R270, R94). -/
theorem hand_checks (hg : s.guardPasses g = true) (ha : s.regFree a = true) (hb : s.regFree b = true) (hq : s.quiet)
    (hu : s.unbound) : exec (.hand g a b) s = s.finish 4
      (check (s.capHeld s.cur (regionOf (s.cx.xr a))) 0x0C (s.cx.xr a) >>= fun _ =>
        check (s.isLocal (s.cx.xr b) || decide (fld (descDev (s.cx.xr b)) 13 0 = fld s.devCoord 13 0)) 0x1D (s.cx.xr a)
          ((descDev (s.cx.xr b)).setWidth 64) >>= fun _ =>
        .ok (s.sendCap (regionOf (s.cx.xr a)) (s.giveCap s.cur (regionOf (s.cx.xr a))).1 (s.cx.xr b)
          (s.giveCap s.cur (regionOf (s.cx.xr a))).2)) := by
  refine (execHand.eq_1 g a b s).trans ((instr_eq_finish hg).trans (congrArg (s.finish 4) ?_))
  rw [s.memGate_quiet hq, ok_bind, s.syncPoint_quiet hq, ok_bind, s.rdX_free a ha, ok_bind, s.rdX_free b hb, ok_bind,
    State.versionsDone_quiet hq, State.settled_quiet hq hu]
  rfl

theorem fld_chassis (d : BitVec 20) : fld d 13 0 = d.toNat % 2 ^ 14 := by
  rw [fld, Nat.pow_zero, Nat.div_one]

/-- Trap entry leaves the capability table as it was. -/
theorem State.trapHere_caps (h : s.trapFree) (q : TrapInfo) : (s.trapHere q).me.caps = s.me.caps := by
  rw [State.trapHere_eq h, State.me_modMe, State.me_modCx]
  rfl

/-- A HAND that a check refuses changes neither bytes nor capabilities. -/
theorem State.finish_refused (hfree : s.trapFree) (q : TrapInfo) {r : Act} (hr : r = .error (.trap q)) :
    ∃ t, s.finish 4 r = .next t ∧ s.trapsTo t q.cause q.faddr q.finfo ∧ s.sameBytes t ∧ t.me.caps = s.me.caps := by
  subst hr
  obtain ⟨htraps, hbytes⟩ := State.stopWith_trap hfree q
  exact ⟨_, rfl, htraps, hbytes, State.trapHere_caps hfree q⟩

end

/-- Settles O18: line operations pass (`State.AsIssuer.passes`, `exec_cpf`), fences join what they acquire to what the context knows
(`State.acquireObs_acquired`, `State.fenceFull_effect`), and HAND gives the capability away (`State.giveCap_held`). -/
theorem orderingResults : Obligations.OrderingResults := by
  unfold Obligations.OrderingResults
  refine ⟨fun g a off s hg hready hrel hgate => ?_, fun g sc s hg hq hu => ?_, fun g a b s hg hready hq hu => ?_⟩
  · have ha := hready a (by simp)
    intro ea passes
    refine ⟨?_, fun e u hreach => ?_, ?_⟩
    · have hsame : s.AsIssuer (s.clearConst (landingOf s.cur.val)) := .of_cores rfl rfl rfl rfl
      obtain ⟨t, ht, hx, hpc, hbytes, rfl⟩ := hsame.passes (i := .cinvC g) hg (execCinvC.eq_1 g s) (by
        rw [State.memGate_ungated hgate, ok_bind, State.relWait_released hrel]; rfl)
      exact ⟨_, ht, hx, hpc, hbytes, rfl⟩
    · have line {i : Instr} (hexec : exec i s = instr g (lineCheck a off) s) : passes i fun _ => True := by
        obtain ⟨t, ht, hx, hpc, hbytes, -⟩ :=
          (State.sameButTlbs_of_reaches hreach).asIssuer.passes hg hexec (lineCheck_reaches ha hreach)
        exact ⟨t, ht, hx, hpc, hbytes, trivial⟩
      exact ⟨line rfl, line rfl⟩
    · obtain ⟨u, hu, hreads, hbytes⟩ := exec_cpf hg ha off
      refine ⟨_, hu, ?_, ?_, State.sameBytes_trans hbytes (u.retire_sameBytes 4), trivial⟩
      · rw [State.cx_retire]
        exact hreads.cx_x
      · rw [State.cx_retire]
        exact congrArg (· + dw 4) hreads.cx_pc
  · intro passes acquired
    have fence {i : Instr} {body : State → Act} {u : State} {P : State → Prop} (hexec : exec i s = instr g body s)
        (hbody : body s = .ok u) (hsame : s.AsIssuer u) (hknows : u.cx.knows s.cx.seen) (hP : P (u.retire 4)) : passes i P := by
      obtain ⟨t, ht, hx, hpc, hbytes, rfl⟩ := hsame.passes hg hexec hbody
      refine ⟨_, ht, hx, hpc, hbytes, ?_, hP⟩
      rw [State.cx_retire]
      exact hknows
    have retired {u : State} (h : s.acquired (scopeCode sc) u.cx) : acquired (u.retire 4) := by
      obtain ⟨-, hknown, hobs⟩ := h
      unfold acquired
      rw [State.cx_retire]
      exact ⟨hknown, hobs⟩
    have hacq := s.acquireObs_acquired (scopeCode sc)
    refine ⟨fence rfl (acquireFence_quiet hq sc) (s.acquireObs_asIssuer _) hacq.1 (retired hacq), ?_, ?_⟩
    · by_cases hsc : sc = .ctx
      · refine fence (u := s) (execFenceRel.eq_1 g sc s) ?_ (.of_cores rfl rfl rfl rfl) (fun _ => le_rfl) ?_
        · rw [s.syncPoint_quiet hq, ok_bind, if_pos hsc, hq.1]
          rfl
        · rw [if_pos hsc, State.cx_retire]
          exact ⟨rfl, rfl⟩
      · refine fence (u := s.modCx fun x => { x with epoch := x.epoch + 1, relS := max x.relS (scopeCode sc) })
          (execFenceRel.eq_1 g sc s) ?_ (.of_modCx fun _ => ⟨rfl, rfl, rfl⟩) ?_ ?_
        · rw [s.syncPoint_quiet hq, ok_bind, if_neg hsc, State.pushesDone_unbound hu]
          rfl
        · rw [State.cx_modCx]
          exact fun _ => le_rfl
        · rw [if_neg hsc, State.cx_retire, State.cx_modCx]
          exact ⟨rfl, rfl⟩
    · by_cases hsc : sc = .ctx
      · refine fence (u := s.acquireObs s.cur s.curCtx (scopeCode sc)) (execFenceFull.eq_1 g sc s) ?_ (s.acquireObs_asIssuer _)
          hacq.1 ⟨retired hacq, fun h => absurd hsc h⟩
        rw [State.settledAt_quiet hq hu, ok_bind, if_pos hsc, hsc]
        rfl
      · obtain ⟨hsame, hfull, hearlier, hfulls, hrel⟩ := s.fenceFull_effect sc
        refine fence (u := s.fenceFull sc) (execFenceFull.eq_1 g sc s) ?_ hsame hfull.1 ⟨retired hfull, fun _ => ?_⟩
        · rw [State.settledAt_quiet hq hu, ok_bind, if_neg hsc]
          rfl
        · rw [State.cx_retire]
          exact ⟨hearlier, hfulls, hrel⟩
  · have ha := hready a (by simp)
    have hb := hready b (by simp)
    intro region y entry
    have hexec := hand_checks hg ha hb hq hu
    rw [fld_chassis, fld_chassis] at hexec
    refine ⟨fun hheld hnear => ?_, fun hheld hlocal hfar hfree => ?_, fun hheld hfree => ?_⟩
    · have hreach : (s.isLocal y || decide ((descDev y).toNat % 2 ^ 14 = s.devCoord.toNat % 2 ^ 14)) = true := by
        rwa [Bool.or_eq_true, decide_eq_true_eq]
      rw [hheld, check_true, ok_bind, hreach, check_true, ok_bind] at hexec
      obtain ⟨hgives, hmsgs, hout⟩ := State.giveCap_held hheld
      exact ⟨_, _, hexec, hgives.sent hmsgs hout y⟩
    · have hreach : (s.isLocal y || decide ((descDev y).toNat % 2 ^ 14 = s.devCoord.toNat % 2 ^ 14)) = false := by
        rw [hlocal, decide_eq_false hfar]
        rfl
      rw [hheld, check_true, ok_bind, hreach] at hexec
      rw [hexec]
      exact State.finish_refused hfree ⟨0x1D, s.cx.xr a, (descDev y).setWidth 64⟩ rfl
    · rw [hheld] at hexec
      rw [hexec]
      exact State.finish_refused hfree ⟨0x0C, s.cx.xr a, 0⟩ rfl

end Sys2Proof.Machine
end

/-! PROOFS. Replies of loads, and requests that leave the module (R71, R74, R84, R90, R253, R266, R361, R367). Here O41 is settled. -/

section
namespace Sys2Proof.Machine

/-! ## Requests in place -/

section
variable {s t u : State} {c : CoreId} {h : CtxId} {k : Nat} {q : Req}

/-- A context's requests and general registers, and memory, are as before. -/
structure State.KeepsReqs (s : State) (c : CoreId) (h : CtxId) (t : State) : Prop where
  reqs : ((t.core c).ctx h).reqs = ((s.core c).ctx h).reqs
  x : ((t.core c).ctx h).x = ((s.core c).ctx h).x
  mem : t.mem = s.mem

theorem State.KeepsReqs.refl (s : State) (c : CoreId) (h : CtxId) : s.KeepsReqs c h s := ⟨rfl, rfl, rfl⟩

theorem State.KeepsReqs.trans (h₁ : s.KeepsReqs c h t) (h₂ : t.KeepsReqs c h u) : s.KeepsReqs c h u :=
  ⟨h₂.reqs.trans h₁.reqs, h₂.x.trans h₁.x, h₂.mem.trans h₁.mem⟩

theorem State.KeepsReqs.of_cores (hcores : t.cores = s.cores) (hmem : t.mem = s.mem) : s.KeepsReqs c h t := by
  have hcore := State.core_congr hcores c
  exact ⟨by rw [hcore], by rw [hcore], hmem⟩

theorem State.KeepsReqs.of_modCore {d : CoreId} {f : Core → Core}
    (hf : ∀ k i, ((f k).ctx i).reqs = (k.ctx i).reqs ∧ ((f k).ctx i).x = (k.ctx i).x) : s.KeepsReqs c h (s.modCore d f) := by
  by_cases hd : c = d
  · subst hd
    obtain ⟨hreqs, hx⟩ := hf (s.core c) h
    exact ⟨by rw [State.core_modCore_self, hreqs], by rw [State.core_modCore_self, hx], rfl⟩
  · exact ⟨by rw [State.core_modCore_ne _ _ _ _ hd], by rw [State.core_modCore_ne _ _ _ _ hd], rfl⟩

theorem Core.modCtx_reqs_x (k : Core) (j : CtxId) {f : Ctx → Ctx} (hf : ∀ x, (f x).reqs = x.reqs ∧ (f x).x = x.x) (i : CtxId) :
    ((k.modCtx j f).ctx i).reqs = (k.ctx i).reqs ∧ ((k.modCtx j f).ctx i).x = (k.ctx i).x := by
  by_cases hi : i = j
  · subst hi
    rw [Core.ctx_modCtx_self]
    exact hf _
  · rw [Core.ctx_modCtx_ne _ _ _ _ hi]
    exact ⟨rfl, rfl⟩

theorem State.KeepsReqs.of_modCtx {d : CoreId} {j : CtxId} {f : Ctx → Ctx} (hf : ∀ x, (f x).reqs = x.reqs ∧ (f x).x = x.x) :
    s.KeepsReqs c h (s.modCtx d j f) :=
  .of_modCore fun k i => k.modCtx_reqs_x j hf i

theorem State.KeepsReqs.syncWith (s : State) (c : CoreId) (h : CtxId) (m : KMap Nat) : s.KeepsReqs c h (s.syncWith c h m) :=
  .of_modCtx fun _ => ⟨rfl, rfl⟩

theorem State.KeepsReqs.hasRead (s : State) (c : CoreId) (h : CtxId) (pa : Nat) (r : Option (Nat × Write)) :
    s.KeepsReqs c h (s.hasRead c h pa r) := by
  cases r with
  | none => exact .refl s c h
  | some r => exact .of_modCtx fun _ => ⟨rfl, rfl⟩

theorem State.KeepsReqs.acquireFrom (s : State) (c : CoreId) (h : CtxId) (scope : Nat) (r : Option (Nat × Write)) :
    s.KeepsReqs c h (s.acquireFrom c h scope r) := by
  cases r with
  | none => exact .refl s c h
  | some r => exact .syncWith s c h _

theorem State.KeepsReqs.observe (s : State) (c : CoreId) (h : CtxId) (pa n : Nat) : s.KeepsReqs c h (s.observe c h pa n).2.2 := by
  have hdraw : s.KeepsReqs c h (s.draw 64).2 := .of_cores rfl rfl
  unfold State.observe
  dsimp only
  split
  · exact hdraw.trans (.hasRead _ c h pa _)
  · exact .hasRead s c h pa _

/-- A home context that is woken keeps its requests and registers (R66). -/
theorem State.KeepsReqs.wakeHome (s : State) (c : CoreId) (h : CtxId) (pa : Nat) : s.KeepsReqs c h (s.wakeHome pa) := by
  refine .of_modCore (f := Core.wakeHome) fun k i => ?_
  unfold Core.wakeHome
  split
  · exact ⟨rfl, rfl⟩
  · exact k.modCtx_reqs_x 11 (fun _ => by exact ⟨rfl, rfl⟩) i

theorem State.KeepsReqs.shareLine (s : State) (c : CoreId) (h : CtxId) (pa : Nat) : s.KeepsReqs c h (s.shareLine c pa) := by
  unfold State.shareLine
  split
  · exact .refl s c h
  · split
    · exact .of_cores rfl rfl
    · have hnotice : s.KeepsReqs c h { s with
          dir := s.dir.put (lineOf (lineOf pa)) { s.dirAt (lineOf pa) with overflow := true }
          notices := s.notices.put (homeLanding (lineOf pa))
            (s.notices.get [] (homeLanding (lineOf pa)) ++ [(lineOf (lineOf pa), c.val)]) } := .of_cores rfl rfl
      exact (hnotice.trans (.wakeHome _ c h _)).trans (.of_modCore (f := fun k => k.perf 0x21 1) fun _ _ => ⟨rfl, rfl⟩)

theorem State.KeepsReqs.loadShares (s : State) (c : CoreId) (h : CtxId) (q : Req) : s.KeepsReqs c h (s.loadShares c q) := by
  unfold State.loadShares
  split
  · exact .shareLine s c h _
  · exact .refl s c h

end

/-! ## Answers, faults and departures (R253, R84) -/

section
variable {s t u : State} {c : CoreId} {h : CtxId} {k : Nat} {q : Req} {v : DWord}

/-- Requests, without what the model notes of their predecessors. -/
def bareReqs (l : List Req) : List Req := l.map fun r => { r with seen := [] }

theorem bareReqs_filter (l : List Req) (n : Nat) :
    bareReqs (l.filter fun r => r.id ≠ n) = (bareReqs l).filter fun r => r.id ≠ n := by
  unfold bareReqs
  rw [List.filter_map]
  rfl

theorem bareReqs_map {f : Req → Req} (hf : ∀ r, { f r with seen := [] } = ({ r with seen := [] } : Req)) (l : List Req) :
    bareReqs (l.map f) = bareReqs l := by
  unfold bareReqs
  rw [List.map_map]
  exact List.map_congr_left fun r _ => hf r

/-- What a performed access says to those that come after it is noted in their `seen` alone (R94, R108). -/
theorem State.tellAfter_bare (s : State) (c : CoreId) (h : CtxId) (id : Nat) (n : KMap Nat) :
    bareReqs (((s.tellAfter c h id n).core c).ctx h).reqs = bareReqs ((s.core c).ctx h).reqs ∧
      (((s.tellAfter c h id n).core c).ctx h).x = ((s.core c).ctx h).x ∧ (s.tellAfter c h id n).mem = s.mem := by
  unfold State.tellAfter
  split
  · exact ⟨rfl, rfl, rfl⟩
  · rw [State.core_modCore_self]
    unfold Core.ctx
    rw [vget_ofFn]
    dsimp only
    rw [if_pos rfl]
    dsimp only
    refine ⟨bareReqs_map (fun r => by split <;> rfl) _, ?_, rfl⟩
    split <;> rfl

/-- A request has been answered with a value: it is no longer outstanding, and its destination holds the value (R253). -/
def State.TakesReply (s : State) (c : CoreId) (h : CtxId) (q : Req) (v : DWord) (t : State) : Prop :=
  bareReqs ((t.core c).ctx h).reqs = bareReqs (((s.core c).ctx h).reqs.filter fun r => r.id ≠ q.id) ∧
    ((t.core c).ctx h).x = (match q.dest with
      | some d => (((s.core c).ctx h).setX d v).x
      | none => ((s.core c).ctx h).x) ∧ t.mem = s.mem

theorem Ctx.setX_x_congr {x y : Ctx} (hxy : x.x = y.x) (d : Reg) (v : DWord) : (x.setX d v).x = (y.setX d v).x := by
  unfold Ctx.setX
  split
  · exact hxy
  · exact congrArg (fun w => vput w d v) hxy

theorem State.KeepsReqs.answer (hkeeps : s.KeepsReqs c h u) (q : Req) (v : DWord) : s.TakesReply c h q v (u.answer c h q v) := by
  obtain ⟨hreqs, hx, hmem⟩ := hkeeps
  obtain ⟨htold, htoldx, htell⟩ := u.tellAfter_bare c h q.id
    (if q.gate then ((u.core c).ctx h).seen else ((u.core c).ctx h).seen.filter fun e => e.1 == q.pa / 8)
  rw [hreqs] at htold
  rw [hx] at htoldx
  have hreqsx : bareReqs ((((u.tellLater c h q).core c).ctx h).reqs.filter fun r => r.id ≠ q.id) =
      bareReqs (((s.core c).ctx h).reqs.filter fun r => r.id ≠ q.id) := by
    rw [bareReqs_filter, bareReqs_filter]
    exact congrArg (List.filter _) htold
  unfold State.TakesReply State.answer State.modCtx
  rw [State.core_modCore_self, Core.ctx_modCtx_self]
  cases q.dest with
  | none => exact ⟨hreqsx, htoldx, htell.trans hmem⟩
  | some d =>
    dsimp only
    refine ⟨?_, Ctx.setX_x_congr (by exact htoldx) d v, htell.trans hmem⟩
    rw [Ctx.setX_reqs]
    exact hreqsx

/-- The requests of a context with the number of one. -/
def State.sameId (s : State) (c : CoreId) (h : CtxId) (q : Req) : List Req :=
  ((s.core c).ctx h).reqs.filter fun r => r.id == q.id

/-- A request that is changed in place stays outstanding, changed. -/
theorem State.modReq_sameId {f : Req → Req} {P : Req → Prop} (hq : q ∈ ((s.core c).ctx h).reqs) (hf : ∀ r, (f r).id = r.id)
    (hP : ∀ r, P (f r)) : (s.modReq c h q.id f).sameId c h q ≠ [] ∧ ∀ r ∈ (s.modReq c h q.id f).sameId c h q, P r := by
  have hreqs : (s.modReq c h q.id f).sameId c h q =
      (((s.core c).ctx h).reqs.map fun r => if r.id = q.id then f r else r).filter fun r => r.id == q.id := by
    unfold State.sameId State.modReq State.modCtx
    rw [State.core_modCore_self, Core.ctx_modCtx_self]
  rw [hreqs]
  refine ⟨List.ne_nil_of_mem (a := f q) (List.mem_filter.mpr ⟨List.mem_map.mpr ⟨q, hq, if_pos rfl⟩, ?_⟩), fun r hr => ?_⟩
  · rw [hf, beq_self_eq_true]
  · obtain ⟨hmap, hid⟩ := List.mem_filter.mp hr
    obtain ⟨p, -, rfl⟩ := List.mem_map.mp hmap
    by_cases hp : p.id = q.id
    · rw [if_pos hp]
      exact hP p
    · rw [if_neg hp, beq_iff_eq] at hid
      exact absurd hid hp

/-- A request has met a fault and stays outstanding with it (R253). -/
def State.Defers (s : State) (c : CoreId) (h : CtxId) (q : Req) (cause : Byte) (t : State) : Prop :=
  t.sameId c h q ≠ [] ∧ (∀ r ∈ t.sameId c h q, ∃ i, r.fault = some ⟨cause, q.va, i⟩) ∧ t.mem = s.mem

theorem State.deferFault_defers (hq : q ∈ ((s.core c).ctx h).reqs) (cause : Byte) (finfo : DWord) :
    s.Defers c h q cause (s.deferFault c h q cause finfo) := by
  obtain ⟨hne, hfault⟩ := State.modReq_sameId (s := s)
    (f := fun r => { r with fault := some ⟨cause, q.va, finfo⟩ }) (P := fun r => ∃ i, r.fault = some ⟨cause, q.va, i⟩) hq
    (fun _ => rfl) fun _ => ⟨finfo, rfl⟩
  exact ⟨hne, hfault, rfl⟩

/-- A request has left as one packet and stays outstanding (R84). -/
def State.Leaves (s : State) (c : CoreId) (h : CtxId) (q : Req) (t : State) : Prop :=
  t.outbox.length = s.outbox.length + 1 ∧ t.sameId c h q ≠ [] ∧ (∀ r ∈ t.sameId c h q, r.sent = true) ∧ t.mem = s.mem

theorem State.emit_leaves (hq : q ∈ ((s.core c).ctx h).reqs) (dst : BitVec 20) (enc : Bool)
    (req : Option (CoreId × CtxId × Nat)) (body : PBody) (seen : KMap Nat) :
    s.Leaves c h q ((s.emit dst enc req body seen).modReq c h q.id fun r => { r with sent := true }) := by
  have hmem : q ∈ (((s.emit dst enc req body seen).core c).ctx h).reqs := by
    rw [State.core_congr (s.emit_cores dst enc req body seen none) c]
    exact hq
  obtain ⟨hne, hsent⟩ := State.modReq_sameId (s := s.emit dst enc req body seen) (f := fun r => { r with sent := true })
    (P := fun r => r.sent = true) hmem (fun _ => rfl) fun _ => rfl
  exact ⟨rfl, hne, hsent, rfl⟩

theorem State.mem_reqs_of_reqAt (hreq : s.reqAt c h k = some q) : q ∈ ((s.core c).ctx h).reqs := by
  obtain ⟨hget, -⟩ := Option.filter_eq_some_iff.mp hreq
  exact List.mem_of_getElem? hget

end

/-! ## What a load returns (R67, R90, R92) -/

section
variable {s : State} {c : CoreId} {h : CtxId} {k : Nat} {q st : Req} {sg : Bool}

theorem Memory.read_eq_map (m : Memory) (a n : Nat) : m.read a n = (upto n).map fun i => m.get (a + i) := by
  rw [upto_eq_range]
  induction n generalizing a with
  | zero => rfl
  | succ n ih =>
    rw [Memory.read, ih, List.range_succ_eq_map, List.map_cons, List.map_map, Nat.add_zero]
    refine congrArg (m.get a :: ·) (List.map_congr_left fun i _ => ?_)
    show m.get (a + 1 + i) = m.get (a + (i + 1))
    rw [Nat.add_assoc, Nat.add_comm 1 i]

/-- After all the writes there stands what memory holds. -/
theorem State.readAt_now (s : State) (pa n : Nat) : s.readAt s.past.length pa n = s.mem.read pa n := by
  unfold State.readAt
  rw [Nat.sub_self, List.take_zero, Memory.read_eq_map]
  rfl

/-- A load observes what stood at its place at some instant that is not before what its context knows (R90, R97). -/
theorem State.observe_instant (s : State) (c : CoreId) (h : CtxId) (pa n : Nat) :
    ∃ i, i ≤ s.past.length ∧ (((s.core c).ctx h).seen.get 0 (pa / 8) ≤ s.past.length →
      ((s.core c).ctx h).seen.get 0 (pa / 8) ≤ i) ∧ (s.observe c h pa n).1 = leNat (s.readAt i pa n) := by
  unfold State.observe
  dsimp only
  generalize ((s.core c).ctx h).seen.get 0 (pa / 8) = lo
  split
  · next hany =>
    have hlt : lo < s.past.length := by
      by_contra hge
      rw [Nat.sub_eq_zero_of_le (not_lt.mp hge), List.take_zero] at hany
      exact absurd hany (by simp)
    have hpick := Nat.mod_lt (s.draw 64).1.toNat (show 0 < s.past.length - lo + 1 from Nat.succ_pos _)
    exact ⟨_, by omega, fun _ => Nat.le_add_right _ _, rfl⟩
  · refine ⟨s.past.length, le_rfl, id, ?_⟩
    rw [State.readAt_now]
    rfl

theorem forward_memory {l : List Req} (hl : ∀ r ∈ l, r.meets q = false) : forward l q = .memory := by
  have hnone : (l.filter fun r => r.meets q) = [] := List.filter_eq_nil_iff.mpr fun r hr => by rw [hl r hr]; decide
  unfold forward
  rw [hnone]
  rfl

/-- A load sees the context's own pending store that covers it (R90). -/
theorem forward_store (hkind : st.kind = .store) (hmeets : st.meets q = true) (hlow : st.pa ≤ q.pa)
    (hhigh : q.pa + q.size ≤ st.pa + st.size) : forward [st] q = .value (st.slice q) := by
  have hload : [st].any Req.isLoad = false := by
    rw [List.any_cons, List.any_nil, Bool.or_false, Req.isLoad, hkind]
  have hall : ([st].filter fun r => r.meets q) = [st] := List.filter_eq_self.mpr fun r hr => by rwa [List.mem_singleton.mp hr]
  unfold forward
  rw [hall]
  dsimp only [List.getLast?_singleton]
  rw [hload, if_neg Bool.false_ne_true, if_pos ⟨hkind, hlow, hhigh⟩]

/-- A load from memory that is neither versioned nor open. -/
def State.plainLoad (s : State) (q : Req) : Prop :=
  bit q.aux 0 = false ∧ bit q.aux 1 = false ∧ s.objOpen q.pa q.va q.size = false

theorem State.loadValue_plain (hplain : s.plainLoad q) : s.loadValue c h k q = match forward (s.openBefore c h k) q with
    | .wait => none
    | .value v => some (v, none, s)
    | .memory => if s.pushPending c h q.va q.pa q.size q.id then none else some (s.observe c h q.pa q.size) := by
  obtain ⟨hversioned, hopen, hobj⟩ := hplain
  unfold State.loadValue
  rw [hversioned, hopen, hobj]
  rfl

theorem State.loadValue_version (hbit : bit q.aux 0 = true) (hstv : s.stvBefore c h k q = false) :
    s.loadValue c h k q = some ((s.newest q.pa).toNat / 2 ^ (8 * (q.pa % 8)), none, s) := by
  unfold State.loadValue
  rw [if_pos hbit, hstv]
  rfl

/-- A load of a line that the constant cache does not hold reads what stands there now (R67). -/
theorem State.constValue_uncached (hload : ∀ r ∈ s.openBefore c h k, r.meets q = true → r.isLoad = false)
    (hobj : s.objOpen q.pa q.va q.size = false)
    (hline : KMap.find (s.constC.get [] (landingOf c.val)) (lineOf q.pa) = none) :
    ∃ u, s.constValue c h k q = some (s.mem.readNat q.pa q.size, u) ∧ s.KeepsReqs c h u := by
  have hany : ((s.openBefore c h k).any fun r => r.meets q && r.isLoad) = false := by
    refine List.any_eq_false.mpr fun r hr => ?_
    cases hmeets : r.meets q with
    | false => exact Bool.false_ne_true
    | true =>
      rw [hload r hr hmeets]
      exact Bool.false_ne_true
  have hfill : s.KeepsReqs c h (s.constFill (landingOf c.val) (lineOf q.pa)) := .of_cores rfl rfl
  unfold State.constValue
  dsimp only
  rw [hany, if_neg Bool.false_ne_true, hobj, if_neg Bool.false_ne_true, hline]
  dsimp only
  split
  · exact ⟨_, rfl, .hasRead s c h _ _⟩
  · exact ⟨_, rfl, hfill.trans (.hasRead _ c h _ _)⟩

end

/-! ## Replies of loads (R253, R258, R260, R261, R267) -/

section
variable {s u t : State} {c : CoreId} {h : CtxId} {k n : Nat} {q : Req} {sg : Bool} {o : Option (Nat × Write)}

/-- A plain load or an acquire. -/
def Req.loads (q : Req) (sg : Bool) : Prop := q.kind = .load sg ∨ q.kind = .lda sg

/-- Nothing at its home holds a load of this module's memory back (R65, R66, R70). -/
def State.loadHere (s : State) (c : CoreId) (q : Req) : Prop :=
  isRemote q.pa = false ∧ s.bankAway q.pa = false ∧ s.lineHeld q.pa = false ∧
    (q.aux.getLsbD 3 = true → s.shareOpen c q.pa = true)

theorem State.loadHere.passes (hhere : s.loadHere c q) : s.loadStops c q = false := by
  obtain ⟨-, hbank, hheld, hshare⟩ := hhere
  unfold State.loadStops
  rw [hbank, hheld, Bool.false_or, Bool.false_or]
  cases hbit : bit q.aux 3 with
  | false => rfl
  | true => rw [hshare hbit]; rfl

theorem State.loadReply_near (hremote : isRemote q.pa = false) (hkind : q.loads sg ∨ q.kind = .ldc sg) :
    s.loadReply c h k q = s.nearReply c h k q := by
  unfold State.loadReply
  rcases hkind with (hkind | hkind) | hkind <;> rw [hkind, hremote] <;> rfl

theorem State.loadReply_versioned (hkind : q.kind = .load sg) (hbit : bit q.aux 0 = true) :
    s.loadReply c h k q = s.nearReply c h k q := by
  unfold State.loadReply
  rw [hkind, hbit]
  dsimp only
  rw [Bool.not_true, Bool.and_false, if_neg Bool.false_ne_true]

theorem State.loadReply_far (hremote : isRemote q.pa = true) (hbit : bit q.aux 0 = false) (hkind : q.loads sg ∨ q.kind = .ldc sg) :
    s.loadReply c h k q = s.farLoad c h k q sg := by
  unfold State.loadReply
  rcases hkind with (hkind | hkind) | hkind <;> rw [hkind, hremote]
  · rw [hbit]
    rfl
  · rfl
  · rfl

theorem State.nearReply_lost (hstops : s.loadStops c q = false) (hlost : s.isLost q.pa = true) :
    s.nearReply c h k q = some (s.deferFault c h q 0x18 (s.fi18 q.pa .load)) := by
  unfold State.nearReply
  rw [hstops, hlost]
  rfl

/-- The value of a plain load or an acquire is its answer; an acquire synchronises with the release it has read from (R95). -/
theorem State.nearReply_loads (hstops : s.loadStops c q = false) (hlost : s.isLost q.pa = false) (hkind : q.loads sg)
    (hvalue : s.loadValue c h k q = some (n, o, u)) (hkeeps : s.KeepsReqs c h u) :
    ∃ t, s.nearReply c h k q = some t ∧ s.TakesReply c h q (extend q.size sg n) t := by
  have hshares := hkeeps.trans (.loadShares u c h q)
  unfold State.nearReply
  rw [hstops, hlost, hvalue]
  rcases hkind with hkind | hkind <;> rw [hkind]
  · exact ⟨_, rfl, hshares.answer q _⟩
  · exact ⟨_, rfl, (hshares.trans (.acquireFrom _ c h _ _)).answer q _⟩

theorem State.nearReply_ldc (hstops : s.loadStops c q = false) (hlost : s.isLost q.pa = false) (hkind : q.kind = .ldc sg)
    (hvalue : s.constValue c h k q = some (n, u)) (hkeeps : s.KeepsReqs c h u) :
    ∃ t, s.nearReply c h k q = some t ∧ s.TakesReply c h q (extend q.size sg n) t := by
  unfold State.nearReply
  rw [hstops, hlost, hkind]
  dsimp only
  rw [hvalue]
  exact ⟨_, rfl, hkeeps.answer q _⟩

end

/-! ## Versions (R71, R74) -/

section
variable {s : State} {c : CoreId} {h : CtxId} {k : Nat} {q : Req}

/-- The greatest key of a list whose keys rise is that of its last entry. -/
theorem getLast?_of_greatest {α : Type} {l : List (Nat × α)} (hrises : l.Pairwise fun p r => p.1 < r.1) {p : Nat × α}
    (hp : p ∈ l) (hgreatest : ∀ r ∈ l, r.1 ≤ p.1) : l.getLast? = some p := by
  rcases List.eq_nil_or_concat l with rfl | ⟨l', r, rfl⟩
  · exact absurd hp List.not_mem_nil
  · rw [List.concat_eq_append] at *
    have hlast := hgreatest r (List.mem_append_right _ (List.mem_singleton_self r))
    rcases List.mem_append.mp hp with hp | hp
    · exact absurd ((List.pairwise_append.mp hrises).2.2 p hp r (List.mem_singleton_self r)) (not_lt.mpr hlast)
    · rw [List.getLast?_concat, List.mem_singleton.mp hp]

theorem State.newest_some {pa : Nat} {p : Nat × DWord} (hlast : (s.verAt pa).vers.getLast? = some p) : s.newest pa = p.2 := by
  unfold State.newest
  rw [hlast]

theorem State.newest_none {pa : Nat} (hlast : (s.verAt pa).vers.getLast? = none) : s.newest pa = noVersion := by
  unfold State.newest
  rw [hlast]

theorem State.readVersion_takes (s : State) (c : CoreId) (h : CtxId) (q : Req) (p : Nat × DWord) :
    s.TakesReply c h q p.2 (s.readVersion c h q p) :=
  (State.KeepsReqs.syncWith s c h _).answer q p.2

section
variable (hbank : s.bankAway q.pa = false) (hstv : s.stvBefore c h k q = false) (hlost : s.isLost q.pa = false)
include hbank hstv hlost

theorem State.loadReply_ldv (hkind : q.kind = .ldv) : s.loadReply c h k q =
    match (s.verAt q.pa).vers.find? fun p => p.1 == q.aux.toNat with
      | some p => some (s.readVersion c h q p)
      | none => if q.aux.toNat < s.mark q.pa q.va then some (s.deferFault c h q 0x0B 0) else none := by
  unfold State.loadReply State.versionReply
  rw [hkind, hbank, hstv, hlost]
  rfl

theorem State.loadReply_ldvn (hkind : q.kind = .ldvn) : s.loadReply c h k q =
    match ((s.verAt q.pa).vers.filter fun p => decide (p.1 ≤ q.aux.toNat)).getLast? with
      | some p => some (s.readVersion c h q p)
      | none => some (s.answer c h q noVersion) := by
  unfold State.loadReply State.versionReply
  rw [hkind, hbank, hstv, hlost]
  rfl

end

end

/-! ## Requests that leave, and atomics that fall back (R84, R266, R353) -/

section
variable {s t : State} {c : CoreId} {h : CtxId} {k op : Nat} {q : Req}

section
variable (hreq : s.reqAt c h k = some q) (hfault : q.fault = none) (hreply : q.reply = none)
include hreq hfault hreply

theorem State.tryReply_open : s.tryReply c h k = s.loadReply c h k q := by
  unfold State.tryReply
  rw [hreq]
  dsimp only
  rw [hfault, hreply]
  rfl

theorem exec_splitPhaseReply_of (hload : s.loadReply c h k q = some t) : exec (.splitPhaseReply c h k) s = .next t :=
  happen_some s ((State.tryReply_open hreq hfault hreply).trans hload)

theorem State.tryAtomic_open (hkind : q.kind = .atomic op) (hfb : q.fb = none) (hopen : s.writeOpen c h k q = true) :
    s.tryAtomic c h k = if isRemote q.pa then (if q.sent then none else some (s.sendAtomic c h q op))
      else if q.obj || q.queue then (if q.ha then s.toQueue c h q op q.obj else some (s.deferFault c h q 0x17 0))
      else if s.isLost q.pa then some (s.deferFault c h q 0x18 (s.fi18 q.pa .store))
      else s.heldOr q.pa (some ((s.performAtomic c h q op (s.mem.read64 q.pa)).answer c h q (s.mem.read64 q.pa))) := by
  unfold State.tryAtomic
  rw [hreq]
  dsimp only
  rw [hkind]
  dsimp only
  rw [hfault, hfb, hreply, hopen]
  rfl

end

theorem State.tryGrant_leaves (hreq : s.reqAt c h k = some q) (hfault : q.fault = none) (hkind : q.kind = .store)
    (hopen : s.writeOpen c h k q = true) (hremote : isRemote q.pa = true) (hsent : q.sent = false) :
    s.tryGrant c h k = some (s.sendStore c h q) := by
  have hgo : ¬(q.kind ≠ .store ∨ q.fault.isSome = true ∨ (!s.writeOpen c h k q) = true) := by
    rw [hkind, hfault, hopen]
    decide
  unfold State.tryGrant
  rw [hreq]
  dsimp only
  rw [if_neg hgo, if_pos hremote, if_neg (Bool.eq_false_iff.mp hsent)]

theorem State.farLoad_leaves (hsent : q.sent = false) (hearlier : ∀ r ∈ s.openBefore c h k, r.meets q = false)
    (hpush : s.pushPending c h q.va q.pa q.size q.id = false) (sg : Bool) : s.farLoad c h k q sg = some (s.sendLoad c h q) := by
  unfold State.farLoad
  rw [hsent, forward_memory hearlier, hpush]
  rfl

end

/-- Settles O41: a reply's value by its kind (`State.loadValue_plain` to `State.loadReply_ldvn`), which its request takes
(`State.KeepsReqs.answer`), defers (`State.deferFault_defers`), or leaves for (`State.emit_leaves`). -/
theorem loadHappenings : Obligations.LoadHappenings := by
  unfold Obligations.LoadHappenings
  intro c h k q s hreq hfault hreply x bare earlier mine takes fails leaves does replies wide loads here plain known
  have hq := State.mem_reqs_of_reqAt hreq
  have reply {P : State → Prop} {t : State} (hload : s.loadReply c h k q = some t) (hP : P t) : replies P :=
    ⟨t, exec_splitPhaseReply_of hreq hfault hreply hload, hP⟩
  have near {sg : Bool} {n : Nat} {o : Option (Nat × Write)} {u : State} (hload : loads sg) (hhere : s.loadHere c q)
      (hlost : s.isLost q.pa = false) (hvalue : s.loadValue c h k q = some (n, o, u)) (hkeeps : s.KeepsReqs c h u) :
      replies (takes (wide sg n)) := by
    obtain ⟨t, ht, htakes⟩ := State.nearReply_loads hhere.passes hlost hload hvalue hkeeps
    rw [extend_eq] at htakes
    exact reply ((State.loadReply_near hhere.1 (.inl hload)).trans ht) htakes
  refine ⟨fun sg hload hhere hplain hearlier hpush => ?_, fun sg st hload hhere hplain hearlier hkind hmeets hlow hhigh => ?_,
    fun sg hkind hhere hlost hobj hload hline => ?_, fun sg hkind hhere hlost => ?_, fun hbank hstv hlost => ?_,
    fun sg hkind hstops hbit hlost hstv => ?_, fun hremote hsent => ⟨fun sg hkind hbit hearlier hpush => ?_,
      fun hkind hopen => ?_, fun op hkind hfb hopen => ?_⟩, fun op hkind hfb hremote hopen hha hfall => ?_⟩
  · obtain ⟨hversioned, hunknown, hobj, hlost⟩ := hplain
    obtain ⟨n, hlast, hknown, hvalue⟩ := s.observe_instant c h q.pa q.size
    refine ⟨n, hlast, hknown, ?_⟩
    rw [← hvalue]
    refine near hload hhere hlost (o := (s.observe c h q.pa q.size).2.1)
      ((State.loadValue_plain ⟨hversioned, hunknown, hobj⟩).trans ?_) (.observe s c h q.pa q.size)
    rw [forward_memory hearlier, hpush]
    rfl
  · obtain ⟨hversioned, hunknown, hobj, hlost⟩ := hplain
    refine near hload hhere hlost (o := none) ((State.loadValue_plain ⟨hversioned, hunknown, hobj⟩).trans ?_) (.refl s c h)
    rw [show s.openBefore c h k = [st] from hearlier, forward_store hkind hmeets hlow hhigh]
    rfl
  · obtain ⟨u, hvalue, hkeeps⟩ := State.constValue_uncached hload hobj hline
    obtain ⟨t, ht, htakes⟩ := State.nearReply_ldc (State.loadHere.passes hhere) hlost hkind hvalue hkeeps
    rw [extend_eq] at htakes
    exact reply ((State.loadReply_near hhere.1 (.inr hkind)).trans ht) htakes
  · exact reply ((State.loadReply_near hhere.1 hkind).trans (State.nearReply_lost (State.loadHere.passes hhere) hlost))
      (State.deferFault_defers hq 0x18 _)
  · refine ⟨fun hkind => ?_, fun hkind hrises => ?_⟩
    · have hldv := State.loadReply_ldv hbank hstv hlost hkind
      refine ⟨fun p hfind => ?_, fun hfind hbelow => ?_, fun hfind habove => ?_⟩
      · rw [hfind] at hldv
        exact reply hldv (s.readVersion_takes c h q p)
      · rw [hfind] at hldv
        exact reply (hldv.trans (if_pos hbelow)) (State.deferFault_defers hq 0x0B 0)
      · rw [hfind] at hldv
        have hwaits := (State.tryReply_open hreq hfault hreply).trans (hldv.trans (if_neg (not_lt.mpr habove)))
        show happen s (s.tryReply c h k) = _
        rw [hwaits]
        rfl
    · have hldvn := State.loadReply_ldvn hbank hstv hlost hkind
      refine ⟨fun p hp hle hgreatest => ?_, fun hnone => ?_⟩
      · rw [getLast?_of_greatest (hrises.filter _) (List.mem_filter.mpr ⟨hp, decide_eq_true hle⟩) fun r hr => by
          obtain ⟨hr, hrle⟩ := List.mem_filter.mp hr
          exact hgreatest r hr (of_decide_eq_true hrle)] at hldvn
        exact reply hldvn (s.readVersion_takes c h q p)
      · rw [List.filter_eq_nil_iff.mpr fun p hp => by simpa using hnone p hp] at hldvn
        exact reply hldvn ((State.KeepsReqs.refl s c h).answer q noVersion)
  · obtain ⟨t, ht, htakes⟩ := State.nearReply_loads hstops hlost (.inl hkind) (State.loadValue_version hbit hstv) (.refl s c h)
    rw [extend_eq] at htakes
    have hnear := (State.loadReply_versioned hkind hbit).trans ht
    cases hlast : (s.verAt q.pa).vers.getLast? with
    | none =>
      rw [State.newest_none hlast] at htakes
      exact reply hnear htakes
    | some p =>
      rw [State.newest_some hlast] at htakes
      exact reply hnear htakes
  · exact reply ((State.loadReply_far hremote hbit hkind).trans (State.farLoad_leaves hsent hearlier hpush sg))
      (State.emit_leaves hq _ _ _ _ _)
  · exact ⟨_, happen_some s (State.tryGrant_leaves hreq hfault hkind hopen hremote hsent), State.emit_leaves hq _ _ _ _ _⟩
  · refine ⟨s.sendAtomic c h q op, happen_some s ((State.tryAtomic_open hreq hfault hreply hkind hfb hopen).trans ?_),
      State.emit_leaves hq _ _ _ _ _⟩
    rw [if_pos hremote, if_neg (Bool.eq_false_iff.mp hsent)]
  · refine ⟨_, happen_some s ((State.tryAtomic_open hreq hfault hreply hkind hfb hopen).trans ?_),
      State.deferFault_defers hq 0x17 0⟩
    rw [if_neg (Bool.eq_false_iff.mp hremote), if_pos (by rwa [Bool.or_eq_true]), if_neg (Bool.eq_false_iff.mp hha)]

end Sys2Proof.Machine
end
